-- ==== Sys2Proof/Word.lean ====
section
/-! DEFINITION. The word types of the model. A byte of memory is a `Byte`; registers, counts, tags and Tide
stamps that the manual numbers as bits are bit vectors of the manual's width. -/

namespace Sys2Proof

/-- One byte of memory (R10: the byte at the lowest address holds bits [7:0]). -/
abbrev Byte := BitVec 8

/-- A 16-bit field. -/
abbrev W16 := BitVec 16

/-- A 32-bit register half: free-running counts F, Q, H (R174), doorbell halves (Table 06-1). -/
abbrev W32 := BitVec 32

/-- A 64-bit register: arrival counters (R203), Tide stamps (R380), BAR0 registers (Table 16-2). -/
abbrev W64 := BitVec 64

end Sys2Proof
end

