-- ==== Sys2Proof/Syntax.lean ====
section
/-! DEFINITION. The commands the block takes from outside: one constructor of `Instr` per row of
spec/opcode_table.json, with the operands the row needs. An operand names the unit, the command or the request a
row is about; where the row reports something the manual leaves to the physical world (a reading, a converter code,
a test result, a received frame), the operand holds that observation. Physical quantities are whole numbers:
temperatures in thousandths of a degree, powers in milliwatts, voltages in millivolts, times in nanoseconds. -/

namespace Sys2Proof

/-- A command in flight: its context, its sequence number (R174), and for a node of a graph run the node and the
iteration (R240). -/
structure CmdId where
  ctx  : Nat
  seq  : Nat
  node : Option (Nat × Nat) := none
  deriving DecidableEq, Repr, Inhabited

/-- How a management, test or privileged command reached the module (R216): the mailbox of a PCIe function
(0 is the physical function, v = 1 to 8 the virtual function v), or a ring. -/
inductive Route where
  | mailbox (fn : Nat)
  | ring (id : CmdId)
  deriving DecidableEq, Repr, Inhabited

/-- The path of a doorbell write (R504): BAR0 of a function, or the register mirror (R315). -/
inductive DoorbellPath where
  | bar0 (fn : Nat)
  | mirror
  deriving DecidableEq, Repr, Inhabited

/-- A Lighthouse by its pair and its number k (Table 13-3). -/
inductive LighthouseId where
  | engine (berth engine k : Nat)
  | fabric (site k : Nat)
  | link (quay k : Nat)
  deriving DecidableEq, Repr, Inhabited

/-- An element that is tested, calibrated, spared or retired (Tables 15-1, 15-3 and 15-4). -/
inductive Element where
  | engine (berth engine : Nat)
  | tile (berth vtile : Nat)
  | router (berth : Nat)
  | lighthouse (lh : LighthouseId)
  | harbourmaster (inst : Nat)
  | fabricRings (site : Nat)
  | fabricLanes (site : Nat)
  | linkLanes (link : Nat)
  | nearLanes (stack : Nat)
  | connections (stack channel : Nat)
  deriving DecidableEq, Repr, Inhabited

/-- What triggered a calibration (Table 15-1). -/
inductive CalTrigger where
  | temperature (now : Int)
  | age
  | residualExcess
  | returnFromOff
  | bandChange
  deriving DecidableEq, Repr, Inhabited

/-- What a targeted test found (R461): pass, or fail with the logical lines and rows found faulty
(row 128 is the checksum row). -/
structure TestResult where
  pass  : Bool
  lines : List Nat := []
  rows  : List Nat := []
  deriving DecidableEq, Repr, Inhabited

/-- The kind of a request (Table 10-5, KIND). -/
inductive ReqKind where
  | load | store | atomic
  deriving DecidableEq, Repr, Inhabited

/-- The channel of a request (Table 05-4). -/
inductive Channel where
  | req | rsp | bulk | ctl
  deriving DecidableEq, Repr, Inhabited

/-- The atomic operations of Table 10-7. -/
inductive AtomicOp where
  | add | fadd | bfadd2 | min | max | swap | cas | fand | for
  deriving DecidableEq, Repr, Inhabited

/-- A request on the wire: the header of Table 10-5 with its operands. `srcPos`, `srcSite` and `dstSite` are what
the endpoints of Tables 10-2 and 10-3 name, `srcVtile` is the VTILE of the source endpoint. `bar2` is the PCIe
function of an access through BAR2 (R489), which has no source endpoint. -/
structure WireReq where
  kind     : ReqKind
  tag      : Nat
  srcCtx   : Option CmdId
  gen      : BitVec 8
  epoch    : BitVec 8
  srcPos   : Nat
  srcSite  : Nat
  srcVtile : Nat := 255
  addr     : Nat
  size     : Nat
  mask     : BitVec 64 := 0
  data     : List Byte := []
  aop      : AtomicOp := .add
  opP      : BitVec 64 := 0
  opQ      : BitVec 64 := 0
  ch       : Channel := .req
  pri      : Bool := false
  swell    : Bool := false
  bar2     : Option Nat := none
  deriving DecidableEq, Repr, Inhabited

/-- The queues of Table 10-9. -/
inductive SwellQueue where
  | meshOutput
  | dieToDie
  | fabricEgress
  | stackScheduler
  | tileIngress
  | quayEgress
  | quayIngress
  deriving DecidableEq, Repr

/-- What the physical array shows when a request is served (R252): the number of wrong symbols of the codeword
(0 none, 1 corrected, 2 or more uncorrectable), the symbol of the 72 and its bit that the syndrome names, and the queues the
request joined on its way, each with what it held then, in the unit of Table 10-9 (R330). -/
structure ServeObs where
  wrong      : Nat := 0
  symbol     : Nat := 0
  bit        : Nat := 0
  queues     : List (SwellQueue × Nat) := []
  deriving DecidableEq, Repr, Inhabited

/-- A response (KIND 4 of Table 10-5). -/
structure WireResp where
  tag    : Nat
  gen    : BitVec 8
  status : Nat
  echo   : Bool
  data   : List Byte := []
  dstPos : Nat := 0
  src    : Nat := 0
  /-- Table 05-4: the priority of the request it answers -/
  pri    : Bool := false
  deriving DecidableEq, Repr, Inhabited

/-- A flow: the REQ or BULK traffic of one source context to one destination site (R332). -/
structure FlowId where
  ctx  : Nat
  bulk : Bool
  pos  : Nat
  site : Nat
  deriving DecidableEq, Repr, Inhabited

/-- The frame body of Table 09-2. -/
structure FabricFrame where
  crc      : BitVec 64
  payload  : BitVec 1568
  ackSeq   : W32
  seq      : W32
  evt      : Nat
  evtPlane : Nat
  first    : BitVec 8
  nak      : Bool
  idreq    : Bool
  idle     : Bool
  stripe   : Bool
  credits  : W32
  deriving DecidableEq, Repr, Inhabited

/-- A frame as its receiver sees it (R283 to R286): its 16 lane frames; the 64-byte units of packets of each channel that its
payload holds; and the further destinations for which its sender held packets and credit. -/
structure FrameSeen where
  lanes   : List (BitVec 112)
  units   : List Nat := []
  waiting : List Nat := []
  deriving DecidableEq, Repr, Inhabited

/-- A ring that acquires: its plane, whether it is a receiver ring, and the frequency at which its heater starts it, in GHz
above its own line (R289). -/
structure RingSeen where
  plane  : Nat
  rx     : Bool
  offset : Int
  deriving DecidableEq, Repr, Inhabited

/-- The figures of a fabric lane's margin test (R300): eye width in 1/256 of a unit interval, received OMA in 0.01 dBm. -/
structure MarginFig where
  eye : Nat
  oma : Int
  deriving DecidableEq, Repr, Inhabited

/-- Identity words as a receiver sees them (R293, R294): the word that the sync headers of the lane of a plane spelled, or the
words in the 16 lane frames of an identity frame, in order, whatever the plane. -/
inductive IdSeen where
  | marker (word : W64)
  | frame (words : List W64)
  deriving DecidableEq, Repr, Inhabited

/-- A bundle frame of a near link (R304): header fields of Table 09-2, 240 bytes of payload, CRC-64. -/
structure BundleFrame where
  seq     : W32
  ackSeq  : W32
  nak     : Bool
  evt     : Nat
  evtLane : Nat
  stripe  : Bool
  crcGood : Bool
  /-- The lane frames, 0 to 31, that fail when the bundle frame fails its check -/
  failing : List Nat := []
  credits : W32 := 0
  /-- The 64-byte units of REQ, RSP, BULK and CTL packets that the payload holds -/
  units   : List Nat := []
  payload : BitVec 1920 := 0
  deriving DecidableEq, Repr, Inhabited

/-- The link training word of Table 11-2. -/
structure TrainWord where
  cfgCrc  : W32
  members : BitVec 25
  link    : Nat
  pos     : Nat
  part    : Nat
  check   : W32
  /-- R353: the wavelengths that serve in the direction of this word, and in the other one -/
  lanes   : Nat := 32
  lanesBack : Nat := 32
  /-- R352: the refusal code with which the partner refuses the link, 0 when it does not -/
  refused : Nat := 0
  deriving DecidableEq, Repr, Inhabited

/-- What the master's word on a pair's change of route says besides the pair's lower position: the upper one, and on a member the
relay that the master has chosen (R361). -/
structure MoveSeen where
  q     : Nat
  relay : Option Nat := none
  deriving DecidableEq, Repr, Inhabited

/-- What ends a drain: the pair's upper position, and on the master the ends that have reported drained and written (R345). -/
structure DrainSeen where
  q       : Nat
  drained : List Nat := []
  written : List Nat := []
  deriving DecidableEq, Repr, Inhabited

/-- What the master passes on about a site of a member: its role epoch, and the member's PART (R341, R360, R531). -/
structure EpochSeen where
  epoch : BitVec 8
  part  : Option Nat := none
  deriving DecidableEq, Repr, Inhabited

/-- What a link frame shows the receiving quay (R353 to R355, R375): whether it decodes, whether it is the idle
frame, whether the elastic buffer is above half full, and whether it carries transit traffic. -/
structure LinkFrameObs where
  decodes   : Bool
  idle      : Bool
  aboveHalf : Bool
  transit   : Bool := false
  transitTo : Nat := 0
  /-- the frame carries a lane marker (R375) -/
  marker    : Bool := false
  /-- the 64-byte units of REQ, RSP, BULK and CTL that a transit frame carries, and the credits for such that any frame returns
  (R363) -/
  units     : List Nat := []
  credits   : List Nat := []
  /-- frames of the own module wait at the outgoing link beside a transit frame, and the transit flows that wait there (R363) -/
  ownWaits  : Bool := false
  flows     : Nat := 1
  deriving DecidableEq, Repr, Inhabited

/-- What an integration window met besides its outputs: it was fed (R89), and the comb monitor raised a Lighthouse fault in it
(R99, R106). -/
structure WindowSeen where
  fed        : Bool := true
  lighthouse : Bool := false
  deriving DecidableEq, Repr, Inhabited

/-- A crossing by the two blocks it joins, each named by its domain number of Table 13-3 (R373, R377). -/
structure CrossingId where
  a : Nat
  b : Nat
  deriving DecidableEq, Repr, Inhabited

/-- The element rung that did not answer (Table 15-5). -/
inductive StuckUnit where
  | sequencer
  | tug
  | engine (berth engine : Nat)
  deriving DecidableEq, Repr, Inhabited

/-- The readings of one berth that POWER_CAP_TICK evaluates (R409 to R411): berth power over the last 100 µs, the
16 core-rail powers, the 128 die sensors and the 6 base-layer sensors. -/
structure BerthReading where
  berth     : Nat
  power     : Nat
  railPower : List Nat
  die       : List Int
  base      : List Int
  deriving DecidableEq, Repr, Inhabited

/-- The module-wide readings of POWER_CAP_TICK (Table 13-7). -/
structure ModuleReading where
  berths : List BerthReading
  quays  : List Int
  hmArea : List Int
  tIn    : Int
  tOut   : Int
  /-- the sensors at the coolant outlet edge -/
  edge   : List Int := []
  /-- the power of the site nearest to each base-layer sensor that lies beneath no berth, in mW: 8 quays, 4 of the Harbourmaster
  area, 4 of the edge -/
  sitePower : List Nat := []
  deriving DecidableEq, Repr, Inhabited

/-- The readings of one stack that LAYER_MODEL_TICK evaluates (R274, R275): 16 rows of 4 layer sensors, the 4
base-die sensors under the array, the 4 regulator sensors and the 16 layer powers. -/
structure StackReading where
  layers : List (List Int)
  base   : List Int
  reg    : List Int
  powers : List Nat
  deriving DecidableEq, Repr, Inhabited

/-- A segment of one channel of one stack: the key of a remap entry (R262). -/
structure SegKey where
  stack   : Nat
  channel : Nat
  segment : Nat
  deriving DecidableEq, Repr, Inhabited

/-- A corrected symbol that a scrub found (R254): its row, the sector of the row, the symbol and the bit, and whether the
same bit was wrong again on the read after the write-back. -/
structure ScrubFinding where
  row       : Nat
  permanent : Bool
  sector    : Nat := 0
  symbol    : Nat := 0
  bit       : Nat := 0
  deriving DecidableEq, Repr, Inhabited

/-- A symbol corrected while a row is copied through the code (R252, R263, R266): its bank and row, the sector of the row, the
symbol and the bit. -/
structure CopyFix where
  bank   : Nat
  row    : Nat
  sector : Nat
  symbol : Nat
  bit    : Nat
  deriving DecidableEq, Repr, Inhabited

/-- What a refresh gap met: the near lanes that pass their test, and what the copies of repaired rows corrected. -/
structure GapSeen where
  lanesPass : List Nat
  fixed     : List CopyFix := []
  deriving DecidableEq, Repr, Inhabited

/-- What the copy of a segment met: the sectors that could not be corrected, and the symbols that were. -/
structure CopySeen where
  bad   : List Nat
  fixed : List CopyFix := []
  deriving DecidableEq, Repr, Inhabited

/-- A claim to be acting master (R357): the claimant and how many members it reaches, itself included. -/
structure Claim where
  pos     : Nat
  reaches : Nat
  deriving DecidableEq, Repr, Inhabited

/-- What the margin test measures of a lane (R300, R301): the fabric lane (source, destination, plane) or the near lane
(stack, bundle, lane); its eye width at a BER of 10⁻¹², in 1/256 of a unit interval, and for a fabric lane its received OMA,
in 0.01 dBm. -/
structure LaneFig where
  a    : Nat
  b    : Nat
  lane : Nat
  eye  : Nat
  oma  : Int := 0
  deriving DecidableEq, Repr, Inhabited

/-- The errors of a vertical connection (stack, channel, connection) with the strobe 0.125 UI before and behind its centre,
in 2²¹ transfers each (R301). -/
structure ConnFig where
  stack   : Nat
  channel : Nat
  conn    : Nat
  early   : Nat
  late    : Nat
  deriving DecidableEq, Repr, Inhabited

/-- What a boot stage finds (Tables 14-4 and 14-5); which part applies depends on the stage in progress. Stage B0: the boot
code of slots A and B verifies, and HM-A passes its ROM self-check. Stage B2: the deviation of REFCLK from 100 MHz in ppm,
none when it is absent (R515). Stage B3: the sites of the dies whose identity fuses
cannot be read. Stage B4: the figures of fabric lanes, near lanes and connections; a lane that is not listed meets
every figure, a connection that is not listed shows no error. Stage B5: the Blunen images of slots 0 (`slotA`) and 1 (`slotB`)
verify, and the floor that the image declares. Stage B6: elements that fail their tests, sensors that fail, as (site,
sensor), and the ENOB measured for each class, by berth × 16 + engine. -/
structure BootObs where
  slotA         : Bool := true
  slotB         : Bool := true
  romHmA        : Bool := true
  unreadable    : List Nat := []
  lanes         : List LaneFig := []
  near          : List LaneFig := []
  conns         : List ConnFig := []
  floor         : Nat × Nat := (0, 0)
  failedTests   : List Element := []
  failedSensors : List (Nat × Nat) := []
  enobs         : List (Nat × List Nat) := []
  refclk        : Option Int := some 0
  deriving DecidableEq, Repr, Inhabited

/-- The resets that arrive over PCI Express and reach the PCIe domain only (R424). -/
inductive PcieReset where
  | hot | linkDown | pfFlr
  deriving DecidableEq, Repr, Inhabited

/-- Where a register write goes: BAR0 of a function, or NumVFs of its configuration space (R513). -/
inductive RegSpace where
  | bar0 (fn : Nat)
  | numVFs (fn : Nat)
  deriving DecidableEq, Repr, Inhabited

/-- The function that a register write is for. -/
def RegSpace.fn : RegSpace → Nat
  | .bar0 f => f
  | .numVFs f => f

/-- Which condition of a cooling fault has held for 1 s (R414). -/
inductive CoolingCause where
  | lowFlow | hotBase
  deriving DecidableEq, Repr, Inhabited

/-- The commands and events of the module: the rows of spec/opcode_table.json, in the table's order. -/
inductive Instr where
  -- management (ch. 06, 07, 10, 12, 13, 15)
  | ctxOpen (fn : Nat)
  | ctxClose (fn : Nat)
  | ctxAbort (fn : Nat)
  | ctxQuery (r : Route)
  | fwInfo (r : Route)
  | healthRead (r : Route)
  | roleChange (fn : Nat)
  | roleDrainDone (site : Nat)
  | domainSet (r : Route)
  | domainTransitionDone (domain : Nat)
  | tideAlarm (r : Route)
  | tideAlarmFire
  -- Tugs and synchronisation
  | tugCopy (id : CmdId)
  | tugFill (id : CmdId)
  | tugChunkDone (id : CmdId) (chunk : Nat)
  | cntWait (id : CmdId)
  | cntAdd (id : CmdId)
  | cntSet (id : CmdId)
  | cntRead (id : CmdId)
  | tideWait (id : CmdId)
  | tideRead (id : CmdId)
  | ctxDrain (id : CmdId)
  -- operators
  | matmul (id : CmdId)
  | optMatmul (id : CmdId)
  | convert (id : CmdId)
  | transpose (id : CmdId)
  | ewise (id : CmdId)
  | tableFn (id : CmdId)
  | reduce (id : CmdId)
  | softmax (id : CmdId)
  | attention (id : CmdId)
  | allReduce (id : CmdId)
  | allGather (id : CmdId)
  | reduceScatter (id : CmdId)
  | broadcast (id : CmdId)
  | collectiveRendezvous (collId : Nat) (remoteAgree : Bool)
  | graphLoad (id : CmdId)
  | graphRun (id : CmdId)
  | graphUnload (id : CmdId)
  | graphNodeStart (id : CmdId)
  | graphEdgeStatus (id : CmdId) (producer : Nat) (status : Nat)
  -- test, calibration, privileged
  | selftest (r : Route)
  | calibrate (r : Route)
  | keyEnrol (r : Route)
  | secureErase (r : Route)
  | lifetimeReset (r : Route)
  | fwRollback (r : Route)
  | configStage (r : Route)
  | debugEnable (r : Route)
  | breakwaterWrite
  -- command processing
  | sqTail (path : DoorbellPath) (ctx : Nat) (value : W32)
  | cqHead (path : DoorbellPath) (ctx : Nat) (value : W32)
  | commandFetch (ctx : Nat)
  | commandStart (id : CmdId)
  | commandTimeout (r : Route)
  | stopEscalation (id : CmdId) (unit : StuckUnit)
  | commandCompletion (r : Route)
  -- requests
  | requestIssue (req : WireReq)
  | load (req : WireReq) (obs : ServeObs)
  | store (req : WireReq) (obs : ServeObs)
  | atomic (req : WireReq) (obs : ServeObs)
  | response (resp : WireResp)
  | flowIdleExpiry (flow : FlowId)
  | requestDeadBound (tag : Nat)
  | probeAnswer (site : Nat)
  | probeTimeout (site : Nat)
  | epochTableUpdate (pos site : Nat) (epoch : EpochSeen)
  -- engines
  | bankLoadDone (berth engine : Nat)
  | bankSwitch (berth engine : Nat)
  | guardEnd (berth engine : Nat)
  | integrationWindowEnd (berth engine : Nat) (rows : List Int) (check : Int) (seen : WindowSeen)
  | windowOutput (berth engine : Nat)
  | heaterTick (berth engine : Nat) (temp : Int) (combPpm : Nat)
  | tapMonitorTick (berth engine : Nat) (linePpm : List Nat)
  | rateDetectorTick (berth engine : Nat) (slope : Int)
  | thermalResume (berth engine : Nat) (settled : Bool)
  | lighthouseFault (berth engine : Nat)
  | lhSwitchoverDone (berth engine : Nat)
  | fabricLighthouseFault (site : Nat)
  | fabricLhResume (site : Nat)
  | linkLighthouseFault (quay : Nat)
  | standbyCheck (lh : LighthouseId) (pass : Bool)
  | engineReset (berth engine : Nat)
  | engineResetDone (berth engine : Nat)
  | targetedTestDone (el : Element) (res : TestResult)
  | calibrationTrigger (el : Element) (why : CalTrigger)
  | calibrationDone (berth engine : Nat) (enob : List Nat) (res : TestResult)
  -- clock regions and tiles
  | replicaWarning (berth region cycle : Nat)
  | stretchRecoveryEnd (berth region cycle : Nat)
  | recoveryStepdown (berth region cycle : Nat)
  | stretchLimit (berth region : Nat)
  | stepUpTimer (berth region : Nat)
  | stepChange (berth region : Nat)
  | stepHoldEnd (berth region : Nat)
  | meshLoadWindow (berth : Nat) (slotsHigh : Nat)
  | coreSubstitution (berth vtile : Nat)
  | coreSubstitutionDone (berth vtile : Nat) (badWords : List Nat)
  -- fabric and near lanes
  | stripedFrame (src dst : Nat) (frame : FrameSeen)
  | identityWord (src dst plane : Nat) (word : IdSeen)
  | ringLock (src dst : Nat) (ring : RingSeen)
  | ringDarkExpiry (src dst : Nat)
  | retrainingDone (src dst : Nat)
  | laneSleep (src dst : Nat)
  | fabricLaneBerExceeded (src dst plane : Nat)
  | laneMarginTestDone (src dst plane : Nat) (fig : MarginFig)
  | nearBundleFrame (stack bundle : Nat) (up : Bool) (frame : BundleFrame)
  | nearLaneBerExceeded (stack bundle lane : Nat)
  -- stacks
  | refreshOperation (stack channel bank : Nat)
  | refreshGap (stack channel : Nat) (loopbackPass : List Nat) (seen : GapSeen)
  | scrub (stack channel bank : Nat) (found : List ScrubFinding)
  | rowBufferWriteback (stack channel bank row : Nat)
  | segmentMoveStart (key : SegKey)
  | segmentHoldAck (key : SegKey) (source : Nat)
  | segmentCopyDone (key : SegKey) (seen : CopySeen)
  | segmentRecorded (key : SegKey)
  | retiredRangeExpiry (key : SegKey)
  | layerModelTick (stack : Nat) (r : StackReading)
  | stackSensorSuspect (stack sensor : Nat)
  | railFault (stack rail : Nat)
  -- clocks, Tide, sleep
  | crossingTimeout (c : CrossingId)
  | refCheckWindow (edges : Nat) (missing : Bool)
  | tideModeAlwaysOn (edges : Nat)
  | tideModeReference
  | moduleSleep
  | wake (code : Nat) (sameEdge : List Nat) (quay : Nat)
  | mpAddressMatchWake (offset : Nat)
  | presenceButtonPress
  | presenceHold
  | presenceWindowExpiry
  -- power and thermal
  | inputVoltageChange (millivolts : Nat)
  | conversionResume
  | interlockOpen
  | brownOut
  | alwaysOnStoreExhausted
  | preCharge
  | limiterTick (berth power : Nat)
  | powerCapTick (r : ModuleReading)
  | dieSensorSuspect (berth sensor : Nat)
  | flowRequestTick (powerIn : Nat) (tIn tOut : Int)
  | coolingFault (why : CoolingCause)
  | coolingFaultClear
  | berthShutdown (berth : Nat)
  | thermalHoldEnd (berth : Nat) (temp : Int)
  | alwaysOnThermalSample (hmArea : List Int) (tIn tOut : Int)
  -- resets and boot
  | resetN (level : Bool) (lowFor : Nat)
  | watchdog
  | hmLockup
  | hmSwitchover (fatal : Bool)
  | hmHandback
  | resetReq (fn : Nat) (value : W64)
  | jtagResetInstruction
  | pcieHotReset (kind : PcieReset)
  | vfFlr (vf : Nat)
  | partitionReset (part : Nat) (cause : Nat)
  | releaseStep
  | bootStageDone (obs : BootObs)
  | readyTimeout
  | siteRecovery (site : Nat) (pass : Bool)
  -- harbour
  | trainingWord (link : Nat) (word : TrainWord)
  | linkRetrainTimer (link : Nat)
  | linkFrame (link : Nat) (obs : LinkFrameObs)
  | linkNoFrame (link : Nat)
  | linkRelease (link : Nat)
  | relayRouteTimer (p : Nat) (q : MoveSeen)
  | routeReturnTimer (p q : Nat)
  | routeDrainDone (p : Nat) (q : DrainSeen)
  | tideSyncSend
  | tideSyncMessage (link : Nat) (masterTide : Nat) (arrival : Nat)
  | tideDelayExchange (link : Nat) (t1 t2 t3 t4 : Nat)
  | tideFirstLock (harbourTide : Nat)
  | holdoverExpiry
  | heartbeat (pos : Nat) (part : Nat)
  | heartbeatTimeout (pos : Nat) (probeAnswered : Bool)
  | deadDeclaration (pos : Nat) (site : Option Nat)
  | masterSyncLoss
  | claimCollect (claims : List Claim)
  | masterHandback
  | rejoinRequest (pos : Nat) (part : Nat)
  -- registers, fault events, management port
  | mbxCtrlGo (fn : Nat) (value : W64)
  | feEnable (value : W64)
  | feDisable (value : W64)
  | feHeadWrite (value : W32)
  | faultEventDelivery
  | errorLogWrite
  | mpWriteTransaction (offset : Nat) (data : List Byte)
  | mpDynamicAddress (addr : Nat)
  | dumpCtrl (value : W32)
  | dumpWindowLoaded
  | imgCommit (value : W32)
  | imgVerifyDone
  | registerWrite (space : RegSpace) (offset : Nat) (data : List Byte)
  | newStart
  | interlockClose
  | generatorLockLoss (block : Nat)
  | tamperSealBreak
  | partitionResetDone (part : Nat)
  | escalationRungDeadline (rung : Nat) (reach : Nat) (unit : Nat)
  | linkResetEntryInstant (link : Nat)
  deriving DecidableEq, Repr, Inhabited

end Sys2Proof
end

