-- ==== Sys2Proof/Machine/Bits.lean ====
section
/-! DEFINITION. Bit fields, bytes, signed fields, checks and small list helpers. All multi-byte fields are
little-endian (R10). -/

namespace Sys2Proof.Machine

/-- Bits [lo + len − 1 : lo] of `x`. -/
def fld (x lo len : Nat) : Nat := (x >>> lo) % 2 ^ len

/-- Bit `i` of `x`. -/
def bitAt (x i : Nat) : Bool := fld x i 1 == 1

/-- `x` with bits [lo + len − 1 : lo] replaced by `v`. -/
def setFld (x lo len v : Nat) : Nat :=
  x - (fld x lo len) <<< lo + (v % 2 ^ len) <<< lo

/-- 1 for true. -/
def bit (b : Bool) : Nat := if b then 1 else 0

/-- A field of `len` bits as a two's-complement number. -/
def toSigned (len x : Nat) : Int :=
  if x % 2 ^ len < 2 ^ (len - 1) then (x % 2 ^ len : Nat) else (x % 2 ^ len : Nat) - (2 ^ len : Nat)

/-- The two's-complement code of `i` in `len` bits. -/
def ofSigned (len : Nat) (i : Int) : Nat := (i % (2 ^ len : Nat)).toNat

/-- The `n` bytes of `x`, lowest first (R10). -/
def bytesLE : Nat → Nat → List Byte
  | 0, _ => []
  | n + 1, x => BitVec.ofNat 8 x :: bytesLE n (x / 256)

/-- The number that bytes spell, lowest first (R10). -/
def leNat : List Byte → Nat
  | [] => 0
  | b :: bs => b.toNat + 256 * leNat bs

/-- Bytes `off` to `off + n − 1` of a list, zero past its end. -/
def sliceBytes (l : List Byte) (off n : Nat) : List Byte :=
  let s := (l.drop off).take n
  s ++ List.replicate (n - s.length) 0#8

/-- `x / y` rounded up. -/
def ceilDiv (x y : Nat) : Nat := (x + y - 1) / y

/-- One bit of an integer square root: try bit `k`. -/
def sqrtBits (n : Nat) : Nat → Nat → Nat
  | 0, r => r
  | k + 1, r => let r' := r + 2 ^ k; sqrtBits n k (if r' * r' ≤ n then r' else r)

/-- The integer square root, rounded down. -/
def isqrt (n : Nat) : Nat := sqrtBits n (Nat.log2 n / 2 + 1) 0

/-- The integer square root, rounded up. -/
def isqrtUp (n : Nat) : Nat := let r := isqrt n; if r * r = n then r else r + 1

/-- Put a number at its place in a rising list, once. -/
def insertNat (x : Nat) : List Nat → List Nat
  | [] => [x]
  | y :: ys => if x < y then x :: y :: ys else if x = y then y :: ys else y :: insertNat x ys

/-- Append an element that is not in the list yet. -/
def addNew {α : Type} [DecidableEq α] (x : α) (l : List α) : List α := if x ∈ l then l else l ++ [x]

/-- The Tide stamps of the last `span` ns. -/
def within (span t : Nat) (l : List Nat) : List Nat := l.filter (fun x => decide (t < x + span))

/-- Change the elements of a list that satisfy `p`. -/
def mapIf {α : Type} (p : α → Bool) (f : α → α) (l : List α) : List α := l.map (fun x => if p x then f x else x)

/-- The numbers of the set bits of `x` below `n`, ascending. -/
def setBits (n x : Nat) : List Nat := (List.range n).filter (fun i => bitAt x i)

/-- The number whose set bits are the list's elements. -/
def ofBits (l : List Nat) : Nat := l.foldl (fun a i => a ||| 2 ^ i) 0

/-- The sum of a list. -/
def sumNat (l : List Nat) : Nat := l.foldl (· + ·) 0

/-- The greatest element of a list of temperatures, `d` for the empty list. -/
def maxInt (d : Int) : List Int → Int
  | [] => d
  | [x] => x
  | x :: xs => let m := maxInt d xs; if m ≤ x then x else m

/-- `x` held between `lo` and `hi`. -/
def clampInt (lo hi x : Int) : Int := if x < lo then lo else if hi < x then hi else x

/-- One bit of a CRC of `w` bits with polynomial `poly`. -/
def crcStep (w poly : Nat) (crc : Nat) (b : Bool) : Nat :=
  let top := bitAt crc (w - 1)
  let sh := (crc <<< 1) % 2 ^ w
  if top != b then sh ^^^ poly else sh

/-- A CRC of `w` bits over the `n` low bits of `x`, highest bit first. -/
def crcBits (w poly : Nat) : Nat → Nat → Nat → Nat
  | 0, _, crc => crc
  | n + 1, x, crc => crcBits w poly n x (crcStep w poly crc (bitAt x n))

/-- The 16-bit check of the lane identity word: polynomial 0x1021, start 0xFFFF (R293). -/
def crc16 (n x : Nat) : Nat := crcBits 16 0x1021 n x 0xFFFF

/-- CRC-64 of ECMA-182 from a start value (R283). -/
def crc64 (start n x : Nat) : Nat := crcBits 64 0x42F0E1EBA9EA3693 n x start

end Sys2Proof.Machine
end

