-- ==== Sys2Proof/Machine/Formats.lean ====
section
/-! DEFINITION. Number formats, rounding, conversions and tallies (spec/02_number_formats.md). A value is an exact
dyadic number, so every result is rounded once, into its destination. -/

namespace Sys2Proof.Machine

/-! ## Exact values -/

/-- What an element holds: a finite value (−1)^neg × mant × 2^expo, an infinity, a NaN or an element marker. -/
inductive Num where
  | fin (neg : Bool) (mant : Nat) (expo : Int)
  | inf (neg : Bool)
  | nan
  | marker
  deriving DecidableEq, Repr, Inhabited

/-- +0. -/
def Num.zero : Num := .fin false 0 0

/-- The element is a NaN or an element marker: it has no value (R42, R54). -/
def Num.isNan : Num → Bool
  | .nan => true
  | .marker => true
  | _ => false

/-- The element is a finite value other than zero. -/
def Num.isFinNonzero : Num → Bool
  | .fin _ m _ => m != 0
  | _ => false

/-- An integer as a value. -/
def Num.ofInt (i : Int) : Num := .fin (decide (i < 0)) i.natAbs 0

/-- Rounding modes (R60). -/
inductive Rnd where
  | rne | rtz | rdn | rup
  deriving DecidableEq, Repr, Inhabited

/-- The 2-bit code of a rounding mode (R60). -/
def Rnd.ofCode (n : Nat) : Rnd :=
  match n % 4 with
  | 0 => .rne
  | 1 => .rtz
  | 2 => .rdn
  | _ => .rup

/-- The magnitude `m` × 2^`e` rounded to an integer by the mode (R60). -/
def roundMag (r : Rnd) (neg : Bool) (m : Nat) (e : Int) : Nat :=
  if 0 ≤ e then m <<< e.toNat
  else
    let s := (-e).toNat
    let q := m >>> s
    let rem := m % 2 ^ s
    let up := match r with
      | .rne => decide (2 ^ s < 2 * rem) || (decide (2 * rem = 2 ^ s) && q % 2 == 1)
      | .rtz => false
      | .rdn => neg && rem != 0
      | .rup => !neg && rem != 0
    if up then q + 1 else q

/-- floor(log2(m × 2^e)) for m ≠ 0. -/
def floorLog (m : Nat) (e : Int) : Int := (Nat.log2 m : Int) + e

/-- m1 × 2^e1 ≤ m2 × 2^e2. -/
def leDy (m1 : Nat) (e1 : Int) (m2 : Nat) (e2 : Int) : Bool :=
  if e1 ≤ e2 then decide (m1 ≤ m2 <<< (e2 - e1).toNat) else decide (m1 <<< (e1 - e2).toNat ≤ m2)

/-- The greater of two finite magnitudes. -/
def maxDy (a b : Nat × Int) : Nat × Int := if leDy a.1 a.2 b.1 b.2 then b else a

/-- The exact sum of two signed dyadic numbers, at the smaller exponent. -/
def addDy (n1 : Bool) (m1 : Nat) (e1 : Int) (n2 : Bool) (m2 : Nat) (e2 : Int) : Int × Int :=
  let e := if e1 ≤ e2 then e1 else e2
  let a : Int := (m1 <<< (e1 - e).toNat : Nat)
  let b : Int := (m2 <<< (e2 - e).toNat : Nat)
  ((if n1 then -a else a) + (if n2 then -b else b), e)

/-- The sum of two values before rounding (R42, R43): a zero of opposite signs is +0, or −0 in mode RDN. -/
def Num.add (r : Rnd) : Num → Num → Num
  | .fin n1 m1 e1, .fin n2 m2 e2 =>
    if m1 = 0 ∧ m2 = 0 then
      .fin (if n1 == n2 then n1 else decide (r = .rdn)) 0 0
    else
      let (s, e) := addDy n1 m1 e1 n2 m2 e2
      if s = 0 then .fin (decide (r = .rdn)) 0 0 else .fin (decide (s < 0)) s.natAbs e
  | .inf a, .inf b => if a == b then .inf a else .nan
  | .inf a, .fin _ _ _ => .inf a
  | .fin _ _ _, .inf b => .inf b
  | _, _ => .nan

/-- The negated value. -/
def Num.neg : Num → Num
  | .fin n m e => .fin (!n) m e
  | .inf n => .inf (!n)
  | x => x

/-- The magnitude. -/
def Num.abs : Num → Num
  | .fin _ m e => .fin false m e
  | .inf _ => .inf false
  | x => x

/-- The exact product of two values (R42, R43). -/
def Num.mul : Num → Num → Num
  | .fin n1 m1 e1, .fin n2 m2 e2 => .fin (n1 != n2) (m1 * m2) (e1 + e2)
  | .inf a, .inf b => .inf (a != b)
  | .inf a, .fin n m _ => if m = 0 then .nan else .inf (a != n)
  | .fin n m _, .inf b => if m = 0 then .nan else .inf (n != b)
  | _, _ => .nan

/-- x ≤ y for values that are neither NaN nor marker. -/
def Num.le : Num → Num → Bool
  | .inf true, _ => true
  | _, .inf false => true
  | .inf false, _ => false
  | _, .inf true => false
  | .fin n1 m1 e1, .fin n2 m2 e2 =>
    if m1 = 0 ∧ m2 = 0 then true
    else if n1 && !n2 then true
    else if !n1 && n2 then decide (m1 = 0 ∧ m2 = 0)
    else if n1 then leDy m2 e2 m1 e1
    else leDy m1 e1 m2 e2
  | _, _ => false

/-! ## Scalar floating-point encodings (R40, Table 02-3) -/

/-- How a format uses its all-ones exponent field (Table 02-3). -/
inductive Special where
  /-- infinities and NaNs -/
  | ieee
  /-- S.1111.111 is NaN, the rest are numbers -/
  | e4m3
  /-- every encoding is a number -/
  | numbers
  deriving DecidableEq, Repr

/-- A row of Table 02-3. -/
structure FloatFmt where
  ebits   : Nat
  fbits   : Nat
  bias    : Nat
  special : Special
  deriving DecidableEq, Repr

def fmtFP32 : FloatFmt := ⟨8, 23, 127, .ieee⟩
def fmtFP16 : FloatFmt := ⟨5, 10, 15, .ieee⟩
def fmtBF16 : FloatFmt := ⟨8, 7, 127, .ieee⟩
def fmtE4M3 : FloatFmt := ⟨4, 3, 7, .e4m3⟩
def fmtE5M2 : FloatFmt := ⟨5, 2, 15, .ieee⟩
def fmtE3M2 : FloatFmt := ⟨3, 2, 3, .numbers⟩
def fmtE2M3 : FloatFmt := ⟨2, 3, 1, .numbers⟩
def fmtE2M1 : FloatFmt := ⟨2, 1, 1, .numbers⟩

/-- Bits of an encoding. -/
def FloatFmt.width (f : FloatFmt) : Nat := 1 + f.ebits + f.fbits

/-- The canonical NaN with sign 0 (R42, Table 02-3). -/
def FloatFmt.nan (f : FloatFmt) : Nat :=
  match f.special with
  | .ieee => (2 ^ f.ebits - 1) <<< f.fbits + 2 ^ (f.fbits - 1)
  | _ => 2 ^ (f.ebits + f.fbits) - 1

/-- The encoding of the largest finite magnitude (Table 02-3). -/
def FloatFmt.largest (f : FloatFmt) : Nat :=
  match f.special with
  | .ieee => (2 ^ f.ebits - 1) <<< f.fbits - 1
  | .e4m3 => 2 ^ (f.ebits + f.fbits) - 2
  | .numbers => 2 ^ (f.ebits + f.fbits) - 1

/-- The exponent of one unit of the fraction of an encoding's magnitude, and its significand. -/
def FloatFmt.magnitude (f : FloatFmt) (x : Nat) : Nat × Int :=
  let ex := fld x f.fbits f.ebits
  let fr := fld x 0 f.fbits
  if ex = 0 then (fr, 1 - (f.bias : Int) - f.fbits)
  else (2 ^ f.fbits + fr, (ex : Int) - f.bias - f.fbits)

/-- The value of an encoding (R40). -/
def FloatFmt.decode (f : FloatFmt) (x : Nat) : Num :=
  let s := bitAt x (f.ebits + f.fbits)
  let ex := fld x f.fbits f.ebits
  let fr := fld x 0 f.fbits
  let v := f.magnitude x
  match f.special with
  | .ieee => if ex = 2 ^ f.ebits - 1 then (if fr = 0 then .inf s else .nan) else .fin s v.1 v.2
  | .e4m3 => if ex = 2 ^ f.ebits - 1 ∧ fr = 2 ^ f.fbits - 1 then .nan else .fin s v.1 v.2
  | .numbers => .fin s v.1 v.2

/-- The sign bit in place. -/
def FloatFmt.sign (f : FloatFmt) (neg : Bool) : Nat := if neg then 2 ^ (f.ebits + f.fbits) else 0

/-- An overflowed magnitude (R62, Table 02-9). -/
def FloatFmt.overflow (f : FloatFmt) (r : Rnd) (sat neg : Bool) : Nat :=
  let large := f.sign neg + f.largest
  match f.special with
  | .numbers => large
  | .e4m3 => if sat then large else f.nan
  | .ieee =>
    let inf := f.sign neg + (2 ^ f.ebits - 1) <<< f.fbits
    if sat then large
    else match r with
      | .rne => inf
      | .rtz => large
      | .rdn => if neg then inf else large
      | .rup => if neg then large else inf

/-- A value rounded into the format (R60 to R62, Tables 02-9 and 02-10). A NaN of a format that has none is not
encoded here: R63 gives such a block its scale 0xFF. -/
def FloatFmt.encode (f : FloatFmt) (r : Rnd) (sat : Bool) : Num → Nat
  | .nan => f.nan
  | .marker => f.nan
  | .inf neg =>
    match f.special with
    | .ieee => if sat then f.sign neg + f.largest else f.sign neg + (2 ^ f.ebits - 1) <<< f.fbits
    | .e4m3 => if sat then f.sign neg + f.largest else f.nan
    | .numbers => f.sign neg + f.largest
  | .fin neg m e =>
    if m = 0 then f.sign neg
    else
      let emin : Int := 1 - f.bias
      let l := floorLog m e
      let q := (if l < emin then emin else l) - f.fbits
      let n := roundMag r neg m (e - q)
      let (lm, le) := f.magnitude f.largest
      if !leDy n q lm le then f.overflow r sat neg
      else if n < 2 ^ f.fbits then f.sign neg + n
      else if n < 2 ^ (f.fbits + 1) then
        f.sign neg + (q + f.fbits + f.bias).toNat <<< f.fbits + (n - 2 ^ f.fbits)
      else f.sign neg + (q + f.fbits + f.bias + 1).toNat <<< f.fbits

/-- A value is held exactly by the format's encoding of it. -/
def FloatFmt.isExact (f : FloatFmt) (r : Rnd) (x : Num) : Bool :=
  match x, f.decode (f.encode r false x) with
  | .fin n m e, .fin n' m' e' => n == n' && leDy m e m' e' && leDy m' e' m e
  | .inf a, .inf b => a == b
  | _, _ => false

/-- Round to FP32, nearest even: the accumulation and intermediate format of the digital units (R222, R228). R60 says that the
rounding of FP32 read-in, of intermediates and of in-order accumulation is fixed by each unit and does not follow RND, and
names no mode; the model takes RNE throughout (DESIGN CHOICE, log entry 51). -/
def toFP32 (x : Num) : Num := fmtFP32.decode (fmtFP32.encode .rne false x)

/-! ## Integers (R44, R45) -/

/-- A value rounded and saturated into a two's-complement integer of `w` bits; a NaN gives 0 (R45). -/
def encodeInt (w : Nat) (r : Rnd) : Num → Int
  | .fin neg m e =>
    let n : Int := (roundMag r neg m e : Nat)
    let v := if neg then -n else n
    clampInt (-(2 ^ (w - 1) : Nat)) ((2 ^ (w - 1) : Nat) - 1) v
  | .inf neg => if neg then -(2 ^ (w - 1) : Nat) else (2 ^ (w - 1) : Nat) - 1
  | _ => 0

/-! ## Format codes (Table 02-1) -/

/-- The formats of Table 02-1. -/
inductive Fmt where
  | fp32 | fp16 | bf16 | e4m3 | e5m2
  | mxE4M3 | mxE5M2 | mxE3M2 | mxE2M3 | mxE2M1
  | int8 | int4 | int32
  | tbf8 | tbf16
  deriving DecidableEq, Repr, Inhabited

/-- The format of a code, none for a code that Table 02-1 does not list (R38). -/
def Fmt.ofCode : Nat → Option Fmt
  | 0x01 => some .fp32
  | 0x02 => some .fp16
  | 0x03 => some .bf16
  | 0x04 => some .e4m3
  | 0x05 => some .e5m2
  | 0x08 => some .mxE4M3
  | 0x09 => some .mxE5M2
  | 0x0A => some .mxE3M2
  | 0x0B => some .mxE2M3
  | 0x0C => some .mxE2M1
  | 0x10 => some .int8
  | 0x11 => some .int4
  | 0x12 => some .int32
  | 0x18 => some .tbf8
  | 0x19 => some .tbf16
  | _ => none

/-- The kind of a format (Table 02-1, Kind). -/
inductive FmtKind where
  | float (f : FloatFmt)
  | mx (f : FloatFmt)
  | int (w : Nat)
  | tbf (p : Nat)
  deriving DecidableEq, Repr

/-- The kind and element encoding of a format (Table 02-1). -/
def Fmt.kind : Fmt → FmtKind
  | .fp32 => .float fmtFP32
  | .fp16 => .float fmtFP16
  | .bf16 => .float fmtBF16
  | .e4m3 => .float fmtE4M3
  | .e5m2 => .float fmtE5M2
  | .mxE4M3 => .mx fmtE4M3
  | .mxE5M2 => .mx fmtE5M2
  | .mxE3M2 => .mx fmtE3M2
  | .mxE2M3 => .mx fmtE2M3
  | .mxE2M1 => .mx fmtE2M1
  | .int8 => .int 8
  | .int4 => .int 4
  | .int32 => .int 32
  | .tbf8 => .tbf 8
  | .tbf16 => .tbf 16

/-- Bits per element (Table 02-1). -/
def Fmt.bits (f : Fmt) : Nat :=
  match f.kind with
  | .float g => g.width
  | .mx g => g.width
  | .int w => w
  | .tbf p => p

/-- The format is a block format (R46). -/
def Fmt.isBlock (f : Fmt) : Bool :=
  match f.kind with
  | .mx _ => true
  | .tbf _ => true
  | _ => false

/-- The format is tallied (R53). -/
def Fmt.isTbf (f : Fmt) : Bool :=
  match f.kind with
  | .tbf _ => true
  | _ => false

/-- Bytes of a side entry, 0 for a format without blocks (Table 02-4). -/
def Fmt.sideBytes (f : Fmt) : Nat :=
  match f.kind with
  | .mx _ => 1
  | .tbf _ => 2
  | _ => 0

/-- Element bytes of one block of 32 elements (Table 02-4). -/
def Fmt.blockBytes (f : Fmt) : Nat := f.bits * 4

/-- emax of an MX element format: the exponent of its largest normal (Table 02-5). -/
def FloatFmt.emax (f : FloatFmt) : Int :=
  let (m, e) := f.magnitude f.largest
  floorLog m e

/-! ## Bounds and tallies (R56 to R59) -/

/-- A non-negative dyadic bound m × 2^e. -/
structure Bnd where
  m : Nat
  e : Int
  deriving DecidableEq, Repr, Inhabited

def Bnd.zero : Bnd := ⟨0, 0⟩

/-- The sum of two bounds. -/
def Bnd.add (a b : Bnd) : Bnd :=
  let e := if a.e ≤ b.e then a.e else b.e
  ⟨a.m <<< (a.e - e).toNat + b.m <<< (b.e - e).toNat, e⟩

/-- The product of two bounds. -/
def Bnd.mul (a b : Bnd) : Bnd := ⟨a.m * b.m, a.e + b.e⟩

/-- A bound times a power of two. -/
def Bnd.shift (a : Bnd) (k : Int) : Bnd := ⟨a.m, a.e + k⟩

/-- a ≤ b. -/
def Bnd.le (a b : Bnd) : Bool := leDy a.m a.e b.m b.e

def Bnd.max (a b : Bnd) : Bnd := if a.le b then b else a

/-- 2^(j/8) rounded up to 64 fraction bits, j = 0 to 7 (log entry 13). -/
def tallyFrac (j : Nat) : Nat :=
  match j with
  | 0 => 18446744073709551616
  | 1 => 20116317054877281742
  | 2 => 21936999301089678047
  | 3 => 23922467369310646741
  | 4 => 26087635650665564425
  | 5 => 28448768404004648379
  | 6 => 31023601929370129897
  | _ => 33831477799106933342

/-- The bound of a tally below 255, in ulps: 2^(T/8) (R56). -/
def tallyBound (t : Nat) : Bnd := ⟨tallyFrac (t % 8), (t / 8 : Nat) - 64⟩

/-- The thresholds of Table 02-7. -/
def tallyThresholds : List Nat := [65536, 71467, 77935, 84989, 92681, 101070, 110217, 120193]

/-- The first index whose threshold is at least `x`, 8 if there is none. -/
def leastThreshold (x : Nat) : List Nat → Nat
  | [] => 0
  | t :: ts => if x ≤ t then 0 else leastThreshold x ts + 1

/-- The tally of a bound in ulps of the destination block (R59); 255 poisons. -/
def encodeTally (b : Bnd) : Nat :=
  if b.le ⟨1, 0⟩ then 0
  else
    let e := floorLog b.m b.e
    let f16 := roundMag .rup false b.m (b.e - e + 16)
    let j := leastThreshold f16 tallyThresholds
    let t := 8 * e + j
    if t > 254 then 255 else t.toNat

/-! ## Blocks (R46 to R66) -/

/-- What a block is as a whole (Table 02-10). -/
inductive Whole where
  | plain
  /-- an MX block with scale 0xFF -/
  | mxNan
  /-- a poisoned TBF block -/
  | poisoned
  deriving DecidableEq, Repr, Inhabited

/-- A decoded block of up to 32 elements, with its scale exponent and, for a tallied source, its tally. -/
structure Block where
  els   : List Num
  whole : Whole := .plain
  tally : Option Nat := none
  x     : Nat := 127
  deriving DecidableEq, Repr, Inhabited

/-- Element `i` of packed elements of `w` bits (R44, R48). -/
def packedEl (w i packed : Nat) : Nat := fld packed (w * i) w

/-- The codes of elements packed one after another (R44, R48). -/
def packEls (w : Nat) : List Nat → Nat
  | [] => 0
  | x :: xs => x % 2 ^ w + (packEls w xs) <<< w

/-- The value of a scalar code. -/
def decodeScalar (f : Fmt) (x : Nat) : Num :=
  match f.kind with
  | .float g => g.decode x
  | .mx g => g.decode x
  | .int w => .ofInt (toSigned w x)
  | .tbf p => .ofInt (toSigned p x)

/-- Scale a value by 2^k. -/
def Num.scale (k : Int) : Num → Num
  | .fin n m e => .fin n m (e + k)
  | x => x

/-- Decode the first `n` elements of a block from its packed elements and its side entry (R52 to R55, R61 step 1). -/
def decodeBlock (f : Fmt) (n packed side : Nat) : Block :=
  let codes := (List.range n).map (fun i => packedEl f.bits i packed)
  match f.kind with
  | .mx g =>
    if side % 256 = 0xFF then { els := List.replicate n .nan, whole := .mxNan, x := 0xFF }
    else { els := codes.map (fun c => (g.decode c).scale ((side % 256 : Nat) - 127)), x := side % 256 }
  | .tbf p =>
    let t := fld side 8 8
    let x := fld side 0 8
    if t = 255 ∨ x = 0xFF then
      { els := List.replicate n .marker, whole := .poisoned, tally := some 255, x := 0xFF }
    else
      { els := codes.map (fun c =>
          if c = 2 ^ (p - 1) then .marker else (Num.ofInt (toSigned p c)).scale ((x : Int) - 127)),
        tally := some t, x := x }
  | _ => { els := codes.map (decodeScalar f) }

/-- The largest finite magnitude of a block's elements. -/
def largestMag (els : List Num) : Nat × Int :=
  els.foldl (fun a x => match x with
    | .fin _ m e => if m = 0 then a else if a.1 = 0 then (m, e) else maxDy a (m, e)
    | _ => a) (0, 0)

/-- An encoded block: packed element codes and the side entry. -/
structure BlockOut where
  packed : Nat
  side   : Nat
  /-- a tallied block that is poisoned -/
  poison : Bool := false
  deriving DecidableEq, Repr, Inhabited

/-- Append padding zeros up to 32 codes (R49). -/
def padCodes (codes : List Nat) : List Nat := codes ++ List.replicate (32 - codes.length) 0

/-- A block of an MX destination (R63). `nanWhole` says that the source block is NaN as a whole. -/
def encodeMX (g : FloatFmt) (r : Rnd) (sat : Bool) (nanWhole : Bool) (els : List Num) : BlockOut :=
  let w := g.width
  let anyNan := els.any Num.isNan
  match g.special with
  | .numbers =>
    if anyNan || nanWhole then { packed := 0, side := 0xFF }
    else
      let a := largestMag els
      let e := if a.1 = 0 then 127 else clampInt 0 254 (floorLog a.1 a.2 - g.emax + 127)
      { packed := packEls w (padCodes (els.map (fun x => g.encode r sat (x.scale (127 - e))))), side := e.toNat }
  | _ =>
    if nanWhole then { packed := packEls w (padCodes (els.map (fun _ => g.nan))), side := 0xFF }
    else
      let a := largestMag els
      let e := if a.1 = 0 then 127 else clampInt 0 254 (floorLog a.1 a.2 - g.emax + 127)
      { packed := packEls w (padCodes (els.map (fun x => g.encode r sat (x.scale (127 - e))))), side := e.toNat }

/-- The poisoned block: every mantissa the element marker, the padding included (R55). -/
def poisonBlock (p : Nat) : BlockOut :=
  { packed := packEls p (List.replicate 32 (2 ^ (p - 1))), side := 0xFFFF, poison := true }

/-- The mantissas of a block at scale exponent `x` (R64). -/
def tbfMants (r : Rnd) (x : Int) (els : List Num) : List (Option Int) :=
  els.map (fun v => match v with
    | .fin neg m e =>
      let n : Int := (roundMag r neg m (e - (x - 127)) : Nat)
      some (if neg then -n else n)
    | _ => none)

/-- The scale exponent of a TBF block, before the limit at 254 (R64). -/
def tbfScale (p : Nat) (r : Rnd) (els : List Num) : Int :=
  let a := largestMag els
  if a.1 = 0 then 127
  else
    let x0 := floorLog a.1 a.2 - ((p : Int) - 2) + 127
    let x := if x0 < 0 then 0 else x0
    if (tbfMants r x els).any (fun m => match m with
        | some v => decide (2 ^ (p - 1) ≤ v.natAbs)
        | none => false) then x + 1 else x

/-- An element converts exactly to its mantissa at scale exponent `x`; an element with no value counts as exact
(R65). -/
def tbfExact (x : Int) (v : Num) : Bool :=
  match v with
  | .fin _ m e => decide (0 ≤ e - (x - 127)) || m % 2 ^ (-(e - (x - 127))).toNat == 0
  | _ => true

/-- A block of a tallied destination with a bound in absolute value and the ulps that its rounding adds (R64, R65,
R117). -/
def encodeTallied (p : Nat) (r : Rnd) (els : List Num) (bound : Bnd) (rounding : Int → Bnd) : BlockOut :=
  let x := tbfScale p r els
  if x > 254 then poisonBlock p
  else
    let rr := rounding x
    let t := encodeTally ((bound.shift (127 - x)).add rr)
    if t = 255 then poisonBlock p
    else
      let codes := (tbfMants r x els).map (fun m => match m with
        | some v => ofSigned p v
        | none => 2 ^ (p - 1))
      { packed := packEls p (padCodes codes), side := t * 256 + x.toNat }

/-- A block of a tallied destination whose rounding counts 1 ulp when some element is inexact (R64, R65). -/
def encodeTBF (p : Nat) (r : Rnd) (els : List Num) (bound : Bnd) : BlockOut :=
  encodeTallied p r els bound (fun x => if els.all (tbfExact x) then .zero else ⟨1, 0⟩)

/-- The absolute bound that a source block carries (R57, R65). -/
def Block.bound (b : Block) : Bnd :=
  match b.tally with
  | some t => if t = 255 then .zero else (tallyBound t).shift ((b.x : Int) - 127)
  | none => .zero

/-- The codes of elements in a destination without blocks, by R61 to R66. -/
def encodeScalar (f : Fmt) (r : Rnd) (sat : Bool) (x : Num) : Nat :=
  match f.kind with
  | .float g => g.encode r sat x
  | .mx g => g.encode r sat x
  | .int w => ofSigned w (encodeInt w r x)
  | .tbf p => ofSigned p (encodeInt p r x)

/-- A destination block from the elements it gathers and the source blocks they come from (R61): the whole-block
rules of R63 apply when every source is NaN as a whole, poison passes when any source is poisoned, and the bound is
the largest of the sources' (R65). R63 speaks of one source block: that a destination block which TRANSPOSE gathers from several is NaN
as a whole only when all of them are is the model's choice (DESIGN CHOICE, log entry 97). -/
def encodeBlock (f : Fmt) (r : Rnd) (sat : Bool) (els : List Num) (srcs : List Block) (bound : Bnd) : BlockOut :=
  match f.kind with
  | .mx g => encodeMX g r sat (srcs.all (fun b => decide (b.whole ≠ .plain)) && !srcs.isEmpty) els
  | .tbf p =>
    if srcs.any (fun b => decide (b.whole = .poisoned)) then poisonBlock p
    else encodeTBF p r els bound
  | _ => { packed := packEls f.bits (els.map (encodeScalar f r sat)), side := 0 }

/-- The largest bound of a list of source blocks (R65). -/
def maxBound (srcs : List Block) : Bnd := srcs.foldl (fun a b => a.max b.bound) .zero

end Sys2Proof.Machine
end

