-- ==== Sys2Proof/Machine/Bounds.lean ====
section
/-! DEFINITION. Real bounds rounded up (R123 to R125): square roots, quotients, exponentials and logarithms of dyadic
numbers, each at least the exact value and within 2⁻⁶⁰ of it in proportion (log entry 13). -/

namespace Sys2Proof.Machine

/-- A bound of at least 2^k × its own size: keep about 96 significant bits, rounding up. -/
def Bnd.trim (a : Bnd) : Bnd :=
  let n := Nat.log2 a.m
  if n ≤ 96 then a else ⟨ceilDiv a.m (2 ^ (n - 96)), a.e + ((n - 96 : Nat) : Int)⟩

/-- A natural number as a bound. -/
def Bnd.ofNat (n : Nat) : Bnd := ⟨n, 0⟩

/-- x / y rounded up to 96 bits; 0 for y = 0. -/
def Bnd.divUp (x y : Bnd) : Bnd :=
  if y.m = 0 then .zero else ⟨ceilDiv (x.m <<< (96 + Nat.log2 y.m)) y.m, x.e - y.e - ((96 + Nat.log2 y.m : Nat) : Int)⟩

/-- √x rounded up. -/
def Bnd.sqrtUp (x : Bnd) : Bnd :=
  let odd := x.e % 2 != 0
  let m := (if odd then 2 * x.m else x.m) <<< 128
  let e := (if odd then x.e - 1 else x.e) - 128
  ⟨isqrtUp m, e / 2⟩

/-- The sum of bounds. -/
def sumBnd (l : List Bnd) : Bnd := l.foldl Bnd.add .zero

/-- The greatest of bounds. -/
def maxBnd (l : List Bnd) : Bnd := l.foldl Bnd.max .zero

/-- The magnitude of a finite value, zero otherwise. -/
def Num.mag : Num → Bnd
  | .fin _ m e => ⟨m, e⟩
  | _ => .zero

/-- A norm rounded up to FP32 (R123); one beyond FP32's range stays exact. -/
def Bnd.toFP32Up (x : Bnd) : Bnd :=
  match fmtFP32.decode (fmtFP32.encode .rup false (.fin false x.m x.e)) with
  | .fin _ m e => ⟨m, e⟩
  | _ => x

/-! ## Exponentials and logarithms -/

/-- ⌈e × 2^96⌉ and ⌊e × 2^96⌋. -/
def eulerUp : Nat := 215364474464724850177511348353
def eulerDown : Nat := 215364474464724850177511348352

/-- Powers of e by repeated multiplication, rounded up to 96 bits. -/
def expNatUp : Nat → Bnd
  | 0 => ⟨1, 0⟩
  | n + 1 => ((expNatUp n).mul ⟨eulerUp, -96⟩).trim

/-- A lower bound of e^n: mantissa cut down to 96 bits. -/
def expNatDown : Nat → Bnd
  | 0 => ⟨1, 0⟩
  | n + 1 =>
    let p := (expNatDown n).mul ⟨eulerDown, -96⟩
    let k := Nat.log2 p.m
    if k ≤ 96 then p else ⟨p.m >>> (k - 96), p.e + ((k - 96 : Nat) : Int)⟩

/-- One more term of the Taylor sum of e^f, f in 2⁻⁹⁶, each term rounded up. -/
def expTaylor (f : Nat) : Nat → Nat → Nat → Nat
  | 0, _, _ => 0
  | n + 1, term, i => term + expTaylor f n (ceilDiv (ceilDiv (term * f) (2 ^ 96)) i) (i + 1)

/-- e^x rounded up, for x = ± m × 2^e; an exponent above 2^10 gives a bound that poisons every block. -/
def expUp (neg : Bool) (x : Bnd) : Bnd :=
  if x.m ≠ 0 ∧ 10 ≤ floorLog x.m x.e then (if neg then ⟨1, -1400⟩ else ⟨1, 1400⟩)
  else
    let fix := if 0 ≤ x.e + 96 then x.m <<< (x.e + 96).toNat else
      (if neg then x.m >>> (-(x.e + 96)).toNat else ceilDiv x.m (2 ^ (-(x.e + 96)).toNat))
    let n := if neg then ceilDiv fix (2 ^ 96) else fix / 2 ^ 96
    let f := if neg then n * 2 ^ 96 - fix else fix % 2 ^ 96
    let frac : Bnd := ⟨expTaylor f 40 (2 ^ 96) 1 + 1, -96⟩
    if neg then (frac.divUp (expNatDown n)).trim else (frac.mul (expNatUp n)).trim

/-- Binary digits of log2 of a mantissa in [1, 2) held with 96 fraction bits. -/
def log2Bits : Nat → Nat → Nat → Nat
  | 0, _, acc => acc
  | n + 1, m, acc =>
    let q := (m * m) >>> 96
    if 2 ^ 97 ≤ q then log2Bits n (q >>> 1) (2 * acc + 1) else log2Bits n q (2 * acc)

/-- |ln x| rounded up, for x = m × 2^e > 0: log2 to 64 fraction bits, widened by 2⁻⁶⁰, times ln 2 rounded up. -/
def lnAbsUp (x : Bnd) : Bnd :=
  let l := Nat.log2 x.m
  let m := if l ≤ 96 then x.m <<< (96 - l) else x.m >>> (l - 96)
  let v : Int := ((l : Int) + x.e) * 2 ^ 64 + (log2Bits 64 m 0 : Nat)
  ((⟨v.natAbs + 16, -64⟩ : Bnd).mul ⟨12786308645202655660, -64⟩).trim

end Sys2Proof.Machine
end

