-- ==== Sys2Proof/Machine/Tab.lean ====
section
/-! DEFINITION. Sparse tables in one canonical form: a list of (key, value) pairs with strictly rising keys and no
entry equal to what an unlisted key reads as. Memory and every numbered family of units (contexts, engines, stacks,
lanes, ...) are held this way, so that equal contents are equal data. -/

namespace Sys2Proof.Machine

/-- A table from numbers to `α`; a key that is not listed reads as the table's default. -/
abbrev Tab (α : Type) := List (Nat × α)

/-- The value at key `k`; `d` is what an unlisted key reads as. -/
def tabGet {α : Type} (d : α) : Tab α → Nat → α
  | [], _ => d
  | (k', v) :: t, k => if k' = k then v else tabGet d t k

/-- Put an entry that differs from the default at its place in the rising order. -/
def tabPut {α : Type} (k : Nat) (v : α) : Tab α → Tab α
  | [] => [(k, v)]
  | (k', v') :: t =>
    if k < k' then (k, v) :: (k', v') :: t
    else if k = k' then (k, v) :: t
    else (k', v') :: tabPut k v t

/-- Remove every entry at key `k`. -/
def tabErase {α : Type} (k : Nat) (t : Tab α) : Tab α := t.filter (fun e => e.1 != k)

/-- Write `v` at key `k`; writing the default removes the entry. -/
def tabSet {α : Type} [DecidableEq α] (d : α) (t : Tab α) (k : Nat) (v : α) : Tab α :=
  if v = d then tabErase k t else tabPut k v t

/-- Change the value at key `k` by `f`. -/
def tabUpd {α : Type} [DecidableEq α] (d : α) (t : Tab α) (k : Nat) (f : α → α) : Tab α :=
  tabSet d t k (f (tabGet d t k))

/-- Drop every entry whose key satisfies `p`: those keys then read as the default. -/
def tabClear {α : Type} (p : Nat → Bool) (t : Tab α) : Tab α :=
  t.filter (fun e => !p e.1)

/-- Set every listed entry by `f`, dropping entries that become the default. -/
def tabMap {α : Type} [DecidableEq α] (d : α) (f : Nat → α → α) : Tab α → Tab α
  | [] => []
  | (k, v) :: t =>
    if f k v = d then tabErase k (tabMap d f t) else (k, f k v) :: tabErase k (tabMap d f t)

/-- Change the values at the keys of a list, one after another. -/
def tabUpdAll {α : Type} [DecidableEq α] (d : α) (t : Tab α) (ks : List Nat) (f : Nat → α → α) : Tab α :=
  ks.foldl (fun t k => tabUpd d t k (f k)) t

/-- The table of the values `f k` for the keys below `n`; `d k` is what key `k` reads as when it is not listed. -/
def tabBuild {α : Type} [DecidableEq α] (d : Nat → α) (n : Nat) (f : Nat → α) : Tab α :=
  (List.range n).filterMap (fun k => if f k = d k then none else some (k, f k))

/-- The keys above `lo` rise strictly and no entry is the default. -/
def tabWfFrom {α : Type} [DecidableEq α] (d : α) : Nat → Tab α → Bool
  | _, [] => true
  | lo, (k, v) :: t => decide (lo ≤ k) && decide (v ≠ d) && tabWfFrom d (k + 1) t

/-- The canonical form: keys strictly rising, no entry equal to the default. -/
def tabWf {α : Type} [DecidableEq α] (d : α) (t : Tab α) : Bool := tabWfFrom d 0 t

end Sys2Proof.Machine
end

