-- ==== Sys2Proof/Machine/State.lean ====
section
/-! DEFINITION. The state of the module: plain data, every register, ring, table, counter, mode and pin the manual
names, and the queue of commands that wait. Each field names its rule; its default is its value right after a
power-on reset. Units that come in numbers are held in `Tab`s whose unlisted entries read as the unit's reset
record. -/

namespace Sys2Proof.Machine

/-! ## Command processing (chapter 06) -/

/-- The life of a command between its fetch and its completion entry (R183 to R189). -/
inductive CmdPhase where
  /-- fetched, waiting for dependencies, Tide start or dispatch resources (R184, R212) -/
  | waiting
  /-- started: TIDE_START is taken and its work runs (R187) -/
  | started
  /-- its work has ended; the completion entry is still to be written (R189) -/
  | finished
  /-- timed out; its work is being stopped (R188) -/
  | stopping
  deriving DecidableEq, Repr, Inhabited

/-- One weight block of an optical product (R225): product (0, or 1 for the second product of ATTENTION), pass, row
block g and column segment c. -/
structure OptBlock where
  product : Nat
  pass    : Nat
  g       : Nat
  c       : Nat
  deriving DecidableEq, Repr, Inhabited

/-- What a command gathers for its Tally record (R128 to R131). Residual ratios are kept as squares in units of
2⁻⁴⁰; σ² in units of 10⁻³⁰ of the normalised output. -/
structure TallyAcc where
  /-- R128: windows integrated for the command -/
  windows : Nat := 0
  /-- Table 04-8 REPEATS -/
  repeats : Nat := 0
  /-- Table 04-8 POISON_BLOCKS -/
  poisonBlocks : Nat := 0
  /-- Table 04-8 BOUND_FAIL -/
  boundFail : Nat := 0
  /-- Table 04-8 SAMPLES -/
  samples : Nat := 0
  /-- Table 04-8 MISMATCHES -/
  mismatches : Nat := 0
  /-- Table 04-8 ENGINES: engines that ran a committed block -/
  engines : List Nat := []
  /-- Table 04-8 SIGMA_ROW: widest predicted σ² of any committed block -/
  sigma2 : Nat := 0
  /-- R131: sum of the squared residual ratios -/
  zSum : Nat := 0
  /-- R131: largest squared residual ratio -/
  zMax : Nat := 0
  /-- Table 04-8 T_MIN, none while no block that is not poisoned was written -/
  tMin : Option Nat := none
  /-- Table 04-8 T_MAX -/
  tMax : Option Nat := none
  /-- Table 04-8 CLASS -/
  cls : Nat := 0
  /-- Table 04-8 MODE: bound-driven -/
  boundMode : Bool := false
  /-- Table 04-8 NLOG -/
  nlog : Nat := 0
  /-- R119: no class met the request -/
  unreachable : Bool := false
  /-- R127: gathered from the nodes of a graph, and whether one of them failed the residual test -/
  merged : Bool := false
  residualExcess : Bool := false
  /-- R100 -/
  thermalStep : Bool := false
  /-- R99 -/
  lhSwitch : Bool := false
  /-- R82, R83 -/
  calStale : Bool := false
  /-- R103 -/
  laneSpared : Bool := false
  deriving DecidableEq, Repr, Inhabited

/-- The plan and the progress of the optical products of a command (R224 to R226). -/
structure OptJob where
  /-- R226: the engines counted in E, fixed at fetch -/
  engines : List Nat := []
  /-- R226: vectors per pass V -/
  batch : Nat := 0
  /-- R97: the 16-bit seed value of the product -/
  seedValue : Nat := 0
  /-- R225: blocks still to be run, per engine, in order -/
  todo : List (Nat × OptBlock) := []
  /-- R86: committed blocks with the σ² of R113 -/
  committed : List (OptBlock × Nat) := []
  /-- R90: the 4-byte accumulators, key (product × 2³² + vector) × 2³² + row -/
  acc : Tab W32 := []
  /-- R96: the sampling register of each engine, key product × 16 + engine -/
  lfsr : Tab W16 := []
  /-- products planned so far: 0 none, 1 the first, 2 the second product of ATTENTION -/
  stage : Nat := 0
  /-- R128, R130: the converted output blocks that wait to be written: the addresses of each, and its tally -/
  outs : List (List Nat × Nat) := []
  deriving DecidableEq, Repr, Inhabited

/-- The progress of a Tug (R218, R333, R334). -/
structure TugJob where
  /-- number of chunks of the command -/
  chunks : Nat := 0
  /-- chunks that have ended -/
  finished : List Nat := []
  /-- chunks whose reads and writes are issued and not all answered yet (R334) -/
  begun : List Nat := []
  /-- of these, the chunks whose writes wait for their reads, and the bytes read so far: chunk, offset in the stream, byte -/
  reading : List Nat := []
  data : List (Nat × Nat × Byte) := []
  /-- chunks that met an error, which add nothing (R218) -/
  bad : List Nat := []
  /-- R218: an error was met, no further request is issued -/
  stopped : Bool := false
  deriving DecidableEq, Repr, Inhabited

/-- A command that has been fetched and has not yet completed (R183 to R192); also one node of a graph run (R240). -/
structure Cmd where
  id : CmdId
  /-- the berth whose resources it uses: its context's, or that of its node (R212, R240) -/
  berth : Nat := 0
  /-- Table 06-2 OPCODE -/
  opcode : Nat := 0
  /-- Table 06-2 header and continuations as one little-endian number: the packet bytes as fetched (R180, R207) -/
  packet : Nat := 0
  /-- parameter bytes 0–175 as one little-endian number, the sync continuation left out (R207) -/
  params : Nat := 0
  /-- generation tag of the context at fetch (Table 06-7 GEN) -/
  gen : BitVec 8 := 0
  /-- Tide at fetch (R186) -/
  fetched : Nat := 0
  /-- Tide at which the present timeout expires (R186) -/
  deadline : Nat := 0
  /-- R185: Tide since which it waits as the 65th, its timeout not running -/
  blockedAt : Option Nat := none
  phase : CmdPhase := .waiting
  /-- the command has started (R187) -/
  began : Bool := false
  /-- TIDE_START (Table 06-7) -/
  tideStart : Nat := 0
  /-- TIDE_END (Table 06-7) -/
  tideEnd : Nat := 0
  /-- the highest-ranked status so far (R193) -/
  status : Nat := 0
  /-- DETAIL of that status (Table 06-8) -/
  detail : Nat := 0
  /-- result bytes to be made visible at step 1 of R189: global address and byte -/
  results : List (Nat × Byte) := []
  /-- reply data of a management command on a ring (R216) -/
  reply : List Byte := []
  /-- R185, R212: engines and regions of the berth the command holds -/
  engines : List Nat := []
  regions : List Nat := []
  /-- R212: a Tug is held -/
  holdsTug : Bool := false
  /-- R188: Tide at which the stop was issued -/
  stopTide : Nat := 0
  /-- Blunen has begun to serve the command (R216) -/
  served : Bool := false
  /-- R462: runs of the held work after its first -/
  retries : Nat := 0
  /-- R265: Tide since which its work has waited for a segment that moves -/
  heldSince : Option Nat := none
  /-- R198: a ring slot of its completion gave no answer -/
  slotLost : Bool := false
  tug : TugJob := {}
  opt : OptJob := {}
  tally : TallyAcc := {}
  deriving DecidableEq, Repr, Inhabited

/-- Context states (Table 06-9). -/
inductive CtxState where
  | closed | opened | closing | stopped
  deriving DecidableEq, Repr, Inhabited

/-- One hardware context (R172 to R177, R198 to R202). -/
structure Context where
  /-- Table 06-9 -/
  state : CtxState := .closed
  /-- R201: generation tag -/
  gen : BitVec 8 := 0
  /-- Table 07-5 CTX_OPEN LOG2S -/
  log2S : Nat := 0
  /-- Table 07-5 PLACE: bit 0 submission, 1 completion, 2 Tally ring in host memory -/
  place : Nat := 0
  /-- Table 07-5 VECTOR -/
  vector : Nat := 0
  /-- Table 07-5 SQ_BASE -/
  sqBase : Nat := 0
  /-- Table 07-5 CQ_BASE -/
  cqBase : Nat := 0
  /-- Table 07-5 TQ_BASE -/
  tqBase : Nat := 0
  /-- R174: fetch count F -/
  fetchCount : W32 := 0
  /-- R174: command count Q -/
  cmdCount : W32 := 0
  /-- R174: release count H, doorbell half CQ_HEAD (Table 06-1) -/
  cqHead : W32 := 0
  /-- Table 06-1 SQ_TAIL -/
  sqTail : W32 := 0
  /-- R177, R199: completions written in sequence order -/
  inOrder : W32 := 0
  /-- sequence numbers completed ahead of `inOrder` -/
  ahead : List W32 := []
  /-- commands in flight, in sequence order -/
  flight : List Cmd := []
  /-- R177: rejected doorbell halves -/
  rejected : Nat := 0
  /-- R179: doorbells ignored because the context is not open -/
  ignored : Nat := 0
  /-- R201: replies and completions of an earlier generation, dropped -/
  droppedOld : Nat := 0
  deriving DecidableEq, Repr, Inhabited

/-! ## Mailboxes (R500 to R503, R477) -/

/-- The outcome of a mailbox request, ready to be answered (R502). -/
structure MbxResult where
  status : Nat
  detail : Nat
  data   : List Byte
  deriving DecidableEq, Repr, Inhabited

/-- A mailbox of one function (Tables 16-14 and 16-15). -/
structure Mailbox where
  /-- MBX_REQ, 64 bytes as one little-endian number -/
  req : Nat := 0
  /-- MBX_CTRL.TAG -/
  tag : W16 := 0
  /-- MBX_CTRL.IRQ -/
  irq : Bool := false
  /-- MBX_CTRL.VECTOR -/
  vector : Nat := 0
  /-- R501: TAG, IRQ and VECTOR as the write with GO took them -/
  goTag : W16 := 0
  goIrq : Bool := false
  goVector : Nat := 0
  /-- MBX_REPLY.PENDING -/
  pending : Bool := false
  /-- MBX_REPLY.REPLY_VALID -/
  replyValid : Bool := false
  /-- MBX_REPLY.REPLY_TAG -/
  replyTag : W16 := 0
  /-- MBX_REPLY.DETAIL -/
  detail : Nat := 0
  /-- MBX_REPLY.REPLY_STATUS; reads 0xFF while REPLY_VALID is 0 -/
  status : Nat := 0xFF
  /-- MBX_DATA, 40 bytes -/
  data : List Byte := []
  /-- R477: the request passed its checks and is being served -/
  accepted : Bool := false
  /-- R502: the outcome that COMMAND_COMPLETION answers with -/
  result : Option MbxResult := none
  /-- Tide from which the request's timeout runs (R501) -/
  submitted : Nat := 0
  /-- R477: the journalled step of the request's progress -/
  journal : Nat := 0
  deriving DecidableEq, Repr, Inhabited

/-! ## Memory (chapters 08, 10, 05) -/

/-- The memory of the module and what marks its words. -/
structure MemGroup where
  /-- R313, R314: bytes by module-local address; DRAM and tile SRAM are zero after a reset (R425, R444) -/
  cells : List Host.Cell := []
  /-- host memory reached through PCIe, bytes by bus address (R173) -/
  host : List Host.Cell := []
  /-- host bus addresses that cannot be read or written (R198) -/
  hostBad : List Nat := []
  /-- R253: poisoned DRAM sectors, key module-local address / 64 -/
  poison : Tab Bool := []
  /-- R145: tile SRAM words written with the poison check code, key module-local address / 8 -/
  poisonWord : Tab Bool := []
  /-- R335: arrival counters, key berth × 4096 + i -/
  counters : Tab W64 := []
  /-- R335: additions dropped during a partition reset -/
  droppedAdds : Nat := 0
  /-- R138: SRAM single-bit corrections, by berth × 144 + virtual tile -/
  sramCorrections : Tab Nat := []
  deriving DecidableEq, Repr, Inhabited

/-! ## Requests, flows, responses (chapter 10) -/

/-- A request a source of this module has outstanding (R337), or holds back (R332, R265, R345, R157). -/
structure OutReq where
  req : WireReq
  dstPos : Nat
  dstSite : Nat
  /-- Tide of issue (R337) -/
  issued : Nat := 0
  /-- held at the source and not yet sent -/
  held : Bool := false
  /-- delayed by a cause of R310 or R345 -/
  delayed : Bool := false
  /-- R24: performed on this module; its place in the order in which its target answered -/
  served : Option Nat := none
  /-- the chunk of a Tug's command that it moves (R333, R334), and for a read the offset in its stream -/
  chunk : Option Nat := none
  off : Option Nat := none
  /-- the ring slot that it reads or writes: context and address (R198) -/
  slot : Option (Nat × Nat) := none
  deriving DecidableEq, Repr, Inhabited

/-- The window of a flow (R332), in bytes. -/
structure Flow where
  window : Nat := 0
  /-- bytes acknowledged without ECHO since the last change -/
  acked : Nat := 0
  /-- requests issued before the last decrease and still outstanding: their ECHO is ignored -/
  oldOutstanding : List Nat := []
  /-- Tide at which the flow last had something outstanding -/
  lastBusy : Nat := 0
  deriving DecidableEq, Repr, Inhabited

/-- Request tracking of every source of the module. -/
structure ReqGroup where
  /-- R337: outstanding and held requests, in order of issue -/
  out : List OutReq := []
  /-- R332: live flows -/
  flows : List (FlowId × Flow) := []
  /-- R339: responses dropped -/
  dropped : Nat := 0
  /-- requests waiting in front of their target: in the ingress buffers of a draining or returning site (R343, R157), in the
  ejection logic of a tile (R151), in a router's buffer of their channel and priority (R150), at a quay (R265) -/
  ingress : List (Nat × WireReq) := []
  /-- R24, R151: responses that wait for an earlier one from the same endpoint -/
  early : List WireResp := []
  /-- requests of this module's sources that its targets have answered -/
  serves : Nat := 0
  /-- R150: by router output, what it has sent of high priority in a row while something of low priority waited -/
  highRun : Tab Nat := []
  /-- R322: the number of the next request that the work of a command makes; its TAG is the number's low 16 bits -/
  nextTag : Nat := 0
  /-- R339: tags of requests that ended without an answer, which may still come -/
  spent : List Nat := []
  deriving DecidableEq, Repr, Inhabited

/-! ## Sites, roles, epochs (R341 to R343, R338, R464) -/

/-- A site of the own module. -/
structure Site where
  /-- R342: role code; quays start as Direct 0xFD (Table 10-11) -/
  role : Nat := 0
  /-- R25: role epoch -/
  epoch : BitVec 8 := 0
  /-- R338: declared dead -/
  dead : Bool := false
  /-- R338: a probe is pending -/
  probing : Bool := false
  /-- R463: retired (role 0xFF, R342) -/
  retired : Bool := false
  /-- R465: the fabric port of a lost stack no longer serves -/
  fabricLost : Bool := false
  /-- R343: a role change is draining; the new role and the function that asked -/
  drain : Option (Nat × Nat) := none
  /-- R343: the new role is in force, and the function that asked is answered once the epoch table holds the new epoch -/
  replyTo : Option Nat := none
  /-- R25: requests refused for a stale epoch -/
  stale : Nat := 0
  /-- Table 15-13 TRANSIENT -/
  transients : Nat := 0
  /-- Table 15-13 RETIRED -/
  retirements : Nat := 0
  deriving DecidableEq, Repr, Inhabited

/-! ## Compute die (chapter 05) -/

/-- State of a region's spare core (R148). -/
inductive SpareState where
  | free | inService | failed
  deriving DecidableEq, Repr, Inhabited

/-- A clock region (R159 to R168) and its cores (R141 to R146). -/
structure Region where
  /-- R159: frequency step in force -/
  step : Nat := 9
  /-- R161: a step change waits for its reference edge -/
  wanted : Option Nat := none
  /-- R166: the waiting step change does not wait for the recovery to end; this recovery has stepped the region down -/
  urgent : Bool := false
  recoveryStepped : Bool := false
  /-- R399: the step whose core voltage the region has -/
  voltStep : Nat := 9
  /-- R161: crossings of the region are held -/
  holding : Bool := false
  /-- R160: temperature band CB0–CB2 -/
  band : Nat := 0
  /-- R167, R168: the step left by stretch step-downs -/
  stretchStep : Nat := 9
  /-- R409: the step set by the power-cap control -/
  powerStep : Nat := 9
  /-- R163: cycle of the last stretch -/
  lastStretch : Option Nat := none
  /-- R164, R165: cycle at which the recovery in progress ends -/
  recoverAt : Option Nat := none
  /-- R167: Tide of the stretches of the last 100 ms -/
  stretches : List Nat := []
  /-- R168: Tide from which the 100 ms of few stretches counts -/
  quietFrom : Nat := 0
  /-- R411: region temperature, 0.001 °C -/
  temp : Int := 0
  /-- R141, R148: the spare core -/
  spare : SpareState := .free
  /-- R144: virtual tile being substituted -/
  substituting : Option Nat := none
  /-- R459: the substitution is for a test; the tile to which the core is returning -/
  forTest : Bool := false
  withdrawing : Option Nat := none
  /-- R142: virtual tile served by the spare -/
  substituted : Option Nat := none
  /-- Table 15-14 STEPDOWN: step-downs by R166 and R167 -/
  stepdowns : Nat := 0
  deriving DecidableEq, Repr, Inhabited

/-- A virtual tile (R139, R146). -/
structure Tile where
  /-- R146: retired with no substitute -/
  retired : Bool := false
  /-- R144: requests to it are held at its router -/
  held : Bool := false
  /-- R461: Tide of each transient of the last hour -/
  transients : List Nat := []
  deriving DecidableEq, Repr, Inhabited

/-- A berth: power, temperature, sensors (R408 to R411, R416, R419), mesh (R154). -/
structure Berth where
  /-- R409: present cap, mW -/
  cap : Nat := 900000
  /-- R409: throttle fraction u, in 1/64 -/
  throttle : Nat := 64
  /-- R409: least factor of Table 13-6 that applies, in 10⁻⁶ -/
  factor : Nat := 1000000
  /-- R408: power over the last window, mW -/
  power : Nat := 0
  /-- R408: the limiter withholds issue cycles -/
  limiting : Bool := false
  /-- R410: responses of the slow and fast terms of the berth and of its regions, 10⁻⁶ °C -/
  fast : Int := 0
  slow : Int := 0
  regionFast : Tab Int := []
  /-- R411: T_h, 0.001 °C -/
  th : Int := 0
  /-- R411: base-layer estimate, 0.001 °C -/
  baseEst : Int := 0
  /-- R411: suspect sensors, die 0–127, base layer 128–133 -/
  suspect : List Nat := []
  /-- R411: Tide since which a sensor has differed from its model by more than 6 °C -/
  offSince : Tab Nat := []
  /-- last readings, 0.001 °C -/
  readings : Tab Int := []
  /-- R416: in thermal hold -/
  hold : Bool := false
  /-- R416: regions and engines stopped at 105 °C -/
  stopped : Bool := false
  /-- R154: windows that broke the 25 % condition -/
  mesh25 : Nat := 0
  deriving DecidableEq, Repr, Inhabited

/-! ## Optical engines (chapter 03) -/

/-- A weight bank with the block it holds (R84): weight codes of the 128 data rows, the exponents of their scales,
the row flags of R77 and f_w of R116, and the checksum codes and column sums of R92. -/
structure Bank where
  block   : Option (CmdId × OptBlock) := none
  loaded  : Bool := false
  codes   : List (List Int) := []
  scales  : List Int := []
  rounded : List Bool := []
  marked  : List Bool := []
  check   : List Int := []
  colSums : List Int := []
  deriving DecidableEq, Repr, Inhabited

/-- A window's converter codes on their way to the tiles (R90), with the engine's tag (R105). -/
structure WindowOut where
  gen    : BitVec 8
  id     : CmdId
  block  : OptBlock
  vector : Nat
  /-- R75: the partial products that the tiles form of the row codes -/
  parts  : List W32
  /-- R98: the residual of each row, taken for the rows that are sampled -/
  residuals : List Int
  last   : Bool
  deriving DecidableEq, Repr, Inhabited

/-- The run of a weight block (R86, R94). -/
structure Run where
  id     : CmdId
  block  : OptBlock
  /-- next vector of the block to integrate -/
  next   : Nat := 0
  /-- R409: windows of the run so far, the idle ones among them -/
  slot   : Nat := 0
  /-- vectors of the block -/
  count  : Nat := 0
  /-- run number, from 1 (R94) -/
  number : Nat := 1
  /-- R94: a window mismatched; the run stops at the next window boundary -/
  mismatch : Bool := false
  /-- R113: largest σ² evaluated during the run, 10⁻³⁰ -/
  sigma2 : Nat := 0
  /-- R96: the sampling register at the start of the run -/
  lfsr0  : W16 := 0
  /-- R98: samples of this run: count, sum of squares and largest square of the residuals, in code units -/
  samples : Nat := 0
  zSum : Nat := 0
  zMax : Nat := 0
  /-- R113: its windows have started; a run made for a discarded one has not until it starts -/
  live : Bool := true
  /-- R86: the last window has ended -/
  ended : Bool := false
  /-- R86: outputs summed into staging -/
  arrived : Nat := 0
  deriving DecidableEq, Repr, Inhabited

/-- Where an engine is (Table 15-14 ENGINE [1:0]). -/
inductive Rotation where
  | inRotation | outOfRotation | left
  deriving DecidableEq, Repr, Inhabited

/-- A Lighthouse (R479, R480): its faults of the last 24 h and whether it is retired. -/
structure Lighthouse where
  faults  : List Nat := []
  retired : Bool := false
  /-- R480: the Lighthouse test after a fault is to be run -/
  testing : Bool := false
  deriving DecidableEq, Repr, Inhabited

/-- One optical matrix engine. -/
structure Engine where
  /-- R104: in rotation, out of rotation, left service -/
  rotation : Rotation := .inRotation
  /-- Table 03-9: reason for leaving service -/
  reason : Nat := 0
  /-- R105: generation tag -/
  gen : BitVec 8 := 0
  /-- R105: being reset -/
  resetting : Bool := false
  bankA : Bank := {}
  bankB : Bank := {}
  /-- R85: bank B is the active bank -/
  activeB : Bool := false
  /-- R85: the guard is in progress -/
  guard : Bool := false
  /-- the block being run -/
  run : Option Run := none
  /-- R86: a block whose windows have ended and whose last outputs are still on their way -/
  finishing : Option Run := none
  /-- R86: staging, key vector × 128 + row -/
  staging : Tab W32 := []
  /-- R90: outputs on their way to the tiles -/
  outputs : List WindowOut := []
  /-- R79: temperature estimate, 0.001 °C -/
  temp : Int := 0
  /-- R83: temperature at the last calibration -/
  calTemp : Int := 0
  /-- R113: Tide of the last calibration in effect -/
  calTide : Nat := 0
  /-- R83: calibration stale -/
  stale : Bool := false
  /-- R112: comb power over its set point, 10⁻⁶ -/
  comb : Nat := 1000000
  /-- R100: slope over 100 µs, 0.001 °C/ms, signed -/
  slope : Int := 0
  /-- R100 -/
  thermalStep : Bool := false
  /-- R101: pause at the next bank boundary, and paused -/
  pauseWanted : Bool := false
  paused : Bool := false
  /-- R112: σ² of the last evaluation, 10⁻³⁰, without the class term: drift and step -/
  widen2 : Nat := 0
  /-- R79: temperature whose heater codes the rings have, and one whose codes wait for the next window boundary -/
  heatIn : Int := 0
  heatWait : Option Int := none
  /-- R79 to R81: number of the measurement whose tables are in effect (0: those in non-volatile memory), and of one whose
  tables wait for a bank switch (R453) -/
  tables : Nat := 0
  newTables : Option Nat := none
  /-- R453: measured ENOB per class, 8.8 fixed point -/
  enob : List Nat := []
  /-- R453: the repeated calibration is in progress -/
  calRepeat : Bool := false
  /-- R71: logical line or row moved to a physical spare -/
  lineMap : Tab Nat := []
  rowMap : Tab Nat := []
  /-- R71: moves that take effect at the next bank load -/
  linePend : List (Nat × Nat) := []
  rowPend : List (Nat × Nat) := []
  /-- R70, R69: physical lines and rows that have failed -/
  lineFailed : List Nat := []
  rowFailed : List Nat := []
  /-- R82: normalised power of each physical line, and the power of the lines to be renormalised, in 10⁻⁶ of the power at the
  last calibration -/
  lineNorm : Tab Nat := []
  tapOff : List (Nat × Nat) := []
  /-- R99, R113: the same of the standby, by its power at the last calibration -/
  standbyNorm : Tab Nat := []
  /-- R68: number of the active Lighthouse -/
  lhActive : Nat := 0
  lh0 : Lighthouse := {}
  lh1 : Lighthouse := {}
  /-- R99: switch-over in progress -/
  lhSwitching : Bool := false
  /-- R105: outputs that carried an old tag, dropped -/
  droppedOutputs : Nat := 0
  /-- R89: idle windows inserted -/
  idleWindows : Nat := 0
  /-- R461: Tide of each transient of the last hour -/
  transients : List Nat := []
  /-- R213: commands served in round robin, in the order of their starts -/
  rotationList : List CmdId := []
  /-- R82: commands with windows since the last tap reading within 1 % -/
  ranSince : List CmdId := []
  deriving DecidableEq, Repr, Inhabited

/-! ## Memory stacks (chapter 08) -/

/-- State of a channel (Table 15-15 CHANNEL). -/
inductive ChannelState where
  | inService | degraded | retired
  deriving DecidableEq, Repr, Inhabited

/-- A channel of a stack. -/
structure StackChannel where
  /-- R261 -/
  state : ChannelState := .inService
  /-- R260: free spare connections -/
  freeConn : Nat := 64
  /-- R259, R260: connections whose place a spare has taken, or that none has; 9216 to 9279 are the spares themselves -/
  spared : List Nat := []
  /-- R463: connections retired at run time, in the lifetime retirement records -/
  retiredConn : List Nat := []
  /-- R260: Tide of the corrections of each connection in the last 1 s -/
  recent : Tab (List Nat) := []
  /-- R260: connections to be tested in the next refresh gap -/
  suspectConn : List Nat := []
  /-- R252: corrected codewords, of the channel and of each connection -/
  corrections : Nat := 0
  connCorrections : Tab Nat := []
  /-- R260: connections with a correction that a scrub has marked as a cell error: connection and row -/
  cellMarks : List (Nat × Nat) := []
  /-- R263: spare rows used, by bank -/
  rowsUsed : Tab Nat := []
  /-- R263: rows waiting for repair in the next gap: bank × 262144 + row -/
  repairWait : List Nat := []
  /-- R261, R267: evacuation in progress or waiting -/
  evacuating : Bool := false
  /-- R257: in its refresh gap -/
  gaps : Nat := 0
  /-- R255: refresh operations done, by bank, and the band whose interval each bank keeps -/
  refreshes : Tab Nat := []
  bankBand : Tab Nat := []
  /-- R450: strobe setting that waits for a gap, and the temperature at the last setting -/
  strobeWait : Option Int := none
  strobeTemp : Int := 0
  /-- R248: row buffers, least recently used first: bank × 262144 + row, Tide of the first write if written -/
  buffers : List (Nat × Option Nat) := []
  deriving DecidableEq, Repr, Inhabited

/-- A layer of a stack (R255, R276, R277). -/
structure Layer where
  /-- R276, in 1/15 of 0.001 °C -/
  temp15 : Int := 0
  /-- R255: refresh band T0–T3 -/
  band : Nat := 0
  /-- R275: power, mW -/
  power : Nat := 0
  /-- R277: suspect sensors 0–3 -/
  suspect : List Nat := []
  /-- R277: Tide since which a sensor has differed from the model by more than 6 °C -/
  offSince : Tab Nat := []
  /-- T_model, 1/15 of 0.001 °C -/
  model15 : Int := 0
  /-- last readings -/
  readings : List Int := []
  /-- R271: the layer is switched off -/
  off : Bool := false
  /-- R258: above 100 °C -/
  alarm : Bool := false
  /-- Table 08-3: row transfers allowed, percent -/
  throttle : Nat := 100
  deriving DecidableEq, Repr, Inhabited

/-- A bundle of a near link (R304 to R306). -/
structure Bundle where
  /-- lanes in the stripe -/
  active : List Nat := List.range 32
  /-- free spares -/
  spares : List Nat := [32, 33]
  /-- lanes removed since the last refresh gap, and lanes to be tested in the next one (R306) -/
  removed : List Nat := []
  testWait : List Nat := []
  /-- R306: lanes that leave the stripe at the next frame marked STRIPE -/
  leaving : List Nat := []
  /-- lanes retired -/
  retired : List Nat := []
  deriving DecidableEq, Repr, Inhabited

/-- The move of one segment (R265): its slot, the sources that have acknowledged, and how far it has come. -/
structure Move where
  key : SegKey
  slot : Nat
  acks : List Nat := []
  copied : Bool := false
  bad : List Nat := []
  began : Nat := 0
  deriving DecidableEq, Repr, Inhabited

/-- A memory stack. -/
structure Stack where
  /-- R258, R271: stopped serving for heat or a rail -/
  stoppedHeat : Bool := false
  stoppedRail : Bool := false
  /-- R258: thermal alarm -/
  alarm : Bool := false
  channels : Tab StackChannel := []
  layers : Tab Layer := []
  /-- Table 15-15 REG_SUSPECT, BASE_SUSPECT -/
  regSuspect : List Nat := []
  baseSuspect : List Nat := []
  /-- R265: the move in progress -/
  move : Option Move := none
  /-- R267, R268: channels to be evacuated, in the order in which they became degraded -/
  evac : List Nat := []
  /-- R16: rows that the near-lane input has sent in a row while the fabric port waited, and the row served last: channel,
  bank × 262144 + row -/
  nearRun : Nat := 0
  lastRow : Option (Nat × Nat) := none
  /-- R304: bundles of the near link -/
  bundles : Tab Bundle := []
  /-- R305: next SEQ to be received, by direction (0 towards the stack, 1 towards the berth) -/
  nearSeq : Tab W32 := []
  /-- R305: frames received ahead of their SEQ -/
  nearAhead : List (Nat × W32) := []
  /-- R305: NAK to be sent, by direction -/
  nearNak : Tab Bool := []
  /-- R305: SEQ acknowledged, and the SEQ from which frames are sent again, by direction -/
  nearAcked : Tab W32 := []
  nearReplay : Tab (Option W32) := []
  /-- R305: frames in the replay buffer of each direction, and the Tide in 1/1024 ns at which each bundle will have sent its
  frames: 16 × direction + bundle -/
  nearSent : List (Nat × W32) := []
  nearFree : Tab Nat := []
  /-- R304: number of the next lane frame of each bundle, with the same key -/
  nearLaneNo : Tab Nat := []
  /-- R304: units of 64 bytes of the four channels in the receive buffers, by direction -/
  nearOwed : Tab (List Nat) := []
  /-- R305: frames delivered in order, by direction -/
  nearDelivered : Tab Nat := []
  /-- R307, R465 -/
  nearLost : Bool := false
  /-- R450: near-lane trims that wait for a gap, and the temperature at the last trims -/
  trimWait : Option Int := none
  trimTemp : Int := 0
  deriving DecidableEq, Repr, Inhabited

/-- A retired address range (R269). -/
structure RetiredRange where
  key : SegKey
  /-- Tide at which it became retired; read-only for 60 s -/
  since : Nat := 0
  /-- R269: no longer returns data -/
  closed : Bool := false
  deriving DecidableEq, Repr, Inhabited

/-- The retirement pool (R262 to R270). -/
structure Pool where
  /-- R262: remap entries, key (stack × 16 + channel) × 1024 + segment to slot (stack × 256 + channel × 16 + i) -/
  remap : Tab (Option Nat) := []
  /-- R265: keys marked MOVING -/
  moving : List SegKey := []
  /-- R263: segments to be moved because a bank has no spare row left -/
  wanted : List SegKey := []
  /-- R269 -/
  ranges : List RetiredRange := []
  deriving DecidableEq, Repr, Inhabited

/-! ## Photonic fabric (chapter 09) -/

/-- The last heater code of a ring is frozen, tracking, or relocking (R289, R290). -/
inductive RingState where
  | locked | relocking | frozen
  deriving DecidableEq, Repr, Inhabited

/-- A fabric ring (R288 to R290): a modulator ring or a receiver ring of a lane. -/
structure Ring where
  state : RingState := .locked
  /-- R289: the line on which it is locked, when that is not its own -/
  line : Option Nat := none
  /-- R289, R290: the heater code from which it acquires -/
  code : BitVec 16 := 0
  deriving DecidableEq, Repr, Inhabited

/-- One direction of one site pair (R282 to R298). -/
structure PairDir where
  /-- R284: planes in the stripe, ascending -/
  stripe : List Nat := List.range 16
  /-- R282: free spares -/
  spares : List Nat := [16, 17]
  /-- R295: planes out of the stripe that keep their claim to a place, with the plane that took it. A spare that was replaced in a
  place whose own plane has come back names itself: it has no place to return to but the spares -/
  out : List (Nat × Option Nat) := []
  /-- R308: planes in the single-lane margin test -/
  testing : List Nat := []
  /-- R296: retired planes -/
  retired : List Nat := []
  /-- R289: receiver rings and modulator rings, by plane -/
  rings : Tab Ring := []
  modRings : Tab Ring := []
  /-- R284, R295: lane events that the sender has been asked for and has not yet marked with STRIPE: EVT and plane -/
  change : List (Nat × Nat) := []
  /-- R284: number of the next lane frame -/
  laneNo : Nat := 0
  /-- R293: Tide of the last training of the pair direction after the start-up training -/
  trained : Option Nat := none
  /-- R298, R301: the lanes are deskewed -/
  deskewed : Bool := true
  /-- R297: lanes found failing by their monitor while a higher event was in progress -/
  again : List Nat := []
  /-- R292: lanes that wait for a change of their pre-emphasis set or trim, the lane that is out of the stripe for its change,
  and the set of each lane -/
  trimTodo : List Nat := []
  trimming : Option Nat := none
  sets : Tab Nat := []
  /-- R285: SEQ expected next -/
  rxSeq : W32 := 0
  /-- R285: SEQ of the next new frame, of the frame that the sender puts on the lanes next, and of the last frame
  acknowledged -/
  txSeq : W32 := 0
  sending : W32 := 0
  txAcked : W32 := 0xFFFFFFFF
  /-- R285: the replay buffer: SEQ of the frames sent and not yet acknowledged, with their bodies where they have been seen -/
  replay : List (W32 × Option Nat) := []
  /-- R285: NAK is to be set in the next reverse frame -/
  nak : Bool := false
  /-- R294: consecutive failures of the same frame -/
  fails : Nat := 0
  /-- R294: IDREQ is to be sent -/
  idreq : Bool := false
  /-- R294: an identity frame is to be sent -/
  idFrame : Bool := false
  /-- R285: frames are to be sent again from here -/
  replayFrom : Option W32 := none
  /-- R295: lane events for the next reverse frames: EVT and plane -/
  evt : List (Nat × Nat) := []
  /-- R296: Tide of the identity mismatches of each plane in the last 1 s -/
  mismatch : Tab (List Nat) := []
  /-- R298 -/
  retraining : Bool := false
  /-- R287: lanes asleep -/
  asleep : Bool := false
  /-- R287: Tide of the last packet -/
  lastPacket : Nat := 0
  /-- R290: Tide since which every lane has been dark -/
  darkSince : Option Nat := none
  /-- R297: until this Tide identity words do not count as mismatches -/
  quietUntil : Nat := 0
  /-- R286: units of 64 bytes of REQ, RSP, BULK and CTL in the receive buffers: sent, and not yet returned as credits -/
  owed : List Nat := [0, 0, 0, 0]
  /-- packets delivered in order: frames accepted -/
  delivered : Nat := 0
  /-- Table 15-13 MISMATCH, RETRAIN -/
  mismatches : Nat := 0
  retrains : Nat := 0
  /-- R309 -/
  lost : Bool := false
  deriving DecidableEq, Repr, Inhabited

/-- The fabric port of a site (R291, R299). -/
structure FabricPort where
  lhActive : Nat := 0
  lh0 : Lighthouse := {}
  lh1 : Lighthouse := {}
  /-- R299: sending is stopped for a switch-over -/
  paused : Bool := false
  /-- R291: pre-emphasis band FB0–FB2 -/
  band : Nat := 0
  /-- R286, R34: frames with payload sent in the last 1 µs, with their destinations, and those accepted -/
  sentAt : List (Nat × Nat) := []
  takenAt : List Nat := []
  /-- R286: the destination whose queue the port served last -/
  served : Nat := 63
  /-- R292: trims measured at this temperature are being applied lane by lane -/
  trimWait : Option Int := none
  /-- R450: temperature at the last trims, and at the last update of the ring starting points, 0.001 °C -/
  trimTemp : Int := 0
  ringTemp : Int := 0
  /-- Table 15-13 EYE_MIN -/
  eyeMin : Nat := 0
  deriving DecidableEq, Repr, Inhabited

/-! ## Harbour (chapter 11) and links -/

/-- Link states (Table 15-16 LINK [2:0]); `training` is a link that has left link reset or repeats training. -/
inductive LinkState where
  | disabled | up | linkReset | refused | failed | training
  deriving DecidableEq, Repr, Inhabited

/-- An external link (R351 to R354, R366). -/
structure Link where
  state : LinkState := .disabled
  /-- R353: wavelengths in the stripe, and those that serve in each direction -/
  lanes : Nat := 0
  lanesIn : Nat := 0
  lanesOut : Nat := 0
  spares : Nat := 2
  /-- Table 11-3 -/
  refusal : Nat := 0
  /-- R366: scheduled release and entry instants -/
  releaseAt : Option Nat := none
  entryAt : Option Nat := none
  /-- R361, R362: Tide at which the link last came up or went down -/
  since : Nat := 0
  /-- R354: Tide of the last valid frame -/
  lastFrame : Nat := 0
  /-- R354: retrainings that failed in a row -/
  retrainFails : Nat := 0
  /-- Table 15-16 -/
  retrains : Nat := 0
  uncorrectable : Nat := 0
  /-- R354: codewords received, and those found uncorrectable in the present run of 10⁹ -/
  codewords : Nat := 0
  badInRun : Nat := 0
  /-- R298 of a link: failures of the same frame in a row, and the link, once up, repeats its training -/
  fails : Nat := 0
  again : Bool := false
  /-- R375: frames sent, the idle frames inserted among them, idle frames deleted, and lane markers received -/
  framesSent : Nat := 0
  idleSent : Nat := 0
  idleDeleted : Nat := 0
  markers : Nat := 0
  /-- R387: delay measured last, in 1/16 ns -/
  delay16 : Int := 0
  /-- R387: t2 and t3 of the last exchange with the partner that this module feeds, to be returned in the next message -/
  stamps : Option (Int × Int) := none
  /-- R363: frames of own and transit traffic served -/
  own : Nat := 0
  transit : Nat := 0
  /-- R363: units of transit of REQ, RSP, BULK and CTL that this link's partner has room taken by, and the transit frames that
  wait for credit here: link by which each came, and its units -/
  transitOwed : List Nat := [0, 0, 0, 0]
  transitWait : List (Nat × List Nat) := []
  /-- R366: crossing pointers resynchronised -/
  synced : Bool := false
  /-- R450: trims that wait for an idle frame, and the temperature at the last trims -/
  trimWait : Option Int := none
  trimTemp : Int := 0
  deriving DecidableEq, Repr, Inhabited

/-- A pair's route (R361). -/
inductive Route2 where
  | direct | relay (r : Nat) | none
  deriving DecidableEq, Repr, Inhabited

/-- A member of the harbour as this module knows it (R360, R531). -/
structure Member where
  /-- R531: PART learned; 0 while not learned -/
  part : Nat := 0
  dead : Bool := false
  /-- R360: Tide of the last heartbeat, on the master -/
  heartbeat : Nat := 0
  /-- R367: rejoin in progress -/
  rejoining : Bool := false
  deriving DecidableEq, Repr, Inhabited

/-- The harbour (R349 to R368). -/
structure HarbourGroup where
  /-- Table 11-1, management-port registers -/
  hbrPos : BitVec 8 := 0
  hbrMembers : W32 := 1
  /-- R349: latched at quay release -/
  pos : Nat := 0
  members : BitVec 25 := 1
  posValid : Bool := false
  latched : Bool := false
  /-- R356: master or acting master, and whether there is none -/
  master : Nat := 0
  noMaster : Bool := false
  /-- R357: a claim has been sent at this Tide -/
  claimAt : Option Nat := none
  /-- R357: handback announced for this Tide instant -/
  handbackAt : Option Nat := none
  /-- R357: Tide since which position 0 is back -/
  returnedAt : Option Nat := none
  memberTab : Tab Member := []
  /-- R361: routes, key p × 32 + q with p < q -/
  routes : Tab Route2 := []
  /-- R345: drains in progress: pair and the route that will be entered -/
  drains : List (Nat × Nat × Route2) := []
  links : Tab Link := []
  /-- R341: the epoch table of the module's sources: site for the own module, (1 + pos) × 64 + site for another -/
  epochs : Tab (BitVec 8) := []
  /-- R338: sites of other modules held dead, key pos × 64 + site -/
  deadSites : Tab Bool := []
  /-- R338: Tide at which a site of another module was last probed, with the same key -/
  probes : Tab (Option Nat) := []
  /-- R357: Tide of the last synchronisation received -/
  lastSync : Nat := 0
  /-- R367: this module asks to rejoin; members whose first link has not come up -/
  rejoining : Bool := false
  firstTried : List Nat := []
  /-- R360: Tide of the own last heartbeat -/
  beatAt : Nat := 0
  /-- R368: entry instant of the own planned reset -/
  resetAt : Option Nat := none
  /-- link Lighthouses of the quays -/
  quayLh : Tab FabricPort := []
  deriving DecidableEq, Repr, Inhabited

/-! ## Tide and clocks (chapter 12) -/

/-- Tide modes (R381). -/
inductive TideMode where
  | alwaysOn | reference
  deriving DecidableEq, Repr, Inhabited

/-- The Tide master counter, the alarm, REF and the servo (R380 to R390). -/
structure TideGroup where
  /-- R380: Tide in units of 2⁻³² ns: 64-bit integer part and 32-bit fraction -/
  count : Nat := 0
  mode : TideMode := .alwaysOn
  /-- R381: signed rate adjustment -/
  rate : Int := 0
  /-- R372: REF passes its check -/
  refGood : Bool := false
  refRunning : Bool := false
  /-- R383: Tide as the always-on domain latched it at its last edge in reference mode, and the PORTCLK cycles since -/
  latchAo : Nat := 0
  aoPhase : Nat := 0
  /-- R380: the replicas that are loaded: those of the sites, and 49 that of the PCIe interface -/
  loaded : List Nat := []
  /-- failed windows since REF was started (Table 12-6) -/
  refTries : Nat := 0
  /-- R383: PCLK and every PORTCLK generator locked -/
  locked : Bool := false
  /-- R385: armed alarm value -/
  alarm : Option Nat := none
  /-- R387: offset measured last, 1/16 ns, and the filtered frequency term, in units of 2⁻³² -/
  offset16 : Int := 0
  offsetPrev16 : Int := 0
  freq : Int := 0
  /-- R389: holdover since -/
  holdover : Option Nat := none
  /-- R388, R389, R356: reasons for which guarantee 4 is relaxed: 1 offset, 2 holdover, 3 no master, 4 change of master -/
  relaxed : List Nat := []
  /-- R359, R388: Tide since which a reason has held, and the times in which one has held before: from, to -/
  relaxedSince : Option Nat := none
  relaxedPast : List (Nat × Nat) := []
  /-- R358, R390: Tide is stepped no more: the first lock has been made, or a context has been opened -/
  firstLock : Bool := false
  /-- R372: generators whose clock has stopped, with the Tide of the stop -/
  stoppedGens : List (Nat × Nat) := []
  deriving DecidableEq, Repr, Inhabited

/-- Crossing states (R377, R378): `parking` takes no new entry and waits until those in flight have been delivered. -/
inductive CrossState where
  | active | failed | parked | parking
  deriving DecidableEq, Repr, Inhabited

/-- A crossing of two clocks (R373 to R378). -/
structure Crossing where
  state : CrossState := .active
  /-- R374: the free-running counts of the events from the block of the smaller number to the other, as the sender counts them
  and as the receiver read them last -/
  sent : W16 := 0
  read : W16 := 0
  /-- the same from the block of the larger number -/
  sentBack : W16 := 0
  readBack : W16 := 0
  deriving DecidableEq, Repr, Inhabited

/-! ## Power, domains, thermal (chapter 13) -/

/-- Power states of a domain (Table 13-3). -/
inductive DomState where
  | on | retention | off
  deriving DecidableEq, Repr, Inhabited

/-- A power domain and its controller (R400 to R405). -/
structure Domain where
  state : DomState := .on
  /-- R405: the transition in progress -/
  busy : Option DomState := none
  /-- R405: transitions queued, with the request that asked for each -/
  queue : List (DomState × Option Route) := []
  /-- the request of the transition in progress -/
  who : Option Route := none
  /-- R404: a transition waits for its users -/
  waiting : Option (DomState × Route) := none
  deriving DecidableEq, Repr, Inhabited

/-- The rails of the second stage (R398): of a region's core and tile SRAM, of an engine, of a base-layer block, and those of
Table 08-5, the first two per layer. -/
inductive Rail where
  | core (berth region : Nat)
  | tileSram (berth region : Nat)
  | engine (berth engine : Nat)
  | base (block : Nat)
  | varr (stack layer : Nat)
  | vpp (stack layer : Nat)
  | vlog (stack : Nat)
  | vsram (stack : Nat)
  deriving DecidableEq, Repr, Inhabited

/-- Input ranges (Table 13-1). -/
inductive InputRange where
  | below | low | normal | high | above
  deriving DecidableEq, Repr, Inhabited

/-- The 800 V input, its stores, the interlock (R391 to R397, R522). -/
structure PowerGroup where
  /-- R391: filtered input voltage, mV -/
  millivolts : Nat := 800000
  range : InputRange := .normal
  /-- R391: the isolated stage converts -/
  converting : Bool := true
  /-- R393: the store carries the load; one event per dip -/
  dip : Bool := false
  /-- R393, R396: the energy of the hold-up store above 42.4 V, in pJ, at the Tide in ns `storeAt` -/
  store : Nat := 19662720000000
  storeAt : Nat := 0
  /-- R522 -/
  interlockClosed : Bool := true
  /-- R394: brown-out reset in progress -/
  brownOut : Bool := false
  /-- R395: the always-on store holds -/
  alwaysOn : Bool := true
  /-- R397: pre-charged -/
  charged : Bool := true
  /-- R395: Tide at which the 50 V bus failed -/
  busFailed : Option Nat := none
  /-- Tide since which the input has been in 720–880 V -/
  goodSince : Option Nat := some 0
  /-- R470, R510 -/
  cycleReq : Bool := false
  deriving DecidableEq, Repr, Inhabited

/-- Thermal summary and cooling (R413 to R417, R496). -/
structure ThermalGroup where
  /-- Table 16-9 -/
  summary : W64 := 0xC8000000_00E10000#64
  /-- R414 -/
  coolingFault : Bool := false
  /-- R417 -/
  alarm : Bool := false
  /-- R411: suspect sensors of the base layer that lie beneath no berth: 0–7 at the quays, 8–11 at the Harbourmaster and
  always-on area, 12–15 at the coolant outlet edge -/
  suspect : List Nat := []
  /-- the readings of these sensors, the power of the site nearest to each in mW, and Tide + 1 since which each has differed from
  its model by more than 6 °C -/
  areaRead : Tab Int := []
  areaPower : Tab Nat := []
  areaSince : Tab Nat := []
  /-- quay temperatures, and the hottest of the Harbourmaster area, 0.001 °C -/
  quayTemp : Tab Int := []
  hmTemp : Int := 0
  tIn : Int := 0
  tOut : Int := 0
  /-- R413: flow request, 0.1 L/min -/
  flowReq : Nat := 200
  powerIn : Nat := 0
  /-- R414: Tide since which each condition has held -/
  lowSince : Option Nat := none
  hotSince : Option Nat := none
  /-- R414: Tide since which both conditions have been absent -/
  clearSince : Option Nat := none
  deriving DecidableEq, Repr, Inhabited

/-! ## Reset, boot, protection (chapter 14) -/

/-- A REACH entry (Table 14-9). -/
structure ReachEntry where
  pos : Nat
  base : Nat
  limit : Nat
  atomics : Bool
  stores : Bool
  loads : Bool
  deriving DecidableEq, Repr, Inhabited

/-- An INGRESS entry (Table 14-9). -/
structure IngressEntry where
  part : Nat
  srcBerths : BitVec 8
  srcPos : BitVec 25
  base : Nat
  limit : Nat
  atomics : Bool
  stores : Bool
  loads : Bool
  deriving DecidableEq, Repr, Inhabited

/-- A partition record (Table 14-8). -/
structure PartRecord where
  valid : Bool := false
  ramp : Nat := 0
  spread : Bool := false
  function : Nat := 0
  berths : BitVec 8 := 0
  reach : List ReachEntry := []
  deriving DecidableEq, Repr, Inhabited

/-- A configuration: the body of Table 14-7 with its SERIAL and SIGNER. -/
structure ConfigImage where
  serial : Nat := 0
  signer : Nat := 0
  fabAddrMode : Nat := 0
  parts : List PartRecord := []
  ingress : List IngressEntry := []
  /-- flat table: FLAT_ID to module × 64 + site -/
  flat : Tab (Option Nat) := []
  /-- the 12 000 bytes of the image, which is verified again at stage B8 (R439) -/
  image : List Byte := []
  deriving DecidableEq, Repr, Inhabited

/-- The state of a partition: its generation, key and reset (R443, R471). -/
structure Partition where
  /-- Table 15-7 -/
  gen : BitVec 8 := 0
  /-- R443: number of the DRAM key drawn last -/
  key : Nat := 0
  /-- a partition reset is in progress; its cause -/
  resetting : Bool := false
  /-- Table 16-5 PART_CAUSE: 0 none, 1 thermal, 2 escalation, 3 function-level reset -/
  cause : Nat := 0
  deriving DecidableEq, Repr, Inhabited

/-- Protection: Breakwater, seal, keys, firmware, presence, debug (R434 to R449). -/
structure SecGroup where
  /-- R434, R439: the configuration in the Breakwater -/
  breakwater : ConfigImage := {}
  /-- R436 -/
  sealed : Bool := false
  /-- R439: active and staged configurations in non-volatile memory -/
  activeCfg : Option ConfigImage := none
  staged : Option ConfigImage := none
  parts : Tab Partition := []
  /-- R440: operator key slots 0–3 -/
  keys : Tab (List Byte) := []
  /-- R448: the tamper seal is broken -/
  sealBroken : Bool := false
  /-- R448, R449 -/
  debug : Bool := false
  /-- R448: DEBUG_ENABLE is in progress; who asked -/
  debugWait : Option Route := none
  /-- R445: Tide at which the presence window ends -/
  window : Option Nat := none
  /-- R528: the button is pressed since this Tide -/
  buttonSince : Option Nat := none
  /-- R447 -/
  erasePending : Bool := false
  lifetimeReset : Bool := false
  /-- R8, R442: running release (major, minor, build), floor (major, minor), releases in the two firmware slots -/
  release : Nat × Nat × Nat := (2, 4, 0)
  floor : Nat × Nat := (2, 4)
  slots : List (Nat × Nat) := [(2, 4), (2, 4)]
  /-- R521: the boot image last installed in slot B through the management port, none since manufacture as [] -/
  slotB : List Byte := []
  /-- R442: slot to boot -/
  bootSlot : Nat := 0
  rollback : Option (Nat × Nat × Nat) := none
  /-- R423: partition sources dropped during a module reset -/
  droppedSources : Nat := 0
  deriving DecidableEq, Repr, Inhabited

/-- Reset and boot (R421 to R429; Table 16-5). -/
structure ResetGroup where
  /-- R293, R301: Tide of the start-up training of the fabric lanes -/
  trained : Nat := 0
  /-- Table 16-5 CAUSE -/
  cause : Nat := 1
  /-- Table 16-5 MASK -/
  mask : BitVec 8 := 1
  /-- Table 16-5 RESETS -/
  resets : Nat := 0
  /-- Table 16-5 STAGE: boot stage in progress -/
  stage : Nat := 0
  /-- Table 16-5 READY -/
  ready : Bool := false
  /-- R426: last release step done -/
  step : Nat := 1
  /-- Tide at time 0 of R426 -/
  time0 : Nat := 0
  /-- R427: further time that boot may take, ns: 30 s when a pending erase was done -/
  allowance : Nat := 0
  /-- Tide at READY (R445, R501) -/
  readyTide : Nat := 0
  /-- R422: RESET_N holds the module in reset -/
  heldByPin : Bool := false
  /-- Table 14-5: ROM recovery, or boot stalled at B5 -/
  romRecovery : Bool := false
  stalledB5 : Bool := false
  /-- Table 15-5 rung 5: consecutive module resets that did not reach READY -/
  failedResets : Nat := 0
  /-- Table 14-3 step 9: PCIe released, and the Tide of that step (R514) -/
  pcieUp : Bool := false
  pcieAt : Nat := 0
  /-- R485: entries of the error log before the previous READY -/
  readyLog : Nat := 0
  /-- R485: entries of the error log before the last module reset -/
  resetLog : Nat := 0
  deriving DecidableEq, Repr, Inhabited

/-- A fault event (Table 15-11) without PHASE, which its ring slot gives. -/
structure FaultEv where
  replayed : Bool := false
  outcome : Nat := 0
  guarantee : Nat := 0
  level : Nat := 0
  part : Nat := 0xF
  code : Nat := 0
  site : Nat := 0xFF
  pos : Nat := 0
  unit : Nat := 0
  arg : Nat := 0
  tide : Nat := 0
  count : Nat := 0
  seq : Nat := 0
  deriving DecidableEq, Repr, Inhabited

/-! ## Recovery (chapter 15) -/

/-- A retirement in the lifetime records (R463, Table 15-4): level and numbers of the element. -/
structure Retirement where
  level : Nat
  kind  : Nat
  a : Nat
  b : Nat := 0
  c : Nat := 0
  deriving DecidableEq, Repr, Inhabited

/-- A test or calibration queued on an element (R457). -/
structure TestReq where
  el : Element
  /-- code of Table 15-3; 0 for a targeted test -/
  code : Nat
  /-- 1 targeted, 2 SELFTEST or CALIBRATE, 3 scheduled -/
  rank : Nat
  /-- who gets the result word -/
  who : List Route := []
  /-- R244: the target has left rotation -/
  running : Bool := false
  /-- R94, R461: the work held -/
  work : Option CmdId := none
  deriving DecidableEq, Repr, Inhabited

/-- What the tests of one request have shown so far (R244): whether one failed, the quality figures, the time out of
rotation in µs. -/
structure Gathered where
  who : Route
  fail : Bool
  enobs : List Nat
  us : Nat
  deriving DecidableEq, Repr, Inhabited

/-- A Harbourmaster instance (R475, R478). -/
structure HmInst where
  faults : List Nat := []
  retired : Bool := false
  testing : Bool := false
  /-- R478: Tide since which it has been a stable standby -/
  standbySince : Nat := 0
  deriving DecidableEq, Repr, Inhabited

/-- A crash dump record (R484): what the module held when it was written. The state of the dispatchers, contexts and Tugs is
that of the contexts with the commands in them. -/
structure DumpRecord where
  /-- number of the dump -/
  number : Nat
  /-- Tide at capture -/
  tide : Nat
  /-- the surviving Harbourmaster instance, 0 HM-A, 1 HM-B -/
  inst : Nat
  /-- its journal: the mailboxes -/
  mbx : Tab Mailbox
  /-- the contexts with their commands and Tugs -/
  ctxs : Tab Context
  /-- the state of every crossing -/
  crossings : Tab Crossing
  /-- the last 65 536 fault events -/
  events : List FaultEv
  deriving DecidableEq, Repr, Inhabited

/-- Lifetime records, tests, escalation, Harbourmaster pair. -/
structure RecoveryGroup where
  /-- R463 -/
  lifetime : List Retirement := []
  /-- R457 -/
  tests : List TestReq := []
  /-- R244: results gathered for requests that still wait for further tests -/
  gather : List Gathered := []
  /-- R475: active instance, 0 HM-A, 1 HM-B -/
  active : Nat := 0
  hmA : HmInst := {}
  hmB : HmInst := {}
  /-- Table 15-17 LAST_SWITCH -/
  lastSwitch : Nat := 0
  /-- R467: rungs in progress: rung, reach, unit, Tide -/
  rungs : List (Nat × Nat × Nat × Nat) := []
  /-- R484: the newest four crash dump records, oldest first -/
  dumps : List DumpRecord := []
  dumpCount : Nat := 0
  /-- R452: engine calibrations written to non-volatile memory: berth × 16 + engine to temperature -/
  nvCal : Tab Int := []
  deriving DecidableEq, Repr, Inhabited

/-! ## Fault events (R481 to R485, R497 to R499) -/

/-- The fault-event ring and the error log. -/
structure FaultGroup where
  /-- Table 16-10 BASE, a 4 KiB aligned address -/
  base : Nat := 0
  /-- Table 16-11 -/
  rejected : Bool := false
  enable : Bool := false
  irq : Bool := false
  hostRing : Bool := false
  vector : Nat := 0
  log2S : Nat := 0
  /-- Table 16-12 -/
  head : W32 := 0
  tail : W32 := 0
  /-- Table 16-13 -/
  lost : Nat := 0
  /-- R499: held events, oldest first -/
  held : List FaultEv := []
  /-- R499: new events with room in the ring, about to be written -/
  arriving : List FaultEv := []
  /-- Table 15-13 LAST_TIDE: Tide of the last event that names a site -/
  lastTide : Tab Nat := []
  /-- R485: replayed entries still to be delivered, oldest first -/
  replay : List FaultEv := []
  /-- R485: delivery of the replayed entries has been set up -/
  replayDone : Bool := false
  /-- R483: events not yet written to the log -/
  unlogged : List FaultEv := []
  /-- R483: the error log, oldest first -/
  log : List FaultEv := []
  /-- entries ever written to the error log; the oldest entry held is number logCount − its length -/
  logCount : Nat := 0
  /-- Table 15-11 SEQ of the next event -/
  seq : Nat := 0
  /-- Table 15-11 COUNT: (CODE, SITE, UNIT) with their counts since the last module reset -/
  counts : List ((Nat × Nat × Nat) × Nat) := []
  deriving DecidableEq, Repr, Inhabited

/-! ## Collectives and graphs (R232 to R243) -/

/-- A collective in flight (R232): its members, and those that have started. -/
structure Collective where
  collId : Nat
  /-- the partition of its members -/
  part : Nat
  /-- started members of this module, the first one first -/
  arrived : List CmdId := []
  /-- R232: every member has started and the descriptors agree -/
  running : Bool := false
  /-- R235: the descriptors differ; members that start later end with the same status -/
  failed : Bool := false
  /-- berths whose members have started, and the member berths of this module -/
  berths : List Nat := []
  own : List Nat := []
  deriving DecidableEq, Repr, Inhabited

/-- A graph slot (R237): the descriptor as loaded. -/
structure GraphSlot where
  loaded : Bool := false
  nodes : Nat := 0
  nargs : Nat := 0
  /-- node entries, 256 bytes each, as little-endian numbers -/
  entries : List Nat := []
  deriving DecidableEq, Repr, Inhabited

/-- What is known of a node over its iterations (R243). -/
structure NodeStat where
  status : Nat := 0
  detail : Nat := 0
  completed : Nat := 0
  started : Nat := 0
  deriving DecidableEq, Repr, Inhabited

/-- A run of a graph (R240 to R243): its command, slot, iterations and nodes. -/
structure GraphRunState where
  id : CmdId
  part : Nat
  slot : Nat
  iters : Nat
  /-- R241: no further node is started -/
  stopped : Bool := false
  nodes : Tab NodeStat := []
  /-- R242: completions of remote nodes: (node, iteration, status) -/
  remote : List (Nat × Nat × Nat) := []
  deriving DecidableEq, Repr, Inhabited

/-- Collectives, slots and runs. Slots are keyed partition × 16 + slot. -/
structure GraphGroup where
  colls : List Collective := []
  /-- R242: edges of remote nodes that came before the run they belong to: consumer, producer, status -/
  edges : List (CmdId × Nat × Nat) := []
  slots : Tab GraphSlot := []
  runs : List GraphRunState := []
  deriving DecidableEq, Repr, Inhabited

/-! ## Ports and pins (chapters 16, 17) -/

/-- An MSI-X vector (R191, R493): its table entry and its pending bit. -/
structure MsixVec where
  addr : W64 := 0
  data : W32 := 0
  /-- vector control; bit 0 is the mask -/
  ctrl : W32 := 1
  pend : Bool := false
  deriving DecidableEq, Repr, Inhabited

/-- Dump and image windows, management-port address, PCIe, wake record, counts of refused accesses. -/
structure IoGroup where
  /-- MSI-X vectors, key function × 128 + vector -/
  msix : Tab MsixVec := []
  /-- R513: NumVFs of the physical function -/
  numVFs : Nat := 0
  /-- R516: dynamic address -/
  mpDynamic : Option Nat := none
  /-- R517: straps read at release, and what the strap pins read now: 1 when left open -/
  straps : BitVec 2 := 3
  strapPins : BitVec 2 := 3
  /-- R515: the link trained in SRIS, from the module's own REF -/
  sris : Bool := false
  /-- Table 17-7 -/
  dumpWindow : Nat := 0
  dumpRecord : Nat := 0
  dumpReady : Bool := false
  /-- Table 17-8 -/
  imgWindow : Nat := 0
  imgState : Nat := 0
  imgLen : W32 := 0
  imgData : List Host.Cell := []
  /-- Table 16-7, 16-8 -/
  wakeCount : W16 := 0
  wakeMask : BitVec 7 := 0
  wakeCode : Nat := 0
  wakeTide : Nat := 0
  /-- R384: the module sleeps -/
  asleep : Bool := false
  /-- Table 15-17 BAR_REFUSED: key function -/
  barRefused : Tab Nat := []
  deriving DecidableEq, Repr, Inhabited

/-- Identity fuses (R432): PART and the die revisions; a berth or stack not listed has the newest revision. -/
structure IdGroup where
  /-- Table 00-1: 2, 4 or 8 -/
  part : Nat := 8
  berthRev : Tab Nat := []
  stackRev : Tab Nat := []
  /-- R432: MOD_ID_REV as fixed at stage B3 -/
  modIdRev : W64 := 0
  /-- R282, R302: planes of pair directions (source, destination, plane), lanes of bundles (stack, bundle, lane) and
  connections of channels (stack, channel, connection) that the fuses name as failed -/
  fusePlanes : List (Nat × Nat × Nat) := []
  fuseNear : List (Nat × Nat × Nat) := []
  fuseConns : List (Nat × Nat × Nat) := []
  /-- R387: fixed transmit and receive delay of each quay as measured at assembly test, in 1/16 ns -/
  quayDelays : Tab (Nat × Nat) := []
  deriving DecidableEq, Repr, Inhabited

/-- What the module sends out of itself: messages on PCIe, on its links and on its pins. -/
inductive OutMsg where
  /-- R191, R499, R502: an MSI-X message -/
  | msix (fn vector : Nat)
  /-- R322: a request sent to another module -/
  | request (pos : Nat) (r : WireReq)
  /-- R322: a response sent to a source -/
  | response (r : WireResp)
  /-- R358, R387: a Tide synchronisation message on a link, with the master's Tide in 1/16 ns, and t2 and t3 of the last exchange -/
  | tideSync (link tide : Nat) (stamps : Option (Int × Int))
  /-- R357: a claim -/
  | claim (reaches : Nat)
  /-- R357: announcement of the acting master -/
  | announce (pos : Nat) (at_ : Nat)
  /-- R360, R531: PART and the role epochs of its sites, passed to every member -/
  | memberInfo (pos part : Nat) (epochs : List (BitVec 8))
  /-- R360: the own heartbeat to the master, with PART -/
  | heartbeat (pos part : Nat)
  /-- R360: declaration of a dead module or site -/
  | dead (pos : Nat) (site : Option Nat)
  /-- R338: a probe on CTL -/
  | probe (pos site : Nat)
  /-- R345, R361: a drain, for a pair, with its new route; and the reports of an end, drained and written -/
  | drain (p q : Nat) (route : Route2)
  | drained (p q : Nat)
  | written (p q : Nat)
  /-- R366: a release instant for a link of a member, and an entry instant for a planned reset -/
  | release (pos link instant : Nat)
  | entry (pos link instant : Nat)
  /-- R368: a planned reset of this module at an instant, told to the master -/
  | planned (pos instant : Nat)
  /-- R352: the own training word on a link, and a refusal -/
  | training (link : Nat) (word : TrainWord)
  | refuse (link code : Nat)
  /-- R363: a transit frame sent on by a link, and credits returned for one -/
  | transit (link : Nat) (units : List Nat)
  | credits (link : Nat) (units : List Nat)
  /-- R360, R367: the rejoin request, with PART -/
  | rejoin (link part : Nat)
  /-- R242: the status of a graph node -/
  | edge (pos node iter status : Nat)
  /-- R341: an epoch update -/
  | epoch (site : Nat) (e : BitVec 8)
  deriving DecidableEq, Repr, Inhabited

/-! ## The whole state -/

/-- The state of the module. -/
structure State where
  /-- the commands that wait, first in, first out -/
  pending : List Instr := []
  ident : IdGroup := {}
  rst : ResetGroup := {}
  sec : SecGroup := {}
  tide : TideGroup := {}
  mem : MemGroup := {}
  /-- contexts 0–63 -/
  ctxs : Tab Context := []
  /-- mailboxes, key function -/
  mbx : Tab Mailbox := []
  reqs : ReqGroup := {}
  /-- sites 0–48 -/
  sites : Tab Site := []
  berths : Tab Berth := []
  /-- key berth × 16 + region -/
  regions : Tab Region := []
  /-- key berth × 144 + virtual tile -/
  tiles : Tab Tile := []
  /-- key berth × 16 + engine -/
  engines : Tab Engine := []
  stackTab : Tab Stack := []
  pool : Pool := {}
  /-- key source × 64 + destination -/
  pairs : Tab PairDir := []
  /-- fabric ports, key site -/
  ports : Tab FabricPort := []
  harbour : HarbourGroup := {}
  /-- crossings, key a × 65536 + b -/
  crossings : Tab Crossing := []
  /-- domains, key domain number (Table 13-3) -/
  domains : Tab Domain := []
  power : PowerGroup := {}
  thermal : ThermalGroup := {}
  recovery : RecoveryGroup := {}
  faults : FaultGroup := {}
  graphs : GraphGroup := {}
  io : IoGroup := {}
  /-- messages sent, oldest first: the model's own record of what leaves the module -/
  sent : List OutMsg := []
  /-- the model's own: next index into the free values of Config -/
  fresh : Nat := 0
  deriving DecidableEq, Repr, Inhabited

/-- Why a command stops with a fault. -/
inductive Fault where
  /-- Raised by a meaning whose command names a unit the variant does not have: an absent or reserved site, berth,
  stack, engine, region, lane, link or context (R2, R13, R172). Safe: the manual gives such a unit no behaviour. -/
  | absentUnit
  deriving DecidableEq, Repr

/-- Why a command is refused. -/
inductive Refusal where
  /-- The row has no meaning yet. Safe: the model stops. -/
  | notModelled (mnemonic : String)
  deriving DecidableEq, Repr

/-- The machine right after a power-on reset (R425): every register at its reset value, DRAM, tile SRAM and counters
zero, every context CLOSED, Tide 0 in always-on mode, boot stage B0 in progress, nothing waiting. -/
def State.reset : State := {}

end Sys2Proof.Machine
end

