-- ==== Sys2Proof/Machine/Flags.lean ====
section
/-! DEFINITION. Status codes and their ranks (Table 06-8), phases (R175), the completion entry (Table 06-7), the
verdict and the Tally record (Tables 04-5 and 04-8), predicted noise (R110 to R115) and class selection (R119). -/

namespace Sys2Proof.Machine

/-! ## Status codes (Table 06-8) -/

def S_OK : Nat := 0x00
def S_OK_FLAGGED : Nat := 0x01
def S_DEFERRED : Nat := 0x02
def S_BAD_OPCODE : Nat := 0x10
def S_RESERVED_FIELD : Nat := 0x11
def S_BAD_PARAM : Nat := 0x12
def S_PROTECTION : Nat := 0x20
def S_PRESENCE_REQUIRED : Nat := 0x21
def S_SEALED : Nat := 0x22
def S_TIMEOUT : Nat := 0x30
def S_TARGET_DEAD : Nat := 0x31
def S_STALE_ROLE : Nat := 0x32
def S_RESOURCE_RETIRED : Nat := 0x33
def S_ABORTED : Nat := 0x34
def S_BUDGET : Nat := 0x40
def S_DEGRADED : Nat := 0x41
def S_HW_ERROR : Nat := 0x50

/-- Rank of a run-time status; a status of a failed check has none and stands above all (Table 06-8). -/
def statusRank (st : Nat) : Nat :=
  if st = S_OK then 1
  else if st = S_OK_FLAGGED then 2
  else if st = S_BUDGET then 3
  else if st = S_DEGRADED then 4
  else if st = S_DEFERRED then 5
  else if st = S_RESOURCE_RETIRED then 6
  else if st = S_STALE_ROLE then 7
  else if st = S_TARGET_DEAD then 8
  else if st = S_TIMEOUT then 9
  else if st = S_ABORTED then 10
  else if st = S_HW_ERROR then 11
  else 12

/-- The statuses with which a command has written all its data (R190). -/
def statusWritten (st : Nat) : Bool :=
  st == S_OK || st == S_OK_FLAGGED || st == S_BUDGET || st == S_DEGRADED

/-- A further condition meets a command: the status of highest rank stays, with its DETAIL (R193). -/
def Cmd.note (c : Cmd) (st detail : Nat) : Cmd :=
  if statusRank c.status < statusRank st then { c with status := st, detail := detail } else c

/-- The phase of sequence number q on a ring of S entries (R175). -/
def phaseOf (q size : Nat) : Nat := (q / size + 1) % 2

/-! ## Predicted noise (R110 to R115) -/

/-- U_FS = 127 × 255 × 128 code units (R76). -/
def fullScale : Nat := 4145280

/-- σ_min² of a class at its minimum ENOB, in 10⁻³⁰, rounded up (R110, R111, Table 04-2). -/
def sigmaMin2 (cls : Nat) : Nat :=
  match cls with
  | 0 => 2267058758583656612334036504
  | 1 => 566764689645914153083509126
  | 2 => 141691172411478538270877282
  | 3 => 35422793102869634567719321
  | _ => 11685163930226999987779002

/-- The shot share h of a class, in 1/100 (Table 04-2). -/
def shotShare (cls : Nat) : Nat :=
  match cls with
  | 0 => 100
  | 1 => 100
  | 2 => 99
  | 3 => 96
  | _ => 82

/-- The drift and step widening σ_d² + σ_s², in 10⁻³⁰ (Table 04-3): `dT` in 0.001 °C, the age in ns, the slope in
0.001 °C/ms. -/
def widening2 (dT : Int) (ageNs : Nat) (slope : Int) : Nat :=
  let drift := 2 * 10 ^ 8 * dT.natAbs + ceilDiv (2 * 10 ^ 10 * ageNs) (3600 * 10 ^ 9)
  let step := if 10000 < slope.natAbs then 10 ^ 8 * slope.natAbs else 0
  drift * drift + step * step

/-- σ_F,pred² of R112, in 10⁻³⁰, rounded up; `comb` is the comb power over its set point in 10⁻⁶. -/
def sigmaPred2 (cls comb widen2 : Nat) : Nat :=
  let m := sigmaMin2 cls
  let shot := if comb < 1000000 ∧ 0 < comb then
      ceilDiv (m * shotShare cls * (1000000 - comb)) (100 * comb) else 0
  m + shot + widen2

/-- 36 σ_c² × 128², in code units squared times 10⁻³⁰: the square of the checksum threshold of R93 for the sum
compared at 128 times its value (R115). -/
def checkLimit2 (sigma2 : Nat) : Nat := 36 * sigma2 * fullScale * fullScale * 129 * 128

/-- The reference tally of a class (Table 04-4). -/
def refTally (cls : Nat) : Nat :=
  match cls with
  | 0 => 109
  | 1 => 101
  | 2 => 93
  | 3 => 85
  | _ => 79

/-- R119: the shortest class whose reference tally meets the request, among the classes the module provides, and
whether the request is unreachable. -/
def chooseClass (classes tReq : Nat) : Nat × Bool :=
  if tReq = 255 then (0, false)
  else match (List.range classes).find? (fun k => decide (refTally k ≤ tReq)) with
    | some k => (k, false)
    | none => (classes - 1, true)

/-! ## Verdict and Tally record -/

/-- The residual test of R132 fails: n ≥ 64 and either RMS² > 1 + 4 √(2/n) or MAX ≥ 8. `zSum` and `zMax` are squares
of ratios in 2⁻⁴⁰. -/
def residualFails (n zSum zMax : Nat) : Bool :=
  decide (64 ≤ n) &&
    (decide (64 * 2 ^ 40 ≤ zMax) ||
     (decide (n * 2 ^ 40 < zSum) &&
      decide (32 * n * 2 ^ 80 < (zSum - n * 2 ^ 40) * (zSum - n * 2 ^ 40))))

/-- The verdict of an optical command (R121, R128, Table 04-5). -/
def verdict (t : TallyAcc) : Nat :=
  if t.poisonBlocks ≠ 0 then 4
  else if t.residualExcess || (!t.merged && residualFails t.samples t.zSum t.zMax) then 3
  else if t.unreachable then 2
  else if t.boundFail ≠ 0 then 1
  else 0

/-- A suspect flag of the Tally record is set (R107). -/
def anyFlag (t : TallyAcc) : Bool := t.thermalStep || t.lhSwitch || t.calStale || t.laneSpared

/-- The value of √(x / 2⁴⁰) in 8.8 fixed point, rounded up and saturated (R130). -/
def ratioField (x : Nat) : Nat := min (isqrtUp (ceilDiv x (2 ^ 24))) 0xFFFF

/-- SIGMA_ROW of a σ² in 10⁻³⁰: σ in units of 2⁻⁷, 8.8 fixed point, rounded up (R130). -/
def sigmaRow (sigma2 : Nat) : Nat := min (isqrtUp (ceilDiv (sigma2 * 2 ^ 30) (10 ^ 30))) 0xFFFF

/-- T_MAX and T_MIN of the record (R130). -/
def tMaxField (t : TallyAcc) : Nat := t.tMax.getD 0xFF
def tMinField (t : TallyAcc) : Nat := t.tMin.getD 0xFF

/-- The command wrote a Tally record: an engine integrated a window for it (R128). -/
def writesTally (t : TallyAcc) : Bool := t.windows != 0

/-- The Tally record as a 256-bit number (Table 04-8). -/
def tallyRecord (t : TallyAcc) (tReq ctx seq : Nat) : Nat :=
  min t.repeats 0xFFFF <<< 240 + min t.poisonBlocks 0xFFFF <<< 224 + (t.boundFail % 2 ^ 32) <<< 192 +
  (t.samples % 2 ^ 32) <<< 160 + min t.mismatches 0xFFFF <<< 144 + ofBits t.engines <<< 128 +
  sigmaRow t.sigma2 <<< 112 +
  (if t.samples = 0 then 0 else ratioField (ceilDiv t.zSum t.samples)) <<< 96 +
  (if t.samples = 0 then 0 else ratioField t.zMax) <<< 80 +
  (tReq % 256) <<< 72 + tMinField t <<< 64 + (seq % 2 ^ 32) <<< 32 + (ctx % 64) <<< 24 + verdict t <<< 20 +
  bit t.laneSpared <<< 19 + bit t.calStale <<< 18 + bit t.lhSwitch <<< 17 + bit t.thermalStep <<< 16 +
  bit t.boundMode <<< 15 + (t.cls % 8) <<< 12 + (t.nlog % 16) <<< 8 + tMaxField t

/-- The completion entry as a 256-bit number (Table 06-7). -/
def completionEntry (c : Cmd) (size : Nat) : Nat :=
  let tr := writesTally c.tally
  phaseOf c.id.seq size <<< 255 + bit tr <<< 232 + (if tr then tMaxField c.tally else 0) <<< 224 +
  bit (tr && c.tally.thermalStep) <<< 223 + bit (tr && c.tally.lhSwitch) <<< 222 +
  bit (tr && c.tally.calStale) <<< 221 + bit (tr && c.tally.laneSpared) <<< 220 +
  (if tr then verdict c.tally else 0) <<< 216 + (c.detail % 2 ^ 16) <<< 200 + (c.status % 256) <<< 192 +
  (c.tideEnd % 2 ^ 64) <<< 128 + (c.tideStart % 2 ^ 64) <<< 64 + c.gen.toNat <<< 56 + (c.id.ctx % 64) <<< 48 +
  (c.opcode % 2 ^ 16) <<< 32 + c.id.seq % 2 ^ 32

/-- Count an output block of tally `t` (255 poisoned) against a request (R118, R121, R130). -/
def TallyAcc.block (a : TallyAcc) (tReq t : Nat) : TallyAcc :=
  if t = 255 then { a with poisonBlocks := a.poisonBlocks + 1 }
  else
    { a with
      boundFail := if tReq < t then a.boundFail + 1 else a.boundFail
      tMin := some (match a.tMin with
        | some m => min m t
        | none => t)
      tMax := some (match a.tMax with
        | some m => max m t
        | none => t) }

end Sys2Proof.Machine
end

