-- ==== Sys2Proof/Config.lean ====
section
/-! DEFINITION. What the manual leaves open: free values. Each is a constant with no body, so nothing can be proved of
its value; the log entry named at each says what the manual leaves open. -/

namespace Sys2Proof.Config

/-- R222, R228: the FP32 result of a sum whose result depends on the order of the additions, which the manual leaves
open; the arguments are the occurrence and the place of the element in the result (log entry 7). -/
opaque fp32Sum : Nat → List Nat → W32

/-- R221: the result of an INT32 accumulation whose terms can leave the INT32 range (log entry 7). -/
opaque int32Sum : Nat → List Nat → W32

/-- R229: a table function's FP32 result for a function code and an FP32 argument (log entry 8). -/
opaque tableFn : Nat → W32 → W32

/-- A byte that a member of a collective on another module contributes, by occurrence, member index and offset (log
entry 10). -/
opaque memberByte : Nat → Nat → Nat → Byte

/-- CLASS [2:0], MODE [3] and NLOG [7:4] of the one Tally record of a graph, which R127 does not give (log entry 21). -/
opaque graphTally : Nat → BitVec 8

/-- R244: the quality figure of a CALIBRATE of all 16 engines, for which the manual gives one figure and 16 engines (log
entry 20). -/
opaque allEnob : Nat → List Nat → W16

/-- R79, R81: the heater code of a ring of an engine, by engine, measurement, ring and temperature estimate, in 0.001 °C; the
manual gives the tables no contents (log entry 64). -/
opaque heaterCode : Nat → Nat → Nat → Int → BitVec 16

/-- R80, R81: a segment of a ring's pre-distortion table, by engine, measurement, ring and segment: the drive at its first
weight code, and the step to the next code (log entry 64). -/
opaque predistort : Nat → Nat → Nat → Nat → Int × Int

/-- R81: the gain and the zero-point of a row, by engine, measurement and physical row (log entry 64). -/
opaque rowTrim : Nat → Nat → Nat → Int × Int

/-- R399: the core voltage of a region at a frequency step, in mV, from the table in the Blunen image (log entry 66). -/
opaque coreVoltage : Nat → W16

/-- R398: the set-point of the rail of an engine domain or of a base-layer block, in mV, by its number, which the manual does
not give (log entry 66). -/
opaque railVolts : Nat → W16

/-- R289: the heater code from which a fabric ring acquires, by ring, the temperature of its table and the present estimate;
the manual gives the tables no contents (log entry 64). -/
opaque ringCode : Nat → Int → Int → BitVec 16

/-- R286: the receive buffer of a channel of a pair direction, in units of 64 bytes, which the manual does not give (log
entry 65). -/
opaque fabricBuffer : Nat → W16

/-- R8: the build number of a release that stage B5 loads: the spec gives no build of a slot's image (log entry 31). -/
opaque bootBuild : Nat → W32

/-- R363: units of REQ, RSP, BULK and CTL that the transit buffers of a quay hold; no figure is given (log entry 94). -/
opaque transitBuffer : Nat → W16

/-- R455: the eye width that a trim measures on a lane (log entry 12). -/
opaque eyeWidth : Nat → Nat → W16

/-- R441: the vendor public key, x then y, of which the fuses hold the SHA-384 (log entry 9). -/
opaque vendorKey : BitVec 768

/-- R441, R442: the signed bytes of a boot image and its signature, whose places the manual does not give (log entry 31). -/
opaque imageSigned : List Byte → List Byte × List Byte

/-- R443: the key pair that a draw from the base layer's random source gives a partition (log entry 61). -/
opaque dramKey : Nat → Nat → BitVec 512

/-- R252: the check bytes of a sector's cipher text; the manual gives no generator polynomial of the code (log entry 63). -/
opaque checkBytes : List Byte → W64

/-- R352: the 32-bit CRC of a word, whose polynomial the manual does not give (log entry 9). -/
opaque crc32 : Nat → W32

/-- A byte read from another module's memory, by global address and occurrence (log entry 10). -/
opaque remoteByte : Nat → Nat → Byte

/-- R321: which of its tiles issues a request of an operator, by occurrence and the request's number (log entry 80). -/
opaque issuingTile : Nat → Nat → Nat

/-- R330: whether a queue on the way out of the module marks a request that a command's work makes, by occurrence and the
request's number (log entry 80). -/
opaque egressSwell : Nat → Nat → Bool

/-- R317, R321: the stack that serves a granule of 4 KiB of another member, by its position and the granule's number. That
member's interleave mode and remap tables place it, and this module holds neither (log entry 86). -/
opaque memberStack : Nat → Nat → Nat

/-- R211: a byte of operator scratch as a load returns it, by occurrence and address (log entry 22). -/
opaque scratchByte : Nat → Nat → Byte

/-- R493: the DETAIL of a mailbox request refused for its MBX_CTRL.VECTOR, which lies in no packet byte (log
entry 15). -/
opaque vectorDetail : Nat → Nat

/-- R44: the upper half of the last byte of an INT4 row with an odd number of elements, by the byte's address; the
manual gives it no content (log entry 18). -/
opaque padNibble : Nat → BitVec 4

/-- R43: the sign of a zero picked by a maximum, a minimum or a ReLU between zeros of both signs (log entry 19). -/
opaque zeroSign : Nat → List Nat → Bool

/-- R409: the throttle fraction u, in 1/64, that Blunen sets for a berth so that its power stays at or below its cap, by
occurrence and berth; the manual gives no formula (log entry 25). -/
opaque throttle : Nat → Nat → BitVec 6

/-- R387: the frequency term, in units of 2⁻³², that the filter over 16 ms gives for a change of the offset; the manual gives
no filter (log entry 28). -/
opaque freqFilter : Nat → Int → W32

/-- R366: by how much more than 500 µs ahead the master sets a release instant, in ns (log entry 29). -/
opaque releaseSlack : Nat → W32

/-- R521: the release, major and minor, of the Blunen image in a boot image, whose layout the manual does not give (log entry
31). -/
opaque imageRelease : List Byte → Nat × Nat

/-- R484, R520: a byte of a crash dump record, by its number (none: the window holds no record) and place; the manual gives the
record no layout (log entry 32). -/
opaque dumpByte : Option Nat → Nat → Byte

end Sys2Proof.Config
end

