-- ==== Sys2Proof/Machine/Address.lean ====
section
/-! DEFINITION. Addresses: the global address, the module-local map of Table 10-1, the interleave of R317, the
decomposition of stack offsets, retired ranges (R318), endpoints (Tables 10-2 and 10-3) and site numbers
(Table 01-1). -/

namespace Sys2Proof.Machine

/-! ## Sites (R14, Table 01-1) -/

/-- The kind of a site (Table 01-1; the codes of Table 15-13 KIND). -/
inductive SiteKind where
  | berth (b : Nat)
  | stack (n : Nat)
  | quay (q : Nat)
  | harbourmaster
  | reserved
  deriving DecidableEq, Repr

/-- The unit at a site number (Table 01-1). -/
def siteKind (k : Nat) : SiteKind :=
  if k < 8 then .berth k
  else if k < 40 then .stack (k - 8)
  else if k < 48 then .quay (k - 40)
  else if k = 48 then .harbourmaster
  else .reserved

/-- The site of stack n (Table 01-1). -/
def stackSite (n : Nat) : Nat := n + 8

/-- The site of quay q (Table 01-1). -/
def quaySite (q : Nat) : Nat := q + 40

/-- The Harbourmaster's site (Table 01-1). -/
def hmSite : Nat := 48

/-- The near berth of stack n (Table 01-1). -/
def nearBerth (n : Nat) : Nat := n / 4

/-- A site is populated in the variant `part` (Table 00-1, R2, R3). -/
def sitePresent (part k : Nat) : Bool :=
  match siteKind k with
  | .berth b => decide (b < part)
  | .stack n => decide (n < 4 * part)
  | .quay _ => true
  | .harbourmaster => true
  | .reserved => false

/-! ## Global addresses (R313, Table 10-1) -/

/-- The harbour position of a global address. -/
def addrPos (a : Nat) : Nat := fld a 42 5

/-- The module-local part of a global address. -/
def addrLocal (a : Nat) : Nat := a % 2 ^ 42

/-- The global address of a module-local one. -/
def globalAddr (pos loc : Nat) : Nat := pos <<< 42 + loc

/-- The length of a berth span, 252 GiB (R314). -/
def spanBytes : Nat := 0x3F00000000

/-- What a module-local address is (Table 10-1). -/
inductive Place where
  | dram (berth : Nat)
  | pool
  | tile (berth vtile off : Nat)
  | counter (berth i : Nat)
  | mirror (off : Nat)
  | hole
  deriving DecidableEq, Repr

/-- The base of the tile windows, of the counters and of the register mirror (Table 10-1). -/
def tileBase : Nat := 0x20000000000
def counterBase : Nat := 0x30000000000
def mirrorBase : Nat := 0x3FF00000000

/-- Table 10-1 for a variant; a window of an absent berth is a hole (R314). -/
def placeOf (part loc : Nat) : Place :=
  if loc < 0x1F800000000 then
    let b := loc / spanBytes
    if b < part then .dram b else .hole
  else if loc < 0x20000000000 then .pool
  else if loc < 0x20090000000 then
    let o := loc - tileBase
    let b := o / 0x12000000
    if b < part then .tile b (o % 0x12000000 / 0x200000) (o % 0x200000) else .hole
  else if loc < counterBase then .hole
  else if loc < 0x30000040000 then
    let o := loc - counterBase
    let b := o / 0x8000
    if b < part then .counter b (o % 0x8000 / 8) else .hole
  else if loc < mirrorBase then .hole
  else if loc < 0x40000000000 then .mirror (loc - mirrorBase)
  else .hole

/-- The place is memory with bytes of its own: DRAM or a tile window. -/
def Place.isMem : Place → Bool
  | .dram _ => true
  | .tile _ _ _ => true
  | _ => false

/-- The upper half of a tile window is scratch (R211). -/
def Place.isScratch : Place → Bool
  | .tile _ _ off => decide (0x100000 ≤ off)
  | _ => false

/-- The module-local address of the window of virtual tile t of berth b (R155). -/
def tileWindow (b t : Nat) : Nat := tileBase + b * 0x12000000 + t * 0x200000

/-- The module-local address of counter i of berth b (Table 10-1). -/
def counterAddr (b i : Nat) : Nat := counterBase + b * 0x8000 + i * 8

/-! ## Interleave (R317) -/

/-- The stack and the stack offset of a DRAM address of a module with `part` berths (R317). -/
def placeDram (part : Nat) (spread : Bool) (a : Nat) : Nat × Nat :=
  let b := a / spanBytes
  let h := a % spanBytes / 4096
  let byte := a % 4096
  if spread then
    (h % (4 * part), b * (0xFC0000000 / part) + h / (4 * part) * 4096 + byte)
  else (4 * b + h % 4, h / 4 * 4096 + byte)

/-- Table 08-2: the segment of a stack offset. -/
def offSegment (o : Nat) : Nat := fld o 26 10

/-- Table 08-2: the channel-local granule. -/
def offGranule (o : Nat) : Nat := fld o 16 20

/-- Table 08-2: the channel. -/
def offChannel (o : Nat) : Nat := fld o 12 4

/-- R247: bank of a stack offset: 4 × (g mod 4) + r. -/
def offBank (o : Nat) : Nat := 4 * (offGranule o % 4) + fld o 10 2

/-- R247: row of a stack offset in its bank: g / 4. -/
def offRow (o : Nat) : Nat := offGranule o / 4

/-- The module-local addresses of the granules that a retired range covers (R318). -/
def rangeGranules (part : Nat) (spread : Bool) (n c s : Nat) : List Nat :=
  (List.range 1024).map (fun j =>
    if spread then
      let per := 1008 / part
      let b := s / per
      b * spanBytes + (4 * part * (16384 * (s - b * per) + 16 * j + c) + n) * 4096
    else n / 4 * spanBytes + (65536 * s + 64 * j + 4 * c + n % 4) * 4096)

/-- The first module-local address a retired range covers (R318). -/
def rangeFirst (part : Nat) (spread : Bool) (n c s : Nat) : Nat :=
  if spread then
    let per := 1008 / part
    let b := s / per
    b * spanBytes + (4 * part * (16384 * (s - b * per) + c) + n) * 4096
  else n / 4 * spanBytes + (65536 * s + 4 * c + n % 4) * 4096

/-- log2 of the stride of a retired range: 256 KiB under NEAR, 16 × P granules under SPREAD (R318). -/
def rangeStrideLog (part : Nat) (spread : Bool) : Nat :=
  if spread then 12 + Nat.log2 (64 * part) else 18

/-! ## Endpoints (R319, R321) -/

/-- The coordinate form of an endpoint (Table 10-2). -/
def coordEndpoint (pos site vtile : Nat) : Nat := pos <<< 27 + site <<< 21 + vtile <<< 13

/-- The flat form of an endpoint (Table 10-3). -/
def flatEndpoint (id vtile : Nat) : Nat := id <<< 20 + vtile <<< 12

end Sys2Proof.Machine
end

