-- ==== Sys2Proof/Machine/Ops.lean ====
section
/-! DEFINITION. The named operations over the state: time, populated units, the record of each unit, memory, messages
and fault events. Every meaning reads and writes the state through these. -/

namespace Sys2Proof.Machine

/-- The three outcomes of a command. -/
abbrev Out := Host.Outcome State Fault Refusal

/-! ## Time, position, variant -/

/-- Tide in ns: the integer part of the master counter (R380). -/
def now (s : State) : Nat := s.tide.count / 2 ^ 32

/-- The own harbour position (R349). -/
def ownPos (s : State) : Nat := s.harbour.pos

/-- The number of populated berths (Table 00-1). -/
def berthCount (s : State) : Nat := s.ident.part

/-- The number of populated stacks (Table 00-1). -/
def stackCount (s : State) : Nat := 4 * s.ident.part

/-- Berth b is populated (R2). -/
def hasBerth (s : State) (b : Nat) : Bool := decide (b < s.ident.part)

/-- Stack n is populated (R2). -/
def hasStack (s : State) (n : Nat) : Bool := decide (n < 4 * s.ident.part)

/-- Context c exists (R172). -/
def hasCtx (s : State) (c : Nat) : Bool := decide (c < 8 * s.ident.part)

/-- Site k is populated (R2). -/
def hasSite (s : State) (k : Nat) : Bool := sitePresent s.ident.part k

/-- Engine or region e of berth b exists. -/
def hasEngine (s : State) (b e : Nat) : Bool := decide (b < s.ident.part) && decide (e < 16)

/-- Virtual tile t of berth b exists. -/
def hasTile (s : State) (b t : Nat) : Bool := decide (b < s.ident.part) && decide (t < 144)

/-- External link k exists (R3). -/
def hasLink (k : Nat) : Bool := decide (k < 24)

/-- A function that owns a mailbox: 0 the physical function, 1 to 8 the virtual functions. -/
def hasFn (fn : Nat) : Bool := decide (fn < 9)

/-- Run `f` when the unit exists; a command that names an absent unit stops with `absentUnit` (R2, R13, R172). -/
def guarded (present : Bool) (t : State) : Out := if present then .next t else .fault .absentUnit

/-! ## Records of the numbered units -/

/-- Keys of engines and regions (berth × 16 + number) and of virtual tiles (berth × 144 + number). -/
def engKey (b e : Nat) : Nat := b * 16 + e
def tileKey (b t : Nat) : Nat := b * 144 + t

/-- The region, and the engine, under virtual tile t: e = 4 × (r / 3) + c / 3 in the 12 × 12 grid (R139). -/
def regionOf (t : Nat) : Nat := 4 * (t / 12 / 3) + t % 12 / 3

/-- The virtual tiles of region e, in rising order (R139). -/
def tilesOf (e : Nat) : List Nat := (List.range 144).filter (fun t => regionOf t = e)

/-- A quay starts with role Direct (Table 10-11); every other site with label 0. -/
def siteInit (k : Nat) : Site :=
  match siteKind k with
  | .quay _ => { role := 0xFD }
  | _ => {}

/-- A release step of Table 14-3 has been taken (R27): 4 Lighthouses, 5 the base fabric, 6 stack base dies, 7 berths, 8
quays, 9 PCIe. -/
def released (s : State) (k : Nat) : Bool := decide (k ≤ s.rst.step)

/-- What happens in a domain that step k releases: nothing before that step (R27, R426). -/
def onceReleased (s : State) (k : Nat) (t : State) : State := if released s k then t else s

def getCtx (s : State) (c : Nat) : Context := tabGet {} s.ctxs c
def getMbx (s : State) (fn : Nat) : Mailbox := tabGet {} s.mbx fn
def getSite (s : State) (k : Nat) : Site := tabGet (siteInit k) s.sites k
def getBerth (s : State) (b : Nat) : Berth := tabGet {} s.berths b
def getRegion (s : State) (b e : Nat) : Region := tabGet {} s.regions (engKey b e)
def getTile (s : State) (b t : Nat) : Tile := tabGet {} s.tiles (tileKey b t)
def getEngine (s : State) (b e : Nat) : Engine := tabGet {} s.engines (engKey b e)
def getStack (s : State) (n : Nat) : Stack := tabGet {} s.stackTab n
def getPair (s : State) (src dst : Nat) : PairDir := tabGet {} s.pairs (src * 64 + dst)
def getPort (s : State) (k : Nat) : FabricPort := tabGet {} s.ports k
def getDomain (s : State) (d : Nat) : Domain := tabGet {} s.domains d
def getLink (s : State) (k : Nat) : Link := tabGet {} s.harbour.links k
def getMember (s : State) (p : Nat) : Member := tabGet {} s.harbour.memberTab p
def getPart (s : State) (p : Nat) : Partition := tabGet {} s.sec.parts p

def updCtx (s : State) (c : Nat) (f : Context → Context) : State := { s with ctxs := tabUpd {} s.ctxs c f }
def updMbx (s : State) (fn : Nat) (f : Mailbox → Mailbox) : State := { s with mbx := tabUpd {} s.mbx fn f }
def updSite (s : State) (k : Nat) (f : Site → Site) : State := { s with sites := tabUpd (siteInit k) s.sites k f }
def updBerth (s : State) (b : Nat) (f : Berth → Berth) : State := { s with berths := tabUpd {} s.berths b f }
def updRegion (s : State) (b e : Nat) (f : Region → Region) : State :=
  { s with regions := tabUpd {} s.regions (engKey b e) f }
def updTile (s : State) (b t : Nat) (f : Tile → Tile) : State := { s with tiles := tabUpd {} s.tiles (tileKey b t) f }
def updEngine (s : State) (b e : Nat) (f : Engine → Engine) : State :=
  { s with engines := tabUpd {} s.engines (engKey b e) f }
def updStack (s : State) (n : Nat) (f : Stack → Stack) : State := { s with stackTab := tabUpd {} s.stackTab n f }
def updPair (s : State) (src dst : Nat) (f : PairDir → PairDir) : State :=
  { s with pairs := tabUpd {} s.pairs (src * 64 + dst) f }
def updPort (s : State) (k : Nat) (f : FabricPort → FabricPort) : State := { s with ports := tabUpd {} s.ports k f }
def updDomain (s : State) (d : Nat) (f : Domain → Domain) : State := { s with domains := tabUpd {} s.domains d f }
def updLink (s : State) (k : Nat) (f : Link → Link) : State :=
  { s with harbour := { s.harbour with links := tabUpd {} s.harbour.links k f } }
def updMember (s : State) (p : Nat) (f : Member → Member) : State :=
  { s with harbour := { s.harbour with memberTab := tabUpd {} s.harbour.memberTab p f } }
def updPart (s : State) (p : Nat) (f : Partition → Partition) : State :=
  { s with sec := { s.sec with parts := tabUpd {} s.sec.parts p f } }

/-- The channel and the layer of a stack. -/
def getChannel (s : State) (n c : Nat) : StackChannel := tabGet {} (getStack s n).channels c
def updChannel (s : State) (n c : Nat) (f : StackChannel → StackChannel) : State :=
  updStack s n (fun k => { k with channels := tabUpd {} k.channels c f })

/-- The record of a command in flight, none when it is not in flight. -/
def findCmd (s : State) (id : CmdId) : Option Cmd := (getCtx s id.ctx).flight.find? (fun c => decide (c.id = id))

/-! ## Harbour size and link reset (R350, R366) -/

/-- The harbour size N (R350). -/
def harbourSize (s : State) : Nat := (setBits 25 s.harbour.members.toNat).length

/-! ## Crossings (R373, R377, R378; log entry 16) -/

/-- The key of the crossing of two blocks. -/
def crossKey (a b : Nat) : Nat := min a b * 65536 + max a b

/-- The crossing of two blocks. -/
def getCrossing (s : State) (a b : Nat) : CrossState := (tabGet {} s.crossings (crossKey a b)).state
def updCrossing (s : State) (a b : Nat) (f : Crossing → Crossing) : State :=
  { s with crossings := tabUpd {} s.crossings (crossKey a b) f }
def setCrossing (s : State) (a b : Nat) (c : CrossState) : State := updCrossing s a b (fun x => { x with state := c })

/-- The clock of a block has stopped though nobody meant it to (R372). -/
def clockStopped (s : State) (d : Nat) : Bool := s.tide.stoppedGens.any (fun g => g.1 == d)

/-- Block a sends n events to block b: its count rises, and the receiver reads it while both clocks run (R374). A crossing that is
not active takes none. -/
def countEvents (s : State) (a b n : Nat) : State :=
  let k := BitVec.ofNat 16 n
  let runs := !clockStopped s a && !clockStopped s b
  if getCrossing s a b ≠ .active then s
  else updCrossing s a b (fun c =>
    if a < b then { c with sent := c.sent + k, read := if runs then c.sent + k else c.read }
    else { c with sentBack := c.sentBack + k, readBack := if runs then c.sentBack + k else c.readBack })

/-! ## Commands in flight -/

/-- Change a command in flight. -/
def updCmd (s : State) (id : CmdId) (f : Cmd → Cmd) : State :=
  updCtx s id.ctx (fun c => { c with flight := mapIf (fun m => decide (m.id = id)) f c.flight })

/-! ## Partitions (R435, Tables 14-7 and 14-8) -/

/-- The partition whose valid record names berth b. -/
def partOf (cfg : ConfigImage) (b : Nat) : Option Nat :=
  (List.range 8).find? (fun p =>
    let r := cfg.parts.getD p {}
    r.valid && bitAt r.berths.toNat b)

/-- The partition of berth b in force. -/
def berthPart (s : State) (b : Nat) : Option Nat := partOf s.sec.breakwater b

/-- The partition of berth b is in a partition reset. -/
def berthResetting (s : State) (b : Nat) : Bool :=
  match berthPart s b with
  | some p => (getPart s p).resetting
  | none => false

/-- The record of partition p. -/
def partRecord (s : State) (p : Nat) : PartRecord := s.sec.breakwater.parts.getD p {}

/-- The function that owns partition p. -/
def partFn (s : State) (p : Nat) : Nat := (partRecord s p).function

/-- The populated berths of partition p, in rising order. -/
def partBerths (s : State) (p : Nat) : List Nat :=
  (List.range s.ident.part).filter (fun b => decide (berthPart s b = some p))

/-- The contexts of partition p. -/
def partCtxs (s : State) (p : Nat) : List Nat :=
  (List.range (8 * s.ident.part)).filter (fun c => decide (berthPart s (c / 8) = some p))

/-- The module's interleave is SPREAD (R316). -/
def spread (s : State) : Bool := s.sec.breakwater.parts.any (fun r => r.valid && r.spread)

/-- The berth of context c (R172). -/
def ctxBerth (c : Nat) : Nat := c / 8

/-- The function that owns context c; the physical function where no partition does. -/
def ctxFn (s : State) (c : Nat) : Nat :=
  match berthPart s (ctxBerth c) with
  | some p => partFn s p
  | none => 0

/-! ## Memory -/

/-- A byte of the module's memory by module-local address; memory that nothing has written reads as zero (R425,
R444). -/
def readByte (s : State) (loc : Nat) : Byte := tabGet 0#8 s.mem.cells loc

/-- `n` bytes from a module-local address. -/
def readBytes (s : State) (loc n : Nat) : List Byte := (List.range n).map (fun i => readByte s (loc + i))

/-- A little-endian number of `n` bytes from a module-local address (R10). -/
def readNat (s : State) (loc n : Nat) : Nat := leNat (readBytes s loc n)

/-- Write bytes at rising addresses. -/
def putBytes (t : List Host.Cell) : Nat → List Byte → List Host.Cell
  | _, [] => t
  | a, b :: bs => putBytes (tabSet 0#8 t a b) (a + 1) bs

/-- Write bytes from a module-local address. -/
def writeBytes (s : State) (loc : Nat) (bs : List Byte) : State :=
  { s with mem := { s.mem with cells := putBytes s.mem.cells loc bs } }

/-- Write a list of (module-local address, byte) pairs, in order. -/
def writeCells (s : State) (cs : List (Nat × Byte)) : State :=
  { s with mem := { s.mem with cells := cs.foldl (fun t c => tabSet 0#8 t c.1 c.2) s.mem.cells } }

/-- Host memory by bus address (R173). -/
def readHost (s : State) (a n : Nat) : List Byte := (List.range n).map (fun i => tabGet 0#8 s.mem.host (a + i))

def writeHost (s : State) (a : Nat) (bs : List Byte) : State :=
  { s with mem := { s.mem with host := putBytes s.mem.host a bs } }

/-- An arrival counter (R335). -/
def counterKey (b i : Nat) : Nat := b * 4096 + i
def getCounter (s : State) (b i : Nat) : W64 := tabGet 0#64 s.mem.counters (counterKey b i)
def updCounter (s : State) (b i : Nat) (f : W64 → W64) : State :=
  { s with mem := { s.mem with counters := tabUpd 0#64 s.mem.counters (counterKey b i) f } }

/-- Sector `k` (module-local address / 64) is poisoned (R253). -/
def sectorPoisoned (s : State) (k : Nat) : Bool := tabGet false s.mem.poison k
def setPoison (s : State) (k : Nat) (v : Bool) : State :=
  { s with mem := { s.mem with poison := tabSet false s.mem.poison k v } }

/-- SRAM word `k` (module-local address / 8) holds the poison check code (R145). -/
def wordPoisoned (s : State) (k : Nat) : Bool := tabGet false s.mem.poisonWord k
def setPoisonWord (s : State) (k : Nat) (v : Bool) : State :=
  { s with mem := { s.mem with poisonWord := tabSet false s.mem.poisonWord k v } }

/-- The memory is in its canonical form: rising addresses, no byte equal to what an unlisted address reads as. -/
def memWf (s : State) : Bool := tabWf 0#8 s.mem.cells && tabWf 0#8 s.mem.host && tabWf 0#64 s.mem.counters

/-! ## Messages and free values -/

/-- Send a message out of the module. -/
def send (s : State) (m : OutMsg) : State := { s with sent := s.sent ++ [m] }

/-- Send messages. -/
def sendAll (s : State) (ms : List OutMsg) : State := { s with sent := s.sent ++ ms }

/-- Raise an MSI-X message of a vector: sent, or held pending while its mask bit is set (R191). The request crosses from the base
fabric to the PCIe interface (R374). -/
def msix (s : State) (fn vector : Nat) : State :=
  let k := fn * 128 + vector
  let v := tabGet {} s.io.msix k
  let s1 := countEvents s 3 4 1
  if v.ctrl.getLsbD 0 then { s1 with io := { s1.io with msix := tabSet {} s1.io.msix k { v with pend := true } } }
  else send s1 (.msix fn vector)

/-- Move on to the next free value of Config. -/
def nextFresh (s : State) : State := { s with fresh := s.fresh + 1 }

/-! ## Fault events (R481 to R485, R499) -/

/-- Level of an event by the unit that it concerns (Tables 01-3 and 15-11 LEVEL; log entry 14). `away` says that the
event names another module. -/
def eventLevel (away : Bool) (ev : FaultEv) : Nat :=
  match ev.code / 256 with
  | 1 => 1
  | 2 => if ev.code = 0x0205 ∧ 8 ≤ ev.site then 3 else 2
  | 3 => if away then 5 else 3
  | 4 =>
    if ev.code = 0x0401 then (if 0x400 ≤ ev.arg ∧ ev.arg < 0x500 then 2 else 3)
    else if ev.code = 0x0402 then 3
    else if ev.code = 0x0403 then (if ev.unit ≤ 2 then 2 else if ev.unit = 3 then 3 else 4)
    else if ev.code = 0x0404 then 2
    else 4
  | 5 => 5
  | 6 => if ev.site = 0xFF then 4 else 3
  | _ => 4

/-- Count an event of a code for a site and unit (Table 15-11 COUNT). -/
def bumpCount (k : Nat × Nat × Nat) : List ((Nat × Nat × Nat) × Nat) → List ((Nat × Nat × Nat) × Nat)
  | [] => [(k, 1)]
  | (k', n) :: t => if k' = k then (k', n + 1) :: t else (k', n) :: bumpCount k t

/-- How often an event has been counted. -/
def eventCount (k : Nat × Nat × Nat) : List ((Nat × Nat × Nat) × Nat) → Nat
  | [] => 0
  | (k', n) :: t => if k' = k then n else eventCount k t

/-- Where a new event goes (R499): held before READY and while ENABLE is 0, up to 1024; behind replayed and held
entries while any waits; to the ring when it has room; otherwise lost. -/
def FaultGroup.accept (f : FaultGroup) (ready : Bool) (ev : FaultEv) : FaultGroup :=
  if !ready || !f.enable then
    if f.held.length < 1024 then { f with held := f.held ++ [ev] }
    else { f with lost := min (f.lost + 1) 0xFFFFFFFF }
  else if f.replay ≠ [] ∨ f.held ≠ [] then { f with held := f.held ++ [ev] }
  else if (f.tail - f.head).toNat + f.arriving.length < 2 ^ f.log2S then { f with arriving := f.arriving ++ [ev] }
  else { f with lost := min (f.lost + 1) 0xFFFFFFFF }

/-- An event is counted, numbered, stamped with Tide, queued for the error log (R483) and for the ring (R499). -/
def FaultGroup.raise (f : FaultGroup) (ready : Bool) (tide : Nat) (ev : FaultEv) : FaultGroup :=
  let k := (ev.code, ev.site, ev.unit)
  let counts := bumpCount k f.counts
  let e : FaultEv := { ev with seq := f.seq % 2 ^ 32, tide := tide, count := eventCount k counts }
  { f.accept ready e with
    seq := f.seq + 1
    counts := counts
    unlogged := f.unlogged ++ [e]
    lastTide := if ev.site < 49 then tabSet 0 f.lastTide ev.site tide else f.lastTide }

/-- Raise a fault event about a module at position `ev.pos`. -/
def raiseAt (s : State) (ev : FaultEv) : State :=
  let e : FaultEv := { ev with level := eventLevel (decide (ev.pos ≠ s.harbour.pos)) ev }
  { s with faults := s.faults.raise s.rst.ready (now s) e }

/-- Raise a fault event about the own module. -/
def raise (s : State) (ev : FaultEv) : State := raiseAt s { ev with pos := s.harbour.pos }

/-- Raise several fault events in order. -/
def raiseAll (s : State) (evs : List FaultEv) : State := evs.foldl raise s

/-- The PART field of an event about a berth. -/
def partField (s : State) (b : Nat) : Nat := (berthPart s b).getD 0xF

end Sys2Proof.Machine
end

