-- ==== Sys2Proof/Machine/Operands.lean ====
section
/-! DEFINITION. Operand forms: the command header and sync continuation (Tables 06-2 and 06-4), the parameter area
(R207), byte offsets of fields (R530), the control word (Table 07-2), tensor descriptors (Table 07-1), the opcodes and
the bits each of them assigns (Tables 06-11, 07-3 to 07-15), and the reach of a partition (R435). -/

namespace Sys2Proof.Machine

/-! ## Header (Table 06-2) and sync continuation (Table 06-4) -/

def hOpcode (p : Nat) : Nat := fld p 0 16
def hDep0 (p : Nat) : Bool := bitAt p 16
def hDep1 (p : Nat) : Bool := bitAt p 17
def hTstart (p : Nat) : Bool := bitAt p 18
def hPri (p : Nat) : Bool := bitAt p 19
def hBound (p : Nat) : Bool := bitAt p 20
def hDoneInc (p : Nat) : Bool := bitAt p 21
def hIrq (p : Nat) : Bool := bitAt p 22
def hSeq (p : Nat) : Nat := fld p 32 32
def hContext (p : Nat) : Nat := fld p 64 6
def hNcont (p : Nat) : Nat := fld p 70 2
def hTimeout (p : Nat) : Nat := fld p 72 4
def hTreq (p : Nat) : Nat := fld p 76 8
def hDoneCnt (p : Nat) : Nat := fld p 84 12
def hDep0Idx (p : Nat) : Nat := fld p 96 12
def hDep1Idx (p : Nat) : Nat := fld p 108 12

/-- A sync continuation is present (R181). -/
def hasSync (p : Nat) : Bool := hDep0 p || hDep1 p || hTstart p

/-- The sync continuation: the first continuation packet (R181). -/
def syncOf (p : Nat) : Nat := fld p 512 512
def hDep0Value (p : Nat) : Nat := fld p 512 64
def hDep1Value (p : Nat) : Nat := fld p 576 64
def hTstartNs (p : Nat) : Nat := fld p 640 64

/-- The parameter area: bytes 16 to 63 of the header packet, then the opcode's own continuations (R207). -/
def paramsOf (p : Nat) : Nat :=
  fld p 128 384 + (fld p (if hasSync p then 1024 else 512) 1024) <<< 384

/-- The byte offset of parameter byte `b`, with or without a sync continuation (R530). -/
def paramOffset (sync : Bool) (b : Nat) : Nat :=
  if b < 48 then 16 + b
  else if b < 112 then 64 * (1 + bit sync) + b - 48
  else 64 * (2 + bit sync) + b - 112

/-- The timeout of a code in ns (Table 06-3). -/
def timeoutNs (n : Nat) : Nat := if n = 15 then 60000000000 else 10000 * 2 ^ n

/-! ## Control word (Table 07-2) -/

def cOpt1 (q : Nat) : Nat := fld q 96 32
def cOpt0 (q : Nat) : Nat := fld q 64 32
def cRegions (q : Nat) : Nat := fld q 48 16
def cEngset (q : Nat) : Nat := fld q 32 16
def cProp (q : Nat) : Bool := bitAt q 27
def cSat (q : Nat) : Bool := bitAt q 26
def cRnd (q : Nat) : Rnd := .ofCode (fld q 24 2)
def cNlog (q : Nat) : Nat := fld q 20 4
def cClass (q : Nat) : Nat := fld q 16 4

/-- The regions that digital work uses: REGIONS, or all 16 (Table 07-2). -/
def regionsUsed (q : Nat) : List Nat := if cRegions q = 0 then List.range 16 else setBits 16 (cRegions q)

/-! ## Tensor descriptors (Table 07-1) -/

/-- A tensor descriptor. -/
structure TD where
  addr : Nat
  fmt  : Nat
  side : Nat
  rows : Nat
  cols : Nat
  stride : Nat
  deriving DecidableEq, Repr, Inhabited

/-- The descriptor at bit `lo` of the parameter area. -/
def tdAt (q lo : Nat) : TD :=
  { addr := fld q lo 47, fmt := fld q (lo + 48) 8, side := fld q (lo + 64) 47,
    rows := fld q (lo + 128) 32, cols := fld q (lo + 160) 32, stride := fld q (lo + 192) 48 }

/-- The format of a descriptor; an undefined code reads as FP32, after check 4 has refused it (R38). -/
def TD.format (t : TD) : Fmt := (Fmt.ofCode t.fmt).getD .fp32

/-- Blocks of one row (R209). -/
def TD.blocks (t : TD) : Nat := ceilDiv t.cols 32

/-- Bytes of one dense row of the element region (R209). -/
def TD.rowBytes (t : TD) : Nat :=
  if t.format.isBlock then t.blocks * t.format.blockBytes else ceilDiv (t.cols * t.format.bits) 8

/-- Bytes from one row to the next (R208). -/
def TD.pitch (t : TD) : Nat := if t.stride = 0 then t.rowBytes else t.stride

/-- Bytes from the first to the last byte of the element region (R209). -/
def TD.extent (t : TD) : Nat := (t.rows - 1) * t.pitch + t.rowBytes

/-- Bytes of the side region (R47). -/
def TD.sideExtent (t : TD) : Nat := t.rows * t.blocks * t.format.sideBytes

/-- Element bytes of a scalar element, at least 1 (R209). -/
def TD.elemBytes (t : TD) : Nat := max 1 (t.format.bits / 8)

/-- The used bits of a descriptor outside graphs (Table 07-1). -/
def tdBits (lo : Nat) : List (Nat × Nat) :=
  [(lo, 47), (lo + 48, 8), (lo + 64, 47), (lo + 128, 32), (lo + 160, 32), (lo + 192, 48)]

/-! ## Opcodes (Tables 06-11, 07-3, 07-5, 07-14, 07-15) -/

/-- Continuation packets of an opcode's own (Table 07-3). -/
def ownConts (op : Nat) : Nat :=
  if op = 0x0100 then 1
  else if op / 256 = 3 ∨ op / 256 = 4 then 1
  else if op = 0x0510 then 2
  else if op / 256 = 5 ∨ op / 256 = 6 then 1
  else 0

/-- The opcodes of this edition (Tables 06-11, 07-3, 07-15; R182, R245). -/
def definedOpcodes : List Nat :=
  [0x0001, 0x0002, 0x0003, 0x0004, 0x0010, 0x0011, 0x0020, 0x0030, 0x0031, 0x0100, 0x0101,
   0x0200, 0x0201, 0x0202, 0x0203, 0x0210, 0x0211, 0x0220, 0x0300, 0x0400,
   0x0500, 0x0501, 0x0502, 0x0503, 0x0504, 0x0505, 0x0510, 0x0600, 0x0601, 0x0602, 0x0603,
   0x0700, 0x0701, 0x0702, 0x0E00, 0x0E01,
   0x0F00, 0x0F01, 0x0F02, 0x0F03, 0x0F04, 0x0F05, 0x0F10]

/-- The opcodes that only a mailbox accepts (R216). -/
def mailboxOnly (op : Nat) : Bool := op == 0x0001 || op == 0x0002 || op == 0x0003 || op == 0x0020

/-- The ranges a mailbox accepts (R500). -/
def mailboxRange (op : Nat) : Bool := op / 256 == 0x00 || op / 256 == 0x0E || op / 256 == 0x0F

/-- The opcode writes reply data, or a result word, to DEST at parameter bytes 40 to 47 (R216, R244, R500). -/
def hasDest (op : Nat) : Bool :=
  op == 0x0001 || op == 0x0002 || op == 0x0003 || op == 0x0004 || op == 0x0010 || op == 0x0011 || op == 0x0020 ||
  op == 0x0E00 || op == 0x0E01

/-- The opcode is executed by Blunen: management, test and calibration, privileged (Table 06-5). -/
def isBlunen (op : Nat) : Bool := mailboxRange op

/-- The opcode uses optical engines (Table 07-3); ATTENTION when OPT0[1] is set. -/
def isOptical (op params : Nat) : Bool := op == 0x0400 || (op == 0x0510 && bitAt (cOpt0 params) 1)

/-- The opcode is a collective (Table 06-5). -/
def isCollective (op : Nat) : Bool := op / 256 == 6

/-- The opcode holds a Tug (R212). -/
def isTug (op : Nat) : Bool := op / 256 == 1

/-- The bit position of each tensor descriptor of an opcode, in parameter order; EWISE with SCALE has no b
(Table 07-7). -/
def tensorsOf (op params : Nat) : List Nat :=
  if op = 0x0300 ∨ op = 0x0400 then [128, 384, 640]
  else if op = 0x0502 then (if fld (cOpt0 params) 0 2 = 3 then [128, 640] else [128, 384, 640])
  else if op = 0x0510 then [128, 384, 640, 896]
  else if op / 256 = 5 ∨ op / 256 = 6 then [128, 384]
  else []

/-- The bits of the parameter area an opcode assigns, as (lowest bit, length); every other bit of its packets is
reserved (R207, R210). -/
def assignedBits (op params : Nat) : List (Nat × Nat) :=
  let opt0 := cOpt0 params
  let dest := if hasDest op then [(320, 64)] else []
  let tds := (tensorsOf op params).flatMap tdBits
  let regions := (48, 16)
  let rnd := (24, 2)
  let sat := (26, 1)
  let prop := (27, 1)
  let group := [(640, 2), (656, 8), (672, 25), (704, 32)]
  match op with
  | 0x0001 => [(0, 6), (8, 8), (16, 3), (32, 11), (64, 64), (128, 64), (192, 64)] ++ dest
  | 0x0002 => [(0, 8)] ++ dest
  | 0x0003 => [(0, 8)] ++ dest
  | 0x0004 => [(0, 8)] ++ dest
  | 0x0010 => dest
  | 0x0011 => [(0, 8)] ++ dest
  | 0x0020 => [(0, 8), (8, 8)] ++ dest
  | 0x0030 => [(0, 16), (16, 8)]
  | 0x0031 => [(0, 64)]
  | 0x0100 => [(0, 47), (64, 47), (128, 32), (160, 16), (176, 16), (192, 48), (240, 48), (288, 48), (336, 48),
               (384, 47), (431, 1), (432, 4)]
  | 0x0101 => [(0, 47), (64, 32), (128, 64), (192, 47), (239, 1), (240, 4)]
  | 0x0200 => [(0, 16), (64, 64)]
  | 0x0201 => [(0, 64), (64, 64)]
  | 0x0202 => [(0, 16), (64, 64)]
  | 0x0203 => [(0, 16), (64, 64)]
  | 0x0210 => [(0, 64)]
  | 0x0211 => [(0, 64)]
  | 0x0300 => [regions, rnd, sat, prop, (64, 1), (96, 32)] ++ tds
  | 0x0400 => [(32, 16), (16, 4), (20, 4), (64, 13)] ++ tds
  | 0x0500 => [regions, rnd, sat] ++ tds
  | 0x0501 => [regions, rnd, sat] ++ tds
  | 0x0502 => [regions, rnd, sat, (64, 2), (96, 32)] ++ tds
  | 0x0503 => [regions, rnd, sat, (64, 8)] ++ tds
  | 0x0504 => [regions, rnd, sat, prop, (64, 2)] ++ tds
  | 0x0505 => [regions, rnd, sat] ++ tds
  | 0x0510 =>
    (if bitAt opt0 1 then [(32, 16), (16, 4), (20, 4)] else [regions]) ++ [rnd, sat, prop, (64, 2), (96, 32)] ++ tds
  | 0x0600 => [regions, rnd, sat, prop, (64, 2)] ++ tds ++ group
  | 0x0601 => [regions] ++ tds ++ group
  | 0x0602 => [regions, rnd, sat, prop, (64, 2)] ++ tds ++ group
  | 0x0603 => [regions] ++ tds ++ group ++ [(736, 16)]
  | 0x0700 => [(0, 48), (64, 8)]
  | 0x0701 => [(0, 8), (16, 48), (64, 16), (80, 48)]
  | 0x0702 => [(0, 8)]
  | 0x0E00 => [(0, 8), (8, 16), (24, 8)] ++ dest
  | 0x0E01 => [(0, 8), (8, 16), (24, 8)] ++ dest
  | 0x0F00 => [(0, 8), (8, 8), (64, 64)]
  | 0x0F01 => [(0, 32)]
  | 0x0F02 => [(0, 32)]
  | 0x0F03 => [(0, 8), (8, 8), (16, 8)]
  | 0x0F04 => [(0, 64)]
  | 0x0F05 => [(0, 32)]
  | _ => []

/-- The bits of a number that lie in the given ranges. -/
def maskOf (l : List (Nat × Nat)) : Nat := l.foldl (fun a r => a ||| ((2 ^ r.2 - 1) <<< r.1)) 0

/-- `x` with the bits of a mask cleared. -/
def clearBits (x mask : Nat) : Nat := x - (x &&& mask)

/-- The lowest byte of `x` that is not zero, among `n` bytes. -/
def lowByte (x n : Nat) : Option Nat := (List.range n).find? (fun i => fld x (8 * i) 8 != 0)

/-- The least of some byte offsets. -/
def leastOf (l : List Nat) : Option Nat := l.foldl (fun a x => match a with
  | some y => some (min x y)
  | none => some x) none

/-- The fields among (failing?, byte offset) that fail, by the least offset (R530). -/
def firstBad (l : List (Bool × Nat)) : Option Nat := leastOf ((l.filter (·.1)).map (·.2))

/-- The reserved bits of the header (Table 06-2) and of the sync continuation, where a field that is not in force
counts as reserved (Table 06-4). -/
def headerReserved (p : Nat) : Nat := clearBits (fld p 0 128) (maskOf [(0, 23), (32, 88)])
def syncReserved (p : Nat) : Nat :=
  clearBits (syncOf p) (maskOf ((if hDep0 p then [(0, 64)] else []) ++ (if hDep1 p then [(64, 64)] else []) ++
    (if hTstart p then [(128, 64)] else [])))

/-- Check 2: the offset of the first reserved byte that is not zero (R11, R530). -/
def reservedBad (op p : Nat) : Option Nat :=
  let sync := hasSync p
  let q := paramsOf p
  let used := 384 + 512 * ownConts op
  let res := clearBits (q % 2 ^ used) (maskOf (assignedBits op q))
  leastOf ((lowByte (headerReserved p) 16).toList ++
    (if sync then ((lowByte (syncReserved p) 64).map (· + 64)).toList else []) ++
    ((lowByte res (used / 8)).map (paramOffset sync)).toList)

/-! ## Reach (R435) -/

/-- The operations of Table 10-6, as reach judges them. -/
inductive AccessKind where
  | load | store | atomic
  deriving DecidableEq, Repr

/-- The last byte of the own-reach range of partition `p` that holds a module-local address (R435). -/
def ownReachEnd (part : Nat) (cfg : ConfigImage) (p loc : Nat) : Option Nat :=
  match placeOf part loc with
  | .dram b => if partOf cfg b = some p then some ((b + 1) * spanBytes - 1) else none
  | .tile b t off =>
    if partOf cfg b = some p ∧ off < 0x100000 then some (tileWindow b t + 0xFFFFF) else none
  | .counter b _ => if partOf cfg b = some p then some (counterAddr (b + 1) 0 - 1) else none
  | _ => none

/-- The last byte of the widest range of partition `p` that holds an address for an operation (R435). -/
def reachEnd (part : Nat) (cfg : ConfigImage) (p ownPos : Nat) (k : AccessKind) (a : Nat) : Option Nat :=
  let loc := addrLocal a
  let pos := addrPos a
  let own := if pos = ownPos then ownReachEnd part cfg p loc else none
  let hits := ((cfg.parts.getD p {}).reach.filter (fun r =>
    r.pos == pos && decide (r.base ≤ loc) && decide (loc ≤ r.limit) &&
    (match k with
     | .load => r.loads
     | .store => r.stores
     | .atomic => r.atomics))).map (·.limit)
  (own.toList ++ hits).foldl (fun m e => match m with
    | some x => some (max x e)
    | none => some e) none

/-- Every byte of [a, hi] of one module lies in ranges that the partition reaches; `n` bounds the ranges walked. -/
def reachWalk (part : Nat) (cfg : ConfigImage) (p ownPos : Nat) (k : AccessKind) : Nat → Nat → Nat → Bool
  | 0, _, _ => false
  | n + 1, a, hi =>
    match reachEnd part cfg p ownPos k a with
    | none => false
    | some e =>
      let last := globalAddr (addrPos a) e
      if hi ≤ last then true else reachWalk part cfg p ownPos k n (last + 1) hi

/-- The mirror offsets a partition's contexts may use: the doorbells of its own contexts, loads of the registers that
Table 16-2 opens (R315, R492). -/
def mirrorAllowed (cfg : ConfigImage) (p : Nat) (k : AccessKind) (off : Nat) : Bool :=
  if 0x10000 ≤ off ∧ off < 0x18000 then
    decide (off % 0x1000 < 64) && decide (partOf cfg (off / 0x1000 - 0x10) = some p) && decide (k ≠ .atomic)
  else decide (k = .load) && (decide (off < 0x10) || (decide (0x30 ≤ off) && decide (off < 0x38)))

/-- A range of `len` bytes lies within the partition's reach for an operation (R435, check 5). Of the mirror no run longer
than the 64 bytes of a berth's doorbells is ever open (R315, Table 16-2). -/
def reachOk (s : State) (p : Nat) (k : AccessKind) (a len : Nat) : Bool :=
  if len = 0 then true
  else match placeOf s.ident.part (addrLocal a), decide (addrPos a = ownPos s) with
    | .mirror off, true => decide (len ≤ 64) && (List.range len).all (fun i => mirrorAllowed s.sec.breakwater p k (off + i))
    | _, _ => reachWalk s.ident.part s.sec.breakwater p (ownPos s) k 64 a (a + len - 1)

/-! ## Ranges of the map (R209, R313, R314, R326, R531) -/

/-- The variant on whose map an address is judged: the own one, a member's, or GL8 for a member whose PART is not
learned (R531). -/
def mapPart (s : State) (a : Nat) : Nat :=
  if addrPos a = ownPos s then s.ident.part
  else
    let p := (getMember s (addrPos a)).part
    if p = 0 then 8 else p

/-- The position of an address is one the harbour holds (R313). -/
def posOk (s : State) (a : Nat) : Bool := decide (addrPos a < 25) && s.harbour.members.getLsbD (addrPos a)

/-- A range of `len` bytes lies wholly in DRAM or wholly in tile windows (R209). -/
def inMemory (s : State) (a len : Nat) : Bool :=
  let part := mapPart s a
  let loc := addrLocal a
  let last := loc + len - 1
  posOk s a &&
  (decide (last < part * spanBytes) ||
   (decide (tileBase ≤ loc) && decide (last < tileBase + part * 0x12000000)))

/-- Table 10-8: the range at an address admits an access of `size` bytes there. -/
def admits (s : State) (k : AccessKind) (a size : Nat) : Bool :=
  posOk s a &&
  (match placeOf (mapPart s a) (addrLocal a) with
   | .dram _ => inMemory s a size
   | .tile _ _ _ => inMemory s a size
   | .counter _ _ => decide (size = 8) && decide (a % 8 = 0)
   | .mirror _ => decide (k ≠ .atomic) && (decide (size = 4) || decide (size = 8)) && decide (a % size = 0)
   | _ => false)

/-- A run of bytes that a Tug reads or writes: memory, or whole counters, or aligned words of the mirror
(Table 10-8). -/
def admitsRun (s : State) (a len : Nat) : Bool :=
  posOk s a &&
  (match placeOf (mapPart s a) (addrLocal a) with
   | .dram _ => inMemory s a len
   | .tile _ _ _ => inMemory s a len
   | .counter _ _ =>
     decide (a % 8 = 0) && decide (len % 8 = 0) && decide (addrLocal a + len ≤ counterBase + mapPart s a * 0x8000)
   | .mirror _ => decide (a % 4 = 0) && decide (len % 4 = 0) && decide (addrLocal a + len ≤ 0x40000000000)
   | _ => false)

/-! ## Rules of a descriptor (R38, R39, R46, R47, R209) -/

/-- The variant of the module at a position (R531). -/
def partAt (s : State) (pos : Nat) : Nat := mapPart s (globalAddr pos 0)

/-- The failing fields of a descriptor at bit `lo`: (fails?, parameter byte). `at_` is the position it must lie on, if any,
`role` is the role of Table 02-2 the format must have. -/
def tdBad (s : State) (at_ : Option Nat) (role : Fmt → Bool) (q lo : Nat) : List (Bool × Nat) :=
  let t := tdAt q lo
  let b := lo / 8
  let fmtOk := match Fmt.ofCode t.fmt with
    | some f => role f
    | none => false
  let block := t.format.isBlock
  let addrAlign := if block then t.addr % t.format.blockBytes == 0 else t.addr % t.elemBytes == 0
  let sideAlign := if block then t.side % t.format.sideBytes == 0 else t.side == 0
  let away (x : Nat) : Bool := match at_ with
    | some p => addrPos x != p
    | none => false
  let strideOk := if block then t.stride == 0
    else t.stride == 0 || (decide (t.rowBytes ≤ t.stride) && t.stride % t.elemBytes == 0)
  [ (!fmtOk, b + 6),
    (fmtOk && (!addrAlign || !inMemory s t.addr t.extent || away t.addr), b),
    (fmtOk && (!sideAlign ||
      (block && (!inMemory s t.side t.sideExtent || away t.side))), b + 8),
    (t.rows == 0 || decide (2 ^ 31 < t.rows), b + 16),
    (t.cols == 0 || decide (2 ^ 31 < t.cols), b + 20),
    (fmtOk && !strideOk, b + 24) ]

/-- The failing reach of a descriptor for the operations the command performs on it (R209, R211, R435). -/
def tdReach (s : State) (p : Nat) (ks : List AccessKind) (q lo : Nat) : List (Bool × Nat) :=
  let t := tdAt q lo
  let b := lo / 8
  [ (!ks.all (fun k => reachOk s p k t.addr t.extent), b),
    (t.format.isBlock && !ks.all (fun k => reachOk s p k t.side t.sideExtent), b + 8) ]

/-- Two address ranges overlap. -/
def overlap (a la b lb : Nat) : Bool := decide (a < b + lb) && decide (b < a + la)

/-- The regions of two descriptors overlap (R51). A strided tensor's region is its whole span from its first byte to its
last, the gaps between its rows included; the manual does not say whether the gaps belong to it (DESIGN CHOICE, log entry
50). -/
def tdOverlap (x y : TD) : Bool :=
  let rx := [(x.addr, x.extent)] ++ (if x.format.isBlock then [(x.side, x.sideExtent)] else [])
  let ry := [(y.addr, y.extent)] ++ (if y.format.isBlock then [(y.side, y.sideExtent)] else [])
  rx.any (fun a => ry.any (fun b => overlap a.1 a.2 b.1 b.2))

/-- In-place work that R51 allows: each region of the destination starts where its source region starts, and the destination
element is no wider. The side region of a block destination has no source region in a scalar source, and lies clear of
it. -/
def inPlace (x y : TD) : Bool :=
  x.addr == y.addr &&
  (match x.format.isBlock, y.format.isBlock with
   | true, true => x.side == y.side
   | false, true => !overlap x.addr x.extent y.side y.sideExtent
   | _, _ => true) &&
  decide (y.format.bits ≤ x.format.bits)

/-- The destination overlaps a source in a way R51 forbids. -/
def badOverlap (x y : TD) : Bool := tdOverlap x y && !inPlace x y

end Sys2Proof.Machine
end

