-- ==== Sys2Proof/Machine/Checks.lean ====
section
/-! DEFINITION. The checks of Table 06-6 (R183, R530), for commands from rings and for mailbox requests (R216, R500),
with the parameter rules of every opcode (spec/07_operator_reference.md, Tables 06-11, 13-4, 14-11). -/

namespace Sys2Proof.Machine

/-! ## Revisions (R6, R7, R432) -/

/-- Lowest compute die revision fitted; a berth not listed has the newest revision (R6). -/
def berthRevMin (s : State) : Nat :=
  (List.range s.ident.part).foldl (fun m b => min m (tabGet 0x21 s.ident.berthRev b)) 0x21

/-- Highest compute die revision fitted. -/
def berthRevMax (s : State) : Nat :=
  (List.range s.ident.part).foldl (fun m b => max m (tabGet 0x21 s.ident.berthRev b)) 0x20

/-- Lowest and highest stack revision fitted (R6). -/
def stackRevMin (s : State) : Nat :=
  (List.range (4 * s.ident.part)).foldl (fun m n => min m (tabGet 0x11 s.ident.stackRev n)) 0x11
def stackRevMax (s : State) : Nat :=
  (List.range (4 * s.ident.part)).foldl (fun m n => max m (tabGet 0x11 s.ident.stackRev n)) 0x10

/-- Integration classes the module provides (R7, R87). -/
def classCount (s : State) : Nat := if 0x21 ≤ berthRevMin s then 5 else 4

/-- NLOG in force: 0 selects 6 (R95). -/
def nlogOf (q : Nat) : Nat := if cNlog q = 0 then 6 else cNlog q

/-! ## Power domains (Table 13-3) -/

/-- What a domain number names. -/
inductive DomKind where
  | alwaysOn
  | hm (i : Nat)
  | fabric
  | pcie
  | quay (q : Nat)
  | stack (n : Nat)
  | region (b e : Nat)
  | engine (b e : Nat)
  | lighthouse
  | reserved
  deriving DecidableEq, Repr

/-- The domain of a number (Table 13-3). -/
def domKind (d : Nat) : DomKind :=
  if d = 0 then .alwaysOn
  else if d < 3 then .hm (d - 1)
  else if d = 3 then .fabric
  else if d = 4 then .pcie
  else if d < 0x10 then .reserved
  else if d < 0x18 then .quay (d - 0x10)
  else if d < 0x20 then .reserved
  else if d < 0x40 then .stack (d - 0x20)
  else if d < 0x100 then .reserved
  else if d < 0x180 then .region ((d - 0x100) / 16) ((d - 0x100) % 16)
  else if d < 0x200 then .reserved
  else if d < 0x280 then .engine ((d - 0x200) / 16) ((d - 0x200) % 16)
  else if d < 0x400 then .reserved
  else if d < 0x590 then .lighthouse
  else .reserved

/-- The numbers by which the model names the blocks of Table 12-2 that are no power domains: the recovered clock of a link, the
management bus, and the generator of PCLK (log entry 16). -/
def linkBlock (k : Nat) : Nat := 0x600 + k
def isLinkBlock (d : Nat) : Bool := decide (0x600 ≤ d) && decide (d < 0x618)
def busBlock : Nat := 0x620
def pclkBlock : Nat := 0x630

def regionDom (b e : Nat) : Nat := 0x100 + 16 * b + e
def engineDom (b e : Nat) : Nat := 0x200 + 16 * b + e
def stackDom (n : Nat) : Nat := 0x20 + n
def quayDom (q : Nat) : Nat := 0x10 + q

/-- The state code of DOMAIN_SET (Table 07-5). -/
def domStateOf (n : Nat) : DomState := if n = 0 then .on else if n = 1 then .retention else .off

/-- A stack holds an occupied retirement slot, or a channel under evacuation (R403). -/
def stackHolds (s : State) (n : Nat) : Bool :=
  s.pool.remap.any (fun e => match e.2 with
    | some slot => slot / 256 == n
    | none => false) ||
  (getStack s n).channels.any (fun c => c.2.evacuating)

/-- Every context of every partition with DRAM on the stack is CLOSED (Table 14-6). -/
def stackCtxsClosed (s : State) (n : Nat) : Bool :=
  (List.range (8 * s.ident.part)).all (fun c =>
    (!spread s && !decide (berthPart s (c / 8) = berthPart s (nearBerth n))) || decide ((getCtx s c).state = .closed))

/-- The state a domain reaches when every transition in progress and queued is done. -/
def Domain.target (d : Domain) : DomState :=
  match d.queue.getLast?, d.busy with
  | some q, _ => q.1
  | none, some b => b
  | none, none => d.state

/-- The quay would be the last one that is on, of a member of a harbour of two or more: every other one is off, or on its way
there (R384). -/
def lastQuay (s : State) (q : Nat) : Bool :=
  decide (2 ≤ (setBits 25 s.harbour.members.toNat).length) &&
  (List.range 8).all (fun k => k == q || decide ((getDomain s (quayDom k)).target = .off))

/-- The domain is one that DOMAIN_SET may name on this variant (Table 13-4). -/
def domainNamed (s : State) (d : Nat) : Bool :=
  match domKind d with
  | .region b _ => hasBerth s b
  | .engine b _ => hasBerth s b
  | .stack n => hasStack s n
  | .quay _ => true
  | .pcie => true
  | _ => false

/-- The domain has the state (Table 13-3). -/
def domainHasState (d st : Nat) : Bool := decide (st < 3) && (decide (st ≠ 2) || decide (domKind d ≠ .pcie))

/-- What keeps a domain from going off: R384, R403 and Table 14-6. -/
def domainKept (s : State) (d st : Nat) : Bool :=
  decide (st = 2) &&
  (match domKind d with
   | .stack n => stackHolds s n || !stackCtxsClosed s n
   | .quay q => lastQuay s q || decide ((getSite s (quaySite q)).role = 0xFE)
   | _ => false)

/-- A request of DOMAIN_SET is one of Table 13-4 and meets R384, R403 and Table 14-6. -/
def domainAllowed (s : State) (d st : Nat) : Bool := domainNamed s d && domainHasState d st && !domainKept s d st

/-! ## Who asks -/

/-- A command under check. -/
structure Asked where
  /-- the whole packet -/
  p    : Nat
  /-- the mailbox's function, none for a ring -/
  mbx  : Option Nat
  /-- the context of the ring, 0 for a mailbox -/
  ctx  : Nat := 0
  /-- the command count Q of the ring (R174) -/
  q    : Nat := 0
  /-- the function that owns the mailbox or the context's partition -/
  fn   : Nat := 0
  /-- the partitions whose reach judges the command's addresses (R435, R489) -/
  parts : List Nat := []
  /-- the position of the module that runs it, none for the own one (R242) -/
  pos  : Option Nat := none
  deriving DecidableEq, Repr, Inhabited

def Asked.op (a : Asked) : Nat := hOpcode a.p
def Asked.params (a : Asked) : Nat := paramsOf a.p
def Asked.off (a : Asked) (b : Nat) : Nat := paramOffset (hasSync a.p) b

/-- The partitions of a function (R489). -/
def fnParts (s : State) (fn : Nat) : List Nat :=
  (List.range 8).filter (fun p => (partRecord s p).valid && decide ((partRecord s p).function = fn))

/-- The number of virtual functions that SR-IOV enables, fixed by the active configuration: one for each valid record whose
FUNCTION is not 0 (R513, Table 17-3). -/
def vfCount (s : State) : Nat :=
  ((List.range 8).filter (fun p => (partRecord s p).valid && decide ((partRecord s p).function ≠ 0))).length

/-- The function is present: the physical function, or a virtual function that a valid record names, while NumVFs is the
number that the configuration fixes; with any other number every virtual function is disabled (R513). -/
def fnPresent (s : State) (fn : Nat) : Bool :=
  fn == 0 || (fnParts s fn != [] && s.io.numVFs == vfCount s)

/-- A mailbox request of a function. -/
def askedMailbox (s : State) (fn p : Nat) : Asked := { p := p, mbx := some fn, fn := fn, parts := fnParts s fn }

/-- A command of a ring. -/
def askedRing (s : State) (c q p : Nat) : Asked :=
  { p := p, mbx := none, ctx := c, q := q, fn := ctxFn s c, parts := (berthPart s (ctxBerth c)).toList }

/-- A range lies within reach for an operation (check 5). -/
def Asked.reach (a : Asked) (s : State) (k : AccessKind) (addr len : Nat) : Bool :=
  a.parts.any (fun p => reachOk s p k addr len)

/-- The function may name the partition-bound thing of partition `p` (R216). -/
def Asked.owns (a : Asked) (p : Option Nat) : Bool :=
  a.fn == 0 || (match p with
    | some x => a.parts.contains x
    | none => false)

/-- The partition a site belongs to (R216, R342): a stack under SPREAD belongs to every partition. -/
def sitePart (s : State) (k : Nat) : Option Nat :=
  match siteKind k with
  | .berth b => berthPart s b
  | .stack n => berthPart s (nearBerth n)
  | _ => none

/-- The function may name a site (R216). -/
def Asked.ownsSite (a : Asked) (s : State) (k : Nat) (changes : Bool) : Bool :=
  a.fn == 0 || (match siteKind k with
    | .stack _ => if spread s then !changes else a.owns (sitePart s k)
    | _ => a.owns (sitePart s k))

/-! ## Check 1 -/

/-- The opcode is defined and accepted by the route (R182, R214, R216, R245, R500). -/
def opcodeOk (a : Asked) : Bool :=
  definedOpcodes.contains a.op && (match a.mbx with
    | some _ => mailboxRange a.op
    | none => !mailboxOnly a.op)

/-! ## Check 3 -/

/-- The failing header fields (R181, R183, R216). -/
def headerBad (a : Asked) : List (Bool × Nat) :=
  match a.mbx with
  | some _ => [(hasSync a.p, 2), (hSeq a.p != 0, 4), (hContext a.p != 0, 8), (hNcont a.p != 0, 8),
               (hasDest a.op && fld a.params 320 64 != 0, a.off 40)]
  | none => [(hSeq a.p != a.q % 2 ^ 32, 4), (hContext a.p != a.ctx, 8),
             (hNcont a.p != ownConts a.op + bit (hasSync a.p), 8)]

/-! ## Check 4: parameter values -/

/-- Roles of Table 02-2. -/
def digitalOperand (f : Fmt) : Bool := decide (f ≠ .int32)
def opticalOperand (f : Fmt) : Bool :=
  decide (f = .e4m3) || decide (f = .mxE4M3) || decide (f = .int8) || decide (f = .tbf8)
def opticalResult (f : Fmt) : Bool := decide (f = .tbf16)
def vectorFormat (_ : Fmt) : Bool := true

/-- Both operands are INT8 or INT4, so the array accumulates in INT32 (R221). -/
def intOperands (w x : Fmt) : Bool :=
  (decide (w = .int8) || decide (w = .int4)) && (decide (x = .int8) || decide (x = .int4))

/-- The control word: CLASS and NLOG (R7, R87, R95, Table 07-2), ENGSET. -/
def opticalBad (s : State) (a : Asked) : List (Bool × Nat) :=
  let q := a.params
  [ (cEngset q == 0, 4),
    (decide (classCount s ≤ cClass q) || (hBound a.p && cClass q != 0), 2),
    (cNlog q == 1 || cNlog q == 2 || decide (12 < cNlog q) || (cNlog q == 3 && decide (berthRevMin s < 0x21)), 2) ]

/-- The engines of a berth's set that are in service (R224). -/
def engInService (s : State) (b e : Nat) : Bool := decide ((getEngine s b e).rotation ≠ .left)

/-- The engines counted in E: those of the set in service at fetch, or the whole set when none is (R226). -/
def enginesCounted (s : State) (b engset : Nat) : List Nat :=
  let all := setBits 16 engset
  let live := all.filter (engInService s b)
  if live = [] then all else live

/-- Row blocks of one engine: r_e of R225. -/
def rowBlocks (r e : Nat) : Nat := ceilDiv (ceilDiv r 128) (max e 1)

/-- The working set of a region (R226). -/
def workingSet (v re : Nat) : Nat := v * (776 * re + 640)

/-- Scratch of a region (R211). -/
def scratchBytes : Nat := 9437184

/-- The vectors per pass V, none when even the smallest does not fit (R226). -/
def batchOf (batch vRows re : Nat) : Option Nat :=
  if batch ≠ 0 then (if workingSet batch re ≤ scratchBytes then some batch else none)
  else ((List.range 13).reverse.map (fun k => 2 ^ k)).find? (fun v =>
    decide (v ≤ vRows) && decide (workingSet v re ≤ scratchBytes))

/-- The shapes of X and Y against W (R220, R530). -/
def matShapes (w x y : TD) (xb yb : Nat) : List (Bool × Nat) :=
  [(x.cols != w.cols, xb + 20), (y.rows != x.rows, yb + 16), (y.cols != w.rows, yb + 20)]

/-- The runs of a TUG_COPY as (source, destination) offsets (R217). -/
def copyRuns (q : Nat) : List (Nat × Nat) :=
  let n1 := fld q 160 16 + 1
  let n2 := fld q 176 16 + 1
  (List.range n2).flatMap (fun k => (List.range n1).map (fun i =>
    (fld q 0 47 + i * fld q 192 48 + k * fld q 240 48, fld q 64 47 + i * fld q 288 48 + k * fld q 336 48)))

/-- Members of a collective as (position, berth), in member order (R232), for the module at position `pos` that runs it. -/
def collMembers (pos q : Nat) : List (Nat × Nat) :=
  let berths := setBits 8 (fld q 656 8)
  match fld q 640 2 with
  | 1 => berths.map (fun b => (pos, b))
  | 2 => (setBits 25 (fld q 672 25)).flatMap (fun m => berths.map (fun b => (m, b)))
  | _ => []

/-- Slices or members P of a collective (R232). -/
def collCount (pos q : Nat) : Nat :=
  if fld q 640 2 = 0 then (regionsUsed q).length else (collMembers pos q).length

/-- At berth scope, the slices that lie end to end from src.ADDR (R232). -/
def collSlices (q n : Nat) : List TD :=
  let t := tdAt q 128
  (List.range n).map (fun j => { t with addr := t.addr + j * (t.rows * t.pitch), side := t.side + j * t.sideExtent })

/-- The source and destination descriptors of an operator that R51 judges, with the parameter byte of the destination; `n` is
the number of slices of a collective at berth scope. -/
def overlapPairs (op q n : Nat) : List TD × TD × Nat :=
  let t1 := tdAt q 128
  let t2 := tdAt q 384
  let t3 := tdAt q 640
  if op = 0x0300 ∨ op = 0x0400 then ([t1, t2], t3, 80)
  else if op = 0x0502 then (if fld q 64 2 = 3 then ([t1], t3, 80) else ([t1, t2], t3, 80))
  else if op = 0x0510 then ([t1, t2, t3], tdAt q 896, 112)
  else if isCollective op && fld q 640 2 == 0 && decide (op < 0x0602) then (collSlices q n, t2, 48)
  else ([t1], t2, 48)

/-- A destination overlaps a source of its operator in a way R51 forbids. -/
def overlapBad (op q n : Nat) : List (Bool × Nat) :=
  let p := overlapPairs op q n
  [(p.1.any (fun x => badOverlap x p.2.1), p.2.2)]

/-- The parameter rules of each opcode: (fails?, parameter byte) (check 4). DEST of a mailbox request is a matter of check 3
(R216). Where the rules of a collective name no field, byte 54 stands for src and dst formats that differ in ALL_GATHER and
BROADCAST, which R233 does not speak of, and byte 82 for a BERTHS that leaves the submitting berth out (DESIGN CHOICE, log
entry 44). The submitting berth of a graph node that another module runs is not known here. -/
def paramBad (s : State) (a : Asked) : List (Bool × Nat) :=
  let q := a.params
  let op := a.op
  let td (role : Fmt → Bool) (lo : Nat) := tdBad s (some (a.pos.getD (ownPos s))) role q lo
  let ctxBad (c : Nat) : Bool := !hasCtx s c
  let destBad (len : Nat) : List (Bool × Nat) :=
    match a.mbx with
    | some _ => []
    | none => [(decide (2 ^ 47 ≤ fld q 320 64) || fld q 320 64 % len != 0 || !admitsRun s (fld q 320 64) len, 40)]
  let cntIdx : List (Bool × Nat) := [(decide (4095 < fld q 0 16), 0)]
  let dest8 (lo : Nat) : Bool :=
    decide (2 ^ 47 ≤ fld q lo 64) || fld q lo 64 % 8 != 0 || !admits s .store (fld q lo 64) 8
  let cntBad (lo : Nat) : Bool :=
    fld q lo 47 % 8 != 0 || !admits s .atomic (fld q lo 47) 8 ||
    (match placeOf (mapPart s (fld q lo 47)) (addrLocal (fld q lo 47)) with
     | .counter _ _ => false
     | _ => true)
  let sameShape (x y : TD) (yb : Nat) : List (Bool × Nat) := [(y.rows != x.rows, yb + 16), (y.cols != x.cols, yb + 20)]
  let t1 := tdAt q 128
  let t2 := tdAt q 384
  let t3 := tdAt q 640
  let t4 := tdAt q 896
  match op with
  | 0x0001 =>
    let c := fld q 0 6
    let size := 2 ^ fld q 8 8
    let vecs := if ctxFn s c = 0 then 128 else 16
    let baseBad (lo place width : Nat) : Bool :=
      fld q lo 64 % 4096 != 0 ||
      (!bitAt (fld q 16 3) place &&
        (decide (2 ^ 47 ≤ fld q lo 64) || addrPos (fld q lo 64) != ownPos s ||
         (match placeOf s.ident.part (addrLocal (fld q lo 64)) with
          | .dram _ => !inMemory s (fld q lo 64) (size * width)
          | _ => true)))
    [ (ctxBad c || decide ((getCtx s c).state ≠ .closed), 0),
      (decide (fld q 8 8 < 4) || decide (16 < fld q 8 8), 1),
      (decide (vecs ≤ fld q 32 11), 4),
      (baseBad 64 0 64, 8), (baseBad 128 1 32, 16), (baseBad 192 2 32, 24) ] ++ destBad 64
  | 0x0002 => [(ctxBad (fld q 0 8) || decide ((getCtx s (fld q 0 8)).state ≠ .opened), 0)] ++ destBad 64
  | 0x0003 => [(ctxBad (fld q 0 8) || decide ((getCtx s (fld q 0 8)).state = .closed), 0)] ++ destBad 64
  | 0x0004 => [(ctxBad (fld q 0 8), 0)] ++ destBad 64
  | 0x0010 => destBad 64
  | 0x0011 =>
    let site := fld q 0 6
    let page := fld q 6 2
    let pageBad := match siteKind site with
      | .berth _ => false
      | .stack _ => false
      | _ => decide (1 < page)
    [(!hasSite s site || pageBad, 0)] ++ destBad 64
  | 0x0020 =>
    let site := fld q 0 8
    let kindBad := match siteKind site with
      | .berth _ => false
      | .stack _ => false
      | _ => true
    [(!hasSite s site || kindBad, 0), (decide (0xF0 ≤ fld q 8 8), 1)] ++ destBad 64
  | 0x0030 =>
    [ (!domainNamed s (fld q 0 16) || domainKept s (fld q 0 16) (fld q 16 8), 0),
      (!domainHasState (fld q 0 16) (fld q 16 8), 2) ]
  | 0x0100 =>
    let len := fld q 128 32
    let n1 := fld q 160 16
    let n2 := fld q 176 16
    let runs := copyRuns q
    let ds1 := fld q 288 48
    let ds2 := fld q 336 48
    let srcSpan := n1 * fld q 192 48 + n2 * fld q 240 48 + len
    let dstSpan := n1 * ds1 + n2 * ds2 + len
    let total := len * (n1 + 1) * (n2 + 1)
    let sizeBad := len == 0 || decide (2 ^ 32 < total)
    [ (!sizeBad && !runs.all (fun r => admitsRun s r.1 len), 0),
      (!sizeBad && (!runs.all (fun r => admitsRun s r.2 len) ||
        overlap (fld q 0 47) srcSpan (fld q 64 47) dstSpan), 8),
      (sizeBad, 16),
      (decide (0 < n1) && decide (ds1 < len), 36),
      (decide (0 < n2) && decide (ds2 < (n1 + 1) * ds1), 42),
      (bitAt q 431 && cntBad 384, 48),
      (decide (10 < fld q 432 4), 54) ]
  | 0x0101 =>
    [ (!admitsRun s (fld q 0 47) (fld q 64 32 + 1), 0), (bitAt q 239 && cntBad 192, 24),
      (decide (10 < fld q 240 4), 30) ]
  | 0x0200 => cntIdx
  | 0x0201 => [(decide (2 ^ 47 ≤ fld q 0 64) || cntBad 0, 0)]
  | 0x0202 => cntIdx
  | 0x0203 => cntIdx ++ [(dest8 64, 8)]
  | 0x0211 => [(dest8 0, 0)]
  | 0x0300 =>
    let ints := intOperands t1.format t2.format
    td digitalOperand 128 ++ td digitalOperand 384 ++ td vectorFormat 640 ++ matShapes t1 t2 t3 48 80 ++
    [ (decide (t3.format = .int32) && !ints, 86),
      (decide (t3.format = .int32) && ints && cOpt1 q != 0 && cOpt1 q != 0x3F800000, 12) ] ++ overlapBad op q 0
  | 0x0400 =>
    opticalBad s a ++ td opticalOperand 128 ++ td opticalOperand 384 ++ td opticalResult 640 ++
    matShapes t1 t2 t3 48 80 ++
    [ (decide (4096 < fld q 64 13) ||
        decide (batchOf (fld q 64 13) t2.rows
          (rowBlocks t1.rows (enginesCounted s (ctxBerth a.ctx) (cEngset q)).length) = none), 8) ] ++ overlapBad op q 0
  | 0x0500 => td vectorFormat 128 ++ td vectorFormat 384 ++ sameShape t1 t2 48 ++ overlapBad op q 0
  | 0x0501 =>
    td vectorFormat 128 ++ td vectorFormat 384 ++
    [(t2.rows != t1.cols, 64), (t2.cols != t1.rows, 68)] ++ overlapBad op q 0
  | 0x0502 =>
    if fld q 64 2 = 3 then
      td vectorFormat 128 ++ td vectorFormat 640 ++ sameShape t1 t3 80 ++ overlapBad op q 0
    else
      td vectorFormat 128 ++ td vectorFormat 384 ++ td vectorFormat 640 ++ sameShape t1 t2 48 ++
      sameShape t1 t3 80 ++ overlapBad op q 0
  | 0x0503 =>
    td vectorFormat 128 ++ td vectorFormat 384 ++ sameShape t1 t2 48 ++
    [(decide (9 < fld q 64 8), 8)] ++ overlapBad op q 0
  | 0x0504 =>
    td vectorFormat 128 ++ td vectorFormat 384 ++
    [ (decide (fld q 64 2 = 3), 8), (t2.rows != t1.rows, 64), (t2.cols != 1, 68) ] ++ overlapBad op q 0
  | 0x0505 => td vectorFormat 128 ++ td vectorFormat 384 ++ sameShape t1 t2 48 ++ overlapBad op q 0
  | 0x0510 =>
    let optical := bitAt q 65
    let role := if optical then opticalOperand else digitalOperand
    (if optical then opticalBad s a else []) ++ td role 128 ++ td role 384 ++ td role 640 ++
    td (if optical then opticalResult else digitalOperand) 896 ++
    [ (decide (65536 < t1.rows), 32), (decide (256 < t1.cols), 36), (decide (16384 < t2.rows), 64),
      (t2.cols != t1.cols, 68), (t3.rows != t2.rows, 96), (decide (256 < t3.cols), 100),
      (t4.rows != t1.rows, 128), (t4.cols != t3.cols, 132) ] ++ overlapBad op q 0
  | 0x0700 =>
    [ (decide (2 ^ 47 ≤ fld q 0 48) || fld q 0 48 % 64 != 0 || addrPos (fld q 0 48) != ownPos s ||
        !inMemory s (fld q 0 48) 64, 0),
      (decide (15 < fld q 64 8), 8) ]
  | 0x0701 =>
    [ (decide (15 < fld q 0 8), 0),
      (decide (2 ^ 47 ≤ fld q 16 48) || fld q 16 48 % 16 != 0 || !inMemory s (fld q 16 48) 16, 2),
      (decide (2 ^ 47 ≤ fld q 80 48) || fld q 80 48 % 8 != 0 || !inMemory s (fld q 80 48) 512, 10) ]
  | 0x0702 => [(decide (15 < fld q 0 8), 0)]
  | 0x0E00 =>
    let test := fld q 24 8
    let units := if test = 3 then 16 else 144
    [ (!hasBerth s (fld q 0 8), 0), (decide (units ≤ fld q 8 16), 1), (test == 0 || decide (3 < test), 3) ] ++ destBad 8
  | 0x0E01 =>
    [ (!hasBerth s (fld q 0 8), 0), (decide (16 ≤ fld q 8 16) && fld q 8 16 != 0xFFFF, 1),
      (fld q 24 8 != 0x10, 3) ] ++ destBad 8
  | 0x0F00 =>
    [ (decide (3 < fld q 0 8), 0), (decide (1 < fld q 8 8), 1),
      (fld q 8 8 == 0 && (decide (2 ^ 47 ≤ fld q 64 64) || addrPos (fld q 64 64) != ownPos s ||
        !inMemory s (fld q 64 64) 96), 8) ]
  | 0x0F01 => [(fld q 0 32 != 0x45524153, 0)]
  | 0x0F02 => [(fld q 0 32 != 0x4C494645, 0)]
  | 0x0F03 =>
    let slot := fld q 0 8
    let rel := s.sec.slots.getD slot (0, 0)
    [ (decide (1 < slot), 0), (decide (slot ≤ 1) && fld q 8 8 != rel.2, 1),
      (decide (slot ≤ 1) && fld q 16 8 != rel.1, 2) ]
  | 0x0F04 =>
    [ (decide (2 ^ 47 ≤ fld q 0 64) || fld q 0 64 % 64 != 0 || addrPos (fld q 0 64) != ownPos s ||
        !inMemory s (fld q 0 64) 12000, 0) ]
  | 0x0F05 => [(fld q 0 32 != 0x44424721, 0)]
  | _ =>
    if isCollective op then
      let scope := fld q 640 2
      let pos := a.pos.getD (ownPos s)
      let n := collCount pos q
      let berths := fld q 656 8
      let mods := fld q 672 25
      let shape : List (Bool × Nat) := match op with
        | 0x0600 => sameShape t1 t2 48
        | 0x0601 => [(t2.rows != n * t1.rows, 64), (t2.cols != t1.cols, 68)]
        | 0x0602 => [(t1.rows % max n 1 != 0, 32), (t1.rows != n * t2.rows, 64), (t2.cols != t1.cols, 68)]
        | _ => sameShape t1 t2 48
      tdBad s none vectorFormat q 128 ++ tdBad s none vectorFormat q 384 ++ shape ++
      [ (scope == 3 || (scope == 0 && op == 0x0603), 80),
        (if scope = 0 then berths != 0
         else berths == 0 || (pos == ownPos s && !bitAt berths (ctxBerth a.ctx)) ||
           !(collMembers pos q).all (fun m => decide (m.2 < partAt s m.1)), 82),
        (if scope = 2 then !bitAt mods pos ||
            !(setBits 25 mods).all (fun m => s.harbour.members.getLsbD m) else mods != 0, 84),
        (scope == 0 && fld q 704 32 != 0, 88),
        (op == 0x0603 && decide (n ≤ fld q 736 16), 92),
        ((op == 0x0600 || op == 0x0602) && fld q 64 2 == 3, 8),
        ((op == 0x0601 || op == 0x0603) && t1.fmt != t2.fmt, 54),
        (scope == 0 && decide (op < 0x0602) && !(collSlices q n).all (fun t => admitsRun s t.addr t.extent &&
          (!t.format.isBlock || admitsRun s t.side t.sideExtent)), 16) ] ++ overlapBad op q n
    else []

/-! ## Check 5: protection -/

/-- A range of tile windows touches scratch (R211). -/
def inScratch (addr len : Nat) : Bool :=
  let o := addrLocal addr
  decide (tileBase ≤ o) && decide (o < tileBase + 8 * 0x12000000) && decide (0x100000 < (o - tileBase) % 0x200000 + len)

/-- The reach rules of each opcode: (fails?, parameter byte) (check 5). Members outside the partition's reach are named by
SCOPE, byte 80: R232 gives the status and no field (DESIGN CHOICE, log entry 44). -/
def reachBad (s : State) (a : Asked) : List (Bool × Nat) :=
  let q := a.params
  let pos := a.pos.getD (ownPos s)
  let op := a.op
  let td (ks : List AccessKind) (lo : Nat) : List (Bool × Nat) :=
    let t := tdAt q lo
    [ (!ks.all (fun k => a.reach s k t.addr t.extent) || inScratch t.addr t.extent, lo / 8),
      (t.format.isBlock && (!ks.all (fun k => a.reach s k t.side t.sideExtent) || inScratch t.side t.sideExtent),
        lo / 8 + 8) ]
  let dest (len : Nat) : List (Bool × Nat) :=
    match a.mbx with
    | some _ => []
    | none => [(!a.reach s .store (fld q 320 64) len, 40)]
  let ctxOwned (c : Nat) : List (Bool × Nat) := [(!a.owns (berthPart s (ctxBerth c)), 0)]
  match op with
  | 0x0001 =>
    let c := fld q 0 6
    let size := 2 ^ fld q 8 8
    let spans (addr len : Nat) : Bool :=
      match berthPart s (ctxBerth c) with
      | none => false
      | some p =>
        let lo := addrLocal addr / spanBytes
        let hi := (addrLocal addr + len - 1) / spanBytes
        (List.range (hi + 1 - lo)).all (fun i => decide (berthPart s (lo + i) = some p))
    [ (decide (berthPart s (ctxBerth c) = none) || !a.owns (berthPart s (ctxBerth c)), 0),
      (!bitAt (fld q 16 3) 0 && !spans (fld q 64 64) (size * 64), 8),
      (!bitAt (fld q 16 3) 1 && !spans (fld q 128 64) (size * 32), 16),
      (!bitAt (fld q 16 3) 2 && !spans (fld q 192 64) (size * 32), 24) ]
  | 0x0002 => ctxOwned (fld q 0 8)
  | 0x0003 => ctxOwned (fld q 0 8)
  | 0x0004 => ctxOwned (fld q 0 8) ++ dest 64
  | 0x0010 => dest 64
  | 0x0011 => [(!a.ownsSite s (fld q 0 6) false, 0)] ++ dest 64
  | 0x0020 => [(!a.ownsSite s (fld q 0 8) true, 0)]
  | 0x0030 =>
    let owned := match domKind (fld q 0 16) with
      | .region b _ => a.owns (berthPart s b)
      | .engine b _ => a.owns (berthPart s b)
      | .stack n => a.ownsSite s (stackSite n) true
      | _ => a.fn == 0
    [(!owned, 0)]
  | 0x0100 =>
    let len := fld q 128 32
    let runs := copyRuns q
    [ (!runs.all (fun r => a.reach s .load r.1 len), 0), (!runs.all (fun r => a.reach s .store r.2 len), 8),
      (bitAt q 431 && !a.reach s .atomic (fld q 384 47) 8, 48) ]
  | 0x0101 =>
    [ (!a.reach s .store (fld q 0 47) (fld q 64 32 + 1), 0),
      (bitAt q 239 && !a.reach s .atomic (fld q 192 47) 8, 24) ]
  | 0x0201 => [(!a.reach s .atomic (fld q 0 64) 8, 0)]
  | 0x0203 => [(!a.reach s .store (fld q 64 64) 8, 8)]
  | 0x0211 => [(!a.reach s .store (fld q 0 64) 8, 0)]
  | 0x0300 => td [.load] 128 ++ td [.load] 384 ++ td (if bitAt q 64 then [.load, .store] else [.store]) 640
  | 0x0400 => td [.load] 128 ++ td [.load] 384 ++ td [.store] 640
  | 0x0502 =>
    if fld q 64 2 = 3 then td [.load] 128 ++ td [.store] 640
    else td [.load] 128 ++ td [.load] 384 ++ td [.store] 640
  | 0x0510 => td [.load] 128 ++ td [.load] 384 ++ td [.load] 640 ++ td [.store] 896
  | 0x0700 => [(!a.reach s .load (fld q 0 48) 64, 0)]
  | 0x0701 => [(!a.reach s .load (fld q 16 48) 16, 2), (!a.reach s .store (fld q 80 48) 512, 10)]
  | 0x0E00 => [(!a.ownsSite s (fld q 0 8) true, 0)] ++ dest 8
  | 0x0E01 => [(!a.ownsSite s (fld q 0 8) true, 0)] ++ dest 8
  | 0x0F00 => [(fld q 8 8 == 0 && !a.reach s .load (fld q 64 64) 96, 8)]
  | 0x0F04 => [(!a.reach s .load (fld q 0 64) 12000, 0)]
  | _ =>
    if isCollective op then
      td [.load] 128 ++ td [.store] 384 ++
      [ (fld q 640 2 == 0 && decide (op < 0x0602) && !(collSlices q (collCount pos q)).all (fun t =>
          a.reach s .load t.addr t.extent && (!t.format.isBlock || a.reach s .load t.side t.sideExtent)), 16),
        (!(collMembers pos q).all (fun m =>
          if m.1 = ownPos s then a.parts.any (fun p => decide (berthPart s m.2 = some p))
          else a.parts.any (fun p => (partRecord s p).reach.any (fun r => r.pos == m.1))), 80) ]
    else if op / 256 = 5 then td [.load] 128 ++ td [.store] 384
    else []

/-- Privileged opcodes: refused to virtual functions, and DEBUG_ENABLE while the seal is intact (R182,
Table 07-15). -/
def privilegeBad (s : State) (a : Asked) : Bool :=
  a.op / 256 == 0x0F && a.op != 0x0F10 && (a.fn != 0 || (a.op == 0x0F05 && !s.sec.sealBroken)) ||
  a.op == 0x0F10 && a.fn != 0

/-! ## Checks 6 and 7 -/

/-- A presence window is open (R445). -/
def presenceOpen (s : State) : Bool :=
  match s.sec.window with
  | some e => decide (now s < e)
  | none => false

/-- Release order: (major, minor) below. -/
def releaseLt (a b : Nat × Nat) : Bool := decide (a.1 < b.1) || (decide (a.1 = b.1) && decide (a.2 < b.2))

/-- The opcode needs a presence window (Table 07-15). -/
def needsPresence (s : State) (a : Asked) : Bool :=
  match a.op with
  | 0x0F00 => true
  | 0x0F01 => true
  | 0x0F02 => true
  | 0x0F03 => releaseLt (fld a.params 16 8, fld a.params 8 8) s.sec.floor
  | 0x0F05 => true
  | _ => false

/-! ## The checks in order (Table 06-6) -/

/-- The status and DETAIL of the first check that fails, none when all pass (R183, R530). The refusal of a 0x0Fxx opcode to
a virtual function stands at the head of check 5, after checks 1 to 4: Table 06-8 says only "Check 5, or R182" (DESIGN
CHOICE, log entry 57). -/
def checkCommand (s : State) (a : Asked) : Option (Nat × Nat) :=
  if !opcodeOk a then some (S_BAD_OPCODE, 0)
  else match reservedBad a.op a.p with
    | some o => some (S_RESERVED_FIELD, o)
    | none => match firstBad (headerBad a) with
      | some o => some (S_BAD_PARAM, o)
      | none => match firstBad ((paramBad s a).map (fun f => (f.1, a.off f.2))) with
        | some o => some (S_BAD_PARAM, o)
        | none =>
          if privilegeBad s a then some (S_PROTECTION, 0)
          else match firstBad ((reachBad s a).map (fun f => (f.1, a.off f.2))) with
            | some o => some (S_PROTECTION, o)
            | none =>
              if needsPresence s a && !presenceOpen s then some (S_PRESENCE_REQUIRED, 0)
              else if a.op = 0x0F10 then some (S_SEALED, 0)
              else none

end Sys2Proof.Machine
end

