-- ==== Sys2Proof/Machine/Access.lean ====
section
/-! DEFINITION. What an access to a place meets: dead and retired sites (R338, R342), retired ranges (R269), poison
(R145, R253), retired tiles (R146), and the bytes a command reads and writes. -/

namespace Sys2Proof.Machine

/-! ## Where an address is served -/

/-- The remap key of a segment (R262). -/
def segKeyNat (n c g : Nat) : Nat := (n * 16 + c) * 1024 + g

/-- The slot a segment has moved to (R262). -/
def slotOf (s : State) (n c g : Nat) : Option Nat := tabGet none s.pool.remap (segKeyNat n c g)

/-- The stack that serves a DRAM address: that of R317, or the slot's (R262, R321). -/
def servingStack (s : State) (loc : Nat) : Nat :=
  let p := placeDram s.ident.part (spread s) loc
  match slotOf s p.1 (offChannel p.2) (offSegment p.2) with
  | some slot => slot / 256
  | none => p.1

/-- The site that serves an address of the own module (R321). -/
def servingSite (s : State) (loc : Nat) : Nat :=
  match placeOf s.ident.part loc with
  | .dram _ => stackSite (servingStack s loc)
  | .tile b _ _ => b
  | .counter b _ => b
  | _ => hmSite

/-- A site that every source holds as dead, so that requests to it end at their sources: declared dead (R338), a stack in
off (R403), a berth in thermal hold (R416) or in a partition reset (R473), or a stack whose crossing has failed (R377). -/
def siteHeld (s : State) (k : Nat) : Bool :=
  (getSite s k).dead ||
  (match siteKind k with
   | .stack n => decide ((getDomain s (stackDom n)).state = .off) || decide (getCrossing s 3 (stackDom n) = .failed)
   | .berth b => (getBerth s b).hold || berthResetting s b
   | _ => false)

/-- A site that has stopped responding and is not held as dead: a stack stopped for heat (R258) or by a rail (R271). Requests
to it go out and end by R26 and R30. -/
def siteSilent (s : State) (k : Nat) : Bool :=
  match siteKind k with
  | .stack n => (getStack s n).stoppedHeat || (getStack s n).stoppedRail
  | _ => false

/-- A site does not answer. -/
def siteDown (s : State) (k : Nat) : Bool := siteHeld s k || siteSilent s k

/-- A request to this address of the own module goes out and stays unanswered: its site is silent, or it lies in the spans
of a berth that a partition reset zeroes (R473). -/
def addrSilent (s : State) (loc : Nat) : Bool :=
  !siteHeld s (servingSite s loc) &&
  (siteSilent s (servingSite s loc) || (match placeOf s.ident.part loc with
    | .dram b => berthResetting s b
    | _ => false))

/-- The key of a site in the epoch table of the module's sources, and its epoch there (R341). -/
def epochKey (s : State) (pos site : Nat) : Nat := if pos = ownPos s then site else (1 + pos) * 64 + site
def tableEpoch (s : State) (pos site : Nat) : BitVec 8 := tabGet 0 s.harbour.epochs (epochKey s pos site)

/-- The sources of the module stamp an epoch that is not that of the own site k any more (R25). -/
def staleSite (s : State) (k : Nat) : Bool := decide (tableEpoch s (ownPos s) k ≠ (getSite s k).epoch)

/-- A site takes no request any more: retired (R342, R464). A lost stack whose fabric port still serves answers by its
retired ranges and its slots (R465). -/
def siteGone (s : State) (k : Nat) : Bool :=
  match siteKind k with
  | .stack _ => (getSite s k).fabricLost
  | _ => (getSite s k).retired || (getSite s k).role == 0xFF

/-- The one path between two sites of the module is lost: the near link of a stack to its berth (R15, R307, R465), or the
fabric pair of any two other sites (R309). -/
def pathLost (s : State) (src dst : Nat) : Bool :=
  let pair := (getPair s src dst).lost || (getPair s dst src).lost
  if src = dst then false
  else match siteKind src, siteKind dst with
    | .berth b, .stack n =>
      if nearBerth n = b then (getStack s n).nearLost || (getSite s dst).retired else pair
    | .stack n, .berth b =>
      if nearBerth n = b then (getStack s n).nearLost || (getSite s src).retired else pair
    | _, _ => pair

/-- The module as a site sees it: the sites it has no path to any more look retired to it (R309, R465). -/
def seenFrom (s : State) (src : Nat) : State :=
  ((List.range 49).filter (pathLost s src)).foldl
    (fun t k => updSite t k (fun x =>
      { x with retired := true, fabricLost := true, epoch := tableEpoch s (ownPos s) k })) s

/-- The retired range that covers a DRAM address (R269, R318). -/
def retiredRange (s : State) (loc : Nat) : Option RetiredRange :=
  let p := placeDram s.ident.part (spread s) loc
  let key : SegKey := ⟨p.1, offChannel p.2, offSegment p.2⟩
  s.pool.ranges.find? (fun r => decide (r.key = key))

/-- What an access of a kind to a place of the own module meets besides poison, worst first: no answer, a retired site,
range or tile, scratch (R211). The spans of a berth in a partition reset do not answer while they are zeroed (R473). -/
def accessStatus (s : State) (k : AccessKind) (loc : Nat) : Option (Nat × Nat) :=
  let site := servingSite s loc
  if siteDown s site then some (S_TARGET_DEAD, site)
  else match placeOf s.ident.part loc with
    | .dram b =>
      if berthResetting s b then some (S_TARGET_DEAD, site)
      else if siteGone s site then some (S_RESOURCE_RETIRED, site)
      else match retiredRange s loc with
        | some r => if r.closed || decide (k ≠ .load) then some (S_RESOURCE_RETIRED, site) else none
        | none => none
    | .tile b t off =>
      if siteGone s site || (getTile s b t).retired then some (S_RESOURCE_RETIRED, site)
      else if (Place.tile b t off).isScratch && decide (k ≠ .load) then some (S_PROTECTION, 0)
      else none
    | _ => if siteGone s site then some (S_RESOURCE_RETIRED, site) else none

/-- A range of `len` bytes inside one sector meets poison: a store that covers every byte of the poisoned unit does not
(R145, R253). -/
def poisonMet (s : State) (k : AccessKind) (lo len : Nat) : Bool :=
  match placeOf s.ident.part lo with
  | .dram _ => sectorPoisoned s (lo / 64) && (decide (k ≠ .store) || lo % 64 != 0 || len != 64)
  | .tile _ _ _ => (List.range 8).any (fun i =>
      let w := (lo / 64 * 8 + i) * 8
      decide (lo < w + 8) && decide (w < lo + len) && wordPoisoned s (w / 8) &&
        (decide (k ≠ .store) || decide (w < lo) || decide (lo + len < w + 8)))
  | _ => false

/-- What an access of a source of this module to a range inside one sector of the own module meets: no answer, an old
epoch (R25), what stands at the place, poison. -/
def sectorStatus (s : State) (k : AccessKind) (lo len : Nat) : Option (Nat × Nat) :=
  let site := servingSite s lo
  match accessStatus s k lo with
  | some (0x31, d) => some (S_TARGET_DEAD, d)
  | e =>
    if staleSite s site then some (S_STALE_ROLE, site)
    else match e with
      | some x => some x
      | none => if poisonMet s k lo len then some (S_HW_ERROR, site) else none

/-- The own link that is cabled to position p (R351). -/
def linkTo (s : State) (p : Nat) : Nat := (p + 24 - s.harbour.pos) % 25

/-- The position that a packet to another position leaves for first: the position itself, or its relay (R361). -/
def firstHop (s : State) (pos : Nat) : Nat :=
  match tabGet .direct s.harbour.routes (min pos s.harbour.pos * 32 + max pos s.harbour.pos) with
  | .relay r => r
  | _ => pos

/-- DETAIL that names the ingress quay of a relay on a route from this module (R365). -/
def relayDetail (s : State) (r : Nat) : Nat := 0x100 * r + quaySite ((23 - linkTo s r) / 3)

/-- A frame leaves by a link; after every 4095 of them one idle frame is inserted (R375). -/
def linkSend (s : State) (k : Nat) (m : OutMsg) : State :=
  send (updLink s k (fun l =>
    let idle := decide ((l.framesSent + 1) % 4096 = 4095)
    { l with framesSent := l.framesSent + 1 + bit idle, idleSent := l.idleSent + bit idle })) m

/-- The site that serves an address of another module (R321); which of that member's stacks serves DRAM is free (log entry
86). -/
def remoteSite (s : State) (a : Nat) : Nat :=
  let part := mapPart s a
  match placeOf part (addrLocal a) with
  | .dram _ => stackSite (Config.memberStack (addrPos a) (addrLocal a / 4096) % (4 * part))
  | .tile b _ _ => b
  | .counter b _ => b
  | _ => hmSite

/-- The status an access to a site of another module meets: the module or the site is dead, no route leads there, or the
crossing of the quay on the route has failed (R30, R361, R377). -/
def remoteStatus (s : State) (pos site : Nat) : Option (Nat × Nat) :=
  let lo := min pos s.harbour.pos
  let hi := max pos s.harbour.pos
  if (getMember s pos).dead || (getMember s pos).part == 0 || tabGet false s.harbour.deadSites (pos * 64 + site) ||
     decide (tabGet .direct s.harbour.routes (lo * 32 + hi) = .none) ||
     decide (getCrossing s 3 (quayDom (linkTo s (firstHop s pos) / 3)) = .failed) then
    some (S_TARGET_DEAD, 0x100 * pos + site)
  else none

/-- The status an access to an address of another module meets. -/
def remoteAt (s : State) (a : Nat) : Option (Nat × Nat) := remoteStatus s (addrPos a) (remoteSite s a)

/-- The status of highest rank of two. -/
def worse (a b : Option (Nat × Nat)) : Option (Nat × Nat) :=
  match a, b with
  | some x, some y => if statusRank x.1 < statusRank y.1 then some y else some x
  | some x, none => some x
  | none, y => y

/-- The sectors that `len` bytes from an address touch, each with the part that it touches: address and length. -/
def sectorParts (a len : Nat) : List (Nat × Nat) :=
  if len = 0 then []
  else (List.range ((a + len - 1) / 64 + 1 - a / 64)).map (fun i =>
    let lo := max a ((a / 64 + i) * 64)
    (lo, min (a + len) ((a / 64 + i) * 64 + 64) - lo))

/-- What an access to `len` bytes from a global address meets, sector by sector. A `patient` access leaves out what gets no
answer yet: its requests stay outstanding until their bound. -/
def rangeMeets (patient : Bool) (s : State) (k : AccessKind) (a len : Nat) : Option (Nat × Nat) :=
  if len = 0 then none
  else if addrPos a ≠ ownPos s then remoteAt s a
  else (sectorParts (addrLocal a) len).foldl (fun w p =>
    if patient && addrSilent s p.1 then w else worse w (sectorStatus s k p.1 p.2)) none

/-- What an access to `len` bytes from a global address meets. -/
def rangeStatus (s : State) (k : AccessKind) (a len : Nat) : Option (Nat × Nat) := rangeMeets false s k a len

/-! ## Doorbells and the register mirror (R177, R179, R315, R428, R504) -/

/-- The BAR0 offset of a context's doorbell (R492, Table 16-2). -/
def doorbellOffset (c : Nat) : Nat := 0x10000 + 0x1000 * (c / 8) + 8 * (c % 8)

/-- A written half is rejected (R177): SQ_TAIL against F and its old value, CQ_HEAD against its old value and the
completions written in sequence order; all modulo 2³². -/
def doorbellRejects (x : Context) (cq : Bool) (v : W32) : Bool :=
  if cq then decide (2 ^ x.log2S < (v - x.cqHead).toNat) || decide ((x.inOrder - x.cqHead).toNat < (v - x.cqHead).toNat)
  else decide (2 ^ x.log2S < (v - x.fetchCount).toNat) || decide (2 ^ x.log2S < (v - x.sqTail).toNat)

/-- A write of one half of the doorbell of context c, judged against the value then in force: before READY or while
the context is not open it is ignored and counted (R179, R428); a rejected half keeps its value, is counted and raises
fault event 0x0306 (R177). -/
def doorbellHalf (s : State) (c : Nat) (cq : Bool) (v : W32) : State :=
  let x := getCtx s c
  if !s.rst.ready || decide (x.state ≠ .opened) then updCtx s c (fun y => { y with ignored := y.ignored + 1 })
  else if doorbellRejects x cq v then
    raise (updCtx s c (fun y => { y with rejected := y.rejected + 1 }))
      { code := 0x0306
        site := ctxBerth c
        unit := c
        part := partField s (ctxBerth c)
        arg := doorbellOffset c + bit cq <<< 18 }
  else if cq then updCtx s c (fun y => { y with cqHead := v })
  else updCtx s c (fun y => { y with sqTail := v })

/-- The context whose doorbell lies at an offset of the mirror or of BAR0, and the half. -/
def doorbellAt (s : State) (off : Nat) : Option (Nat × Bool) :=
  if 0x10000 ≤ off ∧ off < 0x18000 ∧ off % 0x1000 < 64 ∧ (off / 0x1000 - 0x10) < s.ident.part then
    some (8 * (off / 0x1000 - 0x10) + off % 0x1000 / 8, off % 8 == 4)
  else none

/-- An aligned write of 4 or 8 bytes to the mirror: each half it covers (R315, R504). Registers other than doorbells
are not written through the mirror (Table 16-2). -/
def mirrorWrite (s : State) (off : Nat) (bs : List Byte) : State :=
  (List.range (bs.length / 4)).foldl (fun t i =>
    match doorbellAt t (off + 4 * i) with
    | some d => doorbellHalf t d.1 d.2 (BitVec.ofNat 32 (leNat (sliceBytes bs (4 * i) 4)))
    | none => t) s

/-- The 8-byte word that the mirror shows at an offset (R315, Table 16-2): MOD_ID_REV, TIDE, THERM_SUMMARY and the
doorbells; anything else reads as zero (R490). -/
def mirrorWord (s : State) (off : Nat) : Nat :=
  if off / 8 = 0 then s.ident.modIdRev.toNat
  else if off / 8 = 1 then now s % 2 ^ 64
  else if off / 8 = 6 then s.thermal.summary.toNat
  else match doorbellAt s (off / 8 * 8) with
    | some d => (getCtx s d.1).sqTail.toNat + (getCtx s d.1).cqHead.toNat <<< 32
    | none => 0

/-! ## Bytes -/

/-- A byte of the own module as its place shows it: free for scratch (R211). -/
def placeByte (s : State) (a : Nat) : Byte :=
  match placeOf s.ident.part (addrLocal a) with
  | .counter b i => BitVec.ofNat 8 ((getCounter s b i).toNat >>> (8 * (addrLocal a % 8)))
  | .mirror off => BitVec.ofNat 8 (mirrorWord s off >>> (8 * (off % 8)))
  | p => if p.isScratch then Config.scratchByte s.fresh a else readByte s (addrLocal a)

/-- `n` bytes of the own module as their places show them. -/
def placeBytes (s : State) (a n : Nat) : List Byte := (List.range n).map (fun i => placeByte s (a + i))

/-- A byte as a load returns it: 0xFF where the load fails (R26, R253, R269), free for another module's memory. -/
def loadByte (s : State) (a : Nat) : Byte :=
  if addrPos a ≠ ownPos s then
    (match remoteAt s a with
     | some _ => 0xFF#8
     | none => Config.remoteByte s.fresh a)
  else match sectorStatus s .load (addrLocal a) 1 with
    | some _ => 0xFF#8
    | none => placeByte s a

/-- `n` bytes as a load returns them. -/
def loadBytes (s : State) (a n : Nat) : List Byte := (List.range n).map (fun i => loadByte s (a + i))

/-- A little-endian number as a load returns it. -/
def loadNat (s : State) (a n : Nat) : Nat := leNat (loadBytes s a n)

/-- Clear the poison of what a run of bytes covers whole and writes: sectors of DRAM (R253), words of a tile (R145). -/
def clearPoison (s : State) (loc len : Nat) : State :=
  let hit (unit k : Nat) : Bool := decide (loc ≤ k * unit) && decide (k * unit + unit ≤ loc + len) &&
    decide (accessStatus s .store (k * unit) = none)
  { s with mem := { s.mem with
      poison := tabClear (hit 64) s.mem.poison
      poisonWord := tabClear (hit 8) s.mem.poisonWord } }

/-- A byte of a run that a store writes on the own module: its poisoned unit is covered whole (R145, R253, R269). -/
def accepts (s : State) (loc len a : Nat) : Bool :=
  let unit := match placeOf s.ident.part a with
    | .tile _ _ _ => 8
    | _ => 64
  let lo := max loc (a / unit * unit)
  decide (sectorStatus s .store lo (min (loc + len) (a / unit * unit + unit) - lo) = none)

/-- The bytes of a run that a store applies on the own module. -/
def acceptedBytes (s : State) (loc : Nat) (bs : List Byte) : List (Nat × Byte) :=
  (bs.zipIdx.map (fun e => (loc + e.2, e.1))).filter (fun e => accepts s loc bs.length e.1)

/-- An aligned counter write by its bytes (R336). -/
def storeCounters (s : State) (loc : Nat) (bs : List Byte) : State :=
  (List.range (bs.length / 8)).foldl (fun t i =>
    match placeOf t.ident.part (loc + 8 * i) with
    | .counter b j => updCounter t b j (fun _ => BitVec.ofNat 64 (leNat (sliceBytes bs (8 * i) 8)))
    | _ => t) s

/-- Write a run of bytes on the own module, where its sectors accept it. Bytes for another module leave as requests
(Sys2Proof.Machine.issueStores). -/
def storeBytes (s : State) (a : Nat) (bs : List Byte) : State :=
  if addrPos a ≠ ownPos s then s
  else
    let loc := addrLocal a
    match placeOf s.ident.part loc with
    | .counter _ _ =>
      if siteDown s (servingSite s loc) || siteGone s (servingSite s loc) then s else storeCounters s loc bs
    | .dram _ => clearPoison (writeCells s (acceptedBytes s loc bs)) loc bs.length
    | .tile _ _ _ => clearPoison (writeCells s (acceptedBytes s loc bs)) loc bs.length
    | .mirror off => mirrorWrite s off bs
    | _ => s

/-- Consecutive (address, byte) pairs gathered into runs. -/
def gather : List (Nat × Byte) → List (Nat × List Byte)
  | [] => []
  | (a, b) :: rest =>
    match gather rest with
    | (a', bs) :: more => if a + 1 = a' then (a, b :: bs) :: more else (a, [b]) :: (a', bs) :: more
    | [] => [(a, [b])]

/-- Write staged (address, byte) pairs, run by run. -/
def storeRuns (s : State) (l : List (Nat × Byte)) : State := (gather l).foldl (fun t r => storeBytes t r.1 r.2) s

/-- Write staged pairs as a site sends them: what it has no path to is never sent (R309). -/
def storeFrom (s : State) (src : Nat) (l : List (Nat × Byte)) : State :=
  storeRuns s (l.filter (fun e =>
    !(addrPos e.1 == ownPos s && siteGone (seenFrom s src) (servingSite s (addrLocal e.1)))))

/-- Bytes laid at rising addresses from `a`. -/
def layAt (a : Nat) (bs : List Byte) : List (Nat × Byte) := bs.zipIdx.map (fun e => (a + e.2, e.1))

/-! ## Rows of DRAM (R247, R248) -/

/-- Where a DRAM address lies: stack, channel, bank × 262144 + row (R247, R262). -/
def physRow (s : State) (loc : Nat) : Nat × Nat × Nat :=
  let p := placeDram s.ident.part (spread s) loc
  let c := offChannel p.2
  match slotOf s p.1 c (offSegment p.2) with
  | some slot =>
    let o := setFld p.2 26 10 (1008 + slot % 16)
    (slot / 256, slot / 16 % 16, offBank o * 262144 + offRow o)
  | none => (p.1, c, offBank p.2 * 262144 + offRow p.2)

/-- A request takes the row buffer of its row, which becomes the most recently used of the channel's 32; a store marks it
written, from its first write (R248). -/
def StackChannel.touchRow (x : StackChannel) (r : Nat) (write : Option Nat) : StackChannel :=
  let old := match x.buffers.find? (fun b => b.1 == r) with
    | some b => b.2
    | none => none
  let mark := match old with
    | some t => some t
    | none => write
  let l := x.buffers.filter (fun b => b.1 != r) ++ [(r, mark)]
  { x with buffers := l.drop (l.length - 32) }

/-- An access to DRAM takes the row buffer of its row (R248). -/
def touchDram (s : State) (loc : Nat) (write : Bool) : State :=
  match placeOf s.ident.part loc with
  | .dram _ =>
    let p := physRow s loc
    updChannel s p.1 p.2.1 (fun x => x.touchRow p.2.2 (if write then some (now s) else none))
  | _ => s

/-- The row buffers that the requests for `len` bytes of the own module take, one row of 1 KiB after another; a request that
gets no answer takes none. -/
def touchRange (s : State) (a len : Nat) (write : Bool) : State :=
  if addrPos a ≠ ownPos s ∨ len = 0 then s
  else
    let loc := addrLocal a
    (List.range ((loc + len - 1) / 1024 + 1 - loc / 1024)).foldl (fun t i =>
      let lo := max loc ((loc / 1024 + i) * 1024)
      if siteDown t (servingSite t lo) then t else touchDram t lo write) s

/-- A DRAM address lies in a segment (R262). -/
def inSegment (s : State) (k : SegKey) (loc : Nat) : Bool :=
  match placeOf s.ident.part loc with
  | .dram _ =>
    let p := placeDram s.ident.part (spread s) loc
    decide (k = ⟨p.1, offChannel p.2, offSegment p.2⟩)
  | _ => false

/-! ## What waits in front of its target (R144, R157, R161, R265, R343) -/

/-- Requests to a virtual tile are held at its router: a core is being substituted (R144), or the crossings of its region
are held for a step change (R161). -/
def tileHeld (s : State) (b t : Nat) : Bool := (getTile s b t).held || (getRegion s b (regionOf t)).holding

/-- A domain that is not on, or is on its way out of it, and that an access to a place waits for: the region of a tile window
(R157), a stack that enters or is in retention (R403, R405). -/
def sleeperAt (s : State) (loc : Nat) : Option Nat :=
  match placeOf s.ident.part loc with
  | .tile b t _ =>
    let d := regionDom b (regionOf t)
    if (getDomain s d).state ≠ .on ∨ (getDomain s d).busy ≠ none then some d else none
  | .dram _ =>
    let d := stackDom (servingStack s loc)
    if (getDomain s d).state = .retention ∨ ((getDomain s d).state = .on ∧ (getDomain s d).busy ≠ none) then some d else none
  | _ => none

/-- The size of the pieces in which the places of a range are looked at: a tile window, or a granule. -/
def stepBytes (s : State) (loc : Nat) : Nat :=
  match placeOf s.ident.part loc with
  | .tile _ _ _ => 0x200000
  | _ => 4096

/-- One address in each tile window or granule that a range of the own module touches. -/
def stepsOf (s : State) (a len : Nat) : List Nat :=
  let loc := addrLocal a
  let u := stepBytes s loc
  if addrPos a ≠ ownPos s ∨ len = 0 then []
  else (List.range ((loc + len - 1) / u + 1 - loc / u)).map (fun i => max loc ((loc / u + i) * u))

/-- The sites of the own module that refuse a range for its old epoch (R25). -/
def staleSites (s : State) (src a len : Nat) : List Nat :=
  let v := seenFrom s src
  ((stepsOf s a len).map (servingSite s)).eraseDups.filter (fun k => staleSite v k && decide ((getSite s k).dead = false))

/-- The refusals of a range for an old epoch are counted (R25). -/
def countStale (s : State) (src a len : Nat) : State :=
  (staleSites s src a len).foldl (fun u k => updSite u k (fun x => { x with stale := x.stale + 1 })) s

/-- The domains not on that a range of the own module waits for. -/
def sleepersOf (s : State) (a len : Nat) : List Nat := (stepsOf s a len).filterMap (sleeperAt s)

/-- An access waits at a place for something other than a domain: its site drains for a role change (R343), its tile is
held (R144, R161). -/
def placeWaits (s : State) (loc : Nat) : Bool :=
  (getSite s (servingSite s loc)).drain.isSome || (match placeOf s.ident.part loc with
    | .tile b t _ => tileHeld s b t
    | _ => false)

/-- A place lies in a segment that is moving (R265). -/
def placeMoves (s : State) (loc : Nat) : Bool := s.pool.moving.any (fun k => inSegment s k loc)

/-- Add to a counter by its global address (R204, R329): wraps modulo 2⁶⁴; a counter of a berth in a partition reset
drops and counts it (R335). -/
def addCounter (s : State) (a : Nat) (v : W64) : State :=
  if addrPos a ≠ ownPos s then s
  else match placeOf s.ident.part (addrLocal a) with
    | .counter b i =>
      if berthResetting s b then { s with mem := { s.mem with droppedAdds := s.mem.droppedAdds + 1 } }
      else if siteDown s b || siteGone s b then s
      else updCounter s b i (· + v)
    | _ => s

/-- An addition as a site sends it: what it does, and what it meets. One that reaches a counter of a berth in a partition
reset is dropped and counted, and its source sees no answer (R335, R473); one with an old epoch is counted and not applied
(R25). -/
def addFrom (s : State) (src a : Nat) (v : W64) : State × Option (Nat × Nat) :=
  let st := rangeStatus (seenFrom s src) .atomic a 8
  let drops := decide (addrPos a = ownPos s) && (match placeOf s.ident.part (addrLocal a) with
    | .counter b _ => berthResetting s b && !pathLost s src b
    | _ => false)
  let old := decide (addrPos a = ownPos s) && (match st with
    | some e => e.1 == S_STALE_ROLE
    | none => false)
  (if decide (st = none) || drops then addCounter s a v
   else if old then updSite s (servingSite s (addrLocal a)) (fun x => { x with stale := x.stale + 1 })
   else s, st)

end Sys2Proof.Machine
end

