-- ==== Sys2Proof/Machine/Issue.lean ====
section
/-! DEFINITION. The source side of requests (R322 to R334, R337, R341): destinations, epochs and flows, what holds a
request back, its issue, and the requests that the work of a command makes of other modules and of sites that have
stopped responding. -/

namespace Sys2Proof.Machine

/-! ## Destinations and flows (R321, R332) -/

/-- The destination site of an address (R321). -/
def destSite (s : State) (a : Nat) : Nat :=
  if addrPos a = ownPos s then servingSite s (addrLocal a) else remoteSite s a

/-- DETAIL of a site that has stopped responding: its number, or for another module 0x100 × position + site
(Table 06-8). -/
def siteDetail (s : State) (pos site : Nat) : Nat := if pos = ownPos s then site else 0x100 * pos + site

/-- DETAIL of a status that a request met at a site (Table 06-8): only S_TARGET_DEAD names the other module as well. -/
def statusDetail (s : State) (st pos site : Nat) : Nat := if st = S_TARGET_DEAD then siteDetail s pos site else site

/-- The source context of a request. -/
def reqCtx (r : WireReq) : Option Nat := r.srcCtx.map (·.ctx)

/-- The flow of a request (R332): REQ and BULK traffic of a source context. -/
def flowOf (s : State) (r : WireReq) : Option FlowId :=
  match reqCtx r, r.ch with
  | some c, .req => some ⟨c, false, addrPos r.addr, destSite s r.addr⟩
  | some c, .bulk => some ⟨c, true, addrPos r.addr, destSite s r.addr⟩
  | _, _ => none

/-- The outstanding requests of a flow. -/
def inFlow (f : FlowId) (o : OutReq) : Bool :=
  !o.held && reqCtx o.req == some f.ctx && o.dstPos == f.pos && o.dstSite == f.site &&
  decide (o.req.ch = if f.bulk then Channel.bulk else Channel.req)
def flowLoad (s : State) (f : FlowId) : Nat := (s.reqs.out.filter (inFlow f)).length

/-- A flow as it is now; a new one starts with a window of 32 KiB. -/
def getFlow (s : State) (f : FlowId) : Flow :=
  match s.reqs.flows.find? (fun e => decide (e.1 = f)) with
  | some e => e.2
  | none => { window := 32768 }
def setFlow (s : State) (f : FlowId) (x : Flow) : State :=
  { s with reqs := { s.reqs with flows := s.reqs.flows.filter (fun e => decide (e.1 ≠ f)) ++ [(f, x)] } }

/-! ## The blocks on the way of a request (R140, R161, R377) -/

/-- The numbers from x to y, rising or falling. -/
def walk (x y : Nat) : List Nat :=
  if x ≤ y then (List.range (y + 1 - x)).map (· + x) else (List.range (x + 1 - y)).map (x - ·)

/-- The mesh way between two virtual tiles: along the row, then along the column (dimension order). -/
def meshTiles (t u : Nat) : List Nat :=
  (walk (t % 12) (u % 12)).map (fun c => 12 * (t / 12) + c) ++ (walk (t / 12) (u / 12)).map (fun r => 12 * r + u % 12)

/-- The attachment router of a tile for the fabric port, and for the die-to-die port k (Table 05-3). -/
def fabricRouter (t : Nat) : Nat := 12 * (if t / 12 ≤ 5 then 5 else 6) + (if t % 12 ≤ 5 then 5 else 6)
def nearRouter (t k : Nat) : Nat := 3 * k + t % 12 % 3

/-- The regions of a mesh way, as domain numbers. -/
def meshDoms (b t u : Nat) : List Nat := (meshTiles t u).map (fun x => regionDom b (regionOf x))

/-- The blocks a request leaves its source by, up to the base fabric; `near` names the die-to-die port to a near stack. -/
def sourceDoms (s : State) (r : WireReq) (near : Option Nat) : List Nat :=
  match siteKind r.srcSite with
  | .berth b =>
    if r.srcVtile < 144 then
      meshDoms b r.srcVtile (match near with
        | some k => nearRouter r.srcVtile k
        | none => fabricRouter r.srcVtile) ++ [3]
    else [3]
  | .stack n => [stackDom n, 3]
  | .quay q => [quayDom q, 3]
  | .harbourmaster => [1 + s.recovery.active, 3]
  | .reserved => [3]

/-- The blocks a request passes in order (Table 01-5): from its source, or from the quay by which it came into the module, to
the unit that serves it, or to the quay by which it leaves. -/
def wayDoms (s : State) (r : WireReq) (dstPos dstSite : Nat) : List Nat :=
  let src (near : Option Nat) : List Nat :=
    if r.srcPos = ownPos s then sourceDoms s r near else [quayDom (linkTo s (firstHop s r.srcPos) / 3), 3]
  if dstPos ≠ ownPos s then src none ++ [3, quayDom (linkTo s (firstHop s dstPos) / 3)]
  else match siteKind dstSite with
    | .stack n => src (if nearBerth n = r.srcSite then some (n % 4) else none) ++ [3, stackDom n]
    | .harbourmaster => src none ++ [3, 1 + s.recovery.active]
    | .berth b =>
      (match placeOf s.ident.part (addrLocal r.addr) with
       | .tile _ t _ =>
         if r.srcPos = ownPos s ∧ r.srcSite = b ∧ r.srcVtile < 144 then meshDoms b r.srcVtile t
         else src none ++ [3] ++ meshDoms b (fabricRouter t) t
       | _ => src none ++ [3])
    | _ => src none ++ [3]
def pathDoms (s : State) (o : OutReq) : List Nat := wayDoms s o.req o.dstPos o.dstSite

/-- A region on the way holds the traffic of its crossings while its step changes (R161). -/
def stepHolds (s : State) (l : List Nat) : Bool :=
  l.any (fun d => match domKind d with
    | .region b e => (getRegion s b e).holding
    | _ => false)

/-- Two blocks stand next to one another on a way. -/
def passes (a b : Nat) : List Nat → Bool
  | x :: y :: l => (x == a && y == b) || (x == b && y == a) || passes a b (y :: l)
  | _ => false

/-! ## What holds a request at its source -/

/-- A crossing on the way has FAILED: traffic offered to it ends as a request to a dead target (R377). -/
def crossFailed (s : State) (l : List Nat) : Bool :=
  s.crossings.any (fun e => decide (e.2.state = .failed) && passes (e.1 / 65536) (e.1 % 65536) l)

/-- The window of the request's flow is full. -/
def windowFull (s : State) (r : WireReq) : Bool :=
  match flowOf s r with
  | some f => decide ((getFlow s f).window ≤ 64 * flowLoad s f)
  | none => false

/-- 64 atomics of the source context are outstanding (R327). -/
def atomicsFull (s : State) (r : WireReq) : Bool :=
  decide (r.kind = .atomic) && (reqCtx r).isSome &&
  decide (64 ≤ (s.reqs.out.filter (fun o => !o.held && decide (o.req.kind = .atomic) && reqCtx o.req == reqCtx r)).length)

/-- The Tug of the request's command has 512 KiB outstanding (R333). -/
def tugFull (s : State) (r : WireReq) : Bool :=
  decide (r.ch = .bulk) && r.srcCtx.isSome &&
  decide (8192 ≤ (s.reqs.out.filter (fun o => !o.held && decide (o.req.ch = .bulk) && decide (o.req.srcCtx = r.srcCtx))).length)

/-- The segment of the request's address is moving (R265). -/
def isMoving (s : State) (r : WireReq) : Bool := addrPos r.addr == ownPos s && placeMoves s (addrLocal r.addr)

/-- A drain holds the traffic to the other module (R345). -/
def isDrained (s : State) (pos : Nat) : Bool :=
  s.harbour.drains.any (fun d => (d.1 == ownPos s && d.2.1 == pos) || (d.1 == pos && d.2.1 == ownPos s))

/-- The link by which traffic to another module leaves carries none: it is not up (R352, R354). -/
def linkWaits (s : State) (pos : Nat) : Bool :=
  pos != ownPos s && decide ((getLink s (linkTo s (firstHop s pos))).state ≠ .up)

/-- The part of an address that tells endpoints of one site apart: the virtual tile of a window, 255 elsewhere (R319). -/
def addrTile (s : State) (a : Nat) : Nat :=
  match placeOf (mapPart s a) (addrLocal a) with
  | .tile _ t _ => t
  | _ => 255

/-- Two requests of one source endpoint to one destination endpoint (R24). -/
def samePair (s : State) (x o : OutReq) : Bool :=
  x.req.srcSite == o.req.srcSite && x.req.srcVtile == o.req.srcVtile && x.dstPos == o.dstPos && x.dstSite == o.dstSite &&
  addrTile s x.req.addr == addrTile s o.req.addr

/-- The requests of the module's sources issued before this one. -/
def issuedBefore (s : State) (o : OutReq) : List OutReq := s.reqs.out.takeWhile (fun x => x.req.tag != o.req.tag)

/-- An earlier request of the same source endpoint to the same destination endpoint on the same channel is still held
(R24). -/
def behindHeld (s : State) (o : OutReq) : Bool :=
  (issuedBefore s o).any (fun x => x.held && samePair s x o && decide (x.req.ch = o.req.ch))

/-- The TAG of a tracked request on the wire: the low 16 bits of its number (Table 10-5). -/
def wireTag (n : Nat) : Nat := n % 65536

/-- Another request that has left has the same TAG, which no response could tell apart (R322). -/
def tagBusy (s : State) (o : OutReq) : Bool :=
  s.reqs.out.any (fun x => !x.held && x.req.tag != o.req.tag && wireTag x.req.tag == wireTag o.req.tag)

/-- The source holds a request back. -/
def mustHold (s : State) (o : OutReq) : Bool :=
  windowFull s o.req || atomicsFull s o.req || tugFull s o.req || isMoving s o.req || isDrained s o.dstPos || linkWaits s o.dstPos ||
  behindHeld s o || tagBusy s o || stepHolds s (pathDoms s o)

/-! ## Issue (R322, R327, R332, R337, R338) -/

/-- An open context stops: fault event 0x0308 names the context and the address (Table 06-10). -/
def stopContext (s : State) (c addr : Nat) : State :=
  if (getCtx s c).state = .opened then
    raise (updCtx s c (fun x => { x with state := .stopped }))
      { code := 0x0308
        site := ctxBerth c
        unit := c
        part := partField s (ctxBerth c)
        arg := addr }
  else s

/-- A status that stops a Tug (R218). -/
def stopsTug (st : Nat) : Bool := st == S_TARGET_DEAD || st == S_STALE_ROLE || st == S_HW_ERROR

/-- Held requests of a source are never sent: those that `p` picks. -/
def dropHeldOf (s : State) (p : CmdId → Bool) : State :=
  { s with reqs := { s.reqs with out := s.reqs.out.filter (fun o => !(o.held && (match o.req.srcCtx with
      | some i => p i
      | none => false))) } }

/-- The chunks of a command that still have a request held back: their writes have not all been issued. -/
def heldChunks (s : State) (id : CmdId) : List Nat :=
  (s.reqs.out.filter (fun o => o.held && decide (o.req.srcCtx = some id))).filterMap (·.chunk)

/-- A Tug stops at an error: it issues no further request of its command, and a chunk of which not every write was issued adds
nothing (R218). -/
def stopTug (s : State) (id : CmdId) : State :=
  let gone := heldChunks s id
  dropHeldOf (updCmd s id (fun c =>
    { c with
      phase := if c.phase = .started then .finished else c.phase
      tug := { c.tug with
        stopped := true
        bad := (gone ++ c.tug.reading).foldl (fun l k => insertNat k l) c.tug.bad } })) (fun i => decide (i = id))

/-- A request of a command has been answered or ended, with a status and its DETAIL: the command takes the status by its
rank and dates its end (R192, R193). One that moves a chunk of a Tug makes the chunk add nothing, and a status of R218
stops the Tug. A ring slot that gave no answer stops its context (R198). -/
def noteOut (s : State) (o : OutReq) (st detail : Nat) : State :=
  let s1 := match o.slot with
    | some x => if st = S_OK ∨ st = S_DEGRADED then s else stopContext s x.1 x.2
    | none => s
  match o.req.srcCtx with
  | some id =>
    let s2 := updCmd s1 id (fun c =>
      let c1 := { c.note st detail with tideEnd := now s }
      if st = S_OK ∨ st = S_DEGRADED then c1
      else match o.chunk with
        | some k => { c1 with tug := { c1.tug with bad := insertNat k c1.tug.bad } }
        | none => { c1 with slotLost := c1.slotLost || o.slot.isSome })
    if o.chunk.isSome && stopsTug st then stopTug s2 id else s2
  | none => s1

/-- An endpoint of a site can be written: in flat mode an entry of the table names it (R320). -/
def isNamed (s : State) (pos site : Nat) : Bool :=
  decide (s.sec.breakwater.fabAddrMode = 0) || s.sec.breakwater.flat.any (fun e => decide (e.2 = some (64 * pos + site)))

/-- What a new request meets at its source: a site held dead, a FAILED crossing on its way (R377), or no path (R309, R338). A site that is silent
but not held dead gets the request, which its bound then ends (R26). For a target on another module the path inside this
module, between the source's site and the quay, is not asked about: R309 speaks of requests between the two sites of a pair
only (DESIGN CHOICE, log entry 49). In flat mode a site without an identifier appears in no request (R320), and a request that
would leave the module for it or from it ends like one without a route (DESIGN CHOICE, log entry 87). -/
def issueMeets (s : State) (r : WireReq) (dst : Nat) : Option (Nat × Nat) :=
  let pos := addrPos r.addr
  if pos = ownPos s then
    if siteHeld s dst || crossFailed s (wayDoms s r pos dst) then some (S_TARGET_DEAD, dst)
    else if pathLost s r.srcSite dst then some (S_RESOURCE_RETIRED, dst)
    else none
  else if (remoteStatus s pos dst).isSome || crossFailed s (wayDoms s r pos dst) || !isNamed s pos dst || !isNamed s (ownPos s) r.srcSite then
    some (S_TARGET_DEAD, siteDetail s pos dst)
  else none

/-- The pair direction of the photonic fabric that traffic between two sites of the module uses; none over the electrical
lanes of a near stack (R15). -/
def fabricPair (src dst : Nat) : Option (Nat × Nat) :=
  if src = dst then none
  else match siteKind src, siteKind dst with
    | .berth b, .stack n => if nearBerth n = b then none else some (src, dst)
    | .stack n, .berth b => if nearBerth n = b then none else some (src, dst)
    | _, _ => some (src, dst)

/-- A packet wakes the lanes of its pair direction (R287). -/
def wakeLanes (s : State) (src dst : Nat) : State :=
  match fabricPair src dst with
  | some p => updPair s p.1 p.2 (fun x => { x with asleep := false, lastPacket := now s })
  | none => s

/-- The quay through which packets to another position leave (R351, R361). -/
def quayTo (s : State) (pos : Nat) : Nat := quaySite (linkTo s (firstHop s pos) / 3)

/-- A pair direction of the fabric repeats frames, retrains, or has a ring that acquires again (R310). -/
def PairDir.slow (x : PairDir) : Bool :=
  x.retraining || x.replayFrom.isSome || x.rings.any (fun r => decide (r.2.state = .relocking)) ||
  x.modRings.any (fun r => decide (r.2.state = .relocking))

/-- A near link repeats frames, or a lane is about to leave one of its bundles (R305, R306, R310). -/
def Stack.nearSlow (x : Stack) : Bool :=
  x.nearReplay.any (fun r => r.2.isSome) || x.bundles.any (fun b => !b.2.leaving.isEmpty)

/-- What lies between two sites of the module is delayed at this moment by a cause of R310: a replay, a retraining, a wrong-lock
recovery or a Lighthouse switch-over of the fabric, or a replay or a lane change on the near lanes. -/
def pathSlow (s : State) (src dst : Nat) : Bool :=
  match fabricPair src dst with
  | some p =>
    (getPair s p.1 p.2).slow || (getPair s p.2 p.1).slow || (getPort s src).paused || (getPort s dst).paused
  | none =>
    src != dst && (match siteKind src, siteKind dst with
      | .berth _, .stack n => (getStack s n).nearSlow
      | .stack n, .berth _ => (getStack s n).nearSlow
      | _, _ => false)

/-- The site of this module at the other end of a request's way through it: its target, or the quay by which it leaves. -/
def wayTo (s : State) (o : OutReq) : Nat := if o.dstPos = ownPos s then o.dstSite else quayTo s o.dstPos

/-- A held or new request goes out over its pair direction; one to another module leaves the module. -/
def sendReq (s : State) (o : OutReq) : State :=
  if o.dstPos = ownPos s then wakeLanes s o.req.srcSite o.dstSite
  else linkSend (wakeLanes s o.req.srcSite (quayTo s o.dstPos)) (linkTo s (firstHop s o.dstPos)) (.request o.dstPos o.req)

/-- The priority of a request (Table 05-4): CTL high, BULK low, REQ as its command's header selects (R180). -/
def reqPri (s : State) (r : WireReq) : Bool :=
  match r.ch with
  | .ctl => true
  | .bulk => false
  | _ => (match r.srcCtx with
    | some id => (match findCmd s id with
      | some c => hPri c.packet
      | none => r.pri)
    | none => r.pri)

/-- The request as its source stamps it: generation of its context, epoch of its destination, priority. The mark that the
queues on its way out of the module set comes with the request (R330); on the own module the target's row shows them. -/
def stamped (s : State) (r : WireReq) (dst : Nat) : WireReq :=
  { r with
    gen := (match reqCtx r with
      | some c => (getCtx s c).gen
      | none => 0)
    epoch := tableEpoch s (addrPos r.addr) dst
    pri := reqPri s r
    swell := r.swell && addrPos r.addr != ownPos s && (decide (r.ch = .req) || decide (r.ch = .bulk)) }

/-- What a request of a command's work is for: the chunk of a Tug that it moves, with the offset of what it reads, or a ring
slot. -/
structure Purpose where
  chunk : Option Nat := none
  off   : Option Nat := none
  slot  : Option (Nat × Nat) := none
  deriving DecidableEq, Repr

/-- A new request is tracked, held or sent. -/
def issueTracked (s : State) (r : WireReq) (p : Purpose) : State :=
  let dst := destSite s r.addr
  let o : OutReq :=
    { req := stamped s r dst
      dstPos := addrPos r.addr
      dstSite := dst
      issued := now s
      chunk := p.chunk
      off := p.off
      slot := p.slot }
  match issueMeets s r dst with
  | some e => noteOut s o e.1 e.2
  | none =>
    let h := mustHold s o
    let x := { o with
      held := h
      delayed := pathSlow s r.srcSite (wayTo s o) || isMoving s r || isDrained s o.dstPos || linkWaits s o.dstPos }
    let s1 := { s with reqs := { s.reqs with out := s.reqs.out ++ [x] } }
    if h then s1 else sendReq s1 x

/-- A new request of a source. -/
def issueNew (s : State) (r : WireReq) : State := issueTracked s r {}

/-- A request leaves the tracking of its source. -/
def untrack (s : State) (tag : Nat) : State :=
  { s with reqs := { s.reqs with out := s.reqs.out.filter (fun x => x.req.tag != tag) } }

/-- A held request goes on when nothing holds it any more: to the site that now serves its address, with the epoch the
table now gives (R265, R341), and with the mark that its way out of the module sets. What it would meet as a new request ends
it (R309, R338). -/
def issueHeld (s : State) (o : OutReq) (swell : Bool) : State :=
  let dst := destSite s o.req.addr
  let y := { o with req := stamped s { o.req with swell := swell } dst, dstSite := dst }
  let x := { y with delayed := o.delayed || pathSlow s o.req.srcSite (wayTo s y) }
  match issueMeets s o.req dst with
  | some e => noteOut (untrack s o.req.tag) o e.1 e.2
  | none =>
    if mustHold s x then s
    else sendReq { s with reqs := { s.reqs with
      out := mapIf (fun y => y.req.tag == o.req.tag) (fun _ => { x with held := false }) s.reqs.out } } x

/-! ## The requests that the work of a command makes

The work of a command reads and writes the own module at once, in the row that does it. Where an address lies on another
module, or on a site that has stopped responding, the work makes requests: they are tracked like every other request, held
by windows and drains, answered by RESPONSE or ended by REQUEST_DEAD_BOUND, and the command's entry waits for them (R26,
R30, R188, R329). -/

/-- A number cannot be a new request's: a request has it, or its TAG is that of one that has left or may still be answered
(R322, R339). -/
def tagTaken (s : State) (n : Nat) : Bool :=
  s.reqs.spent.contains (wireTag n) ||
  s.reqs.out.any (fun o => o.req.tag == n || (!o.held && wireTag o.req.tag == wireTag n))

/-- The next number, among the first so many, that is not taken. -/
def seekTag (s : State) : Nat → Nat → Nat
  | 0, n => n
  | k + 1, n => if tagTaken s n then seekTag s k (n + 1) else n

/-- The number of the next request that a command's work makes. Numbers rise, so that a TAG comes back only after 65 536
requests (DESIGN CHOICE, log entry 79). -/
def freeTag (s : State) : Nat := seekTag s (s.reqs.out.length + s.reqs.spent.length + 1) s.reqs.nextTag

/-- A number has been given to a request. -/
def useTag (s : State) (n : Nat) : State := { s with reqs := { s.reqs with nextTag := n + 1 } }

/-- The work's requests for an address go out as requests: it lies on another module, or gets no answer. -/
def goesOut (s : State) (a : Nat) : Bool := addrPos a != ownPos s || addrSilent s (addrLocal a)

/-- The channel of the work of a command (Table 05-4): Tug chunks and operator data on BULK, the rest on REQ. -/
def workChannel (c : Cmd) : Channel :=
  if isTug c.opcode || decide (0x0300 ≤ c.opcode ∧ c.opcode < 0x0700) then .bulk else .req

/-- The virtual tiles that a command's work runs on. -/
def workTiles (c : Cmd) : List Nat := (c.regions ++ c.engines).flatMap tilesOf

/-- The source endpoint of a command's request: the berth itself for Tugs and the dispatcher, one of the tiles it runs on for an
operator; the manual does not say which tile issues which request (R321; DESIGN CHOICE, log entry 80). -/
def issuingTile (s : State) (c : Cmd) (n : Nat) : Nat :=
  if isTug c.opcode || (workTiles c).isEmpty then 255
  else (workTiles c).getD (Config.issuingTile s.fresh n % (workTiles c).length) 255

/-- A request of a command's work. Whether a queue on its way out of the module marks it is free (R330). -/
def workReq (s : State) (c : Cmd) (k : ReqKind) (a size : Nat) (ch : Channel) : WireReq :=
  let n := freeTag s
  { kind := k
    tag := n
    srcCtx := some c.id
    gen := 0
    epoch := 0
    srcPos := ownPos s
    srcSite := c.berth
    srcVtile := issuingTile s c n
    addr := a
    size := size
    ch := ch
    swell := Config.egressSwell s.fresh n }

/-- A request of a command's work takes its number and goes out. -/
def issueWork (s : State) (r : WireReq) (p : Purpose) : State := issueTracked (useTag s r.tag) r p

/-- The widest request that the place of an address admits (Tables 10-6 and 10-8). -/
def widest (s : State) (a : Nat) : Nat :=
  match placeOf (mapPart s a) (addrLocal a) with
  | .counter _ _ => 8
  | .mirror _ => 8
  | _ => 64

/-- The largest of the sizes of Table 10-6 that is aligned at `a` and at most `n`. -/
def loadSize (a n : Nat) : Nat := (([64, 32, 16, 8, 4, 2].find? (fun z => a % z == 0 && decide (z ≤ n))).getD 1)

/-- The aligned pieces of `n` bytes inside one sector, none wider than `w`. -/
def loadPieces (w : Nat) : Nat → Nat → Nat → List (Nat × Nat)
  | 0, _, _ => []
  | f + 1, a, n =>
    let z := loadSize a (min w n)
    if n = 0 then [] else (a, z) :: loadPieces w f (a + z) (n - z)

/-- Issue the loads of a range that go out; those of a Tug name the place in its stream of what they read. -/
def issueLoads (s : State) (c : Cmd) (p : Purpose) (a len : Nat) : State :=
  (sectorParts a len).foldl (fun t x =>
    if goesOut t x.1 then
      (loadPieces (widest t x.1) 64 x.1 x.2).foldl (fun u q =>
        issueWork u (workReq u c .load q.1 q.2 (workChannel c)) { p with off := p.off.map (· + (q.1 - a)) }) t
    else t) s

/-- A masked store of `n` bytes of `bs`, which start at `a`, at address `x` inside one sector. -/
def maskedStore (s : State) (c : Cmd) (a : Nat) (bs : List Byte) (x n : Nat) : WireReq :=
  let o := x % 64
  { workReq s c .store (x - o) 64 (workChannel c) with
    mask := BitVec.ofNat 64 ((2 ^ n - 1) * 2 ^ o)
    data := List.replicate o 0#8 ++ sliceBytes bs (x - a) n ++ List.replicate (64 - o - n) 0#8 }

/-- Issue the stores of a run of bytes that go out, one masked sector at a time; counters and the mirror take whole words. -/
def issueStores (s : State) (c : Cmd) (p : Purpose) (a : Nat) (bs : List Byte) : State :=
  (sectorParts a bs.length).foldl (fun t x =>
    if goesOut t x.1 then
      if widest t x.1 = 64 then issueWork t (maskedStore t c a bs x.1 x.2) p
      else (loadPieces 8 64 x.1 x.2).foldl (fun u q => issueWork u (maskedStore u c a bs q.1 q.2) p) t
    else t) s

/-- Issue the stores of staged results that go out. -/
def issueResults (s : State) (c : Cmd) (l : List (Nat × Byte)) : State :=
  (gather l).foldl (fun t r => issueStores t c {} r.1 r.2) s

/-- An earlier request of a berth to the endpoint of an address of the own module, on a channel, has not been performed yet: an
access that the work of a command makes there would overtake it (R24). -/
def overtakes (s : State) (b : Nat) (ch : Channel) (a : Nat) : Bool :=
  let k := servingSite s (addrLocal a)
  (s.reqs.out.any (fun o => decide (o.served = none) && o.req.srcSite == b && o.dstPos == ownPos s && o.dstSite == k &&
      decide (o.req.ch = ch) && addrTile s o.req.addr == addrTile s a) ||
   s.reqs.ingress.any (fun e => e.2.srcPos == ownPos s && e.2.srcSite == b && e.2.bar2.isNone && e.1 == k &&
      decide (e.2.ch = ch) && addrTile s e.2.addr == addrTile s a)) &&
  addrPos a == ownPos s && !goesOut s a

/-- Add to a counter, as the berth of a command sends it: on the own module at once, with what it meets (R335); elsewhere, to
a silent site, and behind an earlier request that it would overtake (R24), as an 8-byte ADD on CTL (R329). -/
def sendAddition (s : State) (c : Cmd) (a : Nat) (v : W64) : State × Option (Nat × Nat) :=
  if goesOut s a || overtakes s c.berth .ctl a then (issueWork s { workReq s c .atomic a 8 .ctl with opP := v } {}, none)
  else addFrom s c.berth a v

/-- A request of a command, or of one of its nodes, is still to be answered or ended. -/
def requestsOpen (s : State) (id : CmdId) : Bool :=
  s.reqs.out.any (fun o => decide (o.req.srcCtx = some id) ||
    (decide (id.node = none) && (match o.req.srcCtx with
      | some i => i.ctx == id.ctx && i.seq == id.seq
      | none => false)))

/-- The requests of one chunk of a Tug's command that are still to be answered or ended. -/
def chunkOpen (s : State) (id : CmdId) (k : Nat) : Bool :=
  s.reqs.out.any (fun o => decide (o.req.srcCtx = some id) && decide (o.chunk = some k))

end Sys2Proof.Machine
end

