-- ==== Sys2Proof/Machine/Domains.lean ====
section
/-! DEFINITION. Power-domain controllers: transitions one at a time, in order (R400 to R405), and whether the regions
and engines a command needs are on (R212, R213, R404). -/

namespace Sys2Proof.Machine

/-- A transition reaches its controller: it begins at once or queues (R405). -/
def Domain.push (d : Domain) (st : DomState) (who : Option Route) : Domain :=
  if d.busy = none then { d with busy := some st, who := who } else { d with queue := d.queue ++ [(st, who)] }

/-- The domain is on, with nothing in progress and no DOMAIN_SET waiting for it (R404). -/
def Domain.ready (d : Domain) : Bool :=
  decide (d.state = .on) && decide (d.busy = none) && decide (d.queue = []) && decide (d.waiting = none)

/-- How deep a state is: on, retention, off. -/
def DomState.depth : DomState → Nat
  | .on => 0
  | .retention => 1
  | .off => 2

/-! ## Crossings of a domain (R373, R377, R378; log entry 16) -/

/-- The blocks whose clock borders on a domain's, as domain numbers: neighbouring regions, a region and its engine, a quay and
its links' recovered clocks, the base fabric, the Harbourmasters, the always-on domain and the management bus (Table 12-2). -/
def neighbours (d : Nat) : List Nat :=
  match domKind d with
  | .region b e =>
    (if e % 4 = 0 then [] else [regionDom b (e - 1)]) ++ (if e % 4 = 3 then [] else [regionDom b (e + 1)]) ++
    (if e < 4 then [] else [regionDom b (e - 4)]) ++ (if 12 ≤ e then [] else [regionDom b (e + 4)]) ++
    [engineDom b e, 3, 0]
  | .engine b e => [regionDom b e, 3, 0]
  | .stack _ => [3, 0]
  | .quay q => [3, 0, linkBlock (3 * q), linkBlock (3 * q + 1), linkBlock (3 * q + 2)]
  | .pcie => [3, 1, 2, 0]
  | .fabric => [1, 2, 0]
  | .hm i => [2 - i, 3, 0]
  | .alwaysOn => [busBlock]
  | _ => []

/-- The class of a crossing (Table 12-2). -/
inductive CrossClass where
  | deterministic | asynchronous | elastic
  deriving DecidableEq, Repr

/-- The class of the crossing of two blocks, none where they share none (R373; log entry 16). -/
def crossClass (a b : Nat) : Option CrossClass :=
  if (neighbours a).contains b || (neighbours b).contains a then
    match domKind a, domKind b with
    | .region _ _, .region _ _ => some .deterministic
    | _, _ => some (if isLinkBlock a || isLinkBlock b then .elastic else .asynchronous)
  else none

/-- What a crossing has in flight has been delivered: no request that has passed it still waits for its answer to come back over
it (R378). -/
def delivered (s : State) (a b : Nat) : Bool :=
  !s.reqs.out.any (fun o => !o.held && o.served.isSome && passes a b (pathDoms s o))

/-- Every crossing of a domain whose clock is to stop on purpose takes no new entry; one that has failed stays FAILED (R378,
R379). -/
def parkDomain (s : State) (d : Nat) : State :=
  (neighbours d).foldl (fun t n => if getCrossing t d n = .active then setCrossing t d n .parking else t) s

/-- The crossings of a domain may be marked PARKED: every entry in flight has been delivered, which takes the clocks of both
sides (R378, R379). -/
def parkable (s : State) (d : Nat) : Bool :=
  !clockStopped s d && (neighbours d).all (fun n => getCrossing s d n != .parking || (delivered s d n && !clockStopped s n))

/-- The crossings of a domain are PARKED (R378). -/
def finishPark (s : State) (d : Nat) : State :=
  (neighbours d).foldl (fun t n => if getCrossing t d n = .parking then setCrossing t d n .parked else t) s

/-- A domain is on, and its clock is not about to stop. -/
def Domain.runs (x : Domain) : Bool := decide (x.state = .on) && (x.busy == none || x.busy == some .on)

/-- A domain that is on again unparks its crossings with zero counts at both ends, save those whose other side is parked or about
to be (R378). -/
def unparkDomain (s : State) (d : Nat) : State :=
  let back (k : Nat) (c : Crossing) : Crossing :=
    let a := k / 65536
    let b := k % 65536
    if c.state = .parked ∧ (a = d ∧ (getDomain s b).runs ∨ b = d ∧ (getDomain s a).runs) then {} else c
  { s with crossings := tabMap {} back s.crossings }

/-- A reset of blocks by the module's recovery: the FAILED crossings on them are served again, with counts of zero at both
ends, and their stopped generators run (R372, R377). A crossing whose other block sleeps is PARKED. -/
def blockReset (s : State) (hit : Nat → Bool) : State :=
  let back (k : Nat) (c : Crossing) : Crossing :=
    if c.state = .failed ∧ (hit (k / 65536) || hit (k % 65536)) = true then
      { state := if (getDomain s (k / 65536)).state = .on ∧ (getDomain s (k % 65536)).state = .on then .active else .parked }
    else c
  { s with
    crossings := tabMap {} back s.crossings
    tide := { s.tide with stoppedGens := s.tide.stoppedGens.filter (fun g => !hit g.1) } }

/-- The domain is a region or an engine of berth b. -/
def domOfBerth (b d : Nat) : Bool :=
  match domKind d with
  | .region b' _ => b' == b
  | .engine b' _ => b' == b
  | _ => false

/-! ## Transitions -/

/-- A transition reaches its controller; when it begins at once and stops the clock, the crossings are parked first. -/
def pushDomain (s : State) (d : Nat) (st : DomState) (who : Option Route) : State :=
  let s1 := updDomain s d (fun x => x.push st who)
  if (getDomain s d).busy = none ∧ st ≠ .on then parkDomain s1 d else s1

/-- A transition to a state: a domain in off goes to retention by way of on (R400). -/
def pushVia (s : State) (d : Nat) (st : DomState) (who : Option Route) : State :=
  if (getDomain s d).target = .off ∧ st = .retention then pushDomain (pushDomain s d .on none) d st who
  else pushDomain s d st who

/-- A wake: the domain returns to on unless it is on or on its way there (R157, R213, R405). -/
def wakeDomain (s : State) (d : Nat) : State :=
  if (getDomain s d).target = .on then s else pushDomain s d .on none

/-- Wake an engine: its region first (R402). -/
def wakeEngine (s : State) (b e : Nat) : State := wakeDomain (wakeDomain s (regionDom b e)) (engineDom b e)

/-- A DOMAIN_SET begins: a region takes its engine with it unless the engine is already deeper; an engine that returns
to on, or passes through on from off to retention, first returns its region (R400, R402). -/
def beginSet (s : State) (d : Nat) (st : DomState) (r : Route) : State :=
  match domKind d with
  | .region b e =>
    let s1 := if (getDomain s (engineDom b e)).target.depth < st.depth then pushVia s (engineDom b e) st none else s
    pushVia s1 d st (some r)
  | .engine b e =>
    let on := decide (st = .on) || (decide (st = .retention) && decide ((getDomain s d).target = .off))
    pushVia (if on then wakeDomain s (regionDom b e) else s) d st (some r)
  | _ => pushVia s d st (some r)

/-- A started command of any context of the berth uses region e. -/
def regionInUse (s : State) (b e : Nat) : Bool :=
  (List.range 64).any (fun k => (getCtx s k).flight.any (fun c => c.berth == b && c.began && c.regions.contains e))

/-- A started command of any context of the berth uses engine e. -/
def engineInUse (s : State) (b e : Nat) : Bool :=
  (List.range 64).any (fun k => (getCtx s k).flight.any (fun c => c.berth == b && c.began && c.engines.contains e))

/-- Started commands of the berth that hold a Tug (R333). -/
def tugsUsed (s : State) (b : Nat) : Nat :=
  sumNat ((List.range 64).map (fun k => ((getCtx s k).flight.filter (fun c =>
    c.berth == b && c.began && c.holdsTug)).length))

/-- A started command uses the region or the engine that a domain number names (R404). -/
def domainInUse (s : State) (d : Nat) : Bool :=
  match domKind d with
  | .region b e => regionInUse s b e || engineInUse s b e
  | .engine b e => engineInUse s b e
  | _ => false

/-- Transitions that waited for their users begin once no started command uses their domain (R404). -/
def releaseWaiting (s : State) : State :=
  (s.domains.map (·.1)).foldl (fun t d =>
    match (getDomain t d).waiting with
    | some w =>
      if domainInUse t d then t else beginSet (updDomain t d (fun x => { x with waiting := none })) d w.1 w.2
    | none => t) s

/-- Every region and engine of a command is on and free for new work (R213, R404). -/
def domainsReady (s : State) (b : Nat) (c : Cmd) : Bool :=
  c.regions.all (fun e => (getDomain s (regionDom b e)).ready) &&
  c.engines.all (fun e => (getDomain s (engineDom b e)).ready || !engInService s b e)

/-- Wake the regions and engines of a command that are in retention or off (R213). -/
def wakeFor (s : State) (b : Nat) (c : Cmd) : State :=
  let s1 := c.regions.foldl (fun t e => wakeDomain t (regionDom b e)) s
  c.engines.foldl (fun t e => if engInService s b e then wakeEngine t b e else t) s1

/-! ## Sleep and wake (R406, R407, R495) -/

/-- A wake source of a code fires: on a sleeping module the wake is recorded with the mask of the sources of the same
AOCLK edge and the lowest code among them; the Harbourmaster pair, the base fabric and the domains the source names
return, and a stopped REF starts again. On a module that is awake nothing changes. -/
def wakeModule (s : State) (code : Nat) (same : List Nat) (returns : List Nat) : State :=
  if !s.io.asleep then s
  else
    let codes := code :: same
    let s1 := { s with
      io := { s.io with
        asleep := false
        wakeTide := now s
        wakeCode := codes.foldl min code
        wakeMask := BitVec.ofNat 7 (ofBits (codes.map (· - 1)))
        wakeCount := s.io.wakeCount + 1 }
      tide := { s.tide with refRunning := true, refTries := 0 } }
    let s2 := [1, 2, 3].foldl (fun t d => countEvents t 0 d 1) s1
    ([1, 2, 3] ++ returns).foldl wakeDomain s2

end Sys2Proof.Machine
end

