-- ==== Sys2Proof/Machine/OpticalPlan.lean ====
section
/-! DEFINITION. The plan of optical products: shapes, passes, weight blocks, the deal of row blocks over the engines
(R213, R224 to R226, R230) and the seeds of residual sampling (R96, R97). -/

namespace Sys2Proof.Machine

/-- The shape of an optical product: rows R and columns K of its weight matrix, its vectors, and the vectors of one
pass. -/
structure OptDims where
  rows : Nat
  cols : Nat
  vecs : Nat
  pass : Nat
  deriving DecidableEq, Repr, Inhabited

/-- The products of a command: OPT_MATMUL has one; ATTENTION has S = Q × Kᵀ and then O = P × V (R230). -/
def optDims (c : Cmd) (product : Nat) : OptDims :=
  let q := c.params
  let e := c.opt.engines.length
  let t1 := tdAt q 128
  let t2 := tdAt q 384
  let t3 := tdAt q 640
  if c.opcode = 0x0400 then
    ⟨t1.rows, t1.cols, t2.rows, (batchOf (fld q 64 13) t2.rows (rowBlocks t1.rows e)).getD 1⟩
  else if product = 0 then ⟨t2.rows, t2.cols, t1.rows, (batchOf 0 t1.rows (rowBlocks t2.rows e)).getD 1⟩
  else ⟨t3.cols, t3.rows, t1.rows, (batchOf 0 t1.rows (rowBlocks t3.cols e)).getD 1⟩

/-- The vectors of a pass; the last pass carries what remains (R226). -/
def OptDims.count (d : OptDims) (pass : Nat) : Nat := min d.pass (d.vecs - pass * d.pass)

/-- The scratch a command needs in each region of its engines (R212, R226): its widest product's working set. -/
def scratchNeed (c : Cmd) : Nat :=
  let need (product : Nat) : Nat :=
    let d := optDims c product
    workingSet d.pass (rowBlocks d.rows c.opt.engines.length)
  if c.opcode = 0x0510 then max (need 0) (need 1) else need 0

/-- Scratch of region e that started commands of the berth hold (R212). -/
def scratchUsed (s : State) (b e : Nat) : Nat :=
  sumNat ((List.range 64).map (fun k => sumNat ((getCtx s k).flight.map (fun c =>
    if c.berth == b && c.began && c.engines.contains e then scratchNeed c else 0))))

/-- The weight blocks of a product in the order of R225, each with the engine that owns its row block. -/
def planBlocks (engines : List Nat) (product : Nat) (d : OptDims) : List (Nat × OptBlock) :=
  let e := max engines.length 1
  (List.range (ceilDiv d.vecs (max d.pass 1))).flatMap (fun p =>
    (List.range (ceilDiv d.cols 128)).flatMap (fun c =>
      (List.range (ceilDiv d.rows 128)).map (fun g => (engines.getD (g % e) 0, ⟨product, p, g, c⟩))))

/-- A block comes no later than another in the order of passes and column segments (R225). -/
def OptBlock.before (a b : OptBlock) : Bool :=
  decide (a.product < b.product) || (a.product == b.product &&
    (decide (a.pass < b.pass) || (a.pass == b.pass && decide (a.c ≤ b.c))))

/-- Put a dealt block after the engine's own blocks of the same column segment (R225). -/
def insertBlock (e : Nat) (b : OptBlock) (todo : List (Nat × OptBlock)) : List (Nat × OptBlock) :=
  let after := todo.reverse.takeWhile (fun x => !(x.1 == e && x.2.before b))
  todo.take (todo.length - after.length) ++ [(e, b)] ++ after.reverse

/-- The row blocks of an engine that left are dealt out, in ascending g, round robin over the engines that stay,
starting with the lowest (R104, R225). -/
def redeal (gone : Nat) (live : List Nat) (todo : List (Nat × OptBlock)) : List (Nat × OptBlock) :=
  let moved := todo.filter (fun x => x.1 == gone)
  let rest := todo.filter (fun x => x.1 != gone)
  let gs := moved.foldl (fun l x => insertNat x.2.g l) []
  let others := live.filter (· != gone)
  if others = [] then rest
  else moved.foldl (fun t x => insertBlock (others.getD (gs.idxOf x.2.g % others.length) 0) x.2 t) rest

/-- The engine runs a block, or waits for its last outputs. -/
def Engine.works (x : Engine) (id : CmdId) (k : OptBlock) : Bool :=
  (match x.run with
   | some r => decide (r.id = id) && decide (r.block = k)
   | none => false) ||
  (match x.finishing with
   | some r => decide (r.id = id) && decide (r.block = k)
   | none => false)

/-- The blocks of a command that an engine out of rotation does not run are run by the other engines of the set that are in
rotation, when there are any (R102, R458). -/
def lendOf (s : State) (e : Nat) (c : Cmd) : Cmd :=
  let x := getEngine s c.berth e
  let live := c.opt.engines.filter (fun k => k != e && decide ((getEngine s c.berth k).rotation = .inRotation))
  if live = [] then c
  else
    let kept := c.opt.todo.filter (fun t => t.1 == e && x.works c.id t.2)
    let rest := c.opt.todo.filter (fun t => !(t.1 == e && x.works c.id t.2))
    { c with opt := { c.opt with todo := kept ++ redeal e live rest } }

/-- Every engine of the command's set that is out of rotation lends its blocks. -/
def lendOut (s : State) (c : Cmd) : Cmd :=
  (c.opt.engines.filter (fun e => decide ((getEngine s c.berth e).rotation = .outOfRotation))).foldl
    (fun m e => lendOf s e m) c

/-- The 16-bit seed value of a command's first product (R96, R97). -/
def seedValue (id : CmdId) : Nat :=
  match id.node with
  | none => id.seq % 2 ^ 16
  | some (i, j) => (id.seq + 64 * j + i) % 2 ^ 16

/-- The starting state of an engine's sampling register (R96, R97). -/
def lfsrSeed (value product engine : Nat) : W16 :=
  let v := if product = 0 then value else value ^^^ 0x0800
  let x := BitVec.ofNat 16 (v ^^^ (engine <<< 12))
  if x = 0 then 0xACE1#16 else x

/-- One step of the sampling register (R96). -/
def lfsrStep (x : W16) : W16 :=
  let b := x.getLsbD 0 ^^ x.getLsbD 2 ^^ x.getLsbD 3 ^^ x.getLsbD 5
  (x >>> 1) ||| (if b then 0x8000#16 else 0#16)

/-- The register selects the row: its low n bits are zero (R96). -/
def lfsrSamples (n : Nat) (x : W16) : Bool := x.toNat % 2 ^ n == 0

/-- Engines and regions a command needs, and what check 4 fixed for an optical one (R212, R226). -/
def planResources (s : State) (c : Cmd) : Cmd :=
  let q := c.params
  let b := c.berth
  if isOptical c.opcode q then
    let e := enginesCounted s b (cEngset q)
    let c1 := { c with engines := setBits 16 (cEngset q), regions := setBits 16 (cEngset q) }
    let c2 := { c1 with opt := { c1.opt with engines := e } }
    { c2 with opt := { c2.opt with batch := (optDims c2 0).pass } }
  else if c.opcode / 256 = 3 ∨ c.opcode / 256 = 5 ∨ c.opcode / 256 = 6 then { c with regions := regionsUsed q }
  else if isTug c.opcode then { c with holdsTug := true }
  else c

/-- The Tally part of an optical command at dispatch: class, mode and sampling interval (R88, R119). -/
def planTally (s : State) (c : Cmd) (bound : Bool) (tReq : Nat) : Cmd :=
  let q := c.params
  let k := if bound then chooseClass (classCount s) tReq else (cClass q, false)
  { c with tally := { c.tally with cls := k.1, unreachable := k.2, boundMode := bound, nlog := nlogOf q } }

/-- The blocks of product `product` are planned over the engines counted at fetch; those that have left service since
are dealt out at once (R225), and those out of rotation lend theirs (R102). -/
def planProduct (s : State) (c : Cmd) (product : Nat) : Cmd :=
  let b := c.berth
  let live := c.opt.engines.filter (engInService s b)
  let gone := c.opt.engines.filter (fun e => !engInService s b e)
  let todo := gone.foldl (fun t e => redeal e live t) (planBlocks c.opt.engines product (optDims c product))
  lendOut s { c with opt := { c.opt with
      todo := todo
      stage := product + 1
      seedValue := seedValue c.id } }

/-- A place in the rotation of each engine of the set (R212, R213). -/
def joinRotation (s : State) (c : Cmd) : State :=
  c.engines.foldl (fun t e => updEngine t (c.berth) e (fun x =>
    { x with rotationList := addNew c.id x.rotationList })) s

end Sys2Proof.Machine
end

