-- ==== Sys2Proof/Machine/Resets.lean ====
section
/-! DEFINITION. What the resets do, as operations that several commands share: the end of a context (R199, R201), the
reset of an engine (R105), of a partition (R335, R425, R444), of one berth (R468) and of the module (R421 to R425), and
the crash dump (R484). -/

namespace Sys2Proof.Machine

/-! ## Ending a context (R32, R199, R201) -/

/-- A request held at its source for context c, not yet sent. -/
def heldFor (c : Nat) (o : OutReq) : Bool :=
  o.held && (match o.req.srcCtx with
    | some id => id.ctx == c
    | none => false)

/-- A route that leads to a ring of context c. -/
def routeOf (c : Nat) (r : Route) : Bool :=
  match r with
  | .ring id => id.ctx == c
  | .mailbox _ => false

/-- A DOMAIN_SET of an ended context that still waits for its users is withdrawn. -/
def Domain.withdraw (d : Domain) (p : Route → Bool) : Domain :=
  { d with
    waiting := d.waiting.filter (fun w => !p w.2)
    queue := d.queue.filter (fun q => !(q.2.any p)) }

/-- The DOMAIN_SETs of the requests that `p` picks are withdrawn where they have not begun; with one that a region has queued
goes the entry of its engine (R402, R404). -/
def withdrawSets (s : State) (p : Route → Bool) : State :=
  let partners (k : Nat) : List DomState := match domKind k with
    | .engine b e => ((getDomain s (regionDom b e)).queue.filter (fun q => q.2.any p)).map (·.1)
    | _ => []
  { s with domains := tabMap {} (fun k d =>
      ({ d with queue := (partners k).foldl (fun l st => l.erase (st, none)) d.queue }).withdraw p) s.domains }

/-- End every command in flight of context c without an entry, and close the context (R199, R201). `g` is what its
generation tag becomes. -/
def endCtx (s : State) (c : Nat) (g : BitVec 8 → BitVec 8) : State :=
  let s1 := updCtx s c (fun x => { x with state := .closed, gen := g x.gen, flight := [] })
  releaseWaiting { s1 with
    reqs := { s1.reqs with out := s1.reqs.out.filter (fun o => !heldFor c o) }
    graphs := { s1.graphs with
      runs := s1.graphs.runs.filter (fun r => r.id.ctx != c)
      edges := s1.graphs.edges.filter (fun e => e.1.ctx != c)
      colls := s1.graphs.colls.map (fun k => { k with arrived := k.arrived.filter (fun i => i.ctx != c) }) }
    recovery := { s1.recovery with
      tests := s1.recovery.tests.map (fun t => { t with who := t.who.filter (fun r => !routeOf c r) })
      gather := s1.recovery.gather.filter (fun g => !routeOf c g.who) }
    domains := (withdrawSets s1 (routeOf c)).domains }

/-- The context abort of R199: every command in flight ends, the context is CLOSED and its generation rises by 1. -/
def abortCtx (s : State) (c : Nat) : State := endCtx s c (· + 1)

/-! ## Engine reset (R105, R467 rung 2) -/

/-- What an engine reset clears: both banks, staging and runs. Outputs on their way keep their tag and are dropped when
they arrive (R105). A thermal pause goes on until its slope allows (R101). `g` is what the generation tag becomes. -/
def Engine.clear (e : Engine) (g : BitVec 8 → BitVec 8) : Engine :=
  { e with
    gen := g e.gen
    bankA := {}
    bankB := {}
    activeB := false
    guard := false
    run := none
    finishing := none
    staging := []
    paused := e.paused || e.pauseWanted
    pauseWanted := false
    calRepeat := false
    rotationList := []
    ranSince := [] }

/-- The commands in progress on an engine: started, of its berth, with the engine in their set (R105). -/
def onEngine (b e : Nat) (c : Cmd) : Bool :=
  c.began && c.engines.contains e && c.berth == b

/-- The commands of a berth that an engine ended complete with S_ABORTED, and no unit works for them any more (R32,
R105). A command that its timeout is stopping keeps S_TIMEOUT (Table 15-6 step 6). -/
def abortOnEngine (s : State) (b e : Nat) : State :=
  let hit (c : Cmd) : Bool := onEngine b e c && decide (c.phase ≠ .finished) && decide (c.phase ≠ .stopping)
  let stop (c : Cmd) : Cmd := { c.note S_ABORTED 0 with phase := .finished, tideEnd := now s }
  (List.range 64).foldl (fun t k => updCtx t k (fun x => { x with flight := mapIf hit stop x.flight })) s

/-- An engine reset begins: commands in progress end with S_ABORTED, banks and staging are cleared; the tag rises when
the reset ends (Table 15-6). -/
def beginEngineReset (s : State) (b e : Nat) : State :=
  updEngine (abortOnEngine s b e) b e (fun x => { x.clear (fun g => g) with resetting := true })

/-! ## Rungs of the ladder (R467, R468) -/

/-- A rung is taken: fault event 0x0403 with OUTCOME 4 names the rung and the unit, and the rung is in progress. -/
def takeRung (s : State) (rung reach unit site : Nat) : State :=
  raise { s with recovery := { s.recovery with rungs := s.recovery.rungs ++ [(rung, reach, unit, now s)] } }
    { code := 0x0403
      outcome := 4
      site := site
      unit := rung
      arg := unit }

/-- A reset that is not a rung of the ladder is timed like one (Table 15-5). -/
def noteRung (s : State) (rung reach unit : Nat) : State :=
  if s.recovery.rungs.any (fun r => r.1 == rung && r.2.1 == reach) then s
  else { s with recovery := { s.recovery with rungs := s.recovery.rungs ++ [(rung, reach, unit, now s)] } }

/-- A rung has ended. -/
def endRung (s : State) (rung reach : Nat) : State :=
  { s with recovery := { s.recovery with
    rungs := s.recovery.rungs.filter (fun r => !(r.1 == rung && r.2.1 == reach)) } }

/-! ## Crash dump (R484) -/

/-- A crash dump record is written; the newest of four overwrites the oldest. -/
def writeDump (s : State) : State :=
  let events := s.faults.log ++ s.faults.unlogged
  let d : DumpRecord :=
    { number := s.recovery.dumpCount
      tide := now s
      inst := s.recovery.active
      mbx := s.mbx
      ctxs := s.ctxs
      crossings := s.crossings
      events := events.drop (events.length - 65536) }
  let l := s.recovery.dumps ++ [d]
  { s with recovery := { s.recovery with dumps := l.drop (l.length - 4), dumpCount := s.recovery.dumpCount + 1 } }

/-! ## Error log (R483) -/

/-- Events not yet in the error log are written to it; it holds the latest 1 048 576. -/
def FaultGroup.flush (f : FaultGroup) : FaultGroup :=
  let l := f.log ++ f.unlogged
  { f with log := l.drop (l.length - 1048576), logCount := f.logCount + f.unlogged.length, unlogged := [] }

/-! ## Reset of berths and partitions (R425, R335, R443, R444, R464) -/

/-- A module-local address lies in the DRAM span or in a tile window of berth b. -/
def inBerth (part b loc : Nat) : Bool :=
  match placeOf part loc with
  | .dram b' => b' == b
  | .tile b' _ _ => b' == b
  | _ => false

/-- A module-local address lies in a tile window of berth b. -/
def inTiles (part b loc : Nat) : Bool :=
  match placeOf part loc with
  | .tile b' _ _ => b' == b
  | _ => false

/-- Bytes, poison and counters of a berth become zero; `dram` says whether its DRAM span is zeroed too (R335, R444). -/
def zeroBerth (s : State) (dram : Bool) (b : Nat) : State :=
  let hit (loc : Nat) : Bool := if dram then inBerth s.ident.part b loc else inTiles s.ident.part b loc
  { s with mem := { s.mem with
      cells := tabClear hit s.mem.cells
      poison := tabClear (fun k => hit (k * 64)) s.mem.poison
      poisonWord := tabClear (fun k => hit (k * 8)) s.mem.poisonWord
      counters := tabClear (fun k => k / 4096 == b) s.mem.counters } }

/-- The narrower rungs within a berth, those of its contexts and engines, are taken over by a reset of the berth (R469). -/
def takeOver (s : State) (b : Nat) : State :=
  { s with recovery := { s.recovery with
    rungs := s.recovery.rungs.filter (fun r => !(r.1 == 1 && r.2.1 / 8 == b) && !(r.1 == 2 && r.2.1 / 16 == b)) } }

/-- A reset reaches a berth: its contexts are closed, its engines cleared, their tags and its role epoch rise by 1, its
memory becomes zero (Table 14-2); a reset of one of its engines that was under way ends with it (R469). -/
def resetBerth (s : State) (dram : Bool) (b : Nat) : State :=
  let s1 := (List.range 8).foldl (fun t k => abortCtx t (8 * b + k)) s
  let s2 := (List.range 16).foldl (fun t e => updEngine t b e (fun x => { x.clear (· + 1) with resetting := false })) (takeOver s1 b)
  let s3 := blockReset (zeroBerth s2 dram b) (domOfBerth b)
  updSite { s3 with reqs := { s3.reqs with
      ingress := s3.reqs.ingress.filter (fun r => r.1 != b) } } b
    (fun k => { k with epoch := k.epoch + 1, drain := none })

/-- The number of a key, the slot its segment lies in, and the stack and channel that hold it (R262). -/
def keyNat (k : SegKey) : Nat := segKeyNat k.stack k.channel k.segment
def slotOfKey (s : State) (k : SegKey) : Option Nat := tabGet none s.pool.remap (keyNat k)
def homeOfKey (s : State) (k : SegKey) : Nat × Nat :=
  match slotOfKey s k with
  | some x => (x / 256, x % 256 / 16)
  | none => (k.stack, k.channel)

/-- The layers of retired channels are switched off, but for a layer that holds data in use: a retired range that still
returns its data (R261, R269, R271). -/
def switchLayers (s : State) : State :=
  let inUse (n c : Nat) : Bool := s.pool.ranges.any (fun r => !r.closed && homeOfKey s r.key == (n, c))
  { s with stackTab := tabMap {} (fun n k => { k with
      layers := (List.range 16).foldl (fun t c =>
        if (tabGet {} k.channels c).state = .retired ∧ inUse n c = false then tabUpd {} t c (fun l => { l with off := true })
        else t) k.layers }) s.stackTab }

/-- Retired ranges of the spans of a berth no longer return data (R269). -/
def closeRanges (s : State) (b : Nat) : State :=
  switchLayers { s with pool := { s.pool with ranges := s.pool.ranges.map (fun r =>
      if (rangeFirst s.ident.part (spread s) r.key.stack r.key.channel r.key.segment) / spanBytes = b then
        { r with closed := true } else r) } }

/-- A partition reset begins (R423, R425): a second source for the same partition joins the reset in progress; during
a module reset the source is dropped and counted. -/
def beginPartitionReset (s : State) (p cause : Nat) : State :=
  if !s.rst.ready then { s with sec := { s.sec with droppedSources := s.sec.droppedSources + 1 } }
  else if (getPart s p).resetting then s
  else
    let s1 := (partBerths s p).foldl (fun t b => closeRanges (resetBerth t true b) b) s
    let s2 := { s1 with graphs := { s1.graphs with slots := tabClear (fun k => k / 16 == p) s1.graphs.slots } }
    updPart (noteRung s2 3 p p) p (fun x =>
      { x with gen := x.gen + 1, key := x.key + 1, resetting := true, cause := cause })

/-- Rung 3 for a berth: a partition reset, or a block reset of a berth that belongs to no partition (R468). -/
def resetBerthRung (s : State) (b cause : Nat) : State :=
  match berthPart s b with
  | some p => beginPartitionReset s p cause
  | none => resetBerth s false b

/-! ## Module reset (R421 to R425, Table 14-2) -/

/-- What survives of a Lighthouse: its faults and its retirement. -/
def Lighthouse.keep (forget : Bool) (l : Lighthouse) : Lighthouse :=
  if forget then {} else { l with testing := false }

/-- The Lighthouse of a pair that is active after a reset: number 0, unless it is retired and the other is not. -/
def lhAfterReset (forget : Bool) (a b : Lighthouse) : Nat := if a.retired && !b.retired && !forget then 1 else 0

/-- What survives of an engine: its tag (+1, or 0), its retirement, spares in use, Lighthouses, and the tables of its
last calibration in non-volatile memory. -/
def Engine.keep (forget power : Bool) (e : Engine) : Engine :=
  let left := decide (e.rotation = .left) && !forget
  { rotation := if left then .left else .inRotation
    reason := if left then e.reason else 0
    gen := if power then 0 else e.gen + 1
    calTemp := e.calTemp
    tables := e.tables
    lineMap := if forget then [] else e.lineMap
    rowMap := if forget then [] else e.rowMap
    linePend := if forget then [] else e.linePend
    rowPend := if forget then [] else e.rowPend
    lineFailed := if forget then [] else e.lineFailed
    rowFailed := if forget then [] else e.rowFailed
    lhActive := lhAfterReset forget e.lh0 e.lh1
    lh0 := e.lh0.keep forget
    lh1 := e.lh1.keep forget }

/-- What survives of a region: the use of its spare by a retired core; a spare that stood in for a test is free (R459, R463). -/
def Region.keep (r : Region) : Region :=
  if r.forTest then {} else { spare := r.spare, substituted := r.substituted, substituting := r.substituting }

/-- What survives of a channel: retirement, retired connections, spare rows used, an evacuation in progress (R267). The
connections that serve are chosen again at the next start (R302). -/
def StackChannel.keep (forget : Bool) (c : StackChannel) : StackChannel :=
  if forget then {}
  else
    { state := c.state
      freeConn := 64 - c.retiredConn.length
      spared := c.retiredConn
      retiredConn := c.retiredConn
      rowsUsed := c.rowsUsed
      evacuating := c.evacuating }

/-- What survives of a stack; the layers of its retired channels are off. -/
def Stack.keep (forget : Bool) (k : Stack) : Stack :=
  { channels := tabMap {} (fun _ c => c.keep forget) k.channels
    layers := if forget then [] else tabBuild (fun _ => {}) 16 (fun c =>
      { off := decide ((tabGet {} k.channels c).state = .retired) })
    evac := if forget then [] else k.evac
    bundles := if forget then [] else tabMap {} (fun _ b => { retired := b.retired }) k.bundles }

/-- What survives of a pair direction, and of a fabric port. -/
def PairDir.keep (forget : Bool) (p : PairDir) : PairDir := if forget then {} else { retired := p.retired }
def FabricPort.keep (forget : Bool) (p : FabricPort) : FabricPort :=
  { lhActive := lhAfterReset forget p.lh0 p.lh1, lh0 := p.lh0.keep forget, lh1 := p.lh1.keep forget }

/-- What survives of a site: its retirement, its epoch (+1, or 0). -/
def Site.keep (forget power : Bool) (k : Nat) (x : Site) : Site :=
  let gone := x.retired && !forget
  { siteInit k with
    role := if gone then 0xFF else (siteInit k).role
    epoch := if power then 0 else x.epoch + 1
    retired := gone }

/-- What survives of a Harbourmaster instance. -/
def HmInst.keep (forget : Bool) (h : HmInst) : HmInst :=
  if forget then {} else { faults := h.faults, retired := h.retired }

/-- The Tide after a reset (Table 12-4). -/
def TideGroup.keep (t : TideGroup) (code : Nat) : TideGroup :=
  if code = 1 then {}
  else
    let u : TideGroup :=
      { count := t.count
        rate := t.rate
        latchAo := t.latchAo
        aoPhase := t.aoPhase
        alarm := t.alarm
        freq := t.freq
        holdover := t.holdover }
    if code = 7 ∨ (code = 2 ∧ t.refRunning = false) then u
    else { u with mode := t.mode, refGood := t.refGood, refRunning := t.refRunning, locked := t.locked }

/-- A slave that no longer hears its source of Tide is in holdover since its last synchronisation (R389, R390). -/
def TideGroup.unsynced (t : TideGroup) (last : Option Nat) : TideGroup :=
  match t.holdover with
  | some _ => t
  | none => { t with holdover := last }

/-- The event ring, held events and counts return to their reset values; the error log stays, with the events not yet
in it, save at a power-on (R425, R485). -/
def FaultGroup.keep (f : FaultGroup) (power erase : Bool) : FaultGroup :=
  let g := if power then f else f.flush
  { log := if erase then [] else g.log
    logCount := g.logCount
    seq := if power then 0 else g.seq }

/-- Protection across a module reset (Table 14-2, R439, R443, R447): the seal and the Breakwater go until stage B8, the
presence window and debug close; keys, images, the floor and a pending erase stay, save where the erase is done. -/
def SecGroup.keep (x : SecGroup) (power : Bool) : SecGroup :=
  let erase := power && x.erasePending
  { activeCfg := if erase then none else x.activeCfg
    staged := if erase then none else x.staged
    parts := tabBuild (fun _ => {}) 8 (fun p =>
      let q := tabGet {} x.parts p
      { gen := if power then 0 else q.gen + 1, key := q.key })
    keys := if erase then [] else x.keys
    sealBroken := x.sealBroken
    buttonSince := x.buttonSince
    erasePending := x.erasePending && !power
    release := x.release
    floor := match x.rollback with
      | some r => (r.2.1, r.2.2)
      | none => x.floor
    slots := x.slots
    slotB := x.slotB
    bootSlot := match x.rollback with
      | some r => r.1
      | none => x.bootSlot }

/-- The reset record (Table 16-5, R423): while another module reset runs its boot, the first cause stays and the mask
gains the new source. -/
def ResetGroup.keep (r : ResetGroup) (code tide logged : Nat) (erase : Bool) : ResetGroup :=
  let b := BitVec.ofNat 8 (2 ^ (code - 1))
  { cause := if r.ready || code == 1 then code else r.cause
    mask := if r.ready || code == 1 then b else r.mask ||| b
    resets := if code = 1 then 0 else min (r.resets + 1) 0xFF
    step := 1
    time0 := tide
    allowance := if erase then 30000000000 else 0
    heldByPin := r.heldByPin
    failedResets := if code = 1 then 0 else r.failedResets
    readyLog := r.readyLog
    resetLog := logged }

/-- A module reset of a source code 0x01 to 0x08 (R421, R425), or of code 0x10 or 0x11 for heat and the ladder (log
entry 27): Table 14-2. DRAM, tile SRAM and counters become zero;
contexts are CLOSED; boot starts from B0. -/
def moduleReset (s : State) (code : Nat) : State :=
  let power := decide (code = 1)
  let forget := s.sec.lifetimeReset
  let faults := s.faults.keep power (power && s.sec.erasePending)
  { pending := s.pending
    ident := { s.ident with modIdRev := 0 }
    rst := s.rst.keep code (if power then 0 else now s) faults.logCount (power && s.sec.erasePending)
    sec := s.sec.keep power
    tide := (s.tide.keep code).unsynced (if code = 1 ∨ harbourSize s < 2 ∨ s.harbour.master = ownPos s then none
      else some s.harbour.lastSync)
    mem := { host := s.mem.host, hostBad := s.mem.hostBad }
    ctxs := tabBuild (fun _ => {}) 64 (fun c => { gen := if power then 0 else (getCtx s c).gen + 1 })
    sites := tabBuild siteInit 49 (fun k => (getSite s k).keep forget power k)
    regions := if forget then [] else tabMap {} (fun _ r => r.keep) s.regions
    tiles := if forget then [] else tabMap {} (fun _ t => { retired := t.retired }) s.tiles
    engines := tabBuild (fun _ => {}) 128 (fun k => (tabGet {} s.engines k).keep forget power)
    stackTab := tabMap {} (fun _ k => k.keep forget) s.stackTab
    pool :=
      { remap := s.pool.remap
        wanted := s.pool.wanted
        ranges := if forget then [] else s.pool.ranges.map (fun r => { r with closed := true }) }
    pairs := tabMap {} (fun _ p => p.keep forget) s.pairs
    ports := tabMap {} (fun _ p => p.keep forget) s.ports
    harbour :=
      { hbrPos := if power then 0 else s.harbour.hbrPos
        hbrMembers := if power then 1 else s.harbour.hbrMembers
        epochs := tabBuild (fun _ => 0) 49 (fun k => if power then 0 else (getSite s k).epoch + 1)
        quayLh := tabMap {} (fun _ p => p.keep forget) s.harbour.quayLh }
    power := { s.power with cycleReq := s.power.cycleReq && !power }
    recovery :=
      { lifetime := if forget then [] else s.recovery.lifetime
        hmA := s.recovery.hmA.keep forget
        hmB := s.recovery.hmB.keep forget
        lastSwitch := s.recovery.lastSwitch
        dumps := if power && s.sec.erasePending then [] else s.recovery.dumps
        dumpCount := s.recovery.dumpCount
        nvCal := s.recovery.nvCal }
    faults := faults
    io :=
      { mpDynamic := if power then none else s.io.mpDynamic
        straps := if power then s.io.strapPins else s.io.straps
        strapPins := s.io.strapPins
        wakeCount := if power then 0 else s.io.wakeCount
        wakeMask := if power then 0 else s.io.wakeMask
        wakeCode := if power then 0 else s.io.wakeCode
        wakeTide := if power then 0 else s.io.wakeTide }
    sent := s.sent
    fresh := s.fresh }

/-- A module reset by the ladder or by a stopped Harbourmaster writes a crash dump first (R484). -/
def dumpReset (s : State) (code : Nat) : State := moduleReset (writeDump s) code

end Sys2Proof.Machine
end

