-- ==== Sys2Proof/Machine/Commands.lean ====
section
/-! DEFINITION. Rings, doorbells and mailboxes (spec/06_command_interface.md, spec/16_register_map.md): the doorbell,
COMMAND_FETCH, COMMAND_START, the submission of a mailbox request, and how Blunen serves a request and answers it. -/

namespace Sys2Proof.Machine

/-! ## Doorbells (R177, R179, R428, R492, R504) -/

/-- The page of the doorbell of context c is open to the path: a present berth, and for a virtual function that is present a
berth of its own partition (R492, R513). -/
def doorbellOpen (s : State) (path : DoorbellPath) (c : Nat) : Bool :=
  hasCtx s c && (match path with
    | .bar0 fn => fn == 0 || (ctxFn s c == fn && fnPresent s fn)
    | .mirror => true)

/-- SQ_TAIL. -/
def execSqTail (path : DoorbellPath) (ctx : Nat) (value : W32) (s : State) : Out :=
  .next (if doorbellOpen s path ctx then doorbellHalf s ctx false value else s)

/-- CQ_HEAD. -/
def execCqHead (path : DoorbellPath) (ctx : Nat) (value : W32) (s : State) : Out :=
  .next (if doorbellOpen s path ctx then doorbellHalf s ctx true value else s)

/-! ## Rings (R173 to R176) -/

/-- A slot can be read or written: none of its host bytes is out of reach, or its module DRAM answers (R198). -/
def slotOk (s : State) (c : Nat) (host : Bool) (k : AccessKind) (a len : Nat) : Bool :=
  if host then !s.mem.hostBad.any (fun b => decide (a ≤ b) && decide (b < a + len))
  else decide (rangeStatus (seenFrom s (ctxBerth c)) k a len = none)

/-- A slot in module DRAM has to be waited for: its stack is in retention, which it wakes, its segment moves, its site drains,
or an earlier request of the dispatcher to its endpoint would be overtaken (R24, R265, R343, R403). -/
def slotWaits (s : State) (c : Nat) (host : Bool) (a len : Nat) : Bool :=
  !host && (!(sleepersOf s a len).isEmpty || (stepsOf s a len).any (fun x => placeWaits s x || placeMoves s x) ||
    overtakes s (ctxBerth c) .req a)

/-- A slot in module DRAM gets no answer: its request goes out, and its bound ends it (R26). -/
def slotSilent (s : State) (host : Bool) (a : Nat) : Bool := !host && addrPos a == ownPos s && addrSilent s (addrLocal a)

/-- The request for a slot that gets no answer, once while it is outstanding; a context whose slot request ends stops (R26,
R198). -/
def issueSlot (s : State) (c : Nat) (id : Option CmdId) (k : ReqKind) (a len : Nat) : State :=
  if s.reqs.out.any (fun o => decide (o.slot = some (c, a))) then s
  else
    let n := freeTag s
    issueWork s
      { kind := k
        tag := n
        srcCtx := id
        gen := 0
        epoch := 0
        srcPos := ownPos s
        srcSite := ctxBerth c
        addr := if k = .store then a / 64 * 64 else a
        size := 64
        mask := if k = .store then BitVec.ofNat 64 ((2 ^ len - 1) * 2 ^ (a % 64)) else 0 } { slot := some (c, a) }

/-- The bytes of a slot. -/
def readSlot (s : State) (host : Bool) (a len : Nat) : List Byte :=
  if host then readHost s a len else loadBytes s a len

/-- Write the bytes of a slot; one in DRAM takes its row buffer (R248). -/
def writeSlot (s : State) (host : Bool) (a : Nat) (bs : List Byte) : State :=
  if host then writeHost s a bs else touchRange (storeBytes s a bs) a bs.length true

/-- A slot that is read takes its row buffer (R248). -/
def touchSlot (s : State) (host : Bool) (a : Nat) : State := if host then s else touchRange s a 64 false

/-- The address of the submission slot that count `n` names (R174). -/
def sqSlot (x : Context) (n : W32) : Nat := x.sqBase + 64 * (n.toNat % 2 ^ x.log2S)

/-- The command of a fetched packet (R183): checked; one that fails ends at the check with no effect beyond its entry;
one that passes gets its resources and its timeout (R186). -/
def fetchedCmd (s : State) (c : Nat) (x : Context) (p : Nat) : Cmd :=
  let base : Cmd :=
    { id := { ctx := c, seq := x.cmdCount.toNat }
      berth := ctxBerth c
      opcode := hOpcode p
      packet := p
      params := paramsOf p
      gen := x.gen
      fetched := now s }
  match checkCommand s (askedRing s c x.cmdCount.toNat p) with
  | some e => { base with phase := .finished, status := e.1, detail := e.2, tideStart := now s, tideEnd := now s }
  | none => planResources s
      { base with deadline := max (now s) (if hTstart p then hTstartNs p else 0) + timeoutNs (hTimeout p) }

/-- Commands of the context started and not yet complete (R185). -/
def startedCount (x : Context) : Nat := (x.flight.filter (fun m => m.began && decide (m.id.node = none))).length

/-- A command that waits no longer as the 65th has its timeout running again from where it stood; the timeout runs from
TSTART_NS when that is later than the fetch, so the time before it stops nothing (R186). -/
def Cmd.unblock (c : Cmd) (t : Nat) : Cmd :=
  match c.blockedAt with
  | some b =>
    let b1 := max b (if hTstart c.packet then hTstartNs c.packet else 0)
    { c with blockedAt := none, deadline := c.deadline + (t - b1) }
  | none => c

/-- The limit of 64 started commands: the command that would be the 65th waits with its timeout stopped (R185), whether or not
its own dependencies hold: R185 stops the timeout and R186 counts the wait for dependencies, and the manual does not say which
prevails (DESIGN CHOICE, log entry 82). -/
def settleLimit (s : State) (c : Nat) : State :=
  updCtx s c (fun x =>
    if startedCount x < 64 then { x with flight := x.flight.map (fun m => m.unblock (now s)) }
    else match x.flight.find? (fun m => decide (m.phase = .waiting)) with
      | some w =>
        if w.blockedAt.isSome then x
        else { x with flight := mapIf (fun m => decide (m.id = w.id)) (fun m => { m with blockedAt := some (now s) }) x.flight }
      | none => x)

/-- Take a command of `n` continuations into the context (R174). -/
def takeCommand (s : State) (c p n : Nat) : State :=
  settleLimit (updCtx s c (fun x =>
    { x with
      fetchCount := x.fetchCount + BitVec.ofNat 32 (1 + n)
      cmdCount := x.cmdCount + 1
      flight := x.flight ++ [fetchedCmd s c x p] })) c

/-- The dispatcher may read the next header: the context is open, the completion ring has room (R176) and a slot lies
before the tail (R179). -/
def mayFetch (x : Context) : Bool :=
  decide (x.state = .opened) && decide ((x.cmdCount - x.cqHead).toNat < 2 ^ x.log2S) && decide (x.sqTail ≠ x.fetchCount)

/-- COMMAND_FETCH (R176, R179, R183, R198). -/
def fetchCommand (s : State) (c : Nat) : State :=
  let x := getCtx s c
  let host := bitAt x.place 0
  let slot (k : Nat) : Nat := sqSlot x (x.fetchCount + BitVec.ofNat 32 k)
  let missing (k : Nat) : State :=
    if slotSilent s host (slot k) then issueSlot s c none .load (slot k) 64
    else stopContext (if host then s else countStale s (ctxBerth c) (slot k) 64) c (slot k)
  if !mayFetch x then s
  else if slotWaits s c host (slot 0) 64 then (sleepersOf s (slot 0) 64).foldl wakeDomain s
  else if !slotOk s c host .load (slot 0) 64 then missing 0
  else
    let h := leNat (readSlot s host (slot 0) 64)
    let n := hNcont h
    if (x.sqTail - x.fetchCount).toNat < 1 + n then s
    else match (List.range n).find? (fun k => slotWaits s c host (slot (k + 1)) 64) with
      | some k => (sleepersOf s (slot (k + 1)) 64).foldl wakeDomain s
      | none => match (List.range n).find? (fun k => !slotOk s c host .load (slot (k + 1)) 64) with
        | some k => missing (k + 1)
        | none =>
          (List.range (n + 1)).foldl (fun t k => touchSlot t host (slot k))
            (takeCommand s c (leNat ((List.range (n + 1)).flatMap (fun k => readSlot s host (slot k) 64))) n)

def execCommandFetch (ctx : Nat) (s : State) : Out := guarded (hasCtx s ctx) (fetchCommand s ctx)

/-! ## Start (R184 to R187, R206, R212, R213, R224) -/

/-- A wait of Table 06-11, which holds the later commands of its context until it has completed (R206). -/
def isWait (op : Nat) : Bool := op == 0x0200 || op == 0x0210 || op == 0x0220

/-- An earlier command of the context holds this one: not yet started, or a wait not yet complete (R184, R206). -/
def heldByEarlier (x : Context) (id : CmdId) : Bool :=
  (x.flight.takeWhile (fun m => decide (m.id ≠ id))).any (fun m =>
    decide (m.id.node = none) && (decide (m.phase = .waiting) || (isWait m.opcode && m.began)))

/-- Every dependency in force holds, and Tide has reached TSTART_NS (R184). -/
def eligible (s : State) (c : Cmd) : Bool :=
  let p := c.packet
  let b := c.berth
  (!hDep0 p || decide (hDep0Value p ≤ (getCounter s b (hDep0Idx p)).toNat)) &&
  (!hDep1 p || decide (hDep1Value p ≤ (getCounter s b (hDep1Idx p)).toNat)) &&
  (!hTstart p || decide (hTstartNs p ≤ now s))

/-- The dispatch resources other than the power state of the domains are free (R212). -/
def resourcesFree (s : State) (c : Cmd) : Bool :=
  let b := c.berth
  c.regions.all (fun e => (tilesOf e).all (fun t => !(getTile s b t).held)) &&
  (!c.holdsTug || decide (tugsUsed s b < 16)) &&
  (!isOptical c.opcode c.params ||
    c.engines.all (fun e => decide (scratchUsed s b e + scratchNeed c ≤ scratchBytes)))

/-- A Tide value falls within a time in which guarantee 4 is relaxed (R359, R388). -/
def relaxedAt (s : State) (t : Nat) : Bool :=
  (match s.tide.relaxedSince with
   | some a => decide (a ≤ t)
   | none => false) || s.tide.relaxedPast.any (fun p => decide (p.1 ≤ t) && decide (t < p.2))

/-- The command has started: TIDE_START, a new timeout from its start (R186), S_DEGRADED for a TSTART_NS within a time in
which guarantee 4 is relaxed (R359, R388), and the class of its optical work (R88, R119). -/
def startCmd (s : State) (c : Cmd) : State :=
  let t := now s
  let p := c.packet
  let c1 := { c with
    phase := .started
    began := true
    tideStart := t
    blockedAt := none
    deadline := t + timeoutNs (hTimeout p) }
  let c2 := if hTstart p && relaxedAt s (hTstartNs p) then c1.note S_DEGRADED 4 else c1
  let c3 := if isOptical c.opcode c.params then planTally s c2 (hBound p) (hTreq p) else c2
  joinRotation (updCmd s c.id (fun _ => c3)) c3

/-- A command that ends without starting (R183, R188, R224). -/
def Cmd.endUnstarted (c : Cmd) (t st detail : Nat) : Cmd :=
  { c with phase := .finished, status := st, detail := detail, tideStart := t, tideEnd := t }

/-- Start a command whose turn it is: wake what sleeps, end it when no engine of its set is in service, or start. -/
def tryStart (s : State) (c : Cmd) : State :=
  let b := c.berth
  if !domainsReady s b c then wakeFor s b c
  else if isOptical c.opcode c.params && !c.engines.any (engInService s b) then
    settleLimit (updCmd s c.id (fun m => m.endUnstarted (now s) S_RESOURCE_RETIRED b)) c.id.ctx
  else if resourcesFree s c then settleLimit (startCmd s c) c.id.ctx
  else s

/-- COMMAND_START. -/
def startCommand (s : State) (id : CmdId) : State :=
  let x := getCtx s id.ctx
  match findCmd s id with
  | none => s
  | some c =>
    if decide (c.phase = .waiting) && decide (id.node = none) && !heldByEarlier x id && decide (startedCount x < 64) &&
        eligible s c then tryStart s c
    else s

def execCommandStart (id : CmdId) (s : State) : Out := guarded (hasCtx s id.ctx) (startCommand s id)

/-! ## Mailboxes (R428, R493, R500 to R503) -/

/-- Vectors of a function's MSI-X table (R493). -/
def vectorCount (fn : Nat) : Nat := if fn = 0 then 128 else 16

/-- A submitted request meets its checks: one that fails any is ready to be answered, one that passes is accepted
(R216, R493, R500). -/
def mbxCheck (s : State) (fn : Nat) : State :=
  let m := getMbx s fn
  let fail (st d : Nat) : State := updMbx s fn (fun x => { x with result := some ⟨st, d, []⟩, submitted := now s })
  if vectorCount fn ≤ m.goVector then fail S_BAD_PARAM (Config.vectorDetail fn)
  else match checkCommand s (askedMailbox s fn m.req) with
    | some e => fail e.1 e.2
    | none => updMbx s fn (fun x => { x with accepted := true, submitted := now s })

/-- A write of MBX_CTRL: TAG, IRQ and VECTOR are written; with GO = 1 and no request pending, the request is submitted,
and checked at once or at READY (R428, R501). -/
def mbxCtrl (s : State) (fn : Nat) (v : W64) : State :=
  let n := v.toNat
  let m := getMbx s fn
  if bitAt n 32 && m.pending then s
  else
    let s1 := updMbx s fn (fun x =>
      { x with tag := BitVec.ofNat 16 (fld n 48 16), irq := bitAt n 16, vector := fld n 0 11 })
    if !bitAt n 32 then s1
    else
      let s2 := updMbx s1 fn (fun x =>
        { x with
          goTag := x.tag
          goIrq := x.irq
          goVector := x.vector
          pending := true
          replyValid := false
          replyTag := 0
          detail := 0
          status := 0xFF
          data := []
          accepted := false
          result := none
          journal := 0
          submitted := now s })
      if s.rst.ready then mbxCheck s2 fn else s2

def execMbxCtrlGo (fn : Nat) (value : W64) (s : State) : Out :=
  guarded (hasFn fn) (if fnPresent s fn then mbxCtrl s fn value else s)

/-! ## Serving a request (R216, R477) -/

/-- The request of a route that Blunen may begin to serve: accepted or started, of this opcode, not begun yet. -/
def routeAsked (s : State) (r : Route) (op : Nat) : Option Asked :=
  match r with
  | .mailbox fn =>
    let m := getMbx s fn
    if m.pending && m.accepted && decide (m.result = none) && m.journal == 0 && hOpcode m.req == op then
      some (askedMailbox s fn m.req)
    else none
  | .ring id =>
    match findCmd s id with
    | none => none
    | some c =>
      if decide (c.phase = .started) && c.opcode == op && !c.served then
        some (askedRing s id.ctx id.seq c.packet)
      else none

/-- The route exists. -/
def hasRoute (s : State) (r : Route) : Bool :=
  match r with
  | .mailbox fn => hasFn fn
  | .ring id => hasCtx s id.ctx

/-- The progress of a request is journalled: it has begun (R477). -/
def markServed (s : State) (r : Route) : State :=
  match r with
  | .mailbox fn => updMbx s fn (fun m => { m with journal := 1 })
  | .ring id => updCmd s id (fun c => { c with served := true })

/-- Bytes padded with zeros to `n`. -/
def padTo (n : Nat) (bs : List Byte) : List Byte := bs ++ List.replicate (n - bs.length) 0#8

/-- The reply bytes that a command on a ring writes to DEST: 8 for a result word, 64 for reply data (R216, R244). -/
def replyBytes (c : Cmd) (data : List Byte) : List (Nat × Byte) :=
  if data = [] then [] else layAt (fld c.params 320 64) (padTo (if c.opcode / 256 = 0x0E then 8 else 64) data)

/-- Answer a request that is being served: the mailbox gets its outcome, the command on the ring finishes. -/
def answer (s : State) (r : Route) (res : MbxResult) : State :=
  match r with
  | .mailbox fn =>
    if (getMbx s fn).pending && (getMbx s fn).accepted && decide ((getMbx s fn).result = none) then
      updMbx s fn (fun m => { m with result := some res, journal := 2 })
    else s
  | .ring id => match findCmd s id with
    | some c =>
      if c.phase = .started then
        let l := replyBytes c res.data
        issueResults (updCmd s id (fun c =>
          { c.note res.status res.detail with
            phase := .finished
            served := true
            reply := res.data
            tideEnd := now s
            results := l.filter (fun e => !goesOut s e.1) })) c (l.filter (fun e => goesOut s e.1))
      else s
    | none => s

/-- Serve a request of a route: `f` gives the new state and, when the request ends at once, its outcome. A route with
no such request to begin leaves the state unchanged (log entry 2). -/
def blunen (s : State) (r : Route) (op : Nat) (f : Asked → State × Option MbxResult) : Out :=
  guarded (hasRoute s r) (match routeAsked s r op with
    | none => s
    | some a =>
      match f a with
      | (t, some res) => answer (markServed t r) r res
      | (t, none) => t)

/-- An outcome S_OK with reply data. -/
def okReply (data : List Byte) : Option MbxResult := some ⟨S_OK, 0, data⟩

/-- A failed outcome with a DETAIL that names parameter byte `b` (R530). -/
def failAt (a : Asked) (st b : Nat) : Option MbxResult := some ⟨st, a.off b, []⟩

end Sys2Proof.Machine
end

