-- ==== Sys2Proof/Machine/EngineOps.lean ====
section
/-! DEFINITION. What several commands do to an engine: its maps of lines and rows and their spares (R69 to R72), its
leaving service and rotation (R104, R225), a calibration taking effect (R81, R113), its predicted σ (R112, R113). -/

namespace Sys2Proof.Machine

/-! ## Lines and rows (R69 to R72) -/

/-- The physical line of logical element j, and the physical row of logical row i (128 is the checksum row). -/
def Engine.physLine (e : Engine) (j : Nat) : Nat := if tabGet 0 e.lineMap j = 0 then j else tabGet 0 e.lineMap j
def Engine.physRow (e : Engine) (i : Nat) : Nat := if tabGet 0 e.rowMap i = 0 then i else tabGet 0 e.rowMap i

/-- Free spare lines 128 to 131 and rows 129 to 131: not in use, not waiting to come into use, not failed. -/
def Engine.freeLines (e : Engine) : List Nat :=
  [128, 129, 130, 131].filter (fun k => !(e.lineMap.any (fun x => x.2 == k)) && !(e.linePend.any (fun x => x.2 == k)) &&
    !e.lineFailed.contains k)
def Engine.freeRows (e : Engine) : List Nat :=
  [129, 130, 131].filter (fun k => !(e.rowMap.any (fun x => x.2 == k)) && !(e.rowPend.any (fun x => x.2 == k)) &&
    !e.rowFailed.contains k)

/-- The physical place a logical line or row will have once the waiting moves have taken effect. -/
def Engine.nextLine (e : Engine) (j : Nat) : Nat :=
  match e.linePend.find? (fun x => x.1 == j) with
  | some x => x.2
  | none => e.physLine j
def Engine.nextRow (e : Engine) (i : Nat) : Nat :=
  match e.rowPend.find? (fun x => x.1 == i) with
  | some x => x.2
  | none => e.physRow i

/-- The waiting moves take effect, at a bank load (R71). -/
def Engine.applyMoves (e : Engine) : Engine :=
  { e with
    lineMap := e.linePend.foldl (fun t x => tabSet 0 t x.1 x.2) e.lineMap
    rowMap := e.rowPend.foldl (fun t x => tabSet 0 t x.1 x.2) e.rowMap
    linePend := []
    rowPend := [] }

/-- A logical line fails: its physical line is retired and the lowest free spare will take its place (R71). -/
def Engine.spareLine (e : Engine) (j : Nat) : Option Engine :=
  match e.freeLines with
  | sp :: _ => some { e with
      lineFailed := insertNat (e.nextLine j) e.lineFailed
      linePend := e.linePend.filter (fun x => x.1 != j) ++ [(j, sp)] }
  | [] => none

/-- A logical row fails: likewise (R71). -/
def Engine.spareRow (e : Engine) (i : Nat) : Option Engine :=
  match e.freeRows with
  | sp :: _ => some { e with
      rowFailed := insertNat (e.nextRow i) e.rowFailed
      rowPend := e.rowPend.filter (fun x => x.1 != i) ++ [(i, sp)] }
  | [] => none

/-! ## Retirement records (R463) -/

/-- Record a retirement in the lifetime retirement records, and count it at its site. -/
def retire (s : State) (site : Nat) (r : Retirement) : State :=
  updSite { s with recovery := { s.recovery with lifetime := s.recovery.lifetime ++ [r] } } site
    (fun k => { k with retirements := k.retirements + 1 })

/-- Count a transient at a site (R461). -/
def countTransient (s : State) (site : Nat) : State :=
  updSite s site (fun k => { k with transients := k.transients + 1 })

/-! ## Rotation and service (R104, R225, R213) -/

/-- Discard what an engine runs and holds for the tiles (R86, R99, R104). -/
def Engine.discard (e : Engine) : Engine := { e with run := none, finishing := none, staging := [], outputs := [], guard := false }

/-- The started optical commands that have blocks to run on engine e of berth b: those blocks go to the other engines
of the set in service (R104, R225), and from those out of rotation to the others (R102). -/
def redealEngine (s : State) (b e : Nat) : State :=
  let live (c : Cmd) : List Nat := c.opt.engines.filter (fun k => k != e && engInService s b k)
  let hit (c : Cmd) : Bool := c.began && c.berth == b && c.opt.todo.any (fun x => x.1 == e)
  let move (c : Cmd) : Cmd := lendOut s { c with opt := { c.opt with todo := redeal e (live c) c.opt.todo } }
  (List.range 64).foldl (fun t k => updCtx t k (fun x => { x with flight := mapIf hit move x.flight })) s

/-- A started command whose set has no engine in service left ends with S_RESOURCE_RETIRED (R104, R224). -/
def endWithoutEngines (s : State) (b : Nat) : State :=
  let dead (c : Cmd) : Bool := decide (c.phase = .started) && c.berth == b && isOptical c.opcode c.params &&
    !c.engines.any (engInService s b)
  let stop (c : Cmd) : Cmd := { c.note S_RESOURCE_RETIRED b with phase := .finished, tideEnd := now s }
  (List.range 64).foldl (fun t k => updCtx t k (fun x => { x with flight := mapIf dead stop x.flight })) s

/-! ## Results of tests (R244, R457, R460) -/

/-- The result word of a test. -/
def resultWord (fail : Bool) (code enob us : Nat) : List Byte :=
  bytesLE 8 (bit fail + code <<< 8 + (enob % 2 ^ 16) <<< 16 + us <<< 32)

/-- What a request has gathered. -/
def gathered (s : State) (r : Route) : Gathered :=
  (s.recovery.gather.find? (fun g => decide (g.who = r))).getD ⟨r, false, [], 0⟩

/-- A request gets the result of one of its tests; with its last one it completes with S_OK and its result word. -/
def gatherResult (code : Nat) (fail : Bool) (enob us : Nat) (s : State) (r : Route) : State :=
  let g := gathered s r
  let g1 : Gathered := { g with fail := g.fail || fail, enobs := g.enobs ++ [enob], us := g.us + us }
  let rest := s.recovery.gather.filter (fun x => decide (x.who ≠ r))
  if s.recovery.tests.any (fun t => t.who.contains r) then
    { s with recovery := { s.recovery with gather := rest ++ [g1] } }
  else
    let fig := match g1.enobs with
      | [x] => x
      | l => (Config.allEnob s.fresh l).toNat
    answer (nextFresh { s with recovery := { s.recovery with gather := rest } }) r
      ⟨S_OK, 0, resultWord g1.fail code fig g1.us⟩

/-- A test has ended, or its target is gone: it leaves the queue and every requester receives its result. -/
def closeTest (fail : Bool) (enob us : Nat) (s : State) (t : TestReq) : State :=
  t.who.foldl (gatherResult t.code fail enob us)
    { s with recovery := { s.recovery with tests := s.recovery.tests.filter (fun x => decide (x ≠ t)) } }

/-- The target of the queued tests is retired: their result words show fail, with a time of 0 (R460). -/
def dropTests (s : State) (el : Element) : State :=
  (s.recovery.tests.filter (fun t => decide (t.el = el))).foldl (closeTest true 0 0) s

/-- An engine leaves service for a reason of Table 03-9: its uncommitted block is discarded, its blocks are dealt out,
fault event 0x0203 with OUTCOME 3 is raised, and the retirement is recorded (R104, R463). -/
def leaveService (s : State) (b e reason : Nat) : State :=
  if (getEngine s b e).rotation = .left then s
  else
    let s1 := updEngine s b e (fun x => { x.discard with rotation := .left, reason := reason, rotationList := [] })
    let s2 := raise (retire s1 b ⟨2, 0x0203, b, e, reason⟩)
      { code := 0x0203
        outcome := 3
        site := b
        unit := e
        part := partField s b
        arg := reason }
    dropTests (endWithoutEngines (redealEngine s2 b e) b) (.engine b e)

/-- Flag the commands that run or wait in the rotation of an engine (R83, R99, R100, R103). -/
def flagRotation (s : State) (b e : Nat) (f : TallyAcc → TallyAcc) : State :=
  let ids := (getEngine s b e).rotationList
  let hit (c : Cmd) : Bool := c.began && ids.contains c.id
  (List.range 64).foldl (fun t k => updCtx t k (fun x =>
    { x with flight := mapIf hit (fun c => { c with tally := f c.tally }) x.flight })) s

/-- The lines or rows of a list are spared one after another, with fault event 0x0202 for each; when no spare is left
the engine leaves service for `reason` (R71, R104; 128 is the checksum row, whose reason is 3, R72). -/
def spareLines (s : State) (b e : Nat) (ls : List Nat) : State :=
  ls.foldl (fun t j =>
    match (getEngine t b e).spareLine j with
    | some x =>
      raise (retire (updEngine t b e (fun _ => x)) b ⟨1, 0x0202, b, e, j⟩)
        { code := 0x0202
          outcome := 2
          site := b
          unit := e
          part := partField t b
          arg := j }
    | none => leaveService t b e 1) s

def spareRows (s : State) (b e : Nat) (rs : List Nat) : State :=
  rs.foldl (fun t i =>
    match (getEngine t b e).spareRow i with
    | some x =>
      raise (retire (updEngine t b e (fun _ => x)) b ⟨1, 0x0202, b, e, 256 + i⟩)
        { code := 0x0202
          outcome := 2
          site := b
          unit := e
          part := partField t b
          arg := 256 + i }
    | none => leaveService t b e (if i = 128 then 3 else 2)) s

/-- What a test or a measurement found failed is spared, each with its event; commands in progress on the engine carry the
lane-spared flag (R103). When a spare is lacking the engine leaves service instead, before any line or row is spared
(R106). -/
def spareAll (s : State) (b e : Nat) (lines rows : List Nat) : State :=
  let x := getEngine s b e
  let free := x.freeRows.length
  if x.freeLines.length < lines.length then leaveService s b e 1
  else if free < rows.length then leaveService s b e (if rows.getD free 0 = 128 then 3 else 2)
  else if lines = [] ∧ rows = [] then s
  else flagRotation (spareRows (spareLines s b e lines) b e rows) b e (fun t => { t with laneSpared := true })

/-! ## Tables (R79 to R82) -/

/-- The heater code of a ring: what its table gives for the temperature in force. -/
def Engine.heaterOf (x : Engine) (key ring : Nat) : BitVec 16 := Config.heaterCode key x.tables ring x.heatIn

/-- The drive of a weight ring for a code from −127 to 127: the pre-distortion table of 16 linear segments. -/
def Engine.driveOf (x : Engine) (key ring : Nat) (w : Int) : Int :=
  let i := (w + 128).toNat
  let g := Config.predistort key x.tables ring (i / 16)
  g.1 + g.2 * (i % 16 : Nat)

/-- The gain and the zero-point with which a row is read. -/
def Engine.rowOf (x : Engine) (key row : Nat) : Int × Int := Config.rowTrim key x.tables row

/-- The normalised power of a physical line, in 10⁻⁶. -/
def Engine.normOf (x : Engine) (line : Nat) : Nat := tabGet 1000000 x.lineNorm line

/-- At a bank boundary the lines that the tap monitor found off are renormalised (R82). -/
def Engine.renormalise (x : Engine) : Engine :=
  { x with lineNorm := x.tapOff.foldl (fun t p => tabSet 1000000 t p.1 p.2) x.lineNorm, tapOff := [] }

/-- The standby takes over, with its own normalisation of the lines (R99, R113). -/
def Engine.standbyLit (x : Engine) : Engine :=
  { x with lineNorm := x.standbyNorm, standbyNorm := x.lineNorm, tapOff := [], lhSwitching := false }

/-- At a bank boundary a wanted pause begins (R101). -/
def Engine.atBoundary (x : Engine) : Engine := { x with paused := x.paused || x.pauseWanted, pauseWanted := false }

/-- Waiting heater codes are applied, at a window boundary (R79). -/
def Engine.applyHeat (x : Engine) : Engine := { x with heatIn := x.heatWait.getD x.heatIn, heatWait := none }

/-! ## Calibration and predicted σ (R79, R81, R83, R112, R113) -/

/-- The calibration is stale (R83). -/
def Engine.isStale (e : Engine) : Bool := decide (4000 < (e.temp - e.calTemp).natAbs)

/-- New tables take effect, at a bank switch: ΔT and the age restart from zero, the lines of both Lighthouses have the power
that the calibration measured (R113), and the calibration is fresh (R83). -/
def Engine.applyTables (e : Engine) (t : Nat) : Engine :=
  match e.newTables with
  | some m => { e with newTables := none, tables := m, calTemp := e.temp, calTide := t, lineNorm := [], tapOff := [], standbyNorm := [], stale := false }
  | none => e

/-- The drift and step widening of an engine now (Table 04-3). -/
def Engine.widening (e : Engine) (t : Nat) : Nat := widening2 (e.temp - e.calTemp) (t - e.calTide) e.slope

/-- Evaluate the predicted σ: the widening is kept, and the run's largest σ² grows (R113). `cls` gives the class of a
command. -/
def Engine.evaluate (e : Engine) (t : Nat) (cls : CmdId → Nat) : Engine :=
  let w := e.widening t
  { e with
    widen2 := w
    run := match e.run with
      | some r =>
        if r.live && !r.ended then some { r with sigma2 := max r.sigma2 (sigmaPred2 (cls r.id) e.comb w) } else some r
      | none => none }

/-- The class a command runs at (R119). -/
def classOf (s : State) (id : CmdId) : Nat :=
  match findCmd s id with
  | some c => c.tally.cls
  | none => 0

/-- Flag one command. -/
def flagCmd (s : State) (id : CmdId) (f : TallyAcc → TallyAcc) : State :=
  updCmd s id (fun c => { c with tally := f c.tally })

end Sys2Proof.Machine
end

