-- ==== Sys2Proof/Machine/Work.lean ====
section
/-! DEFINITION. How a started command does its work: which command a row is about, the sleeping regions it must wake
first, what its reads and writes meet, and how it finishes. -/

namespace Sys2Proof.Machine

/-- Run `f` on a started command with this opcode; any other command is left alone (log entry 2). -/
def onStarted (s : State) (id : CmdId) (op : Nat) (f : Cmd → State) : Out :=
  guarded (hasCtx s id.ctx) (match findCmd s id with
    | some c => if decide (c.phase = .started) && c.opcode == op then f c else s
    | none => s)

/-- The work of a command has ended: the status of highest rank is kept, and its results wait for step 1 of R189. -/
def finishCmd (s : State) (id : CmdId) (st : Option (Nat × Nat)) (results : List (Nat × Byte)) : State :=
  updCmd s id (fun c =>
    { (match st with
       | some e => c.note e.1 e.2
       | none => c) with
      phase := .finished
      tideEnd := now s
      results := c.results ++ results })

/-- A range a command accesses. -/
structure Touch where
  kind : AccessKind
  addr : Nat
  len  : Nat
  deriving DecidableEq, Repr

/-- The domains that are not on and that a command's ranges wait for (R157, R403). -/
def sleepers (s : State) (l : List Touch) : List Nat := l.flatMap (fun t => sleepersOf s t.addr t.len)

/-- A range waits for something other than a domain: a held tile, a draining site, a moving segment (R144, R161, R265,
R343). -/
def rangeWaits (s : State) (t : Touch) : Bool :=
  (stepsOf s t.addr t.len).any (fun a => placeWaits s a || placeMoves s a)

/-- The worst status that the accesses of a site meet; those that get no answer end later, by their bound (R26). -/
def touchStatus (s : State) (src : Nat) (l : List Touch) : Option (Nat × Nat) :=
  l.foldl (fun w t => worse w (rangeMeets true (seenFrom s src) t.kind t.addr t.len)) none

/-- Some range lies, in part or whole, where it gets no answer. -/
def touchesSilent (s : State) (l : List Touch) : Bool :=
  l.any (fun t => addrPos t.addr == ownPos s &&
    (sectorParts (addrLocal t.addr) t.len).any (fun p => addrSilent s p.1))

/-- A range lies, in part, in a segment that is moving (R265). -/
def rangeMoves (s : State) (t : Touch) : Bool := (stepsOf s t.addr t.len).any (placeMoves s)

/-- The work of a command at a range would overtake an earlier request of its berth to the same endpoint on the same channel
(R24). -/
def rangeBehind (s : State) (c : Cmd) (t : Touch) : Bool :=
  (stepsOf s t.addr t.len).any (fun a => overtakes s c.berth (workChannel c) (globalAddr (ownPos s) a))

/-- The largest of the maxima of Table 01-6 for a path inside the module. -/
def pathMax : Nat := 212

/-- A guarantee is broken for a command: fault event 0x0406 names the guarantee, once for each command it affects (R474,
R369; log entry 76). -/
def guaranteeBroken (s : State) (c : Cmd) (g : Nat) : State :=
  if c.status = S_OK then raise s
    { code := 0x0406
      outcome := 6
      guarantee := g
      site := c.berth
      arg := 1 }
  else s
def latencyBroken (s : State) (c : Cmd) : State := guaranteeBroken s c 4

/-- The work of a command waits for a segment that moves (R265). -/
def markHeld (s : State) (c : Cmd) : State :=
  updCmd s c.id (fun m => { m with heldSince := some (m.heldSince.getD (now s)) })

/-- The work goes on: one that a moving segment has held past its bound of Table 01-6 makes its command S_DEGRADED (R265). -/
def settleHeld (s : State) (c : Cmd) : State :=
  match c.heldSince with
  | none => s
  | some t =>
    let s1 := if t + pathMax < now s then latencyBroken s c else s
    updCmd s1 c.id (fun m =>
      { (if t + pathMax < now s then m.note S_DEGRADED 4 else m) with heldSince := none })

/-- Do a command's work once every region and stack it touches is on, nothing else holds its ranges or the crossings of its own
regions (R161) and no earlier request is overtaken; until then those domains are woken and the command waits (R24, R157, R265, R403). -/
def awake (s : State) (c : Cmd) (l : List Touch) (f : State → State) : State :=
  let ds := sleepers s l
  if ds ≠ [] then ds.foldl wakeDomain s
  else if l.any (rangeMoves s) then markHeld s c
  else if l.any (rangeWaits s) || l.any (rangeBehind s c) || c.regions.any (fun e => (getRegion s c.berth e).holding) then s
  else f (settleHeld s c)

/-- The loads of a command's work leave their marks: refusals for an old epoch are counted (R25), DRAM rows take their
buffers (R248), and what goes out is issued. -/
def readMarks (s : State) (c : Cmd) (p : Purpose) (t : Touch) : State :=
  let s1 := countStale s c.berth t.addr t.len
  if t.kind = .load then touchRange (issueLoads s1 c p t.addr t.len) t.addr t.len false else s1

/-- The ranges that a command reads. Its stores meet what stands at their places when they are made (R189). -/
def readsOf (ts : List Touch) : List Touch := ts.filter (fun t => decide (t.kind ≠ .store))

/-- The work of a command ends: its loads leave their marks, the results that go out are issued, the others wait for
step 1 of R189, and the command takes the worst status. -/
def finishWork (s : State) (c : Cmd) (ts : List Touch) (st : Option (Nat × Nat)) (results : List (Nat × Byte)) : State :=
  let rs := readsOf ts
  let s1 := finishCmd s c.id (worse (touchStatus s c.berth rs) st) (results.filter (fun e => !goesOut s e.1))
  issueResults (rs.foldl (fun u t => readMarks u c {} t) s1) c (results.filter (fun e => goesOut s e.1))

/-- The ranges of a tensor's element region: its rows, or one run when they are dense (R208). -/
def TD.runs (t : TD) : List (Nat × Nat) :=
  if t.pitch = t.rowBytes then [(t.addr, t.extent)]
  else (List.range t.rows).map (fun r => (t.addr + r * t.pitch, t.rowBytes))

/-- The ranges of a tensor for the operations performed on it. -/
def TD.touches (t : TD) (ks : List AccessKind) : List Touch :=
  ks.flatMap (fun k => t.runs.map (fun r => ⟨k, r.1, r.2⟩) ++
    (if t.format.isBlock then [⟨k, t.side, t.sideExtent⟩] else []))

end Sys2Proof.Machine
end

