-- ==== Sys2Proof/Machine/Tensors.lean ====
section
/-! DEFINITION. Tensors in memory: how a command reads the blocks of its operands, reads them into FP32 with the bound
that costs (R228), encodes and places the blocks of its result, and counts the blocks that miss the requested bound
(R66, R122). A scalar format is read in groups of 32 elements along the innermost dimension, as R228 takes them. -/

namespace Sys2Proof.Machine

/-! ## Reading -/

/-- Elements of block k of a row. -/
def TD.count (t : TD) (k : Nat) : Nat := min 32 (t.cols - 32 * k)

/-- Place and length of the elements of block k of row r (R46 to R48, R208). -/
def TD.elemAt (t : TD) (r k : Nat) : Nat × Nat :=
  if t.format.isBlock then (t.addr + (r * t.blocks + k) * t.format.blockBytes, t.format.blockBytes)
  else (t.addr + r * t.pitch + 4 * k * t.format.bits, ceilDiv (t.count k * t.format.bits) 8)

/-- Place of the side entry of block k of row r (R47). -/
def TD.sideAt (t : TD) (r k : Nat) : Nat := t.side + (r * t.blocks + k) * t.format.sideBytes

/-- Block k of row r as the command reads it. -/
def readBlock (s : State) (t : TD) (r k : Nat) : Block :=
  let e := t.elemAt r k
  let side := if t.format.isBlock then loadNat s (t.sideAt r k) t.format.sideBytes else 0
  decodeBlock t.format (t.count k) (loadNat s e.1 e.2) side

/-- The blocks of row r, and of a whole tensor. -/
def readRow (s : State) (t : TD) (r : Nat) : List Block := (List.range t.blocks).map (readBlock s t r)
def readTensor (s : State) (t : TD) : List (List Block) := (List.range t.rows).map (readRow s t)

/-! ## Read-in to FP32 (R228) -/

/-- A group of up to 32 elements with one bound; `poisoned` passes on the poison of a tallied block. -/
structure Vec where
  els : List Num
  bound : Bnd := .zero
  poisoned : Bool := false
  deriving DecidableEq, Repr, Inhabited

/-- Two values are equal as numbers. -/
def Num.same (a b : Num) : Bool :=
  match a, b with
  | .fin n m e, .fin n' m' e' => (m == 0 && m' == 0) || (n == n' && leDy m e m' e' && leDy m' e' m e)
  | .inf a, .inf b => a == b
  | .nan, .nan => true
  | .marker, .marker => true
  | _, _ => false

/-- The greatest magnitude of some values. -/
def maxMag (els : List Num) : Bnd := maxBnd (els.map Num.mag)

/-- What one rounding to FP32 adds to a bound: 2⁻²³ × max |value| when it changed a value (R228). -/
def roundingBound (els : List Num) : Bnd :=
  if els.all (fun x => x.isNan || x.same (toFP32 x)) then .zero else (maxMag els).shift (-23)

/-- A value as an FP32 unit holds it; a NaN or a marker has none. -/
def hold32 (x : Num) : Num :=
  match x with
  | .fin _ _ _ => toFP32 x
  | x => x

/-- A block read into FP32. -/
def Block.readIn (b : Block) : Vec :=
  { els := b.els.map hold32
    bound := b.bound.add (roundingBound b.els)
    poisoned := decide (b.whole = .poisoned) }

/-- Rows of blocks read into FP32. -/
def readRows (s : State) (t : TD) : List (List Vec) := (readTensor s t).map (·.map Block.readIn)

/-- All elements of a row, and the largest bound over its blocks. -/
def rowEls (r : List Vec) : List Num := r.flatMap (·.els)
def rowBound (r : List Vec) : Bnd := maxBnd (r.map (·.bound))

/-- A block taken exactly, as the matrix unit takes its operands (R57, R221). -/
def Block.exactly (b : Block) : Vec := { els := b.els, bound := b.bound, poisoned := decide (b.whole = .poisoned) }

/-- Groups of 32 elements of a row. -/
def groups32 {α : Type} (l : List α) : List (List α) :=
  (List.range (ceilDiv l.length 32)).map (fun k => (l.drop (32 * k)).take 32)

/-- Column j of rows of equal length. -/
def columnOf (rows : List (List Num)) (j : Nat) : List Num := rows.map (fun r => r.getD j .zero)

/-! ## Writing -/

/-- Encoded destination blocks with their row and block number. -/
abbrev OutBlocks := List (Nat × Nat × BlockOut)

/-- A result block rounded once into its destination (R61 to R65, R123): a poisoned one stays poisoned, a NaN has no
value in a tallied block. -/
def Vec.encode (f : Fmt) (r : Rnd) (sat : Bool) (x : Vec) : BlockOut :=
  match f.kind with
  | .mx g => encodeMX g r sat false x.els
  | .tbf p => if x.poisoned then poisonBlock p else encodeTBF p r x.els x.bound
  | _ => { packed := packEls f.bits (x.els.map (encodeScalar f r sat)), side := 0 }

/-- Rows of results encoded for a destination. -/
def encodeRows (t : TD) (r : Rnd) (sat : Bool) (rows : List (List Vec)) : OutBlocks :=
  rows.zipIdx.flatMap (fun row => row.1.zipIdx.map (fun v => (row.2, v.2, v.1.encode t.format r sat)))

/-- The elements of a block as they lie in memory; the unused half of the last byte of an INT4 row is free (log entry
18). -/
def elemBits (t : TD) (k addr len packed : Nat) : Nat :=
  if t.format = .int4 ∧ t.count k % 2 = 1 then
    packed + (Config.padNibble (addr + len - 1)).toNat <<< (4 * t.count k)
  else packed

/-- The bytes of an encoded block at its place. -/
def placeBlock (t : TD) (o : Nat × Nat × BlockOut) : List (Nat × Byte) :=
  let e := t.elemAt o.1 o.2.1
  layAt e.1 (bytesLE e.2 (elemBits t o.2.1 e.1 e.2 o.2.2.packed)) ++
  (if t.format.isBlock then layAt (t.sideAt o.1 o.2.1) (bytesLE t.format.sideBytes o.2.2.side) else [])

/-! ## Requested bounds (R66, R118, R122) -/

/-- Blocks that make a command without engines complete with S_BUDGET: written blocks that are poisoned or above the
request; with an untallied destination, source blocks above the request, and poisoned ones read for integers. -/
def budgetCount (f : Fmt) (tReq : Nat) (srcs : List Block) (outs : OutBlocks) : Nat :=
  if f.isTbf then
    (outs.filter (fun o => o.2.2.side / 256 == 255 || decide (tReq < o.2.2.side / 256))).length
  else
    let ints := match f.kind with
      | .int _ => true
      | _ => false
    (srcs.filter (fun b => match b.tally with
      | some t => decide (tReq < t) || (t == 255 && ints)
      | none => false)).length

/-- The condition of that count. -/
def budgetStatus (n : Nat) : Option (Nat × Nat) := if n = 0 then none else some (S_BUDGET, min n 0xFFFF)

/-! ## A digital command -/

/-- What a digital operator produces: its destination, the source blocks it read and its encoded result. -/
structure Product where
  dst : TD
  srcs : List Block
  outs : OutBlocks
  deriving DecidableEq, Repr

/-- No region that the command may use has a tile in service (R146). -/
def noTiles (s : State) (c : Cmd) : Bool :=
  let b := c.berth
  (regionsUsed c.params).all (fun e => (tilesOf e).all (fun t => (getTile s b t).retired))

/-- A digital command does its work: it meets the statuses of its accesses, and its result waits for its completion. -/
def finishProduct (s : State) (c : Cmd) (ts : List Touch) (w : Product) : State :=
  finishWork (nextFresh s) c ts (budgetStatus (budgetCount w.dst.format (hTreq c.packet) w.srcs w.outs))
    (w.outs.flatMap (placeBlock w.dst))

/-- Run a digital operator whose destination is the last of its tensors. -/
def runDigital (s : State) (c : Cmd) (ts : List Touch) (work : State → Product) : State :=
  if noTiles s c then finishCmd s c.id (some (S_RESOURCE_RETIRED, c.berth)) []
  else awake s c ts (fun t => finishProduct t c ts (work (seenFrom t (c.berth))))

end Sys2Proof.Machine
end

