-- ==== Sys2Proof/Machine/Operators.lean ====
section
/-! DEFINITION. The digital operators (R220 to R223, R228 to R230): MATMUL and the composite operators, with the bounds
of Table 04-6. -/

namespace Sys2Proof.Machine

/-! ## Sums (R221, R222, R228) -/

/-- Trailing zero bits of a magnitude. -/
def trailing (m : Nat) : Nat := Nat.log2 (((m ^^^ (m - 1)) + 1) / 2)

/-- The least exponent of which every finite term is a multiple. -/
def leastUnit (ps : List Num) : Int :=
  ps.foldl (fun a p => match p with
    | .fin _ m e => if m = 0 then a else min a (e + trailing m)
    | _ => a) 1024

/-- The exact sum of the magnitudes of finite terms. -/
def magSum (ps : List Num) : Bnd := sumBnd (ps.map Num.mag)

/-- The exact sum of the terms, by the rules for zeros, infinities and NaNs (R42, R43). A zero sum of operands with opposite
signs is +0 whatever the command's RND is: rounding inside accumulation does not follow RND (R60), and the manual does not
say whether "mode RDN" of R43 reaches an accumulation (DESIGN CHOICE, log entry 52). -/
def exactSum (ps : List Num) : Num :=
  match ps with
  | [] => .zero
  | p :: rest => rest.foldl (Num.add .rne) p

/-- Every order of FP32 additions of finite terms gives their exact sum: all are multiples of one unit 2^e, and the sum
of their magnitudes stays within 2^(e + 24) and the FP32 range. -/
def anyOrder (ps : List Num) : Bool :=
  let e := leastUnit ps
  decide (-149 ≤ e) && (magSum ps).le ⟨1, min (e + 24) 127⟩

/-- The sum of terms accumulated in FP32. The manual does not fix the order of the additions, so a sum that depends on
it is a free value (log entry 7). -/
def sum32 (s : State) (place : List Nat) (ps : List Num) : Num :=
  let free := fmtFP32.decode (Config.fp32Sum s.fresh place).toNat
  if ps.any Num.isNan then .nan
  else if ps.any (fun p => decide (p = .inf true)) && ps.any (fun p => decide (p = .inf false)) then .nan
  else if ps.any (fun p => decide (p = .inf true) || decide (p = .inf false)) then
    (if (magSum ps).le ⟨1, 127⟩ then exactSum ps else free)
  else if (ps.filter Num.isFinNonzero).length ≤ 1 then toFP32 (exactSum ps)
  else if anyOrder ps then exactSum ps
  else free

/-- The sum of integer terms accumulated in INT32; one that can leave the INT32 range on its way is a free value (log
entry 7). -/
def sumInt32 (s : State) (place : List Nat) (ps : List Num) : Num :=
  if (magSum ps).le ⟨2 ^ 31 - 1, 0⟩ then (if (exactSum ps).isFinNonzero then exactSum ps else .zero)
  else .ofInt (Config.int32Sum s.fresh place).toInt

/-- One element of a matrix product. -/
def dotProduct (s : State) (ints : Bool) (place : List Nat) (w x : List Num) : Num :=
  let ps := (w.zip x).map (fun e => e.1.mul e.2)
  if ints then sumInt32 s place ps else sum32 s place ps

/-! ## The matrix rule (Table 04-6, R123) -/

/-- Norms of a row, rounded up to FP32. -/
def norm1 (l : List Num) : Bnd := (sumBnd (l.map Num.mag)).toFP32Up
def norm2 (l : List Num) : Bnd := (Bnd.sqrtUp (sumBnd (l.map (fun x => x.mag.mul x.mag)))).toFP32Up

/-- The bound of one element of a matrix product: row w with bound bW, row x with bound bX, K terms. -/
def matrixBound (prop ints : Bool) (w x : List Num) (bW bX : Bnd) : Bnd :=
  let k : Bnd := .ofNat x.length
  let acc : Bnd := if ints then .zero else ((k.mul (norm1 w)).mul (maxMag x).toFP32Up).shift (-24)
  let both := bW.mul bX
  if prop then
    sumBnd [(norm2 w).mul bX, (norm2 x).mul bW, (Bnd.sqrtUp k).mul both, acc]
  else
    sumBnd [(norm1 w).mul bX, (norm1 x).mul bW, k.mul both, acc]

/-- A value and the bound of one output element. -/
structure Elem where
  v : Num
  b : Bnd := .zero
  deriving DecidableEq, Repr, Inhabited

/-- A block of elements: the largest bound over those that have a value. -/
def elemsVec (poisoned : Bool) (l : List Elem) : Vec :=
  { els := l.map (·.v)
    bound := maxBnd ((l.filter (fun e => match e.v with
      | .fin _ _ _ => true
      | _ => false)).map (·.b))
    poisoned := poisoned }

/-! ## MATMUL (R220 to R222) -/

/-- α of OPT1: 0 stands for 1.0. -/
def alphaOf (q : Nat) : Num := if cOpt1 q = 0 then .fin false 1 0 else fmtFP32.decode (cOpt1 q)

/-- One element of Y: α times the accumulated product, plus the old Y, exact up to its one rounding; an INT32 old Y is
added with the saturation of its destination (R221). -/
def matElem (r : Rnd) (alpha : Num) (beta : Bool) (acc : Elem) (old : Num) (oldBound : Bnd) : Elem :=
  let v := if alpha = .fin false 1 0 then acc.v else alpha.mul acc.v
  { v := if beta then v.add r old else v
    b := (alpha.mag.mul acc.b).add (if beta then oldBound else .zero) }

/-- The rows of a matrix product X × Wᵀ. -/
def matRows (s : State) (stage : Nat) (prop ints : Bool) (w x : List (List Vec)) : List (List Elem) :=
  x.zipIdx.map (fun xr => w.zipIdx.map (fun wr =>
    let we := rowEls wr.1
    let xe := rowEls xr.1
    { v := dotProduct s ints [stage, xr.2, wr.2] we xe
      b := matrixBound prop ints we xe (rowBound wr.1) (rowBound xr.1) }))

def matmulProduct (s : State) (c : Cmd) : Product :=
  let q := c.params
  let tw := tdAt q 128
  let tx := tdAt q 384
  let ty := tdAt q 640
  let w := readTensor s tw
  let x := readTensor s tx
  let beta := bitAt q 64
  let ints := intOperands tw.format tx.format
  let acc := matRows s 0 (cProp q) ints (w.map (·.map Block.exactly)) (x.map (·.map Block.exactly))
  let rows := acc.zipIdx.map (fun row => (groups32 row.1).zipIdx.map (fun g =>
    let old : Vec := if beta then (readBlock s ty row.2 g.2).exactly else { els := [] }
    elemsVec old.poisoned (g.1.zipIdx.map (fun e =>
      matElem (cRnd q) (alphaOf q) beta e.1 (old.els.getD e.2 .zero) old.bound))))
  { dst := ty
    srcs := (w ++ x).flatten
    outs := encodeRows ty (cRnd q) (cSat q) rows }

/-- The accesses of MATMUL: Y is read too with BETA. -/
def matmulTouches (c : Cmd) : List Touch :=
  let q := c.params
  (tdAt q 128).touches [.load] ++ (tdAt q 384).touches [.load] ++
  (tdAt q 640).touches (if bitAt q 64 then [.load, .store] else [.store])

def execMatmul (id : CmdId) (s : State) : Out :=
  onStarted s id 0x0300 (fun c => runDigital s c (matmulTouches c) (fun t => matmulProduct t c))

/-! ## CONVERT and TRANSPOSE (R61, R228) -/

/-- Read the tensor at bit `a` and write the one at bit `b`. -/
def unaryTouches (c : Cmd) : List Touch := (tdAt c.params 128).touches [.load] ++ (tdAt c.params 384).touches [.store]

/-- CONVERT (R61). In place, R51 has the operator work block by block and gives no order of the blocks; every source block is read
before any is written (DESIGN CHOICE, log entry 96). -/
def convertProduct (s : State) (c : Cmd) : Product :=
  let q := c.params
  let x := readTensor s (tdAt q 128)
  let t := tdAt q 384
  { dst := t
    srcs := x.flatten
    outs := x.zipIdx.flatMap (fun row => row.1.zipIdx.map (fun b =>
      (row.2, b.2, encodeBlock t.format (cRnd q) (cSat q) b.1.els [b.1] b.1.bound))) }

def execConvert (id : CmdId) (s : State) : Out :=
  onStarted s id 0x0500 (fun c => runDigital s c (unaryTouches c) (fun t => convertProduct t c))

/-- Element i of destination row r is element r of source row i. -/
def transposeProduct (s : State) (c : Cmd) : Product :=
  let q := c.params
  let tx := tdAt q 128
  let t := tdAt q 384
  let x := readTensor s tx
  { dst := t
    srcs := x.flatten
    outs := (List.range t.rows).flatMap (fun r => (List.range t.blocks).map (fun k =>
      let rows := (x.drop (32 * k)).take (t.count k)
      let srcs := rows.map (fun bs => bs.getD (r / 32) { els := [] })
      (r, k, encodeBlock t.format (cRnd q) (cSat q) (srcs.map (fun b => b.els.getD (r % 32) .zero)) srcs
        (maxBound srcs)))) }

def execTranspose (id : CmdId) (s : State) : Out :=
  onStarted s id 0x0501 (fun c => runDigital s c (unaryTouches c) (fun t => transposeProduct t c))

/-! ## EWISE (Table 07-7) -/

/-- One element of ADD, SUB, MUL or SCALE with its bound; a zero sum of opposite operands takes its sign from the
rounding mode (R43). -/
def ewiseElem (r : Rnd) (op : Nat) (cst : Num) (x y : Num) (bx byb : Bnd) : Elem :=
  match op with
  | 0 => ⟨x.add r y, bx.add byb⟩
  | 1 => ⟨x.add r y.neg, bx.add byb⟩
  | 2 => ⟨x.mul y, sumBnd [x.mag.mul byb, y.mag.mul bx, bx.mul byb]⟩
  | _ => ⟨x.mul cst, cst.mag.mul bx⟩

/-- One block of EWISE. -/
def ewiseVec (r : Rnd) (op : Nat) (cst : Num) (x y : Vec) : Vec :=
  elemsVec (x.poisoned || (op != 3 && y.poisoned)) (x.els.zipIdx.map (fun e =>
    ewiseElem r op cst e.1 (y.els.getD e.2 .zero) x.bound y.bound))

def ewiseProduct (s : State) (c : Cmd) : Product :=
  let q := c.params
  let op := fld q 64 2
  let t := tdAt q 640
  let x := readTensor s (tdAt q 128)
  let y := if op = 3 then x else readTensor s (tdAt q 384)
  let rows := (x.zip y).map (fun r => (r.1.zip r.2).map (fun b =>
    ewiseVec (cRnd q) op (fmtFP32.decode (cOpt1 q)) b.1.readIn b.2.readIn))
  { dst := t
    srcs := if op = 3 then x.flatten else (x ++ y).flatten
    outs := encodeRows t (cRnd q) (cSat q) rows }

def ewiseTouches (c : Cmd) : List Touch :=
  let q := c.params
  (tdAt q 128).touches [.load] ++ (if fld q 64 2 = 3 then [] else (tdAt q 384).touches [.load]) ++
  (tdAt q 640).touches [.store]

def execEwise (id : CmdId) (s : State) : Out :=
  onStarted s id 0x0502 (fun c => runDigital s c (ewiseTouches c) (fun t => ewiseProduct t c))

/-! ## TABLE_FN (R125, R229, Tables 04-7 and 07-8) -/

/-- An element lies in a function's domain (Table 07-8). -/
def inDomain (f : Nat) (x : Num) : Bool :=
  match f with
  | 5 => x.le (.fin false 88 0)
  | 6 => x.isFinNonzero || decide (x = .inf true) || decide (x = .inf false)
  | 7 => !x.le .zero
  | 9 => !x.le .zero
  | _ => true

/-- The code of an FP32 value. -/
def code32 (x : Num) : W32 := BitVec.ofNat 32 (fmtFP32.encode .rne false x)

/-- A table function's result: ReLU exactly, the others a free value of the function and the argument (log entry 8). -/
def tableValue (s : State) (f : Nat) (place : List Nat) (x : Num) : Num :=
  if x.isNan then .nan
  else if !inDomain f x then .nan
  else if f = 0 then
    (match x with
     | .fin true m _ => if m = 0 then .fin (Config.zeroSign s.fresh place) 0 0 else .zero
     | .inf true => .zero
     | x => x)
  else fmtFP32.decode (Config.tableFn f (code32 x)).toNat

/-- The interval I of R125 over the elements in the domain. -/
def domainInterval (els : List Num) (b : Bnd) : Option (Num × Num) :=
  match els.filter (fun x => match x with
    | .fin _ _ _ => true
    | _ => false) with
  | [] => none
  | x :: xs =>
    let lo := xs.foldl (fun a y => if y.le a then y else a) x
    let hi := xs.foldl (fun a y => if a.le y then y else a) x
    some (lo.add .rne (.fin true b.m b.e), hi.add .rne (.fin false b.m b.e))

/-- The interval leaves the domain, or reaches zero for the reciprocals (R125). -/
def leavesDomain (f : Nat) (i : Num × Num) : Bool :=
  match f with
  | 5 => !i.2.le (.fin false 88 0)
  | 6 => i.1.le .zero && Num.zero.le i.2
  | 7 => i.1.le .zero
  | 9 => i.1.le .zero
  | _ => false

/-- A negative value. -/
def Num.isNeg : Num → Bool
  | .fin n m _ => n && m != 0
  | .inf n => n
  | _ => false

/-- e^x rounded up. -/
def expBound (x : Num) : Bnd := expUp x.isNeg x.mag

/-- L_I × b + ε_f over the interval (Tables 04-7 and 07-8). -/
def tableBound (f : Nat) (i : Num × Num) (b : Bnd) : Bnd :=
  let one : Bnd := ⟨1, 0⟩
  let pct (n : Nat) : Bnd := Bnd.divUp (.ofNat n) (.ofNat 100)
  let small := if i.1.isNeg then i.2.mag else i.1.mag
  match f with
  | 0 => b
  | 1 => ((pct 113).mul b).add ⟨1, -16⟩
  | 2 => ((pct 110).mul b).add ⟨1, -16⟩
  | 3 => b.add ⟨1, -16⟩
  | 4 => (b.shift (-2)).add ⟨1, -18⟩
  | 5 => let e := expBound i.2; (e.mul b).add (e.shift (-20))
  | 6 => let r := Bnd.divUp one small; ((Bnd.divUp one (small.mul small)).mul b).add (r.shift (-20))
  | 7 =>
    let r := Bnd.sqrtUp (Bnd.divUp one small)
    let l := (Bnd.sqrtUp (Bnd.divUp one (small.mul (small.mul small)))).shift (-1)
    (l.mul b).add (r.shift (-20))
  | 8 => b.add ⟨1, -16⟩
  | _ =>
    let l := maxBnd [one, lnAbsUp i.1.mag, lnAbsUp i.2.mag]
    ((Bnd.divUp one small).mul b).add (l.shift (-20))

/-- One block of TABLE_FN. An untallied element out of the domain is a NaN; an interval that leaves the domain poisons
the block. -/
def tableVec (s : State) (f row k : Nat) (tallied : Bool) (x : Vec) : Vec :=
  let ins := if tallied then x.els else x.els.filter (inDomain f)
  let els := x.els.zipIdx.map (fun e => tableValue s f [row, k, e.2] e.1)
  match domainInterval ins x.bound with
  | none => { els := els, poisoned := x.poisoned }
  | some i =>
    if leavesDomain f i then { els := els, poisoned := true }
    else { els := els, bound := tableBound f i x.bound, poisoned := x.poisoned }

def tableProduct (s : State) (c : Cmd) : Product :=
  let q := c.params
  let t := tdAt q 384
  let x := readTensor s (tdAt q 128)
  let rows := x.zipIdx.map (fun r => r.1.zipIdx.map (fun b =>
    tableVec s (fld q 64 8) r.2 b.2 b.1.tally.isSome b.1.readIn))
  { dst := t, srcs := x.flatten, outs := encodeRows t (cRnd q) (cSat q) rows }

def execTableFn (id : CmdId) (s : State) : Out :=
  onStarted s id 0x0503 (fun c => runDigital s c (unaryTouches c) (fun t => tableProduct t c))

/-! ## REDUCE -/

/-- The greater or smaller of values; a NaN gives NaN, and the sign of a zero between zeros of both signs is free
(R42, log entry 19). -/
def extreme (s : State) (isMin : Bool) (place : List Nat) (l : List Num) : Num :=
  if l.any Num.isNan then .nan
  else match l with
    | [] => .zero
    | x :: xs =>
      let best := xs.foldl (fun a y => if isMin then (if y.le a then y else a) else (if a.le y then y else a)) x
      match best with
      | .fin _ 0 _ =>
        if l.any (fun y => match y with
            | .fin true 0 _ => true
            | _ => false) && l.any (fun y => match y with
            | .fin false 0 _ => true
            | _ => false) then .fin (Config.zeroSign s.fresh place) 0 0 else best
      | b => b

/-- The reduction of one row: its value and bound (Table 04-6). A sum has no weight row; its d_acc is that of a row of ones,
whose norm is K (DESIGN CHOICE, log entry 55). -/
def reduceRow (s : State) (op : Nat) (prop : Bool) (place : List Nat) (row : List Vec) : Elem :=
  let els := rowEls row
  let bs := row.flatMap (fun v => v.els.map (fun _ => v.bound))
  if op = 0 then
    let k : Bnd := .ofNat els.length
    let acc := ((k.mul k).mul (maxMag els).toFP32Up).shift (-24)
    { v := sum32 s place els
      b := (if prop then Bnd.sqrtUp (sumBnd (bs.map (fun b => b.mul b))) else sumBnd bs).add acc }
  else { v := extreme s (op == 2) place els, b := maxBnd bs }

def reduceProduct (s : State) (c : Cmd) : Product :=
  let q := c.params
  let t := tdAt q 384
  let x := readTensor s (tdAt q 128)
  let rows := x.zipIdx.map (fun r =>
    [elemsVec false [reduceRow s (fld q 64 2) (cProp q) [r.2] (r.1.map Block.readIn)]])
  { dst := t, srcs := x.flatten, outs := encodeRows t (cRnd q) (cSat q) rows }

def execReduce (id : CmdId) (s : State) : Out :=
  onStarted s id 0x0504 (fun c => runDigital s c (unaryTouches c) (fun t => reduceProduct t c))

/-! ## SOFTMAX -/

/-- The parts of the softmax of a row: every exponential and the reciprocal of their sum, each held in FP32, and what the
roundings to FP32 of x − max and of the sum add to the bounds before and after the softmax row (R228; log entry 62). -/
structure SoftmaxParts where
  exps : List Num
  recip : Num
  before : Bnd
  after : Bnd
  deriving DecidableEq, Repr

def softmaxParts (s : State) (stage row : Nat) (els : List Num) : SoftmaxParts :=
  let m := extreme s false [stage, row] els
  let subs := els.map (fun x => x.add .rne m.neg)
  let es := subs.map (fun x => tableValue s 5 [stage, row] (hold32 x))
  let total := sum32 s [stage, row] es
  { exps := es
    recip := tableValue s 6 [stage, row] total
    before := roundingBound subs
    after := if anyOrder es then .zero else (maxMag [total]).shift (-23) }

/-- b − 1 for a bound of at least 1. -/
def Bnd.pred (b : Bnd) : Bnd :=
  if 0 ≤ b.e then ⟨b.m <<< b.e.toNat - 1, 0⟩ else ⟨b.m - 2 ^ (-b.e).toNat, b.e⟩

/-- The softmax rule of Table 04-6 for values p̂ whose inputs carry bound b. -/
def softmaxBound (b : Bnd) (ps : List Num) : Bnd :=
  let m := maxMag ps
  ((expUp false (b.shift 1)).pred.mul m).add (m.shift (-18))

/-- The softmax of a row whose inputs carry bound `b`: the products, exact up to their one rounding, and their bound. -/
def softmaxRow (s : State) (stage row : Nat) (b : Bnd) (els : List Num) : Vec :=
  let p := softmaxParts s stage row els
  let ps := p.exps.map (fun e => e.mul p.recip)
  { els := ps, bound := (softmaxBound (b.add p.before) ps).add p.after }

def softmaxProduct (s : State) (c : Cmd) : Product :=
  let q := c.params
  let t := tdAt q 384
  let x := readTensor s (tdAt q 128)
  let rows := x.zipIdx.map (fun r =>
    let vs := r.1.map Block.readIn
    let p := softmaxRow s 0 r.2 (rowBound vs) (rowEls vs)
    (groups32 p.els).map (fun g => ({ els := g, bound := p.bound } : Vec)))
  { dst := t, srcs := x.flatten, outs := encodeRows t (cRnd q) (cSat q) rows }

def execSoftmax (id : CmdId) (s : State) : Out :=
  onStarted s id 0x0505 (fun c => runDigital s c (unaryTouches c) (fun t => softmaxProduct t c))

/-! ## ATTENTION without engines (R230) -/

/-- The scores of row i that take part: all, or those with j ≤ i under CAUSAL. -/
def liveScores {α : Type} (causal : Bool) (i : Nat) (l : List α) : List α := if causal then l.take (i + 1) else l

/-- Scaled scores of a row, held in FP32, with the bound of its widest score: the matrix rule, the scale rule and the
roundings to FP32. -/
def scaledRow (sc : Num) (l : List Elem) : List Num × Bnd :=
  let held := l.map (fun e => hold32 e.v)
  let b1 := (maxBnd (l.map (·.b))).add (roundingBound (l.map (·.v)))
  let raw := held.map (fun v => v.mul sc)
  (raw.map hold32, (sc.mag.mul b1).add (roundingBound raw))

/-- The probabilities of a row of L_k scores, held in FP32, with their bound and that of their rounding to FP32 (R228); an
excluded score gives 0. -/
def attentionRow (s : State) (causal : Bool) (sc : Num) (i : Nat) (scores : List Elem) : Vec :=
  let live := scaledRow sc (liveScores causal i scores)
  let p := softmaxRow s 1 i live.2 live.1
  { els := p.els.map hold32 ++ List.replicate (scores.length - p.els.length) .zero
    bound := p.bound.add (roundingBound p.els) }

def attentionProduct (s : State) (c : Cmd) : Product :=
  let q := c.params
  let tq := tdAt q 128
  let tk := tdAt q 384
  let tv := tdAt q 640
  let t := tdAt q 896
  let xq := readTensor s tq
  let xk := readTensor s tk
  let xv := readTensor s tv
  let scores := matRows s 0 (cProp q) (intOperands tk.format tq.format) (xk.map (·.map Block.readIn))
    (xq.map (·.map Block.readIn))
  let probs := scores.zipIdx.map (fun r => [attentionRow s (bitAt q 64) (fmtFP32.decode (cOpt1 q)) r.2 r.1])
  let vrows := xv.map (·.map Block.readIn)
  let cols := (List.range tv.cols).map (fun d =>
    [({ els := columnOf (vrows.map rowEls) d
        bound := maxBnd (vrows.map (fun r => (r.getD (d / 32) { els := [] }).bound)) } : Vec)])
  let out := matRows s 2 (cProp q) false cols probs
  { dst := t
    srcs := (xq ++ xk ++ xv).flatten
    outs := encodeRows t (cRnd q) (cSat q) (out.map (fun r => (groups32 r).map (elemsVec false))) }

def attentionTouches (c : Cmd) : List Touch :=
  let q := c.params
  (tdAt q 128).touches [.load] ++ (tdAt q 384).touches [.load] ++ (tdAt q 640).touches [.load] ++
  (tdAt q 896).touches [.store]

/-! ## Optical commands (R224, R230) -/

/-- An optical command meets its accesses and deals its first product out to its engines; its blocks then run there
(R225). With no engine of its set in service it ends with S_RESOURCE_RETIRED (R224). -/
def beginOptical (s : State) (c : Cmd) (ts : List Touch) : State :=
  if c.opt.stage ≠ 0 then s
  else if !c.engines.any (engInService s (c.berth)) then
    finishCmd s c.id (some (S_RESOURCE_RETIRED, c.berth)) []
  else awake s c ts (fun t => (readsOf ts).foldl (fun u x => readMarks u c {} x) (updCmd t c.id (fun m =>
    planProduct t (match touchStatus t (c.berth) (readsOf ts) with
      | some e => m.note e.1 e.2
      | none => m) 0)))

def optMatmulTouches (c : Cmd) : List Touch :=
  let q := c.params
  (tdAt q 128).touches [.load] ++ (tdAt q 384).touches [.load] ++ (tdAt q 640).touches [.store]

def execOptMatmul (id : CmdId) (s : State) : Out :=
  onStarted s id 0x0400 (fun c => beginOptical s c (optMatmulTouches c))

def execAttention (id : CmdId) (s : State) : Out :=
  onStarted s id 0x0510 (fun c =>
    if isOptical c.opcode c.params then beginOptical s c (attentionTouches c)
    else runDigital s c (attentionTouches c) (fun t => attentionProduct t c))

end Sys2Proof.Machine
end

