-- ==== Sys2Proof/Machine/Collectives.lean ====
section
/-! DEFINITION. Collectives (R232 to R236): the members, the rendezvous, and what each member's destination receives. -/

namespace Sys2Proof.Machine

/-! ## Members (R232) -/

/-- COLL_ID, and the scope. -/
def Cmd.collId (c : Cmd) : Nat := fld c.params 704 32
def Cmd.scope (c : Cmd) : Nat := fld c.params 640 2

/-- The partition of a command. -/
def Cmd.part (s : State) (c : Cmd) : Nat := (berthPart s c.berth).getD 8

/-- Two members agree: opcode, control word, group block, formats and shapes. -/
def sameDescriptor (a b : Cmd) : Bool :=
  let q := a.params
  let r := b.params
  let shape (x : Nat) (lo : Nat) : Nat × Nat × Nat := ((tdAt x lo).fmt, (tdAt x lo).rows, (tdAt x lo).cols)
  a.opcode == b.opcode && fld q 0 128 == fld r 0 128 && fld q 640 128 == fld r 640 128 &&
  decide (shape q 128 = shape r 128) && decide (shape q 384 = shape r 384)

/-- The collective a command belongs to, once a member has started. -/
def collOf (s : State) (c : Cmd) : Option Collective :=
  s.graphs.colls.find? (fun k => k.collId == c.collId && k.part == c.part s && !(k.arrived.isEmpty && !k.failed))

/-- The commands in flight that have arrived at a collective. -/
def arrivedCmds (s : State) (k : Collective) : List Cmd := k.arrived.filterMap (findCmd s)

/-- Replace the collectives. -/
def setColls (s : State) (l : List Collective) : State := { s with graphs := { s.graphs with colls := l } }

/-- The other collectives. -/
def otherColls (s : State) (k : Collective) : List Collective :=
  s.graphs.colls.filter (fun x => !(x.collId == k.collId && x.part == k.part))

/-- A member on another module that has stopped responding (R30, R235). -/
def deadMember (s : State) (c : Cmd) : Option (Nat × Nat) :=
  (collMembers (ownPos s) c.params).foldl (fun w m =>
    if m.1 = ownPos s then w else worse w (remoteStatus s m.1 m.2)) none

/-! ## What a member contributes -/

/-- Where the contribution of a member lies. -/
inductive Source where
  | memory (berth : Nat) (t : TD)
  | remote (member : Nat) (t : TD)
  deriving DecidableEq, Repr

def Source.td : Source → TD
  | .memory _ t => t
  | .remote _ t => t

/-- The codes of block k of row r of a contribution, with its side entry. -/
def Source.raw (s : State) (x : Source) (r k : Nat) : BlockOut :=
  let t := x.td
  let e := t.elemAt r k
  let n := t.count k * t.format.bits
  match x with
  | .memory b _ =>
    let v := seenFrom s b
    { packed := if t.format.isBlock then loadNat v e.1 e.2 else loadNat v e.1 e.2 % 2 ^ n
      side := if t.format.isBlock then loadNat v (t.sideAt r k) t.format.sideBytes else 0 }
  | .remote m _ =>
    let bytes (a len : Nat) : Nat := leNat ((List.range len).map (fun i => Config.memberByte s.fresh m (a + i)))
    { packed := if t.format.isBlock then bytes (e.1 - t.addr) e.2 else bytes (e.1 - t.addr) e.2 % 2 ^ n
      side := if t.format.isBlock then bytes (2 ^ 47 + (t.sideAt r k - t.side)) t.format.sideBytes else 0 }

/-- The same block decoded. -/
def Source.block (s : State) (x : Source) (r k : Nat) : Block :=
  let o := x.raw s r k
  decodeBlock x.td.format (x.td.count k) o.packed o.side

/-- The block as a gather or a broadcast writes it (Table 04-6, copy row): a tallied block takes its scale by R64 and its
tally by the gather rule of R65, a poisoned one the form of R55; any other block is copied with its padding written as
zero (R49). -/
def Source.copied (s : State) (x : Source) (r : Rnd) (row k : Nat) : BlockOut :=
  let o := x.raw s row k
  match x.td.format.kind with
  | .tbf _ => let b := x.block s row k; encodeBlock x.td.format r false b.els [b] b.bound
  | _ => { o with packed := o.packed % 2 ^ (x.td.count k * x.td.format.bits) }

/-- The contributions of a collective in ascending member index (R232). -/
def contributions (s : State) (c : Cmd) (cmds : List Cmd) : List Source :=
  let q := c.params
  if c.scope = 0 then
    if c.opcode = 0x0602 then
      let d := tdAt q 384
      let t := tdAt q 128
      (List.range (collCount (ownPos s) q)).map (fun j => .memory c.berth
        { t with
          rows := d.rows
          addr := t.addr + j * (d.rows * t.pitch)
          side := t.side + j * (d.rows * t.blocks * t.format.sideBytes) })
    else (collSlices q (collCount (ownPos s) q)).map (.memory c.berth)
  else (collMembers (ownPos s) q).zipIdx.map (fun m =>
    match cmds.find? (fun x => x.berth == m.1.2) with
    | some x => if m.1.1 = ownPos s then .memory x.berth (tdAt x.params 128) else .remote m.2 (tdAt q 128)
    | none => .remote m.2 (tdAt q 128))

/-- The member index of a command: its berth on the own module. -/
def memberIndex (s : State) (c : Cmd) : Nat := (collMembers (ownPos s) c.params).idxOf (ownPos s, c.berth)

/-! ## Reductions (R234) -/

/-- The contributions to one element are added in ascending index, each addition rounded to FP32 by RNE (R60; log entry 51),
or in INT32. -/
def addInOrder (s : State) (ints : Bool) (place : List Nat) (l : List Num) : Num :=
  if ints then sumInt32 s place l
  else match l with
    | [] => .zero
    | x :: xs => xs.foldl (fun a y => toFP32 (a.add .rne y)) x

/-- One element of a reduction, and its bound by the sum rule with K = P (Table 04-6). -/
def reduceElem (s : State) (op : Nat) (prop ints : Bool) (place : List Nat) (els : List Num) (bs : List Bnd) : Elem :=
  if op = 0 then
    let k : Bnd := .ofNat els.length
    let acc : Bnd := if ints then .zero else ((k.mul k).mul (maxMag els).toFP32Up).shift (-24)
    { v := addInOrder s ints place els
      b := (if prop then Bnd.sqrtUp (sumBnd (bs.map (fun b => b.mul b))) else sumBnd bs).add acc }
  else { v := extreme s (op == 2) place els, b := maxBnd bs }

/-- Block k of row r of a reduction of contributions, read from row `r0 + r` of each; the elements of a poisoned contribution
make element markers in the elements that depend on them (R126). -/
def reduceBlock (s : State) (c : Cmd) (xs : List Source) (r0 r k : Nat) : Vec :=
  let q := c.params
  let ints := decide ((tdAt q 128).format = .int8) || decide ((tdAt q 128).format = .int4)
  let vs := xs.map (fun x => (x.block s (r0 + r) k).readIn)
  let n := (vs.map (fun v => v.els.length)).foldl max 0
  elemsVec false ((List.range n).map (fun i =>
    reduceElem s (fld q 64 2) (cProp q) ints [r0 + r, k, i] (vs.map (fun v => v.els.getD i .zero)) (vs.map (·.bound))))

/-- The encoded destination of a member (R233), and the source blocks that decide its budget (R122). -/
def memberProduct (s : State) (c : Cmd) (xs : List Source) : Product :=
  let q := c.params
  let t := tdAt q 384
  let all (f : Nat → Nat → BlockOut) : OutBlocks :=
    (List.range t.rows).flatMap (fun r => (List.range t.blocks).map (fun k => (r, k, f r k)))
  let reduced (r0 : Nat) : OutBlocks :=
    all (fun r k => (reduceBlock s c xs r0 r k).encode t.format (cRnd q) (cSat q))
  let srcs (r0 : Nat) : List Block := xs.flatMap (fun x => (List.range t.rows).flatMap (fun r =>
    (List.range x.td.blocks).map (fun k => x.block s (r0 + r) k)))
  match c.opcode with
  | 0x0601 =>
    let n := max (tdAt q 128).rows 1
    { dst := t
      srcs := xs.flatMap (fun x => (List.range n).flatMap (fun r => (List.range x.td.blocks).map (fun k => x.block s r k)))
      outs := all (fun r k => (xs.getD (r / n) (.remote 0 (tdAt q 128))).copied s (cRnd q) (r % n) k) }
  | 0x0602 =>
    let r0 := if c.scope = 0 then 0 else memberIndex s c * t.rows
    { dst := t, srcs := srcs r0, outs := reduced r0 }
  | 0x0603 =>
    let root := xs.getD (fld q 736 16) (.remote 0 (tdAt q 128))
    { dst := t
      srcs := (List.range t.rows).flatMap (fun r => (List.range t.blocks).map (fun k => root.block s r k))
      outs := all (fun r k => root.copied s (cRnd q) r k) }
  | _ => { dst := t, srcs := srcs 0, outs := reduced 0 }

/-! ## The work of a collective -/

/-- The loads of a command's contribution, and the stores of its result. -/
def collLoads (s : State) (c : Cmd) : List Touch :=
  if c.scope = 0 then (contributions s c []).flatMap (fun x => x.td.touches [.load])
  else (tdAt c.params 128).touches [.load]
def collStores (c : Cmd) : List Touch := (tdAt c.params 384).touches [.store]

/-- What every load of the members meets. -/
def collStatus (s : State) (cmds : List Cmd) : Option (Nat × Nat) :=
  cmds.foldl (fun w c => worse w (touchStatus s c.berth (collLoads s c))) none

/-- The result of one member is staged, with the worst status its exchange met; what lies on other modules is issued. -/
def stageMember (v : State) (cmds : List Cmd) (s : State) (c : Cmd) : State :=
  let w := memberProduct v c (contributions v c cmds)
  let l := w.outs.flatMap (placeBlock w.dst)
  let st := worse (collStatus v cmds) (budgetStatus (budgetCount w.dst.format (hTreq c.packet) w.srcs w.outs))
  let s1 := updCmd s c.id (fun m =>
    { (match st with
       | some e => m.note e.1 e.2
       | none => m) with
      served := true
      results := m.results ++ l.filter (fun e => !goesOut v e.1) })
  issueResults ((collLoads v c).foldl (fun t x => readMarks t c {} x) s1) c
    (l.filter (fun e => goesOut v e.1))

/-- Every member of the own module does its share at once: all read before any result is written, and a member that has been
stopped receives none. -/
def runMembers (s : State) (cmds : List Cmd) : State :=
  nextFresh ((cmds.filter (fun c => decide (c.phase = .started))).foldl (stageMember s cmds) s)

/-- A command founds a collective. -/
def foundCollective (s : State) (c : Cmd) : State :=
  setColls s (s.graphs.colls.filter (fun k => !(k.collId == c.collId && k.part == c.part s)) ++
    [{ collId := c.collId
       part := c.part s
       arrived := [c.id]
       berths := [c.berth]
       own := ((collMembers (ownPos s) c.params).filter (fun m => m.1 == ownPos s)).map (·.2) }])

/-- The status of a collective whose members do not match (R235). -/
def mismatchStatus : Option (Nat × Nat) := some (S_BAD_PARAM, 0xFFFF)

/-- A command joins its collective; a second one of a berth while the first is in flight, and a member that starts after
the descriptors were found to differ, end with S_BAD_PARAM (R235). A berth whose member of a failed or finished collective
has ended begins a new one. -/
def joinCollective (s : State) (c : Cmd) : State :=
  match collOf s c with
  | none => foundCollective s c
  | some k =>
    if k.arrived.contains c.id then s
    else if (arrivedCmds s k).any (fun x => x.berth == c.berth) then finishCmd s c.id mismatchStatus []
    else if k.berths.contains c.berth && (k.failed || k.running) then foundCollective s c
    else
      let k1 := { k with arrived := k.arrived ++ [c.id], berths := addNew c.berth k.berths }
      let s1 := setColls s (otherColls s k ++ [k1])
      if k.failed then finishCmd s1 c.id mismatchStatus [] else s1

/-- A started collective command: at berth scope it works alone; otherwise it joins, and once its collective runs the
members' shares are done and it finishes. -/
def collWork (s : State) (c : Cmd) : State :=
  if noTiles s c then finishCmd s c.id (some (S_RESOURCE_RETIRED, c.berth)) []
  else if c.served then finishCmd s c.id none []
  else if c.scope = 0 then
    awake s c (collLoads s c ++ collStores c) (fun t => finishCmd (runMembers t [c]) c.id none [])
  else match deadMember s c with
    | some e => finishCmd s c.id (some e) []
    | none =>
      let s1 := joinCollective s c
      match collOf s1 c with
      | none => s1
      | some k =>
        if k.running && k.arrived.contains c.id then
          let cmds := arrivedCmds s1 k
          awake s1 c (cmds.flatMap (fun x => collLoads s1 x ++ collStores x)) (fun t =>
            finishCmd (runMembers t cmds) c.id none [])
        else s1

def execAllReduce (id : CmdId) (s : State) : Out := onStarted s id 0x0600 (collWork s)
def execAllGather (id : CmdId) (s : State) : Out := onStarted s id 0x0601 (collWork s)
def execReduceScatter (id : CmdId) (s : State) : Out := onStarted s id 0x0602 (collWork s)
def execBroadcast (id : CmdId) (s : State) : Out := onStarted s id 0x0603 (collWork s)

/-! ## COLLECTIVE_RENDEZVOUS (R232, R235) -/

/-- Collectives whose members have all ended are forgotten, save one that failed before every member of the own module had
started: its other members still end with the same status (R235). -/
def settleColls (s : State) : State :=
  setColls s (s.graphs.colls.filter (fun k =>
    !(arrivedCmds s k).isEmpty || (k.failed && !k.own.all (fun b => k.berths.contains b))))

/-- Every member of the own module has arrived and has not been stopped. -/
def allArrived (s : State) (c : Cmd) (cmds : List Cmd) : Bool :=
  (collMembers (ownPos s) c.params).all (fun m => m.1 != ownPos s ||
    cmds.any (fun x => x.berth == m.2 && decide (x.phase = .started)))

/-- The collective has members on other modules. -/
def hasRemote (s : State) (c : Cmd) : Bool := (collMembers (ownPos s) c.params).any (fun m => m.1 != ownPos s)

/-- The members meet: a descriptor that differs from the first member's ends every member; when all have started, the
collective runs. `remoteAgree` says that the members of the other modules have started with the same descriptor. -/
def meet (remoteAgree : Bool) (s : State) (k : Collective) : State :=
  match arrivedCmds s k with
  | [] => s
  | first :: rest =>
    let cmds := first :: rest
    let complete := allArrived s first cmds
    if !rest.all (sameDescriptor first) || (complete && hasRemote s first && !remoteAgree) then
      cmds.foldl (fun t c => finishCmd t c.id mismatchStatus []) (setColls s (otherColls s k ++ [{ k with failed := true }]))
    else if complete then setColls s (otherColls s k ++ [{ k with running := true }])
    else s

def execCollectiveRendezvous (collId : Nat) (remoteAgree : Bool) (s : State) : Out :=
  .next ((s.graphs.colls.filter (fun k => k.collId == collId && !k.running && !k.failed)).foldl (meet remoteAgree) s)

end Sys2Proof.Machine
end

