-- ==== Sys2Proof/Machine/Graphs.lean ====
section
/-! DEFINITION. Graphs (R237 to R243): descriptors and their checks, runs, nodes and the edges between modules. -/

namespace Sys2Proof.Machine

/-! ## Node entries (Table 07-12) -/

def nOpcode (n : Nat) : Nat := fld n 0 16
def nPri (n : Nat) : Bool := bitAt n 32
def nBound (n : Nat) : Bool := bitAt n 33
def nTreq (n : Nat) : Nat := fld n 48 8
def nBerth (n : Nat) : Nat := fld n 56 3
def nPos (n : Nat) : Nat := fld n 59 5
def nPred (n : Nat) : Nat := fld n 64 64
def nParams (n : Nat) : Nat := fld n 128 1408

/-- A node opcode that R238 allows. -/
def nodeOpcode (op : Nat) : Bool :=
  op == 0x0100 || op == 0x0101 || op == 0x0200 || op == 0x0201 || (decide (0x0300 ≤ op) && decide (op ≤ 0x0603))

/-- The descriptors of a node whose ARG bit is set, by their bit positions. -/
def argTDs (op q : Nat) : List Nat := (tensorsOf op q).filter (fun lo => bitAt q (lo + 63))

/-- The parameters with the addresses of some descriptors replaced; `f` gives an address for an argument index. -/
def resolveArgs (op q : Nat) (f : Nat → Nat) : Nat :=
  (argTDs op q).foldl (fun r lo =>
    let r1 := setFld (setFld r (lo + 63) 1 0) lo 47 (f (fld q lo 8))
    if (tdAt q lo).format.isBlock then setFld r1 (lo + 64) 47 (f (fld q (lo + 64) 8)) else r1) q

/-- A node as a packet: its header fields and its parameters in their places (Table 06-2, R207). -/
def nodePacket (n params : Nat) : Nat :=
  nOpcode n + bit (nPri n) <<< 19 + bit (nBound n) <<< 20 + nTreq n <<< 76 + (params % 2 ^ 384) <<< 128 +
    (params / 2 ^ 384) <<< 512

/-- The berth a node runs on: a collective takes part on the berth of its run (R240). -/
def nodeBerth (own n : Nat) : Nat := if isCollective (nOpcode n) then own else nBerth n

/-! ## Checks of a descriptor (R239) -/

/-- A fault of a descriptor: order of its check, offset in the descriptor, status. -/
structure GraphFault where
  order : Nat
  off : Nat
  status : Nat
  deriving DecidableEq, Repr

/-- The fault of the first check, and within it of the lowest offset (R530). -/
def firstFault (l : List GraphFault) : Option GraphFault :=
  l.foldl (fun a x => match a with
    | some y => if x.order < y.order ∨ (x.order = y.order ∧ x.off < y.off) then some x else some y
    | none => some x) none

/-- Faults of a list of (fails?, offset). -/
def faultsOf (order status : Nat) (l : List (Bool × Nat)) : List GraphFault :=
  (l.filter (·.1)).map (fun f => ⟨order, f.2, status⟩)

/-- The bits of a node entry that are reserved whatever its opcode. -/
def nodeReserved (n : Nat) : Option Nat :=
  lowByte (clearBits n (maskOf [(0, 16), (32, 2), (48, 16), (64, 64), (128, 1408)])) 256

/-- Node i of a descriptor, checked for the partition `p`, with argument addresses left unresolved: each stands for a place of
its own, on no module of the harbour, which overlaps nothing. -/
def nodeFaults (s : State) (p own nargs i n : Nat) : List GraphFault :=
  let base := 64 + 256 * i
  let op := nOpcode n
  let q := nParams n
  let args := argTDs op q
  let plain := args.foldl (fun r lo =>
    let a := (28 + args.idxOf lo) <<< 42
    let r1 := setFld (setFld r (lo + 63) 1 0) lo 47 a
    if (tdAt q lo).format.isBlock then setFld r1 (lo + 64) 47 (a + 2 ^ 41) else r1) q
  let pkt := nodePacket n plain
  let ask : Asked :=
    { p := pkt, mbx := none, ctx := 8 * nodeBerth own n, fn := partFn s p, parts := [p], pos := some (nPos n) }
  let open_ (b : Nat) : Bool := args.any (fun lo =>
    b == lo / 8 || (b == lo / 8 + 8 && (tdAt q lo).format.isBlock))
  let res := clearBits (plain % 2 ^ (384 + 512 * ownConts op)) (maskOf (assignedBits op plain)) +
    (plain / 2 ^ (384 + 512 * ownConts op)) <<< (384 + 512 * ownConts op)
  let params (l : List (Bool × Nat)) : List (Bool × Nat) :=
    (l.filter (fun f => !open_ f.2)).map (fun f => (f.1, base + 16 + f.2))
  if !definedOpcodes.contains op then [⟨1, base, S_BAD_OPCODE⟩]
  else
    ((nodeReserved n).map (fun o => (⟨2, base + o, S_RESERVED_FIELD⟩ : GraphFault))).toList ++
    (if nodeOpcode op then ((lowByte res 176).map (fun o =>
      (⟨2, base + 16 + o, S_RESERVED_FIELD⟩ : GraphFault))).toList else []) ++
    faultsOf 4 S_BAD_PARAM
      [ (!nodeOpcode op, base), (decide (2 ^ i ≤ nPred n), base + 8),
        (nPos n != ownPos s && !(s.harbour.members.getLsbD (nPos n)), base + 7),
        (decide (partAt s (nPos n) ≤ nodeBerth own n) || (isCollective op && nBerth n != 0), base + 7) ] ++
    faultsOf 4 S_BAD_PARAM (args.flatMap (fun lo =>
      [ (decide (nargs ≤ fld q lo 8) || fld q (lo + 8) 39 != 0, base + 16 + lo / 8),
        ((tdAt q lo).format.isBlock && (decide (nargs ≤ fld q (lo + 64) 8) || fld q (lo + 72) 39 != 0),
          base + 16 + lo / 8 + 8) ])) ++
    (if nodeOpcode op then
      faultsOf 4 S_BAD_PARAM (params (paramBad s ask)) ++ faultsOf 5 S_PROTECTION (params (reachBad s ask))
    else []) ++
    faultsOf 5 S_PROTECTION
      [(nPos n == ownPos s && !decide (berthPart s (nodeBerth own n) = some p), base + 7)]

/-- Faults of the graph header (Table 07-11). -/
def headerFaults (h : Nat) : List GraphFault :=
  ((lowByte (clearBits h (maskOf [(0, 48)])) 64).map (fun o => (⟨2, o, S_RESERVED_FIELD⟩ : GraphFault))).toList ++
  faultsOf 4 S_BAD_PARAM
    [ (fld h 0 32 != 0x47520001, 0), (fld h 32 8 == 0 || decide (64 < fld h 32 8), 4), (decide (64 < fld h 40 8), 5) ]

/-! ## Slots (R237) -/

def slotKey (p slot : Nat) : Nat := 16 * p + slot
def getSlot (s : State) (p slot : Nat) : GraphSlot := tabGet {} s.graphs.slots (slotKey p slot)
def setSlot (s : State) (p slot : Nat) (g : GraphSlot) : State :=
  { s with graphs := { s.graphs with slots := tabSet {} s.graphs.slots (slotKey p slot) g } }

/-- The partition of a graph command. -/
def graphPart (s : State) (c : Cmd) : Nat := (berthPart s c.berth).getD 0

/-- GRAPH_LOAD: the descriptor is read, checked and copied into a free slot. -/
def graphLoad (s : State) (c : Cmd) : State :=
  let p := graphPart s c
  let desc := fld c.params 0 47
  let slot := fld c.params 64 8
  let v := seenFrom s c.berth
  let h := loadNat v desc 64
  let nodes := fld h 32 8
  let entries := (List.range nodes).map (fun i => loadNat v (desc + 64 + 256 * i) 256)
  let early := firstFault (headerFaults h)
  let late := firstFault (entries.zipIdx.flatMap (fun e => nodeFaults s p c.berth (fld h 40 8) e.2 e.1))
  let fail (f : GraphFault) : State := finishCmd s c.id (some (f.status, 0x8000 + f.off)) []
  if (getSlot s p slot).loaded then finishCmd s c.id (some (S_BAD_PARAM, paramOffset (hasSync c.packet) 8)) []
  else if touchesSilent s [⟨.load, desc, 64⟩] then finishWork s c [⟨.load, desc, 64⟩] none []
  else match touchStatus s c.berth [⟨.load, desc, 64⟩], early with
    | some _, _ => finishWork s c [⟨.load, desc, 64⟩] none []
    | none, some f => fail f
    | none, none =>
      if !reachOk s p .load desc (64 + 256 * nodes) then
        finishCmd s c.id (some (S_PROTECTION, paramOffset (hasSync c.packet) 0)) []
      else if touchesSilent s [⟨.load, desc, 64 + 256 * nodes⟩] then
        finishWork s c [⟨.load, desc, 64 + 256 * nodes⟩] none []
      else match touchStatus s c.berth [⟨.load, desc, 64 + 256 * nodes⟩], late with
        | some _, _ => finishWork s c [⟨.load, desc, 64 + 256 * nodes⟩] none []
        | none, some f => fail f
        | none, none =>
          finishWork (setSlot s p slot { loaded := true, nodes := nodes, nargs := fld h 40 8, entries := entries }) c
            [⟨.load, desc, 64 + 256 * nodes⟩] none []

def execGraphLoad (id : CmdId) (s : State) : Out :=
  onStarted s id 0x0700 (fun c => awake s c [⟨.load, fld c.params 0 47, 64⟩] (fun t => graphLoad t c))

/-- GRAPH_UNLOAD: a slot with a run in flight stays. Of a slot that holds no graph the manual says nothing; the command
completes with S_OK and changes nothing (DESIGN CHOICE, log entry 59). -/
def graphUnload (s : State) (c : Cmd) : State :=
  let p := graphPart s c
  let slot := fld c.params 0 8
  if s.graphs.runs.any (fun r => r.part == p && r.slot == slot) then
    finishCmd s c.id (some (S_BAD_PARAM, paramOffset (hasSync c.packet) 0)) []
  else finishCmd (setSlot s p slot {}) c.id none []

def execGraphUnload (id : CmdId) (s : State) : Out := onStarted s id 0x0702 (graphUnload s)

/-! ## Runs (R237, R239 to R243) -/

/-- The run of a GRAPH_RUN command or of one of its nodes. -/
def runOf (s : State) (id : CmdId) : Option GraphRunState :=
  s.graphs.runs.find? (fun r => r.id.ctx == id.ctx && r.id.seq == id.seq)

/-- Change a run. -/
def updRun (s : State) (id : CmdId) (f : GraphRunState → GraphRunState) : State :=
  { s with graphs := { s.graphs with
    runs := mapIf (fun r => r.id.ctx == id.ctx && r.id.seq == id.seq) f s.graphs.runs } }

/-- The GRAPH_RUN command of a node. -/
def ownerOf (id : CmdId) : CmdId := { id with node := none }

/-- The nodes of a run's graph, with their numbers. -/
def runNodes (s : State) (r : GraphRunState) : List (Nat × Nat) := (getSlot s r.part r.slot).entries.zipIdx

/-- Argument `a` of a GRAPH_RUN in iteration j: BASE + j × STRIDE, from the argument table. The reserved bits [63:47] of an entry
are not looked at: R239 names no check of them (DESIGN CHOICE, log entry 81). -/
def argAddr (s : State) (c : Cmd) (a j : Nat) : Nat :=
  let e := loadNat (seenFrom s c.berth) (fld c.params 16 48 + 16 * a) 16
  (fld e 0 47 + j * fld e 64 64) % 2 ^ 64

/-- The place a resolved address fails: alignment (R209), then reach (check 5). -/
def argFault (s : State) (c : Cmd) (p n j lo : Nat) (side : Bool) : List GraphFault :=
  let q := nParams n
  let idx := if side then fld q (lo + 64) 8 else fld q lo 8
  let a := argAddr s c idx j
  let t := tdAt q lo
  let unit := if side then t.format.sideBytes else if t.format.isBlock then t.format.blockBytes else t.elemBytes
  let r := resolveArgs (nOpcode n) q (fun i => argAddr s c i j)
  let ask : Asked :=
    { p := nodePacket n r, mbx := none, ctx := 8 * nodeBerth c.berth n, fn := partFn s p, parts := [p], pos := some (nPos n) }
  let field := if side then lo / 8 + 8 else lo / 8
  (if a % unit ≠ 0 then [⟨4, idx, S_BAD_PARAM⟩] else []) ++
  (if 2 ^ 47 ≤ a ∨ (reachBad s ask).any (fun f => f.1 && f.2 == field) then [⟨5, idx, S_PROTECTION⟩] else [])

/-- The faults of the argument addresses of a run over all its iterations (R239). -/
def argFaults (s : State) (c : Cmd) (p iters : Nat) (nodes : List Nat) : List GraphFault :=
  nodes.flatMap (fun n => (argTDs (nOpcode n) (nParams n)).flatMap (fun lo =>
    (List.range iters).flatMap (fun j =>
      argFault s c p n j lo false ++
      (if (tdAt (nParams n) lo).format.isBlock then argFault s c p n j lo true else []))))

/-- A node of the run that runs on this module. -/
def ownNode (s : State) (n : Nat) : Bool := nPos n == ownPos s

/-- Node commands of a run in flight. -/
def nodesInFlight (s : State) (id : CmdId) : Bool :=
  (getCtx s id.ctx).flight.any (fun c => c.id.seq == id.seq && c.id.node.isSome)

/-- The run starts no further node: it is stopped, or every own node has done all its iterations. -/
def runOver (s : State) (r : GraphRunState) : Bool :=
  (r.stopped || (runNodes s r).all (fun n => !ownNode s n.1 || decide (r.iters ≤ (tabGet {} r.nodes n.2).completed))) &&
    !nodesInFlight s r.id

/-- The status entry of a node (R243). That of an own node that never ran shows S_OK and 0 iterations, and that of a node
placed on another module is zero: the manual gives neither (DESIGN CHOICE, log entry 60). -/
def nodeEntry (own : Bool) (x : NodeStat) : Nat :=
  if own then x.status + (x.detail % 2 ^ 16) <<< 8 + (x.completed % 2 ^ 17) <<< 24 + 1 <<< 63 else 0

/-- The run ends: its status entries are staged, and the command takes the highest-ranked node status, with the DETAIL of
the lowest-numbered node that gave it (R241, R243). -/
def finishRun (s : State) (r : GraphRunState) : State :=
  match findCmd s r.id with
  | none => s
  | some c =>
    let nodes := runNodes s r
    let entries := nodes.flatMap (fun n => bytesLE 8 (nodeEntry (ownNode s n.1) (tabGet {} r.nodes n.2)))
    let s1 := updCmd s r.id (fun m => nodes.foldl (fun m n =>
      let x := tabGet {} r.nodes n.2
      m.note x.status x.detail) m)
    let dst := fld c.params 80 48
    finishWork { s1 with graphs := { s1.graphs with runs := s1.graphs.runs.filter (fun x => decide (x.id ≠ r.id)) } } c
      [⟨.store, dst, 8 * nodes.length⟩] none (layAt dst entries)

/-- End a run that is over. -/
def settleRun (s : State) (id : CmdId) : State :=
  match runOf s id with
  | some r => if runOver s r then finishRun s r else s
  | none => s

/-- The edges to other modules of a node that has completed: its status goes to each consumer's module (R242). -/
def edgesOf (s : State) (r : GraphRunState) (i j st : Nat) : List OutMsg :=
  ((runNodes s r).filter (fun n => bitAt (nPred n.1) i && !ownNode s n.1)).map (fun n => .edge (nPos n.1) i j st)

/-- A node that cannot start in iteration j ends with a status, which its edges carry to other modules, and the run starts
no further node (R241, R242). -/
def abortNode (s : State) (id : CmdId) (i j st detail : Nat) : State :=
  let s1 := match runOf s id with
    | some r => sendAll s (edgesOf s r i j st)
    | none => s
  settleRun (updRun s1 id (fun r =>
    { r with
      stopped := true
      nodes := tabUpd {} r.nodes i (fun x =>
        if statusRank x.status < statusRank st then { x with status := st, detail := detail } else x) })) id

/-- GRAPH_EDGE_STATUS: the status of the remote node `producer` reaches the consumer `id.node` of this module. A consumer
whose remote predecessor failed does not start, and its entry shows S_ABORTED. An edge that comes before its run waits for
it. -/
def edgeStatus (s : State) (id : CmdId) (producer st : Nat) : State :=
  match runOf s id, id.node with
  | some r, some n =>
    let consumer := ((getSlot s r.part r.slot).entries.getD n.1 0)
    let remote := match (getSlot s r.part r.slot).entries[producer]? with
      | some m => !ownNode s m
      | none => false
    if !remote || !ownNode s consumer || !bitAt (nPred consumer) producer then s
    else
      let s1 := updRun s id (fun r => { r with remote := addNew (producer, n.2, st) r.remote })
      if statusWritten st then s1 else abortNode s1 id n.1 n.2 S_ABORTED 0
  | none, some _ =>
    { s with graphs := { s.graphs with edges := s.graphs.edges.filter (fun e => decide ((e.1, e.2.1) ≠ (id, producer))) ++
      [(id, producer, st)] } }
  | _, _ => s

/-- A run begins; the edges of remote nodes that came before it are its own (R242). -/
def beginRun (s : State) (r : GraphRunState) : State :=
  let mine (e : CmdId × Nat × Nat) : Bool := decide (ownerOf e.1 = r.id)
  let s1 := { s with graphs := { s.graphs with
    runs := s.graphs.runs ++ [r]
    edges := s.graphs.edges.filter (fun e => !mine e) } }
  settleRun ((s.graphs.edges.filter mine).foldl (fun t e => edgeStatus t e.1 e.2.1 e.2.2) s1) r.id

/-- GRAPH_RUN: the argument addresses are checked, and the run begins. -/
def graphRun (s : State) (c : Cmd) : State :=
  let p := graphPart s c
  let slot := fld c.params 0 8
  let g := getSlot s p slot
  let iters := fld c.params 64 16 + 1
  let ts : List Touch := [⟨.load, fld c.params 16 48, 16 * g.nargs⟩]
  if (runOf s c.id).isSome then settleRun s c.id
  else if touchesSilent s ts then finishWork s c ts none []
  else if !g.loaded then finishCmd s c.id (some (S_BAD_PARAM, paramOffset (hasSync c.packet) 0)) []
  else match touchStatus s c.berth ts with
    | some _ => finishWork s c ts none []
    | none =>
      if !reachOk s p .load (fld c.params 16 48) (16 * g.nargs) then
        finishCmd s c.id (some (S_PROTECTION, paramOffset (hasSync c.packet) 2)) []
      else match firstFault (argFaults s c p iters g.entries) with
        | some f => finishCmd s c.id (some (f.status, 0x8000 + 16 * f.off)) []
        | none =>
          beginRun (ts.foldl (fun t x => readMarks t c {} x) s) { id := c.id, part := p, slot := slot, iters := iters }

def execGraphRun (id : CmdId) (s : State) : Out :=
  onStarted s id 0x0701 (fun c => awake s c [⟨.load, fld c.params 16 48, 1024⟩, ⟨.store, fld c.params 80 48, 512⟩]
    (fun t => graphRun t c))

/-! ## Nodes (R240 to R242) -/

/-- Every predecessor of iteration j has completed with its data written (R240, R242). -/
def predsDone (s : State) (r : GraphRunState) (n j : Nat) : Bool :=
  (setBits 64 (nPred n)).all (fun k =>
    match (getSlot s r.part r.slot).entries[k]? with
    | none => false
    | some m =>
      if ownNode s m then decide (j < (tabGet {} r.nodes k).completed)
      else r.remote.any (fun e => e.1 == k && e.2.1 == j && statusWritten e.2.2))

/-- A predecessor of iteration j whose edge has not come lies on a module held dead: its position (R242). -/
def deadPred (s : State) (r : GraphRunState) (n j : Nat) : Option Nat :=
  (setBits 64 (nPred n)).findSome? (fun k =>
    match (getSlot s r.part r.slot).entries[k]? with
    | none => none
    | some m =>
      if ownNode s m || !(getMember s (nPos m)).dead || r.remote.any (fun e => e.1 == k && e.2.1 == j) then none
      else some (nPos m))

/-- A node of iteration j as a command, with its arguments resolved. -/
def nodeCmd (s : State) (c : Cmd) (n i j : Nat) : Cmd :=
  let q := resolveArgs (nOpcode n) (nParams n) (fun a => argAddr s c a j)
  planResources s
    { id := { ctx := c.id.ctx, seq := c.id.seq, node := some (i, j) }
      berth := nodeBerth c.berth n
      opcode := nOpcode n
      packet := nodePacket n q
      params := q
      gen := c.gen
      fetched := now s }

/-- A node starts: it joins the commands in flight of its context. -/
def beginNode (s : State) (m : Cmd) (i : Nat) : State :=
  let s1 := updRun s m.id (fun r => { r with nodes := tabUpd {} r.nodes i (fun x => { x with started := x.started + 1 }) })
  startCmd (updCtx s1 m.id.ctx (fun x => { x with flight := x.flight ++ [m] })) m

/-- Node i of iteration j ends at its start with a status: it counts as completed, and the run starts no further node. -/
def endNode (s : State) (id : CmdId) (i j st detail : Nat) : State :=
  abortNode (updRun s id (fun r => { r with
    nodes := tabUpd {} r.nodes i (fun x => { x with started := x.started + 1, completed := x.completed + 1 }) })) id i j st
    detail

/-- GRAPH_NODE_START: node i of iteration j starts when its predecessors and its previous iteration have completed and its
berth has the resources (R212, R240). Argument addresses that make a destination overlap a source end it with S_BAD_PARAM
(R51). -/
def nodeStart (s : State) (id : CmdId) (i j : Nat) : State :=
  match runOf s id, findCmd s (ownerOf id) with
  | some r, some c =>
    match (getSlot s r.part r.slot).entries[i]? with
    | none => s
    | some n =>
      let x := tabGet {} r.nodes i
      if r.stopped || !ownNode s n || decide (r.iters ≤ j) || x.started != j || x.completed != j ||
          decide (c.phase ≠ .started) then s
      else match deadPred s r n j with
      | some p => endNode s id i j S_TARGET_DEAD (0x100 * p)
      | none =>
        if !predsDone s r n j then s
        else
        let m := nodeCmd s c n i j
        if !domainsReady s m.berth m then wakeFor s m.berth m
        else if isOptical m.opcode m.params && !m.engines.any (engInService s m.berth) then
          endNode s id i j S_RESOURCE_RETIRED m.berth
        else if (overlapBad m.opcode m.params (collCount (ownPos s) m.params)).any (·.1) && !(argTDs (nOpcode n) (nParams n)).isEmpty then
          endNode s id i j S_BAD_PARAM (paramOffset false (overlapPairs m.opcode m.params 0).2.2)
        else if resourcesFree s m then beginNode s m i
        else s
  | _, _ => s

def execGraphNodeStart (id : CmdId) (s : State) : Out :=
  guarded (hasCtx s id.ctx) (match id.node with
    | some n => nodeStart s id n.1 n.2
    | none => s)

def execGraphEdgeStatus (id : CmdId) (producer : Nat) (status : Nat) (s : State) : Out :=
  guarded (hasCtx s id.ctx) (edgeStatus s id producer status)

/-- The waiting nodes of every run whose remote predecessors lie on a dead module end with S_TARGET_DEAD (R242). -/
def deadNodes (s : State) (pos : Nat) : State :=
  s.graphs.runs.foldl (fun t r =>
    let entries := (getSlot t r.part r.slot).entries
    entries.zipIdx.foldl (fun u n =>
      let x := tabGet {} r.nodes n.2
      let waits := (setBits 64 (nPred n.1)).any (fun k => nPos (entries.getD k 0) == pos && pos != ownPos s &&
        !r.remote.any (fun e => e.1 == k && e.2.1 == x.started))
      if ownNode s n.1 && waits && decide (x.started < r.iters) then abortNode u r.id n.2 x.started S_TARGET_DEAD (0x100 * pos)
      else u) t) s

/-! ## A node's completion (R127, R241 to R243) -/

/-- The Tally of a graph gathers that of a node (R127). -/
def TallyAcc.merge (a b : TallyAcc) (k : Nat) : TallyAcc :=
  if b.windows = 0 then a
  else
    { windows := a.windows + b.windows
      repeats := a.repeats + b.repeats
      poisonBlocks := a.poisonBlocks + b.poisonBlocks
      boundFail := a.boundFail + b.boundFail
      samples := a.samples + b.samples
      mismatches := a.mismatches + b.mismatches
      engines := b.engines.foldl (fun l e => addNew e l) a.engines
      sigma2 := max a.sigma2 b.sigma2
      zSum := a.zSum + b.zSum
      zMax := max a.zMax b.zMax
      tMin := (match a.tMin, b.tMin with
        | some x, some y => some (min x y)
        | x, none => x
        | none, y => y)
      tMax := (match a.tMax, b.tMax with
        | some x, some y => some (max x y)
        | x, none => x
        | none, y => y)
      cls := (Config.graphTally k).toNat % 8
      boundMode := (Config.graphTally k).getLsbD 3
      nlog := (Config.graphTally k).toNat / 16
      unreachable := a.unreachable || b.unreachable
      merged := true
      residualExcess := a.residualExcess || b.residualExcess || residualFails b.samples b.zSum b.zMax
      thermalStep := a.thermalStep || b.thermalStep
      lhSwitch := a.lhSwitch || b.lhSwitch
      calStale := a.calStale || b.calStale
      laneSpared := a.laneSpared || b.laneSpared }

/-- A node has completed: its results are visible, its status joins its entry, and the run goes on, stops or ends. -/
def nodeCompleted (s : State) (c : Cmd) (i j : Nat) : State :=
  match runOf s c.id with
  | none => s
  | some r =>
    let s1 := updCmd (sendAll s (edgesOf s r i j c.status)) (ownerOf c.id) (fun m => { m with tally := m.tally.merge c.tally s.fresh })
    let s2 := updRun s1 c.id (fun r =>
      { r with
        stopped := r.stopped || !statusWritten c.status
        nodes := tabUpd {} r.nodes i (fun x =>
          { x with
            completed := x.completed + 1
            status := if statusRank x.status < statusRank c.status then c.status else x.status
            detail := if statusRank x.status < statusRank c.status then c.detail else x.detail }) })
    settleRun (nextFresh s2) c.id

end Sys2Proof.Machine
end

