-- ==== Sys2Proof/Machine/OpticalData.lean ====
section
/-! DEFINITION. The numbers of optical products: segment codes and scales (R73, R74, R77), weight banks and the checksum
row (R84, R92), partial products (R75), the bound of an output block (R116, R117), and the results of a command
(R90, R224, R230). -/

namespace Sys2Proof.Machine

/-! ## Operand codes (R73, R74, R77) -/

/-- A segment of 128 elements: its codes, the exponent of its scale, and whether a code was rounded or an element has
no value. -/
structure Segment where
  codes   : List Int
  e       : Int
  rounded : Bool
  marked  : Bool
  deriving DecidableEq, Repr, Inhabited

/-- The codes at scale 2^e, rounded to nearest even; an element with no value gives 0. -/
def segmentCodes (e : Int) (els : List Num) : List Int :=
  els.map (fun v => match v with
    | .fin n m x =>
      let k : Int := (roundMag .rne n m (x - e) : Nat)
      if n then -k else k
    | _ => 0)

/-- The code of a value is exact at scale 2^e. -/
def codeExact (e : Int) (v : Num) : Bool :=
  match v with
  | .fin _ m x => decide (0 ≤ x - e) || m % 2 ^ (e - x).toNat == 0
  | _ => true

/-- The scale before the rule for codes that round to 128: the rule of R64 with p = 8, or the largest X when TBF8 blocks
of different X meet. R73 takes R64's rule for the scale and does not say that R64's limits on X bind it too; this scale is
held in no byte, and the model limits it in neither direction (DESIGN CHOICE, log entry 53). -/
def segmentScale (xs : List Nat) (els : List Num) : Int :=
  if xs.any (fun x => decide (some x ≠ xs.head?)) then ((xs.foldl max 0 : Nat) : Int) - 127
  else
    let a := largestMag els
    if a.1 = 0 then 0 else floorLog a.1 a.2 - 6

/-- A segment from its elements; `xs` are the scale exponents of its TBF8 blocks. -/
def segment (xs : List Nat) (els : List Num) : Segment :=
  let e0 := segmentScale xs els
  let e := if (segmentCodes e0 els).any (fun c => decide (128 ≤ c.natAbs)) then e0 + 1 else e0
  let codes := segmentCodes e els
  { codes := codes ++ List.replicate (128 - codes.length) 0
    e := e
    rounded := els.any (fun v => !codeExact e v)
    marked := els.any (fun v => match v with
      | .fin _ _ _ => false
      | _ => true) }

/-- The X of a TBF8 block that is not poisoned. -/
def Block.xs (b : Block) : List Nat := if b.tally.isSome && decide (b.whole = .plain) then [b.x] else []

/-- Segment c of row r of a tensor. -/
def rowSegment (s : State) (t : TD) (r c : Nat) : Segment :=
  if t.rows ≤ r then segment [] []
  else
    let bs := ((List.range 4).filter (fun k => decide (4 * c + k < t.blocks))).map (fun k => readBlock s t r (4 * c + k))
    segment (bs.flatMap Block.xs) (bs.flatMap (·.els))

/-- Segment c of column r of a tensor: the weights of the second product of ATTENTION. -/
def columnSegment (s : State) (t : TD) (r c : Nat) : Segment :=
  if t.cols ≤ r then segment [] []
  else
    let bs := ((List.range 128).filter (fun j => decide (128 * c + j < t.rows))).map
      (fun j => readBlock s t (128 * c + j) (r / 32))
    segment (bs.flatMap Block.xs) (bs.map (fun b => b.els.getD (r % 32) .zero))

/-- The accumulator of an output element (R90). -/
def accKey (product v row : Nat) : Nat := (product * 2 ^ 32 + v) * 2 ^ 32 + row

/-- A value an accumulator holds. -/
def accValue (c : Cmd) (product v row : Nat) : Num :=
  fmtFP32.decode (tabGet 0#32 c.opt.acc (accKey product v row)).toNat

/-- The tensors of weights and inputs of the first product. -/
def weightTD (c : Cmd) : TD := if c.opcode = 0x0400 then tdAt c.params 128 else tdAt c.params 384
def inputTD (c : Cmd) : TD := if c.opcode = 0x0400 then tdAt c.params 384 else tdAt c.params 128

/-- Segment c of weight row i of a product. -/
def weightSegment (s : State) (c : Cmd) (product i seg : Nat) : Segment :=
  if product = 0 then rowSegment s (weightTD c) i seg else columnSegment s (tdAt c.params 640) i seg

/-- Segment c of input vector v of a product; the second product of ATTENTION takes the probabilities, held in the
accumulators of the first. -/
def inputSegment (s : State) (c : Cmd) (product v seg : Nat) : Segment :=
  if product = 0 then rowSegment s (inputTD c) v seg
  else
    let k := (optDims c 1).cols
    segment [] (((List.range 128).filter (fun j => decide (128 * seg + j < k))).map
      (fun j => accValue c 0 v (128 * seg + j)))

/-! ## Banks (R84, R92) -/

/-- A sum of integers. -/
def sumInt (l : List Int) : Int := l.foldl (· + ·) 0

/-- RNE(x / 128). -/
def div128 (x : Int) : Int :=
  let k : Int := (roundMag .rne (decide (x < 0)) x.natAbs (-7) : Nat)
  if x < 0 then -k else k

/-- The bank that a weight block loads: its rows, and the checksum codes of the column sums. -/
def loadBank (s : State) (c : Cmd) (k : OptBlock) : Bank :=
  let segs := (List.range 128).map (fun i => weightSegment s c k.product (128 * k.g + i) k.c)
  let codes := segs.map (·.codes)
  let sums := (List.range 128).map (fun j => sumInt (codes.map (fun r => r.getD j 0)))
  { block := some (c.id, k)
    loaded := true
    codes := codes
    scales := segs.map (·.e)
    rounded := segs.map (·.rounded)
    marked := segs.map (·.marked)
    check := sums.map div128
    colSums := sums }

/-! ## Windows (R75, R92, R98) -/

/-- A dot product of integer codes. -/
def dotInt (a b : List Int) : Int := sumInt ((a.zip b).map (fun e => e.1 * e.2))

/-- 128 times the difference that the checksum comparison sees: the checksum row's output against (1/128) Σ û − k. -/
def checkDifference (k : Bank) (q rows : List Int) (check : Int) : Int :=
  let d := q.map (· + 128)
  128 * check - sumInt rows + sumInt ((List.range 128).map (fun j =>
    (k.colSums.getD j 0 - 128 * k.check.getD j 0) * d.getD j 128))

/-- The window mismatches at a predicted σ² (R93, R115). -/
def mismatches (k : Bank) (q rows : List Int) (check : Int) (sigma2 : Nat) : Bool :=
  let d := checkDifference k q rows check
  decide (checkLimit2 sigma2 < d.natAbs * d.natAbs * 10 ^ 30)

/-- û_i − o_i of row i (R75). -/
def signalOf (k : Bank) (rows : List Int) (i : Nat) : Int := rows.getD i 0 - 128 * sumInt (k.codes.getD i [])

/-- The partial product p_i, held in FP32. -/
def partialOf (k : Bank) (inE : Int) (rows : List Int) (i : Nat) : W32 :=
  code32 ((Num.ofInt (signalOf k rows i)).scale (k.scales.getD i 0 + inE))

/-- The residual of a sampled row (R98). -/
def residualOf (k : Bank) (q rows : List Int) (i : Nat) : Int := signalOf k rows i - dotInt (k.codes.getD i []) q

/-- A residual square over (σ U_FS)², in units of 2⁻⁴⁰, rounded up (R131). -/
def ratio2 (r2 sigma2 : Nat) : Nat := ceilDiv (r2 * 10 ^ 30 * 2 ^ 40) (max 1 (sigma2 * fullScale * fullScale))

/-! ## Outputs (R116, R117) -/

/-- No suspect flag is set and SIGMA_ROW is the class baseline: the tallies are those of σ_min for every block (R135). -/
def atBaseline (t : TallyAcc) : Bool := !anyFlag t && sigmaRow t.sigma2 == sigmaRow (sigmaMin2 t.cls)

/-- The σ² that a weight block of an output counts with: that of its committed run (R113), or σ_min² (R135). -/
def committedSigma (c : Cmd) (k : OptBlock) : Nat :=
  if atBaseline c.tally then sigmaMin2 c.tally.cls
  else match c.opt.committed.find? (fun e => decide (e.1 = k)) with
  | some e => e.2
  | none => 0

/-- 4 σ_y + D_q + D_a of an output element: `w` and `x` are the segments of its weight row and its input vector with
the σ² of each weight block (R116, R117). -/
def opticalBound (l : List (Segment × Segment × Nat)) : Bnd :=
  let scale (t : Segment × Segment × Nat) : Int := t.1.e + t.2.1.e
  let var := sumBnd (l.map (fun t => (⟨t.2.2 * fullScale * fullScale, 2 * scale t⟩ : Bnd)))
  let det := sumBnd (l.map (fun t =>
    (⟨8192 * (bit t.2.1.rounded + bit t.1.rounded) + 32 * bit (t.2.1.rounded && t.1.rounded), scale t⟩ : Bnd)))
  let sum := sumBnd (l.map (fun t => (⟨1, scale t⟩ : Bnd)))
  sumBnd [(Bnd.sqrtUp (Bnd.divUp var (.ofNat (10 ^ 30)))).shift 2, det, (sum.mul (.ofNat l.length)).shift (-1)]

/-- The segments of every weight row, and of every input vector, of a product. -/
def weightTable (s : State) (c : Cmd) (product : Nat) : List (List Segment) :=
  let d := optDims c product
  (List.range d.rows).map (fun i => (List.range (ceilDiv d.cols 128)).map (weightSegment s c product i))
def inputTable (s : State) (c : Cmd) (product : Nat) : List (List Segment) :=
  let d := optDims c product
  (List.range d.vecs).map (fun v => (List.range (ceilDiv d.cols 128)).map (inputSegment s c product v))

/-- One output element of a product: the accumulated value, or the element marker of R77, and its bound. -/
def opticalElem (c : Cmd) (product v i pass : Nat) (w x : List Segment) : Elem :=
  if w.any (·.marked) || x.any (·.marked) then ⟨.marker, .zero⟩
  else
    let l := (w.zip x).zipIdx.map (fun t => (t.1.1, t.1.2, committedSigma c ⟨product, pass, i / 128, t.2⟩))
    ⟨accValue c product v i, opticalBound l⟩

/-- The elements of a product, row by row of its result. -/
def opticalRows (s : State) (c : Cmd) (product : Nat) : List (List Elem) :=
  let ws := weightTable s c product
  let pass := max (optDims c product).pass 1
  (inputTable s c product).zipIdx.map (fun x => ws.zipIdx.map (fun w =>
    opticalElem c product x.2 w.2 (x.2 / pass) w.1 x.1))

/-- An output TBF16 block: its bound and the 1 ulp of its rounding (R117). -/
def encodeOptical (r : Rnd) (l : List Elem) : BlockOut :=
  let v := elemsVec false l
  encodeTallied 16 r v.els v.bound (fun _ => ⟨1, 0⟩)

/-- The last product of a command is complete: its result is converted and staged. A block counts in the Tally record when it
is written (R90, R118, R128, R130). -/
def finishOptical (s : State) (c : Cmd) (product : Nat) : State :=
  let t := if c.opcode = 0x0400 then tdAt c.params 640 else tdAt c.params 896
  let outs : OutBlocks := (opticalRows (seenFrom s (c.berth)) c product).zipIdx.flatMap (fun row =>
    (groups32 row.1).zipIdx.map (fun g => (row.2, g.2, encodeOptical (cRnd c.params) g.1)))
  let s1 := updCmd s c.id (fun m =>
    { m with opt := { m.opt with outs := outs.map (fun o => ((placeBlock t o).map (·.1), o.2.2.side / 256)) } })
  finishWork s1 c [] none (outs.flatMap (placeBlock t))

/-- Between the products of ATTENTION: the scores are scaled, their softmax is formed in FP32, and the second product is
dealt out (R230). -/
def attentionMiddle (s : State) (c : Cmd) : State :=
  let q := c.params
  let probs := (opticalRows (seenFrom s (c.berth)) c 0).zipIdx.map (fun r =>
    attentionRow s (bitAt q 64) (fmtFP32.decode (cOpt1 q)) r.2 r.1)
  let acc := probs.zipIdx.foldl (fun t r => r.1.els.zipIdx.foldl (fun t p =>
    tabSet 0#32 t (accKey 0 r.2 p.2) (code32 p.1)) t) c.opt.acc
  nextFresh (updCmd s c.id (fun m => planProduct s { m with opt := { m.opt with acc := acc } } 1))

/-- Every block of the product in progress is committed: the command goes on to its second product, or finishes. -/
def productDone (s : State) (c : Cmd) : State :=
  if c.opt.todo ≠ [] then s
  else if c.opcode = 0x0510 ∧ c.opt.stage = 1 then attentionMiddle s c
  else finishOptical s c (c.opt.stage - 1)

end Sys2Proof.Machine
end

