-- ==== Sys2Proof/Machine/TestQueue.lean ====
section
/-! DEFINITION. Tests and boundaries: the queue of tests and calibrations of each element (R454, R457), rotation of the
engines (R102), transients (R461), and Lighthouse pairs (R479, R480). -/

namespace Sys2Proof.Machine

/-! ## The queue (R457) -/

/-- Queue a test on an element; a request for one already queued there joins it. -/
def queueTest (s : State) (t : TestReq) : State :=
  let same (x : TestReq) : Bool := decide (x.el = t.el) && x.code == t.code && !x.running
  let join (x : TestReq) : TestReq :=
    { x with
      rank := min x.rank t.rank
      who := x.who ++ t.who
      work := match x.work with
        | some w => some w
        | none => t.work }
  { s with recovery := { s.recovery with
      tests := if s.recovery.tests.any same then mapIf same join s.recovery.tests else s.recovery.tests ++ [t] } }

/-- The test that runs on an element. -/
def runningTest (s : State) (el : Element) : Option TestReq :=
  s.recovery.tests.find? (fun t => decide (t.el = el) && t.running)

/-- The test that is next on an element: the least rank, then the oldest; none while one runs there. -/
def nextTest (s : State) (el : Element) : Option TestReq :=
  if (runningTest s el).isSome then none
  else
    let l := s.recovery.tests.filter (fun t => decide (t.el = el))
    [1, 2, 3].foldl (fun r k => match r with
      | some t => some t
      | none => l.find? (fun t => t.rank == k)) none

/-- Mark a queued test as running. -/
def startTest (s : State) (t : TestReq) : State :=
  { s with recovery := { s.recovery with
      tests := mapIf (fun x => decide (x = t)) (fun x => { x with running := true }) s.recovery.tests } }

/-- Remove the running test of an element. -/
def endTest (s : State) (el : Element) : State :=
  { s with recovery := { s.recovery with tests := s.recovery.tests.filter (fun t => !(decide (t.el = el) && t.running)) } }

/-- Order a targeted test that starts at once (R461). -/
def orderTest (s : State) (el : Element) (code : Nat) (work : Option CmdId) : State :=
  { s with recovery := { s.recovery with
      tests := s.recovery.tests ++ [{ el := el, code := code, rank := 1, running := true, work := work }] } }

/-- One hour and one day in ns. -/
def hourNs : Nat := 3600000000000
def dayNs : Nat := 86400000000000

/-! ## Engines: rotation (R102, R104, R213) -/

def Engine.active (x : Engine) : Bank := if x.activeB then x.bankB else x.bankA
def Engine.idle (x : Engine) : Bank := if x.activeB then x.bankA else x.bankB
def Engine.setActive (x : Engine) (k : Bank) : Engine := if x.activeB then { x with bankB := k } else { x with bankA := k }
def Engine.setIdle (x : Engine) (k : Bank) : Engine := if x.activeB then { x with bankA := k } else { x with bankB := k }

/-- The engine holds a block in a bank, or runs it, or waits for its last outputs. -/
def Engine.holds (x : Engine) (id : CmdId) (k : OptBlock) : Bool :=
  decide (x.bankA.block = some (id, k)) || decide (x.bankB.block = some (id, k)) ||
  (match x.run with
   | some r => decide (r.id = id) && decide (r.block = k)
   | none => false) ||
  (match x.finishing with
   | some r => decide (r.id = id) && decide (r.block = k)
   | none => false)

/-- The engine takes blocks: in rotation, in service, not being reset, its domain on. -/
def engineWorks (s : State) (b e : Nat) : Bool :=
  let x := getEngine s b e
  decide (x.rotation = .inRotation) && !x.resetting && (getDomain s (engineDom b e)).ready

/-- An engine that goes out of rotation lends the blocks that it does not run (R102). One that it has loaded is unloaded when
the engine returns, unless it is its own again. -/
def lendBlocks (s : State) (b e : Nat) : State :=
  let hit (c : Cmd) : Bool := decide (c.phase = .started) && onEngine b e c
  (List.range 64).foldl (fun t k => updCtx t k (fun y => { y with flight := mapIf hit (lendOf s e) y.flight })) s

/-- The command and the block that are next on an engine: the first command of the rotation with a block for it that it
does not hold yet (R213). -/
def nextBlock (s : State) (b e : Nat) : Option (Cmd × OptBlock) :=
  let x := getEngine s b e
  x.rotationList.findSome? (fun id => match findCmd s id with
    | some c =>
      if c.phase = .started then
        (c.opt.todo.find? (fun t => t.1 == e && !x.holds id t.2)).map (fun t => (c, t.2))
      else none
    | none => none)

/-- Whether a command still wants a block from an engine. -/
def wantsBlock (s : State) (e : Nat) (id : CmdId) (k : OptBlock) : Bool :=
  match findCmd s id with
  | some c => decide (c.phase = .started) && c.opt.todo.contains (e, k)
  | none => false

/-- The vectors of a block. -/
def blockVectors (s : State) (id : CmdId) (k : OptBlock) : Nat :=
  match findCmd s id with
  | some c => (optDims c k.product).count k.pass
  | none => 0

/-- The predicted σ² in effect for a class (R112, R115). -/
def Engine.sigmaNow (x : Engine) (cls : Nat) : Nat := sigmaPred2 cls x.comb x.widen2

/-- A bank whose block its command no longer wants, or one loaded before the checksum row failed, is unloaded: no block
computes without a working checksum row (R71, R72, R188). -/
def Engine.unloadStale (x : Engine) : Engine :=
  if x.rowPend.any (fun p => p.1 == 128) then
    match x.run with
    | some _ => (x.setActive { x.active with loaded := false }).setIdle {}
    | none => (x.setActive {}).setIdle {}
  else x

/-- The windows of the block in the active bank start, when nothing stands against it: those of a new run, or of one that
was discarded and is run again. `startRun` counts the evaluation in effect at the start among those of the run, since the
block runs under it: the manual leaves open whether it does (R113; DESIGN CHOICE, log entry 54). The start is a window
boundary, at which waiting heater codes are applied (R79). -/
def startRun (s0 : State) (b e : Nat) : State :=
  let s := updEngine s0 b e Engine.unloadStale
  let x := getEngine s b e
  if !engineWorks s b e || x.guard || x.paused || x.lhSwitching || !x.active.loaded then s
  else match x.run, x.active.block with
    | some r, _ =>
      if r.live then s
      else
        updEngine s b e (fun y =>
          { y.applyHeat with run := some { r with live := true, sigma2 := x.sigmaNow (classOf s r.id) } })
    | none, some (id, k) =>
      if wantsBlock s e id k then
        updEngine s b e (fun y =>
          { y.applyHeat with run := some { id := id, block := k, count := blockVectors s id k, sigma2 := x.sigmaNow (classOf s id) } })
      else updEngine s b e (fun y => y.setActive {})
    | none, none => s

/-- Another engine of the berth is out of rotation for a calibration (R451). -/
def berthCalibrates (s : State) (b e : Nat) : Bool :=
  (List.range 16).any (fun k => k != e && s.recovery.tests.any (fun t =>
    decide (t.el = .engine b k) && t.running && t.code == 0x10 && decide (1 < t.rank)))

/-- An engine at a boundary, running nothing: the next test of its queue takes it out of rotation, while the last outputs of
its block are on their way. A calibration waits
for the end of a thermal step (R102) and, unless the procedure of R461 ordered it, for the berth's other calibrations
(R451, R454). -/
def engineBoundary (s : State) (b e : Nat) : State :=
  let x := getEngine s b e
  match nextTest s (.engine b e) with
  | none => s
  | some t =>
    if decide (x.rotation ≠ .inRotation) || x.resetting || x.run.isSome ||
        (t.code == 0x10 && (x.thermalStep || (decide (1 < t.rank) && berthCalibrates s b e))) then s
    else lendBlocks (updEngine (startTest s t) b e (fun y => { y with rotation := .outOfRotation })) b e

/-- Every engine of a berth looks for its boundary: the end of a calibration lets the next one of the berth begin
(R451). -/
def berthBoundaries (s : State) (b : Nat) : State := (List.range 16).foldl (fun t e => engineBoundary t b e) s

/-- A test that an engine reset broke off waits in its queue again (log entry 33). -/
def requeueTests (s : State) (el : Element) : State :=
  { s with recovery := { s.recovery with
      tests := mapIf (fun t => decide (t.el = el)) (fun t => { t with running := false }) s.recovery.tests } }

/-- An engine returns to rotation: its block runs, or its next test starts. -/
def returnEngine (s : State) (b e : Nat) : State :=
  let s1 := updEngine s b e (fun y => if y.rotation = .outOfRotation then { y with rotation := .inRotation } else y)
  engineBoundary (startRun s1 b e) b e

/-- A transient on an engine is counted; 8 in the last hour fail it (R461). -/
def engineTransient (s : State) (b e : Nat) : State × Bool :=
  let l := within hourNs (now s) (getEngine s b e).transients ++ [now s]
  (countTransient (updEngine s b e (fun y => { y with transients := l })) b, decide (8 ≤ l.length))

/-! ## Lighthouse pairs (R479, R480) -/

/-- The domain number of a Lighthouse (Table 13-3), its site, and its number k. -/
def LhDomain (lh : LighthouseId) : Nat :=
  match lh with
  | .engine b e k => 0x400 + 32 * b + 2 * e + k
  | .fabric site k => 0x500 + 2 * site + k
  | .link q k => 0x580 + 2 * q + k
def LhSite (lh : LighthouseId) : Nat :=
  match lh with
  | .engine b _ _ => b
  | .fabric site _ => site
  | .link q _ => quaySite q
def LhNumber (lh : LighthouseId) : Nat :=
  match lh with
  | .engine _ _ k => k
  | .fabric _ k => k
  | .link _ k => k

/-- The PART field of an event about a Lighthouse: the partition of an engine's berth. -/
def LhPart (s : State) (lh : LighthouseId) : Nat :=
  match lh with
  | .engine b _ _ => partField s b
  | _ => 0xF

def getQuayLh (s : State) (q : Nat) : FabricPort := tabGet {} s.harbour.quayLh q
def updQuayLh (s : State) (q : Nat) (f : FabricPort → FabricPort) : State :=
  { s with harbour := { s.harbour with quayLh := tabUpd {} s.harbour.quayLh q f } }

/-- The record of a Lighthouse, and a change to it. -/
def getLh (s : State) (lh : LighthouseId) : Lighthouse :=
  match lh with
  | .engine b e k => if k = 0 then (getEngine s b e).lh0 else (getEngine s b e).lh1
  | .fabric site k => if k = 0 then (getPort s site).lh0 else (getPort s site).lh1
  | .link q k => if k = 0 then (getQuayLh s q).lh0 else (getQuayLh s q).lh1
def updLh (s : State) (lh : LighthouseId) (f : Lighthouse → Lighthouse) : State :=
  match lh with
  | .engine b e k => updEngine s b e (fun x => if k = 0 then { x with lh0 := f x.lh0 } else { x with lh1 := f x.lh1 })
  | .fabric n k => updPort s n (fun x => if k = 0 then { x with lh0 := f x.lh0 } else { x with lh1 := f x.lh1 })
  | .link q k => updQuayLh s q (fun x => if k = 0 then { x with lh0 := f x.lh0 } else { x with lh1 := f x.lh1 })

/-- The other Lighthouse of the pair. -/
def LhOther (lh : LighthouseId) : LighthouseId :=
  match lh with
  | .engine b e k => .engine b e (1 - k)
  | .fabric n k => .fabric n (1 - k)
  | .link q k => .link q (1 - k)

/-- A Lighthouse can take over: not retired, and not under its test. -/
def lhReady (s : State) (lh : LighthouseId) : Bool := !(getLh s lh).retired && !(getLh s lh).testing

/-- Retire a Lighthouse, with its event (R463, R480). -/
def retireLh (s : State) (lh : LighthouseId) : State :=
  if (getLh s lh).retired then s
  else
    raise (retire (updLh s lh (fun l => { l with retired := true, testing := false })) (LhSite lh)
        ⟨3, 0x0401, LhDomain lh, 0, 0⟩)
      { code := 0x0401
        outcome := if (getLh s (LhOther lh)).retired then 3 else 2
        part := LhPart s lh
        site := LhSite lh
        unit := LhNumber lh
        arg := LhDomain lh }

/-- A Lighthouse faults: the fault is recorded; a second within 24 h retires it, otherwise its test is ordered (R480).
The switch-over to the other one, or the retirement, raises fault event 0x0401. -/
def faultLh (s : State) (lh : LighthouseId) : State :=
  let l := within dayNs (now s) (getLh s lh).faults ++ [now s]
  let s1 := updLh s lh (fun x => { x with faults := l })
  if 2 ≤ l.length then retireLh s1 lh
  else
    let s2 := raise s1
      { code := 0x0401
        outcome := 2
        part := LhPart s lh
        site := LhSite lh
        unit := LhNumber lh
        arg := LhDomain lh }
    orderTest (updLh s2 lh (fun x => { x with testing := true })) (.lighthouse lh) 0 none

end Sys2Proof.Machine
end

