-- ==== Sys2Proof/Machine/Engines.lean ====
section
/-! DEFINITION. The optical engines at work (spec/03_optical_matrix_engines.md): bank loads and switches, windows and
their checksum comparison, outputs and commits, ticks, thermal pauses, Lighthouse switch-overs and engine resets. -/

namespace Sys2Proof.Machine

/-! ## Bank loads and switches (R84, R85, R213) -/

/-- Load a bank: the waiting moves of lines and rows take effect with it (R71). -/
def Engine.load (x : Engine) (toActive : Bool) (k : Bank) : Engine :=
  let y := x.applyMoves
  if toActive then y.setActive k else y.setIdle k

/-- A block that is run again on a new map is loaded again (R103). -/
def reloadBlock (s : State) (b e : Nat) (r : Run) : State :=
  match findCmd s r.id with
  | some c => updEngine s b e (fun x => x.load true (loadBank (seenFrom s b) c r.block))
  | none => updEngine s b e (fun x => { x.atBoundary with run := none })

/-- The block is the first of its command on an engine. -/
def firstBlock (x : Engine) (e : Nat) (c : Cmd) : Bool :=
  !c.tally.engines.contains e && (match x.finishing with
    | some r => decide (r.id ≠ c.id)
    | none => true)

/-- BANK_LOAD_DONE: the next block of the rotation is in the idle bank. The first block of a command, with no block running
and none loaded, starts at once; any other waits for the bank switch and its guard (R85). -/
def bankLoadDone (s : State) (b e : Nat) : State :=
  let x := getEngine s b e
  if !engineWorks s b e || x.guard then s
  else match x.run, x.active.loaded with
    | some r, false => startRun (reloadBlock s b e r) b e
    | r, loaded =>
      if x.idle.loaded then s
      else match nextBlock s b e with
        | none => s
        | some (c, k) =>
          let toActive := decide (r = none) && !loaded && firstBlock x e c
          startRun (updEngine s b e (fun y =>
            { y.load toActive (loadBank (seenFrom s b) c k) with
              rotationList := y.rotationList.filter (fun i => decide (i ≠ c.id)) ++ [c.id] })) b e

def execBankLoadDone (berth engine : Nat) (s : State) : Out :=
  guarded (hasEngine s berth engine) (bankLoadDone s berth engine)

/-- The last window of the current block has ended, or no block runs. -/
def Engine.atEnd (x : Engine) : Bool :=
  match x.run with
  | some r => r.ended
  | none => !x.active.loaded

/-- BANK_SWITCH: the loaded bank becomes active and the guard starts; new tables take effect, waiting lines are
renormalised (R81, R82), the predicted σ is evaluated (R113), a wanted pause begins (R101), and a queued test takes the
engine out of rotation (R454). -/
def bankSwitch (s : State) (b e : Nat) : State :=
  let x := getEngine s b e
  if !engineWorks s b e || x.guard || x.lhSwitching || x.finishing.isSome || !x.atEnd || !x.idle.loaded then s
  else
    let y := { x.setActive {} with
      activeB := !x.activeB
      guard := true
      finishing := x.run
      run := none }
    engineBoundary (updEngine s b e (fun _ => (y.atBoundary.renormalise.applyTables (now s)).evaluate (now s) (classOf s))) b e

def execBankSwitch (berth engine : Nat) (s : State) : Out :=
  guarded (hasEngine s berth engine) (bankSwitch s berth engine)

/-- GUARD_END: the windows of the next block start. -/
def execGuardEnd (berth engine : Nat) (s : State) : Out :=
  guarded (hasEngine s berth engine)
    (if (getEngine s berth engine).guard then
      startRun (updEngine s berth engine (fun x => { x with guard := false })) berth engine
    else s)

/-! ## Windows (R89, R92 to R94) -/

/-- A run set back to its first vector. -/
def Run.again (r : Run) (number sigma2 : Nat) : Run :=
  { r with
    next := 0
    slot := 0
    number := number
    mismatch := false
    live := false
    sigma2 := sigma2
    samples := 0
    zSum := 0
    zMax := 0
    ended := false
    arrived := 0 }

/-- Drop the outputs and the staging of the run of an engine, and set its sampling register back (R86, R96). -/
def discardRun (s : State) (b e : Nat) : State :=
  let x := getEngine s b e
  match x.run with
  | none => s
  | some r =>
    let s1 := updEngine s b e (fun y =>
      { y with
        outputs := y.outputs.filter (fun o => !(decide (o.id = r.id) && decide (o.block = r.block)))
        staging := if y.finishing.isSome then y.staging else [] })
    if r.arrived = 0 then s1
    else updCmd s1 r.id (fun c =>
      { c with opt := { c.opt with lfsr := tabSet 0#16 c.opt.lfsr (r.block.product * 16 + e) r.lfsr0 } })

/-- The run of an engine is to run again from its first vector (R94, R99). -/
def repeatRun (s : State) (b e number : Nat) : State :=
  let s1 := discardRun s b e
  match (getEngine s1 b e).run with
  | none => s1
  | some r =>
    let sg := (getEngine s1 b e).sigmaNow (classOf s1 r.id)
    flagCmd (updEngine s1 b e (fun y => { y with run := some (r.again number sg) })) r.id
      (fun t => { t with repeats := t.repeats + 1 })

/-- LIGHTHOUSE_FAULT: the block in progress is discarded and the standby comes up; with none left, or when the fault falls
into a switch-over, the engine leaves service. -/
def lighthouseFault (s : State) (b e : Nat) : State :=
  let x := getEngine s b e
  let lh : LighthouseId := .engine b e x.lhActive
  if x.rotation = .left then s
  else
    let s1 := faultLh s lh
    if x.lhSwitching || !lhReady s (LhOther lh) then berthBoundaries (leaveService s1 b e 4) b
    else
      let s2 := match x.run with
        | some r => flagCmd (repeatRun s1 b e r.number) r.id (fun t => { t with lhSwitch := true })
        | none => s1
      updEngine s2 b e (fun y => { y with lhActive := 1 - y.lhActive, lhSwitching := true })

/-- The number of a weight block among those of its product, as fault event 0x0201 reports it. -/
def blockNumber (s : State) (id : CmdId) (k : OptBlock) : Nat :=
  match findCmd s id with
  | some c =>
    let d := optDims c k.product
    (k.pass * ceilDiv d.cols 128 + k.c) * ceilDiv d.rows 128 + k.g
  | none => 0

/-- The second run of a block mismatched as well: fault event 0x0201, and the engine leaves rotation for the ring sweep
with the block held (R94, R461). -/
def sweepForRun (s : State) (b e : Nat) (r : Run) : State :=
  let s1 := raise (repeatRun s b e 3)
    { code := 0x0201
      site := b
      unit := e
      part := partField s b
      arg := blockNumber s r.id r.block }
  lendBlocks (updEngine (orderTest s1 (.engine b e) 0x03 (some r.id)) b e (fun x => { x with rotation := .outOfRotation }))
    b e

/-- The last permitted retry mismatched: the engine leaves service; work without a peer ends with S_HW_ERROR (R462). -/
def retriesSpent (s : State) (b e : Nat) (r : Run) : State :=
  let s1 := updCmd s r.id (fun c =>
    if c.opt.engines.any (fun k => k != e && engInService s b k) then c else c.note S_HW_ERROR b)
  leaveService s1 b e 8

/-- A window mismatched: the block runs again, or its engine is tested, or leaves service. -/
def windowMismatch (s : State) (b e : Nat) (r : Run) : State :=
  let s1 := flagCmd s r.id (fun t => { t with mismatches := t.mismatches + 1 })
  if r.number = 1 then
    startRun (repeatRun s1 b e 2) b e
  else if r.number = 2 then sweepForRun s1 b e r
  else retriesSpent s1 b e r

/-- A clean window: its output is on its way, and the run goes on to its next vector. -/
def windowClean (s : State) (b e : Nat) (r : Run) (seg : Segment) (rows : List Int) : State :=
  updEngine s b e (fun x =>
    { x with
      outputs := x.outputs ++
        [{ gen := x.gen
           id := r.id
           block := r.block
           vector := r.next
           parts := (List.range 128).map (partialOf x.active seg.e rows)
           residuals := (List.range 128).map (residualOf x.active seg.codes rows)
           last := r.next + 1 == r.count }]
      run := some { r with next := r.next + 1, ended := r.next + 1 == r.count } })

/-- The throttle of the berth leaves a window of a run idle: of the windows of a block a fraction 1 − u, spread evenly
(R109, R409). -/
def throttleIdle (s : State) (b slot : Nat) : Bool :=
  let v := 64 - (getBerth s b).throttle
  decide (slot * v / 64 < (slot + 1) * v / 64)

/-- An idle window of a run. -/
def windowIdle (s : State) (b e : Nat) (r : Run) : State :=
  updEngine s b e (fun y =>
    { y.applyHeat with idleWindows := y.idleWindows + 1, run := some { r with slot := r.slot + 1 } })

/-- INTEGRATION_WINDOW_END: `rows` and `check` are the reconstructed outputs of the data rows and the checksum row. A
window that could not be fed, its region's crossings held among the reasons (R161), or that the throttle leaves idle, only
costs time (R89, R109). In a window with a Lighthouse
fault the engine handles that first: the discarded block is not repeated for a mismatch of it (R106). -/
def windowEnd (s : State) (b e : Nat) (rows : List Int) (check : Int) (o : WindowSeen) : State :=
  let x := getEngine s b e
  match x.run with
  | none => s
  | some r =>
    if !engineWorks s b e || x.guard || x.lhSwitching || r.ended || !r.live || !x.active.loaded then s
    else if o.lighthouse then lighthouseFault s b e
    else if !o.fed || (getRegion s b e).holding || throttleIdle s b r.slot then windowIdle s b e r
    else if !wantsBlock s e r.id r.block then
      engineBoundary (updEngine (discardRun s b e) b e (fun y => { (y.setActive {}).atBoundary with run := none })) b e
    else match findCmd s r.id with
      | none => s
      | some c =>
        let d := optDims c r.block.product
        let seg := inputSegment (seenFrom s b) c r.block.product (r.block.pass * d.pass + r.next) r.block.c
        let s1 := updEngine (flagCmd s r.id (fun t =>
            { t with
              windows := t.windows + 1
              thermalStep := t.thermalStep || x.thermalStep
              calStale := t.calStale || x.stale })) b e
          (fun y => { y.applyHeat with ranSince := addNew r.id y.ranSince })
        if mismatches x.active seg.codes rows check (x.sigmaNow c.tally.cls) then windowMismatch s1 b e r
        else windowClean s1 b e { r with slot := r.slot + 1 } seg rows

def execIntegrationWindowEnd (berth engine : Nat) (rows : List Int) (check : Int) (seen : WindowSeen) (s : State) : Out :=
  guarded (hasEngine s berth engine) (windowEnd s berth engine rows check seen)

/-! ## Outputs and commits (R86, R90, R96, R98, R105) -/

/-- Step the sampling register over the 128 rows of a window and gather the residuals of the sampled ones: the register,
and the count, sum and largest square. -/
def sampleRows (n : Nat) (residual : Nat → Int) (lfsr : W16) : W16 × Nat × Nat × Nat :=
  (List.range 128).foldl (fun a i =>
    let x := lfsrStep a.1
    if lfsrSamples n x then
      let r2 := (residual i).natAbs * (residual i).natAbs
      (x, a.2.1 + 1, a.2.2.1 + r2, max a.2.2.2 r2)
    else (x, a.2)) (lfsr, 0, 0, 0)

/-- The register of an engine for a product, at its seed before its first step (R96, R97). -/
def registerOf (c : Cmd) (product e : Nat) : W16 :=
  let x := tabGet 0#16 c.opt.lfsr (product * 16 + e)
  if x = 0 then lfsrSeed c.opt.seedValue product e else x

/-- The committed block joins its command: the staged partial products are added into the accumulators in FP32, and the
run's samples, σ and engine join the Tally record (R86, R90, R113, R131). -/
def commitCmd (c : Cmd) (e : Nat) (r : Run) (staging : Tab W32) : Cmd :=
  let d := optDims c r.block.product
  let add (t : Tab W32) (p : Nat × W32) : Tab W32 :=
    let k := accKey r.block.product (r.block.pass * d.pass + p.1 / 128) (128 * r.block.g + p.1 % 128)
    let old := fmtFP32.decode (tabGet 0#32 t k).toNat
    tabSet 0#32 t k (code32 (old.add .rne (fmtFP32.decode p.2.toNat)))
  { c with
    opt := { c.opt with
      acc := staging.foldl add c.opt.acc
      todo := c.opt.todo.filter (fun t => !(t.1 == e && decide (t.2 = r.block)))
      committed := c.opt.committed ++ [(r.block, r.sigma2)] }
    tally := { c.tally with
      engines := addNew e c.tally.engines
      sigma2 := max c.tally.sigma2 r.sigma2
      samples := c.tally.samples + r.samples
      zSum := c.tally.zSum + ratio2 r.zSum r.sigma2
      zMax := max c.tally.zMax (ratio2 r.zMax r.sigma2) } }

/-- Commit a run whose last output has arrived. A run that was not followed by a bank switch leaves its bank empty, and
the engine stands at a boundary. -/
def commitRun (s : State) (b e : Nat) (r : Run) (switched : Bool) : State :=
  let x := getEngine s b e
  let s1 := updCmd s r.id (fun c => if c.phase = .started then commitCmd c e r x.staging else c)
  let s2 := updEngine s1 b e (fun y =>
    if switched then { y with finishing := none, staging := [] }
    else { (y.setActive {}).renormalise.atBoundary with run := none, staging := [] })
  let s3 := match findCmd s2 r.id with
    | some c => if c.phase = .started then productDone s2 c else s2
    | none => s2
  engineBoundary s3 b e

/-- An output joins its run: its partial products are staged and its sampled residuals counted. -/
def stageOutput (s : State) (b e : Nat) (o : WindowOut) (r : Run) (switched : Bool) : State :=
  match findCmd s o.id with
  | none => s
  | some c =>
    let d := optDims c o.block.product
    let reg := registerOf c o.block.product e
    let live := min 128 (d.rows - 128 * o.block.g)
    let smp := sampleRows c.tally.nlog (fun i => o.residuals.getD i 0) reg
    let r1 := { r with
      lfsr0 := if r.arrived = 0 then reg else r.lfsr0
      arrived := r.arrived + 1
      samples := r.samples + smp.2.1
      zSum := r.zSum + smp.2.2.1
      zMax := max r.zMax smp.2.2.2 }
    let s1 := updCmd s o.id (fun m =>
      { m with opt := { m.opt with lfsr := tabSet 0#16 m.opt.lfsr (o.block.product * 16 + e) smp.1 } })
    let s2 := updEngine s1 b e (fun y =>
      { y with
        staging := (List.range live).foldl (fun t i =>
          tabSet 0#32 t (o.vector * 128 + i) (o.parts.getD i 0)) y.staging
        run := if switched then y.run else some r1
        finishing := if switched then some r1 else y.finishing })
    if o.last then commitRun s2 b e r1 switched else s2

/-- The run an output belongs to, and whether its bank has been switched away. -/
def Engine.runOf (x : Engine) (o : WindowOut) : Option (Run × Bool) :=
  let mine (r : Run) : Bool := decide (r.id = o.id) && decide (r.block = o.block)
  match x.finishing, x.run with
  | some r, some r' => if mine r then some (r, true) else if mine r' then some (r', false) else none
  | some r, none => if mine r then some (r, true) else none
  | none, some r => if mine r then some (r, false) else none
  | none, none => none

/-- WINDOW_OUTPUT: the oldest output on its way arrives. One that carries an old tag, or belongs to no run any more, is
dropped and counted (R105). -/
def windowOutput (s : State) (b e : Nat) : State :=
  let x := getEngine s b e
  match x.outputs with
  | [] => s
  | o :: rest =>
    let s1 := updEngine s b e (fun y => { y with outputs := rest })
    match (if o.gen = x.gen then x.runOf o else none) with
    | some r => stageOutput s1 b e o r.1 r.2
    | none => updEngine s1 b e (fun y => { y with droppedOutputs := y.droppedOutputs + 1 })

def execWindowOutput (berth engine : Nat) (s : State) : Out :=
  guarded (hasEngine s berth engine) (windowOutput s berth engine)

/-! ## Ticks of 2 µs (R79, R82, R83, R100, R101, R113) -/

/-- A window is under way: that of a run which has started and not ended. -/
def Engine.windowing (x : Engine) : Bool :=
  match x.run with
  | some r => r.live && !r.ended
  | none => false

/-- HEATER_TICK: the temperature estimate and the comb power are read, staleness follows, σ is evaluated, and the heater codes
of the tables for the estimate wait for the next window boundary; with no window under way they are applied at once. -/
def Engine.heaterTick (x : Engine) (temp : Int) (combPpm : Nat) : Engine :=
  let y := { x with
    temp := temp
    comb := combPpm
    stale := decide (4000 < (temp - x.calTemp).natAbs)
    heatWait := some temp }
  if x.windowing then y else y.applyHeat

def execHeaterTick (berth engine : Nat) (temp : Int) (combPpm : Nat) (s : State) : Out :=
  guarded (hasEngine s berth engine)
    (onceReleased s 7 (updEngine s berth engine (fun x => (x.heaterTick temp combPpm).evaluate (now s) (classOf s))))

/-- The physical lines whose power differs from its normalised value by more than 1 %; a reading that is not given is the
normalised value. -/
def linesOff (x : Engine) (ppm : List Nat) : List Nat :=
  (List.range 132).filter (fun k =>
    decide (x.normOf k < 100 * ((ppm.getD k (x.normOf k) : Nat) - (x.normOf k : Int)).natAbs))

/-- TAP_MONITOR_TICK: lines to renormalise at the next bank boundary; the commands with windows since the last reading
within 1 % carry the calibration-stale flag (R82). -/
def tapTick (s : State) (b e : Nat) (ppm : List Nat) : State :=
  let x := getEngine s b e
  let off := linesOff x ppm
  if off = [] then updEngine s b e (fun y => { y with ranSince := [] })
  else
    x.ranSince.foldl (fun t id => flagCmd t id (fun a => { a with calStale := true }))
      (updEngine s b e (fun y => { y with
        tapOff := y.tapOff.filter (fun p => !off.contains p.1) ++ off.map (fun k => (k, ppm.getD k 0)) }))

def execTapMonitorTick (berth engine : Nat) (linePpm : List Nat) (s : State) : Out :=
  guarded (hasEngine s berth engine) (onceReleased s 7 (tapTick s berth engine linePpm))

/-- RATE_DETECTOR_TICK: above 10 °C/ms windows carry the thermal-step flag; above 25 °C/ms the engine pauses at its next
bank boundary. The end of a step lets a calibration that waited for it begin (R102). -/
def execRateDetectorTick (berth engine : Nat) (slope : Int) (s : State) : Out :=
  guarded (hasEngine s berth engine)
    (onceReleased s 7
      (engineBoundary (updEngine s berth engine (fun x =>
        let steep := decide (25000 < slope.natAbs)
        { x with
          slope := slope
          thermalStep := decide (10000 < slope.natAbs)
          pauseWanted := if x.run.isSome then x.pauseWanted || steep else false
          paused := x.paused || (x.run.isNone && (steep || x.pauseWanted)) })) berth engine))

/-- THERMAL_RESUME: the slope is at most 10 °C/ms and every heater code has reached its table value. -/
def execThermalResume (berth engine : Nat) (settled : Bool) (s : State) : Out :=
  guarded (hasEngine s berth engine)
    (let x := getEngine s berth engine
     if x.paused && settled && x.heatWait.isNone && decide (x.slope.natAbs ≤ 10000) then
       startRun (updEngine s berth engine (fun y => { y with paused := false })) berth engine
     else s)

/-! ## Lighthouse switch-over (R99, R479, R480) -/

/-- LIGHTHOUSE_FAULT. -/
def execLighthouseFault (berth engine : Nat) (s : State) : Out :=
  guarded (hasEngine s berth engine) (onceReleased s 4 (lighthouseFault s berth engine))

/-- LH_SWITCHOVER_DONE: the standby's normalisation of the lines is applied, and the discarded block runs again from its first
vector on the same bank (R99). -/
def execLhSwitchoverDone (berth engine : Nat) (s : State) : Out :=
  guarded (hasEngine s berth engine)
    (if (getEngine s berth engine).lhSwitching then
      startRun (updEngine s berth engine Engine.standbyLit) berth engine
    else s)

/-! ## Engine reset (R105, R467 rung 2) -/

/-- ENGINE_RESET. -/
def execEngineReset (berth engine : Nat) (s : State) : Out :=
  guarded (hasEngine s berth engine)
    (let x := getEngine s berth engine
     if x.resetting || decide (x.rotation = .left) then s
     else beginEngineReset (noteRung s 2 (engKey berth engine) engine) berth engine)

/-- ENGINE_RESET_DONE: the tag rises, and the targeted test of the engine follows (Table 15-6). -/
def engineResetDone (s : State) (b e : Nat) : State :=
  if (getEngine s b e).resetting then
    let s0 := blockReset (endRung s 2 (engKey b e)) (· == engineDom b e)
    let s1 := updEngine s0 b e (fun x =>
      { x with
        resetting := false
        gen := x.gen + 1
        rotation := if x.rotation = .left then .left else .outOfRotation })
    if (getEngine s0 b e).rotation = .left then s1
    else lendBlocks (orderTest (requeueTests s1 (.engine b e)) (.engine b e) 0 none) b e
  else s

def execEngineResetDone (berth engine : Nat) (s : State) : Out :=
  guarded (hasEngine s berth engine) (engineResetDone s berth engine)

end Sys2Proof.Machine
end

