-- ==== Sys2Proof/Machine/Health.lean ====
section
/-! DEFINITION. The health summary of a site: the 40-byte pages of Tables 15-13 to 15-17 (R486). -/

namespace Sys2Proof.Machine

/-- A field of `len` bits at bit `lo` that saturates at its largest value. -/
def satAt (lo len v : Nat) : Nat := min v (2 ^ len - 1) <<< lo

/-- A temperature in 0.001 °C as whole °C, rounded up and held in 0 to 255 (log entry 17). -/
def celsius (t : Int) : Nat := min ((t + 999) / 1000).toNat 255

/-- The populated sites. -/
def sitesOf (s : State) : List Nat := (List.range 49).filter (hasSite s)

/-- The other populated sites. -/
def othersOf (s : State) (k : Nat) : List Nat := (sitesOf s).filter (· != k)

/-- The width class of a pair direction: 0 full, 1 reduced, 2 lost. -/
def pairClass (p : PairDir) : Nat := if p.lost || p.stripe.length == 0 then 2 else if p.stripe.length < 16 then 1 else 0

/-- How many of some pair directions are of a class. -/
def pairCount (l : List PairDir) (c : Nat) : Nat := (l.filter (fun p => pairClass p == c)).length

/-- The egress and the ingress pair directions of a site. -/
def egress (s : State) (k : Nat) : List PairDir := (othersOf s k).map (fun o => getPair s k o)
def ingressPairs (s : State) (k : Nat) : List PairDir := (othersOf s k).map (fun o => getPair s o k)

/-- The layer temperature of R276 in 0.001 °C. -/
def Layer.milli (l : Layer) : Int := l.temp15 / 15

/-- The hottest temperature estimate of a site, 0.001 °C. -/
def siteTemp (s : State) (k : Nat) : Int :=
  match siteKind k with
  | .berth b =>
    maxInt 0 ([(getBerth s b).th, (getBerth s b).baseEst] ++ (List.range 16).map (fun e => (getRegion s b e).temp) ++
      (List.range 16).map (fun e => (getEngine s b e).temp))
  | .stack n => maxInt 0 ((List.range 16).map (fun l => (tabGet {} (getStack s n).layers l).milli))
  | .quay q => tabGet 0 s.thermal.quayTemp q
  | _ => s.thermal.hmTemp

/-- The number of suspect sensors of a site. -/
def siteSuspect (s : State) (k : Nat) : Nat :=
  match siteKind k with
  | .berth b => (getBerth s b).suspect.length
  | .stack n =>
    let x := getStack s n
    x.regSuspect.length + x.baseSuspect.length +
      sumNat ((List.range 16).map (fun l => (tabGet {} x.layers l).suspect.length))
  | .quay q => bit (s.thermal.suspect.contains q)
  | _ => (s.thermal.suspect.filter (fun i => decide (8 ≤ i))).length

/-- A site serves with less than all it was built with: a retirement, or a pair direction below 16 lanes (log
entry 17). -/
def siteDegraded (s : State) (k : Nat) : Bool :=
  (getSite s k).retirements != 0 || pairCount (egress s k ++ ingressPairs s k) 0 != 2 * (othersOf s k).length

/-- STATE of page 0. -/
def siteState (s : State) (k : Nat) : Nat :=
  if (getSite s k).retired then 3
  else if siteDown s k then 2
  else if siteDegraded s k then 1
  else 0

/-- Table 15-13. -/
def healthPage0 (s : State) (k : Nat) : Nat :=
  let x := getSite s k
  let eg := egress s k
  let ing := ingressPairs s k
  let kind := match siteKind k with
    | .berth _ => 0
    | .stack _ => 1
    | .quay _ => 2
    | _ => 3
  k + kind <<< 8 + siteState s k <<< 10 + x.role <<< 16 + x.epoch.toNat <<< 24 +
  satAt 32 6 (pairCount eg 0) + satAt 40 6 (pairCount eg 1) + satAt 48 6 (pairCount eg 2) +
  satAt 56 6 (pairCount ing 0) + satAt 64 6 (pairCount ing 1) + satAt 72 6 (pairCount ing 2) +
  satAt 80 8 (sumNat ((eg ++ ing).map (fun p => p.spares.length))) +
  satAt 88 16 (sumNat (ing.map (·.mismatches))) + satAt 104 16 (sumNat (ing.map (·.retrains))) +
  satAt 128 32 x.transients + satAt 160 16 x.retirements + celsius (siteTemp s k) <<< 176 +
  satAt 184 8 (siteSuspect s k) + (tabGet 0 s.faults.lastTide k % 2 ^ 64) <<< 192 + satAt 256 16 (getPort s k).eyeMin

/-- The 12 bits of an engine on page 1 of a berth (Table 15-14). -/
def engineField (s : State) (b e : Nat) : Nat :=
  let x := getEngine s b e
  let place := if x.rotation = .left then 3 else if (getDomain s (engineDom b e)).state ≠ .on then 2
    else if x.rotation = .outOfRotation then 1 else 0
  let standby := if x.lhActive = 0 then x.lh1 else x.lh0
  place + x.lhActive <<< 2 + bit (!standby.retired && !standby.testing) <<< 3 + x.freeLines.length <<< 4 +
    x.freeRows.length <<< 7 + bit (x.stale || decide (4000 < (x.temp - x.calTemp).natAbs)) <<< 9

/-- The 8 bits of a region on page 1 of a berth. -/
def regionField (s : State) (b e : Nat) : Nat :=
  let live := ((tilesOf e).filter (fun t => !(getTile s b t).retired)).length
  let sp := match (getRegion s b e).spare with
    | .free => 0
    | .inService => 1
    | .failed => 2
  live + sp <<< 4

/-- The 8 bits of a bundle of a stack. -/
def bundleField (s : State) (n j : Nat) : Nat :=
  let x := tabGet {} (getStack s n).bundles j
  satAt 0 6 x.active.length + satAt 6 2 x.spares.length

/-- Table 15-14. -/
def healthBerth (s : State) (b page : Nat) : Nat :=
  match page with
  | 1 => sumNat ((List.range 16).map (fun e => regionField s b e <<< (8 * e) + engineField s b e <<< (128 + 12 * e)))
  | 2 => sumNat ((List.range 4).map (fun k => sumNat ((List.range 10).map (fun j =>
      bundleField s (4 * b + k) j <<< (80 * k + 8 * j)))))
  | _ =>
    sumNat ((List.range 16).map (fun e =>
      let x := getEngine s b e
      (if x.rotation = .left then 0 else min (x.enob.getD 2 0) 0xFFFF) <<< (16 * e))) +
    satAt 256 16 (getBerth s b).mesh25 + satAt 272 16 (sumNat ((List.range 16).map (fun e => (getRegion s b e).stepdowns)))

/-- Free retirement slots of a stack: those of channels in service that no remap entry names (R262, R264). -/
def freeSlots (s : State) (n : Nat) : Nat :=
  ((List.range 256).filter (fun i =>
    decide ((getChannel s n (i / 16)).state = .inService) &&
    !s.pool.remap.any (fun e => decide (e.2 = some (n * 256 + i))))).length

/-- Table 15-15. -/
def healthStack (s : State) (n page : Nat) : Nat :=
  let x := getStack s n
  let ch (c : Nat) : StackChannel := getChannel s n c
  match page with
  | 1 =>
    sumNat ((List.range 16).map (fun c =>
      (match (ch c).state with
       | .inService => 0
       | .degraded => 1
       | .retired => 2) <<< (2 * c) + satAt (32 + 7 * c) 7 (ch c).freeConn)) +
    sumNat ((List.range 16).map (fun l =>
      if stackRevMin s = 0x10 then 0 else satAt (144 + 8 * l) 8 ((tabGet {} x.layers l).power / 10))) +
    satAt 272 9 (freeSlots s n) +
    sumNat ((List.range 4).map (fun g =>
      satAt (288 + 6 * g) 6 ((List.range 64).foldl (fun m i =>
        min m (32 - tabGet 0 (ch (i / 4)).rowsUsed (4 * g + i % 4))) 32)))
  | 2 =>
    sumNat ((List.range 16).map (fun c => satAt (14 * c) 14 (ch c).corrections)) +
    sumNat ((List.range 10).map (fun j => bundleField s n j <<< (224 + 8 * j)))
  | _ =>
    sumNat ((List.range 16).map (fun l =>
      let y := tabGet {} x.layers l
      (celsius y.milli + y.band <<< 8 + ofBits y.suspect <<< 10) <<< (16 * l))) +
    satAt 256 8 (ofBits x.baseSuspect) + satAt 264 4 (ofBits x.regSuspect)

/-- The partner position of link k of the own module (R351). -/
def partnerOf (pos k : Nat) : Nat := (pos + k + 1) % 25

/-- Table 15-16. -/
def healthQuay (s : State) (q : Nat) : Nat :=
  sumNat ((List.range 3).map (fun i =>
    let k := 3 * q + i
    let x := getLink s k
    let st := match x.state with
      | .disabled => 0
      | .up => 1
      | .linkReset => 2
      | .training => 2
      | .refused => 3
      | .failed => 4
    (st + x.refusal <<< 3 + satAt 6 6 x.lanes + partnerOf (ownPos s) k <<< 14 + satAt 12 2 x.spares + k <<< 19 +
      satAt 32 16 x.retrains + satAt 48 16 x.uncorrectable) <<< (64 * i)))

/-- Seconds left in the presence window, rounded up (R445). -/
def presenceLeft (s : State) : Nat :=
  match s.sec.window with
  | some e => ceilDiv (e - now s) 1000000000
  | none => 0

/-- Table 15-17. -/
def healthHm (s : State) : Nat :=
  let stand := if s.recovery.active = 0 then s.recovery.hmB else s.recovery.hmA
  s.harbour.pos + bit s.harbour.posValid <<< 5 + bit s.sec.debug <<< 6 + bit s.sec.sealBroken <<< 7 +
  s.harbour.members.toNat <<< 8 + s.harbour.master <<< 33 + bit s.harbour.noMaster <<< 38 + s.recovery.active <<< 40 +
  (if stand.retired then 2 else bit stand.testing) <<< 41 + satAt 48 8 (presenceLeft s) +
  bit s.sec.erasePending <<< 56 + bit s.sec.staged.isSome <<< 57 +
  (s.sec.breakwater.serial % 2 ^ 64) <<< 64 +
  satAt 128 16 (sumNat ((List.range (stackCount s)).map (freeSlots s))) + satAt 144 16 s.pool.ranges.length +
  satAt 176 16 (tabGet 0 s.io.barRefused 0) + (s.recovery.lastSwitch % 2 ^ 64) <<< 192 +
  sumNat ((List.range 8).map (fun v => satAt (256 + 8 * v) 8 (tabGet 0 s.io.barRefused (v + 1))))

/-- The 40 bytes of a page of a site (R486). -/
def healthBytes (s : State) (k page : Nat) : List Byte :=
  bytesLE 40 (if page = 0 then healthPage0 s k
    else match siteKind k with
      | .berth b => healthBerth s b page
      | .stack n => healthStack s n page
      | .quay q => healthQuay s q
      | _ => healthHm s)

end Sys2Proof.Machine
end

