-- ==== Sys2Proof/Machine/Cipher.lean ====
section
/-! DEFINITION. AES-256 (FIPS 197) and AES-XTS (IEEE 1619) over 64-byte sectors, to which Table 00-3, R251 and R443 refer. The
manual names the two standards and does not repeat them: their constants and equations are PRESUMED (log entry 61). -/

namespace Sys2Proof.Machine

/-! ## AES-256 -/

/-- x times a byte in GF(2⁸) of AES, modulo x⁸ + x⁴ + x³ + x + 1. -/
def xtime (b : Byte) : Byte := (b <<< 1) ^^^ (if b.getLsbD 7 then 0x1B#8 else 0#8)

/-- The product of two bytes in that field. -/
def gmul (a b : Byte) : Byte :=
  (List.range 8).foldr (fun k r => xtime r ^^^ (if b.getLsbD k then a else 0#8)) 0#8

/-- The inverse of a byte in that field, its 254th power; 0 for 0. -/
def ginv (b : Byte) : Byte :=
  (List.range 8).foldr (fun k r => let q := gmul r r; if k = 0 then q else gmul q b) 1#8

/-- The substitution of a byte: its inverse, through the affine map of FIPS 197. -/
def sboxOf (b : Byte) : Byte :=
  let x := ginv b
  x ^^^ x.rotateLeft 1 ^^^ x.rotateLeft 2 ^^^ x.rotateLeft 3 ^^^ x.rotateLeft 4 ^^^ 0x63#8

/-- The substitution table. -/
def sbox : List Byte := (List.range 256).map (fun n => sboxOf (BitVec.ofNat 8 n))
def subByte (t : List Byte) (b : Byte) : Byte := t.getD b.toNat 0#8

/-- Lists of bytes added bit by bit. -/
def xorBytes (a b : List Byte) : List Byte := List.zipWith (· ^^^ ·) a b

/-- The round constant of step i. -/
def rcon (i : Nat) : Byte := (List.range i).foldl (fun r _ => xtime r) 1#8

/-- The key schedule: words of four bytes, newest first, after n more words. -/
def expandKey (t : List Byte) (ws : List (List Byte)) : Nat → List (List Byte)
  | 0 => ws
  | n + 1 =>
    let i := ws.length
    let last := ws.headD []
    let mixed :=
      if i % 8 = 0 then xorBytes ((last.drop 1 ++ last.take 1).map (subByte t)) [rcon (i / 8 - 1), 0#8, 0#8, 0#8]
      else if i % 8 = 4 then last.map (subByte t)
      else last
    expandKey t (xorBytes (ws.getD 7 []) mixed :: ws) n

/-- The 15 round keys of a key of 32 bytes. -/
def roundKeys (t key : List Byte) : List (List Byte) :=
  let first := (List.range 8).map (fun i => (key.drop (4 * i)).take 4)
  let ws := (expandKey t first.reverse 52).reverse
  (List.range 15).map (fun r => ((ws.drop (4 * r)).take 4).flatten)

/-- Byte r of column c comes from column c + r. -/
def shiftRows (b : List Byte) : List Byte :=
  (List.range 16).map (fun i => b.getD ((i + 4 * (i % 4)) % 16) 0#8)

/-- Each column through the matrix of FIPS 197. -/
def mixColumns (b : List Byte) : List Byte :=
  (List.range 16).map (fun i =>
    let x (k : Nat) : Byte := b.getD (i / 4 * 4 + (i + k) % 4) 0#8
    gmul 2#8 (x 0) ^^^ gmul 3#8 (x 1) ^^^ x 2 ^^^ x 3)

/-- AES-256 of a block of 16 bytes. -/
def aes256 (key block : List Byte) : List Byte :=
  let t := sbox
  let ks := roundKeys t key
  let round (b k : List Byte) : List Byte := xorBytes (mixColumns (shiftRows (b.map (subByte t)))) k
  let b := ((ks.drop 1).take 13).foldl round (xorBytes block (ks.headD []))
  xorBytes (shiftRows (b.map (subByte t))) (ks.getD 14 [])

/-! ## XTS -/

/-- A tweak times x in GF(2¹²⁸) of IEEE 1619, its bytes lowest first. -/
def tweakNext (t : Nat) : Nat := (2 * t) % 2 ^ 128 ^^^ (if bitAt t 127 then 0x87 else 0)

/-- Block j of a data unit under a key pair of 64 bytes: the first key encrypts the data, the second the tweak. -/
def xtsBlock (keys : List Byte) (tweak j : Nat) (block : List Byte) : List Byte :=
  let t0 := leNat (aes256 (keys.drop 32) (bytesLE 16 tweak))
  let t := bytesLE 16 ((List.range j).foldl (fun x _ => tweakNext x) t0)
  xorBytes (aes256 (keys.take 32) (xorBytes block t)) t

/-- The cipher text of the 64-byte sector at a module-local address: the data unit is its granule of 4 KiB, and the tweak is
the granule's module-local address (R251). -/
def cipherSector (keys : List Byte) (loc : Nat) (plain : List Byte) : List Byte :=
  (List.range 4).flatMap (fun k =>
    xtsBlock keys (loc / 4096 * 4096) (loc % 4096 / 16 + k) ((plain.drop (16 * k)).take 16))

/-- The key pair that draw n gives a partition, of 64 bytes (R443). -/
def dramKeys (part n : Nat) : List Byte := bytesLE 64 (Config.dramKey part n).toNat

/-- The codeword of 72 symbols in which a sector is stored: its cipher text and its 8 check bytes (R252). -/
def codeword (cipher : List Byte) : List Byte := cipher ++ bytesLE 8 (Config.checkBytes cipher).toNat

end Sys2Proof.Machine
end

