-- ==== Sys2Proof/Machine/Stacks.lean ====
section
/-! DEFINITION. Memory stacks (spec/08_memory_stacks.md): refresh, refresh gaps and what takes effect in them, scrubbing,
row buffers, the retirement pool and the segment move, the layer model, sensors and rails. -/

namespace Sys2Proof.Machine

/-! ## What a sector is stored as (R251, R252) -/

/-- The key pair under which the DRAM of a berth is encrypted: that of its partition's last draw (R443). -/
def keysAt (s : State) (b : Nat) : List Byte :=
  match berthPart s b with
  | some p => dramKeys p (getPart s p).key
  | none => dramKeys 8 0

/-- The 72 symbols in which a sector of DRAM is stored, by its module-local address: the memory of State holds its plain
text. Where the sector's segment lies has no part in it, so a segment moves as cipher text (R251). -/
def storedSector (s : State) (loc : Nat) : List Byte :=
  match placeOf s.ident.part loc with
  | .dram b => codeword (cipherSector (keysAt s b) loc (readBytes s loc 64))
  | _ => []

/-! ## Names of segments, slots and rows (R247, R262) -/

/-- A key and its number. -/
def keyOf (n : Nat) : SegKey := ⟨n / 1024 / 16, n / 1024 % 16, n % 1024⟩

/-- The stack that serves a segment. -/
def stackOfKey (s : State) (k : SegKey) : Nat := (homeOfKey s k).1

/-- The segment that lies in a slot. -/
def keyInSlot (s : State) (slot : Nat) : Option SegKey :=
  (s.pool.remap.find? (fun e => decide (e.2 = some slot))).map (fun e => keyOf e.1)

/-- The segment that the row of a bank of a channel holds: rows of the slots lie above those of the segments. A row that a
segment has left for a slot holds none. -/
def keyOfRow (s : State) (n c row : Nat) : Option SegKey :=
  if row / 256 < 1008 then
    let k : SegKey := ⟨n, c, row / 256⟩
    if slotOfKey s k = none then some k else none
  else keyInSlot s (n * 256 + c * 16 + (row / 256 - 1008))

/-- The module-local address of sector i of a segment, in the order of its granules (R318). -/
def sectorOfKey (s : State) (k : SegKey) (i : Nat) : Nat :=
  (rangeGranules s.ident.part (spread s) k.stack k.channel k.segment).getD (i / 64) 0 + i % 64 * 64

/-- A retired range covers the segment. -/
def isRanged (s : State) (k : SegKey) : Bool := s.pool.ranges.any (fun r => decide (r.key = k))

/-! ## Connections (R249, R252, R260, R261) -/

/-- The vertical connection that carries a bit of a symbol of sector k of a row in every transfer (R249): symbols 0 to 63 are
the data bytes of the sector, 64 to 71 its check bytes. -/
def connectionOf (k symbol bit : Nat) : Nat :=
  if symbol < 64 then 512 * k + 8 * symbol + bit else 8192 + 64 * k + 8 * (symbol - 64) + bit

/-- A channel counts a correction, and counts it for the connection (R252). The second of a connection within 1 s that no
scrub has marked as a cell error has it tested in the next gap (R260). -/
def StackChannel.correct (x : StackChannel) (t conn row : Nat) : StackChannel :=
  let x1 := { x with corrections := x.corrections + 1, connCorrections := tabUpd 0 x.connCorrections conn (· + 1) }
  if x.cellMarks.contains (conn, row) then x1
  else
    let l := within 1000000000 t (tabGet [] x.recent conn) ++ [t]
    { x1 with
      recent := tabSet [] x.recent conn l
      suspectConn := if 2 ≤ l.length then addNew conn x.suspectConn else x.suspectConn }

/-- A channel of a stack counts a correction, and the error count crosses to the base fabric (R252, R374). -/
def correctChannel (s : State) (n c conn row : Nat) : State :=
  countEvents (updChannel s n c (fun x => x.correct (now s) conn row)) (stackDom n) 3 1

/-- A fault event about a channel. -/
def channelEvent (code outcome n c arg : Nat) (s : State) : FaultEv :=
  { code := code
    outcome := outcome
    site := stackSite n
    unit := c
    part := partField s (nearBerth n)
    arg := arg }

/-- A channel without a free spare becomes degraded, and its evacuation starts or waits its turn (R261, R268). -/
def degradeChannel (s : State) (n c : Nat) : State :=
  if (getChannel s n c).state = .inService then
    let s1 := updChannel s n c (fun x => { x with state := .degraded, evacuating := true })
    raise (updStack s1 n (fun k => { k with evac := addNew c k.evac })) (channelEvent 0x0105 0 n c 0 s)
  else s

/-- A connection that failed its loopback is retired, and replaced by a free spare, or degrades its channel (R260, R463). -/
def spareConnection (s : State) (n c conn : Nat) : State :=
  let f := (getChannel s n c).freeConn
  let s1 := retire (updChannel s n c (fun x => { x with
      freeConn := f - 1
      spared := insertNat conn x.spared
      retiredConn := insertNat conn x.retiredConn })) (stackSite n) ⟨1, 0x0105, n, c, conn⟩
  if 0 < f then raise s1 (channelEvent 0x0105 2 n c (f - 1) s) else degradeChannel s1 n c

/-- The connections of a channel at a start (R302): those named in fuses, those retired and those that fail the margin test
are replaced by the spares that passed. A channel that comes up degraded raises its event, also one that was degraded before
(R303). The choice itself is no retirement. -/
def chooseConns (failed : List Nat) (s : State) (n c : Nat) : State :=
  let x := getChannel s n c
  let fused := (s.ident.fuseConns.filter (fun f => f.1 == n && f.2.1 == c)).map (·.2.2)
  let bad := (fused ++ failed ++ x.retiredConn).foldl (fun l k => insertNat k l) []
  if bad = [] ∧ x.state ≠ .degraded then s
  else
  let gone := (bad.filter (fun k => decide (9216 ≤ k))).length
  let need := (bad.filter (fun k => decide (k < 9216))).length
  let s1 := updChannel s n c (fun y => { y with spared := bad, freeConn := 64 - gone - need })
  if x.state = .retired then s1
  else if 64 < gone + need ∧ x.state = .inService then degradeChannel s1 n c
  else if x.state = .degraded then raise s1 (channelEvent 0x0105 0 n c (64 - gone - need) s)
  else s1

/-- A layer that is not switched off, of a stack that boot has released and whose domain is on: it refreshes and transfers
rows. -/
def channelWorks (s : State) (n c : Nat) : Bool :=
  released s 6 && decide ((getDomain s (stackDom n)).state ≠ .off) && !(tabGet {} (getStack s n).layers c).off

/-- The stack is stopped for heat or for a rail: it keeps only refresh (R258, R271). -/
def stackQuiet (s : State) (n : Nat) : Bool := (getStack s n).stoppedHeat || (getStack s n).stoppedRail

/-- The symbols that a copy through the code has corrected count like every other correction (R252). -/
def countFixes (s : State) (n c : Nat) (l : List CopyFix) : State :=
  l.foldl (fun t f => correctChannel t n c (connectionOf f.sector f.symbol f.bit) (f.bank * 262144 + f.row)) s

/-! ## Refresh and scrubbing (R254, R255, R257, R263, R306) -/

/-- REFRESH_OPERATION: 32 rows of the bank are refreshed, and the bank takes the interval of its layer's band (R255). -/
def execRefreshOperation (stack channel bank : Nat) (s : State) : Out :=
  guarded (hasStack s stack)
    (if channelWorks s stack channel then
      updChannel s stack channel (fun x => { x with
        refreshes := tabUpd 0 x.refreshes bank (· + 1)
        bankBand := tabSet 0 x.bankBand bank (tabGet {} (getStack s stack).layers channel).band })
    else s)

/-- The multiplier of a refresh band, and the time between two refresh operations of a bank, in ps (Table 08-3). -/
def bandMultiplier (band : Nat) : Nat := if band = 0 then 1 else if band = 1 then 2 else 4
def refreshInterval (s : State) (n c bank : Nat) : Nat :=
  7812500 / bandMultiplier (tabGet 0 (getChannel s n c).bankBand bank)

/-- The loopback tests of a gap (R260). -/
def testConnections (s : State) (n c : Nat) (pass : List Nat) : State :=
  let l := (getChannel s n c).suspectConn
  l.foldl (fun t k => if pass.contains k then countTransient t (stackSite n) else spareConnection t n c k)
    (updChannel s n c (fun x => { x with suspectConn := [] }))

/-- A row that waits for repair takes a spare row of its bank, whose cells are good, or its segment is to be moved (R263). -/
def repairRow (s : State) (n c r : Nat) : State :=
  let bank := r / 262144
  if tabGet 0 (getChannel s n c).rowsUsed bank < 32 then
    retire (updChannel s n c (fun x => { x with
        rowsUsed := tabUpd 0 x.rowsUsed bank (· + 1)
        cellMarks := x.cellMarks.filter (fun m => m.2 != r) })) (stackSite n)
      ⟨1, 0x0205, n * 16 + c, bank, r % 262144⟩
  else match keyOfRow s n c (r % 262144) with
    | some k => { s with pool := { s.pool with wanted := addNew k s.pool.wanted } }
    | none => s

def repairRows (s : State) (n c : Nat) (fixed : List CopyFix) : State :=
  let l := (getChannel s n c).repairWait
  let s1 := countFixes s n c (fixed.filter (fun f => l.contains (f.bank * 262144 + f.row)))
  l.foldl (fun t r => repairRow t n c r) (updChannel s1 n c (fun x => { x with repairWait := [] }))

/-- The lanes of one bundle in a gap: lanes under test return to the spares or are retired, and free spares take the
places of missing lanes (R306). -/
def Bundle.gap (b : Bundle) (pass : Nat → Bool) : Bundle :=
  let good := b.testWait.filter pass
  let bad := b.testWait.filter (fun l => !pass l)
  let spares := good.foldl (fun l x => insertNat x l) b.spares
  let n := 32 - b.active.length
  { b with
    active := (spares.take n).foldl (fun l x => insertNat x l) b.active
    spares := spares.drop n
    testWait := b.removed
    removed := []
    retired := bad.foldl (fun l x => insertNat x l) b.retired }

/-- The bundle of a near link, and a change to it. -/
def getBundle (s : State) (n k : Nat) : Bundle := tabGet {} (getStack s n).bundles k
def updBundle (s : State) (n k : Nat) (f : Bundle → Bundle) : State :=
  updStack s n (fun x => { x with bundles := tabUpd {} x.bundles k f })

/-- The near lanes of a stack in a gap, with transients and retirements recorded; `pass` holds 34 × bundle + lane. -/
def gapLanes (s : State) (n : Nat) (pass : List Nat) : State :=
  (List.range 10).foldl (fun t k =>
    let w := (getBundle t n k).testWait
    let t1 := w.foldl (fun u l =>
      if pass.contains (34 * k + l) then countTransient u (stackSite n)
      else retire u (stackSite n) ⟨1, 0x0104, n, k, l⟩) t
    updBundle t1 n k (fun b => b.gap (fun l => pass.contains (34 * k + l)))) s

/-- The trims that wait for a gap take effect on the near lanes of a stack, and measure their eyes; a lane whose eye is below 0.25 UI
leaves its bundle at the next frame marked STRIPE, as a failing one does (R306, R450, R455; log entry 12). -/
def trimNear (s : State) (n : Nat) : State :=
  match (getStack s n).trimWait with
  | none => s
  | some t =>
    let narrow (k l : Nat) : Bool := decide ((Config.eyeWidth s.fresh (34 * k + l)).toNat < 64)
    nextFresh (updStack s n (fun x => { x with
      trimTemp := t
      trimWait := none
      bundles := (List.range 10).foldl (fun m k => tabUpd {} m k (fun b =>
        { b with leaving := (b.active.filter (narrow k)).foldl (fun l x => insertNat x l) b.leaving })) x.bundles }))

/-- REFRESH_GAP: connection tests, row repairs and lane changes of the stack take effect; in a stopped stack nothing does. -/
def refreshGap (s : State) (n c : Nat) (loopback : List Nat) (o : GapSeen) : State :=
  if channelWorks s n c && stackQuiet s n then updChannel s n c (fun x => { x with gaps := x.gaps + 1 })
  else if channelWorks s n c then
    let s1 := updChannel s n c (fun x =>
      { x with gaps := x.gaps + 1, strobeTemp := x.strobeWait.getD x.strobeTemp, strobeWait := none })
    gapLanes (repairRows (testConnections (trimNear s1 n) n c loopback) n c o.fixed) n o.lanesPass
  else s

def execRefreshGap (stack channel : Nat) (loopbackPass : List Nat) (seen : GapSeen) (s : State) : Out :=
  guarded (hasStack s stack) (refreshGap s stack channel loopbackPass seen)

/-- SCRUB: a corrected symbol is counted, and attributed to its connection. An error found again at the same bit is
permanent: it is marked as a cell error and its row waits for repair; any other is transient (R254, R260). -/
def scrubOne (n c bank : Nat) (s : State) (f : ScrubFinding) : State :=
  let conn := connectionOf f.sector f.symbol f.bit
  let row := bank * 262144 + f.row
  if f.permanent then
    correctChannel (updChannel s n c (fun x =>
      { x with cellMarks := addNew (conn, row) x.cellMarks, repairWait := addNew row x.repairWait })) n c conn row
  else countTransient (correctChannel s n c conn row) (stackSite n)

def execScrub (stack channel bank : Nat) (found : List ScrubFinding) (s : State) : Out :=
  guarded (hasStack s stack)
    (if channelWorks s stack channel && !stackQuiet s stack then found.foldl (scrubOne stack channel bank) s else s)

/-! ## Row buffers (R248) -/

/-- ROW_BUFFER_WRITEBACK: the buffer's row is written back; loads go on returning the latest data. -/
def execRowBufferWriteback (stack channel bank row : Nat) (s : State) : Out :=
  guarded (hasStack s stack)
    (if stackQuiet s stack then s
    else updChannel s stack channel (fun x =>
      { x with buffers := mapIf (fun b => b.1 == bank * 262144 + row) (fun b => (b.1, none)) x.buffers }))

/-! ## The pool: choosing a slot (R264) -/

/-- The slots of a stack that are free: in a channel in service, not occupied, not the target of a move. -/
def freeSlotsOf (s : State) (n : Nat) : List Nat :=
  (List.range 256).filterMap (fun i =>
    let slot := n * 256 + i
    if (getChannel s n (i / 16)).state = .inService ∧ !s.pool.remap.any (fun e => decide (e.2 = some slot)) ∧
        !s.stackTab.any (fun e => match e.2.move with
          | some m => m.slot == slot
          | none => false) then some slot else none)

/-- Stacks in the order of R264 for a segment of stack n. -/
def slotOrder (s : State) (n : Nat) : List Nat :=
  let all := (List.range (stackCount s)).filter (fun k => !(getSite s (stackSite k)).retired)
  let part (k : Nat) : Option Nat := berthPart s (nearBerth k)
  all.filter (· == n) ++ all.filter (fun k => k != n && nearBerth k == nearBerth n) ++
  let same (k : Nat) : Bool := decide (part k = part n) && (part n).isSome
  all.filter (fun k => nearBerth k != nearBerth n && same k) ++ all.filter (fun k => nearBerth k != nearBerth n && !same k)

/-- The slot chosen for a segment of stack n. -/
def chooseSlot (s : State) (n : Nat) : Option Nat := (slotOrder s n).findSome? (fun k => (freeSlotsOf s k).head?)

/-! ## Retired ranges (R269, R270, R318) -/

/-- A segment becomes a retired range, read-only for 60 s. -/
def retireRange (s : State) (k : SegKey) : State :=
  if isRanged s k then s
  else
    let s1 := { s with pool := { s.pool with ranges := s.pool.ranges ++ [{ key := k, since := now s }] } }
    raise (retire s1 (stackSite k.stack) ⟨1, 0x0303, k.stack, k.channel, k.segment⟩)
      (channelEvent 0x0303 3 k.stack k.channel
        (rangeFirst s.ident.part (spread s) k.stack k.channel k.segment +
          rangeStrideLog s.ident.part (spread s) <<< 42 + 1024 <<< 48) s)

/-- RETIRED_RANGE_EXPIRY: after 60 s the range no longer returns data. -/
def execRetiredRangeExpiry (key : SegKey) (s : State) : Out :=
  let l := mapIf (fun r => decide (r.key = key) && decide (r.since + 60000000000 ≤ now s))
    (fun r => { r with closed := true }) s.pool.ranges
  guarded (hasStack s key.stack) (switchLayers { s with pool := { s.pool with ranges := l } })

/-! ## The segment move (R265 to R268, Table 08-4) -/

/-- The segments that lie in a channel, in the order in which an evacuation moves them: its occupied slots first, then its
own segments in ascending order (R267). -/
def keysOfChannel (s : State) (n c : Nat) : List SegKey :=
  (List.range 16).filterMap (fun i => keyInSlot s (n * 256 + c * 16 + i)) ++
  ((List.range 1008).map (fun g => (⟨n, c, g⟩ : SegKey))).filter (fun k => decide (slotOfKey s k = none))

/-- The next segment that the evacuation of a channel moves; a retired range never moves (R270). -/
def nextEvacuated (s : State) (n c : Nat) : Option SegKey := (keysOfChannel s n c).find? (fun k => !isRanged s k)

/-- Every layer of the stack is in T0 to T2 (R268). -/
def coolStack (s : State) (n : Nat) : Bool := (getStack s n).layers.all (fun l => l.2.band < 3)

/-- The segment may move now: it waits for a move because of a row, or it is next in the evacuation in progress on the
stack that holds it. A stopped stack keeps only refresh, and moves none (R258). -/
def mayMove (s : State) (k : SegKey) : Bool :=
  let n := stackOfKey s k
  !isRanged s k && !stackQuiet s n && (s.pool.wanted.contains k ||
  (match (getStack s n).evac with
   | c :: _ => coolStack s n && decide (nextEvacuated s n c = some k)
   | [] => false))

/-- The evacuation of a channel has ended: the channel is retired, and its layer is switched off unless a retired range in it
still returns its data (R261, R271). -/
def retireChannel (s : State) (n c : Nat) : State :=
  let s1 := updChannel s n c (fun x => { x with state := .retired, evacuating := false })
  let s2 := switchLayers (updStack s1 n (fun k => { k with evac := k.evac.filter (· != c) }))
  raise (retire s2 (stackSite n) ⟨1, 0x0105, n, c, 9216⟩) (channelEvent 0x0105 3 n c (getChannel s n c).freeConn s)

/-- A lost stack whose fabric port serves, and that holds no slot of another stack any more: every segment of its own
becomes a retired range (R465). -/
def settleLoss (s : State) (n : Nat) : State :=
  let x := getSite s (stackSite n)
  let holds := s.pool.remap.any (fun e => match e.2 with
    | some slot => slot / 256 == n
    | none => false)
  if x.retired && !x.fabricLost && !holds then
    ((List.range 16).flatMap (keysOfChannel s n)).foldl retireRange s
  else s

/-- The channel in evacuation has nothing left to move. -/
def evacuationEnd (s : State) (n : Nat) : State :=
  settleLoss (match (getStack s n).evac with
    | c :: _ => if nextEvacuated s n c = none then retireChannel s n c else s
    | [] => s) n

/-- No slot is free for a move: every segment of the channel that is not yet moved becomes a retired range (R269). -/
def poolExhausted (s : State) (k : SegKey) : State :=
  let h := homeOfKey s k
  let l := keysOfChannel s h.1 h.2
  evacuationEnd (l.foldl retireRange
    { s with pool := { s.pool with wanted := s.pool.wanted.filter (fun x => !l.contains x) } }) h.1

/-- SEGMENT_MOVE_START: the key is marked MOVING in every remap table. -/
def segmentMoveStart (s : State) (k : SegKey) : State :=
  let n := stackOfKey s k
  if !mayMove s k || (getStack s n).move.isSome then s
  else match chooseSlot s k.stack with
    | none => poolExhausted s k
    | some slot =>
      let s1 := { s with pool := { s.pool with moving := addNew k s.pool.moving } }
      updStack s1 n (fun x => { x with move := some { key := k, slot := slot, began := now s } })

def execSegmentMoveStart (key : SegKey) (s : State) : Out := guarded (hasStack s key.stack) (segmentMoveStart s key)

/-- The move in progress of a key. -/
def moveOf (s : State) (k : SegKey) : Option Move :=
  match (getStack s (stackOfKey s k)).move with
  | some m => if m.key = k then some m else none
  | none => none

/-- Change the move in progress of a key. -/
def updMove (s : State) (k : SegKey) (f : Move → Move) : State :=
  match moveOf s k with
  | some m => updStack s (stackOfKey s k) (fun x => { x with move := some (f m) })
  | none => s

/-- A source of the module has an earlier request to a segment still to be answered: one of its own, or at a quay one that came
from another module. -/
def openTo (s : State) (k : SegKey) (source : Nat) : Bool :=
  let hits (a : Nat) : Bool := addrPos a == ownPos s && inSegment s k (addrLocal a)
  s.reqs.out.any (fun o => !o.held && o.req.srcSite == source && hits o.req.addr) ||
  s.reqs.ingress.any (fun e => hits e.2.addr && placeWaits s (addrLocal e.2.addr) &&
    (if e.2.srcPos = ownPos s then e.2.srcSite else quayTo s e.2.srcPos) == source)

/-- SEGMENT_HOLD_ACK: a source acknowledges once its earlier requests to the segment are answered (Table 08-4 step 2). -/
def execSegmentHoldAck (key : SegKey) (source : Nat) (s : State) : Out :=
  guarded (hasStack s key.stack && hasSite s source)
    (if openTo s key source then s else updMove s key (fun m => { m with acks := insertNat source m.acks }))

/-- The sites that issue DRAM requests and still answer (R262). -/
def remapSites (s : State) : List Nat :=
  (List.range 49).filter (fun k => hasSite s k && !(getSite s k).dead && !(getSite s k).retired)

/-- SEGMENT_COPY_DONE: every source has acknowledged and the ciphertext is copied; what the copy corrected counts (R252), and a
sector that could not be corrected is poisoned in the slot (R266). `bad` counts sectors of 64 bytes in the order of the
segment's granules. Neither stack of a copy may be stopped (R258). -/
def segmentCopyDone (s : State) (k : SegKey) (o : CopySeen) : State :=
  match moveOf s k with
  | some m =>
    let n := stackOfKey s k
    if (remapSites s).all (fun x => m.acks.contains x) && !m.copied && !stackQuiet s n && !stackQuiet s (m.slot / 256) then
      o.bad.foldl (fun t i =>
          let a := sectorOfKey t k i
          setPoison (writeBytes t a (List.replicate 64 0xFF#8)) (a / 64) true)
        (countFixes (updMove s k (fun x => { x with copied := true, bad := o.bad })) n (homeOfKey s k).2 o.fixed)
    else s
  | none => s

def execSegmentCopyDone (key : SegKey) (seen : CopySeen) (s : State) : Out :=
  guarded (hasStack s key.stack) (segmentCopyDone s key seen)

/-- Requests held for a segment go on towards its slot, in their original order (Table 08-4 step 7): each is stamped anew
for the slot's stack, and what else holds it holds it further. -/
def releaseSegment (s : State) (k : SegKey) : State :=
  let mine (o : OutReq) : Bool := o.held && inSegment s k (addrLocal o.req.addr) && addrPos o.req.addr == s.harbour.pos
  let s1 := { s with reqs := { s.reqs with out := mapIf mine (fun o => { o with delayed := true }) s.reqs.out } }
  (s1.reqs.out.filter mine).foldl (fun t o => issueHeld t o o.req.swell) s1

/-- SEGMENT_RECORDED: the move is recorded in the lifetime records, the remap entries are installed, and held requests
are released towards the slot. -/
def segmentRecorded (s : State) (k : SegKey) : State :=
  match moveOf s k with
  | some m =>
    if m.copied then
      let n := stackOfKey s k
      let s1 := retire (updStack s n (fun x => { x with move := none })) (stackSite k.stack)
        ⟨1, 0x0304, keyNat k, m.slot, 0⟩
      let s2 := { s1 with pool := { s1.pool with
          remap := tabSet none s1.pool.remap (keyNat k) (some m.slot)
          moving := s1.pool.moving.filter (fun x => decide (x ≠ k))
          wanted := s1.pool.wanted.filter (fun x => decide (x ≠ k)) } }
      evacuationEnd (raise (releaseSegment s2 k) (channelEvent 0x0304 2 k.stack k.channel m.slot s)) n
    else s
  | none => s

def execSegmentRecorded (key : SegKey) (s : State) : Out := guarded (hasStack s key.stack) (segmentRecorded s key)

/-! ## The layer model (R255, R258, R274 to R277) -/

/-- G in 1/15 of 0.001 °C (R276, R279). -/
def guard15 (s : State) : Int := if 0x11 ≤ stackRevMin s then 60000 else 120000

/-- The refresh band of a layer temperature in 1/15 of 0.001 °C, with its 2 °C of hysteresis (Table 08-3). -/
def refreshBand (band : Nat) (t : Int) : Nat :=
  let up := if 1425000 < t then 3 else if 1275000 < t then 2 else if 975000 < t then 1 else 0
  let down := if 1395000 ≤ t then 3 else if 1245000 ≤ t then 2 else if 945000 ≤ t then 1 else 0
  max up (min band down)

/-- Row transfers allowed on a layer, in percent (Table 08-3). -/
def layerThrottle (band : Nat) (t : Int) : Nat := if 1500000 < t then 25 else if band = 3 then 50 else 100

/-- The readings of a layer's sensors that are not suspect. -/
def goodReadings (l : Layer) (rs : List Int) : List Int :=
  (rs.zipIdx.filter (fun r => !l.suspect.contains r.2)).map (·.1)

/-- T_model of layer l in 1/15 of 0.001 °C (R275). Where all four sensors of layer 15 are suspect, the manual gives no T_t: the model
takes the sensors of layer 14 that are not suspect, and 0 where there is none (DESIGN CHOICE, log entry 88). -/
def layerModel (s : State) (n : Nat) (r : StackReading) (l : Nat) : Int :=
  let lay (k : Nat) : Layer := tabGet {} (getStack s n).layers k
  let good (k : Nat) : List Int := goodReadings (lay k) (r.layers.getD k [])
  let tb := maxInt 0 r.base
  let tt := if good 15 = [] then maxInt 0 (good 14) else maxInt 0 (good 15)
  let total := sumNat r.powers
  let p : Int := 16 * (r.powers.getD l 0 : Nat) - (total : Nat)
  15 * tb + (tt - tb) * l + (if 0 < p then 2 * p else 0)

/-- The estimate of a suspect sensor's neighbours, in 0.001 °C (R277). -/
def neighbourEstimate (s : State) (n : Nat) (r : StackReading) (l : Nat) : List Int :=
  let lay (k : Nat) : Layer := tabGet {} (getStack s n).layers k
  let good (k : Nat) : List Int := goodReadings (lay k) (r.layers.getD k [])
  if good l ≠ [] then good l
  else (if l = 0 then [] else r.layers.getD (l - 1) []) ++ (if l = 15 then [] else r.layers.getD (l + 1) [])

/-- The temperature of layer l (R276, R277). -/
def layerTemp (s : State) (n : Nat) (r : StackReading) (l : Nat) : Int :=
  let m := layerModel s n r l
  let sensors := (neighbourEstimate s n r l).map (· * 15)
  maxInt (m + guard15 s) ((m + guard15 s) :: sensors)

/-- One layer after an evaluation. -/
def nextLayer (s : State) (n : Nat) (r : StackReading) (k : Nat) (l : Layer) : Layer :=
  let m := layerModel s n r k
  let t := layerTemp s n r k
  let b := refreshBand l.band t
  let rs := r.layers.getD k []
  let off (i : Nat) : Bool := decide (90000 < (15 * rs.getD i 0 - m).natAbs)
  { l with
    temp15 := t
    band := b
    power := r.powers.getD k 0
    model15 := m
    readings := rs
    throttle := layerThrottle b t
    alarm := decide (1500000 < t)
    offSince := (List.range 4).foldl (fun o i =>
      tabSet 0 o i (if off i then (if tabGet 0 o i = 0 then now s + 1 else tabGet 0 o i) else 0)) l.offSince }

/-- A layer that has passed 100 °C raises the fault event that names it (R258), and wakes the module by source 6 (R417). -/
def layerAlarm (n : Nat) (s : State) (l : Nat) : State :=
  wakeModule (raise s
    { code := 0x0602
      site := stackSite n
      unit := l
      part := partField s (nearBerth n)
      arg := ((tabGet {} (getStack s n).layers l).temp15 / 1500).toNat }) 6 [] []

/-- LAYER_MODEL_TICK: the model, the temperatures, bands and throttles of the 16 layers; the alarm of each that passes
100 °C, the stop at 105 °C and the return below 95 °C. -/
def layerTick (s : State) (n : Nat) (r : StackReading) : State :=
  let s1 := updStack s n (fun k =>
    { k with layers := (List.range 16).foldl (fun t l => tabUpd {} t l (nextLayer s n r l)) k.layers })
  let temp (l : Nat) : Int := (tabGet {} (getStack s1 n).layers l).temp15
  let hot := (List.range 16).filter (fun l => decide (1500000 < temp l))
  let fresh := hot.filter (fun l => !(tabGet {} (getStack s n).layers l).alarm)
  let s2 := updStack s1 n (fun k =>
    { k with
      alarm := !hot.isEmpty
      stoppedHeat := (List.range 16).any (fun l => decide (1575000 ≤ temp l)) ||
        (k.stoppedHeat && !(List.range 16).all (fun l => decide (temp l < 1425000))) })
  fresh.foldl (layerAlarm n) s2

def execLayerModelTick (stack : Nat) (r : StackReading) (s : State) : Out :=
  guarded (hasStack s stack) (if released s 6 then layerTick s stack r else s)

/-- A fault event about a suspect sensor, with its reading in 0.1 °C. -/
def sensorEvent (s : State) (site unit : Nat) (reading : Int) : State :=
  raise s
    { code := 0x0601
      site := site
      unit := unit
      arg := ofSigned 64 (reading / 100) }

/-- STACK_SENSOR_SUSPECT: sensors 0 to 63 are those of the layers, 64 to 67 those of the base die under the array, 68 to
71 those of the regulators. A layer sensor must have differed from its model by more than 6 °C for 10 ms (R277). -/
def stackSensor (s : State) (n x : Nat) : State :=
  if 64 ≤ x then
    updStack s n (fun k => if x < 68 then { k with baseSuspect := insertNat (x - 64) k.baseSuspect }
      else { k with regSuspect := insertNat (x - 68) k.regSuspect })
  else
    let l := tabGet {} (getStack s n).layers (x / 4)
    let since := tabGet 0 l.offSince (x % 4)
    if since = 0 ∨ now s + 1 < since + 10000000 ∨ l.suspect.contains (x % 4) then s
    else
      sensorEvent (updStack s n (fun k =>
        { k with layers := tabUpd {} k.layers (x / 4) (fun y => { y with suspect := insertNat (x % 4) y.suspect }) }))
        (stackSite n) x (l.readings.getD (x % 4) 0)

def execStackSensorSuspect (stack sensor : Nat) (s : State) : Out :=
  guarded (hasStack s stack) (stackSensor s stack sensor)

/-- RAIL_FAULT: a rail out of tolerance stops the stack; the event names the rail (R271). -/
def execRailFault (stack rail : Nat) (s : State) : Out :=
  guarded (hasStack s stack)
    (raise (updStack s stack (fun k => { k with stoppedRail := true }))
      { code := 0x0602
        site := stackSite stack
        unit := rail
        part := partField s (nearBerth stack) })

end Sys2Proof.Machine
end

