-- ==== Sys2Proof/Machine/Losses.lean ====
section
/-! DEFINITION. The losses of sites (R309, R464 to R466, R480): a berth, a stack, a quay, and a site whose fabric port no
longer serves. -/

namespace Sys2Proof.Machine

/-- Bytes of tile SRAM of a berth, and of the segments of a stack. -/
def berthSram : Nat := 144 * 0x200000
def stackBytes : Nat := 0xFC0000000

/-- Fault event 0x0302 about a lost site. -/
def lostEvent (s : State) (k bytes : Nat) : FaultEv :=
  { code := 0x0302
    outcome := 3
    site := k
    part := (sitePart s k).getD 0xF
    arg := bytes }

/-- The loss of a berth (R464). -/
def loseBerth (s : State) (b : Nat) : State :=
  if (getSite s b).retired then s
  else
    let s1 := (List.range 8).foldl (fun t k => abortCtx t (8 * b + k)) s
    let s2 := updSite (retire s1 b ⟨3, 0x0302, b, 0, 0⟩) b (fun x =>
      { x with role := 0xFF, epoch := x.epoch + 1, retired := true, dead := false, drain := none })
    raise (send s2 (.epoch b ((getSite s b).epoch + 1))) (lostEvent s b berthSram)

/-- The loss of a stack; `port` says that its fabric port still serves (R465). -/
def loseStack (s : State) (n : Nat) (port : Bool) : State :=
  let k := stackSite n
  if (getSite s k).retired then s
  else
    let s1 := updSite (retire s k ⟨3, 0x0302, k, 0, 0⟩) k (fun x =>
      { x with role := 0xFF, retired := true, fabricLost := !port, dead := !port, drain := none })
    let s2 := raise s1 (lostEvent s k stackBytes)
    let held := (List.range 256).filterMap (fun i => keyInSlot s (256 * n + i))
    if port then
      settleLoss { s2 with pool := { s2.pool with wanted := held.foldl (fun l x => addNew x l) s2.pool.wanted } } n
    else
      held.foldl (fun t x => raise t { lostEvent s k 0x400000 with unit := x.channel }) s2

/-- A link goes down into a state; the event names the link and its width (R353, R354). -/
def linkDown (s : State) (k : Nat) (st : LinkState) (outcome : Nat) : State :=
  raise (updLink s k (fun l => { l with state := st, since := now s, synced := false }))
    { code := 0x0107
      outcome := outcome
      site := quaySite (k / 3)
      unit := k
      arg := (getLink s k).lanes }

/-- Requests on a relay route through r, which is lost or can no longer be reached, end at their sources with the relay's ingress
quay in DETAIL (R365); an event names guarantee 1, which is broken for them (Table 11-8). -/
def endRelayed (s : State) (r : Nat) : State :=
  let hit := s.reqs.out.filter (fun o => !o.held && o.dstPos != ownPos s && o.dstPos != r && firstHop s o.dstPos == r)
  let s1 := hit.foldl (fun t o => noteOut (untrack t o.req.tag) o S_TARGET_DEAD (relayDetail s r)) s
  if hit.isEmpty then s1
  else raiseAt s1
    { code := 0x0406
      outcome := 6
      guarantee := 1
      pos := r
      arg := (hit.filterMap (fun o => o.req.srcCtx)).eraseDups.length }

/-- Outstanding requests whose route leaves by a link are delayed. -/
def delayLink (s : State) (k : Nat) : State :=
  { s with reqs := { s.reqs with
      out := mapIf (fun o => o.dstPos != ownPos s && linkTo s (firstHop s o.dstPos) == k) (fun o => { o with delayed := true })
        s.reqs.out } }

/-- A link has gone down: requests that wait for the reroute are delayed, those relayed over it end, and transit that waits for it
is lost. -/
def linkLost (s : State) (k : Nat) : State :=
  endRelayed (delayLink (updLink s k (fun l =>
    { l with again := false, fails := 0, badInRun := 0, transitWait := [], transitOwed := [0, 0, 0, 0], stamps := none })) k)
    (partnerOf (ownPos s) k)

/-- The three links of a quay fail; a disabled link stays disabled. -/
def failQuayLinks (s : State) (q : Nat) : State :=
  (List.range 3).foldl (fun t i =>
    if (getLink t (3 * q + i)).state = .disabled then t else linkLost (linkDown t (3 * q + i) .failed 3) (3 * q + i)) s

/-- The loss of a quay: its three links failed, the pairs relayed (R361, R466). -/
def loseQuay (s : State) (q : Nat) : State :=
  let k := quaySite q
  if (getSite s k).retired then s
  else
    let s1 := updSite (retire s k ⟨3, 0x0302, k, 0, 0⟩) k (fun x => { x with retired := true, dead := false })
    failQuayLinks (raise s1 (lostEvent s k 0)) q

/-- A site without fabric egress or without any pair is lost; the Harbourmaster's site is held dead (R309, R480). -/
def loseFabric (s : State) (k : Nat) : State :=
  match siteKind k with
  | .berth b => loseBerth s b
  | .stack n => loseStack s n false
  | .quay q => loseQuay s q
  | _ => updSite s k (fun x => { x with dead := true })

/-- A pair that is lost, with its event; a site that has lost every pair in either direction is lost (R309). -/
def pairLoss (s : State) (src dst : Nat) : State :=
  if (getPair s src dst).lost then s
  else
    let s1 := raise (updPair s src dst (fun p => { p with lost := true, stripe := [] }))
      { code := 0x0103
        outcome := 3
        site := src
        unit := dst }
    let alone (k : Nat) : Bool :=
      (othersOf s1 k).all (fun o => (getPair s1 k o).lost) || (othersOf s1 k).all (fun o => (getPair s1 o k).lost)
    let s2 := if alone src then loseFabric s1 src else s1
    if alone dst then loseFabric s2 dst else s2

end Sys2Proof.Machine
end

