-- ==== Sys2Proof/Machine/Regions.lean ====
section
/-! DEFINITION. Clock regions and cores (spec/05_compute_die.md): frequency steps, stretches and recoveries (R158 to
R168), the mesh count (R154), core substitution and the retirement of tiles (R141 to R146). -/

namespace Sys2Proof.Machine

/-! ## Steps (R159 to R161) -/

/-- The step cap of a band (Table 05-6). -/
def bandCap (band : Nat) : Nat := if band = 0 then 9 else if band = 1 then 8 else 6

/-- The step that the four limits of R159 give. -/
def Region.limit (r : Region) : Nat := min (min 9 (bandCap r.band)) (min r.stretchStep r.powerStep)

/-- The step change that the limits ask for. For a step up the core voltage is raised first, at once; without one any more the
voltage is again that of the step in force (R399). -/
def Region.request (r : Region) : Region :=
  { r with
    wanted := if r.limit = r.step then none else some r.limit
    urgent := r.urgent && decide (r.limit ≠ r.step)
    voltStep := max r.step r.limit }

/-- The band of a region temperature, in 0.001 °C: entered upward above its limit, left downward 2 °C below it (R160). -/
def nextBand (band : Nat) (t : Int) : Nat :=
  if 100000 < t then 2
  else if 98000 ≤ t ∧ band = 2 then 2
  else if 90000 < t then 1
  else if 88000 ≤ t ∧ 1 ≤ band then 1
  else 0

/-- The core voltage of a region, in mV (R398, R399): a set-point of the Harbourmaster, which a switch-over leaves as it is. -/
def Region.volts (r : Region) : W16 := Config.coreVoltage r.voltStep

/-- STEP_CHANGE: at a reference edge, once any recovery has ended, the new step is in force and the crossings hold. A step up
takes effect only under its voltage; a step down lowers the voltage once the new frequency is in force (R399). -/
def execStepChange (berth region : Nat) (s : State) : Out :=
  guarded (hasEngine s berth region)
    (onceReleased s 7
      (updRegion s berth region (fun r => match r.wanted with
        | some w =>
          if (r.recoverAt.isSome && !r.urgent) || r.holding || decide (r.voltStep < w) then r
          else { r with step := w, wanted := none, holding := true, urgent := false, voltStep := w }
        | none => r)))

/-- STEP_HOLD_END: after one reference period the crossings take the setting of the new pair of steps. -/
def execStepHoldEnd (berth region : Nat) (s : State) : Out :=
  guarded (hasEngine s berth region) (updRegion s berth region (fun r => { r with holding := false }))

/-! ## Stretches (R163 to R168) -/

/-- Stretches within the last ms. -/
def Region.recent (r : Region) (t : Nat) : Nat := (r.stretches.filter (fun x => decide (t < x + 1000000))).length

/-- A stretch in the cycle after the warning; its recovery takes the 64 cycles that follow (Table 05-7). -/
def Region.stretch (r : Region) (cycle t : Nat) : Region :=
  let y := { r with
    lastStretch := some (cycle + 1)
    recoveryStepped := false
    recoverAt := some (cycle + 65)
    stretches := r.stretches.filter (fun x => decide (t < x + 100000000)) ++ [t] }
  if 8 < y.recent t then { y with quietFrom := t } else y

/-- REPLICA_WARNING: a warning during a recovery extends it by one cycle (R165); otherwise a region that has not
stretched in the previous 64 cycles stretches (R163). -/
def execReplicaWarning (berth region cycle : Nat) (s : State) : Out :=
  guarded (hasEngine s berth region)
    (onceReleased s 7
      (updRegion s berth region (fun r => match r.recoverAt with
        | some c => { r with recoverAt := some (c + 1) }
        | none =>
          if (match r.lastStretch with
              | some l => decide (cycle ≤ l + 64)
              | none => false) then r
          else r.stretch cycle (now s))))

/-- STRETCH_RECOVERY_END: the region is back in phase. -/
def execStretchRecoveryEnd (berth region cycle : Nat) (s : State) : Out :=
  guarded (hasEngine s berth region)
    (updRegion s berth region (fun r => match r.recoverAt with
      | some c => if c ≤ cycle then { r with recoverAt := none, recoveryStepped := false } else r
      | none => r))

/-- Firmware steps a region down one step (R166, R167). -/
def Region.stepDown (r : Region) (t : Nat) : Region :=
  if r.step = 0 then r
  else { r with stretchStep := min r.stretchStep (r.step - 1), stepdowns := r.stepdowns + 1, quietFrom := t }.request

/-- RECOVERY_STEPDOWN: no phase 256 cycles after the stretch; this step change does not wait for the recovery. At step 0 there
is none to make. -/
def execRecoveryStepdown (berth region cycle : Nat) (s : State) : Out :=
  guarded (hasEngine s berth region)
    (updRegion s berth region (fun r => match r.recoverAt, r.lastStretch with
      | some _, some l =>
        if l + 256 ≤ cycle ∧ r.recoveryStepped = false then
          if r.step = 0 then { r with recoveryStepped := true }
          else
            let y := r.stepDown (now s)
            { y with urgent := y.wanted.isSome, recoveryStepped := true }
        else r
      | _, _ => r))

/-- STRETCH_LIMIT: more than 64 stretches in 1 ms. -/
def execStretchLimit (berth region : Nat) (s : State) : Out :=
  guarded (hasEngine s berth region)
    (onceReleased s 7 (updRegion s berth region (fun r => if 64 < r.recent (now s) then r.stepDown (now s) else r)))

/-- STEP_UP_TIMER: 100 ms in which no window of 1 ms held more than 8 stretches. -/
def execStepUpTimer (berth region : Nat) (s : State) : Out :=
  guarded (hasEngine s berth region)
    (onceReleased s 7
      (updRegion s berth region (fun r =>
        if r.stretchStep < 9 ∧ r.quietFrom + 100000000 ≤ now s then
          { r with stretchStep := r.stretchStep + 1, quietFrom := now s }.request
        else r)))

/-! ## Mesh (R154) -/

/-- MESH_LOAD_WINDOW: a window of 256 cycles in which high-priority flits took more than 25 % of the slots of a link. The
manual does not say what the slots of a window are, on a link of four lanes; the model takes one slot per cycle, 256 in a
window, so that more than 64 exceed 25 % (R154; DESIGN CHOICE, log entry 56). -/
def execMeshLoadWindow (berth slotsHigh : Nat) (s : State) : Out :=
  guarded (hasBerth s berth)
    (onceReleased s 7 (if 64 < slotsHigh then updBerth s berth (fun x => { x with mesh25 := x.mesh25 + 1 }) else s))

/-! ## Cores (R141 to R146) -/

/-- No core of a region remains in service: its engine leaves service (R143). -/
def feedCheck (s : State) (b e : Nat) : State :=
  if (tilesOf e).all (fun t => (getTile s b t).retired) then leaveService s b e 5 else s

/-- A virtual tile is retired with no substitute (R146). -/
def retireTile (s : State) (b t : Nat) : State :=
  if (getTile s b t).retired then s
  else
    let s1 := retire (updTile s b t (fun x => { x with retired := true, held := false })) b ⟨2, 0x0204, b, t, 0⟩
    feedCheck (raise (dropTests s1 (.tile b t))
      { code := 0x0204
        outcome := 3
        site := b
        unit := t
        part := partField s b
        arg := regionOf t }) b (regionOf t)

/-- The core of a virtual tile has failed: the free spare will take its place at the region's next boundary; a spare
that fails in its place, or a spare already in service, leaves the tile retired (R144, R146). -/
def failTile (s : State) (b t : Nat) : State :=
  let e := regionOf t
  let r := getRegion s b e
  if r.spare = .free then updRegion s b e (fun x => { x with spare := .inService, substituting := some t })
  else if r.substituted = some t then
    retireTile (updRegion s b e (fun x => { x with spare := .failed, substituted := none })) b t
  else retireTile s b t

/-- CORE_SUBSTITUTION: at the region's boundary, or at once for a test, requests to the virtual tile are held while the spare
is prepared. -/
def coreSubstitution (s : State) (b t : Nat) : State :=
  let e := regionOf t
  let r := getRegion s b e
  if r.substituting = some t ∧ (r.forTest ∨ !regionInUse s b e ∧ !engineInUse s b e) then
    updTile s b t (fun x => { x with held := true })
  else s

def execCoreSubstitution (berth vtile : Nat) (s : State) : Out :=
  guarded (hasTile s berth vtile) (coreSubstitution s berth vtile)

/-- A word of a tile that could not be copied is all 0xFF with the poison check code. -/
def poisonCopy (s : State) (b t w : Nat) : State :=
  let a := tileWindow b t + 8 * w
  setPoisonWord (writeBytes s a (List.replicate 8 0xFF#8)) (a / 8) true

/-- The spare is attached to a tile for its test, which starts; without one any more, the spare is withdrawn again (R459). -/
def attachForTest (s : State) (b t : Nat) : State :=
  let s1 := updRegion s b (regionOf t) (fun x => { x with substituting := none, substituted := some t })
  match nextTest s (.tile b t) with
  | some q => updTile (startTest s1 q) b t (fun x => { x with held := false })
  | none => updRegion s1 b (regionOf t) (fun x => { x with withdrawing := some t })

/-- The core serves its virtual tile again, and the spare is free. -/
def detachSpare (s : State) (b t : Nat) : State :=
  updTile (updRegion s b (regionOf t) (fun x =>
    { x with spare := .free, substituted := none, withdrawing := none, forTest := false })) b t (fun x => { x with held := false })

/-- CORE_SUBSTITUTION_DONE: the copy has ended and held requests are released. For a retirement the record is made and the
spare is attached (R144, R463); for a test the spare is attached, or withdrawn after it (R459). -/
def coreSubstitutionDone (s : State) (b t : Nat) (bad : List Nat) : State :=
  let e := regionOf t
  let r := getRegion s b e
  let copied := bad.foldl (fun u w => poisonCopy u b t w) s
  if (getTile s b t).held = false then s
  else if r.withdrawing = some t then detachSpare copied b t
  else if r.substituting = some t ∧ r.forTest then attachForTest copied b t
  else if r.substituting = some t then
    let s1 := retire copied b ⟨2, 0x0204, b, t, 1⟩
    let s2 := updRegion s1 b e (fun x => { x with substituting := none, substituted := some t })
    raise (updTile s2 b t (fun x => { x with held := false }))
      { code := 0x0204
        outcome := 2
        site := b
        unit := t
        part := partField s b
        arg := e }
  else s

def execCoreSubstitutionDone (berth vtile : Nat) (badWords : List Nat) (s : State) : Out :=
  guarded (hasTile s berth vtile) (coreSubstitutionDone s berth vtile badWords)

end Sys2Proof.Machine
end

