-- ==== Sys2Proof/Machine/TestCal.lean ====
section
/-! DEFINITION. Tests and calibrations (spec/15_calibration_test_recovery.md): SELFTEST, CALIBRATE, their ends, the triggers
of Table 15-1, and the transient-versus-permanent procedure (R461). -/

namespace Sys2Proof.Machine

/-! ## Tile tests (R459) -/

/-- A tile test begins: at once, when the region's spare is free, with the substitution of R144, and otherwise with the core
out of rotation when no started command uses the region (Table 15-2, R459). -/
def tileBoundary (s : State) (b t : Nat) : State :=
  let e := regionOf t
  match nextTest s (.tile b t) with
  | none => s
  | some q =>
    if (getRegion s b e).spare = .free ∧ (getRegion s b e).substituting = none then
      updTile (updRegion s b e (fun r => { r with spare := .inService, substituting := some t, forTest := true })) b t
        (fun x => { x with held := true })
    else if regionInUse s b e || engineInUse s b e || (getTile s b t).held then s
    else updTile (startTest s q) b t (fun x => { x with held := true })

/-- Every tile test that waits on a berth looks for its boundary. -/
def tileBoundaries (s : State) (b : Nat) : State :=
  s.recovery.tests.foldl (fun t q => match q.el with
    | .tile b' v => if b' = b ∧ q.running = false then tileBoundary t b v else t
    | _ => t) s

/-- The core returns to its virtual tile: a spare that stands in for the test is withdrawn by the same procedure in the other
direction, for which the tile is held; otherwise the tile is released, also one that the spare serves for good (R141,
R459). -/
def restoreTile (s : State) (b t : Nat) : State :=
  let r := getRegion s b (regionOf t)
  if r.substituted = some t ∧ r.forTest then
    updTile (updRegion s b (regionOf t) (fun r => { r with withdrawing := some t })) b t (fun x => { x with held := true })
  else updTile s b t (fun x => { x with held := false })

/-- The core has failed: a spare that stands in for its test stays, with the retirement recorded; otherwise the tile goes the
way of any failed core, a spare that serves it for good among them (R144, R146). -/
def lostCore (s : State) (b t : Nat) : State :=
  let r := getRegion s b (regionOf t)
  if !(decide (r.substituted = some t) && r.forTest) then failTile (updTile s b t (fun x => { x with held := false })) b t
  else raise (retire (updRegion s b (regionOf t) (fun r => { r with forTest := false })) b ⟨2, 0x0204, b, t, 1⟩)
    { code := 0x0204
      outcome := 2
      site := b
      unit := t
      part := partField s b
      arg := regionOf t }

/-! ## SELFTEST and CALIBRATE (R244, R456 to R460) -/

/-- Time out of rotation of a test, µs (Table 15-3). -/
def testTime (code : Nat) : Nat := if code = 1 then 1800 else if code = 2 then 4200 else 600

/-- The target of a test is gone. -/
def targetRetired (s : State) (el : Element) : Bool :=
  match el with
  | .engine b e => decide ((getEngine s b e).rotation = .left) || (getSite s b).retired
  | .tile b t => (getTile s b t).retired || (getSite s b).retired
  | _ => false

/-- A test of a request joins the queue, and starts when its element stands at a boundary. -/
def requestTest (r : Route) (code : Nat) (s : State) (el : Element) : State :=
  let q : TestReq := { el := el, code := code, rank := 2, who := [r] }
  match el with
    | .engine b e => engineBoundary (queueTest s q) b e
    | .tile b t => tileBoundary (queueTest s q) b t
    | _ => s

/-- SELFTEST. A target that is retired already is not tested (R146, Table 06-8). -/
def execSelftest (r : Route) (s : State) : Out :=
  blunen s r 0x0E00 (fun a =>
    let b := fld a.params 0 8
    let u := fld a.params 8 16
    let code := fld a.params 24 8
    let el : Element := if code = 3 then .engine b u else .tile b u
    if targetRetired s el then (s, some ⟨S_RESOURCE_RETIRED, b, []⟩) else (requestTest r code (markServed s r) el, none))

/-- The engines that CALIBRATE names. -/
def calibrateUnits (u : Nat) : List Nat := if u = 0xFFFF then List.range 16 else [u]

/-- CALIBRATE: one engine, or all 16 in turn (R451), those in service. Engines whose calibration is queued before any ends
share one result. With every engine named retired, nothing runs (Table 06-8). -/
def execCalibrate (r : Route) (s : State) : Out :=
  blunen s r 0x0E01 (fun a =>
    let b := fld a.params 0 8
    let els := (calibrateUnits (fld a.params 8 16)).map (fun e => Element.engine b e)
    let live := els.filter (fun el => !targetRetired s el)
    if live = [] then (s, some ⟨S_RESOURCE_RETIRED, b, []⟩)
    else
      let s1 := live.foldl (fun t el => queueTest t { el := el, code := 0x10, rank := 2, who := [r] }) (markServed s r)
      (live.foldl (fun t el => match el with
        | .engine b e => engineBoundary t b e
        | _ => t) s1, none))

/-! ## Ends of tests (R461, R462) -/

/-- The block that an engine holds is loaded again on the new map, and its command carries the lane-spared flag (R94,
R103). -/
def reloadHeld (s : State) (b e : Nat) (work : Option CmdId) : State :=
  match work with
  | some id =>
    flagCmd (updEngine s b e (fun x => x.setActive { x.active with loaded := false })) id
      (fun t => { t with laneSpared := true })
  | none => s

/-- The targeted test or ring sweep of an engine has ended. -/
def engineTested (s : State) (b e : Nat) (t : TestReq) (res : TestResult) : State :=
  let s1 := closeTest (!res.pass) ((getEngine s b e).enob.getD 2 0) (testTime t.code) s t
  if res.pass then
    if t.rank = 1 then
      let c := engineTransient s1 b e
      if c.2 then leaveService c.1 b e 7 else returnEngine c.1 b e
    else returnEngine s1 b e
  else if t.code = 0 ∨ (res.lines = [] ∧ res.rows = []) then leaveService s1 b e 7
  else
    let s2 := spareAll s1 b e res.lines res.rows
    if (getEngine s2 b e).rotation = .left then s2
    else returnEngine (reloadHeld s2 b e t.work) b e

/-- A transient on a virtual tile; 8 in the last hour fail its core (R461). -/
def tileTransient (s : State) (b t : Nat) : State :=
  let l := within hourNs (now s) (getTile s b t).transients ++ [now s]
  let s1 := countTransient (updTile s b t (fun x => { x with transients := l })) b
  if 8 ≤ l.length then lostCore s1 b t else restoreTile s1 b t

/-- The test of a tile has ended. -/
def tileTested (s : State) (b v : Nat) (t : TestReq) (res : TestResult) : State :=
  let s1 := closeTest (!res.pass) 0 (testTime t.code) s t
  let s2 := if !res.pass then lostCore s1 b v else if t.rank = 1 then tileTransient s1 b v else restoreTile s1 b v
  tileBoundaries s2 b

/-- The self-test of a failed Harbourmaster instance has ended (R478). -/
def hmTested (s : State) (i : Nat) (pass : Bool) : State :=
  let upd (f : HmInst → HmInst) : State :=
    { s with recovery := if i = 0 then { s.recovery with hmA := f s.recovery.hmA }
      else { s.recovery with hmB := f s.recovery.hmB } }
  let h := if i = 0 then s.recovery.hmA else s.recovery.hmB
  if !h.testing then s
  else if pass then countTransient (upd (fun x => { x with testing := false, standbySince := now s })) hmSite
  else
    raise (retire (upd (fun x => { x with testing := false, retired := true })) hmSite ⟨3, 0x0402, i, 0, 0⟩)
      { code := 0x0402
        outcome := if (if i = 0 then s.recovery.hmB else s.recovery.hmA).retired then 3 else 2
        site := hmSite
        unit := i }

/-- The Lighthouse test has ended (R480). -/
def lhTested (s : State) (lh : LighthouseId) (pass : Bool) : State :=
  if !(getLh s lh).testing then s
  else if pass then countTransient (updLh s lh (fun l => { l with testing := false })) (LhSite lh)
  else retireLh s lh

/-- The unit an element belongs to is populated. -/
def hasElement (s : State) (el : Element) : Bool :=
  match el with
  | .engine b e => hasEngine s b e
  | .tile b t => hasTile s b t
  | .router b => hasBerth s b
  | .lighthouse (.engine b e k) => hasEngine s b e && decide (k < 2)
  | .lighthouse (.fabric site k) => hasSite s site && decide (k < 2)
  | .lighthouse (.link q k) => decide (q < 8) && decide (k < 2)
  | .harbourmaster i => decide (i < 2)
  | .fabricRings site => hasSite s site
  | .fabricLanes site => hasSite s site
  | .linkLanes k => hasLink k
  | .nearLanes n => hasStack s n
  | .connections n c => hasStack s n && decide (c < 16)

/-- TARGETED_TEST_DONE: the test that runs on an element has ended. -/
def testDone (s : State) (el : Element) (res : TestResult) : State :=
  match el with
  | .engine b e =>
    match runningTest s el with
    | some t => if t.code = 0x10 then s else engineTested s b e t res
    | none => s
  | .tile b v =>
    match runningTest s el with
    | some t => tileTested s b v t res
    | none => s
  | .router b => if res.pass then countTransient s b else loseBerth s b
  | .lighthouse lh => lhTested (endTest s el) lh res.pass
  | .harbourmaster i => hmTested s i res.pass
  | _ => s

def execTargetedTestDone (el : Element) (res : TestResult) (s : State) : Out := guarded (hasElement s el) (testDone s el res)

/-! ## Calibration (R450 to R455) -/

/-- A temperature is more than a limit from that of the last calibration, both in 0.001 °C. -/
def movedBy (limit : Nat) (a b : Int) : Bool := decide (limit < (a - b).natAbs)

/-- An engine's trigger falls due. -/
def engineTrigger (s : State) (b e : Nat) (why : CalTrigger) : State :=
  let x := getEngine s b e
  let due := match why with
    | .temperature t => movedBy 4000 t x.calTemp
    | .age => decide (x.calTide + dayNs ≤ now s)
    | .residualExcess => true
    | .returnFromOff => true
    | .bandChange => false
  if due && decide (x.rotation ≠ .left) then
    engineBoundary (queueTest s { el := .engine b e, code := 0x10, rank := 3 }) b e
  else s

/-- The temperature that a trim is made at, when its trigger falls due. -/
def trimDue (old : Int) (band : Bool) (why : CalTrigger) : Option Int :=
  match why with
  | .temperature t => if movedBy 10000 t old then some t else none
  | .bandChange => if band then some old else none
  | _ => none

/-- The ring of a lane at one end: the receiver's, or the modulator's. -/
def PairDir.ring (p : PairDir) (rx : Bool) (plane : Nat) : Ring := tabGet {} (if rx then p.rings else p.modRings) plane
def PairDir.setRing (p : PairDir) (rx : Bool) (plane : Nat) (r : Ring) : PairDir :=
  if rx then { p with rings := tabSet {} p.rings plane r } else { p with modRings := tabSet {} p.modRings plane r }

/-- Both rings of a lane are locked on their line. -/
def PairDir.laneLocked (p : PairDir) (plane : Nat) : Bool :=
  decide ((p.ring true plane).state = .locked) && (p.ring true plane).line.isNone &&
  decide ((p.ring false plane).state = .locked) && (p.ring false plane).line.isNone

/-- A higher event of R297 is in progress on a pair direction, so its trims and band changes wait. -/
def trimsHeld (s : State) (src dst : Nat) : Bool :=
  let p := getPair s src dst
  p.lost || p.retraining || (getPort s src).paused || (getPort s dst).paused || p.out.any (fun o => p.trimming != some o.1) ||
  !p.testing.isEmpty

/-- Lanes take the pre-emphasis set of their sender's band, and their trims. -/
def PairDir.setLanes (p : PairDir) (band : Nat) (l : List Nat) : PairDir :=
  { p with
    sets := tabUpdAll 0 p.sets l (fun _ _ => band)
    trimTodo := p.trimTodo.filter (fun x => !l.contains x) }

/-- The changes of a pair direction go on (R292). Lanes that are not in the stripe change where they are. Those in it change one
at a time: the sender takes the lane out behind a free spare at a frame marked STRIPE, and puts it back at another; without a
spare, an idle frame lets one lane change. -/
def trimPair (idle : Bool) (src : Nat) (s : State) (dst : Nat) : State :=
  let p := getPair s src dst
  let band := (getPort s src).band
  let wait := p.trimTodo.filter (fun x => p.stripe.contains x)
  if p.trimTodo = [] ∨ p.trimming ≠ none ∨ trimsHeld s src dst = true then s
  else
    let s1 := updPair s src dst (fun p => p.setLanes band (p.trimTodo.filter (fun x => !p.stripe.contains x)))
    match wait with
    | [] => s1
    | x :: _ =>
      if p.spares.any (fun y => p.laneLocked y) then
        updPair s1 src dst (fun p => { p with trimming := some x, change := addNew (1, x) p.change })
      else if idle then updPair s1 src dst (fun p => p.setLanes band [x])
      else s1

/-- The lanes in the stripes that arrive at a port, with the eye width that a trim measures on each: a free value (R455; log
entry 12). -/
def eyesAt (s : State) (k : Nat) : List (Nat × Nat × Nat) :=
  (othersOf s k).flatMap (fun o => (getPair s o k).stripe.map (fun x => (o, x, (Config.eyeWidth s.fresh (18 * o + x)).toNat)))

/-- The eye width below which a lane is failing: 0.25 UI, in 1/256 UI (R300, R455). -/
def narrowEye : Nat := 64

/-- The trims of a port have ended when none of the lanes that it sends or receives waits: the eye widths are measured, and a lane
whose eye is too narrow is to be examined as a failing one (R455). -/
def finishTrims (s : State) (k : Nat) : State :=
  let done (p : PairDir) : Bool := p.lost || (p.trimTodo.isEmpty && p.trimming.isNone)
  match (getPort s k).trimWait with
  | some t =>
    if (othersOf s k).all (fun o => done (getPair s k o) && done (getPair s o k)) then
      let eyes := eyesAt s k
      let weak := eyes.filter (fun e => decide (e.2.2 < narrowEye))
      nextFresh (weak.foldl (fun u e => updPair u e.1 k (fun p => { p with again := insertNat e.2.1 p.again }))
        (updPort s k (fun p =>
          { p with trimWait := none, trimTemp := t, eyeMin := (eyes.map (·.2.2)).foldl min 0xFFFF })))
    else s
  | none => s

/-- Every lane of a pair direction is to change. -/
def trimDuePair (s : State) (src dst : Nat) : State :=
  updPair s src dst (fun p => { p with trimTodo := (List.range 18).filter (fun x => !p.retired.contains x) })

/-- The drivers of every lane that a port sends are to change, and for a trim also the receivers of every lane that arrives at
it; they change where they can at once. -/
def trimPort (s : State) (k : Nat) (both : Bool) : State :=
  let out (t : State) (o : Nat) : State := trimPair false k (trimDuePair t k o) o
  let into (t : State) (o : Nat) : State := trimPair false o (trimDuePair t o k) k
  finishTrims ((othersOf s k).foldl (fun t o => if both then into (out t o) o else out t o) s) k

/-- Trims of fabric lanes (R292, R450). -/
def laneTrigger (s : State) (k : Nat) (why : CalTrigger) : State :=
  match trimDue (getPort s k).trimTemp true why with
  | none => s
  | some t => trimPort (updPort s k (fun p => { p with trimWait := some t })) k true

/-- CALIBRATION_TRIGGER: a trigger of Table 15-1 falls due. -/
def calTrigger (s : State) (el : Element) (why : CalTrigger) : State :=
  match el with
  | .engine b e => engineTrigger s b e why
  | .fabricRings k =>
    match trimDue (getPort s k).ringTemp false why with
    | some t => updPort s k (fun p => { p with ringTemp := t })
    | none => s
  | .fabricLanes k => laneTrigger s k why
  | .linkLanes k =>
    match trimDue (getLink s k).trimTemp false why with
    | some t => updLink s k (fun l => { l with trimWait := some t })
    | none => s
  | .nearLanes n =>
    match trimDue (getStack s n).trimTemp false why with
    | some t => updStack s n (fun x => { x with trimWait := some t })
    | none => s
  | .connections n c =>
    match trimDue (getChannel s n c).strobeTemp false why with
    | some t => updChannel s n c (fun x => { x with strobeWait := some t })
    | none => s
  | _ => s

def execCalibrationTrigger (el : Element) (why : CalTrigger) (s : State) : Out :=
  guarded (hasElement s el) (calTrigger s el why)

/-- The minimum ENOB of a class, in tenths (Table 03-3). -/
def enobMin (cls : Nat) : Nat := [36, 46, 56, 66, 74].getD cls 0

/-- A measurement passes: every class of the module revision reaches its minimum; figures in 1/256. -/
def measurementPasses (classes : Nat) (enob : List Nat) : Bool :=
  (List.range classes).all (fun k => decide (256 * enobMin k ≤ 10 * enob.getD k 0))

/-- A calibration has passed: its tables wait for a bank switch and are written to non-volatile memory (R81, R452). -/
def calibrationPassed (s : State) (b e : Nat) (t : TestReq) (enob : List Nat) : State :=
  let x := getEngine s b e
  let s1 := nextFresh (updEngine s b e (fun y =>
    { y with newTables := some (s.fresh + 1), enob := enob, calRepeat := false }))
  let s2 := { s1 with recovery := { s1.recovery with nvCal := tabSet 0 s1.recovery.nvCal (engKey b e) x.temp } }
  berthBoundaries (returnEngine (closeTest false (enob.getD 2 0) (if x.calRepeat then 1800 else 600) s2 t) b e) b

/-- CALIBRATION_DONE: the measurement that ends a calibration. A first failure spares what the ring sweep found, and the
calibration is repeated; after a second the engine leaves service (R453). -/
def calibrationDone (s : State) (b e : Nat) (enob : List Nat) (res : TestResult) : State :=
  match runningTest s (.engine b e) with
  | none => s
  | some t =>
    if t.code ≠ 0x10 then s
    else if measurementPasses (classCount s) enob then calibrationPassed s b e t enob
    else if (getEngine s b e).calRepeat then
      berthBoundaries
        (leaveService (closeTest true (enob.getD 2 0) 1800 (updEngine s b e (fun y => { y with enob := enob })) t) b e 6) b
    else
      spareAll (updEngine s b e (fun y => { y with calRepeat := true, enob := enob })) b e res.lines res.rows

def execCalibrationDone (berth engine : Nat) (enob : List Nat) (res : TestResult) (s : State) : Out :=
  guarded (hasEngine s berth engine) (calibrationDone s berth engine enob res)

/-- STANDBY_CHECK: the daily check of a cold standby; one that fails is retired (R480). -/
def standbyCheck (s : State) (lh : LighthouseId) (pass : Bool) : State :=
  let cold := match lh with
    | .engine _ _ _ => false
    | .fabric site k => decide ((getPort s site).lhActive ≠ k)
    | .link q k => decide ((getQuayLh s q).lhActive ≠ k)
  if cold && lhReady s lh && !pass then retireLh s lh else s

def execStandbyCheck (lh : LighthouseId) (pass : Bool) (s : State) : Out :=
  guarded (hasElement s (.lighthouse lh)) (standbyCheck s lh pass)

end Sys2Proof.Machine
end

