-- ==== Sys2Proof/Machine/Tug.lean ====
section
/-! DEFINITION. Tug commands (R217 to R219, R333, R334): the chunks of a copy or fill, and what one chunk does. -/

namespace Sys2Proof.Machine

/-- The chunk size of a code: 4 KiB × 2^CHUNK (R218). -/
def chunkSize (code : Nat) : Nat := 4096 * 2 ^ code

/-- Total bytes, chunk size, and the counter when CNT_EN is set (R217, R219). -/
def tugTotal (c : Cmd) : Nat :=
  let q := c.params
  if c.opcode = 0x0100 then fld q 128 32 * (fld q 160 16 + 1) * (fld q 176 16 + 1) else fld q 64 32 + 1
def tugChunk (c : Cmd) : Nat := chunkSize (if c.opcode = 0x0100 then fld c.params 432 4 else fld c.params 240 4)
def tugCounter (c : Cmd) : Option Nat :=
  let lo := if c.opcode = 0x0100 then 384 else 192
  if bitAt c.params (lo + 47) then some (fld c.params lo 47) else none

/-- The chunks of the destination stream (R218). -/
def tugChunks (c : Cmd) : Nat := ceilDiv (tugTotal c) (tugChunk c)

/-- One piece of a chunk: source address (none for a fill), destination address, offset in the stream, length. -/
structure TugPiece where
  src : Option Nat
  dst : Nat
  off : Nat
  len : Nat
  deriving DecidableEq, Repr

/-- The pieces of chunk `k`, run by run in copy order (R217, R218). -/
def tugPieces (c : Cmd) (k : Nat) : List TugPiece :=
  let q := c.params
  let lo := k * tugChunk c
  let hi := min (lo + tugChunk c) (tugTotal c)
  if c.opcode = 0x0100 then
    let len := fld q 128 32
    let n1 := fld q 160 16 + 1
    let first := lo / len
    let last := (hi - 1) / len
    (List.range (last + 1 - first)).map (fun j =>
      let r := first + j
      let i := r % n1
      let m := r / n1
      let a := max lo (r * len)
      let b := min hi (r * len + len)
      ⟨some (fld q 0 47 + i * fld q 192 48 + m * fld q 240 48 + (a - r * len)),
        fld q 64 47 + i * fld q 288 48 + m * fld q 336 48 + (a - r * len), a, b - a⟩)
  else [⟨none, fld q 0 47 + lo, lo, hi - lo⟩]

/-- The bytes of a fill: byte k is byte (k mod 8) of PATTERN. -/
def fillBytes (pattern off n : Nat) : List Byte :=
  (List.range n).map (fun i => BitVec.ofNat 8 (pattern >>> (8 * ((off + i) % 8))))

/-- The ranges a piece accesses. -/
def TugPiece.touches (p : TugPiece) : List Touch :=
  (match p.src with
   | some a => [⟨.load, a, p.len⟩]
   | none => []) ++ [⟨.store, p.dst, p.len⟩]

/-- The bytes of a piece as its reads have brought them: those of the own module at once, what went out as its answers came
(R333, R334). -/
def pieceBytes (s : State) (c : Cmd) (k : Nat) (p : TugPiece) : List Byte :=
  match p.src with
  | none => fillBytes (fld c.params 128 64) p.off p.len
  | some a =>
    (loadBytes (seenFrom s c.berth) a p.len).zipIdx.map (fun e =>
      match c.tug.data.find? (fun d => d.1 == k && d.2.1 == p.off + e.2) with
      | some d => d.2.2
      | none => e.1)

/-- What the reads of a piece bring at once: the bytes of the own module that answer. -/
def readHere (s : State) (c : Cmd) (k : Nat) (p : TugPiece) : List (Nat × Nat × Byte) :=
  match p.src with
  | none => []
  | some a =>
    ((loadBytes (seenFrom s c.berth) a p.len).zipIdx.filter (fun e => !goesOut s (a + e.2))).map (fun e =>
      (k, p.off + e.2, e.1))

/-- Read a piece of chunk `k`: what goes out leaves as requests. -/
def readPiece (s : State) (c : Cmd) (k : Nat) (p : TugPiece) : State :=
  match p.src with
  | none => s
  | some a => readMarks s c { chunk := some k, off := some p.off } ⟨.load, a, p.len⟩

/-- Write a piece of chunk `k`: the part on the own module at once, what goes out as requests (R333). -/
def writePiece (s : State) (c : Cmd) (k : Nat) (p : TugPiece) : State :=
  let bs := pieceBytes s c k p
  let s2 := storeFrom (nextFresh s) c.berth (layAt p.dst bs)
  issueStores (touchRange s2 p.dst p.len true) c { chunk := some k } p.dst bs

/-- The Tug takes the command: its chunks are counted. -/
def tugBegin (s : State) (c : Cmd) : State :=
  if c.tug.chunks = 0 then updCmd s c.id (fun m => { m with tug := { m.tug with chunks := tugChunks m } }) else s

/-- A chunk has ended: with all its writes acknowledged its counter addition is sent; the command finishes with its last
chunk, or at once when an error stops the Tug (R218, R329, R334). -/
def endChunk (s : State) (c : Cmd) (k : Nat) (st : Option (Nat × Nat)) : State :=
  let counter := if st = none ∧ !c.tug.bad.contains k then tugCounter c else none
  let w := match counter with
    | some a => sendAddition s c a 1
    | none => (s, st)
  let stop := match st with
    | some e => stopsTug e.1
    | none => false
  let s3 := updCmd w.1 c.id (fun m =>
    { (match w.2 with
       | some e => m.note e.1 e.2
       | none => m) with
      tug := { m.tug with
        finished := insertNat k m.tug.finished
        begun := m.tug.begun.filter (· != k)
        reading := m.tug.reading.filter (· != k)
        data := m.tug.data.filter (fun d => d.1 != k) } })
  if stop then stopTug (updCmd s3 c.id (fun m => { m with tideEnd := now s })) c.id
  else if c.tug.finished.length + 1 == c.tug.chunks && decide (c.phase = .started) then finishCmd s3 c.id none []
  else s3

/-- What the accesses of a chunk meet ends it: the refusals for an old epoch are counted, and the chunk adds nothing (R25,
R218). -/
def failChunk (s : State) (c : Cmd) (k : Nat) (ts : List Touch) (e : Nat × Nat) : State :=
  endChunk (ts.foldl (fun t x => countStale t c.berth x.addr x.len) s) c k (some e)

/-- A chunk's writes are issued. One of which every write lies on the own module is then done; otherwise it waits for its
answers. -/
def writeChunk (s : State) (c : Cmd) (k : Nat) : State :=
  let ps := tugPieces c k
  let touches : List Touch := ps.map (fun p => ⟨.store, p.dst, p.len⟩)
  awake s c touches (fun s =>
    match touchStatus s (c.berth) touches with
    | some e => failChunk s c k touches e
    | none =>
      let s1 := updCmd (ps.foldl (fun t p => writePiece t c k p) s) c.id (fun m =>
        { m with tug := { m.tug with reading := m.tug.reading.filter (· != k), begun := insertNat k m.tug.begun } })
      match findCmd s1 c.id with
      | none => s1
      | some m => if chunkOpen s1 c.id k || m.tug.stopped then s1 else endChunk s1 m k none)

/-- The Tug takes up a chunk: its reads are issued, and when none of them has to be waited for, its writes. One that meets an
error adds nothing. -/
def beginChunk (s : State) (c : Cmd) (k : Nat) : State :=
  let ps := tugPieces c k
  let touches := ps.flatMap TugPiece.touches
  awake s c touches (fun s =>
    match touchStatus s (c.berth) touches with
    | some e => failChunk s c k touches e
    | none =>
      let s1 := ps.foldl (fun t p => readPiece t c k p) s
      match findCmd s1 c.id with
      | none => s1
      | some m =>
        if m.tug.stopped then s1
        else if chunkOpen s1 c.id k then updCmd s1 c.id (fun m =>
          { m with tug := { m.tug with
            begun := insertNat k m.tug.begun
            reading := insertNat k m.tug.reading
            data := m.tug.data ++ ps.flatMap (fun p => readHere s c k p) } })
        else writeChunk s1 m k)

/-- Every write of a chunk has been issued and acknowledged: its addition is still to be sent (R218, R334). -/
def chunkAcked (s : State) (c : Cmd) (k : Nat) : Bool :=
  c.tug.begun.contains k && !c.tug.reading.contains k && !c.tug.bad.contains k && !chunkOpen s c.id k

/-- A chunk that has begun goes on once its requests have all been answered: from its reads to its writes, and from its writes
to its end. A chunk that met an error ends. -/
def advanceChunk (s : State) (c : Cmd) (k : Nat) : State :=
  if chunkOpen s c.id k then s
  else if c.tug.reading.contains k && !c.tug.bad.contains k then writeChunk s c k
  else endChunk s c k none

/-- TUG_CHUNK_DONE: a chunk that has not begun is taken up; one that has begun goes on. After an error has stopped the Tug, a
chunk whose writes had all been issued still ends with its addition (R218). -/
def tugChunkDone (s : State) (c : Cmd) (k : Nat) : State :=
  if c.tug.chunks = 0 ∨ c.tug.chunks ≤ k ∨ c.tug.finished.contains k then s
  else if c.tug.stopped then (if chunkAcked s c k then endChunk s c k none else s)
  else if c.tug.begun.contains k then advanceChunk s c k
  else beginChunk s c k

/-- The chunks of a Tug's command whose writes are all acknowledged end with their additions (R218). -/
def endAcked (s : State) (c : Cmd) : State :=
  (c.tug.begun.filter (chunkAcked s c)).foldl (fun t k => match findCmd t c.id with
    | some m => endChunk t m k none
    | none => t) s

/-- TUG_COPY, TUG_FILL and TUG_CHUNK_DONE. -/
def execTugCopy (id : CmdId) (s : State) : Out := onStarted s id 0x0100 (tugBegin s)
def execTugFill (id : CmdId) (s : State) : Out := onStarted s id 0x0101 (tugBegin s)
def execTugChunkDone (id : CmdId) (chunk : Nat) (s : State) : Out :=
  guarded (hasCtx s id.ctx) (match findCmd s id with
    | some c =>
      if (decide (c.phase = .started) || (decide (c.phase = .finished) && c.tug.stopped)) && isTug c.opcode then
        tugChunkDone s c chunk
      else s
    | none => s)

end Sys2Proof.Machine
end

