-- ==== Sys2Proof/Machine/Completion.lean ====
section
/-! DEFINITION. How commands end: timeouts and stops (R186, R188), the rungs of a stop (R467), completions of rings
(R189 to R192) and of mailboxes (R502). -/

namespace Sys2Proof.Machine

/-! ## Timeouts (R186, R188, R244, R343, R404) -/

/-- Requests of a command, or of its nodes, that are held and were never sent. -/
def dropHeld (s : State) (id : CmdId) : State := dropHeldOf s (fun i => decide (ownerOf i = id))

/-- A started command's work is stopped: nothing more is issued, and what has not begun is cancelled. -/
def Cmd.stop (c : Cmd) (t : Nat) : Cmd :=
  { c.note S_TIMEOUT 0 with
    phase := .stopping
    stopTide := t
    tideEnd := t
    opt := { c.opt with todo := [] }
    tug := { c.tug with stopped := true } }

/-- A command whose work is in progress: started, or finished with requests still to be answered. -/
def atWork (s : State) (m : Cmd) : Bool := m.phase == .started || (m.phase == .finished && m.began && requestsOpen s m.id)

/-- The Tugs of a command and its nodes send the additions of the chunks whose writes have all been acknowledged (R218). -/
def settleTugs (s : State) (id : CmdId) : State :=
  ((getCtx s id.ctx).flight.filter (fun m => decide (ownerOf m.id = id))).foldl endAcked s

/-- The started command and its nodes are stopped; a run with no node in flight ends. -/
def stopCmd (s : State) (id : CmdId) : State :=
  let s0 := settleTugs s id
  let mine (m : Cmd) : Bool := decide (ownerOf m.id = id) && atWork s0 m
  let s1 := updCtx s0 id.ctx (fun x => { x with flight := mapIf mine (fun m => m.stop (now s)) x.flight })
  settleRun (updRun (dropHeld s1 id) id (fun r => { r with stopped := true })) id

/-- A test of a request runs. -/
def testRuns (s : State) (r : Route) : Bool := s.recovery.tests.any (fun t => t.who.contains r && t.running)

/-- The request leaves the queues of its tests; a test that nobody asks for any more is withdrawn, unless it runs. -/
def withdrawTests (s : State) (r : Route) : State :=
  let keep (t : TestReq) : Option TestReq :=
    if t.who.contains r then
      let w := t.who.filter (fun x => decide (x ≠ r))
      if w = [] ∧ !t.running then none else some { t with who := w }
    else some t
  { s with recovery := { s.recovery with
      tests := s.recovery.tests.filterMap keep
      gather := s.recovery.gather.filter (fun g => decide (g.who ≠ r)) } }

/-- A DOMAIN_SET of this request has not begun its transition: it waits for its users, or stands behind other transitions of
its domain. -/
def setWaits (s : State) (r : Route) : Bool :=
  s.domains.any (fun d => (match d.2.waiting with
    | some w => decide (w.2 = r)
    | none => false) || d.2.queue.any (fun q => decide (q.2 = some r)))

/-- The site whose role change of function `fn` drains. -/
def drainOf (s : State) (fn : Nat) : Option Nat :=
  (List.range 49).find? (fun k => match (getSite s k).drain with
    | some d => d.2 == fn
    | none => false)

/-- The timeout of a request that Blunen serves: a test that found no boundary is deferred, one that runs goes on without its
request, which ends with S_TIMEOUT (R188, R244); a transition that has not begun and a drain of a role are withdrawn; what
cannot be stopped part way goes on. -/
def servedTimeout (s : State) (r : Route) (op params : Nat) : State :=
  if op / 256 = 0x0E then
    answer (withdrawTests s r) r (if testRuns s r then ⟨S_TIMEOUT, 0, []⟩ else ⟨S_DEFERRED, fld params 0 8, []⟩)
  else if op = 0x0030 then
    if setWaits s r then
      answer (withdrawSets s (fun x => decide (x = r))) r ⟨S_TIMEOUT, 0, []⟩
    else s
  else match r with
    | .mailbox fn => match drainOf s fn with
      | some k => answer (updSite s k (fun x => { x with drain := none })) r ⟨S_TIMEOUT, 0, []⟩
      | none => s
    | .ring _ => s

/-- The timeout of a mailbox request. -/
def mailboxTimeout (s : State) (fn : Nat) : State :=
  let m := getMbx s fn
  if !(m.pending && m.accepted && decide (m.result = none)) || decide (now s < m.submitted + timeoutNs (hTimeout m.req)) then s
  else if m.journal = 0 then answer s (.mailbox fn) ⟨S_TIMEOUT, 0, []⟩
  else servedTimeout s (.mailbox fn) (hOpcode m.req) (paramsOf m.req)

/-- A waiting command can start at this evaluation (R186). -/
def startsNow (s : State) (c : Cmd) : Bool :=
  let x := getCtx s c.id.ctx
  !heldByEarlier x c.id && decide (startedCount x < 64) && eligible s c && domainsReady s c.berth c && resourcesFree s c

/-- The timeout of a command of a ring. -/
def ringTimeout (s : State) (id : CmdId) : State :=
  match findCmd s id with
  | none => s
  | some c =>
    if decide (now s < c.deadline) || c.blockedAt.isSome || decide (c.id.node ≠ none) then s
    else match c.phase with
      | .waiting =>
        if startsNow s c then s
        else settleLimit (updCmd s id (fun m => m.endUnstarted (now s) S_TIMEOUT 0)) id.ctx
      | .started => if c.served then servedTimeout s (.ring id) c.opcode c.params else stopCmd s id
      | .finished => if atWork s c then stopCmd s id else s
      | .stopping => s

/-- COMMAND_TIMEOUT. -/
def execCommandTimeout (r : Route) (s : State) : Out :=
  guarded (hasRoute s r) (match r with
    | .mailbox fn => mailboxTimeout s fn
    | .ring id => ringTimeout s id)

/-! ## Escalation of a stop (R188, R467, R468) -/

/-- A stop unfinished after 1 ms: a context abort, or the reset of the engine that does not answer. -/
def escalateStop (s : State) (id : CmdId) (u : StuckUnit) : State :=
  match findCmd s id with
  | none => s
  | some c =>
    if decide (c.phase ≠ .stopping) || decide (now s < c.stopTide + 1000000) then s
    else match u with
      | .engine b e =>
        if b = c.berth ∧ c.engines.contains e then beginEngineReset (takeRung s 2 (engKey b e) e b) b e else s
      | .sequencer => abortCtx (takeRung s 1 id.ctx id.ctx c.berth) id.ctx
      | .tug => if c.holdsTug then abortCtx (takeRung s 1 id.ctx id.ctx c.berth) id.ctx else s

/-- STOP_ESCALATION. -/
def execStopEscalation (id : CmdId) (unit : StuckUnit) (s : State) : Out :=
  guarded (hasCtx s id.ctx && (match unit with
    | .engine b e => hasEngine s b e
    | _ => true)) (escalateStop s id unit)

/-! ## Completion of a ring's command (R189 to R192, R121, R132) -/

/-- The work of a command is over, every request it or its nodes sent is answered or ended, no node of its run is in flight,
and no chunk of its Tug has an addition to send (R127, R188, R218, R241). -/
def readyToComplete (s : State) (c : Cmd) : Bool :=
  (decide (c.phase = .finished) || decide (c.phase = .stopping)) && !requestsOpen s c.id &&
  (decide (c.id.node ≠ none) || !nodesInFlight s c.id) &&
  (decide (c.phase = .stopping) || !c.tug.begun.any (chunkAcked s c))

/-- The status a Tally record adds (R107, R121, Table 06-8). -/
def Cmd.tallied (c : Cmd) : Cmd :=
  if !writesTally c.tally then c
  else if verdict c.tally ≠ 0 then c.note S_BUDGET (min (c.tally.boundFail + c.tally.poisonBlocks) 0xFFFF)
  else if anyFlag c.tally then c.note S_OK_FLAGGED 0
  else c

/-- The command as its entry shows it. -/
def completed (s : State) (c : Cmd) : Cmd :=
  let c1 := c.tallied
  if statusWritten c1.status then { c1 with tideEnd := now s } else c1

/-- The runs of a command's staged results, and the stores they make. -/
def resultRuns (c : Cmd) : List (Nat × List Byte) := gather c.results
def resultStores (c : Cmd) : List Touch := (resultRuns c).map (fun r => ⟨.store, r.1, r.2.length⟩)

/-- A staged byte is written: its site accepts it from the command's berth. -/
def byteStored (s : State) (c : Cmd) (a : Nat) : Bool :=
  let v := seenFrom s c.berth
  !goesOut s a && (resultRuns c).any (fun r => decide (r.1 ≤ a) && decide (a < r.1 + r.2.length) &&
    accepts v (addrLocal r.1) r.2.length (addrLocal a))

/-- The Tally record counts the output blocks that are written (R128, R130). -/
def talliedOuts (s : State) (c : Cmd) : TallyAcc :=
  (c.opt.outs.filter (fun o => o.1.all (byteStored s c))).foldl (fun a o => a.block (hTreq c.packet) o.2) c.tally

/-- Results become visible (R189): the runs are stored, with what they meet at their places, and the DRAM rows take their
buffers (R248). What lies where no answer comes leaves as requests, which the entry waits for (R26). -/
def storeResults (s : State) (c : Cmd) : State :=
  let ts := resultStores c
  let s1 := updCmd s c.id (fun m =>
    { (match touchStatus s c.berth ts with
       | some e => m.note e.1 e.2
       | none => m) with
      tideEnd := now s
      results := []
      tally := talliedOuts s c
      opt := { m.opt with outs := [] } })
  let s2 := ts.foldl (fun t x => touchRange (countStale t c.berth x.addr x.len) x.addr x.len true) s1
  issueResults (storeFrom s2 c.berth (c.results.filter (fun e => !goesOut s e.1))) c (c.results.filter (fun e => goesOut s e.1))

/-- The results of a finished command are made visible once nothing holds them; those of a stopped command are never
written. -/
def landResults (s : State) (c : Cmd) : State :=
  if c.phase = .finished ∧ c.results ≠ [] then awake s c (resultStores c) (fun t => storeResults t c) else s

/-- A command's results are visible, or never will be. -/
def landed (c : Cmd) : Bool := decide (c.results = []) || decide (c.phase = .stopping)

/-- The command leaves its context and the rotations of its engines. -/
def dropCmd (s : State) (c : Cmd) : State :=
  c.engines.foldl (fun t e => updEngine t c.berth e (fun x =>
      { x with rotationList := x.rotationList.filter (fun i => decide (i ≠ c.id)) }))
    (updCtx s c.id.ctx (fun x => { x with flight := x.flight.filter (fun m => decide (m.id ≠ c.id)) }))

/-- Completions written in sequence order (R177, R199): a completion ahead of the order waits in `ahead`. -/
def advance : Nat → W32 → List W32 → W32 × List W32
  | 0, n, l => (n, l)
  | k + 1, n, l => if l.contains n then advance k (n + 1) (l.filter (fun x => decide (x ≠ n))) else (n, l)

/-- An entry has been written. -/
def Context.wrote (x : Context) (seq : Nat) : Context :=
  let r := advance (x.ahead.length + 1) x.inOrder (x.ahead ++ [BitVec.ofNat 32 seq])
  { x with inOrder := r.1, ahead := r.2 }

/-- Slots of the completion ring and of the Tally ring (R175). -/
def cqSlot (x : Context) (seq : Nat) : Nat := x.cqBase + 32 * (seq % 2 ^ x.log2S)
def tqSlot (x : Context) (seq : Nat) : Nat := x.tqBase + 32 * (seq % 2 ^ x.log2S)

/-- After the entry: DONE_INC (R190) and the interrupt (R191). -/
def afterEntry (s : State) (c : Cmd) : State :=
  let s1 := if hDoneInc c.packet && statusWritten c.status then updCounter s c.berth (hDoneCnt c.packet) (· + 1) else s
  if hIrq c.packet then msix s1 (ctxFn s c.id.ctx) (getCtx s c.id.ctx).vector else s1

/-- The slots that a command writes at its completion: in host memory or not, and address. -/
def entrySlots (s : State) (c : Cmd) : List (Bool × Nat) :=
  let x := getCtx s c.id.ctx
  (if writesTally c.tally then [(bitAt x.place 2, tqSlot x c.id.seq)] else []) ++ [(bitAt x.place 1, cqSlot x c.id.seq)]

/-- A slot of the completion has to be waited for: its stack is in retention, its segment moves, or its stack gives no answer
and the request's bound has not ended it yet (R26, R198, R265, R403). A node of a graph writes no slot. -/
def entryWaits (s : State) (c : Cmd) : Bool :=
  decide (c.id.node = none) && !c.slotLost &&
  (entrySlots s c).any (fun e => slotWaits s c.id.ctx e.1 e.2 32 || slotSilent s e.1 e.2)

/-- While a slot is waited for, what sleeps is woken, and a slot that gives no answer has its request (R26, R403). -/
def waitEntry (s : State) (c : Cmd) : State :=
  (entrySlots s c).foldl (fun t e =>
    if slotSilent t e.1 e.2 then issueSlot t c.id.ctx (some c.id) .store e.2 32
    else if e.1 then t
    else (sleepersOf t e.2 32).foldl wakeDomain t) s

/-- The Tally record and the completion entry, in order. A slot that cannot be written stops the context, and the command
ends without an entry (R198). -/
def writeEntry (s : State) (c : Cmd) : State :=
  let x := getCtx s c.id.ctx
  let tq := tqSlot x c.id.seq
  let cq := cqSlot x c.id.seq
  let tr := writesTally c.tally
  if c.slotLost then s
  else if tr && !slotOk s c.id.ctx (bitAt x.place 2) .store tq 32 then stopContext s c.id.ctx tq
  else
    let s1 := if tr then
        writeSlot s (bitAt x.place 2) tq (bytesLE 32 (tallyRecord c.tally (hTreq c.packet) c.id.ctx c.id.seq))
      else s
    if !slotOk s c.id.ctx (bitAt x.place 1) .store cq 32 then stopContext s1 c.id.ctx cq
    else
      let s2 := writeSlot s1 (bitAt x.place 1) cq (bytesLE 32 (completionEntry c (2 ^ x.log2S)))
      afterEntry (updCtx s2 c.id.ctx (fun y => y.wrote c.id.seq)) c

/-- A failed residual test queues a calibration of every engine that ran a committed block (R132). For a graph it is the
node that fails, with the engines of its own berth; the merged record of the run queues nothing more. -/
def residualCalibrations (s : State) (c : Cmd) : State :=
  if !c.tally.merged && residualFails c.tally.samples c.tally.zSum c.tally.zMax then
    c.tally.engines.foldl (fun t e =>
      if engInService t c.berth e then
        engineBoundary (queueTest t { el := .engine c.berth e, code := 0x10, rank := 3 }) c.berth e
      else t) s
  else s

/-- What a finished command leaves free for others: domains, tile tests, the place of a 65th command. -/
def releaseAfter (s : State) (c : Cmd) : State := settleLimit (tileBoundaries (releaseWaiting s) c.berth) c.id.ctx

/-- The last command in flight closes a closing context (Table 06-10). -/
def settleClosing (s : State) (c : Nat) : State :=
  updCtx s c (fun x => if x.state = .closing ∧ x.flight = [] then { x with state := .closed } else x)

/-- A command in flight, whose results are visible, completes: one of a ring with its entry, a node of a graph into its
run. -/
def completeCmd (s : State) (m : Cmd) : State :=
  let c := completed s m
  let s1 := dropCmd s c
  let s2 := match c.id.node with
    | some n => nodeCompleted s1 c n.1 n.2
    | none => writeEntry s1 c
  settleClosing (settleColls (releaseAfter (residualCalibrations s2 c) c)) c.id.ctx

/-- A mailbox reply: data, one update of MBX_REPLY, the interrupt (R502). -/
def completeMailbox (s : State) (fn : Nat) : State :=
  let m := getMbx s fn
  match m.result with
  | none => s
  | some r =>
    if !m.pending then s
    else
      let s1 := updMbx s fn (fun x =>
        { x with
          pending := false
          replyValid := true
          replyTag := x.goTag
          detail := r.detail
          status := r.status
          data := padTo 40 r.data
          accepted := false
          result := none
          journal := 0 })
      if m.goIrq && decide (m.goVector < vectorCount fn) then msix s1 fn m.goVector else s1

/-- COMMAND_COMPLETION. -/
def execCommandCompletion (r : Route) (s : State) : Out :=
  guarded (hasRoute s r) (match r with
    | .mailbox fn => completeMailbox s fn
    | .ring id =>
      match findCmd s id with
      | some c =>
        if readyToComplete s c then
          let t := landResults s c
          match findCmd t id with
          | some d =>
            if !landed d || !readyToComplete t d then t
            else if entryWaits t (completed t d) then waitEntry t d
            else completeCmd t d
          | none => t
        else s
      | none => s)

end Sys2Proof.Machine
end

