-- ==== Sys2Proof/Machine/Links.lean ====
section
/-! DEFINITION. What the harbour (spec/11_harbour.md) needs before its rows: the members and the master, the training word of a
link (Table 11-2), and links that begin to train. -/

namespace Sys2Proof.Machine

/-- The members of the harbour in rising order. -/
def memberList (s : State) : List Nat := setBits 25 s.harbour.members.toNat

/-- This module is the master or acting master. -/
def isMaster (s : State) : Bool := s.harbour.master == ownPos s && !s.harbour.noMaster

/-- Fault event 0x0501 about a position. -/
def memberEvent (s : State) (pos outcome : Nat) : State :=
  raiseAt s
    { code := 0x0501
      outcome := outcome
      pos := pos
      unit := pos }

/-- The link of position p that is cabled to position q (R351). -/
def linkOf (p q : Nat) : Nat := (q + 24 - p) % 25

/-! ## The training word (R352) -/

/-- Offset of the body of a configuration image, and of entry f of its flat table (Table 14-7). -/
def bodyAt : Nat := 64
def flatAt (f : Nat) : Nat := bodyAt + 0xE40 + 2 * f

/-- Bits [127:32] of a training word as a number (Table 11-2). -/
def trainBits (w : TrainWord) : Nat :=
  w.part % 256 + (w.pos % 32) <<< 8 + (w.link % 32) <<< 16 + w.members.toNat <<< 32 + w.cfgCrc.toNat <<< 64

/-- The own CFG_CRC: over FAB_ADDR_MODE and, in flat mode, the flat table (R320). -/
def cfgCrc (s : State) : W32 :=
  let c := s.sec.breakwater
  if c.fabAddrMode = 0 then Config.crc32 0
  else Config.crc32 (1 + 256 * leNat (sliceBytes c.image (flatAt 0) 8192))

/-- The own word on link k, with the wavelengths that serve in the direction to the partner and in the other one (R353). -/
def ownWord (s : State) (k : Nat) : TrainWord :=
  let w : TrainWord :=
    { cfgCrc := cfgCrc s
      members := s.harbour.members
      link := k
      pos := ownPos s
      part := s.ident.part
      check := 0
      lanes := (getLink s k).lanesOut
      lanesBack := (getLink s k).lanesIn }
  { w with check := Config.crc32 (trainBits w) }

/-- A link trains, and the own word leaves on it (R352). -/
def startTraining (s : State) (k : Nat) : State :=
  let t := updLink s k (fun l => { l with state := .training, since := now s })
  send t (.training k (ownWord t k))

/-- The links of a quay that is back: with N ≤ 4 each end leaves link reset on its own, otherwise it waits for its release instant
(R366). -/
def freeQuay (s : State) (q : Nat) : State :=
  (List.range 3).foldl (fun t i =>
    let k := 3 * q + i
    if (getLink t k).state = .disabled then t
    else
      let u := updLink t k (fun l => { l with state := .linkReset, since := now t, synced := false })
      if harbourSize t ≤ 4 then startTraining u k else u) s

end Sys2Proof.Machine
end

