-- ==== Sys2Proof/Machine/Management.lean ====
section
/-! DEFINITION. The management opcodes of Table 07-5 and what Blunen and the domain controllers do for them: contexts
(R198 to R202), roles (R342, R343), power domains (R400 to R405) and the Tide alarm (R385). -/

namespace Sys2Proof.Machine

/-! ## Contexts (Tables 06-9, 06-10, 07-5) -/

/-- A request of an earlier generation of context c is still outstanding (R472). -/
def oldOutstanding (s : State) (c : Nat) : Bool :=
  s.reqs.out.any (fun o => !o.held && (match o.req.srcCtx with
    | some id => id.ctx == c && o.req.gen != (getCtx s c).gen
    | none => false))

/-- A slave opens no context before the first lock of its Tide (R358, R390). -/
def lockWaits (s : State) : Bool := decide (2 ≤ harbourSize s) && !isMaster s && !s.tide.firstLock

/-- Tide is never stepped once a context has been opened (R358, R390). -/
def noStep (s : State) : State := { s with tide := { s.tide with firstLock := true } }

/-- A context as CTX_OPEN leaves it: OPEN, its counts zero, its rings as the parameters give them (R173, R174). -/
def openedCtx (x : Context) (q : Nat) : Context :=
  { state := .opened
    gen := x.gen
    log2S := fld q 8 8
    place := fld q 16 3
    vector := fld q 32 11
    sqBase := fld q 64 64
    cqBase := fld q 128 64
    tqBase := fld q 192 64
    rejected := x.rejected
    ignored := x.ignored
    droppedOld := x.droppedOld }

/-- CTX_OPEN: waits while requests of earlier generations are outstanding (R472) or the berth is in thermal hold
(R416), and on a slave until its Tide has first locked (R358). A context of a lost berth stays CLOSED (R464), so the request asks
for a transition that there is not, and takes S_BAD_PARAM at CONTEXT (R198; DEDUCED, log entry 85). -/
def execCtxOpen (fn : Nat) (s : State) : Out :=
  blunen s (.mailbox fn) 0x0001 (fun a =>
    let c := fld a.params 0 6
    if (getCtx s c).state ≠ .closed then (s, failAt a S_BAD_PARAM 0)
    else if oldOutstanding s c || (getBerth s (ctxBerth c)).hold || berthResetting s (ctxBerth c) || lockWaits s then (s, none)
    else if (getSite s (ctxBerth c)).retired then (s, failAt a S_BAD_PARAM 0)
    else (endRung (updCtx (noStep s) c (fun x => openedCtx x a.params)) 1 c, okReply [BitVec.ofNat 8 (getCtx s c).gen.toNat]))

/-- CTX_CLOSE: OPEN to CLOSING at once; replies F, Q and SQ_TAIL (R200). A context with nothing in flight is CLOSED at once:
Table 06-10 names only the completion of the last command in flight (DESIGN CHOICE, log entry 58). -/
def execCtxClose (fn : Nat) (s : State) : Out :=
  blunen s (.mailbox fn) 0x0002 (fun a =>
    let c := fld a.params 0 8
    let x := getCtx s c
    if x.state ≠ .opened then (s, failAt a S_BAD_PARAM 0)
    else (updCtx s c (fun y => { y with state := if y.flight = [] then .closed else .closing }),
      okReply (bytesLE 4 x.fetchCount.toNat ++ bytesLE 4 x.cmdCount.toNat ++ bytesLE 4 x.sqTail.toNat)))

/-- CTX_ABORT: every command in flight ends without an entry; replies F, Q, the completions written in sequence order
and the new GEN (R199, R201). -/
def execCtxAbort (fn : Nat) (s : State) : Out :=
  blunen s (.mailbox fn) 0x0003 (fun a =>
    let c := fld a.params 0 8
    let x := getCtx s c
    if x.state = .closed then (s, failAt a S_BAD_PARAM 0)
    else (abortCtx s c, okReply (bytesLE 4 x.fetchCount.toNat ++ bytesLE 4 x.cmdCount.toNat ++
      bytesLE 4 x.inOrder.toNat ++ bytesLE 1 (x.gen + 1).toNat)))

/-- The code of a context's state in the reply of CTX_QUERY. -/
def CtxState.code : CtxState → Nat
  | .closed => 0
  | .opened => 1
  | .closing => 2
  | .stopped => 3

/-- CTX_QUERY: state, GEN, F, Q and H. -/
def execCtxQuery (r : Route) (s : State) : Out :=
  blunen s r 0x0004 (fun a =>
    let x := getCtx s (fld a.params 0 8)
    (s, okReply (bytesLE 4 (x.state.code + x.gen.toNat <<< 8) ++ bytesLE 4 x.fetchCount.toNat ++
      bytesLE 4 x.cmdCount.toNat ++ bytesLE 4 x.cqHead.toNat)))

/-- FW_INFO: the release and the floor (R8, R442). -/
def execFwInfo (r : Route) (s : State) : Out :=
  blunen s r 0x0010 (fun _ =>
    let v := s.sec.release
    (s, okReply (bytesLE 1 v.1 ++ bytesLE 1 v.2.1 ++ bytesLE 4 v.2.2 ++ bytesLE 1 s.sec.floor.2 ++ bytesLE 1 s.sec.floor.1)))

/-- HEALTH_READ: one page of a site's health summary (R486). -/
def execHealthRead (r : Route) (s : State) : Out :=
  blunen s r 0x0011 (fun a => (s, okReply (healthBytes s (fld a.params 0 6) (fld a.params 6 2))))

/-! ## Roles (R342, R343) -/

/-- ROLE_CHANGE: the site starts to drain. A retired site takes no role but 0xFF (R342, R464), so its name is out of range; one
that has stopped responding cannot drain (DESIGN CHOICE: R343 gives no status for either; log entry 85). -/
def execRoleChange (fn : Nat) (s : State) : Out :=
  blunen s (.mailbox fn) 0x0020 (fun a =>
    let k := fld a.params 0 8
    if (getSite s k).retired then (s, failAt a S_BAD_PARAM 0)
    else if siteDown s k then (s, some ⟨S_HW_ERROR, k, []⟩)
    else if (getSite s k).drain ≠ none ∨ (getSite s k).replyTo ≠ none then (s, none)
    else (markServed (updSite s k (fun x => { x with drain := some (fld a.params 8 8, fn) })) (.mailbox fn), none))

/-- ROLE_DRAIN_DONE: every request the site had taken is answered (a request is taken and answered in one command), so the new
role and the next epoch are in force, and the epoch goes to the tables of the harbour (Table 10-12, steps 3 to 5). The request
is answered when the own table holds it, by EPOCH_TABLE_UPDATE (step 7); the other members' tables are theirs. -/
def roleDrained (s : State) (k : Nat) : State :=
  match (getSite s k).drain with
  | none => s
  | some d =>
    let e := (getSite s k).epoch + 1
    send (updSite s k (fun x => { x with role := d.1, epoch := e, drain := none, replyTo := some d.2 })) (.epoch k e)

/-- The own epoch table holds the epoch of a role change: the request is answered with it (Table 10-12 step 7). -/
def roleReply (s : State) (k : Nat) : State :=
  match (getSite s k).replyTo with
  | none => s
  | some fn =>
    if staleSite s k then s
    else
      answer (updSite s k (fun x => { x with replyTo := none })) (.mailbox fn) ⟨S_OK, 0, bytesLE 1 (getSite s k).epoch.toNat⟩

def execRoleDrainDone (site : Nat) (s : State) : Out := guarded (hasSite s site) (roleDrained s site)

/-! ## Power domains (R400 to R405) -/

/-- DOMAIN_SET. -/
def execDomainSet (r : Route) (s : State) : Out :=
  blunen s r 0x0030 (fun a =>
    let d := fld a.params 0 16
    let st := domStateOf (fld a.params 16 8)
    if !domainAllowed s d (fld a.params 16 8) then (s, failAt a S_BAD_PARAM 0)
    else if (getDomain s d).target = st ∧ (getDomain s d).busy = none then (s, okReply [])
    else if st ≠ .on ∧ domainInUse s d then
      if (getDomain s d).waiting = none then
        (markServed (updDomain s d (fun x => { x with waiting := some (st, r) })) r, none)
      else (s, none)
    else (markServed (beginSet s d st r) r, none))

/-- The next queued transition of a domain begins (R405). -/
def nextTransition (s : State) (d : Nat) : State :=
  match (getDomain s d).queue with
  | [] => updDomain s d (fun x => { x with busy := none, who := none })
  | q :: rest =>
    let s1 := updDomain s d (fun x => { x with busy := some q.1, who := q.2, queue := rest })
    if q.1 = .on then s1 else parkDomain s1 d

/-- The bytes of a module-local DRAM address lie on stack n: by its placement, or by the slot of its segment (R262, R317). -/
def onStack (s : State) (n loc : Nat) : Bool :=
  match placeOf s.ident.part loc with
  | .dram _ => servingStack s loc == n
  | _ => false

/-- What a domain that returns from off to on, or goes off, does to the state it holds (Table 13-3, R157, R400, R403,
Table 14-6). -/
def domainArrived (s : State) (d : Nat) (old new : DomState) : State :=
  match domKind d with
  | .region b e =>
    if old = .off ∧ new = .on then
      let hit (loc : Nat) : Bool := match placeOf s.ident.part loc with
        | .tile b' t _ => b' == b && regionOf t == e
        | _ => false
      { s with mem := { s.mem with
          cells := tabClear hit s.mem.cells
          poisonWord := tabClear (fun k => hit (8 * k)) s.mem.poisonWord } }
    else s
  | .engine b e =>
    if new = .off then updEngine s b e (fun x => { x.discard with bankA := {}, bankB := {}, activeB := false })
    else if old = .off ∧ new = .on then
      updEngine s b e (fun x => { x with
        calTemp := x.temp
        calTide := now s
        stale := false
        newTables := none })
    else s
  | .stack n =>
    if old = .off ∧ new = .on then
      let s1 := updSite s (stackSite n) (fun x => { x with epoch := x.epoch + 1 })
      send { s1 with mem := { s1.mem with
          cells := tabClear (onStack s n) s1.mem.cells
          poison := tabClear (fun k => onStack s n (64 * k)) s1.mem.poison } }
        (.epoch (stackSite n) ((getSite s (stackSite n)).epoch + 1))
    else s
  | .quay q =>
    if new = .off then
      (List.range 3).foldl (fun t i => updLink t (3 * q + i) (fun l =>
        if l.state = .disabled then l else { l with state := .linkReset, since := now s, synced := false })) s
    else if old = .off then freeQuay s q
    else s
  | _ => s

/-- The holders of replicas of Tide in a domain: berth dispatchers and ports in the base fabric, the Harbourmaster, the PCIe
interface (49), the quays and the stack base dies (R380). -/
def replicaHolders (d : Nat) : List Nat :=
  match domKind d with
  | .fabric => List.range 8
  | .hm _ => [hmSite]
  | .pcie => [49]
  | .quay q => [quaySite q]
  | .stack n => [stackSite n]
  | _ => []

/-- The replicas of a domain are lost when its clock stops, and loaded from the master counter before the domain, on again,
serves its first request, in reference mode (R380, R381). -/
def loadReplicas (s : State) (d : Nat) (st : DomState) : State :=
  { s with tide := { s.tide with
      loaded := (replicaHolders d).foldl (fun l k =>
        if st = .on ∧ s.tide.mode = .reference then insertNat k l else l.filter (· != k)) s.tide.loaded } }

/-- DOMAIN_TRANSITION_DONE: the domain reaches the state of its transition; the request that asked for it completes; a
domain that is on again unparks its crossings; the next queued transition begins. A region goes down only after its
engine, every transition that takes the engine down among them, and an engine returns only after its region (R402). A clock stops only
once its crossings are PARKED (R378). The regions and engines of a berth in thermal hold stay off (R416). -/
def transitionDone (s : State) (d : Nat) : State :=
  match (getDomain s d).busy with
  | none => s
  | some st =>
    let blocked := match domKind d with
      | .region b e =>
        (decide (st ≠ DomState.on) && (decide ((getDomain s (engineDom b e)).state.depth < st.depth) ||
          (getDomain s (engineDom b e)).queue.any (fun q => decide (q.1 ≠ DomState.on)))) ||
        (decide (st ≠ DomState.off) && ((getBerth s b).hold || (getBerth s b).stopped))
      | .engine b e => (decide (st = DomState.on) && decide ((getDomain s (regionDom b e)).state ≠ DomState.on)) ||
        (decide (st ≠ DomState.off) && ((getBerth s b).hold || (getBerth s b).stopped))
      | _ => false
    if blocked || (decide (st ≠ DomState.on) && !parkable s d) then s
    else
      let old := (getDomain s d).state
      let who := (getDomain s d).who
      let s0 := if st = DomState.on then s else finishPark s d
      let s1 := loadReplicas (domainArrived (updDomain s0 d (fun x => { x with state := st })) d old st) d st
      let s2 := if st = DomState.on then unparkDomain s1 d else s1
      let s3 := nextTransition s2 d
      match who with
      | some r => answer s3 r ⟨S_OK, 0, []⟩
      | none => s3

/-- The domain exists (Table 13-3). -/
def hasDomain (s : State) (d : Nat) : Bool :=
  match domKind d with
  | .region b _ => hasBerth s b
  | .engine b _ => hasBerth s b
  | .stack n => hasStack s n
  | .reserved => false
  | _ => true

def execDomainTransitionDone (domain : Nat) (s : State) : Out := guarded (hasDomain s domain) (transitionDone s domain)

/-! ## Tide alarm (R385) -/

/-- TIDE_ALARM: arms the alarm; 0 disarms; a value already past fires at once, on a module that is awake. -/
def execTideAlarm (r : Route) (s : State) : Out :=
  blunen s r 0x0031 (fun a =>
    let v := fld a.params 0 64
    ({ s with tide := { s.tide with alarm := if v = 0 ∨ v ≤ now s then none else some v } }, okReply []))

/-- TIDE_ALARM_FIRE: at the first instant at which Tide is at least its value the alarm fires, once. -/
def execTideAlarmFire (s : State) : Out :=
  .next (match s.tide.alarm with
    | some v =>
      if v ≤ now s then wakeModule { s with tide := { s.tide with alarm := none } } 5 [] [] else s
    | none => s)

end Sys2Proof.Machine
end

