-- ==== Sys2Proof/Machine/Requests.lean ====
section
/-! DEFINITION. Requests, responses and flows (spec/10_memory_fabric.md): issue at the source (R327, R332), service at the
target (R323 to R328), responses (R339), dead targets (R337, R338) and the epoch tables (R341). -/

namespace Sys2Proof.Machine

/-! ## Forms (Tables 10-6 to 10-8) -/

/-- The bytes that a mask writes: offset and length, when they are one aligned group of 4 or 8. -/
def maskGroup (m : BitVec 64) : Option (Nat × Nat) :=
  match (List.range 8).find? (fun i => m.toNat == 0xFF <<< (8 * i)) with
  | some i => some (8 * i, 8)
  | none => match (List.range 16).find? (fun i => m.toNat == 0xF <<< (4 * i)) with
    | some i => some (4 * i, 4)
    | none => none

/-- An atomic operation has this size (Table 10-7). -/
def atomicSize (op : AtomicOp) (n : Nat) : Bool :=
  match op with
  | .fadd => n == 4
  | .bfadd2 => n == 4
  | _ => n == 4 || n == 8

/-- The request is one of Table 10-6, and its range admits it (Table 10-8). A store that writes no byte changes nothing
anywhere (R323). -/
def admitted (s : State) (r : WireReq) : Bool :=
  match r.kind with
  | .load => [1, 2, 4, 8, 16, 32, 64].contains r.size && r.addr % r.size == 0 && admits s .load r.addr r.size
  | .store =>
    r.addr % 64 == 0 && r.data.length == 64 &&
    (match placeOf (mapPart s r.addr) (addrLocal r.addr) with
     | .counter _ _ => decide (r.mask = 0) && posOk s r.addr || (match maskGroup r.mask with
       | some g => g.2 == 8 && admits s .store (r.addr + g.1) 8
       | none => false)
     | .mirror _ => decide (r.mask = 0) && posOk s r.addr || (match maskGroup r.mask with
       | some g => admits s .store (r.addr + g.1) g.2
       | none => false)
     | _ => admits s .store r.addr 64)
  | .atomic =>
    atomicSize r.aop r.size && r.addr % r.size == 0 && admits s .atomic r.addr r.size &&
    (match placeOf (mapPart s r.addr) (addrLocal r.addr) with
     | .counter _ _ => decide (r.aop = .add)
     | _ => true)

/-- The kind of access a request makes. -/
def reqAccess : ReqKind → AccessKind
  | .load => .load
  | .store => .store
  | .atomic => .atomic

/-! ## Atomic operations (R323, R324, Table 10-7) -/

/-- The new value of an atomic of `n` bytes on the old value `m`, with operands `p` and `q`. -/
def atomicNew (op : AtomicOp) (n m p q : Nat) : Nat :=
  let w := 8 * n
  let fp (f : FloatFmt) (a b : Nat) : Nat := f.encode .rne false (Num.add .rne (f.decode a) (f.decode b))
  match op with
  | .add => (m + p) % 2 ^ w
  | .fadd => fp fmtFP32 m (p % 2 ^ 32)
  | .bfadd2 => fp fmtBF16 (fld m 0 16) (fld p 0 16) + fp fmtBF16 (fld m 16 16) (fld p 16 16) <<< 16
  | .min => if toSigned w p < toSigned w m then p % 2 ^ w else m
  | .max => if toSigned w m < toSigned w p then p % 2 ^ w else m
  | .swap => p % 2 ^ w
  | .cas => if m = q % 2 ^ w then p % 2 ^ w else m
  | .fand => m &&& (p % 2 ^ w)
  | .for => m ||| (p % 2 ^ w)

/-! ## Issue (R322, R327, R332, R337, R338) -/

/-- The source of a request may issue it: a site of this module whose command is started in the current generation. -/
def sourceRuns (s : State) (r : WireReq) : Bool :=
  r.bar2.isNone && r.srcPos == ownPos s && hasSite s r.srcSite && s.rst.ready &&
  (match r.srcCtx with
   | some id => (match findCmd s id with
     | some c => decide (c.phase = .started)
     | none => false)
   | none => true)

/-- REQUEST_ISSUE. A source gives a new request a TAG that no answer can still come for (R322, R339). -/
def requestIssue (s : State) (r : WireReq) : State :=
  match s.reqs.out.find? (fun o => o.req.tag == r.tag) with
  | some o => if o.held then issueHeld s o r.swell else s
  | none => if sourceRuns s r && admitted s r && !tagTaken s r.tag then issueNew s r else s

def execRequestIssue (req : WireReq) (s : State) : Out := .next (requestIssue s req)

/-! ## The target: who may come in -/

/-- The bytes that a request is about, as offset from its address and length: the sector of a store to memory, the words of one
to a counter or to the mirror. -/
def requestSpan (s : State) (r : WireReq) : Nat × Nat :=
  if r.kind ≠ .store then (0, r.size)
  else match placeOf s.ident.part (addrLocal r.addr), maskGroup r.mask with
    | .counter _ _, some g => g
    | .mirror _, some g => g
    | .mirror _, none => (0, 0)
    | _, _ => (0, 64)

/-- An INGRESS entry admits a request from another module (R435). In the mirror none reaches more than the doorbells of the
contexts of its own partition and the read-only registers (R315). -/
def ingressAdmits (s : State) (r : WireReq) : Bool :=
  let g := requestSpan s r
  let lo := addrLocal r.addr + g.1
  let hi := lo + g.2 - 1
  let berth := match siteKind r.srcSite with
    | .berth b => some b
    | _ => none
  s.sec.breakwater.ingress.any (fun e =>
    e.srcPos.getLsbD r.srcPos &&
    (match berth with
     | some b => e.srcBerths.getLsbD b
     | none => false) &&
    decide (e.base ≤ lo) && decide (hi ≤ e.limit) &&
    (match placeOf s.ident.part lo with
     | .mirror off => (List.range g.2).all (fun i => mirrorAllowed s.sec.breakwater e.part (reqAccess r.kind) (off + i))
     | _ => true) &&
    (match r.kind with
     | .load => e.loads
     | .store => e.stores
     | .atomic => e.atomics))

/-- BAR2 reaches a place: the own reach of the function's partitions, with scratch judged by R211 (R489). -/
def bar2Reaches (s : State) (fn : Nat) (r : WireReq) : Bool :=
  let part := s.ident.part
  fnPresent s fn && addrPos r.addr == ownPos s && decide (r.kind ≠ .atomic) &&
  (match placeOf part (addrLocal r.addr) with
   | .dram b => (fnParts s fn).any (fun p => decide (berthPart s b = some p))
   | .tile b _ _ => (fnParts s fn).any (fun p => decide (berthPart s b = some p))
   | .counter b _ => (fnParts s fn).any (fun p => decide (berthPart s b = some p))
   | _ => false)

/-- The tracked request that an arriving request is. -/
def trackedOf (s : State) (r : WireReq) : Option OutReq :=
  if r.srcPos = ownPos s ∧ r.bar2 = none then s.reqs.out.find? (fun o => !o.held && wireTag o.req.tag == wireTag r.tag)
  else none

/-- The request waits in front of its target: a draining site (R343), a held tile (R144), a region on its way whose step
changes (R161), a region or a stack that is
not on (R157, R403), or for a segment that moves (R265), which only the requests that this module's sources sent before still
reach. -/
def waitsAtTarget (s : State) (r : WireReq) : Bool :=
  let loc := addrLocal r.addr
  placeWaits s loc || (sleeperAt s loc).isSome || ((trackedOf s r).isNone && placeMoves s loc) ||
  stepHolds s (wayDoms s r (ownPos s) (servingSite s loc))

/-- Two requests of one source endpoint to one destination endpoint of this module on one channel (R24). -/
def sameStream (s : State) (x r : WireReq) : Bool :=
  x.srcPos == r.srcPos && x.srcSite == r.srcSite && x.srcVtile == r.srcVtile && x.bar2 == r.bar2 && decide (x.ch = r.ch) &&
  servingSite s (addrLocal x.addr) == servingSite s (addrLocal r.addr) && addrTile s x.addr == addrTile s r.addr

/-- An earlier request of the same source endpoint to the same destination endpoint on the same channel has not been
performed yet: one that this module sent and that has not been served, or one that waits (R21, R24, R151). -/
def outOfOrder (s : State) (r : WireReq) : Bool :=
  (match trackedOf s r with
   | some o => (issuedBefore s o).any (fun x => !x.held && decide (x.served = none) && samePair s x o && decide (x.req.ch = r.ch))
   | none => false) ||
  (s.reqs.ingress.takeWhile (fun e => decide (e.2 ≠ r))).any (fun e => sameStream s e.2 r)

/-- The last output of a mesh router on the way of a request of this module, by a number: for a tile window the output of the
tile's router to its tile, for a counter that of the fabric attachment router to the dispatcher, for DRAM that of the source
berth to its near stack or to the fabric. A request to the Harbourmaster, or to DRAM from elsewhere, meets none here. -/
def outletOf (s : State) (r : WireReq) : Option Nat :=
  let loc := addrLocal r.addr
  match placeOf s.ident.part loc with
  | .tile b t _ => some (1024 * b + t)
  | .counter b _ => some (1024 * b + 255)
  | .dram _ =>
    (match siteKind r.srcSite with
     | .berth b =>
       if r.srcPos = ownPos s ∧ r.bar2 = none then
         some (1024 * b + if nearBerth (servingStack s loc) = b then 512 + servingStack s loc else 511)
       else none
     | _ => none)
  | _ => none

/-- A request that waits could go on: nothing at its target holds it, and it would overtake nothing. -/
def couldGo (s : State) (r : WireReq) : Bool := !waitsAtTarget s r && !outOfOrder s r

/-- A request of a priority, other than `r`, waits in the buffers of the same router output and could go on (R150). -/
def bufferWaits (s : State) (r : WireReq) (pri : Bool) : Bool :=
  (outletOf s r).isSome &&
  s.reqs.ingress.any (fun e => decide (e.2 ≠ r) && e.2.pri == pri && decide (outletOf s e.2 = outletOf s r) && couldGo s e.2)

/-- A router keeps a buffer for each input, channel and priority (R150): an earlier request of the same buffer, to the same
output, goes first. The input is told by the source's site. -/
def behindInBuffer (s : State) (r : WireReq) : Bool :=
  (outletOf s r).isSome &&
  (s.reqs.ingress.takeWhile (fun e => decide (e.2 ≠ r))).any (fun e =>
    decide (outletOf s e.2 = outletOf s r) && e.2.pri == r.pri && decide (e.2.ch = r.ch) && e.2.srcSite == r.srcSite &&
    e.2.srcPos == r.srcPos && couldGo s e.2)

/-- What a router output has sent of high priority in a row. -/
def highRunOf (s : State) (r : WireReq) : Nat :=
  match outletOf s r with
  | some k => tabGet 0 s.reqs.highRun k
  | none => 0

/-- At a router output a request lets another go first: one of low priority while one of high priority waits, one of high
priority when seven have gone by one of low priority, which then has its slot of the eight (R150). -/
def yieldsPri (s : State) (r : WireReq) : Bool :=
  behindInBuffer s r ||
  (if r.pri then bufferWaits s r false && decide (7 ≤ highRunOf s r) else bufferWaits s r true && decide (highRunOf s r < 7))

/-- The request comes to its stack over the electrical lanes of the near berth, not through the fabric port (R15). -/
def nearInput (s : State) (r : WireReq) : Bool :=
  r.srcPos == ownPos s && (match siteKind r.srcSite with
    | .berth b => decide (nearBerth (servingStack s (addrLocal r.addr)) = b)
    | _ => false)

/-- A request for a stack waits on its other input, and could go on (R16). -/
def inputWaits (s : State) (r : WireReq) : Bool :=
  s.reqs.ingress.any (fun e => e.1 == servingSite s (addrLocal r.addr) && nearInput s e.2 != nearInput s r && couldGo s e.2)

/-- The channel and row of a DRAM request in its stack. -/
def rowOf (s : State) (r : WireReq) : Nat × Nat := (physRow s (addrLocal r.addr)).2

/-- While requests wait on both inputs of a stack, its base die serves two rows of the near-lane input for every one of the
fabric port, and finishes a row before it goes to the next (R16). -/
def yieldsRow (s : State) (r : WireReq) : Bool :=
  match placeOf s.ident.part (addrLocal r.addr) with
  | .dram _ =>
    let k := getStack s (servingStack s (addrLocal r.addr))
    inputWaits s r && decide (k.lastRow ≠ some (rowOf s r)) && (nearInput s r == decide (2 ≤ k.nearRun))
  | _ => false

/-- The request lets another go first: at a router output (R150), or at the inputs of its stack (R16). -/
def yields (s : State) (r : WireReq) : Bool := yieldsPri s r || yieldsRow s r

/-- A router output has sent a request: it counts what it has sent of high priority in a row while something of low priority
has waited. -/
def countPri (s : State) (r : WireReq) : State :=
  match outletOf s r with
  | some k =>
    let n := if r.pri && bufferWaits s r false then highRunOf s r + 1 else 0
    { s with reqs := { s.reqs with highRun := tabSet 0 s.reqs.highRun k n } }
  | none => s

/-- A stack has served a row of one of its inputs: it counts the rows of the near-lane input in a row. -/
def countRow (s : State) (r : WireReq) : State :=
  match placeOf s.ident.part (addrLocal r.addr) with
  | .dram _ => updStack s (servingStack s (addrLocal r.addr)) (fun k =>
      if k.lastRow = some (rowOf s r) then k
      else
        { k with
          lastRow := some (rowOf s r)
          nearRun := if nearInput s r && inputWaits s r then k.nearRun + 1 else 0 })
  | _ => s

/-- A request goes on. -/
def countSlot (s : State) (r : WireReq) : State := countRow (countPri s r) r

/-- The request joins those that wait, and wakes the region or the stack it waits for. -/
def park (s : State) (r : WireReq) : State :=
  let loc := addrLocal r.addr
  let s1 := (sleeperAt s loc).toList.foldl wakeDomain s
  { s1 with reqs := { s1.reqs with ingress := addNew (servingSite s loc, r) s1.reqs.ingress } }
def unpark (s : State) (r : WireReq) : State :=
  { s with reqs := { s.reqs with ingress := s.reqs.ingress.filter (fun e => decide (e.2 ≠ r)) } }

/-- A tracked request has been served by its target (R24). -/
def markAnswered (s : State) (r : WireReq) : State :=
  match trackedOf s r with
  | some o =>
    { s with reqs := { s.reqs with
      out := mapIf (fun x => x.req.tag == o.req.tag) (fun x => { x with served := some s.reqs.serves }) s.reqs.out
      serves := s.reqs.serves + 1 } }
  | none => s

/-! ## Endpoints and headers (R319, R321, R322) -/

/-- An endpoint in the form the harbour uses: coordinates, or the identifier of the flat table that names it (R319, R320). -/
def endpoint (s : State) (pos site vtile : Nat) : Nat :=
  let c := s.sec.breakwater
  if c.fabAddrMode = 0 then coordEndpoint pos site vtile
  else flatEndpoint ((c.flat.find? (fun e => decide (e.2 = some (64 * pos + site)))).elim 0 (·.1)) vtile

/-- The codes of Table 10-5: KIND of a request, CH, and AOP by the order of Table 10-7. -/
def kindCode : ReqKind → Nat
  | .load => 0
  | .store => 1
  | .atomic => 2
def channelCode : Channel → Nat
  | .req => 0
  | .rsp => 1
  | .bulk => 2
  | .ctl => 3
def atomicCode : AtomicOp → Nat
  | .add => 0
  | .fadd => 1
  | .bfadd2 => 2
  | .min => 3
  | .max => 4
  | .swap => 5
  | .cas => 6
  | .fand => 7
  | .for => 8

/-- The 32-byte header of a request (Table 10-5). An access through BAR2 takes the Harbourmaster's endpoint for its source; a
request to another module names that module's site (R321). -/
def requestHeader (s : State) (dstSite : Nat) (r : WireReq) : Nat :=
  (if r.kind = .store then r.mask.toNat else 0) <<< 192 + r.addr <<< 145 + wireTag r.tag <<< 129 + r.gen.toNat <<< 121 +
  r.epoch.toNat <<< 113 + endpoint s r.srcPos r.srcSite r.srcVtile <<< 81 +
  endpoint s (addrPos r.addr) dstSite (addrTile s r.addr) <<< 49 +
  (if r.kind = .store then 64 else r.size) <<< 42 + (if r.kind = .atomic then atomicCode r.aop else 0) <<< 38 +
  kindCode r.kind <<< 35 + bit r.swell <<< 33 + bit r.pri <<< 32 + channelCode r.ch <<< 30

/-- The 32-byte header of a response, which travels on RSP (Table 10-5). Its ADDR is the request's, its EPOCH and SIZE are zero:
a DESIGN CHOICE (log entry 77). -/
def responseHeader (s : State) (r : WireReq) (x : WireResp) : Nat :=
  r.addr <<< 145 + wireTag x.tag <<< 129 + x.gen.toNat <<< 121 +
  endpoint s (addrPos r.addr) (servingSite s (addrLocal r.addr)) (addrTile s r.addr) <<< 81 +
  endpoint s r.srcPos r.srcSite r.srcVtile <<< 49 + 4 <<< 35 + bit x.echo <<< 34 + bit x.pri <<< 32 +
  channelCode .rsp <<< 30 + x.status <<< 22

/-! ## The target: service -/

/-- The threshold of Table 10-9, in flits, bytes or requests. -/
def swellThreshold : SwellQueue → Nat
  | .meshOutput => 8
  | .dieToDie => 16384
  | .fabricEgress => 8192
  | .stackScheduler => 32
  | .tileIngress => 32
  | .quayEgress => 65536
  | .quayIngress => 16384

/-- The swell mark of a request as it reaches its target: a router set it on a REQ or BULK request that joined a queue holding
more than its threshold, and none clears it (R330). -/
def swelled (r : WireReq) (o : ServeObs) : Bool :=
  (decide (r.ch = .req) || decide (r.ch = .bulk)) &&
  (r.swell || o.queues.any (fun q => decide (swellThreshold q.1 < q.2)))

/-- An answer leaves: by a link to another module. -/
def answerBy (r : WireReq) (s : State) (m : OutMsg) : State :=
  if r.srcPos = ownPos s then send s m else linkSend s (linkTo s (firstHop s r.srcPos)) m

/-- The answer goes back to the source, with the echo of the mark (R331) and the priority of the request (Table 05-4). It
wakes the lanes it travels on (R287). -/
def respond (s : State) (r : WireReq) (o : ServeObs) (st : Nat) (data : List Byte) : State :=
  let site := servingSite s (addrLocal r.addr)
  let s1 := if r.srcPos = ownPos s then wakeLanes s site r.srcSite else wakeLanes s site (quayTo s r.srcPos)
  answerBy r (markAnswered s1 r) (.response
    { tag := wireTag r.tag
      gen := r.gen
      status := st
      echo := swelled r o
      data := data
      dstPos := r.srcPos
      src := r.srcSite
      pri := r.pri })

/-- The bytes of the error value (R26). -/
def errorValue (r : WireReq) : List Byte := if r.kind = .store then [] else List.replicate r.size 0xFF#8

/-- The sector of its row of 1 KiB that a DRAM address lies in. -/
def rowSector (loc : Nat) : Nat := loc % 1024 / 64

/-- A corrected codeword of a request. -/
def correctedDram (s : State) (loc : Nat) (o : ServeObs) : State :=
  let p := physRow s loc
  correctChannel s p.1 p.2.1 (connectionOf (rowSector loc) o.symbol o.bit) p.2.2

/-- An uncorrectable codeword: the sector, in the buffer of its row, holds the error value and the poison code (R248,
R253). -/
def uncorrectableDram (s : State) (r : WireReq) : State :=
  let loc := addrLocal r.addr
  let p := physRow s loc
  raise (touchDram (setPoison (writeBytes s (loc / 64 * 64) (List.replicate 64 0xFF#8)) (loc / 64) true) loc true)
    { code := 0x0205
      site := stackSite p.1
      unit := p.2.1
      part := (sitePart s (stackSite p.1)).getD 0xF
      arg := r.addr }

/-- An uncorrectable word of a tile: its targeted self-test is ordered (R138). -/
def uncorrectableTile (s : State) (r : WireReq) (b t : Nat) : State :=
  let s1 := raise s
    { code := 0x0205
      site := b
      unit := t
      part := partField s b
      arg := r.addr }
  tileBoundary (queueTest s1 { el := .tile b t, code := 1, rank := 1 }) b t

/-- The request reads what it touches: every load and atomic, and a store that covers a unit only in part (R250). -/
def readsUnit (s : State) (r : WireReq) : Bool :=
  match r.kind, placeOf s.ident.part (addrLocal r.addr) with
  | .store, .dram _ => decide (r.mask ≠ BitVec.allOnes 64) && decide (r.mask ≠ 0)
  | .store, .tile _ _ _ => (List.range 8).any (fun i =>
      let g := fld r.mask.toNat (8 * i) 8
      g != 0 && g != 0xFF)
  | .store, _ => false
  | _, _ => true

/-- What the array shows when the request reads: the codeword is clean, corrected or uncorrectable. `true` means that it
cannot be read. -/
def readArray (s : State) (r : WireReq) (o : ServeObs) : State × Bool :=
  if o.wrong = 0 || !readsUnit s r then (s, false)
  else match placeOf s.ident.part (addrLocal r.addr) with
    | .dram _ => if o.wrong = 1 then (correctedDram s (addrLocal r.addr) o, false) else (uncorrectableDram s r, true)
    | .tile b t _ =>
      if o.wrong = 1 then
        (countEvents { s with mem := { s.mem with sramCorrections := tabUpd 0 s.mem.sramCorrections (tileKey b t) (· + 1) } }
          (regionDom b (regionOf t)) 3 1, false)
      else (uncorrectableTile s r b t, true)
    | _ => (s, false)

/-- A store by its mask meets poison: it writes only some bytes of a poisoned unit (R145, R253). -/
def maskPoison (s : State) (r : WireReq) : Bool :=
  let loc := addrLocal r.addr
  match placeOf s.ident.part loc with
  | .dram _ => sectorPoisoned s (loc / 64) && decide (r.mask ≠ BitVec.allOnes 64) && decide (r.mask ≠ 0)
  | .tile _ _ _ => (List.range 8).any (fun i =>
      let g := fld r.mask.toNat (8 * i) 8
      wordPoisoned s (loc / 8 + i) && g != 0 && g != 0xFF)
  | _ => false

/-- The status a request meets at its target, none when it is performed: the Breakwater at ingress (R340), the epoch
(R25), retirement (R342, R269, R146), scratch (R211), poison. -/
def targetStatus (s : State) (r : WireReq) : Option Nat :=
  let k := servingSite s (addrLocal r.addr)
  let poison := match r.kind with
    | .store => maskPoison s r
    | x => poisonMet s (reqAccess x) (addrLocal r.addr) r.size
  if r.srcPos ≠ ownPos s ∧ r.bar2 = none ∧ !ingressAdmits s r then some S_PROTECTION
  else if r.bar2 = none ∧ r.epoch ≠ (getSite s k).epoch then some S_STALE_ROLE
  else match accessStatus s (reqAccess r.kind) (addrLocal r.addr) with
    | some e => some e.1
    | none => if poison then some S_HW_ERROR else none

/-- The bytes a masked store writes. -/
def maskedBytes (r : WireReq) : List (Nat × Byte) :=
  (layAt (addrLocal r.addr) r.data).filter (fun e => r.mask.getLsbD (e.1 - addrLocal r.addr))

/-- A store is made visible (R328, R336, R504). -/
def performStore (s : State) (r : WireReq) : State :=
  let loc := addrLocal r.addr
  match placeOf s.ident.part loc, maskGroup r.mask with
  | .counter _ _, some g => storeCounters s (loc + g.1) (sliceBytes r.data g.1 g.2)
  | .mirror off, some g => mirrorWrite s (off + g.1) (sliceBytes r.data g.1 g.2)
  | .dram _, _ =>
    let t := touchDram (writeCells s (maskedBytes r)) loc true
    if r.mask = BitVec.allOnes 64 then setPoison t (loc / 64) false else t
  | .tile _ _ _, _ =>
    (List.range 8).foldl (fun t i =>
      if fld r.mask.toNat (8 * i) 8 = 0xFF then setPoisonWord t (loc / 8 + i) false else t) (writeCells s (maskedBytes r))
  | _, _ => s

/-- The old value of an atomic. -/
def atomicOld (s : State) (r : WireReq) : Nat := leNat (placeBytes s r.addr r.size)

/-- An atomic is performed (R325). -/
def performAtomic (s : State) (r : WireReq) : State :=
  let loc := addrLocal r.addr
  let v := atomicNew r.aop r.size (atomicOld s r) r.opP.toNat r.opQ.toNat
  match placeOf s.ident.part loc with
  | .counter b i => updCounter s b i (fun _ => BitVec.ofNat 64 v)
  | _ => touchDram (writeBytes s loc (bytesLE r.size v)) loc true

/-- A request is performed and answered. -/
def perform (s : State) (r : WireReq) (o : ServeObs) : State :=
  match r.kind with
  | .load => nextFresh (respond (touchDram s (addrLocal r.addr) false) r o S_OK (placeBytes s r.addr r.size))
  | .store => respond (performStore s r) r o S_OK []
  | .atomic => respond (performAtomic s r) r o S_OK (bytesLE r.size (atomicOld s r))

/-- A read of this module's own work that no tracked request stands for tells its command what it met: an uncorrectable word
makes it S_HW_ERROR (R138, R253). The rows of operators and Tugs do not show what the array does; such a read, as a LOAD row
with its command for its source, does (log entry 84). -/
def tellWork (s : State) (r : WireReq) (st : Nat) : State :=
  match trackedOf s r, r.srcCtx with
  | none, some id =>
    if r.srcPos = ownPos s ∧ r.bar2 = none then
      updCmd s id (fun c => if c.gen = r.gen ∧ c.began then
        c.note st (statusDetail s st (ownPos s) (servingSite s (addrLocal r.addr))) else c)
    else s
  | _, _ => s

/-- A request is refused or performed. One that meets poison in DRAM has taken its row buffer (R248). -/
def serveHere (s : State) (r : WireReq) (o : ServeObs) : State :=
  match targetStatus s r with
  | some st =>
    let k := servingSite s (addrLocal r.addr)
    let s1 := if st = S_STALE_ROLE then updSite s k (fun x => { x with stale := x.stale + 1 })
      else if st = S_HW_ERROR then touchDram s (addrLocal r.addr) false else s
    respond s1 r o st (errorValue r)
  | none =>
    let x := readArray s r o
    if x.2 then respond (tellWork x.1 r S_HW_ERROR) r o S_HW_ERROR (errorValue r) else perform x.1 r o

/-- An addition that reaches a counter of a berth in a partition reset (R335). -/
def dropsAddition (s : State) (r : WireReq) : Bool :=
  decide (r.kind = .atomic) && (match placeOf s.ident.part (addrLocal r.addr) with
    | .counter b _ => berthResetting s b
    | _ => false)

/-- An access through BAR2 that is refused: a read returns all ones, a write is dropped, and the access is counted
(R489). -/
def refuseBar2 (s : State) (fn : Nat) (r : WireReq) (o : ServeObs) : State :=
  let s1 := { s with io := { s.io with barRefused := tabUpd 0 s.io.barRefused fn (· + 1) } }
  if r.kind = .load then respond s1 r o S_OK (errorValue r) else s1

/-- A request arrives at its target on this module. A site that does not answer leaves it unanswered; one whose turn has not
come waits. -/
def arrive (s : State) (r : WireReq) (o : ServeObs) : State :=
  if addrPos r.addr ≠ ownPos s || !s.rst.ready || !admitted s r then s
  else if dropsAddition s r then { s with mem := { s.mem with droppedAdds := s.mem.droppedAdds + 1 } }
  else match accessStatus s (reqAccess r.kind) (addrLocal r.addr) with
    | some (0x31, _) => if r.bar2.isSome && decide (r.kind = .load) then respond s r o S_OK (errorValue r) else s
    | _ =>
      if waitsAtTarget s r || outOfOrder s r || yields s r then park s r
      else serveHere (countSlot (unpark s r) r) r o

/-- A request reaches the module on REQ, BULK or CTL, or through BAR2. -/
def serve (s : State) (r : WireReq) (o : ServeObs) : State :=
  match r.bar2 with
  | some fn => if s.rst.ready && !(bar2Reaches s fn r && admitted s r) then refuseBar2 s fn r o else arrive s r o
  | none => arrive s r o

/-- LOAD. -/
def execLoad (req : WireReq) (obs : ServeObs) (s : State) : Out :=
  .next (if req.kind = .load then serve s req obs else s)

/-- STORE. -/
def execStore (req : WireReq) (obs : ServeObs) (s : State) : Out :=
  .next (if req.kind = .store then serve s req obs else s)

/-- ATOMIC. -/
def execAtomic (req : WireReq) (obs : ServeObs) (s : State) : Out :=
  .next (if req.kind = .atomic then serve s req obs else s)

/-! ## Responses (R310, R331, R332, R339, R340) -/

/-- The window of a flow after an acknowledgement. -/
def Flow.acknowledge (f : Flow) (tag : Nat) (echo : Bool) (others : List Nat) (t : Nat) : Flow :=
  let old := f.oldOutstanding.filter (· != tag)
  let g := { f with lastBusy := t, oldOutstanding := old }
  if echo then
    if f.oldOutstanding.contains tag then g
    else { g with window := max (f.window / 2) 64, acked := 0, oldOutstanding := others }
  else if f.window ≤ f.acked + 64 then { g with window := min (f.window + 4096) 524288, acked := 0 }
  else { g with acked := f.acked + 64 }

/-- The flow of an answered request moves on. -/
def settleFlow (s : State) (o : OutReq) (echo : Bool) : State :=
  match flowOf s o.req with
  | some _ =>
    let f : FlowId := ⟨(reqCtx o.req).getD 0, decide (o.req.ch = .bulk), o.dstPos, o.dstSite⟩
    let others := (s.reqs.out.filter (inFlow f)).map (fun x => x.req.tag)
    setFlow s f ((getFlow s f).acknowledge o.req.tag echo others (now s))
  | none => s

/-- The maximum of Table 01-6 for the path of a request, or of Table 11-5 on a relay route. For a store to another module the
figure is that of its one way to acceptance, with which the model compares the acknowledgement; an atomic there takes the
figure of a load. The tables give no figure for a path to a tile window or a counter of another berth, nor for one from or to
a quay or the Harbourmaster: the model takes that of a load from a far stack (PRESUMED, log entry 83). -/
def latencyMax (s : State) (o : OutReq) : Nat :=
  if o.dstPos ≠ ownPos s then
    (if o.req.kind = .store then (if firstHop s o.dstPos = o.dstPos then 726 else 1370)
     else if firstHop s o.dstPos = o.dstPos then 1500 else 2788)
  else match siteKind o.req.srcSite, siteKind o.dstSite with
    | .berth b, .stack n => if nearBerth n = b then 138 else 212
    | .berth b, .berth b' =>
      if b = b' then (match placeOf s.ident.part (addrLocal o.req.addr) with
        | .counter _ _ => 30
        | _ => 43) else 212
    | _, _ => 212

/-- The command of a request loses guarantee 4. -/
def requestLate (s : State) (o : OutReq) : State :=
  match o.req.srcCtx.bind (findCmd s) with
  | some c => latencyBroken s c
  | none => s

/-- The command of an answered request takes what the answer says, and the Tide of the answer (R192, R193). -/
def answered (s : State) (o : OutReq) (st : Nat) : State :=
  if st = S_PROTECTION then
    if o.dstPos = ownPos s then noteOut s o S_PROTECTION 0
    else
      noteOut (raiseAt s
        { code := 0x0305
          site := o.dstSite
          pos := o.dstPos
          arg := endpoint s o.req.srcPos o.req.srcSite o.req.srcVtile }) o S_HW_ERROR
        (siteDetail s o.dstPos o.dstSite)
  else if st ≠ S_OK then noteOut s o st (statusDetail s st o.dstPos o.dstSite)
  else if o.delayed && decide (o.issued + latencyMax s o < now s) then
    noteOut (requestLate s o) o S_DEGRADED 4
  else noteOut s o S_OK 0

/-- A response is dropped and counted (R339), for its context as well when it is of an old generation (R201). -/
def dropResponse (s : State) (ctx : Option Nat) : State :=
  let s1 := { s with reqs := { s.reqs with dropped := s.reqs.dropped + 1 } }
  match ctx with
  | some c => updCtx s1 c (fun x => { x with droppedOld := x.droppedOld + 1 })
  | none => s1

/-- The request that a response answers: its tag, in the generation the request was issued in. -/
def answersReq (r : WireResp) (o : OutReq) : Bool := !o.held && wireTag o.req.tag == r.tag && o.req.gen == r.gen

/-- An earlier answer from the same endpoint to the same endpoint is still on its way (R24, R151): that of an earlier
request of the same channel, or one that the target gave earlier. -/
def answerEarly (s : State) (o : OutReq) : Bool :=
  s.reqs.out.any (fun x => !x.held && x.req.tag != o.req.tag && samePair s x o &&
    (((issuedBefore s o).contains x && decide (x.req.ch = o.req.ch)) ||
      (match x.served, o.served with
       | some i, some j => decide (i < j)
       | _, _ => false)))

/-- A request has left its flow without an acknowledgement (R332). -/
def leaveFlow (s : State) (o : OutReq) : State :=
  match flowOf s o.req with
  | some _ =>
    let f : FlowId := ⟨(reqCtx o.req).getD 0, decide (o.req.ch = .bulk), o.dstPos, o.dstSite⟩
    let x := getFlow s f
    setFlow s f { x with lastBusy := now s, oldOutstanding := x.oldOutstanding.filter (· != o.req.tag) }
  | none => s

/-- The bytes that a Tug's read brought go to its berth, from where they are written (R334). A read that its source ended, or
whose answer is short, brings 0xFF (R26, R337). -/
def readBack (s : State) (o : OutReq) (data : List Byte) : State :=
  match o.req.srcCtx, o.chunk, o.off with
  | some id, some k, some p =>
    updCmd s id (fun c => { c with tug := { c.tug with
      data := c.tug.data ++ (List.range o.req.size).map (fun i => (k, p + i, data.getD i 0xFF#8)) } })
  | _, _, _ => s

/-- A TAG may be given out again, or may not, while an answer to it may still come (R339). -/
def unspend (s : State) (t : Nat) : State := { s with reqs := { s.reqs with spent := s.reqs.spent.filter (· != t) } }
def spend (s : State) (o : OutReq) : State :=
  if o.held then s else { s with reqs := { s.reqs with spent := addNew (wireTag o.req.tag) s.reqs.spent } }

/-- A response in its turn: matched by its tag and its generation. One that matches nothing, or whose context has gone on to
a later generation, is dropped and counted. -/
def takeResponse (s : State) (r : WireResp) : State :=
  match s.reqs.out.find? (answersReq r) with
  | none =>
    dropResponse (unspend s r.tag)
      ((s.reqs.out.find? (fun o => !o.held && wireTag o.req.tag == r.tag)).bind (fun o => reqCtx o.req))
  | some o =>
    let s1 := readBack (untrack s o.req.tag) o r.data
    match reqCtx o.req with
    | some c =>
      if r.gen ≠ (getCtx s c).gen then dropResponse (leaveFlow s1 o) (some c)
      else answered (settleFlow s1 o r.echo) o r.status
    | none => answered s1 o r.status

/-- A response whose turn has not come. -/
def waitsTurn (s : State) (r : WireResp) : Bool :=
  match s.reqs.out.find? (answersReq r) with
  | some o => answerEarly s o
  | none => false

/-- The responses that waited and whose turn has come are taken, one after another. -/
def settleEarly : Nat → State → State
  | 0, s => s
  | n + 1, s =>
    match s.reqs.early.find? (fun r => !waitsTurn s r) with
    | some r => settleEarly n (takeResponse { s with reqs := { s.reqs with early := s.reqs.early.erase r } } r)
    | none => s

/-- RESPONSE: the ejection logic of the source restores the order of the answers (R151). -/
def response (s : State) (r : WireResp) : State :=
  if waitsTurn s r then { s with reqs := { s.reqs with early := s.reqs.early ++ [r] } }
  else settleEarly s.reqs.early.length (takeResponse s r)

def execResponse (resp : WireResp) (s : State) : Out := .next (response s resp)

/-- FLOW_IDLE_EXPIRY: a flow with nothing outstanding for 50 µs is forgotten. -/
def execFlowIdleExpiry (flow : FlowId) (s : State) : Out :=
  .next (if flowLoad s flow = 0 ∧ (getFlow s flow).lastBusy + 50000 ≤ now s then
      { s with reqs := { s.reqs with flows := s.reqs.flows.filter (fun e => decide (e.1 ≠ flow)) } }
    else s)

/-! ## Dead targets (R337, R338) -/

/-- A site of another module is probed: the probe is pending for the 20 µs in which it may be answered. -/
def probeAway (s : State) (pos site : Nat) : State :=
  send { s with harbour := { s.harbour with probes := tabSet none s.harbour.probes (pos * 64 + site) (some (now s)) } }
    (.probe pos site)

/-- A site is probed, once while a probe of it is pending. -/
def probe (s : State) (pos site : Nat) : State :=
  if pos ≠ ownPos s then
    (match tabGet none s.harbour.probes (pos * 64 + site) with
     | some t => if now s < t + 20000 then s else probeAway s pos site
     | none => probeAway s pos site)
  else if (getSite s site).probing || (getSite s site).dead then s
  else send (updSite s site (fun x => { x with probing := true })) (.probe pos site)

/-- The bound of a request. -/
def deadBound (s : State) (o : OutReq) : Nat := if o.dstPos = ownPos s then 250000 else 2000000

/-- The DETAIL of a request that its source ends. On a relay route that is being given up for another, a link of the route has
failed, and it names the relay's ingress quay (R365). -/
def endDetail (s : State) (o : OutReq) : Nat :=
  let r := firstHop s o.dstPos
  if o.dstPos ≠ ownPos s ∧ r ≠ o.dstPos ∧ (getMember s o.dstPos).dead = false ∧
      s.harbour.drains.any (fun d => ((d.1 == ownPos s && d.2.1 == o.dstPos) || (d.1 == o.dstPos && d.2.1 == ownPos s)) &&
        decide (d.2.2 ≠ .direct)) = true then
    relayDetail s r
  else siteDetail s o.dstPos o.dstSite

/-- A request is ended by its source: its command takes S_TARGET_DEAD. -/
def endRequest (s : State) (o : OutReq) : State :=
  let s0 := leaveFlow (readBack (spend (untrack s o.req.tag) o) o []) o
  let s1 := noteOut s0 o S_TARGET_DEAD (endDetail s o)
  settleEarly s1.reqs.early.length s1

/-- Fault event 0x0307 of a request that its bound ended. -/
def boundEvent (o : OutReq) : FaultEv :=
  { code := 0x0307
    site := o.dstSite
    pos := o.dstPos
    unit := (reqCtx o.req).getD 0xFFFF
    arg := o.req.addr }

/-- REQUEST_DEAD_BOUND: the request ends with the error value, fault event 0x0307 is raised and the site is probed. -/
def execRequestDeadBound (tag : Nat) (s : State) : Out :=
  .next (match s.reqs.out.find? (fun o => o.req.tag == tag) with
    | none => s
    | some o =>
      if now s < o.issued + deadBound s o then s
      else probe (raiseAt (endRequest s o) (boundEvent o)) o.dstPos o.dstSite)

/-- Fault event 0x0301 about a site of this module. -/
def siteEvent (s : State) (site outcome : Nat) : State :=
  raise s
    { code := 0x0301
      outcome := outcome
      site := site
      part := (sitePart s site).getD 0xF
      arg := (getSite s site).epoch.toNat }

/-- PROBE_ANSWER: the site stays live, and the event is counted against it. -/
def execProbeAnswer (site : Nat) (s : State) : Out :=
  guarded (hasSite s site)
    (if (getSite s site).probing then
      siteEvent (countTransient (updSite s site (fun x => { x with probing := false })) site) site 1
    else s)

/-- PROBE_TIMEOUT: the site is declared dead, and the rest of the harbour is told (R360). -/
def probeTimeout (s : State) (site : Nat) : State :=
  if !(getSite s site).probing then s
  else
    let s1 := siteEvent (updSite s site (fun x => { x with probing := false, dead := true })) site 0
    let s2 := send s1 (.dead (ownPos s) (some site))
    match siteKind site with
    | .berth b => if (getBerth s2 b).hold then s2 else resetBerthRung (takeRung s2 3 ((berthPart s2 b).getD (8 + b)) b b) b 2
    | _ => s2

def execProbeTimeout (site : Nat) (s : State) : Out := guarded (hasSite s site) (probeTimeout s site)

/-- EPOCH_TABLE_UPDATE: the epoch table takes the epoch. An own site takes it from the master (R360); a site of another
module whose epoch has changed is live again (R338; log entry 30), and its PART, which the master passes with the epochs, is
learned (R531). -/
def epochUpdate (s : State) (pos site : Nat) (e : EpochSeen) : State :=
  let epoch := e.epoch
  let old := tableEpoch s pos site
  let s0 := match e.part with
    | some p => if pos = ownPos s then s else updMember s pos (fun m => { m with part := p })
    | none => s
  let s1 := { s0 with harbour := { s0.harbour with epochs := tabSet 0 s0.harbour.epochs (epochKey s pos site) epoch } }
  if pos = ownPos s then roleReply (updSite s1 site (fun x => { x with epoch := epoch })) site
  else if epoch = old then s1
  else updMember { s1 with harbour := { s1.harbour with
      deadSites := tabSet false s1.harbour.deadSites (pos * 64 + site) false } } pos (fun m => { m with dead := false })

def execEpochTableUpdate (pos site : Nat) (epoch : EpochSeen) (s : State) : Out := .next (epochUpdate s pos site epoch)

end Sys2Proof.Machine
end

