-- ==== Sys2Proof/Machine/Fabric.lean ====
section
/-! DEFINITION. The photonic fabric and the near links (spec/09_photonic_fabric.md): striped frames, lane identity, ring
locks, retraining, Lighthouse switch-overs, lane monitors, bundles. -/

namespace Sys2Proof.Machine

/-! ## Delays that R310 reports -/

/-- An outstanding request, or its response, passes between two sites of the module. One to another module passes between its
source and the quay by which it leaves. A request that its source holds is on no path yet. -/
def between (s : State) (a b : Nat) (o : OutReq) : Bool :=
  let y := wayTo s o
  !o.held && ((o.req.srcSite == a && y == b) || (o.req.srcSite == b && y == a))

/-- Its path is the fabric pair of the two sites (R15). -/
def usesPair (s : State) (a b : Nat) (o : OutReq) : Bool := (fabricPair a b).isSome && between s a b o

/-- The requests that `p` picks are delayed by a cause of R310. -/
def delayed (s : State) (p : OutReq → Bool) : State :=
  { s with reqs := { s.reqs with out := mapIf p (fun o => { o with delayed := true }) s.reqs.out } }

/-- Outstanding requests that a pause of a fabric pair delays (R310), and those that one of a near link delays. -/
def delayPair (s : State) (a b : Nat) : State := delayed s (usesPair s a b)
def delayNear (s : State) (n : Nat) : State := delayed s (between s (nearBerth n) (stackSite n))

/-- Outstanding requests that a pause of a site's fabric egress delays: those it sends, and those whose answers it sends or
lets in (R299, R310). -/
def delaySite (s : State) (k : Nat) : State :=
  delayed s (fun o => !o.held && (fabricPair o.req.srcSite (wayTo s o)).isSome && (o.req.srcSite == k || wayTo s o == k))

/-- Two sites of the module form a pair, whose base fabric boot has released (R27). -/
def hasPair (s : State) (src dst : Nat) : Bool := hasSite s src && hasSite s dst && src != dst
def pairWorks (s : State) (src dst : Nat) : Bool := released s 5 && !(getPair s src dst).lost

/-! ## Lane frames and frame bodies (R283, R284, Table 09-2) -/

/-- The bits that a lane frame carries of a body. -/
def laneBits (l : BitVec 112) : Nat := l.toNat / 4

/-- The body of 16 lane frames: lane frame j carries bits [110j + 109:110j]. -/
def bodyOf (lanes : List (BitVec 112)) : Nat :=
  sumNat (lanes.zipIdx.map (fun e => laneBits e.1 <<< (110 * e.2)))

/-- A lane frame: its sync header, 0b01 for 0 and 0b10 for 1, and 110 bits of a body. -/
def laneFrame (header : Bool) (body j : Nat) : BitVec 112 :=
  BitVec.ofNat 112 (fld body (110 * j) 110 <<< 2 + (if header then 2 else 1))

/-- The fields of a body. -/
def parseFrame (b : Nat) : FabricFrame :=
  { crc := BitVec.ofNat 64 (fld b 1696 64)
    payload := BitVec.ofNat 1568 (fld b 128 1568)
    ackSeq := BitVec.ofNat 32 (fld b 96 32)
    seq := BitVec.ofNat 32 (fld b 64 32)
    evt := fld b 53 3
    evtPlane := fld b 48 5
    first := BitVec.ofNat 8 (fld b 40 8)
    nak := b.testBit 39
    idreq := b.testBit 38
    idle := b.testBit 37
    stripe := b.testBit 36
    credits := BitVec.ofNat 32 (fld b 0 32) }

/-- The body bits [1695:0] of a frame. -/
def frameBits (f : FabricFrame) : Nat :=
  f.payload.toNat <<< 128 + f.ackSeq.toNat <<< 96 + f.seq.toNat <<< 64 + (f.evt % 8) <<< 53 + (f.evtPlane % 32) <<< 48 +
  f.first.toNat <<< 40 + bit f.nak <<< 39 + bit f.idreq <<< 38 + bit f.idle <<< 37 + bit f.stripe <<< 36 + f.credits.toNat

/-- The CRC of a body in a pair direction, and the body it closes. -/
def bodyCrc (src dst b : Nat) : Nat := crc64 ((src % 64) <<< 8 + dst % 64) 1696 (b % 2 ^ 1696)
def frameBody (src dst : Nat) (f : FabricFrame) : Nat := frameBits f + bodyCrc src dst (frameBits f) <<< 1696

/-- A body's CRC is right for the pair direction. -/
def bodyGood (src dst b : Nat) : Bool := b / 2 ^ 1696 == bodyCrc src dst b

/-- The active lane that carries the lane frame `j` after the next one: lane frame n travels on active lane n mod L. -/
def laneOf (p : PairDir) (j : Nat) : Nat := p.stripe.getD ((p.laneNo + j) % p.stripe.length) 0

/-! ## Marker intervals and identity words (R293, Table 09-4) -/

/-- The lane frames that both ends of a lane have counted since training: one in 1.75 ns. -/
def laneCount (s : State) (p : PairDir) : Nat := (now s - p.trained.getD s.rst.trained) * 4 / 7

/-- Ns of a marker interval of 16 384 lane frames. -/
def markerNs : Nat := 28672

/-- The Tide at which the marker interval in progress ends. -/
def intervalEnd (s : State) (p : PairDir) : Nat :=
  let t := p.trained.getD s.rst.trained
  t + ((now s - t) / markerNs + 1) * markerNs

/-- The identity word of a lane, on line λ = (dst − src) mod 64 (R281). -/
def idWord (src dst plane : Nat) : Nat :=
  let w := (src % 64) <<< 24 + (dst % 64) <<< 16 + (plane % 32) <<< 8 + (dst + 64 - src) % 64
  crc16 48 w <<< 48 + w

/-- The sync header that a lane sends in lane frame `count`: bit i of its identity word in frame i of 0 to 63 of a marker
interval, otherwise 0b01. -/
def syncHeader (src dst plane count : Nat) : Bool :=
  decide (count % 16384 < 64) && (idWord src dst plane).testBit (count % 16384)

/-! ## Rings (R289, R290) -/

/-- A ring relocks from the starting code that its table gives for the temperature estimate (R289). -/
def startRing (s : State) (src dst : Nat) (rx : Bool) (plane : Nat) : Ring :=
  let k := if rx then dst else src
  { state := .relocking
    code := Config.ringCode (bit rx * 2 ^ 18 + src * 2 ^ 11 + dst * 32 + plane) (getPort s k).ringTemp (siteTemp s k) }

/-- Rings of a lane begin to relock. -/
def relockRing (s : State) (src dst : Nat) (rx : Bool) (plane : Nat) : State :=
  updPair s src dst (fun p => p.setRing rx plane (startRing s src dst rx plane))

/-- The lines that carry light where a ring looks: all 64 at a modulator, at a receiver those of the sites whose light
reaches its port. -/
def litLines (s : State) (dst : Nat) (rx : Bool) : List Nat :=
  (List.range 64).filter (fun l => !rx || (let k := (dst + 64 - l) % 64
    l != 0 && hasSite s k && !(getPort s k).paused && !(getSite s k).fabricLost))

/-- The line that a ring locks when it starts `offset` GHz above line `own`: the one it captures within 40 GHz of the starting
point, or the first that its outward sweep finds. Lines lie 100 GHz apart, so both are the nearest line with light. -/
def lockLine (lines : List Nat) (own : Nat) (offset : Int) : Option Nat :=
  let gap (l : Nat) : Nat := ((100 * (l : Int)) - (100 * (own : Int) + offset)).natAbs
  lines.foldl (fun b l => match b with
    | none => some l
    | some m => if gap l < gap m then some l else some m) none

/-- RING_LOCK: a ring that relocks, and has light, locks the line it finds. -/
def ringLock (s : State) (src dst plane : Nat) (rx : Bool) (offset : Int) : State :=
  let p := getPair s src dst
  let own := (dst + 64 - src) % 64
  if (p.ring rx plane).state = .relocking ∧ p.darkSince = none then
    match lockLine (litLines s dst rx) own offset with
    | some l => updPair s src dst (fun p => p.setRing rx plane
        { state := .locked
          line := if l = own then none else some l
          code := (p.ring rx plane).code })
    | none => s
  else s

def execRingLock (src dst : Nat) (ring : RingSeen) (s : State) : Out :=
  guarded (hasPair s src dst && decide (ring.plane < 18)) (ringLock s src dst ring.plane ring.rx ring.offset)

/-- Every ring of some lanes freezes its last code, and frozen rings hold their lines again or relock (R290). -/
def PairDir.eachRing (p : PairDir) (f : Ring → Ring) : PairDir :=
  { p with
    rings := tabUpdAll {} p.rings p.stripe (fun _ r => f r)
    modRings := tabUpdAll {} p.modRings p.stripe (fun _ r => f r) }

/-- RING_DARK_EXPIRY: rings without light for 100 µs will relock from their starting points, once light returns. -/
def ringDarkExpiry (s : State) (src dst : Nat) : State :=
  match (getPair s src dst).darkSince with
  | some t =>
    if t + 100000 ≤ now s then
      (List.range 18).foldl (fun u x => [true, false].foldl (fun v rx =>
        if ((getPair v src dst).ring rx x).state = .frozen then relockRing v src dst rx x else v) u) s
    else s
  | none => s

def execRingDarkExpiry (src dst : Nat) (s : State) : Out := guarded (hasPair s src dst) (ringDarkExpiry s src dst)

/-! ## Retraining and failed frames (R285, R294, R298) -/

/-- Retraining of a pair direction begins (R298): every lane relocks, and its packets wait. -/
def beginRetraining (s : State) (src dst : Nat) : State :=
  let s1 := updPair s src dst (fun p =>
    { p with
      retraining := true
      deskewed := false
      retrains := p.retrains + 1
      fails := 0
      idreq := false })
  delayPair ((List.range 18).foldl (fun t x =>
    if (getPair s src dst).retired.contains x then t
    else relockRing (relockRing t src dst true x) src dst false x) s1) src dst

/-- The sender puts a frame on the lanes: it joins the replay buffer until it is acknowledged (R285). -/
def PairDir.put (p : PairDir) (seq : W32) (body : Option Nat) : PairDir :=
  { p with
    sending := seq + 1
    txSeq := if (seq + 1 - p.txSeq).toNat < 2 ^ 31 then seq + 1 else p.txSeq
    laneNo := p.laneNo + 16
    replay := if (seq - p.txAcked).toNat - 1 < 128 then
        p.replay.filter (fun e => decide (e.1 ≠ seq)) ++
          [(seq, match body with
            | some b => some b
            | none => (p.replay.find? (fun e => decide (e.1 = seq))).bind (·.2))]
      else p.replay }

/-- The sender has room for a frame in its replay buffer of 128 frames. -/
def PairDir.hasRoom (p : PairDir) (seq : W32) : Bool := decide ((seq - p.txAcked).toNat - 1 < 128) || decide (seq = p.txAcked)

/-- A frame fails its CRC. Only failures of the frame expected next count: after 4 in a row an identity frame is asked for,
after 16 the pair direction is retrained (R285, R294, R298). -/
def frameFailed (s : State) (src dst : Nat) : State :=
  let p := getPair s src dst
  let n := if p.sending = p.rxSeq then p.fails + 1 else p.fails
  let s1 := delayPair (updPair s src dst (fun p =>
    { p.put p.sending none with nak := true, fails := n, idreq := p.idreq || (decide (p.fails < 4) && decide (4 ≤ n)) })) src dst
  if 16 ≤ n then beginRetraining s1 src dst else s1

/-! ## The lane set (R282, R284, R295, R296) -/

/-- The planes of a stripe in ascending order with one of them replaced by the lowest free spare, or left out. -/
def PairDir.substitute (p : PairDir) (plane : Nat) : PairDir × Option Nat :=
  let rest := p.stripe.filter (· != plane)
  match p.spares.filter (fun x => p.laneLocked x) with
  | sp :: _ => ({ p with stripe := insertNat sp rest, spares := p.spares.filter (· != sp) }, some sp)
  | [] => ({ p with stripe := rest }, none)

/-- A lane leaves the stripe, and keeps its claim to its place. -/
def PairDir.remove (p : PairDir) (plane : Nat) : PairDir :=
  let r := p.substitute plane
  { r.1 with out := p.out.filter (fun o => o.1 != plane) ++ [(plane, r.2)] }

/-- The planes that took a lane's place one after the other: the spare that took it, the spare that took that one's place in
turn, and so on. -/
def PairDir.takers (p : PairDir) : Nat → Nat → List Nat
  | 0, _ => []
  | k + 1, x => match (p.out.find? (fun o => o.1 == x)).bind (·.2) with
    | some y => if y = x then [] else y :: p.takers k y
    | none => []

/-- A plane holds the place of a lane that is out of the stripe. -/
def PairDir.isHeld (p : PairDir) (plane : Nat) : Bool := p.out.any (fun o => o.1 == plane && o.2.isSome && o.2 != some plane)

/-- A lane returns to its place. The spare that has it sleeps again, and spares that lost it in between return to the spares when
they come back; a spare whose place has been taken back returns to the spares itself. -/
def PairDir.restore (p : PairDir) (plane : Nat) : PairDir :=
  let l := p.takers 18 plane
  let own (o : Nat × Option Nat) : Nat × Option Nat := if l.contains o.1 then (o.1, some o.1) else o
  match p.out.find? (fun o => o.1 == plane) with
  | none => p
  | some o =>
    let q := { p with out := (p.out.filter (fun (x : Nat × Option Nat) => x.1 != plane)).map own }
    if o.2 = some plane then { q with spares := insertNat plane p.spares }
    else match l.filter (fun x => p.stripe.contains x) with
      | sp :: _ => { q with stripe := insertNat plane (p.stripe.filter (· != sp)), spares := insertNat sp p.spares }
      | [] => { q with stripe := insertNat plane p.stripe }

/-- A lane gives up its claim to a place and to the places it took: who took its place has them. -/
def PairDir.forget (p : PairDir) (plane : Nat) (next : Option Nat) : PairDir :=
  { p with
    trimming := if p.trimming = some plane then none else p.trimming
    trimTodo := p.trimTodo.filter (· != plane)
    out := (p.out.filter (fun o => o.1 != plane)).map
      (fun (o : Nat × Option Nat) => if o.2 = some plane then (o.1, next) else o) }

/-- The plane that took a lane's place. -/
def PairDir.taker (p : PairDir) (plane : Nat) : Option Nat := (p.takers 1 plane).head?

/-- A lane is out of the stripe for good; a spare keeps its place, or takes it (R296). -/
def PairDir.drop (p : PairDir) (plane : Nat) : PairDir :=
  let r := p.substitute plane
  let q := if p.stripe.contains plane then r.1.forget plane r.2 else p.forget plane (p.taker plane)
  { q with spares := q.spares.filter (· != plane) }

/-- A pair direction below its full width raises fault event 0x0103; one without a lane loses its pair (R309,
Table 09-7). -/
def settleWidth (s : State) (src dst before : Nat) : State :=
  let n := (getPair s src dst).stripe.length
  if n = 0 then pairLoss s src dst
  else if n < before ∧ n < 16 then
    raise s
      { code := 0x0103
        site := src
        unit := dst
        arg := n }
  else s

/-- Every pair direction of the module has lost a plane: it is neither in the stripe nor a spare. -/
def planeOut (s : State) (plane : Nat) : Bool :=
  (sitesOf s).all (fun k => (othersOf s k).all (fun o =>
    let p := getPair s k o
    p.lost || !(p.stripe.contains plane || p.spares.contains plane)))

/-- A whole plane fails when the last pair direction loses it: one event names the plane, and no site (Table 09-7; its fields
are the model's DESIGN CHOICE, log entry 90). -/
def settlePlane (before s : State) (plane : Nat) : State :=
  if plane < 18 && planeOut s plane && !planeOut before plane then
    raise s
      { code := 0x0102
        outcome := 2
        unit := plane
        arg := ((sitesOf s).flatMap (fun k => (egress s k).map (fun p => p.stripe.length))).foldl min 18 }
  else s

/-- A lane leaves the stripe behind the lowest free spare; one that leaves for its change of R292 changes at once, and is to
return. -/
def takeOut (s : State) (src dst plane : Nat) : State :=
  updPair s src dst (fun p =>
    let q := p.remove plane
    if p.trimming = some plane then
      { q.setLanes (getPort s src).band [plane] with change := addNew (2, plane) q.change }
    else q)

/-- The lane set of a pair direction changes from a frame marked STRIPE, by its EVT, at both ends (R284). -/
def laneEvent (s : State) (src dst evt plane : Nat) : State :=
  let p := getPair s src dst
  let s1 := updPair s src dst (fun p => { p with change := p.change.filter (fun e => decide (e ≠ (evt, plane))) })
  match evt with
  | 1 => if p.stripe.contains plane then
      settlePlane s (settleWidth (takeOut s1 src dst plane) src dst p.stripe.length) plane else s1
  | 2 => updPair s1 src dst (fun p =>
      { p.restore plane with trimming := if p.trimming = some plane then none else p.trimming })
  | 3 => settlePlane s (settleWidth (updPair s1 src dst (fun p => p.drop plane)) src dst p.stripe.length) plane
  | _ => s1

/-- The sender of a pair direction is asked for a lane event. The modulator ring of a lane whose receiver ring relocks
relocks as well (R295). -/
def askEvent (s : State) (src dst evt plane : Nat) : State :=
  let s1 := updPair s src dst (fun p =>
    { p with evt := p.evt.filter (fun e => decide (e ≠ (evt, plane))), change := addNew (evt, plane) p.change })
  if evt = 1 ∧ ((getPair s src dst).ring true plane).state = .relocking then relockRing s1 src dst false plane else s1

/-! ## Lane monitors (R308) -/

/-- A lane of a pair direction is in an identity mismatch: it relocks, or its removal is under way (R295, R297). -/
def PairDir.mismatching (p : PairDir) : Bool :=
  let own (x : Nat) : Bool := !p.testing.contains x && p.trimming != some x
  p.out.any (fun o => own o.1) || (p.evt ++ p.change).any (fun e => e.1 == 1 && own e.2)

/-- FABRIC_LANE_BER_EXCEEDED: the lane is replaced through EVT = 1 and runs its margin test. While a higher event of R297 is in
progress it waits, to be examined again. -/
def fabricLaneBer (s : State) (src dst plane : Nat) : State :=
  let p := getPair s src dst
  if !pairWorks s src dst || !p.stripe.contains plane || p.testing.contains plane then s
  else if p.retraining || (getPort s src).paused || (getPort s dst).paused || p.mismatching then
    updPair s src dst (fun p => { p with again := insertNat plane p.again })
  else
    let spare := (p.substitute plane).2.isSome
    delayPair (raise (updPair s src dst (fun p =>
        { p with evt := addNew (1, plane) p.evt, testing := insertNat plane p.testing }))
      { code := 0x0102
        outcome := if spare then 2 else 0
        site := src
        unit := plane
        arg := p.stripe.length - bit (!spare) }) src dst

def execFabricLaneBerExceeded (src dst plane : Nat) (s : State) : Out :=
  guarded (hasPair s src dst && decide (plane < 18)) (fabricLaneBer s src dst plane)

/-- A higher event of a pair direction has ended: what fell while it was in progress is examined again (R297). -/
def examineAgain (s : State) (src dst : Nat) : State :=
  let l := (getPair s src dst).again
  l.foldl (fun t x => fabricLaneBer t src dst x) (updPair s src dst (fun p => { p with again := [] }))

/-! ## Flow control (R286) -/

/-- The egress cap of a site, and its ingress cap, in bytes of payload in 1 µs (Table 09-1). -/
def portCap (k : Nat) : Nat :=
  match siteKind k with
  | .stack _ => 1200000
  | .berth _ => 2400000
  | .quay _ => 2400000
  | _ => 112000

/-- Frames of the last 1 µs, and whether one more stays within a cap. -/
def lastMicro (s : State) (l : List Nat) : List Nat := within 1000 (now s) l
def fitsCap (s : State) (k : Nat) (l : List Nat) : Bool := decide (((lastMicro s l).length + 1) * 196 ≤ portCap k)

/-- What a port has sent in the last 1 µs, and whether one more frame to a destination stays within the 7 GB/s of each lane of
the pair direction, 112 GB/s at full width (R34, R284). -/
def sentMicro (s : State) (l : List (Nat × Nat)) : List (Nat × Nat) := l.filter (fun e => decide (now s < e.1 + 1000))
def fitsPair (s : State) (src dst : Nat) : Bool :=
  decide ((((sentMicro s (getPort s src).sentAt).filter (fun e => e.2 == dst)).length + 1) * 196 ≤
    7000 * (getPair s src dst).stripe.length)

/-- The receive buffers have room for the packets of a frame; those for RSP are reserved and always have. -/
def hasCredit (owed units : List Nat) : Bool :=
  [0, 2, 3].all (fun c => units.getD c 0 == 0 ||
    decide (owed.getD c 0 + units.getD c 0 ≤ (Config.fabricBuffer c).toNat))

/-- The units of a frame fill the receive buffers; credits returned empty them, REQ, RSP, BULK and CTL in turn. -/
def addUnits (l units : List Nat) : List Nat := (List.range 4).map (fun i => l.getD i 0 + units.getD i 0)
def takeCredits (l : List Nat) (c : W32) : List Nat := (List.range 4).map (fun i => l.getD i 0 - fld c.toNat (8 * i) 8)

/-- Round robin over the destination queues that have credit, by ascending site after the one served last: no destination of
`waiting` comes before `dst`. -/
def turn (served k : Nat) : Nat := (k + 63 - served) % 64
def inTurn (served dst : Nat) (waiting : List Nat) : Bool := waiting.all (fun w => decide (turn served dst ≤ turn served w))

/-- A frame has been sent before and waits for its acknowledgement. -/
def PairDir.inReplay (p : PairDir) (seq : W32) : Bool := p.replay.any (fun e => decide (e.1 = seq))

/-- A frame that the sender may send: its light is on, it has room to replay it, and a frame with packets travels on the fabric
(R15), stays within the caps of both ports and of the pair, comes in its turn, and has credit, which a replay has already. -/
def maySend (s : State) (src dst : Nat) (seq : W32) (units waiting : List Nat) : Bool :=
  let p := getPair s src dst
  !(getPort s src).paused && p.hasRoom seq &&
  (units.isEmpty || ((fabricPair src dst).isSome && fitsCap s src ((getPort s src).sentAt.map (·.1)) && fitsPair s src dst &&
    fitsCap s dst (getPort s dst).takenAt && inTurn (getPort s src).served dst waiting &&
    (p.inReplay seq || hasCredit p.owed units)))

/-- A frame with packets is sent: it counts against the sender's cap, its destination has been served, and when it is sent for
the first time it takes room in the receive buffers. -/
def countSent (s : State) (src dst : Nat) (seq : W32) (units : List Nat) : State :=
  if units.isEmpty then s
  else
    updPort (updPair s src dst (fun p => { p with owed := if p.inReplay seq then p.owed else addUnits p.owed units })) src
      (fun p => { p with sentAt := sentMicro s p.sentAt ++ [(now s, dst)], served := dst })

/-- A frame with packets is accepted: it counts against the receiver's cap. -/
def countTaken (s : State) (dst : Nat) (units : List Nat) : State :=
  if units.isEmpty then s
  else updPort s dst (fun p => { p with takenAt := lastMicro s p.takenAt ++ [now s] })

/-! ## Frames in order (R285, R287) -/

/-- An accepted frame: what it says about the reverse direction, whose sender is the frame's receiver. -/
def reverseFields (s : State) (src dst : Nat) (f : FabricFrame) : State :=
  let s1 := updPair s dst src (fun q =>
    { q with
      txAcked := f.ackSeq
      replay := q.replay.filter (fun e => decide ((e.1 - f.ackSeq).toNat - 1 < 128) && decide (e.1 ≠ f.ackSeq))
      replayFrom := if f.nak then some (f.ackSeq + 1) else q.replayFrom
      sending := if f.nak then f.ackSeq + 1 else q.sending
      nak := q.nak && !f.nak
      idFrame := q.idFrame || f.idreq
      owed := takeCredits q.owed f.credits })
  let s2 := if f.nak then delayPair s1 src dst else s1
  if f.evt = 0 || f.stripe then s2 else askEvent s2 dst src f.evt f.evtPlane

/-- The trims of a port end, if they do: the lanes whose eyes they found too narrow are handled as failing ones (R308, R455). -/
def endTrims (s : State) (k : Nat) : State :=
  match (getPort s k).trimWait with
  | none => s
  | some _ =>
    let t := finishTrims s k
    if (getPort t k).trimWait = none then (othersOf t k).foldl (fun u o => examineAgain u o k) t else t

/-- A frame is accepted in order. -/
def acceptFrame (s : State) (src dst : Nat) (f : FabricFrame) (body : Nat) (units : List Nat) : State :=
  let s1 := updPair s src dst (fun p =>
    { p.put f.seq (some body) with
      rxSeq := p.rxSeq + 1
      replayFrom := if p.replayFrom = some f.seq then none else p.replayFrom
      nak := false
      fails := 0
      idreq := false
      asleep := false
      lastPacket := if f.idle then p.lastPacket else now s
      delivered := if f.idle then p.delivered else p.delivered + 1 })
  let s2 := if f.stripe then examineAgain (laneEvent s1 src dst f.evt f.evtPlane) src dst else s1
  let s3 := reverseFields (countTaken s2 dst units) src dst f
  endTrims (endTrims (trimPair f.idle src s3 dst) src) dst

/-- STRIPED_FRAME: the 16 lane frames of a frame from `src` arrive at `dst`; `units` are the 64-byte units of packets of each
channel that its payload holds, and `waiting` the further destinations for which the sender held packets and credit. A frame
that its sender could not have sent does not arrive; one that fails its CRC is the one that the sender puts on the lanes
next. -/
def stripedFrame (s : State) (src dst : Nat) (lanes : List (BitVec 112)) (units waiting : List Nat) : State :=
  let p := getPair s src dst
  let b := bodyOf lanes
  let f := parseFrame b
  let seq := if bodyGood src dst b then f.seq else p.sending
  if !pairWorks s src dst || p.retraining || !maySend s src dst seq units waiting then s
  else
    let s1 := countSent s src dst seq units
    if !bodyGood src dst b then frameFailed s1 src dst
    else if f.seq = p.rxSeq then acceptFrame s1 src dst f b units
    else if (f.seq - p.rxSeq).toNat < 2 ^ 31 then updPair s1 src dst (fun p => { p.put f.seq (some b) with nak := true })
    else updPair s1 src dst (fun p => p.put f.seq (some b))

def execStripedFrame (src dst : Nat) (frame : FrameSeen) (s : State) : Out :=
  guarded (hasPair s src dst) (stripedFrame s src dst frame.lanes frame.units frame.waiting)

/-! ## Lane identity (R293 to R297) -/

/-- The record and the event of a lane retired for its pair direction: the receiver asks for EVT = 3 (R296, R308). `held` says
that a spare has its place. -/
def retireLane (s : State) (src dst plane : Nat) (held : Bool) : State :=
  let s1 := retire (updPair s src dst (fun p =>
    { p with
      retired := insertNat plane p.retired
      evt := addNew (3, plane) p.evt
      spares := p.spares.filter (· != plane) })) dst ⟨1, 0x0102, src, dst, plane⟩
  raise s1
    { code := 0x0102
      outcome := if held then 2 else 3
      site := src
      unit := plane
      arg := (getPair s src dst).stripe.length }

/-- An identity mismatch of a lane: fault event 0x0101, a transient for the relock, and EVT = 1; the third within 1 s
retires the lane with EVT = 3. -/
def identityMismatch (s : State) (src dst plane : Nat) : State :=
  let p := getPair s src dst
  let l := within 1000000000 (now s) (tabGet [] p.mismatch plane) ++ [now s]
  let s1 := raise (updPair s src dst (fun p =>
      { p with mismatches := p.mismatches + 1, mismatch := tabSet [] p.mismatch plane l }))
    { code := 0x0101
      site := dst
      unit := plane
      arg := src }
  if 3 ≤ l.length then
    retireLane s1 src dst plane (p.isHeld plane ||
      (p.stripe.contains plane && (p.substitute plane).2.isSome))
  else
    relockRing (countTransient (updPair s1 src dst (fun p =>
      { p with
        evt := if p.stripe.contains plane then addNew (1, plane) p.evt else p.evt
        trimming := if p.trimming = some plane then none else p.trimming
        change := p.change.filter (fun e => p.trimming != some e.2) })) dst) src dst true plane

/-- One identity word of a lane is compared with the word that the lane should carry. -/
def compareWord (src dst : Nat) (s : State) (pw : Nat × W64) : State :=
  let p := getPair s src dst
  if p.retired.contains pw.1 then s
  else if pw.2.toNat = idWord src dst pw.1 then
    updPair s src dst (fun p =>
      let q := (p.setRing true pw.1 {}).setRing false pw.1 {}
      if p.out.any (fun o => o.1 == pw.1) && !p.testing.contains pw.1 && p.trimming != some pw.1 then { q with evt := addNew (2, pw.1) q.evt } else q)
  else identityMismatch s src dst pw.1

/-- IDENTITY_WORD: the word of one lane, or the words of an identity frame on the active lanes. Nothing counts while a
Lighthouse switch-over at either end or a retraining is in progress, nor in the marker interval in which it ends: later words
are compared (R297). When no lane of an identity frame matches, the pair direction is retrained (R298), which goes before the
mismatches of its lanes (R297). -/
def identityWord (s : State) (src dst plane : Nat) (w : IdSeen) : State :=
  let p := getPair s src dst
  if !pairWorks s src dst || p.retraining || (getPort s src).paused || (getPort s dst).paused || decide (now s < p.quietUntil) then s
  else match w with
    | .marker word => compareWord src dst s (plane, word)
    | .frame words =>
      let l := words.zipIdx.map (fun e => (laneOf p e.2, e.1))
      let s1 := updPair s src dst (fun p => { p with laneNo := p.laneNo + 16, idFrame := false, idreq := false })
      if l.any (fun e => decide (e.2.toNat = idWord src dst e.1)) then l.foldl (compareWord src dst) s1
      else beginRetraining s1 src dst

def execIdentityWord (src dst plane : Nat) (word : IdSeen) (s : State) : Out :=
  guarded (hasPair s src dst) (identityWord s src dst plane word)

/-! ## Margin tests (R308) -/

/-- A fabric lane passes its margin test (Table 09-6): eye at least 64/256 UI, OMA at least −9.0 dBm. -/
def fabricMargin (eye : Nat) (oma : Int) : Bool := decide (64 ≤ eye) && decide (-900 ≤ oma)

/-- LANE_MARGIN_TEST_DONE: a lane that passes becomes a spare; one that fails is retired. -/
def laneMarginDone (s : State) (src dst plane : Nat) (pass : Bool) : State :=
  let p := getPair s src dst
  if !p.testing.contains plane || p.stripe.contains plane then s
  else
    let held := p.isHeld plane
    let s1 := updPair s src dst (fun p =>
      { p.forget plane (p.taker plane) with testing := p.testing.filter (· != plane) })
    if pass then countTransient (updPair s1 src dst (fun p => { p with spares := insertNat plane p.spares })) dst
    else retireLane s1 src dst plane held

def execLaneMarginTestDone (src dst plane : Nat) (fig : MarginFig) (s : State) : Out :=
  guarded (hasPair s src dst && decide (plane < 18)) (laneMarginDone s src dst plane (fabricMargin fig.eye fig.oma))

/-! ## Retraining, sleep (R287, R298) -/

/-- RETRAINING_DONE: every lane is locked on its line and deskewed, its frames are counted anew, and packets flow. -/
def retrainingDone (s : State) (src dst : Nat) : State :=
  if (getPair s src dst).retraining then
    examineAgain (updPair s src dst (fun p =>
      { p with
        retraining := false
        deskewed := true
        rings := []
        modRings := []
        trained := some (now s)
        laneNo := 0
        quietUntil := now s + markerNs })) src dst
  else s

def execRetrainingDone (src dst : Nat) (s : State) : Out := guarded (hasPair s src dst) (retrainingDone s src dst)

/-- LANE_SLEEP: 1 µs after the last packet. -/
def execLaneSleep (src dst : Nat) (s : State) : Out :=
  guarded (hasPair s src dst)
    (updPair s src dst (fun p =>
      if p.lastPacket + 1000 ≤ now s ∧ p.retraining = false then { p with asleep := true } else p))

/-! ## Lighthouse switch-overs (R299, R479, R480) -/

/-- The rings of the lanes that a site feeds lose their light and freeze (R290). -/
def darken (s : State) (k : Nat) : State :=
  (othersOf s k).foldl (fun t o => updPair t k o (fun p =>
    { p.eachRing (fun r => { r with state := .frozen }) with darkSince := some (now s) })) s

/-- Light returns to the lanes that a site feeds: frozen rings hold their lines again, and the others may lock. -/
def relight (s : State) (k : Nat) : State :=
  (othersOf s k).foldl (fun t o =>
    examineAgain (updPair t k o (fun p =>
      { p.eachRing (fun r => if r.state = .frozen then { r with state := .locked } else r) with
        darkSince := none
        quietUntil := intervalEnd s p })) k o) s

/-- FABRIC_LIGHTHOUSE_FAULT: the port stops sending while the standby is brought up; a pair with no standby loses the
site. While the port is paused, it is the standby that fails. -/
def fabricLighthouseFault (s : State) (k : Nat) : State :=
  let a := (getPort s k).lhActive
  if (getSite s k).fabricLost || !released s 4 then s
  else if (getPort s k).paused then
    if lhReady s (.fabric k (1 - a)) then loseFabric (faultLh s (.fabric k (1 - a))) k else s
  else
    let s1 := faultLh s (.fabric k a)
    let s2 := delaySite (darken (updPort s1 k (fun p => { p with paused := true })) k) k
    if lhReady s (.fabric k (1 - a)) then s2 else loseFabric s2 k

def execFabricLighthouseFault (site : Nat) (s : State) : Out := guarded (hasSite s site) (fabricLighthouseFault s site)

/-- FABRIC_LH_RESUME: the port sends again, on its standby. -/
def fabricLhResume (s : State) (k : Nat) : State :=
  let a := (getPort s k).lhActive
  if (getPort s k).paused && lhReady s (.fabric k (1 - a)) then
    let s1 := relight (updPort s k (fun p => { p with paused := false, lhActive := 1 - p.lhActive })) k
    (othersOf s k).foldl (fun t o => examineAgain t o k) s1
  else s

def execFabricLhResume (site : Nat) (s : State) : Out := guarded (hasSite s site) (fabricLhResume s site)

/-- Outstanding requests that cross the links of a quay are delayed. -/
def delayQuay (s : State) (q : Nat) : State :=
  delayed s (fun o => !o.held && o.dstPos != ownPos s && quayTo s o.dstPos == quaySite q)

/-- LINK_LIGHTHOUSE_FAULT: the standby takes over and frames are retried; with no standby the quay's links fail. -/
def linkLighthouseFault (s : State) (q : Nat) : State :=
  let a := (getQuayLh s q).lhActive
  let s1 := faultLh s (.link q a)
  if lhReady s (.link q (1 - a)) then delayQuay (updQuayLh s1 q (fun p => { p with lhActive := 1 - p.lhActive })) q
  else failQuayLinks s1 q

def execLinkLighthouseFault (quay : Nat) (s : State) : Out := guarded (decide (quay < 8)) (linkLighthouseFault s quay)

/-! ## Near links (R304 to R307) -/

/-- A near lane meets Table 09-6. -/
def nearMargin (eye : Nat) : Bool := decide (64 ≤ eye)

/-- The lane of a bundle that carries lane frame n (R304). -/
def bundleLane (b : Bundle) (n : Nat) : Nat := b.active.getD (n % b.active.length) 0

/-- Lanes that are to leave the stripe at the next frame marked STRIPE (R306). -/
def leaveBundle (s : State) (n k : Nat) (lanes : List Nat) : State :=
  updBundle s n k (fun b =>
    { b with leaving := lanes.foldl (fun l x => if b.active.contains x then insertNat x l else l) b.leaving })

/-- A lane leaves its bundle's stripe; a near link without any lane loses its stack. -/
def removeNearLane (s : State) (n k lane : Nat) : State :=
  let b := getBundle s n k
  if !b.active.contains lane then s
  else
    let s1 := updBundle s n k (fun b =>
      { b with
        active := b.active.filter (· != lane)
        leaving := b.leaving.filter (· != lane)
        removed := insertNat lane b.removed })
    let s2 := raise s1
      { code := 0x0104
        outcome := if b.spares.isEmpty then 0 else 2
        site := stackSite n
        unit := k
        part := (sitePart s (stackSite n)).getD 0xF
        arg := b.active.length - 1 }
    let s3 := delayNear s2 n
    if (List.range 10).all (fun j => (getBundle s3 n j).active.isEmpty) then
      loseStack (updStack s3 n (fun x => { x with nearLost := true })) n true
    else s3

/-- NEAR_LANE_BER_EXCEEDED: the lane leaves the stripe at the next frame marked STRIPE. -/
def execNearLaneBerExceeded (stack bundle lane : Nat) (s : State) : Out :=
  guarded (hasStack s stack && decide (bundle < 10) && decide (lane < 34))
    (if released s 6 then leaveBundle s stack bundle [lane] else s)

/-- The time that a frame takes on a bundle, in 1/1024 ns, and the Tide at which a bundle would have sent one more (R305). -/
def bundleTime (b : Bundle) : Nat := 32768 / b.active.length
def bundleEnd (s : State) (n d k : Nat) : Nat :=
  max (1024 * now s) (tabGet 0 (getStack s n).nearFree (16 * d + k)) + bundleTime (getBundle s n k)

/-- A sender of direction `d` may place its next frame on a bundle: no bundle can finish sending it before this one. -/
def firstBundle (s : State) (n d k : Nat) : Bool :=
  (List.range 10).all (fun j => (getBundle s n j).active.isEmpty || decide (bundleEnd s n d k ≤ bundleEnd s n d j))

/-- The lanes of a bundle on which the given lane frames of a bundle frame travel (R304). -/
def frameLanes (s : State) (n d k : Nat) (l : List Nat) : List Nat :=
  l.map (fun j => bundleLane (getBundle s n k) (tabGet 0 (getStack s n).nearLaneNo (16 * d + k) + j))

/-- Frames received ahead that follow on without a gap are delivered: next SEQ, frames left ahead, frames delivered. -/
def nearDrain : Nat → W32 → List W32 → Nat → W32 × List W32 × Nat
  | 0, n, l, k => (n, l, k)
  | j + 1, n, l, k => if l.contains n then nearDrain j (n + 1) (l.filter (fun x => decide (x ≠ n))) (k + 1) else (n, l, k)

/-- A bundle frame of direction `d` is put in SEQ order. -/
def nearAccept (x : Stack) (d : Nat) (seq : W32) : Stack :=
  let want := tabGet 0 x.nearSeq d
  let gap := (seq - want).toNat
  if 128 ≤ gap then x
  else
    let mine := ((x.nearAhead.filter (fun e => e.1 == d)).map (·.2))
    let r := nearDrain (mine.length + 1) want (addNew seq mine) 0
    { x with
      nearSeq := tabSet 0 x.nearSeq d r.1
      nearAhead := x.nearAhead.filter (fun e => e.1 != d) ++ r.2.1.map (fun q => (d, q))
      nearDelivered := tabUpd 0 x.nearDelivered d (· + r.2.2)
      nearNak := if gap = 0 then tabSet false x.nearNak d false else x.nearNak }

/-- A frame of direction `d` joins the replay buffer of its sender, and its units the receive buffers (R285, R304, R305). -/
def nearSend (x : Stack) (d : Nat) (f : BundleFrame) : Stack :=
  { x with
    nearSent := addNew (d, f.seq) x.nearSent
    nearOwed := tabSet [] x.nearOwed d (if f.units.isEmpty || x.nearSent.contains (d, f.seq) then tabGet [] x.nearOwed d else addUnits (tabGet [] x.nearOwed d) f.units) }

/-- What a frame of direction `d` says about the other direction: its acknowledgement, its credits, and a replay (R285,
R305). -/
def nearReverse (x : Stack) (d : Nat) (f : BundleFrame) : Stack :=
  { x with
    nearAcked := tabSet 0 x.nearAcked (1 - d) f.ackSeq
    nearSent := x.nearSent.filter (fun e => e.1 != 1 - d ||
      (decide ((e.2 - f.ackSeq).toNat - 1 < 128) && decide (e.2 ≠ f.ackSeq)))
    nearOwed := if f.credits = 0 then x.nearOwed
      else tabSet [] x.nearOwed (1 - d) (takeCredits (tabGet [] x.nearOwed (1 - d)) f.credits)
    nearReplay := tabSet none x.nearReplay (1 - d) (if f.nak then some (f.ackSeq + 1) else none) }

/-- The 32 lane frames of a bundle frame occupy a bundle (R304, R305). -/
def occupy (s : State) (n d k : Nat) : State :=
  let t := bundleEnd s n d k
  updStack s n (fun x =>
    { x with
      nearFree := tabSet 0 x.nearFree (16 * d + k) t
      nearLaneNo := tabUpd 0 x.nearLaneNo (16 * d + k) (· + 32) })

/-- The credits of a bundle frame cross between the clocks of the base fabric and of the stack as events (R374). -/
def nearCredits (s : State) (n : Nat) (up : Bool) (credits : W32) : State :=
  let k := sumNat ((List.range 4).map (fun i => fld credits.toNat (8 * i) 8))
  if k = 0 then s else if up then countEvents s (stackDom n) 3 k else countEvents s 3 (stackDom n) k

/-- NEAR_BUNDLE_FRAME: a frame arrives on a bundle. A lane whose lane frames fail while the other lanes of the bundle pass is to
leave it (R306). A frame that its sender would have placed on another bundle, one beyond its replay buffer, or one without
credit, does not arrive. The 8 bytes of header come as fields: the manual does not give their places (log entry 89). -/
def nearBundleFrame (s : State) (n k : Nat) (up : Bool) (f : BundleFrame) : State :=
  let d := bit up
  let x := getStack s n
  if x.nearLost || (getBundle s n k).active.isEmpty || !released s 6 || !firstBundle s n d k then s
  else if !f.crcGood then
    let lanes := frameLanes s n d k f.failing
    let s1 := if (getBundle s n k).active.all (fun l => lanes.contains l) then s else leaveBundle s n k lanes
    delayNear (updStack (occupy s1 n d k) n (fun x => { x with nearNak := tabSet false x.nearNak d true })) n
  else if !(f.units.isEmpty || x.nearSent.contains (d, f.seq) || hasCredit (tabGet [] x.nearOwed d) f.units) ||
      (128 ≤ (x.nearSent.filter (fun e => e.1 == d)).length && !x.nearSent.contains (d, f.seq)) then s
  else
    let s1 := updStack (occupy s n d k) n (fun x => nearReverse (nearAccept (nearSend x d f) d f.seq) d f)
    let s2 := nearCredits s1 n up f.credits
    if f.stripe && f.evt == 1 then removeNearLane s2 n k f.evtLane else s2

def execNearBundleFrame (stack bundle : Nat) (up : Bool) (frame : BundleFrame) (s : State) : Out :=
  guarded (hasStack s stack && decide (bundle < 10)) (nearBundleFrame s stack bundle up frame)

end Sys2Proof.Machine
end

