-- ==== Sys2Proof/Machine/Clocks.lean ====
section
/-! DEFINITION. Clocks, crossings and Tide (spec/12_clocks_tide.md): failed crossings (R376, R377), the REF check (R372),
the modes of Tide (R381 to R383), sleep and wake (R384, R406, R407) and the presence button (R445, R528). -/

namespace Sys2Proof.Machine

/-! ## The tick -/

/-- One clock tick of the Tide master counter (R381): a PORTCLK cycle adds 1 + RATE × 2⁻³² ns in reference mode, an
AOCLK edge adds exactly 500 ns in always-on mode. An AOCLK edge falls on every 500th PORTCLK cycle, and the always-on domain latches
the counter at it (R383; log entry 23). -/
def TideGroup.tick (t : TideGroup) : TideGroup :=
  match t.mode with
  | .reference =>
    let c := t.count + ((2 ^ 32 : Int) + t.rate).toNat
    if t.aoPhase + 1 < 500 then { t with count := c, aoPhase := t.aoPhase + 1 }
    else { t with count := c, aoPhase := 0, latchAo := c }
  | .alwaysOn => { t with count := t.count + 500 * 2 ^ 32 }

/-- A member's next heartbeat to the master is due: 100 µs after its last, by a route that is up (R360). -/
def beatDue (s : State) : Bool :=
  s.harbour.posValid && !isMaster s && !s.harbour.noMaster && decide (s.harbour.beatAt + 100000 ≤ now s) &&
  decide ((getLink s (linkTo s (firstHop s s.harbour.master))).state = .up)

/-- The own heartbeat leaves for the master. -/
def beat (s : State) : State :=
  if beatDue s then
    linkSend { s with harbour := { s.harbour with beatAt := now s } } (linkTo s (firstHop s s.harbour.master))
      (.heartbeat (ownPos s) s.ident.part)
  else s

/-- What the block does while no command waits: its clock ticks while the always-on domain is supplied, and a heartbeat that is due
leaves (log entries 1 and 47). -/
def clockTick (s : State) : State := if s.power.alwaysOn then beat { s with tide := s.tide.tick } else s

/-! ## Failed crossings (R377, Table 15-5) -/

/-- The site of a block. -/
def blockSite (d : Nat) : Nat :=
  match domKind d with
  | .region b _ => b
  | .engine b _ => b
  | .stack n => stackSite n
  | .quay q => quaySite q
  | _ => if isLinkBlock d then quaySite ((d - 0x600) / 3) else hmSite

/-- The recovery that a failed crossing asks for (Table 15-5, R468; log entry 24): rung 4 at the Harbourmaster, the
always-on domain or PCIe, rung 3 between regions or at a berth port, rung 2 between a region and its engine, and the
probe of the site at a stack or a quay. Without its recovered clock a link fails (R354). -/
def crossingRecovery (s : State) (a b : Nat) : State :=
  let lo := min a b
  let hi := max a b
  if isLinkBlock hi then linkLost (linkDown s (hi - 0x600) .linkReset 0) (hi - 0x600)
  else match domKind lo, domKind hi with
  | .region br _, .engine _ e =>
    beginEngineReset (takeRung s 2 (engKey br e) e br) br e
  | .region br _, .region _ _ => resetBerthRung (takeRung s 3 ((berthPart s br).getD (8 + br)) lo br) br 2
  | .fabric, .region br _ => resetBerthRung (takeRung s 3 ((berthPart s br).getD (8 + br)) hi br) br 2
  | .fabric, .engine br e => beginEngineReset (takeRung s 2 (engKey br e) e br) br e
  | .fabric, .stack n => probe s (ownPos s) (stackSite n)
  | .fabric, .quay q => probe s (ownPos s) (quaySite q)
  | _, _ => dumpReset (takeRung s 4 0 lo hmSite) 0x11

/-- Two blocks share a crossing (R373; log entry 16). -/
def isCrossing (a b : Nat) : Bool := (crossClass a b).isSome

/-- The nominal period of a block's clock, in ps (Table 12-1); a clock from outside counts as the 1 GHz of PORTCLK, the bus as
1 MHz. -/
def clockPeriod (s : State) (d : Nat) : Nat :=
  match domKind d with
  | .alwaysOn => 500000
  | .hm _ => 2000
  | .stack _ => 1250
  | .region b e => ceilDiv 10000 (8 + (getRegion s b e).step)
  | _ => if d = busBlock then 1000000 else 1000

/-- A watching side sees no toggle for 64 × the longer of the two periods, in ns (R376). -/
def crossTimeout (s : State) (a b : Nat) : Nat := ceilDiv (64 * max (clockPeriod s a) (clockPeriod s b)) 1000

/-- A clock that comes from outside the module, whose stop only the watch bit shows: PCI Express, a link, the bus. -/
def outsideClock (d : Nat) : Bool := d == 4 || d == busBlock || isLinkBlock d

/-- The watch of a crossing has seen no toggle for its timeout: the clock of one side has stopped for so long, or comes from
outside (R376; log entry 91). -/
def watchExpired (s : State) (a b : Nat) : Bool :=
  outsideClock a || outsideClock b ||
  s.tide.stoppedGens.any (fun g => (g.1 == a || g.1 == b) && decide (g.2 + crossTimeout s a b ≤ now s))

/-- CROSSING_TIMEOUT: a crossing in service, or one whose park has not reached PARKED (R379), fails; the requests that it carried
end at their sources, fault event 0x0404 names its two blocks, and the recovery of the block begins. A PARKED crossing never
times out (R378), a FAILED one has already. -/
def crossingTimeout (s : State) (a b : Nat) : State :=
  let st := getCrossing s a b
  if !isCrossing a b || st == .parked || st == .failed || !watchExpired s a b then s
  else
    let s1 := setCrossing s a b .failed
    let hit := s1.reqs.out.filter (fun o => !o.held && passes a b (pathDoms s o))
    let s2 := hit.foldl endRequest s1
    crossingRecovery (raise s2
      { code := 0x0404
        site := blockSite (max a b)
        arg := min a b + max a b * 65536 }) a b

/-- The two blocks exist on this variant. -/
def hasBlock (s : State) (d : Nat) : Bool :=
  match domKind d with
  | .region b _ => hasBerth s b
  | .engine b _ => hasBerth s b
  | .stack n => hasStack s n
  | .reserved => isLinkBlock d || d == busBlock
  | .lighthouse => false
  | _ => true

def execCrossingTimeout (c : CrossingId) (s : State) : Out :=
  guarded (hasBlock s c.a && hasBlock s c.b) (crossingTimeout s c.a c.b)

/-- The Lighthouse whose controller a domain number names (Table 13-3). -/
def lighthouseOf (d : Nat) : LighthouseId :=
  if d < 0x500 then .engine ((d - 0x400) / 32) ((d - 0x400) % 32 / 2) (d % 2)
  else if d < 0x580 then .fabric ((d - 0x500) / 2) (d % 2)
  else .link ((d - 0x580) / 2) (d % 2)

/-- A Lighthouse whose controller has no clock fails: the lit one as by its fault, the other one as by a failed standby check. -/
def lighthouseClock (s : State) (lh : LighthouseId) : State :=
  match lh with
  | .engine b e k => if (getEngine s b e).lhActive = k then lighthouseFault s b e else retireLh s lh
  | .fabric n k => if (getPort s n).lhActive = k then fabricLighthouseFault s n else retireLh s lh
  | .link q k => if (getQuayLh s q).lhActive = k then linkLighthouseFault s q else retireLh s lh

/-- A generator that loses lock stops its own clock. The crossings of its block then time out (R376), and the block fails by
them. The generator of PCLK and the Lighthouse controllers have no crossing: the base fabric fails as it does by its crossing to
the always-on domain, and the Lighthouse fails (R372; log entry 91). -/
def lockLoss (s : State) (d : Nat) : State :=
  if !(s.tide.refGood && s.tide.refRunning) || clockStopped s d then s
  else match domKind d with
    | .lighthouse => lighthouseClock s (lighthouseOf d)
    | _ =>
      let t := { s with tide := { s.tide with stoppedGens := s.tide.stoppedGens ++ [(d, now s)] } }
      if d = pclkBlock then dumpReset (takeRung t 4 0 3 hmSite) 0x11 else t

/-- The module has the generator: of a block of its own clock, of PCLK, or of a Lighthouse controller (R372). -/
def hasGenerator (s : State) (d : Nat) : Bool :=
  match domKind d with
  | .lighthouse => hasElement s (.lighthouse (lighthouseOf d))
  | _ => (hasBlock s d && !outsideClock d) || d == pclkBlock

/-- GENERATOR_LOCK_LOSS. -/
def execGeneratorLockLoss (block : Nat) (s : State) : Out := guarded (hasGenerator s block) (lockLoss s block)

/-! ## REF and the modes of Tide (R372, R381 to R384) -/

/-- Tide at a change into always-on mode, `edges` AOCLK edges after the edge latched last (R383). -/
def TideGroup.handover (t : TideGroup) (edges : Nat) : TideGroup :=
  { t with count := max t.count (t.latchAo + 500 * edges * 2 ^ 32), mode := .alwaysOn, loaded := [] }

/-- A clock failure: fault event 0x0405 and the module reset of source 0x07 (R372, R421). -/
def clockFailure (s : State) : State := moduleReset (raise s { code := 0x0405 }) 7

/-- A window of REF is good: 12 800 edges within 64, and no two AOCLK cycles without an edge (R372). -/
def windowGood (edges : Nat) (missing : Bool) : Bool := decide (12736 ≤ edges) && decide (edges ≤ 12864) && !missing

/-- REF_CHECK_WINDOW: a good window is recorded. A bad one after REF has passed is a clock failure, which in reference mode follows
the change into always-on mode; while REF starts, the tenth bad window in a row is one too (Table 12-6). `edges` are the REF edges
of the window, or, when REF goes `missing`, the AOCLK edges since the last good one; a bad window ends at the edge after it. -/
def refCheckWindow (s : State) (edges : Nat) (missing : Bool) : State :=
  if !s.tide.refRunning then s
  else if windowGood edges missing then { s with tide := { s.tide with refGood := true, refTries := 0 } }
  else if s.tide.mode = .reference then
    let t := s.tide.handover (if missing then edges else 1)
    clockFailure { s with tide := { t with refGood := false, locked := false } }
  else if s.tide.refGood then clockFailure { s with tide := { s.tide with refGood := false, locked := false } }
  else
    let t := { s.tide with refGood := false, locked := false, refTries := s.tide.refTries + 1 }
    if 10 ≤ t.refTries then clockFailure { s with tide := t } else { s with tide := t }

def execRefCheckWindow (edges : Nat) (missing : Bool) (s : State) : Out := .next (refCheckWindow s edges missing)

/-- TIDE_MODE_ALWAYS_ON: the first AOCLK edge after REF has stopped, `edges` edges after the last good one. -/
def execTideModeAlwaysOn (edges : Nat) (s : State) : Out :=
  .next (if s.tide.mode = .reference ∧ (s.tide.refRunning && s.tide.refGood) = false then
      { s with tide := s.tide.handover edges }
    else s)

/-- The generators of PCLK and of PORTCLK, at the base fabric's ports and at the quays, have locked (R383). -/
def portsLocked (s : State) : Bool := ([pclkBlock, 3] ++ (List.range 8).map quayDom).all (fun d => !clockStopped s d)

/-- The replicas of the domains that are on are loaded from the master counter (R380). -/
def loadAll (s : State) : State :=
  ([3, 1 + s.recovery.active, 4] ++ (List.range 8).map quayDom ++ (List.range (4 * s.ident.part)).map stackDom).foldl
    (fun t d => if (getDomain t d).state = .on then loadReplicas t d .on else t) s

/-- TIDE_MODE_REFERENCE: the first AOCLK edge after one good window of REF and the lock of PCLK and every PORTCLK generator. -/
def execTideModeReference (s : State) : Out :=
  .next (if s.tide.mode = .alwaysOn ∧ (s.tide.refRunning && s.tide.refGood) = true ∧ portsLocked s = true then
      loadAll { s with tide := { s.tide with mode := .reference, locked := true, latchAo := s.tide.count, aoPhase := 0 } }
    else s)

/-! ## Sleep and wake (R384, R406, R407, R519) -/

/-- The domains that software controls on this variant (Table 13-4). -/
def controlled (s : State) : List Nat :=
  ((List.range s.ident.part).flatMap (fun b =>
    (List.range 16).map (regionDom b) ++ (List.range 16).map (engineDom b))) ++
  (List.range (4 * s.ident.part)).map stackDom ++ (List.range 8).map quayDom

/-- The module may sleep: every controlled domain is in retention or off, and PCIe in retention. -/
def maySleep (s : State) : Bool :=
  (controlled s).all (fun d => decide ((getDomain s d).state ≠ .on) && decide ((getDomain s d).busy = none)) &&
  decide ((getDomain s 4).state = .retention) && decide ((getDomain s 4).busy = none)

/-- MODULE_SLEEP: the base fabric and both Harbourmasters go into retention, their crossings parked; REF stops on a module
that is a harbour of one (R384). Tide is latched at that edge. -/
def moduleSleep (s : State) : State :=
  let s0 := [1, 2, 3].foldl parkDomain s
  if s.rst.ready && !s.io.asleep && maySleep s && [1, 2, 3].all (parkable s0) then
    let s1 := [1, 2, 3].foldl (fun t d =>
      loadReplicas (updDomain (finishPark t d) d (fun x => { x with state := .retention })) d .retention) s0
    let alone := decide (harbourSize s = 1)
    { s1 with
      io := { s1.io with asleep := true }
      tide := if alone then { s1.tide with
          refRunning := false
          refGood := false
          locked := false
          latchAo := if s1.tide.mode = .reference then s1.tide.count else s1.tide.latchAo }
        else s1.tide }
  else s

def execModuleSleep (s : State) : Out := .next (moduleSleep s)

/-- WAKE: sources 2 and 3 are active while PCIe is in retention and return it; source 4 while its quay is, and returns
that; source 5, which its firing disarms, when Tide has reached the alarm (R385, Table 13-5); `sameEdge` are the codes of further
sources at the same edge. -/
def wakeBy (s : State) (code : Nat) (sameEdge : List Nat) (quay : Nat) : State :=
  let held (d : Nat) : Bool := decide ((getDomain s d).state = .retention)
  let active (k : Nat) : Bool :=
    if k = 2 ∨ k = 3 then held 4
    else if k = 4 then held (quayDom quay)
    else if k = 5 then s.tide.alarm.any (fun v => decide (v ≤ now s))
    else decide (1 ≤ k) && decide (k ≤ 7)
  let returns (k : Nat) : List Nat := if k = 2 ∨ k = 3 then [4] else if k = 4 then [quayDom quay] else []
  if active code then
    let same := sameEdge.filter active
    let s1 := if (code :: same).contains 5 then { s with tide := { s.tide with alarm := none } } else s
    wakeModule s1 code same ((code :: same).flatMap returns)
  else s

def execWake (code : Nat) (sameEdge : List Nat) (quay : Nat) (s : State) : Out :=
  guarded (decide (quay < 8)) (wakeBy s code sameEdge quay)

/-- MP_ADDRESS_MATCH_WAKE: an address match and an access outside the always-on block is wake source 1; an access inside
that block never wakes the module. -/
def execMpAddressMatchWake (offset : Nat) (s : State) : Out :=
  .next (if 0x40 ≤ offset then wakeModule s 1 [] [] else s)

/-! ## The presence button (R407, R445, R528) -/

/-- PRESENCE_BUTTON_PRESS: a press is always a wake. -/
def execPresenceButtonPress (s : State) : Out :=
  .next (wakeModule { s with sec := { s.sec with buttonSince := some (now s) } } 7 [] [])

/-- The hold of the button has lasted 3 s on a module that is READY (R445). -/
def heldLong (s : State) : Bool :=
  match s.sec.buttonSince with
  | some t => s.rst.ready && decide (max t s.rst.readyTide + 3000000000 ≤ now s)
  | none => false

/-- PRESENCE_HOLD: a presence window of 120 s opens, or starts again. -/
def execPresenceHold (s : State) : Out :=
  .next (if heldLong s then
      { s with sec := { s.sec with window := some (now s + 120000000000), buttonSince := none } }
    else s)

/-- PRESENCE_WINDOW_EXPIRY: the end of its 120 s closes the window. -/
def execPresenceWindowExpiry (s : State) : Out :=
  .next (match s.sec.window with
    | some t => if t ≤ now s then { s with sec := { s.sec with window := none } } else s
    | none => s)

end Sys2Proof.Machine
end

