-- ==== Sys2Proof/Machine/Signature.lean ====
section
/-! DEFINITION. SHA-384 (FIPS 180-4) and the verification of an ECDSA P-384 signature (FIPS 186-5), to which Table 00-3 and
R441 refer. The manual names the two standards and does not repeat them: their constants and equations are PRESUMED (log entry
9). -/

namespace Sys2Proof.Machine

/-- The number that bytes spell, highest first. -/
def beNat (l : List Byte) : Nat := l.foldl (fun a b => 256 * a + b.toNat) 0

/-! ## SHA-384 -/

/-- The cube root of a number below 2²⁷⁰, rounded down. -/
def icbrt (n : Nat) : Nat :=
  (List.range 90).foldr (fun k r => let c := r + 2 ^ k; if c * c * c ≤ n then c else r) 0

/-- The first 80 primes. -/
def shaPrimes : List Nat :=
  ((List.range 410).filter (fun n => 2 ≤ n && (List.range n).all (fun d => d < 2 || n % d != 0))).take 80

/-- Word t of the constants: the first 64 bits of the fraction of the cube root of prime t. -/
def shaConst (t : Nat) : W64 := BitVec.ofNat 64 (icbrt (shaPrimes.getD t 0 * 2 ^ 192))

/-- The first digest of SHA-384: the first 64 bits of the fractions of the square roots of the ninth to sixteenth primes. -/
def shaStart : List W64 := (List.range 8).map (fun i => BitVec.ofNat 64 (isqrt (shaPrimes.getD (8 + i) 0 * 2 ^ 128)))

/-- The padded message: a one bit, zeros, and the length in bits in the last 16 of a whole number of blocks of 128 bytes. -/
def shaPad (m : List Byte) : List Byte :=
  m ++ [0x80#8] ++ List.replicate ((239 - m.length % 128) % 128) 0#8 ++ (bytesLE 16 (8 * m.length)).reverse

/-- The four mixing functions of FIPS 180-4. -/
def bigSigma0 (x : W64) : W64 := x.rotateRight 28 ^^^ x.rotateRight 34 ^^^ x.rotateRight 39
def bigSigma1 (x : W64) : W64 := x.rotateRight 14 ^^^ x.rotateRight 18 ^^^ x.rotateRight 41
def smallSigma0 (x : W64) : W64 := x.rotateRight 1 ^^^ x.rotateRight 8 ^^^ (x >>> 7)
def smallSigma1 (x : W64) : W64 := x.rotateRight 19 ^^^ x.rotateRight 61 ^^^ (x >>> 6)

/-- The message schedule of a block, newest word first, after n more words. -/
def shaSchedule (w : List W64) : Nat → List W64
  | 0 => w
  | n + 1 => shaSchedule ((smallSigma1 (w.getD 1 0) + w.getD 6 0 + smallSigma0 (w.getD 14 0) + w.getD 15 0) :: w) n

/-- One round of the compression, on the words a to h, with a word of the schedule added to its constant. -/
def shaRound (v : List W64) (kw : W64) : List W64 :=
  let at' (i : Nat) : W64 := v.getD i 0
  let t1 := at' 7 + bigSigma1 (at' 4) + ((at' 4 &&& at' 5) ^^^ (~~~(at' 4) &&& at' 6)) + kw
  let t2 := bigSigma0 (at' 0) + ((at' 0 &&& at' 1) ^^^ (at' 0 &&& at' 2) ^^^ (at' 1 &&& at' 2))
  [t1 + t2, at' 0, at' 1, at' 2, at' 3 + t1, at' 4, at' 5, at' 6]

/-- The digest after block i of a padded message. -/
def shaBlock (consts : List W64) (m : List Byte) (d : List W64) (i : Nat) : List W64 :=
  let words := (List.range 16).map (fun j => BitVec.ofNat 64 (beNat ((m.drop (128 * i + 8 * j)).take 8)))
  let ws := (shaSchedule words.reverse 64).reverse
  List.zipWith (· + ·) d ((List.zipWith (· + ·) ws consts).foldl shaRound d)

/-- SHA-384 of a message, as a number of 384 bits. -/
def sha384 (m : List Byte) : Nat :=
  let p := shaPad m
  let d := (List.range (p.length / 128)).foldl (shaBlock ((List.range 80).map shaConst) p) shaStart
  (d.take 6).foldl (fun a w => 2 ^ 64 * a + w.toNat) 0

/-! ## P-384 -/

/-- The field of P-384. -/
def p384 : Nat := 2 ^ 384 - 2 ^ 128 - 2 ^ 96 + 2 ^ 32 - 1

/-- The constant b of the curve y² = x³ − 3x + b. -/
def p384B : Nat :=
  0xb3312fa7e23ee7e4988e056be3f82d19181d9c6efe8141120314088f5013875ac656398d8a2ed19d2a85c8edd3ec2aef

/-- The order of the group. -/
def p384N : Nat :=
  0xffffffffffffffffffffffffffffffffffffffffffffffffc7634d81f4372ddf581a0db248b0a77aecec196accc52973

/-- The base point. -/
def p384G : Nat × Nat :=
  (0xaa87ca22be8b05378eb1c71ef320ad746e1d3b628ba79b9859f741e082542a385502f25dbf55296c3a545e3872760ab7,
   0x3617de4a96262c6f5d9e98bf9292dc29f8f41dbd289a147ce9da3113b5f0b8c00a60b1ce1d7e819d7a431d7c90ea0e5f)

/-- x^e modulo m, for an exponent below 2^384. -/
def powMod (m x e : Nat) : Nat :=
  (List.range 384).foldr (fun k r => let q := r * r % m; if bitAt e k then q * x % m else q) 1

/-- The inverse of x modulo a prime. -/
def invMod (m x : Nat) : Nat := powMod m (x % m) (m - 2)

/-- x − y modulo the field, of numbers below it. -/
def subP (x y : Nat) : Nat := (x + p384 - y) % p384

/-- The point on the line of a slope through two points of the curve. -/
def onSlope (l : Nat) (a : Nat × Nat) (bx : Nat) : Nat × Nat :=
  let x := subP (subP (l * l % p384) a.1) bx
  (x, subP (l * subP a.1 x % p384) a.2)

/-- The sum of two points of the curve; none is the point at infinity. -/
def addPoint : Option (Nat × Nat) → Option (Nat × Nat) → Option (Nat × Nat)
  | none, q => q
  | p, none => p
  | some a, some b =>
    if a.1 = b.1 then
      if (a.2 + b.2) % p384 = 0 then none
      else some (onSlope (subP (3 * a.1 * a.1 % p384) 3 * invMod p384 (2 * a.2) % p384) a b.1)
    else some (onSlope (subP b.2 a.2 * invMod p384 (subP b.1 a.1) % p384) a b.1)

/-- k times a point. -/
def mulPoint (k : Nat) (p : Nat × Nat) : Option (Nat × Nat) :=
  (List.range 384).foldr (fun i r => let d := addPoint r r; if bitAt k i then addPoint d (some p) else d) none

/-- The point lies on the curve, with both coordinates in the field. -/
def onCurve (q : Nat × Nat) : Bool :=
  decide (q.1 < p384) && decide (q.2 < p384) &&
  q.2 * q.2 % p384 == subP ((q.1 * q.1 * q.1 + p384B) % p384) (3 * q.1 % p384)

/-- The signature r, s of a digest verifies with a public key. -/
def ecdsaGood (q : Nat × Nat) (z r s : Nat) : Bool :=
  let w := invMod p384N s
  onCurve q && decide (0 < r) && decide (r < p384N) && decide (0 < s) && decide (s < p384N) &&
  (match addPoint (mulPoint (z * w % p384N) p384G) (mulPoint (r * w % p384N) q) with
   | some x => x.1 % p384N == r
   | none => false)

/-- The signature of 96 bytes, r then s, over the SHA-384 of a message verifies with a public key of 96 bytes, x then y
(R440, R441). -/
@[irreducible] def ecdsaVerify (key message signature : List Byte) : Bool :=
  decide (key.length = 96) && decide (signature.length = 96) &&
  ecdsaGood (beNat (key.take 48), beNat (key.drop 48)) (sha384 message) (beNat (signature.take 48))
    (beNat (signature.drop 48))

/-- The vendor public key, of 96 bytes. -/
def vendorKey : List Byte := (bytesLE 96 Config.vendorKey.toNat).reverse

end Sys2Proof.Machine
end

