-- ==== Sys2Proof/Machine/ConfigImages.lean ====
section
/-! DEFINITION. Configuration images (spec/14_reset_boot_security.md): the layout of Tables 14-7 to 14-10, the checks of
R438 with the validity rules of R435 and R320, the default configuration (R437), and what stage B8 does with them
(R439). -/

namespace Sys2Proof.Machine

/-! ## Layout -/

/-- Bytes of an image, and the offset of its signature. -/
def imageBytes : Nat := 12000
def signatureAt : Nat := 11904

/-- The bits of `n` bytes of an image from an offset. -/
def imageNat (img : List Byte) (off n : Nat) : Nat := leNat (sliceBytes img off n)

/-- Offsets of the parts of the body: head of partition record p, its REACH entry e, INGRESS entry i. -/
def partBase (p : Nat) : Nat := bodyAt + 0x40 + 320 * p
def reachAt (p e : Nat) : Nat := partBase p + 64 + 16 * e
def ingressAt (i : Nat) : Nat := bodyAt + 0xA40 + 16 * i

/-- A REACH entry of an image, none when it is not VALID (Table 14-9). -/
def imageReach (img : List Byte) (p e : Nat) : Option ReachEntry :=
  let x := imageNat img (reachAt p e) 16
  if bitAt x 92 then
    some
      { pos := fld x 84 5
        base := fld x 0 42
        limit := fld x 42 42
        atomics := bitAt x 91
        stores := bitAt x 90
        loads := bitAt x 89 }
  else none

/-- A partition record of an image (Table 14-8). -/
def imagePart (img : List Byte) (p : Nat) : PartRecord :=
  let x := imageNat img (partBase p) 2
  { valid := bitAt x 15
    ramp := fld x 13 2
    spread := bitAt x 12
    function := fld x 8 4
    berths := BitVec.ofNat 8 x
    reach := (List.range 16).filterMap (imageReach img p) }

/-- An INGRESS entry of an image, none when it is not VALID (Table 14-9). -/
def imageIngress (img : List Byte) (i : Nat) : Option IngressEntry :=
  let x := imageNat img (ingressAt i) 16
  if bitAt x 123 then
    some
      { part := fld x 117 3
        srcBerths := BitVec.ofNat 8 (fld x 109 8)
        srcPos := BitVec.ofNat 25 (fld x 84 25)
        base := fld x 0 42
        limit := fld x 42 42
        atomics := bitAt x 122
        stores := bitAt x 121
        loads := bitAt x 120 }
  else none

/-- Entry f of the flat table: module × 64 + site, none when it is not VALID (Table 10-4). -/
def imageFlat (img : List Byte) (f : Nat) : Option Nat :=
  let x := imageNat img (flatAt f) 2
  if bitAt x 15 then some (fld x 0 11) else none

/-- SERIAL and SIGNER of an image (Table 14-10). -/
def imageSerial (img : List Byte) : Nat := imageNat img 8 8
def imageSigner (img : List Byte) : Nat := imageNat img 16 1

/-- The configuration an image holds. -/
def parseImage (img : List Byte) : ConfigImage :=
  { serial := imageSerial img
    signer := imageSigner img
    fabAddrMode := imageNat img bodyAt 1 % 2
    parts := (List.range 8).map (imagePart img)
    ingress := (List.range 64).filterMap (imageIngress img)
    flat := (List.range 4096).filterMap (fun f => match imageFlat img f with
      | some v => some (f, some v)
      | none => none)
    image := img }

/-! ## Validity (R435, R316, R320) -/

/-- A range lies outside every hole and the pool of Table 10-1, on the map of a variant. -/
def rangeMapped (part base limit : Nat) : Bool :=
  decide (limit < part * spanBytes) ||
  (decide (tileBase ≤ base) && decide (limit < tileBase + part * 0x12000000)) ||
  (decide (counterBase ≤ base) && decide (limit < counterBase + part * 0x8000)) ||
  decide (mirrorBase ≤ base)

/-- The failing fields of a valid REACH entry. -/
def reachEntryBad (s : State) (off : Nat) (r : ReachEntry) : List (Bool × Nat) :=
  [ (decide (24 < r.pos), off + 10),
    (r.base % 4096 != 0 || decide (r.limit < r.base) ||
      !rangeMapped (if r.pos = ownPos s then s.ident.part else 8) r.base r.limit, off),
    ((r.limit + 1) % 4096 != 0, off + 5) ]

/-- A byte of an image with bits of a mask set. -/
def byteBad (img : List Byte) (off mask : Nat) : Bool × Nat := (imageNat img off 1 &&& mask != 0, off)

/-- Reserved bytes from `lo` up to `hi`. -/
def bytesBad (img : List Byte) (lo hi : Nat) : List (Bool × Nat) :=
  (List.range (hi - lo)).map (fun i => byteBad img (lo + i) 0xFF)

/-- The failing fields of partition record p; a field that conflicts with an earlier record fails in the later one. -/
def partBad (s : State) (img : List Byte) (p : Nat) : List (Bool × Nat) :=
  let r := imagePart img p
  let earlier := ((List.range p).map (imagePart img)).filter (·.valid)
  let heads :=
    if r.valid then
      [ (earlier.any (fun q => q.berths &&& r.berths != 0#8) || !(setBits 8 r.berths.toNat).all (hasBerth s), partBase p),
        (earlier.any (fun q => q.spread != r.spread) || decide (8 < r.function) ||
          (r.function != 0 && earlier.any (fun q => q.function == r.function)), partBase p + 1) ]
    else []
  heads ++ bytesBad img (partBase p + 2) (partBase p + 64) ++
  (List.range 16).flatMap (fun e =>
    (match imageReach img p e with
     | some x => reachEntryBad s (reachAt p e) x
     | none => []) ++
    [byteBad img (reachAt p e + 11) 0xE0] ++ bytesBad img (reachAt p e + 12) (reachAt p e + 16))

/-- The failing fields of a valid INGRESS entry: its range lies on the own module (R435). -/
def ingressEntryBad (s : State) (off : Nat) (e : IngressEntry) : List (Bool × Nat) :=
  [ (e.base % 4096 != 0 || decide (e.limit < e.base) || !rangeMapped s.ident.part e.base e.limit, off),
    ((e.limit + 1) % 4096 != 0, off + 5) ]

/-- A flat entry names a site that is absent: a position above 24, a number above 48, or a site that the variant does not have;
another member's variant is judged as GL8, like R531 has it for REACH (R2, R320). -/
def flatAbsent (s : State) (v : Nat) : Bool :=
  decide (24 < v / 64) || !sitePresent (if v / 64 = ownPos s then s.ident.part else 8) (v % 64)

/-- The failing entries of the flat table: reserved bits, an absent site, and an endpoint that an earlier entry names
(R2, R320). -/
def flatBad (s : State) (img : List Byte) : List (Bool × Nat) :=
  (List.range 4096).flatMap (fun f =>
    [ (imageNat img (flatAt f) 2 &&& 0x7800 != 0, flatAt f + 1),
      (match imageFlat img f with
       | some v => flatAbsent s v || (List.range f).any (fun g => decide (imageFlat img g = some v))
       | none => false, flatAt f) ])

/-- The failing fields of the body. -/
def bodyBad (s : State) (img : List Byte) : List (Bool × Nat) :=
  [byteBad img bodyAt 0xFE] ++ bytesBad img (bodyAt + 1) (bodyAt + 64) ++
  (List.range 8).flatMap (partBad s img) ++
  (List.range 64).flatMap (fun i =>
    (match imageIngress img i with
     | some e => ingressEntryBad s (ingressAt i) e
     | none => []) ++ [byteBad img (ingressAt i + 15) 0xF0]) ++ flatBad s img

/-! ## The checks of R438 -/

/-- The failing fields of the header (Table 14-10). -/
def imageHeaderBad (img : List Byte) : List (Bool × Nat) :=
  [ (imageNat img 0 4 != 0x43574231, 0), (imageNat img 4 4 != imageBytes, 4), (decide (4 < imageSigner img), 16),
    (imageNat img 17 1 != 1, 17) ] ++ bytesBad img 18 64

/-- The signature verifies (R441): with the vendor key while no operator key is enrolled, otherwise with the enrolled key
that SIGNER names. -/
def signatureGood (s : State) (img : List Byte) : Bool :=
  let signer := imageSigner img
  let good (key : List Byte) : Bool := ecdsaVerify key (img.take signatureAt) ((img.drop signatureAt).take 96)
  if s.sec.keys = [] then signer == 0 && good vendorKey
  else signer != 0 && decide (tabGet [] s.sec.keys (signer - 1) ≠ []) && good (tabGet [] s.sec.keys (signer - 1))

/-- SERIAL is above that of the active configuration. -/
def serialAbove (s : State) (img : List Byte) : Bool :=
  match s.sec.activeCfg with
  | some c => decide (c.serial < imageSerial img)
  | none => true

/-- The offset of the first offending field of an image, none when it passes (R438). -/
def imageFault (s : State) (img : List Byte) : Option Nat :=
  match firstBad (imageHeaderBad img) with
  | some o => some o
  | none =>
    if !signatureGood s img then some signatureAt
    else if !serialAbove s img then some 8
    else firstBad (bodyBad s img)

/-! ## Stage B8 (R436, R437, R439) -/

/-- The default configuration. -/
def defaultConfig (s : State) : ConfigImage :=
  { parts := [{ valid := true
                ramp := 2
                berths := BitVec.ofNat 8 (2 ^ s.ident.part - 1) }] }

/-- The Breakwater is written from a configuration and sealed. -/
def sealWith (s : State) (c : ConfigImage) : State := { s with sec := { s.sec with breakwater := c, sealed := true } }

/-- Fault event 0x0701. -/
def configEvent (s : State) (serial : Nat) : State :=
  raise s
    { code := 0x0701
      arg := serial }

/-- A configuration is valid for this start: its body keeps the rules of R435, some of which depend on the own position. -/
def configValid (s : State) (c : ConfigImage) : Bool := firstBad (bodyBad s c.image) = none

/-- Without a staged image that serves: the active configuration, or, with none that is valid, the default one with its event
(R437, Table 14-5). -/
def useActive (s : State) : State :=
  match s.sec.activeCfg.filter (configValid s) with
  | some c => sealWith s c
  | none => configEvent (sealWith s (defaultConfig s)) 0

/-- The configuration of this start goes into the Breakwater, which is then sealed. -/
def applyConfig (s : State) : State :=
  match s.sec.staged with
  | none => useActive s
  | some c =>
    let s1 := { s with sec := { s.sec with staged := none } }
    if imageFault s c.image = none then
      let t := sealWith s1 c
      { t with sec := { t.sec with activeCfg := some c } }
    else useActive (configEvent s1 c.serial)

end Sys2Proof.Machine
end

