-- ==== Sys2Proof/Machine/Privileged.lean ====
section
/-! DEFINITION. The privileged opcodes (R245, R440, R447, R448, Tables 07-15 and 14-11) and BREAKWATER_WRITE (R436). -/

namespace Sys2Proof.Machine

/-- What the Harbourmaster's read of a range meets. -/
def hmReads (s : State) (a len : Nat) : Option (Nat × Nat) := rangeStatus (seenFrom s hmSite) .load a len

/-- The parts of a range of the own module, sector by sector, that give no answer (R26). -/
def silentParts (s : State) (a len : Nat) : List (Nat × Nat) :=
  (sectorParts a len).filter (fun p => addrPos p.1 == ownPos s && addrSilent s (addrLocal p.1))

/-- Blunen reads a range for a request: where a stack gives no answer, one load for each sector of it goes out, whose bound ends
it, and the request waits until the stack is held dead or answers again (R26); otherwise `f` goes on unless the read meets
something. -/
def hmFetch (s : State) (a len : Nat) (f : State × Option MbxResult) : State × Option MbxResult :=
  if silentParts s a len = [] then
    (match hmReads s a len with
     | some e => (s, some ⟨e.1, e.2, []⟩)
     | none => f)
  else
    ((silentParts s a len).foldl (fun t p =>
      if t.reqs.out.any (fun o => o.req.srcSite == hmSite && o.req.addr == p.1 / 64 * 64) then t
      else
        issueWork t
          { kind := .load
            tag := freeTag t
            srcCtx := none
            gen := 0
            epoch := 0
            srcPos := ownPos t
            srcSite := hmSite
            addr := p.1 / 64 * 64
            size := 64 } {}) s, none)

/-- KEY_ENROL: writes or clears an operator key. -/
def execKeyEnrol (r : Route) (s : State) : Out :=
  blunen s r 0x0F00 (fun a =>
    let slot := fld a.params 0 8
    let put (k : List Byte) : State := { s with sec := { s.sec with keys := tabSet [] s.sec.keys slot k } }
    if fld a.params 8 8 = 1 then (put [], okReply [])
    else hmFetch s (fld a.params 64 64) 96 (put (loadBytes s (fld a.params 64 64) 96), okReply []))

/-- The partitions of the Breakwater. -/
def validParts (s : State) : List Nat := (List.range 8).filter (fun p => (partRecord s p).valid)

/-- Every partition enters a partition reset; Table 16-5 gives such a reset no PART_CAUSE code. -/
def resetAllParts (s : State) : State := (validParts s).foldl (fun t p => beginPartitionReset t p 0) s

/-- SECURE_ERASE: a partition reset of every partition, and an erase is pending. -/
def execSecureErase (r : Route) (s : State) : Out :=
  blunen s r 0x0F01 (fun _ =>
    let t := resetAllParts s
    ({ t with sec := { t.sec with erasePending := true } }, okReply []))

/-- LIFETIME_RESET: the next module reset clears the retirements. -/
def execLifetimeReset (r : Route) (s : State) : Out :=
  blunen s r 0x0F02 (fun _ => ({ s with sec := { s.sec with lifetimeReset := true } }, okReply []))

/-- FW_ROLLBACK: the release in SLOT becomes the image to boot, and the floor, at the next module reset. -/
def execFwRollback (r : Route) (s : State) : Out :=
  blunen s r 0x0F03 (fun a =>
    ({ s with sec := { s.sec with
        rollback := some (fld a.params 0 8, fld a.params 16 8, fld a.params 8 8) } }, okReply []))

/-- CONFIG_STAGE: an image that passes R438 is staged. -/
def execConfigStage (r : Route) (s : State) : Out :=
  blunen s r 0x0F04 (fun a =>
    let addr := fld a.params 0 64
    let img := loadBytes s addr imageBytes
    hmFetch s addr imageBytes (match imageFault s img with
      | some o => (s, some ⟨S_BAD_PARAM, 0x8000 + o, []⟩)
      | none => ({ s with sec := { s.sec with staged := some (parseImage img) } }, okReply [])))

/-- The function that asks by a route. -/
def routeFn (s : State) (r : Route) : Nat :=
  match r with
  | .mailbox fn => fn
  | .ring id => ctxFn s id.ctx

/-- Debug is enabled once no partition is in a reset any more: the event records the enabling function, and the request
is answered (Table 14-12 step 5). -/
def debugSettles (s : State) : State :=
  match s.sec.debugWait with
  | none => s
  | some r =>
    if (List.range 8).any (fun p => (getPart s p).resetting) then s
    else
      let t := raise { s with sec := { s.sec with debug := true, debugWait := none } }
        { code := 0x0703
          arg := routeFn s r }
      answer t r ⟨S_OK, 0, []⟩

/-- The berths of no partition: their DRAM spans and their tiles become zero too (Table 14-12 step 4). -/
def zeroUnowned (s : State) : State :=
  ((List.range 8).filter (fun b => berthPart s b = none)).foldl (fun t b => zeroBerth t true b) s

/-- DEBUG_ENABLE: every partition enters a partition reset, and what belongs to none becomes zero as well; debug is enabled when
the resets have ended. -/
def execDebugEnable (r : Route) (s : State) : Out :=
  blunen s r 0x0F05 (fun _ =>
    if s.sec.debugWait ≠ none then (s, none)
    else
      let t := resetAllParts (zeroUnowned (markServed s r))
      (debugSettles { t with sec := { t.sec with debugWait := some r } }, none))

/-- BREAKWATER_WRITE: at stage B8 boot code writes the Breakwater and sets the seal; at any other time nothing is
written. -/
def execBreakwaterWrite (s : State) : Out :=
  .next (if decide (s.rst.stage = 8) && !s.rst.ready && !s.sec.sealed then applyConfig s else s)

end Sys2Proof.Machine
end

