-- ==== Sys2Proof/Machine/ResetBoot.lean ====
section
/-! DEFINITION. Reset, boot and recovery (spec/14_reset_boot_security.md, spec/15_calibration_test_recovery.md): the reset
sources (R421 to R424), release and boot (R426 to R429), partition resets (R425), the ladder (R467, R470), the recovery of
sites (R466), the Harbourmaster pair (R475, R478) and the tamper seal (R448). -/

namespace Sys2Proof.Machine

/-! ## Reset sources (Table 14-1) -/

/-- The module has its supplies and RESET_N is high: firmware can run, and boot can go on (R394, R422). -/
def powered (s : State) : Bool := s.power.alwaysOn && !s.power.brownOut && !s.rst.heldByPin

/-- RESET_N: low for at least 1 µs resets the module and holds it; boot begins on the rising edge (R422). -/
def resetPin (s : State) (level : Bool) (lowFor : Nat) : State :=
  if level then
    if s.rst.heldByPin then { s with rst := { s.rst with heldByPin := false, time0 := now s } } else s
  else if lowFor < 1000 ∨ s.rst.heldByPin = true ∨ s.power.alwaysOn = false then s
  else
    let t := moduleReset s 3
    { t with rst := { t.rst with heldByPin := true } }

def execResetN (level : Bool) (lowFor : Nat) (s : State) : Out := .next (resetPin s level lowFor)

/-- WATCHDOG: 2 s without service of the Blunen watchdog. -/
def execWatchdog (s : State) : Out := .next (if powered s then dumpReset s 4 else s)

/-- HM_LOCKUP: neither Harbourmaster instance beats for 2 ms. -/
def execHmLockup (s : State) : Out := .next (if powered s then dumpReset s 8 else s)

/-- JTAG_RESET_INSTRUCTION: accepted only while debug is enabled (R449, R511). -/
def execJtagResetInstruction (s : State) : Out := .next (if powered s && s.sec.debug then moduleReset s 6 else s)

/-- The MSI-X table of a function is as after its reset. -/
def clearMsix (s : State) (fn : Nat) : State :=
  { s with io := { s.io with msix := tabClear (fun k => k / 128 == fn) s.io.msix } }

/-- PCIE_HOT_RESET: hot, link-down and physical-function resets reset the PCIe domain; every context with a ring in host
memory ends as by CTX_ABORT, and the virtual functions are disabled (R424). -/
def pcieReset (s : State) : State :=
  let hit := (List.range 64).filter (fun c =>
    decide ((getCtx s c).state ≠ .closed) && decide ((getCtx s c).place ≠ 0))
  hit.foldl abortCtx { s with io := { s.io with msix := [], numVFs := 0 } }

def execPcieHotReset (_kind : PcieReset) (s : State) : Out :=
  .next (if powered s && s.rst.pcieUp then pcieReset s else s)

/-- The partition of a virtual function. -/
def vfPart (s : State) (vf : Nat) : Option Nat := (validParts s).find? (fun p => partFn s p == vf)

/-- VF_FLR: the function-level reset of a virtual function is a partition reset of its partition, with cause 0x12. -/
def execVfFlr (vf : Nat) (s : State) : Out :=
  guarded (decide (1 ≤ vf) && decide (vf ≤ 8))
    (match vfPart s vf with
     | some p => if powered s && s.rst.pcieUp && fnPresent s vf then beginPartitionReset (clearMsix s vf) p 3 else s
     | none => s)

/-- PARTITION_RESET: `cause` is the code 0x10, 0x11 or 0x12 of Table 14-1. During a module reset, whose Breakwater is not yet
written, the source is dropped and counted (R423). -/
def execPartitionReset (part cause : Nat) (s : State) : Out :=
  guarded (decide (part < 8))
    (if ((partRecord s part).valid || !s.rst.ready) && powered s && decide (0x10 ≤ cause) && decide (cause ≤ 0x12) then
      beginPartitionReset s part (cause - 0xF)
    else s)

/-- A berth whose partition reset has ended: a berth that was shut down for heat enters its hold, any other serves again
(R416). -/
def berthBack (s : State) (b : Nat) : State :=
  let s1 := send s (.epoch b (getSite s b).epoch)
  if (getBerth s1 b).stopped then updBerth s1 b (fun x => { x with hold := true }) else s1

/-- PARTITION_RESET_DONE. -/
def partitionResetDone (s : State) (p : Nat) : State :=
  if (getPart s p).resetting then
    let s1 := updPart (endRung s 3 p) p (fun x => { x with resetting := false })
    let bs := partBerths s1 p
    let s2 := blockReset s1 (fun d => bs.any (fun b => domOfBerth b d))
    debugSettles (bs.foldl (fun t b => berthBoundaries (berthBack t b) b) s2)
  else s

def execPartitionResetDone (part : Nat) (s : State) : Out := guarded (decide (part < 8)) (partitionResetDone s part)

/-! ## Release from reset (Table 14-3, R349, R350, R367) -/

/-- The earliest time of a release step after time 0, in ns. -/
def releaseAt (k : Nat) : Nat :=
  if k ≤ 3 then 32000 * (k - 1) else 200000000 + 32000 * (k - 4)

/-- The link that a module returning to a harbour of five or more brings up alone: to the master, which is the lowest member that
lives, so to the lowest other member whose link has not failed to come up (R356, R367; log entry 93). -/
def firstLink (own : Nat) (members tried : List Nat) : Option Nat :=
  let others := members.filter (· != own)
  match others.filter (fun p => !tried.contains p) ++ others with
  | p :: _ => some (linkOf own p)
  | [] => none

/-- Link k trains when the quays are released: its partner is a member, and its end leaves link reset on its own (R350, R351,
R366, R367). Position 0 as master at power-on lets every partner bring up its first link (log entry 93). -/
def trainsAtRelease (own : Nat) (members : List Nat) (leads : Bool) (k : Nat) : Bool :=
  members.contains (partnerOf own k) && (decide (members.length ≤ 4) || leads || decide (firstLink own members [] = some k))

/-- HBR_POS and HBR_MEMBERS are latched; a module without a valid place runs as a harbour of one (R349, R350). Position 0 is the
master from power-on, and after another reset first returns as a slave (R357); a harbour of which it is no member has no master
before a claim (R356; log entry 92). -/
def latchHarbour (s : State) : State :=
  let h := s.harbour
  let pos := h.hbrPos.toNat % 32
  let mem := h.hbrMembers.toNat % 2 ^ 25
  let good := decide (pos ≤ 24) && bitAt mem pos
  if h.hbrPos.getLsbD 7 && good then
    let ms := setBits 25 mem
    let others := ms.filter (· != pos)
    let leads := others.isEmpty || (decide (pos = 0) && decide (s.rst.cause = 1))
    let lost := !others.isEmpty && !bitAt mem 0
    let t := { s with harbour := { h with
        pos := pos
        members := BitVec.ofNat 25 mem
        posValid := true
        latched := true
        master := if leads then pos else if pos = 0 then others.headD 0 else ms.headD 0
        noMaster := lost
        rejoining := !leads
        lastSync := now s
        links := tabBuild (fun _ => {}) 24 (fun k =>
          { state := if ms.contains (partnerOf pos k) then .linkReset else .disabled, since := now s }) } }
    let u := if lost then memberEvent t pos 0 else t
    ((List.range 24).filter (trainsAtRelease pos ms leads)).foldl startTraining u
  else
    let t := { s with harbour := { h with
        pos := 0
        members := 1
        posValid := false
        latched := true
        master := 0 } }
    if h.hbrPos.getLsbD 7 then
      raise t
        { code := 0x0503
          unit := pos
          arg := mem }
    else t

/-- RELEASE_STEP: the next step of Table 14-3, at its time; steps 4 to 9 are taken by boot code, which has been verified. -/
def releaseStep (s : State) : State :=
  let k := s.rst.step + 1
  if powered s && decide (k ≤ 9) && decide (s.rst.time0 + releaseAt k ≤ now s) && (decide (k ≤ 3) || decide (s.rst.stage = 1)) then
    let t := { s with rst := { s.rst with step := k } }
    if k = 2 then { t with tide := { t.tide with refRunning := true, refTries := 0 } }
    else if k = 8 then latchHarbour (loadAll t)
    else if k = 9 then { t with rst := { t.rst with pcieUp := true, pcieAt := now s } }
    else t
  else s

def execReleaseStep (s : State) : Out := .next (releaseStep s)

/-! ## Boot stages (Tables 14-4 and 14-5) -/

/-- The next stage is in progress. -/
def toStage (s : State) (k : Nat) : State := { s with rst := { s.rst with stage := k } }

/-- Fault event 0x0702 of a boot slot. -/
def slotEvent (s : State) (slot : Nat) : State :=
  raise s
    { code := 0x0702
      unit := slot }

/-- B0: ROM verifies boot code in slot A, or else slot B; with neither, the module stays in ROM recovery. HM-A is active
when it passes its ROM self-check (R475). -/
def bootB0 (s : State) (o : BootObs) : State :=
  let s1 := { s with recovery := { s.recovery with
      active := if o.romHmA && !s.recovery.hmA.retired then 0 else 1 } }
  if o.slotA then toStage s1 1
  else if o.slotB then toStage (slotEvent s1 1) 1
  else slotEvent { s1 with rst := { s1.rst with romRecovery := true } } 1

/-- MOD_ID_REV (Table 16-3). -/
def modIdRev (s : State) : Nat :=
  0x4853 <<< 48 + s.ident.part <<< 40 + 0x11 <<< 32 + berthRevMin s <<< 24 + berthRevMax s <<< 16 + stackRevMin s <<< 8 +
  stackRevMax s

/-- A die whose identity fuses cannot be read counts as the lowest revision of its type, and is retired (R432). -/
def unreadableDie (s : State) (k : Nat) : State :=
  match siteKind k with
  | .berth b =>
    if hasBerth s b then loseBerth { s with ident := { s.ident with berthRev := tabSet 0x21 s.ident.berthRev b 0x20 } } b
    else s
  | .stack n =>
    if hasStack s n then
      loseStack { s with ident := { s.ident with stackRev := tabSet 0x11 s.ident.stackRev n 0x10 } } n false
    else s
  | _ => s

/-- B3: the identity fuses are read, and MOD_ID_REV takes its value (R432). -/
def bootB3 (s : State) (o : BootObs) : State :=
  let s1 := o.unreadable.foldl unreadableDie s
  toStage { s1 with ident := { s1.ident with modIdRev := BitVec.ofNat 64 (modIdRev s1) } } 4

/-- The lane choice of R302: the lanes below `n` that serve, the lowest spares that serve in place of the others, and the
spares left. -/
def chooseLanes (n : Nat) (spares bad : List Nat) : List Nat × List Nat :=
  let keep := (List.range n).filter (fun l => !bad.contains l)
  let free := spares.filter (fun l => !bad.contains l)
  (keep ++ free.take (n - keep.length), free.drop (n - keep.length))

/-- The lanes of a pair direction are chosen; one that is degraded or lost raises its event (R302, R303, R309). -/
def choosePair (failed : List (Nat × Nat × Nat)) (s : State) (pr : Nat × Nat) : State :=
  let p := getPair s pr.1 pr.2
  let bad := p.retired ++ ((s.ident.fusePlanes ++ failed).filter (fun f => f.1 == pr.1 && f.2.1 == pr.2)).map (·.2.2)
  if bad = [] then s
  else
    let c := chooseLanes 16 [16, 17] bad
    settleWidth (updPair s pr.1 pr.2 (fun x => { x with stripe := c.1, spares := c.2 })) pr.1 pr.2 16

/-- The lanes of a bundle are chosen, and a near link without a bundle loses its stack (R302, R307). -/
def chooseBundle (failed : List (Nat × Nat × Nat)) (s : State) (nk : Nat × Nat) : State :=
  let x := getBundle s nk.1 nk.2
  let bad := x.retired ++ ((s.ident.fuseNear ++ failed).filter (fun f => f.1 == nk.1 && f.2.1 == nk.2)).map (·.2.2)
  if bad = [] then s
  else
    let c := chooseLanes 32 [32, 33] bad
    let s1 := updBundle s nk.1 nk.2 (fun y => { y with active := c.1, spares := c.2 })
    let s2 := if c.1.length < 32 then
        raise s1
          { code := 0x0104
            site := stackSite nk.1
            unit := nk.2
            arg := c.1.length }
      else s1
    if (List.range 10).all (fun j => (getBundle s2 nk.1 j).active.isEmpty) then
      loseStack (updStack s2 nk.1 (fun y => { y with nearLost := true })) nk.1 true
    else s2

/-- The lanes that fail the margin test (R300): fabric lanes, near lanes, and connections with an error in either run. -/
def failedFabric (o : BootObs) : List (Nat × Nat × Nat) :=
  (o.lanes.filter (fun f => !fabricMargin f.eye f.oma)).map (fun f => (f.a, f.b, f.lane))
def failedNear (o : BootObs) : List (Nat × Nat × Nat) :=
  (o.near.filter (fun f => !nearMargin f.eye)).map (fun f => (f.a, f.b, f.lane))
def failedConns (o : BootObs) (n c : Nat) : List Nat :=
  (o.conns.filter (fun f => f.stack == n && f.channel == c && !(f.early == 0 && f.late == 0))).map (·.conn)

/-- Step 1 of the margin test: every lane is trained, its rings locked and its pair direction deskewed (R301). -/
def trainLanes (s : State) : State :=
  { s with
    rst := { s.rst with trained := now s }
    pairs := tabMap {} (fun _ p => { p with rings := [], modRings := [], deskewed := true, trained := none }) s.pairs }

/-- B4: the start-up margin test measures the lanes and chooses them (R301, R302). -/
def bootB4 (s : State) (o : BootObs) : State :=
  let sites := sitesOf s
  let prs := sites.flatMap (fun a => (sites.filter (· != a)).map (fun b => (a, b)))
  let s1 := prs.foldl (choosePair (failedFabric o)) (trainLanes s)
  let nks := (List.range (stackCount s)).flatMap (fun n => (List.range 10).map (fun k => (n, k)))
  let s2 := nks.foldl (chooseBundle (failedNear o)) s1
  let ncs := (List.range (stackCount s)).flatMap (fun n => (List.range 16).map (fun c => (n, c)))
  toStage (ncs.foldl (fun t nc => chooseConns (failedConns o nc.1 nc.2) t nc.1 nc.2) s2) 5

/-- The release in a firmware slot. -/
def slotRelease (s : State) (k : Nat) : Nat × Nat := s.sec.slots.getD k (0, 0)

/-- B5: the Blunen image of the boot slot, or of the other one, that verifies and stands at or above the floor is loaded; the
floor rises to the one it declares. With neither the module stops here (R429, R442). The manual gives a slot's image a major and a
minor number only; the build that FW_INFO reports is free (log entry 31). -/
def bootB5 (s : State) (o : BootObs) : State :=
  let good (k : Nat) : Bool := (if k = 0 then o.slotA else o.slotB) && !releaseLt (slotRelease s k) s.sec.floor
  let load (t : State) (k : Nat) : State :=
    toStage (nextFresh { t with sec := { t.sec with
        release := ((slotRelease t k).1, (slotRelease t k).2, (Config.bootBuild t.fresh).toNat)
        floor := if releaseLt t.sec.floor o.floor then o.floor else t.sec.floor } }) 6
  let k := s.sec.bootSlot
  if good k then load s k
  else if good (1 - k) then load (slotEvent s (1 - k)) (1 - k)
  else slotEvent { s with rst := { s.rst with stalledB5 := true } } (1 - k)

/-- A Lighthouse has failed at boot: the other one of its pair is active, and with none left the user of the pair is lost
(R104, R480). -/
def lhAtBoot (s : State) (lh : LighthouseId) : State :=
  let k := 1 - LhNumber lh
  let gone := (getLh s (LhOther lh)).retired
  match lh with
  | .engine b e _ => if gone then leaveService s b e 4 else updEngine s b e (fun x => { x with lhActive := k })
  | .fabric site _ => if gone then loseFabric s site else updPort s site (fun p => { p with lhActive := k })
  | .link q _ => if gone then failQuayLinks s q else updQuayLh s q (fun p => { p with lhActive := k })

/-- An element that fails its start-up test is retired by the procedures of chapter 15. -/
def failedAtBoot (s : State) (el : Element) : State :=
  if !hasElement s el then s
  else match el with
    | .engine b e => leaveService s b e 7
    | .tile b t => failTile s b t
    | .router b => loseBerth s b
    | .lighthouse lh => lhAtBoot (retireLh s lh) lh
    | _ => s

/-- A sensor that fails its start-up test stays suspect (R277, R411). -/
def sensorAtBoot (s : State) (f : Nat × Nat) : State :=
  match siteKind f.1 with
  | .berth b => updBerth s b (fun x => { x with suspect := insertNat f.2 x.suspect })
  | .stack n =>
    if f.2 < 64 then updStack s n (fun k => { k with layers := tabUpd {} k.layers (f.2 / 4) (fun y =>
      { y with suspect := insertNat (f.2 % 4) y.suspect }) })
    else stackSensor s n f.2
  | .quay q => { s with thermal := { s.thermal with suspect := insertNat q s.thermal.suspect } }
  | _ => { s with thermal := { s.thermal with suspect := insertNat (8 + f.2) s.thermal.suspect } }

/-- The calibration of an engine at boot, with its tables and its figures. -/
def calibratedAtBoot (s : State) (k : Nat) (fig : List Nat) : State :=
  { s with
    engines := tabUpd {} s.engines k (fun y =>
      { y with
        calTemp := y.temp
        calTide := now s
        stale := false
        tables := s.fresh + 1
        newTables := none
        lineNorm := []
        tapOff := []
        standbyNorm := []
        enob := fig })
    recovery := { s.recovery with nvCal := tabSet 0 s.recovery.nvCal k (tabGet {} s.engines k).temp } }

/-- An engine in service is calibrated at boot (R427, R452). One whose repeated measurement misses the minimum of a class leaves
service; what the ring sweep between the two found comes with the failed tests (R453). -/
def calibrateAtBoot (o : BootObs) (s : State) (k : Nat) : State :=
  let x := tabGet {} s.engines k
  if x.rotation = .left then s
  else match o.enobs.find? (fun e => e.1 == k) with
    | some e =>
      let t := calibratedAtBoot s k e.2
      if measurementPasses (classCount s) e.2 then t else leaveService t (k / 16) (k % 16) 6
    | none => calibratedAtBoot s k x.enob

/-- B6: the start-up self-test and the full calibration of the engines. -/
def bootB6 (s : State) (o : BootObs) : State :=
  let s1 := o.failedSensors.foldl sensorAtBoot (o.failedTests.foldl failedAtBoot s)
  toStage (nextFresh ((List.range (16 * s.ident.part)).foldl (calibrateAtBoot o) s1)) 7

/-- B7: a new DRAM key for every partition; DRAM holds zero plain text (R443, R444). -/
def bootB7 (s : State) : State := toStage ((List.range 8).foldl (fun t p => updPart t p (fun x => { x with key := x.key + 1 })) s) 8

/-- B8: the Breakwater is written and sealed, if BREAKWATER_WRITE has not done so, and the number of virtual functions is
fixed (R436, R439, R513; log entry 48). -/
def bootB8 (s : State) : State :=
  let t := if s.sec.sealed then s else applyConfig s
  toStage { t with io := { t.io with numVFs := vfCount t } } 9

/-- B9: each link of the harbour that is still down raises its event (R427). -/
def bootB9 (s : State) : State :=
  toStage ((List.range 24).foldl (fun t k =>
    let l := getLink t k
    if l.state = .disabled ∨ l.state = .up then t
    else raise t
      { code := 0x0107
        site := quaySite (k / 3)
        unit := k
        arg := l.lanes }) s) 10

/-- The entries of the error log between the previous READY and the last module reset, the latest 4096 (R485). -/
def replayList (s : State) : List FaultEv :=
  let first := s.faults.logCount - s.faults.log.length
  let span := (s.faults.log.zipIdx.filter (fun e =>
    decide (s.rst.readyLog ≤ first + e.2) && decide (first + e.2 < s.rst.resetLog))).map (·.1)
  (span.drop (span.length - 4096)).map (fun e => { e with replayed := true })

/-- B10: READY. Entries of the error log wait to be delivered, and the mailboxes' waiting requests are checked (R428,
R485). -/
def bootReady (s : State) : State :=
  let s1 := { s with
    rst := { s.rst with
      ready := true
      stage := 10
      readyTide := now s
      failedResets := 0
      readyLog := s.faults.logCount }
    faults := { s.faults with replay := replayList s, replayDone := true } }
  (List.range 9).foldl (fun t fn => if (getMbx t fn).pending then mbxCheck t fn else t) s1

/-- Stage B2: the PCIe link is up. It trained in SRIS where REFCLK is absent or outside 100 MHz ± 300 ppm (R515). -/
def bootB2 (s : State) (o : BootObs) : State :=
  let s1 := toStage s 3
  { s1 with io := { s1.io with sris := o.refclk.all (fun d => decide (300 < d.natAbs)) } }

/-- BOOT_STAGE_DONE: the stage in progress ends. B1 ends when every release step is taken, B2 when the generators are
locked. -/
def bootStageDone (s : State) (o : BootObs) : State :=
  if !powered s || s.rst.ready || s.rst.romRecovery || s.rst.stalledB5 then s
  else match s.rst.stage with
    | 0 => if s.rst.step < 3 then s else bootB0 s o
    | 1 => if s.rst.step < 9 then s else toStage s 2
    | 2 => if s.tide.locked then bootB2 s o else s
    | 3 => bootB3 s o
    | 4 => bootB4 s o
    | 5 => bootB5 s o
    | 6 => bootB6 s o
    | 7 => bootB7 s
    | 8 => bootB8 s
    | 9 => bootB9 s
    | _ => bootReady s

def execBootStageDone (obs : BootObs) (s : State) : Out := .next (bootStageDone s obs)

/-! ## The ladder (R467 to R470) -/

/-- READY_TIMEOUT: no READY and no recovery state of Table 14-5 within 5 s. The first such reset is followed by a further
module reset; the second in a row by a crash dump and PWR_CYCLE_REQ (rungs 4 and 5). -/
def readyTimeout (s : State) : State :=
  if !powered s || s.rst.ready || s.rst.romRecovery || s.rst.stalledB5 || s.power.cycleReq ||
      decide (now s < s.rst.time0 + 5000000000 + s.rst.allowance) then s
  else if s.rst.failedResets = 0 then
    let t := dumpReset (takeRung s 4 0 0 hmSite) 0x11
    { t with rst := { t.rst with failedResets := 1 } }
  else
    let t := writeDump (takeRung s 5 0 0 hmSite)
    { t with
      power := { t.power with cycleReq := true }
      faults := t.faults.flush
      rst := { t.rst with failedResets := s.rst.failedResets + 1 } }

def execReadyTimeout (s : State) : Out := .next (readyTimeout s)

/-- The time within which a rung ends, in ns (Table 15-5). -/
def rungLimit (rung : Nat) : Nat := if rung = 1 then 1000000 else if rung = 2 then 5000000 else 200000000

/-- ESCALATION_RUNG_DEADLINE: a rung that has not ended within its limit is followed by the next one of Table 15-5; an
engine whose reset did not end leaves service. -/
def rungDeadline (s : State) (rung reach unit : Nat) : State :=
  match s.recovery.rungs.find? (fun r => r.1 == rung && r.2.1 == reach && r.2.2.1 == unit) with
  | none => s
  | some r =>
    if now s < r.2.2.2 + rungLimit rung then s
    else
      let s1 := endRung s rung reach
      let up (b : Nat) (t : State) : State := resetBerthRung (takeRung t 3 ((berthPart t b).getD (8 + b)) unit b) b 2
      match rung with
      | 1 => up (reach / 8) s1
      | 2 => up (reach / 16) (leaveService s1 (reach / 16) (reach % 16) 9)
      | 3 => dumpReset (takeRung s1 4 0 unit hmSite) 0x11
      | _ => s

def execEscalationRungDeadline (rung reach unit : Nat) (s : State) : Out := .next (rungDeadline s rung reach unit)

/-! ## The Harbourmaster pair (R475, R478) -/

def getHm (s : State) (i : Nat) : HmInst := if i = 0 then s.recovery.hmA else s.recovery.hmB
def updHm (s : State) (i : Nat) (f : HmInst → HmInst) : State :=
  { s with recovery :=
      if i = 0 then { s.recovery with hmA := f s.recovery.hmA } else { s.recovery with hmB := f s.recovery.hmB } }

/-- Fault event 0x0402 about an instance. -/
def hmEvent (s : State) (i outcome : Nat) : State :=
  raise s
    { code := 0x0402
      outcome := outcome
      site := hmSite
      unit := i }

/-- HM_SWITCHOVER: the standby takes control; the instance that failed runs its self-test, or is retired at its second
failure within 24 h. Without a standby nothing takes over, and the lock-up reset follows (R475). -/
def hmSwitchover (s : State) : State :=
  let a := s.recovery.active
  let b := 1 - a
  if (getHm s b).retired || (getHm s b).testing then s
  else
    let l := within dayNs (now s) (getHm s a).faults ++ [now s]
    let s1 := { s with recovery := { s.recovery with active := b, lastSwitch := now s } }
    let s2 := hmEvent s1 b 2
    if 2 ≤ l.length then
      hmEvent (retire (updHm s2 a (fun h => { h with faults := l, retired := true })) hmSite ⟨3, 0x0402, a, 0, 0⟩) a 2
    else orderTest (updHm s2 a (fun h => { h with faults := l, testing := true })) (.harbourmaster a) 0 none

def execHmSwitchover (_fatal : Bool) (s : State) : Out := .next (if powered s then hmSwitchover s else s)

/-- HM_HANDBACK: after 10 s as a stable standby, HM-A takes control back (R478). -/
def hmHandback (s : State) : State :=
  let h := s.recovery.hmA
  if s.recovery.active = 1 ∧ h.retired = false ∧ h.testing = false ∧ h.standbySince + 10000000000 ≤ now s then
    let s1 := { s with recovery := { s.recovery with active := 0, lastSwitch := now s } }
    hmEvent (updHm s1 1 (fun x => { x with standbySince := now s })) 0 0
  else s

def execHmHandback (s : State) : Out := .next (hmHandback s)

/-! ## Recovery of sites (R466) -/

/-- A dead site is live again, its role epoch one higher (R338). -/
def siteBack (s : State) (k : Nat) : State :=
  let s1 := updSite s k (fun x => { x with dead := false, probing := false, epoch := x.epoch + 1 })
  siteEvent (send s1 (.epoch k (getSite s1 k).epoch)) k 5

/-- The fabric port of a site still serves: it has a pair left in each direction. -/
def portServes (s : State) (k : Nat) : Bool :=
  (othersOf s k).any (fun o => !(getPair s k o).lost) && (othersOf s k).any (fun o => !(getPair s o k).lost)

/-- SITE_RECOVERY: the recovery of a dead site ends. A berth in thermal hold is not recovered this way. -/
def siteRecovery (s : State) (k : Nat) (pass : Bool) : State :=
  if !(getSite s k).dead then s
  else match siteKind k with
    | .berth b =>
      if (getBerth s b).hold || berthResetting s b then s
      else if pass then siteBack (endRung s 3 (8 + b)) k
      else loseBerth (endRung s 3 (8 + b)) b
    | .stack n =>
      if pass then siteBack (blockReset s (· == stackDom n)) k else loseStack s n (portServes s k)
    | .quay q =>
      if pass then siteBack (freeQuay (blockReset s (· == quayDom q)) q) k else loseQuay s q
    | _ =>
      if pass then siteBack (hmSwitchover (blockReset s (fun d => d == 1 || d == 2))) k
      else dumpReset (takeRung s 4 0 hmSite hmSite) 0x11

def execSiteRecovery (site : Nat) (pass : Bool) (s : State) : Out := guarded (hasSite s site) (siteRecovery s site pass)

/-! ## The tamper seal (R448) -/

/-- TAMPER_SEAL_BREAK: fused for good. -/
def execTamperSealBreak (s : State) : Out := .next { s with sec := { s.sec with sealBroken := true } }

end Sys2Proof.Machine
end

