-- ==== Sys2Proof/Machine/Harbour.lean ====
section
/-! DEFINITION. The harbour (spec/11_harbour.md) and harbour Tide (spec/12_clocks_tide.md): link bring-up and failure (R352
to R354), link resets (R366, R367), relay routes (R361 to R365), liveness (R360), the master (R356, R357) and the Tide servo
(R358, R387 to R390). Times of the Tide exchange are in 1/16 ns. -/

namespace Sys2Proof.Machine

/-! ## Members, links and routes as this module knows them -/

/-- The route of a pair. -/
def routeKey (p q : Nat) : Nat := min p q * 32 + max p q
def getRoute (s : State) (p q : Nat) : Route2 := tabGet .direct s.harbour.routes (routeKey p q)

/-- The direct link of a pair is up, as far as this module knows: its own links by their state, the others by their route. -/
def pairUp (s : State) (p q : Nat) : Bool :=
  if p = ownPos s then decide ((getLink s (linkTo s q)).state = .up)
  else if q = ownPos s then decide ((getLink s (linkTo s p)).state = .up)
  else decide (getRoute s p q = .direct)

/-- The pair of a route key, and two members of the harbour, the lower first. -/
def pairOf (k : Nat) : Nat × Nat := (k / 32, k % 32)
def isPair (s : State) (p q : Nat) : Bool := decide (p < q) && (memberList s).contains p && (memberList s).contains q

/-- The drain that is in progress for a pair. -/
def findDrain (s : State) (p q : Nat) : Option (Nat × Nat × Route2) := s.harbour.drains.find? (fun d => d.1 == p && d.2.1 == q)

/-- The pairs whose route goes through a member, now or once their drain ends. -/
def relayedPairs (s : State) (r : Nat) : List (Nat × Nat) :=
  ((s.harbour.routes.filter (fun e => decide (e.2 = .relay r))).map (fun e => pairOf e.1) ++
    (s.harbour.drains.filter (fun d => decide (d.2.2 = .relay r))).map (fun d => (d.1, d.2.1))).eraseDups

/-- Pairs that a member relays (R361). -/
def relayed (s : State) (r : Nat) : Nat := (relayedPairs s r).length

/-- The relay of a pair: a live member with both links up and fewer than 8 pairs, the fewest of them, the lowest of those
(R361). -/
def chooseRelay (s : State) (p q : Nat) : Option Nat :=
  let ok := (memberList s).filter (fun r => r != p && r != q && !(getMember s r).dead && pairUp s p r && pairUp s r q &&
    decide (relayed s r < 8))
  (List.range 8).findSome? (fun n => ok.find? (fun r => relayed s r == n))

/-! ## Changes of route (R345, R361, R362, R366) -/

/-- The drain of a change of route begins: both ends hold new requests for the pair. -/
def beginDrain (s : State) (p q : Nat) (r : Route2) : State :=
  let l := s.harbour.drains.filter (fun d => !(d.1 == p && d.2.1 == q)) ++ [(p, q, r)]
  let t := { s with harbour := { s.harbour with drains := l } }
  if isMaster s then send t (.drain p q r) else t

/-- A route through a relay, or none. -/
def viaRelay (r : Option Nat) : Route2 :=
  match r with
  | some x => .relay x
  | none => .none

/-- The master moves a pair, by a drain, to the relay that R361 chooses; without one it will have no route. -/
def moveToRelay (s : State) (p q : Nat) : State := beginDrain s p q (viaRelay (chooseRelay s p q))

/-- The master moves pairs off a relay, or off a link to it, at once (R362). -/
def movePairs (s : State) (l : List (Nat × Nat)) : State :=
  if isMaster s then l.foldl (fun t x => moveToRelay t x.1 x.2) s else s

/-- The master sends the release instant of links to both ends of each; one instant serves them all (R366). -/
def scheduleLinks (s : State) (l : List (Nat × Nat)) : State :=
  let at_ := now s + 500000 + (Config.releaseSlack s.fresh).toNat
  let msgs := l.flatMap (fun x => [OutMsg.release x.1 (linkOf x.1 x.2) at_, OutMsg.release x.2 (linkOf x.2 x.1) at_])
  let own := (l.filter (fun x => x.1 == ownPos s || x.2 == ownPos s)).map (fun x => linkTo s (if x.1 = ownPos s then x.2 else x.1))
  own.foldl (fun t k => updLink t k (fun y => if y.state = .linkReset then { y with releaseAt := some at_ } else y))
    (nextFresh (sendAll s msgs))

/-- With N ≥ 5 the master schedules the release of a link that has gone into reset (R366). -/
def scheduleLink (s : State) (p q : Nat) : State :=
  if isMaster s && decide (5 ≤ harbourSize s) then scheduleLinks s [(p, q)] else s

/-- The relayed pairs whose route uses the own link to position o: through o, or through this module. -/
def pairsOver (s : State) (o : Nat) : List (Nat × Nat) :=
  let own := ownPos s
  (relayedPairs s o).filter (fun x => x.1 == own || x.2 == own) ++ (relayedPairs s own).filter (fun x => x.1 == o || x.2 == o)

/-- A link fails and enters link reset (R354): requests that wait for the reroute are delayed, those relayed over it end, the pairs
relayed over it move, and its release is scheduled. -/
def failLink (s : State) (k : Nat) : State :=
  let o := partnerOf (ownPos s) k
  let t := linkLost (linkDown s k .linkReset 0) k
  scheduleLink (movePairs t (pairsOver t o)) (ownPos s) o

/-! ## Bring-up (R352, R353) -/

/-- The first check of Table 11-3 that a training word on link k fails. -/
def trainRefusal (s : State) (k : Nat) (w : TrainWord) : Option Nat :=
  if w.check ≠ Config.crc32 (trainBits w) then some 1
  else if w.pos ≠ partnerOf (ownPos s) k then some 2
  else if w.link ≠ 23 - k then some 3
  else if w.members ≠ s.harbour.members then some 4
  else if w.cfgCrc ≠ cfgCrc s then some 5
  else none

/-- A retraining of an established link fails: two in a row fail the link (R354). -/
def retrainFails (s : State) (k : Nat) : Bool := (getLink s k).again && decide (1 ≤ (getLink s k).retrainFails)

/-- A link is refused; both ends raise the event (R352). A link that was up and fails its training twice in a row has failed
(R354). -/
def refuseLink (s : State) (k code : Nat) : State :=
  if retrainFails s k then failLink (updLink s k (fun x => { x with retrainFails := 0 })) k
  else
    raise (updLink s k (fun x =>
      { x with state := .refused, refusal := code, since := now s, retrainFails := x.retrainFails + 1 }))
      { code := 0x0106
        site := quaySite (k / 3)
        unit := k
        arg := code }

/-- The wavelengths of a link: the smaller number of its two directions (R353). -/
def bothLanes (w : TrainWord) : Nat := min w.lanes w.lanesBack

/-- A link comes up with L wavelengths in its stripe, at least 16 of them; its partner's PART is learned (R353, R531). -/
def linkUp (s : State) (k : Nat) (w : TrainWord) : State :=
  let n := bothLanes w
  let s1 := updMember (updLink s k (fun l =>
    { l with
      state := .up
      lanes := min 32 n
      spares := n - 32
      refusal := 0
      since := now s
      lastFrame := now s
      retrainFails := 0
      fails := 0
      badInRun := 0
      again := false
      synced := true })) w.pos (fun m => { m with part := w.part })
  if n < 32 then
    raise s1
      { code := 0x0107
        outcome := 2
        site := quaySite (k / 3)
        unit := k
        arg := n }
  else s1

/-- TRAINING_WORD: the word of the partner is received on a link that trains. A link that this end refuses is told to the partner;
one that the partner refuses is refused here with its code. -/
def trainingWord (s : State) (k : Nat) (w : TrainWord) : State :=
  if (getLink s k).state ≠ .training then s
  else match trainRefusal s k w with
    | some code => refuseLink (send s (.refuse k code)) k code
    | none =>
      if w.refused ≠ 0 then refuseLink s k w.refused
      else
        let t := updLink s k (fun l => { l with lanes := bothLanes w, lanesIn := w.lanes, lanesOut := w.lanesBack })
        if bothLanes w < 16 then failLink t k else linkUp t k w

def execTrainingWord (link : Nat) (word : TrainWord) (s : State) : Out := guarded (hasLink link) (trainingWord s link word)

/-- A link trains once more. -/
def retrain (s : State) (k : Nat) : State := startTraining (updLink s k (fun l => { l with retrains := l.retrains + 1 })) k

/-- LINK_RETRAIN_TIMER: a refused link repeats its training after 1 s. -/
def execLinkRetrainTimer (link : Nat) (s : State) : Out :=
  guarded (hasLink link)
    (if (getLink s link).state = .refused ∧ (getLink s link).since + 1000000000 ≤ now s then retrain s link else s)

/-! ## Frames (R354, R363, R375) -/

/-- A codeword is counted; a run of 10⁹ begins afresh. -/
def Link.codeword (l : Link) (bad : Bool) : Link :=
  let n := if l.codewords % 1000000000 = 0 then 0 else l.badInRun
  { l with
    codewords := l.codewords + 1
    badInRun := n + bit bad
    uncorrectable := l.uncorrectable + bit bad }

/-- A frame that does not decode: a second uncorrectable codeword in 10⁹ fails the link; the 16th failure in a row repeats
its training. -/
def badFrame (s : State) (k : Nat) : State :=
  let s1 := delayLink (updLink s k (fun l => { l.codeword true with fails := l.fails + 1 })) k
  let l := getLink s1 k
  if 2 ≤ l.badInRun then failLink s1 k
  else if 16 ≤ l.fails then
    retrain (updLink s1 k (fun x => { x with again := true, fails := 0, retrainFails := 0 })) k
  else s1

/-- The pair whose transit enters by link k and leaves by link j is relayed here (R363). -/
def relaysHere (s : State) (k j : Nat) : Bool :=
  decide (getRoute s (partnerOf (ownPos s) k) (partnerOf (ownPos s) j) = .relay (ownPos s))

/-- The link on which frames to a request's target leave. -/
def leavesBy (s : State) (k : Nat) (o : OutReq) : Bool := o.dstPos != ownPos s && linkTo s (firstHop s o.dstPos) == k

/-- Own frames and transit frames of a link are served alternately: with more own flows than transit flows the own ones get less
than their round-robin share, and their commands lose guarantee 5 (R363, R369; log entry 76). -/
def squeeze (s : State) (k flows : Nat) : State :=
  let mine := s.reqs.out.filter (leavesBy s k)
  if flows < ((mine.map (fun o => (o.req.srcSite, o.dstPos, o.dstSite))).eraseDups).length then
    ((mine.filterMap (fun o => o.req.srcCtx)).eraseDups).foldl (fun t id =>
      match findCmd t id with
      | some c => updCmd (guaranteeBroken t c 5) id (fun m => m.note S_DEGRADED 5)
      | none => t) s
  else s

/-- Channel by channel, two lists of units added, and one taken from the other. -/
def unitsPlus (a b : List Nat) : List Nat := (List.range 4).map (fun i => a.getD i 0 + b.getD i 0)
def unitsMinus (a b : List Nat) : List Nat := (List.range 4).map (fun i => a.getD i 0 - b.getD i 0)

/-- A link's partner has room for transit of some units in each channel (R363). -/
def transitFits (l : Link) (units : List Nat) : Bool :=
  (List.range 4).all (fun i => decide (l.transitOwed.getD i 0 + units.getD i 0 ≤ (Config.transitBuffer i).toNat))

/-- A transit frame that came by one link leaves by link j, and the buffer that it took is credited to its sender. -/
def transitOut (s : State) (j : Nat) (e : Nat × List Nat) : State :=
  let t := updLink s j (fun l => { l with transit := l.transit + 1, transitOwed := unitsPlus l.transitOwed e.2 })
  linkSend (linkSend t j (.transit j e.2)) e.1 (.credits e.1 e.2)

/-- Transit frames that wait at link j leave, in order, while they have credit. -/
def transitDrain (s : State) (j : Nat) : Nat → State
  | 0 => s
  | n + 1 =>
    match (getLink s j).transitWait with
    | [] => s
    | e :: rest =>
      if transitFits (getLink s j) e.2 then
        transitDrain (transitOut (updLink s j (fun l => { l with transitWait := rest })) j e) j n
      else s

/-- A transit frame of k waits at link j behind those before it, and goes on as it gets credit; an own frame that waits beside it
is served in turn. -/
def transitFrame (s : State) (k j : Nat) (o : LinkFrameObs) : State :=
  let t := updLink (updLink s k (fun l => { l with transit := l.transit + 1 })) j (fun l =>
    { l with transitWait := l.transitWait ++ [(k, o.units)], own := l.own + bit o.ownWaits })
  let u := transitDrain t j ((getLink t j).transitWait.length)
  if o.ownWaits then squeeze u j o.flows else u

/-- A frame that decodes. An idle frame is deleted when the elastic buffer is above half full, but no lane marker ever is (R375);
it takes the trims that wait (R454). Credits let transit go on; transit leaves by the link of its route. -/
def goodFrame (s : State) (k : Nat) (o : LinkFrameObs) : State :=
  let s0 := updLink s k (fun l =>
    { l.codeword false with
      lastFrame := now s
      fails := 0
      markers := l.markers + bit o.marker
      transitOwed := unitsMinus l.transitOwed o.credits })
  let s1 := transitDrain s0 k ((getLink s0 k).transitWait.length)
  if o.idle then
    updLink s1 k (fun l =>
      { l with
        idleDeleted := l.idleDeleted + bit (o.aboveHalf && !o.marker)
        trimTemp := l.trimWait.getD l.trimTemp
        trimWait := none })
  else if o.transit then
    if relaysHere s k o.transitTo then transitFrame s1 k o.transitTo o else s1
  else updLink s1 k (fun l => { l with own := l.own + 1 })

/-- LINK_FRAME. -/
def linkFrame (s : State) (k : Nat) (o : LinkFrameObs) : State :=
  if (getLink s k).state ≠ .up then s else if o.decodes then goodFrame s k o else badFrame s k

def execLinkFrame (link : Nat) (obs : LinkFrameObs) (s : State) : Out := guarded (hasLink link) (linkFrame s link obs)

/-- The first link of a returning module has not come up: the next member's is tried (R367; log entry 93). -/
def nextFirst (s : State) (k : Nat) : State :=
  let ms := memberList s
  if s.harbour.rejoining && decide (5 ≤ harbourSize s) && decide (firstLink (ownPos s) ms s.harbour.firstTried = some k) then
    let tried := insertNat (partnerOf (ownPos s) k) s.harbour.firstTried
    let t := { s with harbour := { s.harbour with
        firstTried := if tried.length + 1 < ms.length then tried else [] } }
    match firstLink (ownPos s) ms t.harbour.firstTried with
    | some j => startTraining t j
    | none => t
  else s

/-- LINK_NO_FRAME: no valid frame for 100 µs on a link that is up, no end of a retraining within 200 µs (R354), or no end of a
link's first training within 5 ms (R366). -/
def linkNoFrame (s : State) (k : Nat) : State :=
  let l := getLink s k
  match l.state with
  | .up => if l.lastFrame + 100000 ≤ now s then failLink s k else s
  | .training =>
    if l.again then
      if now s < l.since + 200000 then s
      else if retrainFails s k then failLink (updLink s k (fun x => { x with retrainFails := 0 })) k
      else retrain (updLink s k (fun x => { x with retrainFails := x.retrainFails + 1 })) k
    else if l.since + 5000000 ≤ now s then nextFirst (failLink s k) k
    else s
  | _ => s

def execLinkNoFrame (link : Nat) (s : State) : Out := guarded (hasLink link) (linkNoFrame s link)

/-! ## Link reset (R366, R367) -/

/-- A scheduled instant has come; one that reached this module outside the table's rows is the event itself (log
entry 29). -/
def instantCome (s : State) (o : Option Nat) : Bool :=
  match o with
  | some t => decide (t ≤ now s)
  | none => true

/-- LINK_RELEASE: an end leaves link reset and trains: on its own with N ≤ 4, otherwise at the release instant, which waits
while the harbour has no master (R356). -/
def linkRelease (s : State) (k : Nat) : State :=
  let l := getLink s k
  let may := decide (harbourSize s ≤ 4) || (!s.harbour.noMaster && instantCome s l.releaseAt)
  if l.state = .linkReset ∧ may = true then
    let t := updLink (blockReset s (· == linkBlock k)) k (fun x => { x with releaseAt := none })
    startTraining { t with harbour := { t.harbour with rejoining := t.harbour.rejoining && !t.tide.firstLock } } k
  else s

def execLinkRelease (link : Nat) (s : State) : Out := guarded (hasLink link) (linkRelease s link)

/-- The instant of the own planned reset has come (R368). -/
def ownReset (s : State) : Bool := s.harbour.resetAt.any (fun t => decide (t ≤ now s))

/-- LINK_RESET_ENTRY_INSTANT: for a planned reset an end enters link reset at the scheduled instant; the module whose reset is
planned resets at its own. -/
def linkEntry (s : State) (k : Nat) : State :=
  if ownReset s then moduleReset s 5
  else if (getLink s k).state ≠ .disabled ∧ instantCome s (getLink s k).entryAt = true then
    linkLost (linkDown (updLink s k (fun l => { l with entryAt := none })) k .linkReset 0) k
  else s

def execLinkResetEntryInstant (link : Nat) (s : State) : Out := guarded (hasLink link) (linkEntry s link)

/-- RESET_REQ in a harbour of 5 or more: the reset is announced with an entry instant at least 1 ms ahead, by the master or through
it, and the pairs that this module relays move before it (R368; log entry 95). -/
def planReset (s : State) : State :=
  let at_ := now s + 1000000 + (Config.releaseSlack s.fresh).toNat
  let own := ownPos s
  let t := nextFresh { s with harbour := { s.harbour with
      resetAt := some at_
      links := tabMap {} (fun _ l => if l.state = .disabled then l else { l with entryAt := some at_ }) s.harbour.links } }
  if isMaster s then
    movePairs (sendAll t (((memberList s).filter (· != own)).map (fun m => .entry m (linkOf m own) at_))) (relayedPairs s own)
  else send t (.planned own at_)

/-- RESET_REQ: the physical function writes REQ = 1 with KEY = 0x5253 through BAR0; any other write is ignored (R494). A module of a
harbour of 5 or more that has a master plans its reset. -/
def execResetReq (fn : Nat) (value : W64) (s : State) : Out :=
  .next (if powered s && s.rst.pcieUp && fn == 0 && value.getLsbD 63 && value.toNat % 0x10000 == 0x5253 then
      if harbourSize s ≤ 4 ∨ s.harbour.noMaster = true then moduleReset s 5
      else if s.harbour.resetAt.isSome then s
      else planReset s
    else s)

/-! ## Routes (R345, R361, R362) -/

/-- The pairs that a lost relay carried, or was to carry, move to another at once (R362). -/
def rerouteFrom (s : State) (r : Nat) : State := movePairs s (relayedPairs s r)

/-- The direct link of a pair has been failed or in reset, or up, for a time, as far as this module sees it. -/
def linkFor (s : State) (p q : Nat) (isUp : Bool) (ns : Nat) : Bool :=
  if p = ownPos s ∨ q = ownPos s then
    let l := getLink s (linkTo s (if p = ownPos s then q else p))
    (if isUp then decide (l.state = .up) else decide (l.state = .failed) || decide (l.state = .linkReset)) &&
      decide (l.since + ns ≤ now s)
  else true

/-- The relay of a pair's route, or a link to it, is lost, as far as this module sees it. -/
def relayLost (s : State) (p q r : Nat) : Bool := (getMember s r).dead || !pairUp s p r || !pairUp s r q

/-- A pair leaves its route: its direct link has been failed or in link reset for 1 ms, or its relay is lost. A member takes the
master's word for a pair that is relayed (R361, R362). -/
def mustMove (s : State) (p : Nat) (m : MoveSeen) : Bool :=
  match getRoute s p m.q with
  | .direct => linkFor s p m.q false 1000000
  | .relay r => if isMaster s then relayLost s p m.q r else decide (m.relay ≠ some r)
  | .none => !isMaster s && m.relay.isSome

/-- RELAY_ROUTE_TIMER: the master moves the pair to the relay it chooses and schedules the release of the link; a member begins
the drain of the master's choice. -/
def relayRoute (s : State) (p : Nat) (m : MoveSeen) : State :=
  if isPair s p m.q && !s.harbour.noMaster && mustMove s p m then
    if isMaster s then scheduleLink (moveToRelay s p m.q) p m.q else beginDrain s p m.q (viaRelay m.relay)
  else s

def execRelayRouteTimer (p : Nat) (q : MoveSeen) (s : State) : Out := .next (relayRoute s p q)

/-- ROUTE_RETURN_TIMER: the direct link of a relayed pair has been up for 10 s with no failure. -/
def execRouteReturnTimer (p q : Nat) (s : State) : Out :=
  .next (if isPair s p q && !s.harbour.noMaster && decide (getRoute s p q ≠ .direct) && linkFor s p q true 10000000000 then
      beginDrain s p q .direct
    else s)

/-- The roles of the own quays: 0xFE while one carries a relayed pair, 0xFD again when it carries none (R361). -/
def relayRoles (s : State) : State :=
  let own := ownPos s
  let ends := (s.harbour.routes.filter (fun e => decide (e.2 = .relay own))).flatMap (fun e => [e.1 / 32, e.1 % 32])
  (List.range 8).foldl (fun t q =>
    let k := quaySite q
    let busy := ends.any (fun p => linkTo s p / 3 == q)
    let role := if busy then 0xFE else 0xFD
    let x := getSite t k
    if x.role = role ∨ (x.role ≠ 0xFD ∧ x.role ≠ 0xFE) then t
    else send (updSite t k (fun y => { y with role := role, epoch := y.epoch + 1 })) (.epoch k (x.epoch + 1))) s

/-- The modules that drain for a change of a pair's route: its two ends, and the relays of the old and of the new route. -/
def drainEnds (s : State) (p q : Nat) (new : Route2) : List Nat :=
  let relay (r : Route2) : List Nat := match r with
    | .relay x => [x]
    | _ => []
  (p :: q :: relay (getRoute s p q) ++ relay new).eraseDups

/-- The other end of a pair that has an end here. -/
def otherEnd (s : State) (p q : Nat) : Option Nat := if p = ownPos s then some q else if q = ownPos s then some p else none

/-- This module's part of a drain is done: every own request on the old route has been answered or ended, and no transit of the
pair waits here. -/
def ownDrained (s : State) (p q : Nat) : Bool :=
  let waits (a b : Nat) : Bool := (getLink s (linkTo s a)).transitWait.any (fun e => e.1 == linkTo s b)
  !s.reqs.out.any (fun o => decide (otherEnd s p q = some o.dstPos) && !o.held) &&
  (!decide (getRoute s p q = .relay (ownPos s)) || (!waits p q && !waits q p))

/-- Every other live module of a drain has reported drained and written to the master (Table 10-13 steps 4 and 5). -/
def othersDrained (s : State) (p : Nat) (d : DrainSeen) (new : Route2) : Bool :=
  (drainEnds s p d.q new).all (fun e => e == ownPos s || (getMember s e).dead || (d.drained.contains e && d.written.contains e))

/-- The reports of a module of a drain that is not the master. -/
def drainReports (s : State) (p q : Nat) (new : Route2) : List OutMsg :=
  if !isMaster s && (drainEnds s p q new).contains (ownPos s) then [.drained p q, .written p q] else []

/-- ROUTE_DRAIN_DONE: the own part of the drain is done, and on the master every other; the new entry is written, and the requests
that were held go by the new route, delayed (R345). Routes stay as they are while the harbour has no master (R356). -/
def routeDrainDone (s : State) (p : Nat) (d : DrainSeen) : State :=
  match findDrain s p d.q with
  | none => s
  | some x =>
    if s.harbour.noMaster || !ownDrained s p d.q || (isMaster s && !othersDrained s p d x.2.2) then s
    else
      let mine (o : OutReq) : Bool := decide (otherEnd s p d.q = some o.dstPos)
      sendAll (relayRoles { s with
        reqs := { s.reqs with out := mapIf mine (fun o => { o with delayed := true }) s.reqs.out }
        harbour := { s.harbour with
          routes := tabSet .direct s.harbour.routes (routeKey p d.q) x.2.2
          drains := s.harbour.drains.filter (fun y => !(y.1 == p && y.2.1 == d.q)) } }) (drainReports s p d.q x.2.2)

def execRouteDrainDone (p : Nat) (q : DrainSeen) (s : State) : Out := .next (routeDrainDone s p q)

/-! ## Harbour Tide (R358, R387 to R390) -/

/-- The limit of RATE: 100 ppm (R381). -/
def rateLimit : Int := 429497

/-- Fault event 0x0502 with an offset or a step in ns; one that breaks guarantee 4 names it (R388 to R390). -/
def tideEvent (s : State) (outcome guarantee : Nat) (ns : Int) : State :=
  raise s
    { code := 0x0502
      outcome := outcome
      guarantee := guarantee
      arg := ofSigned 64 ns }

/-- A reason relaxes guarantee 4, or no longer does; each change raises its event. -/
def relax (s : State) (why : Nat) (holds : Bool) (ns : Int) : State :=
  if holds == s.tide.relaxed.contains why then s
  else
    let l := if holds then insertNat why s.tide.relaxed else s.tide.relaxed.filter (· != why)
    let t := match s.tide.relaxedSince with
      | none => { s.tide with relaxed := l, relaxedSince := some (now s) }
      | some a =>
        if l = [] then { s.tide with
          relaxed := l
          relaxedSince := none
          relaxedPast := s.tide.relaxedPast ++ [(a, now s)] }
        else { s.tide with relaxed := l }
    tideEvent { s with tide := t } (if holds then 6 else 0) 4 ns

/-- A module that keeps harbour Tide itself is relaxed for no reason any more, and its holdover ends. -/
def keepsTide (s : State) : State :=
  [1, 2, 3, 4].foldl (fun t why => relax t why false 0) { s with tide := { s.tide with holdover := none } }

/-- Without a master, holdover passes 5 ns after 2.5 ms of it at 2 ns per ms: guarantee 4 is relaxed (R31, R356, R358). -/
def holdoverDrift (s : State) : State :=
  match s.tide.holdover with
  | some t =>
    if s.harbour.noMaster ∧ t + 2500000 ≤ now s then relax s 3 true (s.tide.offset16 / 16) else s
  | none => s

/-- The bound of the offset for the route to the master, in 1/16 ns: 1.5 ns, or 2.5 ns through a relay (R358). -/
def offsetBound (s : State) : Nat := if firstHop s s.harbour.master = s.harbour.master then 24 else 40

/-- A measured offset is judged against its bound (R359, R388). -/
def judgeOffset (s : State) : State :=
  let off := s.tide.offset16
  let out := decide (offsetBound s < off.natAbs)
  let s1 := relax s 1 out (off / 16)
  if out then s1 else relax s1 4 false (off / 16)

/-- The link leads to this slave's source of Tide: the master, or the relay on the way to it. -/
def tideSource (s : State) (k : Nat) : Bool :=
  !isMaster s && !s.harbour.noMaster && decide ((getLink s k).state = .up) &&
  partnerOf (ownPos s) k == firstHop s s.harbour.master

/-- The link leads to a slave that this module feeds with Tide: the master feeds all, a relay the slaves whose route to the master
goes through it (R358). -/
def feeds (s : State) (k : Nat) : Bool :=
  decide ((getLink s k).state = .up) && !s.harbour.noMaster &&
  (isMaster s || (s.tide.firstLock && partnerOf (ownPos s) k != s.harbour.master &&
    decide (getRoute s s.harbour.master (partnerOf (ownPos s) k) = .relay (ownPos s))))

/-- Tide in 1/16 ns, the resolution of the timestamps (R387). -/
def now16 (s : State) : Nat := s.tide.count / 2 ^ 28

/-- The fixed transmit and receive delay of the quay of a link, which is subtracted from its timestamps (R387). -/
def quayDelay (s : State) (k : Nat) : Nat × Nat := tabGet (0, 0) s.ident.quayDelays (k / 3)

/-- TIDE_SYNC_SEND: the master, or a relay for the slaves it feeds, sends its Tide, and t2 and t3 of the last exchange. -/
def tideSyncSend (s : State) : State :=
  ((List.range 24).filter (feeds s)).foldl (fun t k =>
    linkSend (updLink t k (fun l => { l with stamps := none })) k
      (.tideSync k (now16 s - (quayDelay s k).1) (getLink s k).stamps)) s

def execTideSyncSend (s : State) : Out := .next (tideSyncSend s)

/-- The rate from the frequency term and an offset in 1/16 ns (R387). -/
def servoRate (freq off16 : Int) : Int := clampInt (-rateLimit) rateLimit (freq + off16 * 4294967296 / 16000000)

/-- A module whose Tide has not locked, or that knows no master, learns from the link of a synchronisation message who is the
master; position 0 that started as master comes back as a slave (log entry 92). -/
def learnMaster (s : State) (k : Nat) : State :=
  let p := partnerOf (ownPos s) k
  if decide ((getLink s k).state = .up) &&
      (s.harbour.noMaster || (!s.tide.firstLock && p != firstHop s s.harbour.master)) then
    let t := { s with harbour := { s.harbour with master := p, noMaster := false, rejoining := s.harbour.rejoining || isMaster s } }
    if s.harbour.noMaster then memberEvent (relax t 3 false (s.tide.offset16 / 16)) p 0 else t
  else s

/-- TIDE_SYNC_MESSAGE: the source's Tide at a marked frame, corrected by the last measured delay; RATE is set, and holdover
ends. -/
def syncTide (s : State) (k masterTide arrival : Nat) : State :=
  if !tideSource s k then s
  else
    let h := { s with harbour := { s.harbour with lastSync := now s, claimAt := none } }
    if !s.tide.firstLock then h
    else
      let off : Int := masterTide + (getLink s k).delay16 - ((arrival : Int) - (quayDelay s k).2)
      let s1 := { h with tide := { h.tide with
          offset16 := off
          rate := servoRate h.tide.freq off
          holdover := none } }
      judgeOffset (relax s1 2 false (off / 16))

def tideSyncMessage (s : State) (k masterTide arrival : Nat) : State := syncTide (learnMaster s k) k masterTide arrival

def execTideSyncMessage (link masterTide arrival : Nat) (s : State) : Out :=
  guarded (hasLink link) (tideSyncMessage s link masterTide arrival)

/-- TIDE_DELAY_EXCHANGE: a slave takes the delay of the link, the offset and the frequency term (R387); the module that feeds it
keeps t2 and t3 for its next message. -/
def tideDelayExchange (s : State) (k t1 t2 t3 t4 : Nat) : State :=
  let d := quayDelay s k
  if feeds s k then updLink s k (fun l => { l with stamps := some ((t2 : Int) - d.2, (t3 : Int) - d.1) })
  else if !tideSource s k then s
  else
    let a : Int := (t1 : Int) - d.1
    let b : Int := (t4 : Int) - d.2
    let delay : Int := ((b - a) - ((t3 : Int) - t2)) / 2
    let off : Int := (((t2 : Int) - a) - (b - t3)) / 2
    let s1 := updLink s k (fun l => { l with delay16 := delay })
    let f := (Config.freqFilter s.fresh (off - s.tide.offsetPrev16)).toInt
    let s2 := nextFresh { s1 with tide := { s1.tide with offset16 := off, offsetPrev16 := off, freq := f } }
    if s.tide.firstLock then judgeOffset s2 else s2

def execTideDelayExchange (link t1 t2 t3 t4 : Nat) (s : State) : Out :=
  guarded (hasLink link) (tideDelayExchange s link t1 t2 t3 t4)

/-- TIDE_FIRST_LOCK: before its first context opens, a slave steps its Tide to harbour Tide, records the step, and asks to
rejoin (R360, R367, R390). Holdover, and what it relaxed, ends (R389). -/
def tideFirstLock (s : State) (harbourTide : Nat) : State :=
  if isMaster s || s.harbour.noMaster || s.tide.firstLock || decide (s.tide.mode ≠ .reference) then s
  else
    let step : Int := (harbourTide : Int) - now s
    let s1 := { s with
      tide := { s.tide with
        count := harbourTide * 2 ^ 32
        latchAo := harbourTide * 2 ^ 32
        aoPhase := 0
        firstLock := true
        offset16 := 0
        holdover := none }
      harbour := { s.harbour with
        lastSync := harbourTide
        returnedAt := if s.harbour.pos = 0 then some harbourTide else s.harbour.returnedAt } }
    let s2 := relax (relax (tideEvent s1 0 0 step) 2 false 0) 4 false 0
    if s.harbour.rejoining then
      let k := linkTo s (firstHop s s.harbour.master)
      linkSend s2 k (.rejoin k s.ident.part)
    else s2

def execTideFirstLock (harbourTide : Nat) (s : State) : Out := .next (tideFirstLock s harbourTide)

/-- HOLDOVER_EXPIRY: 1 s of holdover has passed (R389), or 2.5 ms of it in a harbour without a master. -/
def holdoverExpiry (s : State) : State :=
  let s1 := holdoverDrift s
  match s.tide.holdover with
  | some t => if t + 1000000000 ≤ now s then relax s1 2 true (s.tide.offset16 / 16) else s1
  | none => s1

def execHoldoverExpiry (s : State) : Out := .next (holdoverExpiry s)

/-! ## Liveness (R360) -/

/-- PART and the role epochs of a member, as the master passes them to every member (R360, R531). -/
def memberInfo (s : State) (pos part : Nat) : OutMsg := .memberInfo pos part ((List.range 49).map (tableEpoch s pos))

/-- HEARTBEAT: on the master, the member lives; a PART newly learned is passed to every member (R531). -/
def heartbeat (s : State) (pos part : Nat) : State :=
  if isMaster s && (memberList s).contains pos then
    let t := updMember s pos (fun m => { m with heartbeat := now s, part := part })
    if (getMember s pos).part = part then t else send t (memberInfo t pos part)
  else s

def execHeartbeat (pos part : Nat) (s : State) : Out := .next (heartbeat s pos part)

/-- A module is held dead: its relayed traffic ends and its relayed pairs move (R360, R362, R365). -/
def moduleDead (s : State) (pos : Nat) : State :=
  if (getMember s pos).dead then s
  else
    let t := memberEvent (updMember s pos (fun m => { m with dead := true, rejoining := false })) pos 0
    rerouteFrom (endRelayed (deadNodes t pos) pos) pos

/-- HEARTBEAT_TIMEOUT: no heartbeat for 1 ms, and no answer to the probe, declare the member dead. -/
def heartbeatTimeout (s : State) (pos : Nat) (probeAnswered : Bool) : State :=
  if isMaster s && (memberList s).contains pos && pos != ownPos s && !probeAnswered && !(getMember s pos).dead &&
      decide ((getMember s pos).heartbeat + 1000000 ≤ now s) then
    send (moduleDead s pos) (.dead pos none)
  else s

def execHeartbeatTimeout (pos : Nat) (probeAnswered : Bool) (s : State) : Out := .next (heartbeatTimeout s pos probeAnswered)

/-- DEAD_DECLARATION: a declaration about another module, or about a site of one, reaches this module. The master passes that of a
site, which comes from the site's own Harbourmaster, to every member. -/
def deadDeclaration (s : State) (pos : Nat) (site : Option Nat) : State :=
  if pos = ownPos s ∨ (memberList s).contains pos = false then s
  else match site with
    | none => moduleDead s pos
    | some k =>
      let t := { s with harbour := { s.harbour with deadSites := tabSet false s.harbour.deadSites (pos * 64 + k) true } }
      if isMaster s then send t (.dead pos site) else t

def execDeadDeclaration (pos : Nat) (site : Option Nat) (s : State) : Out := .next (deadDeclaration s pos site)

/-! ## The master (R356, R357, R359) -/

/-- Members that this module reaches, itself included. -/
def reaches (s : State) : Nat :=
  ((memberList s).filter (fun p => p == ownPos s ||
    (!(getMember s p).dead && (match getRoute s (ownPos s) p with
      | .direct => pairUp s (ownPos s) p
      | .relay _ => true
      | .none => false)))).length

/-- MASTER_SYNC_LOSS: a slave without synchronisation for 1 ms has been in holdover since the last one, and sends its claim. -/
def masterSyncLoss (s : State) : State :=
  if isMaster s || decide (harbourSize s < 2) || s.harbour.claimAt.isSome || decide (now s < s.harbour.lastSync + 1000000) then
    s
  else
    let s1 := { s with
      tide := { s.tide with
        holdover := (match s.tide.holdover with
          | some t => some t
          | none => some s.harbour.lastSync)
        rate := clampInt (-rateLimit) rateLimit s.tide.freq }
      harbour := { s.harbour with claimAt := some (now s) } }
    send (relax s1 4 true (s.tide.offset16 / 16)) (.claim (reaches s))

def execMasterSyncLoss (s : State) : Out := .next (masterSyncLoss s)

/-- The lowest claimant that reaches more than half of the members. -/
def bestClaim (s : State) (l : List Claim) : Option Nat :=
  let n := harbourSize s
  (List.range 25).find? (fun p => l.any (fun c => c.pos == p && decide (n < 2 * c.reaches)))

/-- CLAIM_COLLECT: after 200 µs the lowest qualifying claimant, this module's own claim among them, is acting master; with
none the harbour has no master. -/
def claimCollect (s : State) (claims : List Claim) : State :=
  match s.harbour.claimAt with
  | none => s
  | some t =>
    if now s < t + 200000 then s
    else
      let clear (x : State) : State := { x with harbour := { x.harbour with claimAt := none } }
      match bestClaim s (⟨ownPos s, reaches s⟩ :: claims) with
      | none =>
        let x := clear { s with harbour := { s.harbour with noMaster := true } }
        holdoverDrift (if s.harbour.noMaster then x else memberEvent x (ownPos s) 0)
      | some p =>
        let x := clear { s with harbour := { s.harbour with master := p, noMaster := false } }
        let y := memberEvent (relax x 3 false (s.tide.offset16 / 16)) p 0
        if p = ownPos s then
          send (keepsTide y) (.announce p (now s))
        else y

def execClaimCollect (claims : List Claim) (s : State) : Out := .next (claimCollect s claims)

/-- Position 0 has been back for 10 s, as far as this module knows. -/
def zeroStable (s : State) : Bool :=
  if s.harbour.pos = 0 ∨ isMaster s = true then
    (match s.harbour.returnedAt with
     | some t => decide (t + 10000000000 ≤ now s)
     | none => false)
  else true

/-- MASTER_HANDBACK: the acting master announces an instant 1 ms ahead; at it position 0 takes its duties back, without a step
of Tide (R357). -/
def masterHandback (s : State) : State :=
  if s.harbour.master = 0 ∨ s.harbour.noMaster = true ∨ s.harbour.members.getLsbD 0 = false ∨ zeroStable s = false then s
  else match s.harbour.handbackAt with
    | none =>
      let at_ := now s + 1000000
      let t := { s with harbour := { s.harbour with handbackAt := some at_ } }
      if isMaster s then send t (.announce 0 at_) else t
    | some at_ =>
      if now s < at_ then s
      else
        let t := memberEvent { s with
          harbour := { s.harbour with master := 0, handbackAt := none, returnedAt := none }
          tide := if s.harbour.pos = 0 then { s.tide with rate := 0 } else s.tide } 0 0
        if s.harbour.pos = 0 then keepsTide t else t

def execMasterHandback (s : State) : Out := .next (masterHandback s)

/-- The release instants of every other link of a returning module, and of its link to the master if that is in reset (R366,
R367). -/
def scheduleReleases (s : State) (pos : Nat) : State :=
  let own := ownPos s
  let ms := (memberList s).filter (fun m => m != pos && (m != own || decide ((getLink s (linkTo s pos)).state = .linkReset)))
  scheduleLinks s (ms.map (fun m => (pos, m)))

/-- REJOIN_REQUEST: on the master, the epochs of the returning module's sites rise by 1, it is live, its PART and those epochs are
passed on, it learns those of the other members, and with N ≥ 5 its links are scheduled (R360, R366, R367). -/
def rejoinRequest (s : State) (pos part : Nat) : State :=
  if isMaster s && (memberList s).contains pos && pos != ownPos s then
    let s1 := updMember s pos (fun _ => { part := part, heartbeat := now s })
    let s2 := (List.range 49).foldl (fun t k =>
      { t with harbour := { t.harbour with
          epochs := tabSet 0 t.harbour.epochs (epochKey t pos k) (tableEpoch t pos k + 1)
          deadSites := tabSet false t.harbour.deadSites (pos * 64 + k) false } }) s1
    let s3 := { s2 with harbour := { s2.harbour with
        returnedAt := if pos = 0 then some (now s) else s2.harbour.returnedAt } }
    let infos := (memberList s).map (fun m =>
      memberInfo s3 m (if m = ownPos s then s.ident.part else (getMember s3 m).part))
    let s4 := memberEvent (sendAll s3 infos) pos 5
    if harbourSize s ≤ 4 then s4 else scheduleReleases s4 pos
  else s

def execRejoinRequest (pos part : Nat) (s : State) : Out := .next (rejoinRequest s pos part)

end Sys2Proof.Machine
end

