-- ==== Sys2Proof/Machine/Power.lean ====
section
/-! DEFINITION. Power input, berth power and heat (spec/13_power_thermal.md): the 800 V input (R391 to R397, R522), the
power cap and the limiter (R408, R409, R419), the thermal model and its sensors (R410, R411), cooling (R413, R414), limits
and shutdown (R415 to R417). -/

namespace Sys2Proof.Machine

/-! ## The input (R391 to R397, R522) -/

/-- The range of a filtered input voltage in mV (Table 13-1). -/
def inputRange (mv : Nat) : InputRange :=
  if mv < 680000 then .below
  else if mv < 720000 then .low
  else if mv ≤ 880000 then .normal
  else if mv ≤ 920000 then .high
  else .above

/-- Fault event 0x0405 of the input, with the voltage in 0.1 V. -/
def inputEvent (s : State) : State := raise s { code := 0x0405, arg := s.power.millivolts / 100 }

/-- The variant's maximum input power in mW (Table 00-1), and I_lim in 0.1 A (R392). -/
def maxInput (s : State) : Nat := if s.ident.part = 2 then 3000000 else if s.ident.part = 4 then 5500000 else 10500000
def limCurrent (s : State) : Nat := if s.ident.part = 2 then 42 else if s.ident.part = 4 then 77 else 146

/-- The most input power of the moment, in mW: the lesser of the maximum and I_lim × V_in (R392). -/
def inputLimit (s : State) : Nat := min (maxInput s) (limCurrent s * s.power.millivolts / 10)

/-- The energy that the store gives between 50 V and 42.4 V, in pJ: 19.66 J (R393). -/
def storeFull : Nat := 19662720000000

/-- The recharge takes what the limit leaves over the present input power, at most 2.0 kW, in mW of input (R36, R396). -/
def rechargePower (s : State) : Nat := min 2000000 (inputLimit s - s.thermal.powerIn)

/-- The energy of the store now: recharged at 96 % while the stage converts, and otherwise drained by the load, which is
96 % of the input power last measured (R393, R396; log entry 67). -/
def storeNow (s : State) : Nat :=
  let d := now s - s.power.storeAt
  if s.power.converting then min storeFull (s.power.store + rechargePower s * 96 * d / 100)
  else s.power.store - s.thermal.powerIn * 96 * d / 100

/-- The energy is reckoned up to now, before what it follows from changes. -/
def settleStore (s : State) : State :=
  { s with power := { s.power with store := storeNow s, storeAt := now s } }

/-- The isolated stage stops converting: the store carries the load from the energy it holds, and the dip is told once
(R391, R393, R396). -/
def stopConverting (s : State) : State :=
  if s.power.converting then
    let s1 := settleStore s
    let t := { s1 with power := { s1.power with converting := false, dip := true } }
    if s.power.dip then t else inputEvent t
  else s

/-- The voltage lies where the isolated stage stops, and where it warns (Table 13-1). -/
def InputRange.stops (r : InputRange) : Bool := r == .below || r == .above
def InputRange.warns (r : InputRange) : Bool := r == .low || r == .high

/-- INPUT_VOLTAGE_CHANGE: the input, filtered over 10 µs, has a new value. -/
def inputVoltage (s : State) (mv : Nat) : State :=
  let r := inputRange mv
  let good := decide (r = .normal)
  let s0 := settleStore s
  let s1 := { s0 with power := { s0.power with
      millivolts := mv
      range := r
      goodSince := if good then (if s.power.goodSince = none then some (now s) else s.power.goodSince) else none } }
  if r.stops then stopConverting s1
  else if s.power.converting && r.warns && decide (s.power.range ≠ r) then inputEvent s1
  else s1

def execInputVoltageChange (millivolts : Nat) (s : State) : Out := .next (inputVoltage s millivolts)

/-- CONVERSION_RESUME: 20 µs after the input has returned to 700–910 V, with the interlock closed; a brown-out reset that
has begun is not undone (R394). -/
def conversionResume (s : State) : State :=
  let p := s.power
  if !p.converting && p.interlockClosed && p.charged && p.alwaysOn && !p.brownOut && decide (700000 ≤ p.millivolts) &&
      decide (p.millivolts ≤ 910000) then
    let s1 := settleStore s
    let t := { s1 with power := { s1.power with converting := true, dip := false } }
    if p.range.warns then inputEvent t else t
  else s

def execConversionResume (s : State) : Out := .next (conversionResume s)

/-- INTERLOCK_OPEN: the loop opens and the isolated stage stops converting, as on a loss of input. -/
def execInterlockOpen (s : State) : Out :=
  .next (stopConverting { s with power := { s.power with interlockClosed := false } })

/-- INTERLOCK_CLOSE. -/
def execInterlockClose (s : State) : Out := .next { s with power := { s.power with interlockClosed := true } }

/-- Every domain but always-on is off (Table 13-2, step 7). -/
def darkDomains : Tab Domain :=
  ([1, 2, 3, 4] ++ (List.range 8).map quayDom ++ (List.range 32).map stackDom ++
    (List.range 128).map (0x100 + ·) ++ (List.range 128).map (0x200 + ·)).map (fun d => (d, { state := .off }))

/-- BROWN_OUT: the 50 V bus has fallen to 42.4 V while the store carried the load: the brown-out reset, after which every
domain but always-on is off until a new start (R394). -/
def brownOut (s : State) : State :=
  if s.power.converting || s.power.brownOut then s
  else
    let t := moduleReset s 2
    { t with
      domains := darkDomains
      power := { t.power with brownOut := true, charged := false, store := 0, storeAt := now t, busFailed := some (now t) } }

def execBrownOut (s : State) : Out := .next (brownOut s)

/-- The store of the always-on domain lasts 20 s after the bus has failed, and ends at 25 s (R395). -/
def storeLeast : Nat := 20000000000
def storeMost : Nat := 25000000000

/-- The input has returned within a time of the failure of the bus, and stayed. -/
def backWithin (p : PowerGroup) (d : Nat) : Bool :=
  p.goodSince.any (fun t => p.busFailed.all (fun f => decide (t ≤ f + d)))

/-- NEW_START: the input has stayed in 720–880 V for 100 ms, having returned while the always-on store still supplied its domain,
and boot begins with the bus charged and the domains supplied (R394, R395, R426). -/
def newStart (s : State) : State :=
  let p := s.power
  let long := p.goodSince.any (fun t => decide (t + 100000000 ≤ now s))
  if p.brownOut && p.alwaysOn && p.interlockClosed && long && backWithin p storeMost then
    { s with
      domains := []
      power :=
        { p with
          brownOut := false
          charged := true
          converting := true
          dip := false
          store := storeFull
          storeAt := now s
          busFailed := none }
      rst := { s.rst with time0 := now s } }
  else s

def execNewStart (s : State) : Out := .next (newStart s)

/-- ALWAYS_ON_STORE_EXHAUSTED: 20 s to 25 s after the failure of the bus, with an input that has not returned before, the
always-on domain loses its supply; PWR_CYCLE_REQ falls with it (R395, R510). -/
def execAlwaysOnStoreExhausted (s : State) : Out :=
  .next (if s.power.brownOut && s.power.busFailed.all (fun f => decide (f + storeLeast ≤ now s)) &&
        !backWithin s.power storeLeast then
      { s with power := { s.power with alwaysOn := false, cycleReq := false } }
    else s)

/-- PRE_CHARGE: with the interlock closed and an input, the stage charges, and the always-on domain is released: the
power-on reset (R397, R421, R522). -/
def preCharge (s : State) : State :=
  let p := s.power
  if !p.alwaysOn && p.interlockClosed && !p.range.stops then
    let t := moduleReset s 1
    { t with power := { t.power with
        converting := true
        brownOut := false
        alwaysOn := true
        charged := true
        store := storeFull
        storeAt := 0
        busFailed := none
        goodSince := if p.range = .normal then some 0 else none } }
  else s

def execPreCharge (s : State) : Out := .next (preCharge s)

/-! ## The rails (R398, R399, R271) -/

/-- The set-point of a rail, in mV. It is an output of the Harbourmaster, made of state that a switch-over leaves as it is:
the states of the domains, the voltage step of a region and the layer switches. A domain in off has no rail. -/
def railPoint (s : State) : Rail → Nat
  | .core b e => if (getDomain s (regionDom b e)).state = .on then (getRegion s b e).volts.toNat else 0
  | .tileSram b e =>
    match (getDomain s (regionDom b e)).state with
    | .on => (getRegion s b e).volts.toNat
    | .retention => 550
    | .off => 0
  | .engine b e => if (getDomain s (engineDom b e)).state = .off then 0 else (Config.railVolts (engineDom b e)).toNat
  | .base n => if (getDomain s n).state = .off then 0 else (Config.railVolts n).toNat
  | .varr n l => if stackPowered s n && !(tabGet {} (getStack s n).layers l).off then 1050 else 0
  | .vpp n l => if stackPowered s n && !(tabGet {} (getStack s n).layers l).off then 2500 else 0
  | .vlog n => if stackPowered s n then 750 else 0
  | .vsram n =>
    match stackPowered s n, (getDomain s (stackDom n)).state with
    | false, _ => 0
    | true, .retention => 550
    | true, _ => 750
where
  /-- The stack has its rails: its domain is not off. One that heat or a rail has stopped keeps them for its refresh (R258,
  R271). -/
  stackPowered (s : State) (n : Nat) : Bool := decide ((getDomain s (stackDom n)).state ≠ .off)

/-! ## The cap and the throttle (R392, R408, R409, R419) -/

/-- A factor 1 − 0.04 × excess, in 10⁻⁶, of an excess in 0.001 °C. -/
def heatFactor (excess : Int) : Nat := if excess ≤ 0 then 1000000 else 1000000 - 40 * excess.toNat

/-- The share of power that meets R392 below 720 V, in 10⁻⁶. -/
def inputFactor (s : State) : Nat :=
  if s.power.range = .low ∨ s.power.range = .below then inputLimit s * 1000000 / maxInput s else 1000000

/-- The hottest layer of a near stack of berth b, in 0.001 °C, rounded up. -/
def nearLayer (s : State) (b : Nat) : Int :=
  maxInt 0 ((List.range 4).flatMap (fun k => (List.range 16).map (fun l =>
    ((tabGet {} (getStack s (4 * b + k)).layers l).temp15 + 14) / 15)))

/-- The least factor of Table 13-6 that applies to berth b, never below 0.25. -/
def capFactor (s : State) (b : Nat) : Nat :=
  max 250000 ([heatFactor ((getBerth s b).th - 95000), heatFactor (nearLayer s b - 95000),
    heatFactor (s.thermal.tIn - 40000), if s.thermal.coolingFault then 500000 else 1000000, inputFactor s].foldl min 1000000)

/-- The ramp code of berth b (R419). -/
def rampCode (s : State) (b : Nat) : Nat :=
  match berthPart s b with
  | some p => (partRecord s p).ramp
  | none => 2

/-- The present cap of berth b in mW, from its power over the last 100 µs and its factor (R409, R419). -/
def berthCap (s : State) (b power factor : Nat) : Nat :=
  min (min 900000 (power + 168000 / 2 ^ rampCode s b)) (900000 * factor / 1000000)

/-- The throttle fraction in 1/64 for a cap: 1 at the full cap, otherwise a fraction that the manual does not fix. -/
def throttleFor (s : State) (b cap : Nat) : Nat :=
  if cap = 900000 then 64 else 1 + (Config.throttle s.fresh b).toNat

/-- The highest step whose frequency does not exceed u × 1.7 GHz; step 0 where none does (R409). -/
def stepFor (u : Nat) : Nat := min 9 (17 * u / 64 - 8)

/-- LIMITER_TICK: above its cap, the berth's issue cycles are withheld (R408). -/
def execLimiterTick (berth power : Nat) (s : State) : Out :=
  guarded (hasBerth s berth)
    (onceReleased s 7 (updBerth s berth (fun x => { x with power := power, limiting := decide (x.cap < power) })))

/-! ## The thermal model (R410, R411) -/

/-- A first-order response moves towards x over 100 µs; `keep` is the share that stays, in 10⁻⁹ (R410). -/
def respond1 (y x : Int) (keep : Nat) : Int := x + (y - x) * keep / 1000000000

/-- The shares that stay after 100 µs at τ = 0.5 ms and τ = 50 ms. -/
def fastKeep : Nat := 818730753
def slowKeep : Nat := 998001999

/-- The model's responses after one evaluation. -/
def Berth.respond (x : Berth) (r : BerthReading) : Berth :=
  let core (e : Nat) : Int := 350 * ((r.railPower.getD e 0 - r.power / 16 : Nat) : Int)
  { x with
    fast := respond1 x.fast (20 * r.power) fastKeep
    slow := respond1 x.slow (30 * r.power) slowKeep
    regionFast := tabBuild (fun _ => 0) 16 (fun e => respond1 (tabGet 0 x.regionFast e) (core e) fastKeep) }

/-- T_model of sensor i of a berth, in 0.001 °C: sensors 0 to 127 of the die, eight in each region, 128 to 133 of the base
layer. -/
def Berth.model (x : Berth) (tOut : Int) (i : Nat) : Int :=
  tOut + (x.fast + x.slow + (if i < 128 then tabGet 0 x.regionFast (i / 8) else 0)) / 1000

/-- The reading of sensor i. -/
def sensorOf (r : BerthReading) (i : Nat) : Int := if i < 128 then r.die.getD i 0 else r.base.getD (i - 128) 0

/-- The sensors whose readings stand in for sensor i: those of its region pair, or of the base layer, not suspect. -/
def Berth.peers (x : Berth) (i : Nat) : List Nat :=
  let all := if i < 128 then (List.range 16).map (16 * (i / 16) + ·) else (List.range 6).map (128 + ·)
  all.filter (fun j => j != i && !x.suspect.contains j)

/-- The figure of sensor i: its reading, or for a suspect sensor the larger of its neighbours' and its model (R411). -/
def Berth.figure (x : Berth) (r : BerthReading) (tOut : Int) (i : Nat) : Int :=
  if x.suspect.contains i then maxInt 0 (x.model tOut i :: (x.peers i).map (sensorOf r)) else sensorOf r i

/-- The temperature of a region, and the base-layer estimate (R411). -/
def Berth.regionTemp (x : Berth) (r : BerthReading) (tOut : Int) (e : Nat) : Int :=
  maxInt 0 ((List.range 8).map (fun k => x.figure r tOut (8 * e + k)))
def Berth.baseTemp (x : Berth) (r : BerthReading) (tOut : Int) : Int :=
  maxInt 0 ((List.range 6).map (fun k => x.figure r tOut (128 + k)))

/-- Since when sensor i has differed from its model by more than 6 °C; Tide + 1, 0 while it does not. -/
def Berth.offNow (x : Berth) (r : BerthReading) (tOut : Int) (t i : Nat) : Nat :=
  if 6000 < (sensorOf r i - x.model tOut i).natAbs then (if tabGet 0 x.offSince i = 0 then t + 1 else tabGet 0 x.offSince i)
  else 0

/-- A berth after the evaluation of its model. -/
def Berth.evaluate (x : Berth) (r : BerthReading) (tOut : Int) (t : Nat) : Berth :=
  let y := x.respond r
  let base := y.baseTemp r tOut
  { y with
    power := r.power
    readings := tabBuild (fun _ => 0) 134 (sensorOf r)
    offSince := tabBuild (fun _ => 0) 134 (y.offNow r tOut t)
    baseEst := base
    th := maxInt base (base :: (List.range 16).map (fun e => y.regionTemp r tOut e)) }

/-- The regions of a berth take their temperatures and bands (R160). -/
def regionBands (s : State) (r : BerthReading) (tOut : Int) : State :=
  let x := getBerth s r.berth
  (List.range 16).foldl (fun t e =>
    let T := x.regionTemp r tOut e
    updRegion t r.berth e (fun g => { g with temp := T, band := nextBand g.band T })) s

/-- A temperature limit of Table 13-8 is newly reached: fault event 0x0602 with the temperature in 0.1 °C. -/
def heatEvent (s : State) (site : Nat) (limit old new : Int) : State :=
  if old < limit ∧ limit ≤ new then
    raise s
      { code := 0x0602
        site := site
        part := (sitePart s site).getD 0xF
        arg := ofSigned 64 (new / 100) }
  else s

/-- The sensors of one berth are evaluated (R410, R411, R417). -/
def berthHeat (tOut : Int) (s : State) (r : BerthReading) : State :=
  if hasBerth s r.berth then
    let old := (getBerth s r.berth).th
    let s1 := regionBands (updBerth s r.berth (fun x => x.evaluate r tOut (now s))) r tOut
    heatEvent s1 r.berth 100000 old (getBerth s1 r.berth).th
  else s

/-- The cap, the throttle and the steps of one berth are set (R409). -/
def berthPower (s : State) (r : BerthReading) : State :=
  if hasBerth s r.berth then
    let f := capFactor s r.berth
    let cap := berthCap s r.berth r.power f
    let u := throttleFor s r.berth cap
    let s1 := updBerth s r.berth (fun x => { x with factor := f, cap := cap, throttle := u })
    (List.range 16).foldl (fun t e =>
      updRegion t r.berth e (fun g => { g with powerStep := stepFor u }.request)) s1
  else s

/-- The pre-emphasis band of a port (Table 09-3), with its 2 °C of hysteresis. -/
def portBand (band : Nat) (t : Int) : Nat :=
  let up := if 75000 < t then 2 else if 55000 < t then 1 else 0
  let down := if 73000 ≤ t then 2 else if 53000 ≤ t then 1 else 0
  max up (min band down)

/-- The base-layer estimate nearest the port of a site (R412). -/
def portTemp (s : State) (k : Nat) : Int :=
  match siteKind k with
  | .berth b => (getBerth s b).baseEst
  | .stack n => (getBerth s (nearBerth n)).baseEst
  | .quay q => tabGet 0 s.thermal.quayTemp q
  | _ => s.thermal.hmTemp

/-- Every port takes its band; a change of its pre-emphasis set reaches its lanes one at a time (R291, R292). -/
def portBands (s : State) : State :=
  (sitesOf s).foldl (fun t k =>
    let b := portBand (getPort t k).band (portTemp t k)
    if b = (getPort t k).band then t else trimPort (updPort t k (fun p => { p with band := b })) k false) s

/-- T_model of base-layer sensor i beneath no berth, in 0.001 °C: 0.05 °C for each W of the nearest site over T_out (R410). -/
def areaModel (tOut : Int) (power : Nat) : Int := tOut + ((power / 20 : Nat) : Int)

/-- The reading of such a sensor, and the power of its nearest site: the quays, the Harbourmaster area, the outlet edge. -/
def areaReading (r : ModuleReading) (i : Nat) : Int :=
  if i < 8 then r.quays.getD i 0 else if i < 12 then r.hmArea.getD (i - 8) 0 else r.edge.getD (i - 12) 0
def areaSite (r : ModuleReading) (i : Nat) : Nat := r.sitePower.getD i 0

/-- Its figure; one that is suspect is replaced by its model (R411). -/
def areaFigure (s : State) (r : ModuleReading) (i : Nat) : Int :=
  if s.thermal.suspect.contains i then areaModel r.tOut (areaSite r i) else areaReading r i

/-- Since when it has differed from its model by more than 6 °C; Tide + 1, 0 while it does not. -/
def areaOff (s : State) (r : ModuleReading) (i : Nat) : Nat :=
  if 6000 < (areaReading r i - areaModel r.tOut (areaSite r i)).natAbs then
    (if tabGet 0 s.thermal.areaSince i = 0 then now s + 1 else tabGet 0 s.thermal.areaSince i)
  else 0

/-- A quay whose sensor reaches 105 °C is taken to off, and its links fail (R415). -/
def quayHeat (s : State) (q : Nat) (t : Int) : State :=
  let old := tabGet 0 s.thermal.quayTemp q
  let s1 := heatEvent { s with thermal := { s.thermal with quayTemp := tabSet 0 s.thermal.quayTemp q t } } (quaySite q)
    100000 old t
  if 105000 ≤ t ∧ (getDomain s1 (quayDom q)).target ≠ .off then failQuayLinks (pushVia s1 (quayDom q) .off none) q else s1

/-- A thermal alarm is in force (R417). -/
def alarmHolds (s : State) : Bool :=
  (List.range s.ident.part).any (fun b => decide (100000 ≤ (getBerth s b).th)) ||
  (List.range (4 * s.ident.part)).any (fun n => (getStack s n).alarm) ||
  (List.range 8).any (fun q => decide (100000 ≤ tabGet 0 s.thermal.quayTemp q)) ||
  decide (45000 ≤ s.thermal.tIn)

/-- The Harbourmaster area at 100 °C, or the inlet at 55 °C, resets the module after its fault event (R415; log
entry 27). -/
def heatReset (s : State) : State :=
  let hot := decide (100000 ≤ s.thermal.hmTemp)
  if hot || decide (55000 ≤ s.thermal.tIn) then
    moduleReset (raise s
      { code := 0x0602
        site := if hot then hmSite else 0xFF
        arg := ofSigned 64 ((if hot then s.thermal.hmTemp else s.thermal.tIn) / 100) }) 0x10
  else s

/-- The module-wide readings are taken. -/
def takeReadings (s : State) (r : ModuleReading) : State :=
  let area := (List.range 4).map (fun i => areaFigure s r (8 + i))
  let s1 := heatEvent s hmSite 45000 s.thermal.tIn r.tIn
  let s2 := { s1 with thermal := { s1.thermal with
      tIn := r.tIn
      tOut := r.tOut
      hmTemp := maxInt 0 area
      areaRead := tabBuild (fun _ => 0) 16 (areaReading r)
      areaPower := tabBuild (fun _ => 0) 16 (areaSite r)
      areaSince := tabBuild (fun _ => 0) 16 (areaOff s r) } }
  (List.range 8).foldl (fun t q => quayHeat t q (areaFigure s r q)) s2

/-- POWER_CAP_TICK: every 100 µs the models, temperatures and bands, the caps, throttles and steps, and the alarms. -/
def powerCapTick (s : State) (r : ModuleReading) : State :=
  let s1 := r.berths.foldl (berthHeat r.tOut) (takeReadings s r)
  let s2 := portBands (r.berths.foldl berthPower s1)
  heatReset (nextFresh { s2 with thermal := { s2.thermal with alarm := alarmHolds s2 } })

def execPowerCapTick (r : ModuleReading) (s : State) : Out := .next (powerCapTick s r)

/-- A sensor has differed from its model for 10 ms; `since` is Tide + 1 of the first time, 0 while it does not. -/
def offLong (s : State) (since : Nat) : Bool := decide (since ≠ 0) && decide (since + 10000000 ≤ now s + 1)

/-- DIE_SENSOR_SUSPECT: a sensor of a berth that has differed from its model for 10 ms is marked, with its event; berth 8
stands for the base-layer sensors beneath no berth (log entry 26). -/
def dieSensor (s : State) (b i : Nat) : State :=
  if b = 8 then
    if !offLong s (tabGet 0 s.thermal.areaSince i) || s.thermal.suspect.contains i then s
    else sensorEvent { s with thermal := { s.thermal with suspect := insertNat i s.thermal.suspect } }
      (if i < 8 then quaySite i else hmSite) i (tabGet 0 s.thermal.areaRead i)
  else
    let x := getBerth s b
    if !offLong s (tabGet 0 x.offSince i) || x.suspect.contains i then s
    else sensorEvent (updBerth s b (fun y => { y with suspect := insertNat i y.suspect })) b i (tabGet 0 x.readings i)

def execDieSensorSuspect (berth sensor : Nat) (s : State) : Out :=
  guarded ((hasBerth s berth && decide (sensor < 134)) || (berth == 8 && decide (sensor < 16))) (dieSensor s berth sensor)

/-! ## Cooling (R413, R414, R496) -/

/-- Some berth runs with a factor below 1. -/
def throttled (s : State) (b : Nat) : Bool := decide ((getBerth s b).factor < 1000000)

/-- The flow request in 0.1 L/min (R413). -/
def flowRequest (s : State) (powerIn : Nat) : Nat :=
  if s.thermal.alarm || s.thermal.coolingFault || (List.range s.ident.part).any (throttled s) then 200
  else min 200 (max 40 (ceilDiv (152 * powerIn) 10000000))

/-- The estimate of the flow is below 0.75 times the request in force, at 1 kW or more (R414). -/
def lowFlow (s : State) (powerIn : Nat) (tIn tOut : Int) : Bool :=
  decide (1000000 ≤ powerIn) && decide (tIn < tOut) && decide ((powerIn : Int) < 5 * s.thermal.flowReq * (tOut - tIn))

/-- The base-layer sensors beneath the berths that are not suspect, each as its difference from its model. -/
def baseExcess (s : State) : List Int :=
  (List.range s.ident.part).flatMap (fun b =>
    let x := getBerth s b
    ((List.range 6).filter (fun k => !x.suspect.contains (128 + k))).map (fun k =>
      tabGet 0 x.readings (128 + k) - x.model s.thermal.tOut (128 + k)))

/-- The mean of those sensors exceeds the mean of their models by more than 6 °C (R414). -/
def hotBase (s : State) : Bool :=
  let l := baseExcess s
  decide (l ≠ []) && decide (6000 * (l.length : Int) < l.foldl (· + ·) 0)

/-- A condition keeps the Tide since which it has held. -/
def sinceTide (t : Nat) (holds : Bool) (o : Option Nat) : Option Nat :=
  if holds then (match o with
    | some x => some x
    | none => some t)
  else none

/-- The greatest of the temperatures of a list, 0 at least. -/
def hottest (l : List Int) : Int := l.foldl max 0

/-- THERM_SUMMARY from the present state (Table 16-9). -/
def thermSummary (s : State) : Nat :=
  let bs := List.range s.ident.part
  let caps := bs.map (fun b => (getBerth s b).cap)
  s.thermal.flowReq % 256 <<< 56 + celsius s.thermal.tOut <<< 48 + celsius s.thermal.tIn <<< 40 +
  celsius (hottest (bs.map (nearLayer s))) <<< 32 + celsius (hottest (bs.map (fun b => (getBerth s b).th))) <<< 24 +
  min 255 (caps.foldl min 900000 / 4000) <<< 16 + ofBits (bs.filter (throttled s)) <<< 8 + bit s.thermal.alarm <<< 7 +
  bit s.thermal.coolingFault <<< 6 +
  bit (bs.any (fun b => (getBerth s b).hold || (getBerth s b).stopped)) <<< 5

/-- FLOW_REQUEST_TICK: every 100 ms the conditions of a cooling fault, the flow request and the summary. -/
def flowTick (s : State) (powerIn : Nat) (tIn tOut : Int) : State :=
  let low := lowFlow s powerIn tIn tOut
  let hot := hotBase s
  let s0 := settleStore s
  let s1 := { s0 with thermal := { s0.thermal with
      tIn := tIn
      tOut := tOut
      powerIn := powerIn
      flowReq := flowRequest s powerIn
      lowSince := sinceTide (now s) low s.thermal.lowSince
      hotSince := sinceTide (now s) hot s.thermal.hotSince
      clearSince := sinceTide (now s) (!low && !hot) s.thermal.clearSince } }
  heatReset { s1 with thermal := { s1.thermal with summary := BitVec.ofNat 64 (thermSummary s1) } }

def execFlowRequestTick (powerIn : Nat) (tIn tOut : Int) (s : State) : Out := .next (flowTick s powerIn tIn tOut)

/-- COOLING_FAULT: a condition has held for 1 s. -/
def coolingFault (s : State) (why : CoolingCause) : State :=
  let since := match why with
    | .lowFlow => s.thermal.lowSince
    | .hotBase => s.thermal.hotSince
  match since with
  | some t =>
    if now s < t + 1000000000 ∨ s.thermal.coolingFault then s
    else
      raise { s with thermal := { s.thermal with coolingFault := true, flowReq := 200 } }
        { code := 0x0602
          arg := ofSigned 64 (s.thermal.tOut / 100) }
  | none => s

def execCoolingFault (why : CoolingCause) (s : State) : Out := .next (coolingFault s why)

/-- COOLING_FAULT_CLEAR: both conditions have been absent for 10 s. -/
def execCoolingFaultClear (s : State) : Out :=
  .next (match s.thermal.clearSince with
    | some t =>
      if t + 10000000000 ≤ now s then { s with thermal := { s.thermal with coolingFault := false } } else s
    | none => s)

/-! ## Berth shutdown (R416) -/

/-- The regions and engines of a berth stop: their domains are off. -/
def stopDomains (s : State) (b : Nat) : State :=
  (List.range 16).foldl (fun t e =>
    [engineDom b e, regionDom b e].foldl (fun u d =>
      updDomain (finishPark (parkDomain u d) d) d (fun x => { x with state := .off })) t) s

/-- BERTH_SHUTDOWN: T_h has reached 105 °C. The berth stops, and its partition resets with cause thermal; a berth of no
partition takes a block reset and enters its hold at once. During a module reset, which is the wider one, the partition's reset is
dropped and counted, and the hold begins at once (R416, R423; log entry 45). -/
def berthShutdown (s : State) (b : Nat) : State :=
  let x := getBerth s b
  if x.th < 105000 ∨ x.stopped = true ∨ x.hold = true then s
  else
    let s1 := raise s
      { code := 0x0602
        site := b
        part := partField s b
        arg := ofSigned 64 (x.th / 100) }
    let s2 := updBerth (stopDomains s1 b) b (fun y => { y with stopped := true })
    match berthPart s b with
    | some p =>
      let t := beginPartitionReset s2 p 1
      if s.rst.ready then t else updBerth t b (fun y => { y with hold := true })
    | none => updBerth (resetBerth s2 false b) b (fun y => { y with hold := true })

def execBerthShutdown (berth : Nat) (s : State) : Out := guarded (hasBerth s berth) (berthShutdown s berth)

/-- THERMAL_HOLD_END: below 85 °C the berth returns, its role epoch one higher, and its regions and engines return to
on. -/
def thermalHoldEnd (s : State) (b : Nat) (temp : Int) : State :=
  if (getBerth s b).hold && decide (temp < 85000) then
    let s1 := updBerth s b (fun y => { y with hold := false, stopped := false, th := temp })
    let s2 := updSite s1 b (fun x => { x with epoch := x.epoch + 1 })
    let s3 := send s2 (.epoch b ((getSite s b).epoch + 1))
    (List.range 16).foldl (fun t e => wakeEngine t b e) s3
  else s

def execThermalHoldEnd (berth : Nat) (temp : Int) (s : State) : Out :=
  guarded (hasBerth s berth) (thermalHoldEnd s berth temp)

/-- ALWAYS_ON_THERMAL_SAMPLE: while the module sleeps, a Harbourmaster-area sensor, T_in or T_out at 85 °C, or T_in at
45 °C, raises the alarm, which wakes the module (R417). -/
def thermalSample (s : State) (hmArea : List Int) (tIn tOut : Int) : State :=
  let hot := (tIn :: tOut :: hmArea).any (fun t => decide (85000 ≤ t)) || decide (45000 ≤ tIn)
  let s1 := { s with thermal := { s.thermal with tIn := tIn, tOut := tOut, hmTemp := maxInt 0 hmArea } }
  if !s.io.asleep then s
  else if hot then
    let s2 := { s1 with thermal := { s1.thermal with alarm := true } }
    let s3 := if s.thermal.alarm then s2 else raise s2
      { code := 0x0602
        arg := ofSigned 64 (hottest (tIn :: tOut :: hmArea) / 100) }
    wakeModule s3 6 [] []
  else s1

def execAlwaysOnThermalSample (hmArea : List Int) (tIn tOut : Int) (s : State) : Out :=
  .next (thermalSample s hmArea tIn tOut)

end Sys2Proof.Machine
end

