-- ==== Sys2Proof/Machine/Registers.lean ====
section
/-! DEFINITION. The fault-event ring (R497 to R499), the error log (R483), the management port (R516 to R521) and register
writes through BAR0 (R489 to R494, spec/16_register_map.md, spec/17_physical_interfaces.md). -/

namespace Sys2Proof.Machine

/-! ## FE_CTRL, FE_BASE, FE_PTR -/

/-- The fault-event ring as the registers describe it may be enabled (R497). -/
def feAccepts (s : State) (f : FaultGroup) : Bool :=
  let len := 32 * 2 ^ f.log2S
  decide (4 ≤ f.log2S) && decide (f.log2S ≤ 16) && f.base != 0 && decide (f.vector < vectorCount 0) &&
  (f.hostRing ||
    (decide (f.base < 2 ^ 47) && addrPos f.base == ownPos s && inMemory s f.base len &&
     (match placeOf s.ident.part (addrLocal f.base) with
      | .dram _ => true
      | _ => false) &&
     (askedMailbox s 0 0).reach s .store f.base len))

/-- The fields of FE_CTRL that a write sets while ENABLE is 0 (Table 16-11). -/
def FaultGroup.feFields (f : FaultGroup) (n : Nat) : FaultGroup :=
  { f with irq := bitAt n 30, hostRing := bitAt n 29, vector := fld n 16 11, log2S := fld n 0 5 }

/-- Events that have room in the ring but are not yet written are held when ENABLE is cleared; events beyond 1024 are lost
(R499). -/
def FaultGroup.holdArriving (f : FaultGroup) : FaultGroup :=
  let l := f.held ++ f.arriving
  { f with held := l.take 1024, arriving := [], lost := min (f.lost + (l.length - 1024)) 0xFFFFFFFF }

/-- A write of FE_CTRL (R497, R498): while ENABLE is 1 only ENABLE and IRQ are written. -/
def feCtrl (s : State) (v : W32) : State :=
  let n := v.toNat
  let f := s.faults
  if f.enable then
    let g := { f with irq := bitAt n 30 }
    { s with faults := if bitAt n 31 then g else { g.holdArriving with enable := false } }
  else
    let g := f.feFields n
    { s with faults :=
        if !bitAt n 31 then g
        else if feAccepts s g then { g with enable := true, rejected := false, head := 0, tail := 0 }
        else { g with rejected := true } }

/-- A register of the physical function can be written over PCI Express (R426, R428). -/
def barOpen (s : State) : Bool := powered s && s.rst.pcieUp

/-- FE_ENABLE: a write of FE_CTRL with ENABLE = 1. -/
def execFeEnable (value : W64) (s : State) : Out :=
  .next (if barOpen s && value.getLsbD 31 then feCtrl s (value.setWidth 32) else s)

/-- FE_DISABLE: a write of FE_CTRL with ENABLE = 0. -/
def execFeDisable (value : W64) (s : State) : Out :=
  .next (if barOpen s && !value.getLsbD 31 then feCtrl s (value.setWidth 32) else s)

/-- A write of HEAD; one that runs ahead of TAIL or moves by more than the ring is ignored (R499). -/
def feHead (s : State) (v : W32) : State :=
  let f := s.faults
  let d := (v - f.head).toNat
  if d ≤ (f.tail - f.head).toNat ∧ d ≤ 2 ^ f.log2S then { s with faults := { f with head := v } } else s

def execFeHeadWrite (value : W32) (s : State) : Out := .next (if barOpen s then feHead s value else s)

/-! ## Delivery (R481, R485, R499) -/

/-- The entry of an event (Table 15-11), with its phase. -/
def eventEntry (e : FaultEv) (phase : Nat) : Nat :=
  phase <<< 255 + bit e.replayed <<< 254 + (e.outcome % 8) <<< 251 + (e.guarantee % 8) <<< 248 + (e.level % 16) <<< 244 +
  (e.part % 16) <<< 240 + (e.code % 2 ^ 16) <<< 224 + (e.site % 256) <<< 216 + (e.pos % 32) <<< 211 +
  (e.unit % 2 ^ 16) <<< 192 + (e.arg % 2 ^ 64) <<< 128 + (e.tide % 2 ^ 64) <<< 64 + (e.count % 2 ^ 32) <<< 32 +
  e.seq % 2 ^ 32

/-- The next event to deliver and what stays: replayed entries first, then the held events, then new ones. -/
def FaultGroup.nextEvent (f : FaultGroup) : Option (FaultEv × FaultGroup) :=
  match f.replay, f.held, f.arriving with
  | e :: l, _, _ => some (e, { f with replay := l })
  | [], e :: l, _ => some (e, { f with held := l })
  | [], [], e :: l => some (e, { f with arriving := l })
  | [], [], [] => none

/-- The address of the ring slot of entry `n`. -/
def feSlot (f : FaultGroup) (n : W32) : Nat := f.base + 32 * (n.toNat % 2 ^ f.log2S)

/-- Write the next event to the ring when it has room, then send the interrupt. -/
def deliverEvent (s : State) : State :=
  let f := s.faults
  if !s.rst.ready || !f.enable || decide (2 ^ f.log2S ≤ (f.tail - f.head).toNat) then s
  else match f.nextEvent with
    | none => s
    | some (e, g) =>
      let s1 := { s with faults := { g with tail := g.tail + 1 } }
      let s2 := writeSlot s1 f.hostRing (feSlot f f.tail)
        (bytesLE 32 (eventEntry e (phaseOf f.tail.toNat (2 ^ f.log2S))))
      if f.irq then msix s2 0 f.vector else s2

def execFaultEventDelivery (s : State) : Out := .next (if powered s then deliverEvent s else s)

/-- The oldest event not yet in the error log is written to it; the log keeps the latest 1 048 576 (R483). -/
def FaultGroup.logOne (f : FaultGroup) : FaultGroup :=
  match f.unlogged with
  | [] => f
  | e :: rest =>
    let l := f.log ++ [e]
    { f with log := l.drop (l.length - 1048576), logCount := f.logCount + 1, unlogged := rest }

def execErrorLogWrite (s : State) : Out := .next (if powered s then { s with faults := s.faults.logOne } else s)

/-! ## Management port (R516 to R521) -/

/-- The value that a write transaction gives a register: every one of its bytes was written (R518). -/
def mpCovers (offset : Nat) (data : List Byte) (reg width : Nat) : Option (List Byte) :=
  if offset ≤ reg ∧ reg + width ≤ offset + data.length then some ((data.drop (reg - offset)).take width) else none

/-- Apply a write to a register when the transaction covers it. -/
def mpWrite (offset : Nat) (data : List Byte) (reg width : Nat) (f : State → List Byte → State) (s : State) : State :=
  match mpCovers offset data reg width with
  | some bs => f s bs
  | none => s

/-- The image registers act (R521). -/
def imgActive (s : State) : Bool := s.rst.romRecovery || s.rst.stalledB5

/-- A write of DUMP_CTRL: window and record are selected, READY is cleared (R520). -/
def dumpSelect (s : State) (v : W32) : State :=
  { s with io := { s.io with dumpWindow := fld v.toNat 16 16, dumpRecord := fld v.toNat 0 2, dumpReady := false } }

/-- A write of IMG_CTRL: the window, and with COMMIT = 1 the verification begins (R521). -/
def imgCtrl (s : State) (v : W32) : State :=
  if imgActive s then
    let io := { s.io with imgWindow := fld v.toNat 16 16 }
    { s with io := if bitAt v.toNat 8 then { io with imgState := 2 } else io }
  else s

/-- A full write of IMG_DATA stores its bytes at 256 × WINDOW (R521). -/
def imgStore (s : State) (bs : List Byte) : State :=
  if imgActive s then
    { s with io :=
        { s.io with
          imgData := putBytes s.io.imgData (256 * s.io.imgWindow) bs
          imgState := if s.io.imgState = 2 then 2 else 1 } }
  else s

/-- A write of IMG_LEN (R521). -/
def imgLength (s : State) (bs : List Byte) : State :=
  if imgActive s then { s with io := { s.io with imgLen := BitVec.ofNat 32 (leNat bs) } } else s

/-- A write of HBR_POS or of HBR_MEMBERS: reserved bits stay zero (Table 11-1). -/
def hbrPosWrite (s : State) (bs : List Byte) : State :=
  { s with harbour := { s.harbour with hbrPos := BitVec.ofNat _ (leNat bs) &&& 0x9F } }
def hbrMembersWrite (s : State) (bs : List Byte) : State :=
  { s with harbour := { s.harbour with hbrMembers := BitVec.ofNat _ (leNat bs % 2 ^ 25) } }

/-- What a write transaction changes at its end: the registers it covers whole, by rising offset (R518, Table 17-5). -/
def mpTransaction (s : State) (offset : Nat) (data : List Byte) : State :=
  let w (reg width : Nat) (f : State → List Byte → State) : State → State := mpWrite offset data reg width f
  let s1 := w 0x000C 4 hbrMembersWrite (w 0x0008 1 hbrPosWrite s)
  let s2 := w 0x0040 4 (fun t bs => dumpSelect t (BitVec.ofNat 32 (leNat bs))) s1
  let s3 := w 0x0200 4 (fun t bs => imgCtrl t (BitVec.ofNat 32 (leNat bs))) s2
  w 0x0300 256 imgStore (w 0x0204 4 imgLength s3)

/-- MP_WRITE_TRANSACTION. -/
def execMpWriteTransaction (offset : Nat) (data : List Byte) (s : State) : Out :=
  .next (if s.power.alwaysOn then mpTransaction s offset data else s)

/-- MP_DYNAMIC_ADDRESS: SETDASA or ENTDAA (Table 17-4). -/
def execMpDynamicAddress (addr : Nat) (s : State) : Out :=
  .next (if s.power.alwaysOn then { s with io := { s.io with mpDynamic := some addr } } else s)

/-- DUMP_CTRL. -/
def execDumpCtrl (value : W32) (s : State) : Out := .next (if s.power.alwaysOn then dumpSelect s value else s)

/-- DUMP_WINDOW_LOADED. -/
def execDumpWindowLoaded (s : State) : Out :=
  .next (if powered s then { s with io := { s.io with dumpReady := true } } else s)

/-- IMG_COMMIT: a write of IMG_CTRL with COMMIT = 1. -/
def execImgCommit (value : W32) (s : State) : Out :=
  .next (if s.power.alwaysOn && bitAt value.toNat 8 then imgCtrl s value else s)

/-- The uploaded image: its first IMG_LEN bytes. -/
def imgBytes (s : State) : List Byte := (List.range s.io.imgLen.toNat).map (tabGet 0#8 s.io.imgData)

/-- The uploaded image verifies with the vendor key (R441). -/
def imgGood (s : State) : Bool :=
  let x := Config.imageSigned (imgBytes s)
  ecdsaVerify vendorKey x.1 x.2

/-- IMG_VERIFY_DONE: an image that verifies against the vendor key goes to slot B and boot restarts from stage B0; one that
fails replaces nothing (R441, R521). -/
def imgVerify (s : State) : State :=
  if !imgActive s || s.io.imgState != 2 then s
  else if imgGood s then
    { s with
      sec := { s.sec with
        slotB := imgBytes s
        slots := [slotRelease s 0, Config.imageRelease (imgBytes s)] }
      io := { s.io with imgState := 3 }
      rst := { s.rst with romRecovery := false, stalledB5 := false, stage := 0, time0 := now s } }
  else { s with io := { s.io with imgState := 4 } }

def execImgVerifyDone (s : State) : Out := .next (if powered s then imgVerify s else s)

/-! ## Register writes through BAR0 (R489 to R494, Table 16-2) -/

/-- `old` of 8 bytes with the bytes of an aligned write at byte `o` replaced. -/
def mergeWrite (old o : Nat) (bs : List Byte) : Nat := setFld old (8 * o) (8 * bs.length) (leNat bs)

/-- A write to MBX_REQ; ignored while a request is pending (R501). -/
def mbxReqWrite (s : State) (fn o : Nat) (bs : List Byte) : State :=
  if (getMbx s fn).pending then s
  else updMbx s fn (fun m => { m with req := setFld m.req (8 * o) (8 * bs.length) (leNat bs) })

/-- MBX_CTRL as it reads (Table 16-14). -/
def mbxCtrlWord (s : State) (fn : Nat) : Nat :=
  let m := getMbx s fn
  m.tag.toNat <<< 48 + bit m.irq <<< 16 + m.vector

/-- A write to an entry of the MSI-X table. Bits 31 to 1 of its vector control are reserved: a write of them is ignored (R11). An
entry unmasked with its pending bit set sends its message (R191, R493). -/
def msixWrite (s : State) (fn v o : Nat) (bs : List Byte) : State :=
  let k := fn * 128 + v
  let x := tabGet {} s.io.msix k
  let old := x.addr.toNat + x.data.toNat <<< 64 + x.ctrl.toNat <<< 96
  let new := setFld old (8 * o) (8 * bs.length) (leNat bs)
  let y : MsixVec :=
    { addr := BitVec.ofNat 64 (fld new 0 64)
      data := BitVec.ofNat 32 (fld new 64 32)
      ctrl := BitVec.ofNat 32 (fld new 96 1)
      pend := x.pend }
  let put (z : MsixVec) : State := { s with io := { s.io with msix := tabSet {} s.io.msix k z } }
  if y.pend && !y.ctrl.getLsbD 0 then send (put { y with pend := false }) (.msix fn v) else put y

/-- A write to a register of the physical function only (the rows that Table 16-2 marks zero for a virtual function). -/
def pfWrite (s : State) (off : Nat) (bs : List Byte) : State :=
  let reg := off / 8 * 8
  let o := off % 8
  if reg = 0x18 then
    let v := leNat bs
    if bs.length = 8 ∧ bitAt v 63 = true ∧ v % 0x10000 = 0x5253 then moduleReset s 5 else s
  else if reg = 0x40 then
    if s.faults.enable then s
    else { s with faults := { s.faults with base := mergeWrite s.faults.base o bs / 4096 * 4096 } }
  else if off = 0x48 then feCtrl s (BitVec.ofNat 32 (leNat bs))
  else if reg = 0x50 ∧ o + bs.length = 8 then feHead s (BitVec.ofNat 32 (leNat bs / 2 ^ (8 * (bs.length - 4))))
  else s

/-- An aligned write through BAR0 of a function. -/
def barWrite (s : State) (fn off : Nat) (bs : List Byte) : State :=
  if 0x100 ≤ off ∧ off + bs.length ≤ 0x140 then mbxReqWrite s fn (off - 0x100) bs
  else if bs.length = 64 then s
  else if off / 8 * 8 = 0x140 then mbxCtrl s fn (BitVec.ofNat 64 (mergeWrite (mbxCtrlWord s fn) (off % 8) bs))
  else if off < 0x100 then (if fn = 0 then pfWrite s off bs else s)
  else if 0x20000 ≤ off ∧ off < 0x20000 + 16 * vectorCount fn then
    msixWrite s fn ((off - 0x20000) / 16) (off % 16) bs
  else match doorbellAt s off with
    | some d => if doorbellOpen s (.bar0 fn) d.1 then mirrorWrite s off bs else s
    | none => s

/-- The access is aligned and of a size that the register takes (R490). -/
def barAligned (off len : Nat) : Bool :=
  (len == 4 || len == 8 || (len == 64 && off == 0x100)) && off % len == 0 && decide (off + len ≤ 0x40000)

/-- Configuration space answers: from 100 ms after step 9 of Table 14-3 (R428, R514). -/
def configOpen (s : State) : Bool := powered s && s.rst.pcieUp && decide (s.rst.pcieAt + 100000000 ≤ now s)

/-- A write of NumVFs, a register of the physical function's configuration space (R513; log entry 48). -/
def numVFsWrite (s : State) (fn : Nat) (data : List Byte) : State :=
  if configOpen s && fn == 0 then { s with io := { s.io with numVFs := leNat data } } else s

/-- REGISTER_WRITE: through BAR0 of a function, or of NumVFs. -/
def execRegisterWrite (space : RegSpace) (offset : Nat) (data : List Byte) (s : State) : Out :=
  guarded (hasFn space.fn)
    (match space with
     | .bar0 fn => if barOpen s && fnPresent s fn && barAligned offset data.length then barWrite s fn offset data else s
     | .numVFs fn => numVFsWrite s fn data)

end Sys2Proof.Machine
end

