-- ==== Sys2Proof/Machine/Sync.lean ====
section
/-! DEFINITION. The synchronisation opcodes (Table 06-11, R203 to R206). -/

namespace Sys2Proof.Machine

/-- CNT_WAIT completes when the counter of the context's berth is at least VALUE. -/
def execCntWait (id : CmdId) (s : State) : Out :=
  onStarted s id 0x0200 (fun c =>
    if fld c.params 64 64 ≤ (getCounter s c.berth (fld c.params 0 16)).toNat then finishCmd s id none []
    else s)

/-- CNT_ADD adds to the counter at TARGET, modulo 2⁶⁴, behind the earlier additions of its berth to that endpoint (R24). On
another module the addition is a request, whose answer the
entry waits for; a target that does not respond gives the result of R26 or R30 (R204). -/
def execCntAdd (id : CmdId) (s : State) : Out :=
  onStarted s id 0x0201 (fun c =>
    let w := sendAddition s c (fld c.params 0 64) (BitVec.ofNat 64 (fld c.params 64 64))
    finishCmd w.1 id w.2 [])

/-- CNT_SET writes the counter in one atomic write (R205). -/
def execCntSet (id : CmdId) (s : State) : Out :=
  onStarted s id 0x0202 (fun c =>
    finishCmd (updCounter s c.berth (fld c.params 0 16) (fun _ => BitVec.ofNat 64 (fld c.params 64 64))) id
      none [])

/-- CNT_READ writes the counter's value to DEST. -/
def execCntRead (id : CmdId) (s : State) : Out :=
  onStarted s id 0x0203 (fun c =>
    let d := fld c.params 64 64
    let v := (getCounter s c.berth (fld c.params 0 16)).toNat
    awake s c [⟨.store, d, 8⟩] (fun s => finishWork s c [⟨.store, d, 8⟩] none (layAt d (bytesLE 8 v))))

/-- TIDE_WAIT completes when Tide has reached TIDE_NS. -/
def execTideWait (id : CmdId) (s : State) : Out :=
  onStarted s id 0x0210 (fun c => if fld c.params 0 64 ≤ now s then finishCmd s id none [] else s)

/-- TIDE_READ writes the Tide value sampled at the command's start to DEST. -/
def execTideRead (id : CmdId) (s : State) : Out :=
  onStarted s id 0x0211 (fun c =>
    let d := fld c.params 0 64
    awake s c [⟨.store, d, 8⟩] (fun s => finishWork s c [⟨.store, d, 8⟩] none (layAt d (bytesLE 8 c.tideStart))))

/-- No command that the context took in earlier is still in flight. The commands of a context stand in the order of their
fetch, whatever their 32-bit sequence numbers are (R174); the nodes of a graph run stand behind it. -/
def earlierDone (x : Context) (id : CmdId) : Bool :=
  (x.flight.takeWhile (fun m => decide (m.id ≠ id))).all (fun m => decide (m.id.node ≠ none))

/-- CTX_DRAIN completes when every earlier command of the context has completed (R206). -/
def execCtxDrain (id : CmdId) (s : State) : Out :=
  onStarted s id 0x0220 (fun _ => if earlierDone (getCtx s id.ctx) id then finishCmd s id none [] else s)

end Sys2Proof.Machine
end

