-- ==== Sys2Proof/Machine/Dispatch.lean ====
section
/-! DEFINITION. The commands and their meanings: one arm for each row of the opcode table. -/

namespace Sys2Proof.Machine

def exec (i : Instr) (s : State) : Host.Outcome State Fault Refusal :=
  match i with
  | .ctxOpen fn => Sys2Proof.Machine.execCtxOpen fn s
  | .ctxClose fn => Sys2Proof.Machine.execCtxClose fn s
  | .ctxAbort fn => Sys2Proof.Machine.execCtxAbort fn s
  | .ctxQuery r => Sys2Proof.Machine.execCtxQuery r s
  | .fwInfo r => Sys2Proof.Machine.execFwInfo r s
  | .healthRead r => Sys2Proof.Machine.execHealthRead r s
  | .roleChange fn => Sys2Proof.Machine.execRoleChange fn s
  | .roleDrainDone site => Sys2Proof.Machine.execRoleDrainDone site s
  | .domainSet r => Sys2Proof.Machine.execDomainSet r s
  | .domainTransitionDone domain => Sys2Proof.Machine.execDomainTransitionDone domain s
  | .tideAlarm r => Sys2Proof.Machine.execTideAlarm r s
  | .tideAlarmFire => Sys2Proof.Machine.execTideAlarmFire s
  | .tugCopy id => Sys2Proof.Machine.execTugCopy id s
  | .tugFill id => Sys2Proof.Machine.execTugFill id s
  | .tugChunkDone id chunk => Sys2Proof.Machine.execTugChunkDone id chunk s
  | .cntWait id => Sys2Proof.Machine.execCntWait id s
  | .cntAdd id => Sys2Proof.Machine.execCntAdd id s
  | .cntSet id => Sys2Proof.Machine.execCntSet id s
  | .cntRead id => Sys2Proof.Machine.execCntRead id s
  | .tideWait id => Sys2Proof.Machine.execTideWait id s
  | .tideRead id => Sys2Proof.Machine.execTideRead id s
  | .ctxDrain id => Sys2Proof.Machine.execCtxDrain id s
  | .matmul id => Sys2Proof.Machine.execMatmul id s
  | .optMatmul id => Sys2Proof.Machine.execOptMatmul id s
  | .convert id => Sys2Proof.Machine.execConvert id s
  | .transpose id => Sys2Proof.Machine.execTranspose id s
  | .ewise id => Sys2Proof.Machine.execEwise id s
  | .tableFn id => Sys2Proof.Machine.execTableFn id s
  | .reduce id => Sys2Proof.Machine.execReduce id s
  | .softmax id => Sys2Proof.Machine.execSoftmax id s
  | .attention id => Sys2Proof.Machine.execAttention id s
  | .allReduce id => Sys2Proof.Machine.execAllReduce id s
  | .allGather id => Sys2Proof.Machine.execAllGather id s
  | .reduceScatter id => Sys2Proof.Machine.execReduceScatter id s
  | .broadcast id => Sys2Proof.Machine.execBroadcast id s
  | .collectiveRendezvous collId remoteAgree => Sys2Proof.Machine.execCollectiveRendezvous collId remoteAgree s
  | .graphLoad id => Sys2Proof.Machine.execGraphLoad id s
  | .graphRun id => Sys2Proof.Machine.execGraphRun id s
  | .graphUnload id => Sys2Proof.Machine.execGraphUnload id s
  | .graphNodeStart id => Sys2Proof.Machine.execGraphNodeStart id s
  | .graphEdgeStatus id producer status => Sys2Proof.Machine.execGraphEdgeStatus id producer status s
  | .selftest r => Sys2Proof.Machine.execSelftest r s
  | .calibrate r => Sys2Proof.Machine.execCalibrate r s
  | .keyEnrol r => Sys2Proof.Machine.execKeyEnrol r s
  | .secureErase r => Sys2Proof.Machine.execSecureErase r s
  | .lifetimeReset r => Sys2Proof.Machine.execLifetimeReset r s
  | .fwRollback r => Sys2Proof.Machine.execFwRollback r s
  | .configStage r => Sys2Proof.Machine.execConfigStage r s
  | .debugEnable r => Sys2Proof.Machine.execDebugEnable r s
  | .breakwaterWrite => Sys2Proof.Machine.execBreakwaterWrite s
  | .sqTail path ctx value => Sys2Proof.Machine.execSqTail path ctx value s
  | .cqHead path ctx value => Sys2Proof.Machine.execCqHead path ctx value s
  | .commandFetch ctx => Sys2Proof.Machine.execCommandFetch ctx s
  | .commandStart id => Sys2Proof.Machine.execCommandStart id s
  | .commandTimeout r => Sys2Proof.Machine.execCommandTimeout r s
  | .stopEscalation id unit => Sys2Proof.Machine.execStopEscalation id unit s
  | .commandCompletion r => Sys2Proof.Machine.execCommandCompletion r s
  | .requestIssue req => Sys2Proof.Machine.execRequestIssue req s
  | .load req obs => Sys2Proof.Machine.execLoad req obs s
  | .store req obs => Sys2Proof.Machine.execStore req obs s
  | .atomic req obs => Sys2Proof.Machine.execAtomic req obs s
  | .response resp => Sys2Proof.Machine.execResponse resp s
  | .flowIdleExpiry flow => Sys2Proof.Machine.execFlowIdleExpiry flow s
  | .requestDeadBound tag => Sys2Proof.Machine.execRequestDeadBound tag s
  | .probeAnswer site => Sys2Proof.Machine.execProbeAnswer site s
  | .probeTimeout site => Sys2Proof.Machine.execProbeTimeout site s
  | .epochTableUpdate pos site epoch => Sys2Proof.Machine.execEpochTableUpdate pos site epoch s
  | .bankLoadDone berth engine => Sys2Proof.Machine.execBankLoadDone berth engine s
  | .bankSwitch berth engine => Sys2Proof.Machine.execBankSwitch berth engine s
  | .guardEnd berth engine => Sys2Proof.Machine.execGuardEnd berth engine s
  | .integrationWindowEnd berth engine rows check seen => Sys2Proof.Machine.execIntegrationWindowEnd berth engine rows check seen s
  | .windowOutput berth engine => Sys2Proof.Machine.execWindowOutput berth engine s
  | .heaterTick berth engine temp combPpm => Sys2Proof.Machine.execHeaterTick berth engine temp combPpm s
  | .tapMonitorTick berth engine linePpm => Sys2Proof.Machine.execTapMonitorTick berth engine linePpm s
  | .rateDetectorTick berth engine slope => Sys2Proof.Machine.execRateDetectorTick berth engine slope s
  | .thermalResume berth engine settled => Sys2Proof.Machine.execThermalResume berth engine settled s
  | .lighthouseFault berth engine => Sys2Proof.Machine.execLighthouseFault berth engine s
  | .lhSwitchoverDone berth engine => Sys2Proof.Machine.execLhSwitchoverDone berth engine s
  | .fabricLighthouseFault site => Sys2Proof.Machine.execFabricLighthouseFault site s
  | .fabricLhResume site => Sys2Proof.Machine.execFabricLhResume site s
  | .linkLighthouseFault quay => Sys2Proof.Machine.execLinkLighthouseFault quay s
  | .standbyCheck lh pass => Sys2Proof.Machine.execStandbyCheck lh pass s
  | .engineReset berth engine => Sys2Proof.Machine.execEngineReset berth engine s
  | .engineResetDone berth engine => Sys2Proof.Machine.execEngineResetDone berth engine s
  | .targetedTestDone el res => Sys2Proof.Machine.execTargetedTestDone el res s
  | .calibrationTrigger el why => Sys2Proof.Machine.execCalibrationTrigger el why s
  | .calibrationDone berth engine enob res => Sys2Proof.Machine.execCalibrationDone berth engine enob res s
  | .replicaWarning berth region cycle => Sys2Proof.Machine.execReplicaWarning berth region cycle s
  | .stretchRecoveryEnd berth region cycle => Sys2Proof.Machine.execStretchRecoveryEnd berth region cycle s
  | .recoveryStepdown berth region cycle => Sys2Proof.Machine.execRecoveryStepdown berth region cycle s
  | .stretchLimit berth region => Sys2Proof.Machine.execStretchLimit berth region s
  | .stepUpTimer berth region => Sys2Proof.Machine.execStepUpTimer berth region s
  | .stepChange berth region => Sys2Proof.Machine.execStepChange berth region s
  | .stepHoldEnd berth region => Sys2Proof.Machine.execStepHoldEnd berth region s
  | .meshLoadWindow berth slotsHigh => Sys2Proof.Machine.execMeshLoadWindow berth slotsHigh s
  | .coreSubstitution berth vtile => Sys2Proof.Machine.execCoreSubstitution berth vtile s
  | .coreSubstitutionDone berth vtile badWords => Sys2Proof.Machine.execCoreSubstitutionDone berth vtile badWords s
  | .stripedFrame src dst frame => Sys2Proof.Machine.execStripedFrame src dst frame s
  | .identityWord src dst plane word => Sys2Proof.Machine.execIdentityWord src dst plane word s
  | .ringLock src dst ring => Sys2Proof.Machine.execRingLock src dst ring s
  | .ringDarkExpiry src dst => Sys2Proof.Machine.execRingDarkExpiry src dst s
  | .retrainingDone src dst => Sys2Proof.Machine.execRetrainingDone src dst s
  | .laneSleep src dst => Sys2Proof.Machine.execLaneSleep src dst s
  | .fabricLaneBerExceeded src dst plane => Sys2Proof.Machine.execFabricLaneBerExceeded src dst plane s
  | .laneMarginTestDone src dst plane fig => Sys2Proof.Machine.execLaneMarginTestDone src dst plane fig s
  | .nearBundleFrame stack bundle up frame => Sys2Proof.Machine.execNearBundleFrame stack bundle up frame s
  | .nearLaneBerExceeded stack bundle lane => Sys2Proof.Machine.execNearLaneBerExceeded stack bundle lane s
  | .refreshOperation stack channel bank => Sys2Proof.Machine.execRefreshOperation stack channel bank s
  | .refreshGap stack channel loopbackPass seen => Sys2Proof.Machine.execRefreshGap stack channel loopbackPass seen s
  | .scrub stack channel bank found => Sys2Proof.Machine.execScrub stack channel bank found s
  | .rowBufferWriteback stack channel bank row => Sys2Proof.Machine.execRowBufferWriteback stack channel bank row s
  | .segmentMoveStart key => Sys2Proof.Machine.execSegmentMoveStart key s
  | .segmentHoldAck key source => Sys2Proof.Machine.execSegmentHoldAck key source s
  | .segmentCopyDone key seen => Sys2Proof.Machine.execSegmentCopyDone key seen s
  | .segmentRecorded key => Sys2Proof.Machine.execSegmentRecorded key s
  | .retiredRangeExpiry key => Sys2Proof.Machine.execRetiredRangeExpiry key s
  | .layerModelTick stack r => Sys2Proof.Machine.execLayerModelTick stack r s
  | .stackSensorSuspect stack sensor => Sys2Proof.Machine.execStackSensorSuspect stack sensor s
  | .railFault stack rail => Sys2Proof.Machine.execRailFault stack rail s
  | .crossingTimeout c => Sys2Proof.Machine.execCrossingTimeout c s
  | .refCheckWindow edges missing => Sys2Proof.Machine.execRefCheckWindow edges missing s
  | .tideModeAlwaysOn edges => Sys2Proof.Machine.execTideModeAlwaysOn edges s
  | .tideModeReference => Sys2Proof.Machine.execTideModeReference s
  | .moduleSleep => Sys2Proof.Machine.execModuleSleep s
  | .wake code sameEdge quay => Sys2Proof.Machine.execWake code sameEdge quay s
  | .mpAddressMatchWake offset => Sys2Proof.Machine.execMpAddressMatchWake offset s
  | .presenceButtonPress => Sys2Proof.Machine.execPresenceButtonPress s
  | .presenceHold => Sys2Proof.Machine.execPresenceHold s
  | .presenceWindowExpiry => Sys2Proof.Machine.execPresenceWindowExpiry s
  | .inputVoltageChange millivolts => Sys2Proof.Machine.execInputVoltageChange millivolts s
  | .conversionResume => Sys2Proof.Machine.execConversionResume s
  | .interlockOpen => Sys2Proof.Machine.execInterlockOpen s
  | .brownOut => Sys2Proof.Machine.execBrownOut s
  | .alwaysOnStoreExhausted => Sys2Proof.Machine.execAlwaysOnStoreExhausted s
  | .preCharge => Sys2Proof.Machine.execPreCharge s
  | .limiterTick berth power => Sys2Proof.Machine.execLimiterTick berth power s
  | .powerCapTick r => Sys2Proof.Machine.execPowerCapTick r s
  | .dieSensorSuspect berth sensor => Sys2Proof.Machine.execDieSensorSuspect berth sensor s
  | .flowRequestTick powerIn tIn tOut => Sys2Proof.Machine.execFlowRequestTick powerIn tIn tOut s
  | .coolingFault why => Sys2Proof.Machine.execCoolingFault why s
  | .coolingFaultClear => Sys2Proof.Machine.execCoolingFaultClear s
  | .berthShutdown berth => Sys2Proof.Machine.execBerthShutdown berth s
  | .thermalHoldEnd berth temp => Sys2Proof.Machine.execThermalHoldEnd berth temp s
  | .alwaysOnThermalSample hmArea tIn tOut => Sys2Proof.Machine.execAlwaysOnThermalSample hmArea tIn tOut s
  | .resetN level lowFor => Sys2Proof.Machine.execResetN level lowFor s
  | .watchdog => Sys2Proof.Machine.execWatchdog s
  | .hmLockup => Sys2Proof.Machine.execHmLockup s
  | .hmSwitchover fatal => Sys2Proof.Machine.execHmSwitchover fatal s
  | .hmHandback => Sys2Proof.Machine.execHmHandback s
  | .resetReq fn value => Sys2Proof.Machine.execResetReq fn value s
  | .jtagResetInstruction => Sys2Proof.Machine.execJtagResetInstruction s
  | .pcieHotReset kind => Sys2Proof.Machine.execPcieHotReset kind s
  | .vfFlr vf => Sys2Proof.Machine.execVfFlr vf s
  | .partitionReset part cause => Sys2Proof.Machine.execPartitionReset part cause s
  | .releaseStep => Sys2Proof.Machine.execReleaseStep s
  | .bootStageDone obs => Sys2Proof.Machine.execBootStageDone obs s
  | .readyTimeout => Sys2Proof.Machine.execReadyTimeout s
  | .siteRecovery site pass => Sys2Proof.Machine.execSiteRecovery site pass s
  | .trainingWord link word => Sys2Proof.Machine.execTrainingWord link word s
  | .linkRetrainTimer link => Sys2Proof.Machine.execLinkRetrainTimer link s
  | .linkFrame link obs => Sys2Proof.Machine.execLinkFrame link obs s
  | .linkNoFrame link => Sys2Proof.Machine.execLinkNoFrame link s
  | .linkRelease link => Sys2Proof.Machine.execLinkRelease link s
  | .relayRouteTimer p q => Sys2Proof.Machine.execRelayRouteTimer p q s
  | .routeReturnTimer p q => Sys2Proof.Machine.execRouteReturnTimer p q s
  | .routeDrainDone p q => Sys2Proof.Machine.execRouteDrainDone p q s
  | .tideSyncSend => Sys2Proof.Machine.execTideSyncSend s
  | .tideSyncMessage link masterTide arrival => Sys2Proof.Machine.execTideSyncMessage link masterTide arrival s
  | .tideDelayExchange link t1 t2 t3 t4 => Sys2Proof.Machine.execTideDelayExchange link t1 t2 t3 t4 s
  | .tideFirstLock harbourTide => Sys2Proof.Machine.execTideFirstLock harbourTide s
  | .holdoverExpiry => Sys2Proof.Machine.execHoldoverExpiry s
  | .heartbeat pos part => Sys2Proof.Machine.execHeartbeat pos part s
  | .heartbeatTimeout pos probeAnswered => Sys2Proof.Machine.execHeartbeatTimeout pos probeAnswered s
  | .deadDeclaration pos site => Sys2Proof.Machine.execDeadDeclaration pos site s
  | .masterSyncLoss => Sys2Proof.Machine.execMasterSyncLoss s
  | .claimCollect claims => Sys2Proof.Machine.execClaimCollect claims s
  | .masterHandback => Sys2Proof.Machine.execMasterHandback s
  | .rejoinRequest pos part => Sys2Proof.Machine.execRejoinRequest pos part s
  | .mbxCtrlGo fn value => Sys2Proof.Machine.execMbxCtrlGo fn value s
  | .feEnable value => Sys2Proof.Machine.execFeEnable value s
  | .feDisable value => Sys2Proof.Machine.execFeDisable value s
  | .feHeadWrite value => Sys2Proof.Machine.execFeHeadWrite value s
  | .faultEventDelivery => Sys2Proof.Machine.execFaultEventDelivery s
  | .errorLogWrite => Sys2Proof.Machine.execErrorLogWrite s
  | .mpWriteTransaction offset data => Sys2Proof.Machine.execMpWriteTransaction offset data s
  | .mpDynamicAddress addr => Sys2Proof.Machine.execMpDynamicAddress addr s
  | .dumpCtrl value => Sys2Proof.Machine.execDumpCtrl value s
  | .dumpWindowLoaded => Sys2Proof.Machine.execDumpWindowLoaded s
  | .imgCommit value => Sys2Proof.Machine.execImgCommit value s
  | .imgVerifyDone => Sys2Proof.Machine.execImgVerifyDone s
  | .registerWrite space offset data => Sys2Proof.Machine.execRegisterWrite space offset data s
  | .newStart => Sys2Proof.Machine.execNewStart s
  | .interlockClose => Sys2Proof.Machine.execInterlockClose s
  | .generatorLockLoss block => Sys2Proof.Machine.execGeneratorLockLoss block s
  | .tamperSealBreak => Sys2Proof.Machine.execTamperSealBreak s
  | .partitionResetDone part => Sys2Proof.Machine.execPartitionResetDone part s
  | .escalationRungDeadline rung reach unit => Sys2Proof.Machine.execEscalationRungDeadline rung reach unit s
  | .linkResetEntryInstant link => Sys2Proof.Machine.execLinkResetEntryInstant link s

end Sys2Proof.Machine
end

