-- ==== Sys2Proof/Machine/Reads.lean ====
section
/-! DEFINITION. What a read of a register answers, through BAR0 of a function (R490 to R492, chapter 16) and through the
management port (Tables 17-5 to 17-8). Reads of these registers change nothing. -/

namespace Sys2Proof.Machine

/-- PART_CAUSE as a function sees it: a virtual function sees its own partition only (Table 16-5). -/
def partCauses (s : State) (fn : Nat) : Nat :=
  sumNat ((List.range 8).map (fun p =>
    if fn = 0 ∨ (fnParts s fn).contains p = true then ((getPart s p).cause % 4) <<< (2 * p) else 0))

/-- RESET_CAUSE (Table 16-5). -/
def resetCause (s : State) (fn : Nat) : Nat :=
  bit s.rst.ready <<< 63 + s.rst.stage <<< 59 + partCauses s fn <<< 32 + s.rst.mask.toNat <<< 16 + s.rst.resets <<< 8 +
  s.rst.cause

/-- PWR_LAST_WAKE (Table 16-7). -/
def lastWake (s : State) : Nat := s.io.wakeCount.toNat <<< 48 + s.io.wakeMask.toNat <<< 8 + s.io.wakeCode

/-- FE_CTRL (Table 16-11). -/
def feCtrlWord (f : FaultGroup) : Nat :=
  bit f.rejected <<< 32 + bit f.enable <<< 31 + bit f.irq <<< 30 + bit f.hostRing <<< 29 + f.vector <<< 16 + f.log2S

/-- MBX_REPLY (Table 16-15). -/
def mbxReply (m : Mailbox) : Nat :=
  m.replyTag.toNat <<< 48 + (m.detail % 2 ^ 16) <<< 32 + bit m.pending <<< 16 + bit m.replyValid <<< 8 +
  (if m.replyValid then m.status else 0xFF)

/-- The 8 bytes of the MSI-X table or of its pending bit array at an offset (R493). -/
def msixWord (s : State) (fn off : Nat) : Nat :=
  let n := vectorCount fn
  if off < 0x28000 then
    let v := tabGet {} s.io.msix (fn * 128 + (off - 0x20000) / 16)
    if n * 16 ≤ off - 0x20000 then 0
    else if off % 16 = 0 then v.addr.toNat
    else v.data.toNat + v.ctrl.toNat <<< 32
  else
    let first := (off - 0x28000) * 8
    ofBits ((List.range 64).filter (fun i =>
      decide (first + i < n) && (tabGet {} s.io.msix (fn * 128 + first + i)).pend))

/-- The 8-byte register at an offset of BAR0 (a multiple of 8), as a function reads it (Table 16-2). -/
def barWord (s : State) (fn off : Nat) : Nat :=
  let pf (x : Nat) : Nat := if fn = 0 then x else 0
  let m := getMbx s fn
  if off = 0x00 then s.ident.modIdRev.toNat
  else if off = 0x08 then now s % 2 ^ 64
  else if off = 0x10 then resetCause s fn
  else if off = 0x20 then lastWake s
  else if off = 0x28 then s.io.wakeTide % 2 ^ 64
  else if off = 0x30 then s.thermal.summary.toNat
  else if off = 0x40 then pf s.faults.base
  else if off = 0x48 then pf (feCtrlWord s.faults)
  else if off = 0x50 then pf (s.faults.head.toNat <<< 32 + s.faults.tail.toNat)
  else if off = 0x58 then pf s.faults.lost
  else if 0x100 ≤ off ∧ off < 0x140 then fld m.req (8 * (off - 0x100)) 64
  else if off = 0x140 then mbxCtrlWord s fn
  else if off = 0x148 then mbxReply m
  else if 0x150 ≤ off ∧ off < 0x178 then leNat (sliceBytes m.data (off - 0x150) 8)
  else if 0x20000 ≤ off ∧ off < 0x30000 then msixWord s fn off
  else match doorbellAt s off with
    | some d =>
      if doorbellOpen s (.bar0 fn) d.1 then (getCtx s d.1).sqTail.toNat + (getCtx s d.1).cqHead.toNat <<< 32 else 0
    | none => 0

/-- A read of `len` bytes at an offset of BAR0: 4 or 8 aligned bytes; any other reads as zero (R490, R491). -/
def barRead (s : State) (fn off len : Nat) : Nat :=
  if (len = 4 ∨ len = 8) ∧ off % len = 0 then fld (barWord s fn (off / 8 * 8)) (8 * (off % 8)) (8 * len) else 0

/-- MP_STATUS (Table 17-6). -/
def mpStatus (s : State) : Nat :=
  bit s.rst.ready <<< 7 + bit s.rst.romRecovery <<< 6 + bit s.power.cycleReq <<< 5 + bit s.sec.window.isSome <<< 4 +
  bit s.io.asleep <<< 3 + bit (!s.power.interlockClosed) <<< 2

/-- The dump in record `k`: dump number n lies in record n mod 4. -/
def dumpAt (s : State) (k : Nat) : Option DumpRecord := s.recovery.dumps.reverse.find? (fun d => d.number % 4 == k)

/-- DUMP_CTRL (Table 17-7). -/
def dumpCtrlWord (s : State) : Nat :=
  let d := dumpAt s s.io.dumpRecord
  s.io.dumpWindow <<< 16 + ((d.map (·.number)).getD 0 % 256) <<< 8 + bit s.io.dumpReady <<< 7 + bit d.isNone <<< 6 +
  s.io.dumpRecord

/-- IMG_CTRL (Table 17-8): STATE reads 0 while the image registers do not act. -/
def imgCtrlWord (s : State) : Nat := s.io.imgWindow <<< 16 + (if imgActive s then s.io.imgState else 0)

/-- The register of the management port at an offset (Table 17-5). -/
def mpWord (s : State) (off : Nat) : Nat :=
  if off = 0x00 then s.ident.modIdRev.toNat
  else if off = 0x08 then s.harbour.hbrPos.toNat
  else if off = 0x0C then s.harbour.hbrMembers.toNat
  else if off = 0x10 then mpStatus s
  else if off = 0x18 then s.thermal.summary.toNat
  else if off = 0x20 then resetCause s 0
  else if off = 0x28 then lastWake s
  else if off = 0x30 then now s % 2 ^ 64
  else if off = 0x40 then dumpCtrlWord s
  else if off = 0x200 then imgCtrlWord s
  else if off = 0x204 then s.io.imgLen.toNat
  else 0

/-- The registers of Table 17-5 that read as one value: offset and width. -/
def mpRegisters : List (Nat × Nat) :=
  [(0x00, 8), (0x08, 1), (0x0C, 4), (0x10, 1), (0x18, 8), (0x20, 8), (0x28, 8), (0x30, 8), (0x40, 4), (0x200, 4), (0x204, 4)]

/-- A byte of the dump window. The manual gives the record no layout, so its bytes are free values of the record, and so is
what the window shows while it holds none (R484, R520; log entry 32). -/
def dumpByte (s : State) (i : Nat) : Byte :=
  Config.dumpByte (if s.io.dumpReady then (dumpAt s s.io.dumpRecord).map (·.number) else none) (256 * s.io.dumpWindow + i)

/-- The byte that a read of the management port returns at an offset; an offset of no register reads as zero, and so does the
write-only image window (R518). -/
def mpByte (s : State) (off : Nat) : Byte :=
  match mpRegisters.find? (fun r => decide (r.1 ≤ off ∧ off < r.1 + r.2)) with
  | some r => BitVec.ofNat 8 (fld (mpWord s r.1) (8 * (off - r.1)) 8)
  | none => if 0x100 ≤ off ∧ off < 0x200 then dumpByte s (off - 0x100) else 0

/-- A read transaction of the management port: the offset advances by 1 with each byte, and every byte is of one snapshot
(R518). -/
def mpRead (s : State) (off len : Nat) : List Byte := (List.range len).map (fun i => mpByte s (off + i))

/-- The static address of the management port (Table 17-4). -/
def mpStatic (s : State) : Nat := 0x58 + s.io.straps.toNat

/-! ## Identity on the PCI Express link (R512 to R514) -/

/-- The Vendor ID of every function, and the Device ID of a function: the physical one's, and every virtual one's. -/
def pcieVendorId : Nat := 0x4853
def pcieDeviceId (s : State) (fn : Nat) : Nat := (if fn = 0 then 0x4700 else 0x4710) + s.ident.part

/-- What a configuration request to a function meets. -/
inductive ConfigAnswer
  | none
  | absent
  | ids (vendor device : Nat)
  deriving DecidableEq, Repr

/-- The answer to a read of the first words of configuration space: none before it answers; after that always one, and never
Configuration Request Retry Status. A virtual function whose record is not valid reads as not present (R512 to R514). -/
def configRead (s : State) (fn : Nat) : ConfigAnswer :=
  if !configOpen s then .none
  else if fnPresent s fn then .ids pcieVendorId (pcieDeviceId s fn)
  else .absent

/-- The capabilities of configuration space (Table 17-3). -/
inductive PcieCapability
  | pciExpress
  | physicalLayer
  | laneMargining
  | dataLinkFeature
  | powerManagement
  | msix
  | sriov
  | ari
  | aer
  | acs
  | serialNumber
  deriving DecidableEq, Repr

/-- The module presents these capabilities and no others (R512). -/
def pcieCapabilities : List PcieCapability :=
  [.pciExpress, .physicalLayer, .laneMargining, .dataLinkFeature, .powerManagement, .msix, .sriov, .ari, .aer, .acs,
   .serialNumber]

/-! ## Test access port (R511) -/

/-- The instructions of the test access port. -/
inductive TapInstruction
  | bypass
  | extest
  | samplePreload
  | debugReset
  | privateScan
  deriving DecidableEq, Repr

/-- The instructions that the port provides: BYPASS alone while debug is disabled. -/
def tapInstructions (s : State) : List TapInstruction :=
  if s.sec.debug then [.bypass, .extest, .samplePreload, .debugReset, .privateScan] else [.bypass]

/-- The instruction that Test-Logic-Reset selects: the port has no device identification register. -/
def tapResetInstruction : TapInstruction := .bypass

/-! ## Fibres of a quay connector (R525, Table 17-12) -/

/-- The fibre positions of link k on the connector of its quay: transmit and receive. -/
def txFibre (k : Nat) : Nat := 1 + k % 3
def rxFibre (k : Nat) : Nat := 12 - k % 3

/-- A fibre of a quay's connector is lit by the module: a transmit fibre of a link whose partner is in MEMBERS. -/
def fibreLit (s : State) (q f : Nat) : Bool :=
  (List.range 3).any (fun j => txFibre j == f && bitAt s.harbour.members.toNat (partnerOf (ownPos s) (3 * q + j)))

/-- The frequency of link wavelength i, in GHz. -/
def linkGHz (i : Nat) : Nat := 222000 + 100 * i

/-! ## Indicators (R529, Table 17-14) -/

/-- What an indicator shows. -/
inductive Light
  | off
  | whiteSteady
  | whiteFlash
  | redFlash
  | redSteady
  | amberFlash
  | amberSteady
  | greenFlash
  | greenSteady
  deriving DecidableEq, Repr

/-- The PRESENCE indicator: steady while a presence window is open, flashing in its last 10 s. -/
def presenceLight (s : State) : Light :=
  match s.sec.window with
  | none => .off
  | some t => if t < now s + 10000000000 then .whiteFlash else .whiteSteady

/-- The STATUS indicator: the first state of Table 17-14 that holds. -/
def statusLight (s : State) : Light :=
  let hot := s.thermal.alarm || s.thermal.coolingFault || s.berths.any (fun b => b.2.stopped || b.2.hold) ||
    s.stackTab.any (fun k => k.2.alarm)
  if !s.power.alwaysOn then .off
  else if s.power.cycleReq then .redFlash
  else if s.rst.romRecovery || s.rst.stalledB5 then .redSteady
  else if hot then .amberFlash
  else if !s.rst.ready then .amberSteady
  else if s.io.asleep then .greenFlash
  else .greenSteady

end Sys2Proof.Machine
end

