-- ==== Sys2Proof/Safety.lean ====
section
/-! DEFINITION. What counts as a safe outcome and a safe run, in the terms the statements use: the units a command
names, properties that every step keeps, and what a request's reply and a frame are. -/

namespace Sys2Proof

open Machine

/-- The outcome is a next state that satisfies `P`. -/
def Completes (o : Host.Outcome Machine.State Machine.Fault Machine.Refusal) (P : Machine.State → Prop) : Prop :=
  ∃ t, o = .next t ∧ P t

/-- A property that every step keeps, in every state, reached or not. -/
def StepKeeps (Inv : Machine.State → Prop) : Prop :=
  ∀ s t, Inv s → Machine.step s = .next t → Inv t

/-- A number is the same before and after every step that answers a next state. -/
def StepPreserves (f : Machine.State → Nat) : Prop :=
  ∀ s t, Machine.step s = .next t → f t = f s

/-- A request of a route is one that Blunen may begin to serve: accepted or started, of this opcode, not begun yet. -/
def Asks (s : State) (r : Route) (op : Nat) (a : Asked) : Prop := hasRoute s r = true ∧ routeAsked s r op = some a

/-- A started command of a ring with this opcode. -/
def Started (s : State) (id : CmdId) (op : Nat) (c : Cmd) : Prop :=
  hasCtx s id.ctx = true ∧ findCmd s id = some c ∧ c.phase = .started ∧ c.opcode = op

/-- `t` is `m` with the command `id` changed to `c` and nothing else changed. -/
def CmdBecomes (m t : State) (id : CmdId) (c : Cmd) : Prop :=
  t = { m with ctxs := t.ctxs } ∧ (∀ k, k ≠ id.ctx → getCtx t k = getCtx m k) ∧
  getCtx t id.ctx = { getCtx m id.ctx with flight := (getCtx t id.ctx).flight } ∧
  (∀ i, i ≠ id → findCmd t i = findCmd m i) ∧ findCmd t id = some c

/-- `t` is `m` with the request of route `r` answered and nothing else changed: a mailbox holds the outcome for its
COMMAND_COMPLETION; a command on a ring has finished with the status of highest rank, its reply and its result bytes on the own
module, and the stores of the others are its requests. -/
def Replied (m t : State) (r : Route) (st d : Nat) (data : List Byte) : Prop :=
  match r with
  | .mailbox fn =>
    t = { m with mbx := t.mbx } ∧ (∀ k, k ≠ fn → getMbx t k = getMbx m k) ∧
    getMbx t fn = { getMbx m fn with result := some ⟨st, d, data⟩, journal := 2 }
  | .ring id =>
    ∃ c u, findCmd m id = some c ∧ t = issueResults u c ((replyBytes c data).filter (fun e => goesOut m e.1)) ∧
      CmdBecomes m u id { c.note st d with
        phase := .finished
        served := true
        reply := data
        tideEnd := now m
        results := (replyBytes c data).filter (fun e => !goesOut m e.1) }

/-- A command that has done its work: finished now, with the status of highest rank and its results staged. -/
def Machine.Cmd.done (c : Cmd) (t : Nat) (st : Option (Nat × Nat)) (results : List (Nat × Byte)) : Cmd :=
  { (match st with
     | some e => c.note e.1 e.2
     | none => c) with
    phase := .finished
    tideEnd := t
    results := c.results ++ results }

/-- Nothing holds up the work of a command at these ranges: every domain they lie in is on, no tile is held, no site drains
and no segment moves, none of its own regions changes step, and no earlier request of its berth would be overtaken; and no
move has held it before. -/
def Reachable (s : State) (c : Cmd) (ts : List Touch) : Prop :=
  sleepers s ts = [] ∧ ts.any (rangeMoves s) = false ∧ ts.any (rangeWaits s) = false ∧ ts.any (rangeBehind s c) = false ∧
  c.regions.any (fun e => (getRegion s c.berth e).holding) = false ∧ c.heldSince = none

/-- Some part of these ranges lies on another module or gets no answer: it is reached by requests. -/
def asksOut (s : State) (ts : List Touch) : Bool :=
  ts.any (fun t => (sectorParts t.addr t.len).any (fun p => goesOut s p.1))

/-- `t` is `s` save for what the work of a command may change: commands, requests and messages (and the frames that a link has sent),
the sleep of lanes, the counts of refusals for an old epoch, and row buffers. Memory, host memory and counters are unchanged. -/
def WorkFrame (s t : State) : Prop :=
  t = { s with
    ctxs := t.ctxs
    reqs := t.reqs
    sent := t.sent
    sites := t.sites
    stackTab := t.stackTab
    pairs := t.pairs
    harbour := { s.harbour with links := t.harbour.links } }

/-- The work of command `c` on ranges `ts` with results `l` leaves it as `d`. Requests to other modules may add to its status;
with none, `d` is exactly what it becomes and no request is made. -/
def WorkLeaves (s t : State) (c d : Cmd) (ts : List Touch) (l : List (Nat × Byte)) : Prop :=
  WorkFrame s t ∧ (∀ k, k ≠ c.id.ctx → getCtx t k = getCtx s k) ∧ (∀ i, i ≠ c.id → findCmd t i = findCmd s i) ∧
  ∃ x, findCmd t c.id = some x ∧ x.phase = d.phase ∧ x.results = d.results ∧ x.opt = d.opt ∧
    (asksOut s ts = false → (∀ e ∈ l, goesOut s e.1 = false) →
      x = d ∧ t.reqs = s.reqs ∧ t.sent = s.sent ∧ t.pairs = s.pairs)

/-- The work of command `c` on ranges `ts` ends with status `st` and results `l`: those on the own module wait for its
completion, the others go out as requests. -/
def WorkEnds (s t : State) (c : Cmd) (ts : List Touch) (st : Option (Nat × Nat)) (l : List (Nat × Byte)) : Prop :=
  WorkLeaves s t c (c.done (now s) (worse (touchStatus s c.berth (readsOf ts)) st) (l.filter (fun e => !goesOut s e.1))) ts l

/-- `t` is `m` with one more fault event raised, of which `P` holds, and nothing else changed. -/
def Raises (m t : State) (P : FaultEv → Prop) : Prop :=
  t = { m with faults := t.faults } ∧ ∃ e, t.faults.unlogged = m.faults.unlogged ++ [e] ∧ P e

/-! Frames: `t` is `s` with one unit changed to the given record, and nothing else changed. -/

def CtxBecomes (s t : State) (c : Nat) (x : Context) : Prop :=
  t = { s with ctxs := t.ctxs } ∧ (∀ k, k ≠ c → getCtx t k = getCtx s k) ∧ getCtx t c = x
def MbxBecomes (s t : State) (fn : Nat) (x : Mailbox) : Prop :=
  t = { s with mbx := t.mbx } ∧ (∀ k, k ≠ fn → getMbx t k = getMbx s k) ∧ getMbx t fn = x
def SiteBecomes (s t : State) (k : Nat) (x : Site) : Prop :=
  t = { s with sites := t.sites } ∧ (∀ j, j ≠ k → getSite t j = getSite s j) ∧ getSite t k = x
def BerthBecomes (s t : State) (b : Nat) (x : Berth) : Prop :=
  t = { s with berths := t.berths } ∧ (∀ k, k ≠ b → getBerth t k = getBerth s k) ∧ getBerth t b = x
def RegionBecomes (s t : State) (b e : Nat) (x : Region) : Prop :=
  t = { s with regions := t.regions } ∧ (∀ i j, engKey i j ≠ engKey b e → getRegion t i j = getRegion s i j) ∧
  getRegion t b e = x
def TileBecomes (s t : State) (b v : Nat) (x : Tile) : Prop :=
  t = { s with tiles := t.tiles } ∧ (∀ i j, tileKey i j ≠ tileKey b v → getTile t i j = getTile s i j) ∧ getTile t b v = x
def EngineBecomes (s t : State) (b e : Nat) (x : Engine) : Prop :=
  t = { s with engines := t.engines } ∧ (∀ i j, engKey i j ≠ engKey b e → getEngine t i j = getEngine s i j) ∧
  getEngine t b e = x
def StackBecomes (s t : State) (n : Nat) (x : Stack) : Prop :=
  t = { s with stackTab := t.stackTab } ∧ (∀ k, k ≠ n → getStack t k = getStack s k) ∧ getStack t n = x
def PairBecomes (s t : State) (a b : Nat) (x : PairDir) : Prop :=
  t = { s with pairs := t.pairs } ∧ (∀ i j, i * 64 + j ≠ a * 64 + b → getPair t i j = getPair s i j) ∧ getPair t a b = x
def PortBecomes (s t : State) (k : Nat) (x : FabricPort) : Prop :=
  t = { s with ports := t.ports } ∧ (∀ j, j ≠ k → getPort t j = getPort s j) ∧ getPort t k = x
def DomainBecomes (s t : State) (d : Nat) (x : Domain) : Prop :=
  t = { s with domains := t.domains } ∧ (∀ k, k ≠ d → getDomain t k = getDomain s k) ∧ getDomain t d = x
def LinkBecomes (s t : State) (k : Nat) (x : Link) : Prop :=
  t = { s with harbour := { s.harbour with links := t.harbour.links } } ∧ (∀ j, j ≠ k → getLink t j = getLink s j) ∧
  getLink t k = x
def MemberBecomes (s t : State) (p : Nat) (x : Member) : Prop :=
  t = { s with harbour := { s.harbour with memberTab := t.harbour.memberTab } } ∧
  (∀ j, j ≠ p → getMember t j = getMember s j) ∧ getMember t p = x
def PartBecomes (s t : State) (p : Nat) (x : Partition) : Prop :=
  t = { s with sec := { s.sec with parts := t.sec.parts } } ∧ (∀ k, k ≠ p → getPart t k = getPart s k) ∧ getPart t p = x

/-- `t` is a state that a module reset of a source code leaves of `s` (Tables 14-2 and 16-5), other than a power-on
reset: boot starts again, contexts are CLOSED with their tags one higher, memory and counters read zero, mailboxes, requests
and events are gone, protection is unsealed, and Tide goes on. -/
def AfterReset (s t : State) (code : Nat) : Prop :=
  t.rst.ready = false ∧ t.rst.stage = 0 ∧ t.rst.step = 1 ∧ t.rst.pcieUp = false ∧ t.rst.time0 = now s ∧
  t.rst.cause = (if s.rst.ready = true then code else s.rst.cause) ∧ t.rst.resets = min (s.rst.resets + 1) 0xFF ∧
  (∀ c, c < 64 → (getCtx t c).state = .closed ∧ (getCtx t c).gen = (getCtx s c).gen + 1 ∧ (getCtx t c).flight = []) ∧
  (∀ a, readByte t a = 0) ∧ (∀ b i, getCounter t b i = 0) ∧ t.mem.host = s.mem.host ∧ t.mbx = [] ∧ t.reqs.out = [] ∧
  t.sec.sealed = false ∧ t.sec.debug = false ∧ t.sec.window = none ∧ t.sec.keys = s.sec.keys ∧
  t.tide.count = s.tide.count ∧ t.faults.enable = false ∧ t.faults.held = [] ∧ t.pending = s.pending

/-- `t` is `s` after a partition reset of partition p has begun (Table 14-2, R425): its generation and key move on, and for
each of its berths the contexts are CLOSED, every tag and the role epoch are one higher, memory and counters read zero; no
other partition, berth or byte changes. -/
def PartReset (s t : State) (p cause : Nat) : Prop :=
  getPart t p = { gen := (getPart s p).gen + 1, key := (getPart s p).key + 1, resetting := true, cause := cause } ∧
  (∀ q, q ≠ p → getPart t q = getPart s q) ∧
  (∀ b, b ∈ partBerths s p → (getSite t b).epoch = (getSite s b).epoch + 1 ∧
    (∀ k, k < 8 → (getCtx t (8 * b + k)).state = .closed ∧ (getCtx t (8 * b + k)).flight = [] ∧
      (getCtx t (8 * b + k)).gen = (getCtx s (8 * b + k)).gen + 1) ∧
    (∀ e, e < 16 → (getEngine t b e).gen = (getEngine s b e).gen + 1) ∧
    (∀ a, inBerth s.ident.part b a = true → readByte t a = 0) ∧ (∀ i, i < 4096 → getCounter t b i = 0)) ∧
  (∀ b, b ∉ partBerths s p → (getSite t b).epoch = (getSite s b).epoch ∧
    ∀ k, k < 8 → getCtx t (8 * b + k) = getCtx s (8 * b + k)) ∧
  (∀ a, (∀ b ∈ partBerths s p, inBerth s.ident.part b a = false) → readByte t a = readByte s a) ∧
  t.faults = s.faults ∧ t.rst = s.rst

/-- The units that a command names exist on this variant (R2, R3, R13, R172). Commands of links, engines, regions,
stacks, pairs of sites, contexts and mailboxes name a unit; the others name none. -/
def unitsPresent (s : State) : Instr → Bool
  | .ctxOpen fn | .ctxClose fn | .ctxAbort fn | .roleChange fn | .mbxCtrlGo fn _ => hasFn fn
  | .registerWrite r _ _ => hasFn r.fn
  | .ctxQuery r | .fwInfo r | .healthRead r | .domainSet r | .tideAlarm r | .selftest r | .calibrate r | .keyEnrol r
  | .secureErase r | .lifetimeReset r | .fwRollback r | .configStage r | .debugEnable r | .commandTimeout r
  | .commandCompletion r => hasRoute s r
  | .tugCopy id | .tugFill id | .tugChunkDone id _ | .cntWait id | .cntAdd id | .cntSet id | .cntRead id | .tideWait id
  | .tideRead id | .ctxDrain id | .matmul id | .optMatmul id | .convert id | .transpose id | .ewise id | .tableFn id
  | .reduce id | .softmax id | .attention id | .allReduce id | .allGather id | .reduceScatter id | .broadcast id
  | .graphLoad id | .graphRun id | .graphUnload id | .graphNodeStart id | .graphEdgeStatus id _ _
  | .commandStart id => hasCtx s id.ctx
  | .commandFetch c => hasCtx s c
  | .stopEscalation id u => hasCtx s id.ctx && (match u with
    | .engine b e => hasEngine s b e
    | _ => true)
  | .roleDrainDone k | .probeAnswer k | .probeTimeout k | .fabricLighthouseFault k | .fabricLhResume k
  | .siteRecovery k _ => hasSite s k
  | .domainTransitionDone d => hasDomain s d
  | .bankLoadDone b e | .bankSwitch b e | .guardEnd b e | .integrationWindowEnd b e _ _ _ | .windowOutput b e
  | .heaterTick b e _ _ | .tapMonitorTick b e _ | .rateDetectorTick b e _ | .thermalResume b e _ | .lighthouseFault b e
  | .lhSwitchoverDone b e | .engineReset b e | .engineResetDone b e | .calibrationDone b e _ _ | .replicaWarning b e _
  | .stretchRecoveryEnd b e _ | .recoveryStepdown b e _ | .stretchLimit b e | .stepUpTimer b e | .stepChange b e
  | .stepHoldEnd b e => hasEngine s b e
  | .linkLighthouseFault q => decide (q < 8)
  | .standbyCheck lh _ => hasElement s (.lighthouse lh)
  | .targetedTestDone el _ | .calibrationTrigger el _ => hasElement s el
  | .meshLoadWindow b _ | .limiterTick b _ | .berthShutdown b | .thermalHoldEnd b _ => hasBerth s b
  | .dieSensorSuspect b n => (hasBerth s b && decide (n < 134)) || (b == 8 && decide (n < 16))
  | .coreSubstitution b t | .coreSubstitutionDone b t _ => hasTile s b t
  | .stripedFrame a b _ | .ringDarkExpiry a b | .retrainingDone a b | .laneSleep a b => hasPair s a b
  | .identityWord a b _ _ => hasPair s a b
  | .ringLock a b r => hasPair s a b && decide (r.plane < 18)
  | .fabricLaneBerExceeded a b p | .laneMarginTestDone a b p _ =>
    hasPair s a b && decide (p < 18)
  | .nearBundleFrame n k _ _ => hasStack s n && decide (k < 10)
  | .nearLaneBerExceeded n k l => hasStack s n && decide (k < 10) && decide (l < 34)
  | .refreshOperation n _ _ | .refreshGap n _ _ _ | .scrub n _ _ _ | .rowBufferWriteback n _ _ _ | .layerModelTick n _
  | .stackSensorSuspect n _ | .railFault n _ => hasStack s n
  | .segmentMoveStart k | .segmentCopyDone k _ | .segmentRecorded k | .retiredRangeExpiry k => hasStack s k.stack
  | .segmentHoldAck k src => hasStack s k.stack && hasSite s src
  | .crossingTimeout c => hasBlock s c.a && hasBlock s c.b
  | .generatorLockLoss d => hasGenerator s d
  | .wake _ _ q => decide (q < 8)
  | .vfFlr vf => decide (1 ≤ vf) && decide (vf ≤ 8)
  | .partitionReset p _ | .partitionResetDone p => decide (p < 8)
  | .trainingWord k _ | .linkRetrainTimer k | .linkFrame k _ | .linkNoFrame k | .linkRelease k | .tideSyncMessage k _ _
  | .tideDelayExchange k _ _ _ _ | .linkResetEntryInstant k => hasLink k
  | .tideAlarmFire | .collectiveRendezvous _ _ | .breakwaterWrite | .sqTail _ _ _ | .cqHead _ _ _ | .requestIssue _
  | .load _ _ | .store _ _ | .atomic _ _ | .response _ | .flowIdleExpiry _ | .requestDeadBound _ | .epochTableUpdate _ _ _
  | .refCheckWindow _ _ | .tideModeAlwaysOn _ | .tideModeReference | .moduleSleep | .mpAddressMatchWake _
  | .presenceButtonPress | .presenceHold | .presenceWindowExpiry | .inputVoltageChange _ | .conversionResume
  | .interlockOpen | .brownOut | .alwaysOnStoreExhausted | .preCharge | .powerCapTick _ | .flowRequestTick _ _ _
  | .coolingFault _ | .coolingFaultClear | .alwaysOnThermalSample _ _ _ | .resetN _ _ | .watchdog | .hmLockup
  | .hmSwitchover _ | .hmHandback | .resetReq _ _ | .jtagResetInstruction | .pcieHotReset _ | .releaseStep
  | .bootStageDone _ | .readyTimeout | .relayRouteTimer _ _ | .routeReturnTimer _ _ | .routeDrainDone _ _
  | .tideSyncSend | .tideFirstLock _ | .holdoverExpiry | .heartbeat _ _ | .heartbeatTimeout _ _ | .deadDeclaration _ _
  | .masterSyncLoss | .claimCollect _ | .masterHandback | .rejoinRequest _ _ | .feEnable _ | .feDisable _
  | .feHeadWrite _ | .faultEventDelivery | .errorLogWrite | .mpWriteTransaction _ _ | .mpDynamicAddress _ | .dumpCtrl _
  | .dumpWindowLoaded | .imgCommit _ | .imgVerifyDone | .newStart | .interlockClose | .tamperSealBreak
  | .escalationRungDeadline _ _ _ => true

end Sys2Proof
end

