-- ==== Sys2Proof/Certificates/Slice0/Obligations.lean ====
section
/-! DEFINITION. The statements: what the rules of spec/ say that commands do, on this model. -/

open Sys2Proof Sys2Proof.Machine

/-- O1. For every state whose queue is c followed by rest, a step is exec of c on the state with the queue rest. How a
queue of commands stands for the block's inputs is the model's own (log entry 1). -/
def Obligations.StepRunsFrontCommand : Prop :=
  ∀ (s : State) (c : Instr) (rest : List Instr), s.pending = c :: rest →
    step s = exec c { s with pending := rest }

/-- O2. On an empty queue a step only advances Tide, and only while the always-on domain is supplied: in reference mode by
one PORTCLK cycle, 1 + RATE x 2^-32 ns, and at every 500th cycle the always-on domain latches the count; in always-on
mode by 500 ns. The count is in units of 2^-32 ns. When the member's heartbeat to the master is then due, it leaves as
well, by the link to the master, and nothing else changes. That an empty queue lets the clock tick is the model's
choice (log entry 1), that the heartbeat leaves with the tick too (log entry 47), and where the AOCLK edge falls among
the cycles (log entry 23). -/
def Obligations.IdleStepIsOneClockTick : Prop :=
  ∀ s : State, s.pending = [] →
    (s.tide.mode = .reference → ∀ c, c = s.tide.count + ((2 ^ 32 : Int) + s.tide.rate).toNat →
      s.tide.tick = if s.tide.aoPhase + 1 < 500 then { s.tide with count := c, aoPhase := s.tide.aoPhase + 1 }
        else { s.tide with count := c, aoPhase := 0, latchAo := c }) ∧
    (s.tide.mode = .alwaysOn → s.tide.tick = { s.tide with count := s.tide.count + 500 * 2 ^ 32 }) ∧
    (s.power.alwaysOn = true → beatDue { s with tide := s.tide.tick } = false →
      step s = .next { s with tide := s.tide.tick }) ∧
    (s.power.alwaysOn = true → beatDue { s with tide := s.tide.tick } = true →
      ∃ t, step s = .next t ∧
        t = { s with
          tide := s.tide.tick
          sent := s.sent ++ [.heartbeat (ownPos s) s.ident.part]
          harbour := { s.harbour with beatAt := now { s with tide := s.tide.tick }, links := t.harbour.links } } ∧
        (∀ k, k ≠ linkTo s (firstHop s s.harbour.master) → getLink t k = getLink s k)) ∧
    (s.power.alwaysOn = false → step s = .next s)

/-- O3. After a power-on reset every byte of module memory reads 0, every arrival counter is 0, every context is CLOSED
with generation 0 and nothing in flight, every role epoch and partition generation is 0, Tide is 0 in always-on mode
with RATE 0, boot stage B0 is in progress and READY is 0, the Breakwater is not sealed, debug and the presence window
are closed, the fault-event ring is disabled and empty, the queue of commands is empty, and memory is in its canonical
form (the last two are the model's own). -/
def Obligations.PowerOnResetState : Prop :=
  (∀ loc, readByte State.reset loc = 0) ∧ (∀ b i, getCounter State.reset b i = 0) ∧
  (∀ c, (getCtx State.reset c).state = .closed ∧ (getCtx State.reset c).gen = 0 ∧ (getCtx State.reset c).flight = []) ∧
  (∀ k, (getSite State.reset k).epoch = 0) ∧ (∀ p, (getPart State.reset p).gen = 0) ∧
  now State.reset = 0 ∧ State.reset.tide.mode = .alwaysOn ∧ State.reset.tide.rate = 0 ∧
  State.reset.rst.stage = 0 ∧ State.reset.rst.ready = false ∧ State.reset.rst.cause = 1 ∧
  State.reset.sec.sealed = false ∧ State.reset.sec.debug = false ∧ State.reset.sec.window = none ∧
  State.reset.faults.enable = false ∧ State.reset.faults.head = 0 ∧ State.reset.faults.tail = 0 ∧
  State.reset.faults.held = [] ∧ State.reset.pending = [] ∧ memWf State.reset = true

/-- O4. Every step that answers a next state takes exactly the front command out of the queue, or leaves an empty queue
empty: no command of the 198 adds, drops or reorders a waiting command. No step changes PART, the number of berths, so
no unit appears or disappears while the machine runs (R4, R432). -/
def Obligations.QueueIsFifoAndVariantFixed : Prop :=
  (∀ s t c rest, s.pending = c :: rest → step s = .next t → t.pending = rest) ∧
  (∀ s t, s.pending = [] → step s = .next t → t.pending = []) ∧
  StepPreserves (fun s => s.ident.part)

/-- O5. If module memory, host memory and the arrival counters are in canonical form (addresses strictly rising, no entry
equal to what an unlisted address reads as), they are so after every step that answers a next state, whatever command
it ran: equal memories stay equal data. The form is the model's own; that an unlisted byte of DRAM, SRAM or a counter
reads 0 is R425 and R444, that one of host memory does is log entry 11. -/
def Obligations.MemoryStaysCanonical : Prop :=
  StepKeeps (fun s => memWf s = true)

/-- O6. For every command and every state: when the units the command names exist on this variant, exec answers a next
state; when one does not, exec faults with absentUnit. No command is refused. -/
def Obligations.CommandStopsOnlyOnAbsentUnit : Prop :=
  ∀ (c : Instr) (s : State),
    (unitsPresent s c = true → ∃ t, exec c s = .next t) ∧
    (unitsPresent s c = false → exec c s = .fault .absentUnit)

/-- O7. A request of CTX_QUERY, FW_INFO or HEALTH_READ that Blunen may begin, from any mailbox or ring, is answered S_OK
at once and nothing but the request changes. CTX_QUERY replies the state code, GEN, and F, Q and H of the context;
FW_INFO the running release (major, minor, 4-byte build) and the floor (minor, major); HEALTH_READ the bytes of the
health page that its site and page fields name. -/
def Obligations.ReadingRequestsReply : Prop :=
  (∀ s r a, Asks s r 0x0004 a → ∃ t, exec (.ctxQuery r) s = .next t ∧
    Replied s t r S_OK 0 (let x := getCtx s (fld a.params 0 8)
      bytesLE 4 (x.state.code + x.gen.toNat <<< 8) ++ bytesLE 4 x.fetchCount.toNat ++ bytesLE 4 x.cmdCount.toNat ++
        bytesLE 4 x.cqHead.toNat)) ∧
  (∀ s r a, Asks s r 0x0010 a → ∃ t, exec (.fwInfo r) s = .next t ∧
    Replied s t r S_OK 0 (bytesLE 1 s.sec.release.1 ++ bytesLE 1 s.sec.release.2.1 ++ bytesLE 4 s.sec.release.2.2 ++
      bytesLE 1 s.sec.floor.2 ++ bytesLE 1 s.sec.floor.1)) ∧
  (∀ s r a, Asks s r 0x0011 a → ∃ t, exec (.healthRead r) s = .next t ∧
    Replied s t r S_OK 0 (healthBytes s (fld a.params 0 6) (fld a.params 6 2)))

/-- O8. CTX_OPEN of a context that is CLOSED, whose earlier requests are all answered and whose berth is in service, makes
it OPEN with F, Q, H and the tail 0, nothing in flight, its generation kept, and the ring size, placement, vector and
bases of the parameters; it replies GEN. Tide is not stepped any more after it. Every other context, and the rest of
the state save a finished rung 1 of this context, is unchanged. While earlier requests are outstanding, the berth is
in thermal hold or in a partition reset, or the Tide of a slave has not locked for the first time, it waits. On a
context that is not CLOSED it replies S_BAD_PARAM and changes nothing, and so it does on a context of a lost berth
(the status is the model's choice, log entry 85). -/
def Obligations.ContextOpensOnlyClosed : Prop :=
  (∀ s fn a c, Asks s (.mailbox fn) 0x0001 a → c = fld a.params 0 6 → (getCtx s c).state = .closed →
    oldOutstanding s c = false → (getBerth s (ctxBerth c)).hold = false → berthResetting s (ctxBerth c) = false →
    lockWaits s = false → (getSite s (ctxBerth c)).retired = false →
    ∃ m t, exec (.ctxOpen fn) s = .next t ∧
      Replied m t (.mailbox fn) S_OK 0 [BitVec.ofNat 8 (getCtx s c).gen.toNat] ∧
      m = { s with
        ctxs := m.ctxs
        tide := { s.tide with firstLock := true }
        recovery := { s.recovery with
          rungs := s.recovery.rungs.filter (fun r => !(r.1 == 1 && r.2.1 == c)) } } ∧
      (∀ k, k ≠ c → getCtx m k = getCtx s k) ∧
      (getCtx m c).state = .opened ∧ (getCtx m c).gen = (getCtx s c).gen ∧
      (getCtx m c).fetchCount = 0 ∧ (getCtx m c).cmdCount = 0 ∧ (getCtx m c).cqHead = 0 ∧ (getCtx m c).sqTail = 0 ∧
      (getCtx m c).flight = [] ∧ (getCtx m c).log2S = fld a.params 8 8 ∧ (getCtx m c).place = fld a.params 16 3 ∧
      (getCtx m c).vector = fld a.params 32 11 ∧ (getCtx m c).sqBase = fld a.params 64 64 ∧
      (getCtx m c).cqBase = fld a.params 128 64 ∧ (getCtx m c).tqBase = fld a.params 192 64) ∧
  (∀ s fn a, Asks s (.mailbox fn) 0x0001 a → (getCtx s (fld a.params 0 6)).state ≠ .closed →
    ∃ t, exec (.ctxOpen fn) s = .next t ∧ Replied s t (.mailbox fn) S_BAD_PARAM (a.off 0) []) ∧
  (∀ s fn a c, Asks s (.mailbox fn) 0x0001 a → c = fld a.params 0 6 → (getCtx s c).state = .closed →
    oldOutstanding s c = true ∨ (getBerth s (ctxBerth c)).hold = true ∨ berthResetting s (ctxBerth c) = true ∨
      lockWaits s = true → exec (.ctxOpen fn) s = .next s) ∧
  (∀ s fn a c, Asks s (.mailbox fn) 0x0001 a → c = fld a.params 0 6 → (getCtx s c).state = .closed →
    oldOutstanding s c = false → (getBerth s (ctxBerth c)).hold = false → berthResetting s (ctxBerth c) = false →
    lockWaits s = false → (getSite s (ctxBerth c)).retired = true →
    ∃ t, exec (.ctxOpen fn) s = .next t ∧ Replied s t (.mailbox fn) S_BAD_PARAM (a.off 0) [])

/-- O9. CTX_CLOSE of an OPEN context makes it CLOSED when nothing is in flight and CLOSING otherwise, replies F, Q and
SQ_TAIL, and changes nothing else. CTX_ABORT of a context that is not CLOSED makes it CLOSED with nothing in flight
and its generation raised by 1 modulo 256, replies F, Q, the completions written in sequence order and the new GEN,
and writes no completion entry: module memory, host memory, arrival counters and every other context are unchanged. On
a context in any other state each replies S_BAD_PARAM and changes nothing. -/
def Obligations.ContextClosesAndAborts : Prop :=
  (∀ s fn a c, Asks s (.mailbox fn) 0x0002 a → c = fld a.params 0 8 → (getCtx s c).state = .opened →
    ∃ m t, exec (.ctxClose fn) s = .next t ∧
      Replied m t (.mailbox fn) S_OK 0 (bytesLE 4 (getCtx s c).fetchCount.toNat ++ bytesLE 4 (getCtx s c).cmdCount.toNat ++
        bytesLE 4 (getCtx s c).sqTail.toNat) ∧
      m = { s with ctxs := m.ctxs } ∧ (∀ k, k ≠ c → getCtx m k = getCtx s k) ∧
      getCtx m c = { getCtx s c with state := if (getCtx s c).flight = [] then .closed else .closing }) ∧
  (∀ s fn a c, Asks s (.mailbox fn) 0x0003 a → c = fld a.params 0 8 → (getCtx s c).state ≠ .closed →
    ∃ m t, exec (.ctxAbort fn) s = .next t ∧
      Replied m t (.mailbox fn) S_OK 0 (bytesLE 4 (getCtx s c).fetchCount.toNat ++ bytesLE 4 (getCtx s c).cmdCount.toNat ++
        bytesLE 4 (getCtx s c).inOrder.toNat ++ bytesLE 1 ((getCtx s c).gen + 1).toNat) ∧
      m.mem = s.mem ∧ m.sites = s.sites ∧ m.tide = s.tide ∧ m.faults = s.faults ∧ m.sent = s.sent ∧
      (∀ k, k ≠ c → getCtx m k = getCtx s k) ∧
      getCtx m c = { getCtx s c with state := .closed, gen := (getCtx s c).gen + 1, flight := [] }) ∧
  (∀ s fn a, Asks s (.mailbox fn) 0x0002 a → (getCtx s (fld a.params 0 8)).state ≠ .opened →
    ∃ t, exec (.ctxClose fn) s = .next t ∧ Replied s t (.mailbox fn) S_BAD_PARAM (a.off 0) []) ∧
  (∀ s fn a, Asks s (.mailbox fn) 0x0003 a → (getCtx s (fld a.params 0 8)).state = .closed →
    ∃ t, exec (.ctxAbort fn) s = .next t ∧ Replied s t (.mailbox fn) S_BAD_PARAM (a.off 0) [])

/-- O10. ROLE_CHANGE of a site that is in service and has no role change under way records the new role as draining and
keeps the role and the epoch in force; only the site's drain and the mailbox's progress change. ROLE_DRAIN_DONE puts
the new role in force, raises the epoch by 1 modulo 256, ends the drain and sends the epoch to the harbour, and nobody
is answered yet; every other site is unchanged. EPOCH_TABLE_UPDATE for the own site puts the epoch into the own table,
and only then a request that still waits is answered S_OK with the new epoch (step 7 after step 6). On a retired site
ROLE_CHANGE replies S_BAD_PARAM, on one that has stopped responding S_HW_ERROR: both statuses are the model's choice
(log entry 85). -/
def Obligations.RoleChangesAfterDrain : Prop :=
  (∀ s fn a k, Asks s (.mailbox fn) 0x0020 a → k = fld a.params 0 8 → (getSite s k).retired = false →
    siteDown s k = false → (getSite s k).drain = none → (getSite s k).replyTo = none →
    ∃ t, exec (.roleChange fn) s = .next t ∧ t = { s with sites := t.sites, mbx := t.mbx } ∧
      (∀ j, j ≠ k → getSite t j = getSite s j) ∧
      getSite t k = { getSite s k with drain := some (fld a.params 8 8, fn) } ∧
      (∀ j, j ≠ fn → getMbx t j = getMbx s j) ∧ getMbx t fn = { getMbx s fn with journal := 1 }) ∧
  (∀ s k role fn, hasSite s k = true → (getSite s k).drain = some (role, fn) →
    ∃ t, exec (.roleDrainDone k) s = .next t ∧
      t = { s with sites := t.sites, sent := s.sent ++ [.epoch k ((getSite s k).epoch + 1)] } ∧
      (∀ j, j ≠ k → getSite t j = getSite s j) ∧
      getSite t k =
        { getSite s k with role := role, epoch := (getSite s k).epoch + 1, drain := none, replyTo := some fn }) ∧
  (∀ s k fn (e : EpochSeen), (getSite s k).replyTo = some fn → e.epoch = (getSite s k).epoch →
    (getMbx s fn).pending = true → (getMbx s fn).accepted = true → (getMbx s fn).result = none →
    ∃ t, exec (.epochTableUpdate (ownPos s) k e) s = .next t ∧
      t = { s with sites := t.sites, mbx := t.mbx, harbour := { s.harbour with epochs := t.harbour.epochs } } ∧
      (∀ j, j ≠ k → getSite t j = getSite s j) ∧ getSite t k = { getSite s k with replyTo := none } ∧
      tableEpoch t (ownPos s) k = (getSite s k).epoch ∧
      (∀ j, j ≠ fn → getMbx t j = getMbx s j) ∧
      (getMbx t fn).result = some ⟨S_OK, 0, bytesLE 1 (getSite s k).epoch.toNat⟩) ∧
  (∀ s fn a, Asks s (.mailbox fn) 0x0020 a → (getSite s (fld a.params 0 8)).retired = true →
    ∃ t, exec (.roleChange fn) s = .next t ∧ Replied s t (.mailbox fn) S_BAD_PARAM (a.off 0) []) ∧
  (∀ s fn a, Asks s (.mailbox fn) 0x0020 a → (getSite s (fld a.params 0 8)).retired = false →
    siteDown s (fld a.params 0 8) = true →
    ∃ t, exec (.roleChange fn) s = .next t ∧ Replied s t (.mailbox fn) S_HW_ERROR (fld a.params 0 8) [])

/-- O11. DOMAIN_SET of a domain and state that Table 13-4 allows, for a domain that is not in use, makes that state the
last one its controller will reach, and changes only domains, crossings and the progress of the request; when the
domain is already in that state with nothing in progress it is answered S_OK and nothing else changes; when Table
13-4, R384, R403 or Table 14-6 does not allow it, it is answered S_BAD_PARAM and nothing else changes.
DOMAIN_TRANSITION_DONE puts the domain into the state of its transition in progress; a domain going down waits until
its crossings are PARKED, a region going down also waits for its engine, an engine returns after its region, and a
region or engine of a berth in thermal hold takes no transition but to off. -/
def Obligations.DomainSetAndTransition : Prop :=
  (∀ s r a d, Asks s r 0x0030 a → d = fld a.params 0 16 → domainAllowed s d (fld a.params 16 8) = true →
    (getDomain s d).target ≠ domStateOf (fld a.params 16 8) → domainInUse s d = false →
    ((getDomain s d).busy = none → (getDomain s d).queue = []) →
    ∃ t, exec (.domainSet r) s = .next t ∧
      t = { s with domains := t.domains, crossings := t.crossings, mbx := t.mbx, ctxs := t.ctxs } ∧
      (getDomain t d).target = domStateOf (fld a.params 16 8) ∧ (getDomain t d).state = (getDomain s d).state) ∧
  (∀ s r a d, Asks s r 0x0030 a → d = fld a.params 0 16 → domainAllowed s d (fld a.params 16 8) = true →
    (getDomain s d).target = domStateOf (fld a.params 16 8) → (getDomain s d).busy = none →
    ∃ t, exec (.domainSet r) s = .next t ∧ Replied s t r S_OK 0 []) ∧
  (∀ s r a, Asks s r 0x0030 a → domainAllowed s (fld a.params 0 16) (fld a.params 16 8) = false →
    ∃ t, exec (.domainSet r) s = .next t ∧ Replied s t r S_BAD_PARAM (a.off 0) []) ∧
  (∀ s d st, hasDomain s d = true → (getDomain s d).busy = some st →
    (∀ b e, domKind d = .region b e →
      (st ≠ .on → ¬ (getDomain s (engineDom b e)).state.depth < st.depth ∧
        ∀ q ∈ (getDomain s (engineDom b e)).queue, q.1 = .on) ∧
      (st ≠ .off → (getBerth s b).hold = false ∧ (getBerth s b).stopped = false)) →
    (∀ b e, domKind d = .engine b e → (st = .on → (getDomain s (regionDom b e)).state = .on) ∧
      (st ≠ .off → (getBerth s b).hold = false ∧ (getBerth s b).stopped = false)) →
    (st ≠ .on → parkable s d = true) →
    ∃ t, exec (.domainTransitionDone d) s = .next t ∧ (getDomain t d).state = st ∧
      (∀ k, k ≠ d → (getDomain t k).state = (getDomain s k).state)) ∧
  (∀ s d b e st, hasDomain s d = true → domKind d = .region b e ∨ domKind d = .engine b e → (getDomain s d).busy = some st →
    st ≠ .off → (getBerth s b).hold = true → exec (.domainTransitionDone d) s = .next s) ∧
  (∀ s d st, hasDomain s d = true → (getDomain s d).busy = some st → st ≠ .on → parkable s d = false →
    exec (.domainTransitionDone d) s = .next s)

/-- O12. A privileged request that Blunen may begin has its effect and is answered, and nothing else changes: KEY_ENROL
clears the key slot, or writes the 96 bytes at its address into it when the Harbourmaster can read them, and otherwise
answers what its read meets; LIFETIME_RESET makes the next module reset clear the lifetime records; FW_ROLLBACK
records the slot to boot and the floor for the next module reset; CONFIG_STAGE stages the image when the checks of
R438 find no offending field, and otherwise answers S_BAD_PARAM with 0x8000 + the offset of that field and stages
nothing. While a stack gives no answer to its reads, a request waits and writes nothing. -/
def Obligations.PrivilegedRequestsTakeEffect : Prop :=
  (∀ s r a, Asks s r 0x0F00 a → fld a.params 8 8 = 1 → ∃ m t, exec (.keyEnrol r) s = .next t ∧ Replied m t r S_OK 0 [] ∧
    m = { s with sec := { s.sec with keys := tabSet [] s.sec.keys (fld a.params 0 8) [] } }) ∧
  (∀ s r a, Asks s r 0x0F00 a → fld a.params 8 8 ≠ 1 → silentParts s (fld a.params 64 64) 96 = [] →
    hmReads s (fld a.params 64 64) 96 = none →
    ∃ m t, exec (.keyEnrol r) s = .next t ∧ Replied m t r S_OK 0 [] ∧
    m = { s with sec := { s.sec with
      keys := tabSet [] s.sec.keys (fld a.params 0 8) (loadBytes s (fld a.params 64 64) 96) } }) ∧
  (∀ s r a, Asks s r 0x0F02 a → ∃ m t, exec (.lifetimeReset r) s = .next t ∧ Replied m t r S_OK 0 [] ∧
    m = { s with sec := { s.sec with lifetimeReset := true } }) ∧
  (∀ s r a, Asks s r 0x0F03 a → ∃ m t, exec (.fwRollback r) s = .next t ∧ Replied m t r S_OK 0 [] ∧
    m = { s with sec := { s.sec with
      rollback := some (fld a.params 0 8, fld a.params 16 8, fld a.params 8 8) } }) ∧
  (∀ s r a e, Asks s r 0x0F00 a → fld a.params 8 8 ≠ 1 → silentParts s (fld a.params 64 64) 96 = [] →
    hmReads s (fld a.params 64 64) 96 = some e →
    ∃ t, exec (.keyEnrol r) s = .next t ∧ Replied s t r e.1 e.2 []) ∧
  (∀ s r a, Asks s r 0x0F00 a → fld a.params 8 8 ≠ 1 → silentParts s (fld a.params 64 64) 96 ≠ [] →
    ∃ t, exec (.keyEnrol r) s = .next t ∧ t.sec = s.sec ∧ t.mbx = s.mbx ∧ t.ctxs = s.ctxs) ∧
  (∀ s r a img, Asks s r 0x0F04 a → img = loadBytes s (fld a.params 0 64) imageBytes →
    silentParts s (fld a.params 0 64) imageBytes = [] →
    hmReads s (fld a.params 0 64) imageBytes = none → imageFault s img = none →
    ∃ m t, exec (.configStage r) s = .next t ∧ Replied m t r S_OK 0 [] ∧
      m = { s with sec := { s.sec with staged := some (parseImage img) } }) ∧
  (∀ s r a o, Asks s r 0x0F04 a → silentParts s (fld a.params 0 64) imageBytes = [] →
    hmReads s (fld a.params 0 64) imageBytes = none →
    imageFault s (loadBytes s (fld a.params 0 64) imageBytes) = some o →
    ∃ t, exec (.configStage r) s = .next t ∧ Replied s t r S_BAD_PARAM (0x8000 + o) [])

/-- O13. SECURE_ERASE through a mailbox makes an erase pending and is answered S_OK; DEBUG_ENABLE through a mailbox waits,
with debug still closed, while some partition is valid. After each, on a module that is READY, every valid partition
is in a partition reset, and each one that was not in a reset before has its generation and its key number raised by
1; host memory is unchanged. -/
def Obligations.EraseAndDebugResetPartitions : Prop :=
  (∀ s fn a, Asks s (.mailbox fn) 0x0F01 a → s.rst.ready = true →
    ∃ t, exec (.secureErase (.mailbox fn)) s = .next t ∧ t.sec.erasePending = true ∧
      (getMbx t fn).result = some ⟨S_OK, 0, []⟩ ∧ t.mem.host = s.mem.host ∧
      (∀ p ∈ validParts s, (getPart t p).resetting = true ∧ ((getPart s p).resetting = false →
        (getPart t p).gen = (getPart s p).gen + 1 ∧ (getPart t p).key = (getPart s p).key + 1))) ∧
  (∀ s fn a, Asks s (.mailbox fn) 0x0F05 a → s.rst.ready = true → s.sec.debugWait = none → validParts s ≠ [] →
    ∃ t, exec (.debugEnable (.mailbox fn)) s = .next t ∧ t.sec.debugWait = some (.mailbox fn) ∧
      t.sec.debug = s.sec.debug ∧ (getMbx t fn).result = none ∧ t.mem.host = s.mem.host ∧
      (∀ p ∈ validParts s, (getPart t p).resetting = true ∧ ((getPart s p).resetting = false →
        (getPart t p).gen = (getPart s p).gen + 1 ∧ (getPart t p).key = (getPart s p).key + 1)))

/-- O14. At stage B8 before READY, with the seal clear, BREAKWATER_WRITE writes the Breakwater and sets the seal: a staged
image that verifies again becomes the Breakwater and the active configuration; with no staged image the active
configuration is written, if its body keeps the rules of R435. With no active configuration, or one whose body does
not, and no staged image or one that fails, the module runs with the default configuration (one partition, record 0,
with every populated berth, FUNCTION 0, NEAR, RAMP code 2, FAB_ADDR_MODE 0, no REACH or INGRESS entries, an empty flat
table) and raises fault event 0x0701, by BREAKWATER_WRITE and at the end of stage B8 alike; the end of B8 also goes to
stage B9 and fixes the number of virtual functions. Once the seal is set, at another stage, or when READY,
BREAKWATER_WRITE changes nothing. -/
def Obligations.BreakwaterWrittenOnceAtB8 : Prop :=
  (∀ s c, s.rst.stage = 8 → s.rst.ready = false → s.sec.sealed = false → s.sec.staged = some c →
    imageFault s c.image = none → exec .breakwaterWrite s =
      .next { s with sec := { s.sec with staged := none, breakwater := c, sealed := true, activeCfg := some c } }) ∧
  (∀ s c, s.rst.stage = 8 → s.rst.ready = false → s.sec.sealed = false → s.sec.staged = none → s.sec.activeCfg = some c →
    firstBad (bodyBad s c.image) = none →
    exec .breakwaterWrite s = .next { s with sec := { s.sec with breakwater := c, sealed := true } }) ∧
  (∀ s (o : BootObs) i, s.rst.stage = 8 → s.rst.ready = false → s.sec.sealed = false →
    (s.sec.activeCfg = none ∨ ∃ c, s.sec.activeCfg = some c ∧ firstBad (bodyBad s c.image) ≠ none) →
    (s.sec.staged = none ∨ ∃ c, s.sec.staged = some c ∧ imageFault s c.image ≠ none) →
    i = .breakwaterWrite ∨ (i = .bootStageDone o ∧ powered s = true ∧ s.rst.romRecovery = false ∧ s.rst.stalledB5 = false) →
    ∃ t, exec i s = .next t ∧ t = { s with sec := t.sec, faults := t.faults, rst := t.rst, io := t.io } ∧
      t.rst = { s.rst with stage := t.rst.stage } ∧ t.io = { s.io with numVFs := t.io.numVFs } ∧
      (i = .breakwaterWrite → t.rst = s.rst ∧ t.io = s.io) ∧
      t.sec = { s.sec with
        staged := none
        sealed := true
        breakwater :=
          { serial := 0
            signer := 0
            fabAddrMode := 0
            parts := [⟨true, 2, false, 0, BitVec.ofNat 8 (2 ^ s.ident.part - 1), []⟩]
            ingress := []
            flat := []
            image := [] } } ∧
      (s.sec.staged = none → ∃ e, t.faults.unlogged = s.faults.unlogged ++ [e] ∧ e.code = 0x0701 ∧ e.arg = 0) ∧
      ∃ e ∈ t.faults.unlogged, e.code = 0x0701 ∧ e.arg = 0) ∧
  (∀ s, s.sec.sealed = true ∨ s.rst.ready = true ∨ s.rst.stage ≠ 8 → exec .breakwaterWrite s = .next s)

/-- O15. SELFTEST of an engine (code 3) or CALIBRATE of one engine, for an engine that has not left service on a berth
that is not retired: while the engine runs a block the test joins the engine's queue with rank 2 and waits, nobody is
answered, and the engine stays in rotation; of the rest of the state only the progress of the request changes. When no
test waits and the engine stands at a boundary in rotation, it leaves rotation and the test runs at once. -/
def Obligations.TestRequestsQueueOrAnswer : Prop :=
  (∀ s r a b e, Asks s r 0x0E00 a → b = fld a.params 0 8 → e = fld a.params 8 16 → fld a.params 24 8 = 3 →
    (getEngine s b e).rotation = .inRotation → (getSite s b).retired = false → (getEngine s b e).run.isSome = true →
    s.recovery.tests = [] →
    ∃ t, exec (.selftest r) s = .next t ∧ t = { s with recovery := t.recovery, mbx := t.mbx, ctxs := t.ctxs } ∧
      t.recovery = { s.recovery with tests := [{ el := .engine b e, code := 3, rank := 2, who := [r] }] }) ∧
  (∀ s r a b e, Asks s r 0x0E01 a → b = fld a.params 0 8 → e = fld a.params 8 16 → e ≠ 0xFFFF →
    (getEngine s b e).rotation = .inRotation → (getSite s b).retired = false → (getEngine s b e).run.isSome = true →
    s.recovery.tests = [] →
    ∃ t, exec (.calibrate r) s = .next t ∧ t = { s with recovery := t.recovery, mbx := t.mbx, ctxs := t.ctxs } ∧
      t.recovery = { s.recovery with tests := [{ el := .engine b e, code := 0x10, rank := 2, who := [r] }] }) ∧
  (∀ s r a b e, Asks s r 0x0E01 a → b = fld a.params 0 8 → e = fld a.params 8 16 → e ≠ 0xFFFF →
    (getEngine s b e).rotation = .inRotation → (getSite s b).retired = false → (getEngine s b e).run = none →
    (getEngine s b e).finishing = none → (getEngine s b e).resetting = false → (getEngine s b e).thermalStep = false →
    s.recovery.tests = [] →
    ∃ t, exec (.calibrate r) s = .next t ∧ (getEngine t b e).rotation = .outOfRotation ∧
      t.recovery = { s.recovery with
        tests := [{ el := .engine b e, code := 0x10, rank := 2, who := [r], running := true }] })

/-- O16. A started CNT_WAIT finishes S_OK when the counter of its berth is at least VALUE and changes nothing before;
CNT_SET finishes with exactly that counter holding VALUE; CNT_ADD to a counter of the own module that answers finishes
with exactly that counter raised by ADDEND modulo 2^64. A CNT_ADD to another module, or to a site that gives no
answer, finishes its work with one 8-byte addition on CTL outstanding, unless its source meets an error, and so does
one that would overtake an earlier addition of its berth to the same endpoint, and changes no counter of the own
module. CNT_READ finishes with the 8 little-endian bytes of the counter on their way to DEST and the status of the
store. Every other counter and the rest of the state are unchanged. -/
def Obligations.CounterCommandsFinish : Prop :=
  (∀ s id c, Started s id 0x0200 c →
    (fld c.params 64 64 ≤ (getCounter s c.berth (fld c.params 0 16)).toNat →
      ∃ t, exec (.cntWait id) s = .next t ∧ CmdBecomes s t id (c.done (now s) none [])) ∧
    ((getCounter s c.berth (fld c.params 0 16)).toNat < fld c.params 64 64 → exec (.cntWait id) s = .next s)) ∧
  (∀ s id c, Started s id 0x0202 c → ∃ m t, exec (.cntSet id) s = .next t ∧
    CmdBecomes m t id (c.done (now s) none []) ∧ m = { s with mem := { s.mem with counters := m.mem.counters } } ∧
    getCounter m c.berth (fld c.params 0 16) = BitVec.ofNat 64 (fld c.params 64 64) ∧
    (∀ b i, counterKey b i ≠ counterKey c.berth (fld c.params 0 16) → getCounter m b i = getCounter s b i)) ∧
  (∀ s id c b i, Started s id 0x0201 c → addrPos (fld c.params 0 64) = ownPos s →
    goesOut s (fld c.params 0 64) = false → overtakes s c.berth .ctl (fld c.params 0 64) = false →
    placeOf s.ident.part (addrLocal (fld c.params 0 64)) = .counter b i → berthResetting s b = false →
    siteDown s b = false → siteGone s b = false →
    rangeStatus (seenFrom s c.berth) .atomic (fld c.params 0 64) 8 = none →
    ∃ m t, exec (.cntAdd id) s = .next t ∧ CmdBecomes m t id (c.done (now s) none []) ∧
      m = { s with mem := { s.mem with counters := m.mem.counters } } ∧
      getCounter m b i = getCounter s b i + BitVec.ofNat 64 (fld c.params 64 64) ∧
      (∀ b' i', counterKey b' i' ≠ counterKey b i → getCounter m b' i' = getCounter s b' i')) ∧
  (∀ s id c r, Started s id 0x0201 c →
    goesOut s (fld c.params 0 64) = true ∨ overtakes s c.berth .ctl (fld c.params 0 64) = true →
    r = workReq s c .atomic (fld c.params 0 64) 8 .ctl →
    ∃ t d, exec (.cntAdd id) s = .next t ∧ t.mem = s.mem ∧ findCmd t id = some d ∧ d.phase = .finished ∧
      (issueMeets s { r with opP := BitVec.ofNat 64 (fld c.params 64 64) } (destSite s r.addr) = none →
        ∃ o, t.reqs.out = s.reqs.out ++ [o] ∧ o.req.kind = .atomic ∧ o.req.addr = fld c.params 0 64 ∧ o.req.size = 8 ∧
          o.req.ch = .ctl ∧ o.req.srcCtx = some id ∧ o.req.opP = BitVec.ofNat 64 (fld c.params 64 64))) ∧
  (∀ s id c, Started s id 0x0203 c → Reachable s c [⟨.store, fld c.params 64 64, 8⟩] →
    ∃ t, exec (.cntRead id) s = .next t ∧ WorkEnds s t c [⟨.store, fld c.params 64 64, 8⟩] none
      (layAt (fld c.params 64 64) (bytesLE 8 (getCounter s c.berth (fld c.params 0 16)).toNat)))

/-- O17. A module reset sets every arrival counter to zero, whatever its source. A partition reset, on a module that is
READY and of a partition not already in a reset, clears every counter of the partition's berths. A context abort
clears none. An addition that reaches a counter of a berth during its partition reset is dropped and counted: the
counters stay and the count of dropped additions rises by 1. -/
def Obligations.CountersThroughResets : Prop :=
  (∀ s code b i, getCounter (moduleReset s code) b i = 0) ∧
  (∀ s, powered s = true → ∀ t, exec .watchdog s = .next t → ∀ b i, getCounter t b i = 0) ∧
  (∀ s p cause, p < 8 → s.rst.ready = true → (getPart s p).resetting = false → ∀ b ∈ partBerths s p, ∀ i, i < 4096 →
    getCounter (beginPartitionReset s p cause) b i = 0) ∧
  (∀ s fn a, Asks s (.mailbox fn) 0x0003 a → ∀ t, exec (.ctxAbort fn) s = .next t → t.mem.counters = s.mem.counters) ∧
  (∀ s a v b i, addrPos a = ownPos s → placeOf s.ident.part (addrLocal a) = .counter b i → berthResetting s b = true →
    addCounter s a v = { s with mem := { s.mem with droppedAdds := s.mem.droppedAdds + 1 } })

/-- O18. TIDE_ALARM is answered S_OK and arms the alarm at its value; 0, or a value already reached, leaves no alarm
armed. TIDE_ALARM_FIRE at or after the armed value disarms it; on a sleeping module it wakes the module with wake code
5 and mask bit 4, at that Tide, and counts the wake; on a module that is awake nothing else changes; before its value
nothing changes. A started TIDE_WAIT finishes S_OK once Tide has reached TIDE_NS and changes nothing before. TIDE_READ
finishes with the 8 little-endian bytes of the Tide sampled at its start on their way to DEST and the status of the
store. CTX_DRAIN finishes S_OK when no command that its context fetched before it is in flight and changes nothing
before. Nothing else changes. A READY module awake whose controlled domains rest, with PCIe in retention, sleeps once
the crossings of the base fabric and the Harbourmasters can be PARKED; a source that is always active wakes a sleeping
module under its code, and so does source 5 once Tide has reached the alarm, which it disarms, while before that it
does nothing; so does an access outside the always-on block of the management port; a press of the button is recorded;
held 3 s on a READY module it opens the presence window of 120 s, which closes at its end. -/
def Obligations.TideCommandsAndAlarm : Prop :=
  (∀ s r a, Asks s r 0x0031 a → ∃ m t, exec (.tideAlarm r) s = .next t ∧ Replied m t r S_OK 0 [] ∧
    m = { s with tide := { s.tide with
      alarm := if fld a.params 0 64 = 0 ∨ fld a.params 0 64 ≤ now s then none else some (fld a.params 0 64) } }) ∧
  (∀ s v, s.tide.alarm = some v → v ≤ now s → s.io.asleep = false →
    exec .tideAlarmFire s = .next { s with tide := { s.tide with alarm := none } }) ∧
  (∀ s v, s.tide.alarm = some v → v ≤ now s → s.io.asleep = true →
    ∃ t, exec .tideAlarmFire s = .next t ∧ t.tide.alarm = none ∧ t.io.asleep = false ∧ t.io.wakeCode = 5 ∧
      t.io.wakeMask = 16 ∧ t.io.wakeTide = now s ∧ t.io.wakeCount = s.io.wakeCount + 1 ∧ t.mem = s.mem ∧
      t.ctxs = s.ctxs ∧ t.faults = s.faults) ∧
  (∀ s v, s.tide.alarm = some v → now s < v → exec .tideAlarmFire s = .next s) ∧
  (∀ s id c, Started s id 0x0210 c →
    (fld c.params 0 64 ≤ now s → ∃ t, exec (.tideWait id) s = .next t ∧ CmdBecomes s t id (c.done (now s) none [])) ∧
    (now s < fld c.params 0 64 → exec (.tideWait id) s = .next s)) ∧
  (∀ s id c, Started s id 0x0211 c → Reachable s c [⟨.store, fld c.params 0 64, 8⟩] →
    ∃ t, exec (.tideRead id) s = .next t ∧ WorkEnds s t c [⟨.store, fld c.params 0 64, 8⟩] none
      (layAt (fld c.params 0 64) (bytesLE 8 c.tideStart))) ∧
  (∀ s id c, Started s id 0x0220 c →
    ((∀ m ∈ (getCtx s id.ctx).flight.takeWhile (fun m => decide (m.id ≠ id)), m.id.node ≠ none) →
      ∃ t, exec (.ctxDrain id) s = .next t ∧ CmdBecomes s t id (c.done (now s) none [])) ∧
    ((∃ m ∈ (getCtx s id.ctx).flight.takeWhile (fun m => decide (m.id ≠ id)), m.id.node = none) →
      exec (.ctxDrain id) s = .next s)) ∧
  (∀ s, s.rst.ready = true → s.io.asleep = false → (getDomain s 4).state = .retention → (getDomain s 4).busy = none →
    (∀ d ∈ controlled s, (getDomain s d).state ≠ .on ∧ (getDomain s d).busy = none) →
    (∀ d ∈ [1, 2, 3], parkable ([1, 2, 3].foldl parkDomain s) d = true) →
    ∃ t, exec .moduleSleep s = .next t ∧ t.io.asleep = true ∧ (getDomain t 1).state = .retention ∧ t.mem = s.mem) ∧
  (∀ s code q, q < 8 → s.io.asleep = true → code = 1 ∨ code = 6 ∨ code = 7 →
    ∃ t, exec (.wake code [] q) s = .next t ∧ t.io.asleep = false ∧ t.io.wakeCode = code ∧ t.io.wakeTide = now s) ∧
  (∀ s v q, q < 8 → s.io.asleep = true → s.tide.alarm = some v →
    (v ≤ now s → ∃ t, exec (.wake 5 [] q) s = .next t ∧ t.tide.alarm = none ∧ t.io.asleep = false ∧ t.io.wakeCode = 5) ∧
    (now s < v → exec (.wake 5 [] q) s = .next s)) ∧
  (∀ s off, 0x40 ≤ off → s.io.asleep = true →
    ∃ t, exec (.mpAddressMatchWake off) s = .next t ∧ t.io.asleep = false ∧ t.io.wakeCode = 1) ∧
  (∀ s, ∃ t, exec .presenceButtonPress s = .next t ∧ t.sec = { s.sec with buttonSince := some (now s) }) ∧
  (∀ s b, s.sec.buttonSince = some b → s.rst.ready = true → b + 3000000000 ≤ now s →
    s.rst.readyTide + 3000000000 ≤ now s →
    ∃ t, exec .presenceHold s = .next t ∧ t.sec.window = some (now s + 120000000000)) ∧
  (∀ s w, s.sec.window = some w → w ≤ now s → ∃ t, exec .presenceWindowExpiry s = .next t ∧ t.sec.window = none)

/-- O19. When its Tug takes a started TUG_COPY, the command has ceil(total / chunk) chunks, total being LEN0 x (N1 + 1) x
(N2 + 1) bytes and a chunk 4 KiB x 2^CHUNK; a TUG_FILL has the chunks of its LEN bytes. Taking the command moves no
data and changes nothing else. A command whose chunks are counted already is left as it is. -/
def Obligations.TugCountsItsChunks : Prop :=
  (∀ s id c, Started s id 0x0100 c → c.tug.chunks = 0 → ∃ t, exec (.tugCopy id) s = .next t ∧
    CmdBecomes s t id { c with tug := { c.tug with
      chunks := ceilDiv (fld c.params 128 32 * (fld c.params 160 16 + 1) * (fld c.params 176 16 + 1))
        (4096 * 2 ^ fld c.params 432 4) } }) ∧
  (∀ s id c, Started s id 0x0101 c → c.tug.chunks = 0 → ∃ t, exec (.tugFill id) s = .next t ∧
    CmdBecomes s t id { c with tug := { c.tug with
      chunks := ceilDiv (fld c.params 64 32 + 1) (4096 * 2 ^ fld c.params 240 4) } }) ∧
  (∀ s id c, Started s id 0x0100 c → c.tug.chunks ≠ 0 → exec (.tugCopy id) s = .next s) ∧
  (∀ s id c, Started s id 0x0101 c → c.tug.chunks ≠ 0 → exec (.tugFill id) s = .next s)

/-- O20. For a started TUG_COPY or TUG_FILL whose chunk k is neither begun, done nor stopped and whose ranges wait for
nothing: when no access of the chunk meets an error, no counter is enabled and every byte read answers on the own
module, memory becomes what writing the pieces of the chunk in copy order leaves; with every range on the own module,
chunk k is then done, and the command finishes exactly when this was the last chunk. While reads are on their way to
other modules no byte of the own module changes, and nothing is written. When an access meets S_TARGET_DEAD,
S_STALE_ROLE or S_HW_ERROR no byte and no counter changes and the command finishes with that status. In a fill, byte i
of the stream is byte (i mod 8) of PATTERN. -/
def Obligations.TugChunkMovesItsBytes : Prop :=
  (∀ s id c k, hasCtx s id.ctx = true → findCmd s id = some c → c.phase = .started → c.opcode = 0x0100 ∨ c.opcode = 0x0101 →
    k < c.tug.chunks → c.tug.finished.contains k = false → c.tug.begun.contains k = false → c.tug.stopped = false →
    chunkOpen s id k = false → Reachable s c ((tugPieces c k).flatMap TugPiece.touches) →
    (touchStatus s c.berth ((tugPieces c k).flatMap TugPiece.touches) = none → tugCounter c = none →
      asksOut s (readsOf ((tugPieces c k).flatMap TugPiece.touches)) = false →
      ∃ t d, exec (.tugChunkDone id k) s = .next t ∧
        t.mem = ((tugPieces c k).foldl (fun u p => writePiece u c k p)
          ((tugPieces c k).foldl (fun u p => readPiece u c k p) s)).mem ∧ findCmd t id = some d ∧
        (asksOut s ((tugPieces c k).flatMap TugPiece.touches) = false → d.tug.finished = insertNat k c.tug.finished ∧
          (d.phase = .finished ↔ c.tug.finished.length + 1 = c.tug.chunks))) ∧
    (touchStatus s c.berth ((tugPieces c k).flatMap TugPiece.touches) = none →
      asksOut s (readsOf ((tugPieces c k).flatMap TugPiece.touches)) = true →
      ∃ t, exec (.tugChunkDone id k) s = .next t ∧ t.mem = s.mem) ∧
    (∀ e, touchStatus s c.berth ((tugPieces c k).flatMap TugPiece.touches) = some e → stopsTug e.1 = true →
      ∃ t d, exec (.tugChunkDone id k) s = .next t ∧ t.mem = s.mem ∧ findCmd t id = some d ∧ d.phase = .finished ∧
        d.status = (c.note e.1 e.2).status)) ∧
  (∀ p off n i, i < n → (fillBytes p off n)[i]? = some (BitVec.ofNat 8 (p >>> (8 * ((off + i) % 8)))))

/-- O21. A started digital operator whose regions have a tile in service and whose ranges wait for nothing finishes at
once: its result blocks, encoded from its operands as its site sees them, are on their way to the places of its
destination, its status is the one of highest rank among those of its reads, S_BUDGET when a block misses the
requested bound, and the one it had; memory is unchanged: results become visible only at its completion, which meets
what its stores meet. Only the command, its requests to other modules, the model's index of free values, row buffers
and counts of refusals change. With no tile in service it finishes S_RESOURCE_RETIRED, DETAIL the berth, with no
result. -/
def Obligations.DigitalOperatorsFinish : Prop :=
  (∀ s id c op i ts w, (op, i, ts, w) ∈ [
      (0x0300, Instr.matmul id, matmulTouches c, matmulProduct (seenFrom s c.berth) c),
      (0x0500, Instr.convert id, unaryTouches c, convertProduct (seenFrom s c.berth) c),
      (0x0501, Instr.transpose id, unaryTouches c, transposeProduct (seenFrom s c.berth) c),
      (0x0502, Instr.ewise id, ewiseTouches c, ewiseProduct (seenFrom s c.berth) c),
      (0x0503, Instr.tableFn id, unaryTouches c, tableProduct (seenFrom s c.berth) c),
      (0x0504, Instr.reduce id, unaryTouches c, reduceProduct (seenFrom s c.berth) c),
      (0x0505, Instr.softmax id, unaryTouches c, softmaxProduct (seenFrom s c.berth) c),
      (0x0510, Instr.attention id, attentionTouches c, attentionProduct (seenFrom s c.berth) c)] →
    Started s id op c → isOptical c.opcode c.params = false →
    (noTiles s c = false → Reachable s c ts →
      ∃ t, exec i s = .next t ∧ WorkEnds { s with fresh := s.fresh + 1 } t c ts
        (budgetStatus (budgetCount w.dst.format (hTreq c.packet) w.srcs w.outs))
        (w.outs.flatMap (placeBlock w.dst))) ∧
    (noTiles s c = true → ∃ t, exec i s = .next t ∧
      CmdBecomes s t id (c.done (now s) (some (S_RESOURCE_RETIRED, c.berth)) [])))

/-- O22. For every width w of at least 1, every rounding mode and every value: a finite value is rounded by the mode, then
a result above 2^(w-1) - 1 gives that largest integer, one below -2^(w-1) gives that smallest integer, and any other
is kept; +infinity and -infinity give the largest and the smallest; a NaN gives 0. The code that a command writes for
an element of INT8, INT4 or INT32 is the two's complement code of that integer at width 8, 4 or 32. -/
def Obligations.IntegerConversionsSaturate : Prop :=
  (∀ (w : Nat) (r : Rnd) (neg : Bool) (m : Nat) (e : Int), 1 ≤ w →
    let v : Int := if neg then -(roundMag r neg m e : Int) else (roundMag r neg m e : Int)
    let hi : Int := 2 ^ (w - 1) - 1
    let lo : Int := -(2 ^ (w - 1))
    (hi < v → encodeInt w r (.fin neg m e) = hi) ∧ (v < lo → encodeInt w r (.fin neg m e) = lo) ∧
    (lo ≤ v → v ≤ hi → encodeInt w r (.fin neg m e) = v)) ∧
  (∀ (w : Nat) (r : Rnd), 1 ≤ w → encodeInt w r (.inf false) = 2 ^ (w - 1) - 1 ∧
    encodeInt w r (.inf true) = -(2 ^ (w - 1)) ∧ encodeInt w r .nan = 0) ∧
  (∀ (r : Rnd) (sat : Bool) (x : Machine.Num), encodeScalar .int8 r sat x = ofSigned 8 (encodeInt 8 r x) ∧
    encodeScalar .int4 r sat x = ofSigned 4 (encodeInt 4 r x) ∧
    encodeScalar .int32 r sat x = ofSigned 32 (encodeInt 32 r x))

/-- O23. For every value x and rounding mode, the sum and the product of a NaN and x, in either order, are NaN. The sum of
+0 and -0, in either order, and of any finite value and its negation, is +0, and in mode RDN -0. Every floating-point
format of Table 02-3 that has a NaN writes NaN as one code, with sign 0. -/
def Obligations.SignOfZeroAndNan : Prop :=
  (∀ (r : Rnd) (x : Machine.Num), Machine.Num.add r .nan x = .nan ∧ Machine.Num.add r x .nan = .nan ∧ Machine.Num.mul .nan x = .nan ∧ Machine.Num.mul x .nan = .nan) ∧
  (∀ (r : Rnd) (neg : Bool) (m : Nat) (e : Int), Machine.Num.add r (.fin neg m e) (.fin (!neg) m e) = .fin (decide (r = .rdn)) 0 e ∨
    (∃ k, Machine.Num.add r (.fin neg m e) (.fin (!neg) m e) = .fin (decide (r = .rdn)) 0 k)) ∧
  (∀ (f : FloatFmt) (r : Rnd) (sat : Bool), f ∈ [fmtFP32, fmtFP16, fmtBF16, fmtE4M3, fmtE5M2] →
    f.encode r sat .nan = f.nan ∧ f.nan < 2 ^ (f.ebits + f.fbits))

/-- O24. A started optical command that is not planned yet, with an engine of its set in service, whose ranges wait for
nothing and whose reads meet no error, gets the weight blocks of its first product, each for the engine g mod E of its
row block g (those of engines that left service since, or are out of rotation, go to the others at once), and its
sampling seed; besides the command only its requests to other modules, row buffers and counts of refusals change. With
no engine in service it finishes S_RESOURCE_RETIRED, DETAIL the berth. -/
def Obligations.OpticalCommandsAreDealtOut : Prop :=
  (∀ s id c op i ts, (op, i, ts) ∈ [(0x0400, Instr.optMatmul id, optMatmulTouches c),
      (0x0510, Instr.attention id, attentionTouches c)] →
    Started s id op c → isOptical c.opcode c.params = true → c.opt.stage = 0 →
    (c.engines.any (engInService s c.berth) = true → Reachable s c ts → touchStatus s c.berth (readsOf ts) = none →
      ∃ t d, exec i s = .next t ∧ WorkLeaves s t c d ts [] ∧
        d = { c with opt := { c.opt with todo := d.opt.todo, stage := 1, seedValue := seedValue c.id } } ∧
        (c.opt.engines.all (engInService s c.berth) = true →
          (∀ e ∈ c.opt.engines, (getEngine s c.berth e).rotation = .inRotation) →
          d.opt.todo = planBlocks c.opt.engines 0 (optDims c 0))) ∧
    (c.engines.any (engInService s c.berth) = false → ∃ t, exec i s = .next t ∧
      CmdBecomes s t id (c.done (now s) (some (S_RESOURCE_RETIRED, c.berth)) [])))

/-- O25. A started collective of berth scope, with a tile in service and ranges that wait for nothing, finishes at once
with the blocks of its destination on their way (reduced in ascending index, gathered, scattered or broadcast by its
opcode) and the worst status of its reads and its bound. One of a wider scope that is the first of its COLL_ID to
start, and meets no dead member, joins a new collective and goes on waiting; nothing else changes. A second one of a
berth that has already joined finishes S_BAD_PARAM, DETAIL 0xFFFF. Once its collective runs, the shares of all its
members that are still started are done at once, each from the contributions of all, and it finishes; memory is
unchanged before the completions. -/
def Obligations.CollectivesJoinAndFinish : Prop :=
  ∀ s id c op i, (op, i) ∈ [(0x0600, Instr.allReduce id), (0x0601, Instr.allGather id), (0x0602, Instr.reduceScatter id),
      (0x0603, Instr.broadcast id)] →
    Started s id op c → noTiles s c = false → c.served = false →
    (∀ w st, c.scope = 0 → Reachable s c (collLoads s c ++ collStores c) →
      w = memberProduct s c (contributions s c [c]) →
      st = worse (collStatus s [c])
        (budgetStatus (budgetCount w.dst.format (hTreq c.packet) w.srcs w.outs)) →
      ∃ t, exec i s = .next t ∧ WorkLeaves { s with fresh := s.fresh + 1 } t c
        { c.done (now s) st ((w.outs.flatMap (placeBlock w.dst)).filter (fun e => !goesOut s e.1)) with served := true }
        (collLoads s c ++ collStores c) (w.outs.flatMap (placeBlock w.dst))) ∧
    (c.scope ≠ 0 → deadMember s c = none → (∀ k ∈ s.graphs.colls, ¬ (k.collId = c.collId ∧ k.part = c.part s)) →
      exec i s = .next { s with graphs := { s.graphs with
        colls := s.graphs.colls ++
          [{ collId := c.collId
             part := c.part s
             arrived := [id]
             berths := [c.berth]
             own := ((collMembers (ownPos s) c.params).filter (fun m => m.1 == ownPos s)).map (·.2) }] } }) ∧
    (∀ k, c.scope ≠ 0 → deadMember s c = none → collOf s c = some k → k.running = false → k.arrived.contains id = false →
      (arrivedCmds s k).any (fun x => x.berth == c.berth) = true →
      ∃ t, exec i s = .next t ∧ CmdBecomes s t id (c.done (now s) (some (S_BAD_PARAM, 0xFFFF)) [])) ∧
    (∀ k cmds, c.scope ≠ 0 → deadMember s c = none → collOf s c = some k → k.running = true → k.arrived.contains id = true →
      cmds = arrivedCmds s k → (cmds.map (·.id)).Nodup →
      Reachable s c (cmds.flatMap (fun x => collLoads s x ++ collStores x)) →
      ∃ t, exec i s = .next t ∧ t.mem = s.mem ∧ t.graphs = s.graphs ∧
        (∃ d, findCmd t id = some d ∧ d.phase = .finished ∧ d.tideEnd = now s) ∧
        ∀ x ∈ cmds, x.phase = .started → ∃ d, findCmd t x.id = some d ∧ d.served = true ∧
          d.results = x.results ++ ((memberProduct s x (contributions s x cmds)).outs.flatMap
            (placeBlock (memberProduct s x (contributions s x cmds)).dst)).filter (fun e => !goesOut s e.1))

/-- O26. When one waiting collective carries the COLL_ID: if every member of the module has arrived with the first one's
descriptor and, where there are members on other modules, those agree, it is running and nothing else changes; if a
member's descriptor differs, the collective has failed, so that members that start later meet the same status, and
every member that had arrived has finished with at least S_BAD_PARAM's rank; a COLL_ID of no waiting collective
changes nothing. -/
def Obligations.RendezvousStartsCollective : Prop :=
  (∀ s n ra k first rest, s.graphs.colls.filter (fun k => k.collId == n && !k.running && !k.failed) = [k] →
    arrivedCmds s k = first :: rest → rest.all (sameDescriptor first) = true → allArrived s first (first :: rest) = true →
    (hasRemote s first = true → ra = true) →
    exec (.collectiveRendezvous n ra) s = .next { s with graphs := { s.graphs with
      colls := otherColls s k ++ [{ k with running := true }] } }) ∧
  (∀ s n ra k first rest, s.graphs.colls.filter (fun k => k.collId == n && !k.running && !k.failed) = [k] →
    arrivedCmds s k = first :: rest → rest.all (sameDescriptor first) = false →
    ∃ t, exec (.collectiveRendezvous n ra) s = .next t ∧ t.graphs.colls = otherColls s k ++ [{ k with failed := true }] ∧
      t = { s with graphs := t.graphs, ctxs := t.ctxs } ∧
      (∀ x ∈ first :: rest, ∃ d, findCmd t x.id = some d ∧ d.phase = .finished ∧
        statusRank S_BAD_PARAM ≤ statusRank d.status)) ∧
  (∀ s n ra, s.graphs.colls.filter (fun k => k.collId == n && !k.running && !k.failed) = [] →
    exec (.collectiveRendezvous n ra) s = .next s)

/-- O27. GRAPH_LOAD into a free slot of a descriptor that can be read, lies within reach and passes every check of R239
finishes with exactly that slot holding its nodes. GRAPH_RUN of a loaded slot whose argument table can be read and
whose argument addresses pass begins a run of ITER + 1 iterations and stays started; besides, only what loading the
table leaves changes. GRAPH_UNLOAD of a slot with no run in flight finishes with exactly that slot free; with a run in
flight it finishes S_BAD_PARAM and the slot stays. -/
def Obligations.GraphsLoadRunAndUnload : Prop :=
  (∀ s id c h entries, Started s id 0x0700 c → Reachable s c [⟨.load, fld c.params 0 47, 64⟩] →
    touchesSilent s [⟨.load, fld c.params 0 47, 64⟩] = false →
    touchesSilent s [⟨.load, fld c.params 0 47, 64 + 256 * fld h 32 8⟩] = false →
    h = loadNat (seenFrom s c.berth) (fld c.params 0 47) 64 →
    entries = (List.range (fld h 32 8)).map
      (fun i => loadNat (seenFrom s c.berth) (fld c.params 0 47 + 64 + 256 * i) 256) →
    (getSlot s (graphPart s c) (fld c.params 64 8)).loaded = false →
    touchStatus s c.berth [⟨.load, fld c.params 0 47, 64⟩] = none → firstFault (headerFaults h) = none →
    reachOk s (graphPart s c) .load (fld c.params 0 47) (64 + 256 * fld h 32 8) = true →
    touchStatus s c.berth [⟨.load, fld c.params 0 47, 64 + 256 * fld h 32 8⟩] = none →
    firstFault (entries.zipIdx.flatMap (fun e => nodeFaults s (graphPart s c) c.berth (fld h 40 8) e.2 e.1)) = none →
    ∃ m t, exec (.graphLoad id) s = .next t ∧
      WorkEnds m t c [⟨.load, fld c.params 0 47, 64 + 256 * fld h 32 8⟩] none [] ∧
      m = { s with graphs := { s.graphs with slots := m.graphs.slots } } ∧
      getSlot m (graphPart s c) (fld c.params 64 8) =
        { loaded := true, nodes := fld h 32 8, nargs := fld h 40 8, entries := entries } ∧
      (∀ p k, slotKey p k ≠ slotKey (graphPart s c) (fld c.params 64 8) → getSlot m p k = getSlot s p k)) ∧
  (∀ s id c r, Started s id 0x0701 c →
    Reachable s c [⟨.load, fld c.params 16 48, 1024⟩, ⟨.store, fld c.params 80 48, 512⟩] →
    touchesSilent s
      [⟨.load, fld c.params 16 48, 16 * (getSlot s (graphPart s c) (fld c.params 0 8)).nargs⟩] = false →
    (∀ e ∈ s.graphs.edges, ownerOf e.1 ≠ id) →
    (∀ x ∈ s.graphs.runs, ¬ (x.id.ctx = id.ctx ∧ x.id.seq = id.seq)) →
    (getSlot s (graphPart s c) (fld c.params 0 8)).loaded = true →
    touchStatus s c.berth
      [⟨.load, fld c.params 16 48, 16 * (getSlot s (graphPart s c) (fld c.params 0 8)).nargs⟩] = none →
    reachOk s (graphPart s c) .load (fld c.params 16 48)
      (16 * (getSlot s (graphPart s c) (fld c.params 0 8)).nargs) = true →
    firstFault (argFaults s c (graphPart s c) (fld c.params 64 16 + 1)
      (getSlot s (graphPart s c) (fld c.params 0 8)).entries) = none →
    r = { id := id, part := graphPart s c, slot := fld c.params 0 8, iters := fld c.params 64 16 + 1 } →
    runOver s r = false →
    exec (.graphRun id) s = .next { readMarks s c {}
        ⟨.load, fld c.params 16 48, 16 * (getSlot s (graphPart s c) (fld c.params 0 8)).nargs⟩ with
      graphs := { s.graphs with runs := s.graphs.runs ++ [r] } }) ∧
  (∀ s id c, Started s id 0x0702 c →
    (s.graphs.runs.any (fun r => r.part == graphPart s c && r.slot == fld c.params 0 8) = false →
      ∃ m t, exec (.graphUnload id) s = .next t ∧ CmdBecomes m t id (c.done (now s) none []) ∧
        m = { s with graphs := { s.graphs with slots := m.graphs.slots } } ∧
        getSlot m (graphPart s c) (fld c.params 0 8) = {} ∧
        (∀ p k, slotKey p k ≠ slotKey (graphPart s c) (fld c.params 0 8) → getSlot m p k = getSlot s p k)) ∧
    (s.graphs.runs.any (fun r => r.part == graphPart s c && r.slot == fld c.params 0 8) = true →
      ∃ t, exec (.graphUnload id) s = .next t ∧
        CmdBecomes s t id (c.done (now s) (some (S_BAD_PARAM, paramOffset (hasSync c.packet) 0)) [])))

/-- O28. A node of a run starts when the run goes on, it is the turn of its iteration, its predecessors of that iteration
have completed, none of those still awaited lies on a dead module, and its berth's domains and resources are ready: it
is then a started command in flight, last of its context, at the present Tide, and the run counts it as started. A
node whose predecessors have not completed does not start and nothing changes; with an awaited predecessor on a dead
module the node ends and the run starts no further node. The status of a remote predecessor that has written its data
is recorded for its consumer, and only that changes; one that comes before its run waits for it. -/
def Obligations.GraphNodesStartAndHearEdges : Prop :=
  (∀ s id i j r c n m, id.node = some (i, j) → hasCtx s id.ctx = true → runOf s id = some r →
    findCmd s (ownerOf id) = some c → c.phase = .started → (getSlot s r.part r.slot).entries[i]? = some n →
    r.stopped = false → ownNode s n = true → j < r.iters → (tabGet {} r.nodes i).started = j →
    (tabGet {} r.nodes i).completed = j →
    (deadPred s r n j = none → predsDone s r n j = true → m = nodeCmd s c n i j → domainsReady s m.berth m = true →
      (isOptical m.opcode m.params = true → m.engines.any (engInService s m.berth) = true) → resourcesFree s m = true →
      ((overlapBad m.opcode m.params (collCount (ownPos s) m.params)).any (·.1) = false ∨
        argTDs (nOpcode n) (nParams n) = []) →
      findCmd s m.id = none →
      ∃ t d, exec (.graphNodeStart id) s = .next t ∧ findCmd t { id with ctx := c.id.ctx, seq := c.id.seq } = some d ∧
        d.phase = .started ∧ d.began = true ∧ d.tideStart = now s ∧ d.opcode = m.opcode ∧ d.params = m.params ∧
        (∃ r', runOf t id = some r' ∧ (tabGet {} r'.nodes i).started = j + 1) ∧ t.mem = s.mem) ∧
    (deadPred s r n j = none → predsDone s r n j = false → exec (.graphNodeStart id) s = .next s) ∧
    (deadPred s r n j ≠ none → ∃ t, exec (.graphNodeStart id) s = .next t ∧ ∀ x, runOf t id = some x → x.stopped = true)) ∧
  (∀ s id p st r i j n m, id.node = some (i, j) → hasCtx s id.ctx = true → runOf s id = some r →
    (getSlot s r.part r.slot).entries[i]? = some n → (getSlot s r.part r.slot).entries[p]? = some m →
    ownNode s n = true → ownNode s m = false → bitAt (nPred n) p = true → statusWritten st = true →
    ∃ t r', exec (.graphEdgeStatus id p st) s = .next t ∧ t = { s with graphs := { s.graphs with runs := t.graphs.runs } } ∧
      runOf t id = some r' ∧ (p, j, st) ∈ r'.remote) ∧
  (∀ s id p st n, hasCtx s id.ctx = true → id.node = some n → runOf s id = none →
    ∃ t, exec (.graphEdgeStatus id p st) s = .next t ∧ t = { s with graphs := { s.graphs with edges := t.graphs.edges } } ∧
      (id, p, st) ∈ t.graphs.edges)

/-- O29. A write of SQ_TAIL or CQ_HEAD through a page that is open to its path, on a READY module and an OPEN context:
SQ_TAIL is accepted when the new value minus F and minus the old value are at most S, CQ_HEAD when the new value minus
the old value is at most S and at most the completions written in sequence order minus the old value, all modulo 2^32;
exactly that half takes the value and nothing else changes. Otherwise the half keeps its value, the context counts a
rejection and fault event 0x0306 names it. Before READY, or on a context that is not OPEN, the write is ignored and
counted. On a page that is not open to the path nothing changes. An 8-byte read of the doorbell returns both halves. -/
def Obligations.DoorbellHalvesAcceptedOrRejected : Prop :=
  (∀ s path c v x, doorbellOpen s path c = true → s.rst.ready = true → x = getCtx s c → x.state = .opened →
    ((v - x.fetchCount).toNat ≤ 2 ^ x.log2S → (v - x.sqTail).toNat ≤ 2 ^ x.log2S →
      ∃ t, exec (.sqTail path c v) s = .next t ∧ CtxBecomes s t c { x with sqTail := v }) ∧
    ((2 ^ x.log2S < (v - x.fetchCount).toNat ∨ 2 ^ x.log2S < (v - x.sqTail).toNat) →
      ∃ m t, exec (.sqTail path c v) s = .next t ∧ CtxBecomes s m c { x with rejected := x.rejected + 1 } ∧
        Raises m t (fun e => e.code = 0x0306 ∧ e.site = c / 8 ∧ e.unit = c)) ∧
    ((v - x.cqHead).toNat ≤ 2 ^ x.log2S → (v - x.cqHead).toNat ≤ (x.inOrder - x.cqHead).toNat →
      ∃ t, exec (.cqHead path c v) s = .next t ∧ CtxBecomes s t c { x with cqHead := v }) ∧
    ((2 ^ x.log2S < (v - x.cqHead).toNat ∨ (x.inOrder - x.cqHead).toNat < (v - x.cqHead).toNat) →
      ∃ m t, exec (.cqHead path c v) s = .next t ∧ CtxBecomes s m c { x with rejected := x.rejected + 1 } ∧
        Raises m t (fun e => e.code = 0x0306 ∧ e.site = c / 8 ∧ e.unit = c))) ∧
  (∀ s path c v i, i ∈ [Instr.sqTail path c v, Instr.cqHead path c v] →
    (doorbellOpen s path c = true → s.rst.ready = false ∨ (getCtx s c).state ≠ .opened →
      ∃ t, exec i s = .next t ∧ CtxBecomes s t c { getCtx s c with ignored := (getCtx s c).ignored + 1 }) ∧
    (doorbellOpen s path c = false → exec i s = .next s)) ∧
  (∀ s c, hasCtx s c = true → s.ident.part ≤ 8 →
    mirrorWord s (doorbellOffset c) = (getCtx s c).sqTail.toNat + (getCtx s c).cqHead.toNat * 2 ^ 32)

/-- O30. On an OPEN context whose completion ring has room (Q - H < S) and whose tail is not F, with every slot of the
command readable and its NCONT continuations before SQ_TAIL: the command is taken, F rises by 1 + NCONT and Q by 1,
and it stands last in flight with sequence number Q, its packet bytes, the generation and Tide. One that fails a check
has finished with the status and DETAIL of the first failed check and both Tide times now; one that passes waits, its
timeout running from now or from TSTART_NS when that is later; besides only row buffers change. A command not wholly
submitted, a full ring, an empty ring or a context that is not OPEN changes nothing. While its header slot waits for a
sleeping stack, a move, a drain or an earlier request, the context waits and at most a domain is woken; a slot that
gets no answer is asked for by a request, and F stays. A header slot that cannot be read makes the context STOPPED,
with fault event 0x0308 naming the context and the address; a refusal for an old epoch is counted. Nothing else
changes. -/
def Obligations.CommandsAreFetched : Prop :=
  (∀ s c x n p, hasCtx s c = true → x = getCtx s c → x.state = .opened → (x.cmdCount - x.cqHead).toNat < 2 ^ x.log2S →
    x.sqTail ≠ x.fetchCount → n = hNcont (leNat (readSlot s (bitAt x.place 0) (sqSlot x x.fetchCount) 64)) →
    p = leNat ((List.range (n + 1)).flatMap
      (fun k => readSlot s (bitAt x.place 0) (sqSlot x (x.fetchCount + BitVec.ofNat 32 k)) 64)) →
    (slotWaits s c (bitAt x.place 0) (sqSlot x x.fetchCount) 64 = true →
      ∃ t, exec (.commandFetch c) s = .next t ∧ t = { s with domains := t.domains }) ∧
    (slotWaits s c (bitAt x.place 0) (sqSlot x x.fetchCount) 64 = false →
      slotOk s c (bitAt x.place 0) .load (sqSlot x x.fetchCount) 64 = false →
      slotSilent s (bitAt x.place 0) (sqSlot x x.fetchCount) = true →
      ∃ t, exec (.commandFetch c) s = .next t ∧ t.mem = s.mem ∧ (getCtx t c).fetchCount = x.fetchCount ∧
        (getCtx t c).flight = x.flight) ∧
    (slotWaits s c (bitAt x.place 0) (sqSlot x x.fetchCount) 64 = false → slotOk s c (bitAt x.place 0) .load (sqSlot x x.fetchCount) 64 = true → (x.sqTail - x.fetchCount).toNat < 1 + n →
      exec (.commandFetch c) s = .next s) ∧
    ((∀ k, k ≤ n → slotWaits s c (bitAt x.place 0) (sqSlot x (x.fetchCount + BitVec.ofNat 32 k)) 64 = false ∧
        slotOk s c (bitAt x.place 0) .load (sqSlot x (x.fetchCount + BitVec.ofNat 32 k)) 64 = true) →
      1 + n ≤ (x.sqTail - x.fetchCount).toNat →
      ∃ m t y d, exec (.commandFetch c) s = .next t ∧ t = { m with stackTab := t.stackTab } ∧
        (bitAt x.place 0 = true → t = m) ∧
        CtxBecomes s m c { x with
          fetchCount := x.fetchCount + BitVec.ofNat 32 (1 + n)
          cmdCount := x.cmdCount + 1
          flight := y } ∧
        y.length = x.flight.length + 1 ∧ y.getLast? = some d ∧ d.id = { ctx := c, seq := x.cmdCount.toNat } ∧
        d.packet = p ∧ d.opcode = hOpcode p ∧ d.gen = x.gen ∧ d.fetched = now s ∧
        (∀ e, checkCommand s (askedRing s c x.cmdCount.toNat p) = some e →
          d.phase = .finished ∧ d.status = e.1 ∧ d.detail = e.2 ∧ d.tideStart = now s ∧ d.tideEnd = now s) ∧
        (checkCommand s (askedRing s c x.cmdCount.toNat p) = none → d.phase = .waiting ∧
          d.deadline = max (now s) (if hTstart p then hTstartNs p else 0) + timeoutNs (hTimeout p))) ∧
    (slotWaits s c (bitAt x.place 0) (sqSlot x x.fetchCount) 64 = false →
      slotOk s c (bitAt x.place 0) .load (sqSlot x x.fetchCount) 64 = false →
      slotSilent s (bitAt x.place 0) (sqSlot x x.fetchCount) = false →
      ∃ u m t, exec (.commandFetch c) s = .next t ∧ u = { s with sites := u.sites } ∧ (bitAt x.place 0 = true → u = s) ∧
        CtxBecomes u m c { x with state := .stopped } ∧
        Raises m t (fun e => e.code = 0x0308 ∧ e.unit = c ∧ e.arg = sqSlot x x.fetchCount))) ∧
  (∀ s c x, hasCtx s c = true → x = getCtx s c →
    (x.state ≠ .opened ∨ 2 ^ x.log2S ≤ (x.cmdCount - x.cqHead).toNat ∨ x.sqTail = x.fetchCount) →
    exec (.commandFetch c) s = .next s)

/-- O31. A waiting command of a ring starts when no earlier command of its context holds it, fewer than 64 are started,
its dependencies hold and Tide has reached TSTART_NS, its domains are on, its dispatch resources are free and, if it
is optical, an engine of its set is in service: it is then started, TIDE_START is now, a new timeout of the same code
runs, and it has its place in the rotation of each of its engines; every other context, memory and everything else but
engine rotations is unchanged. While a dependency does not hold, Tide has not reached TSTART_NS, an earlier command
holds it, or 64 are started, it does not start and nothing changes. A command whose id is not in flight, or that has
started, changes nothing. -/
def Obligations.CommandsStartInOrder : Prop :=
  (∀ s id c x, hasCtx s id.ctx = true → x = getCtx s id.ctx → findCmd s id = some c → id.node = none →
    c.phase = .waiting →
    (heldByEarlier x id = false → startedCount x < 64 →
      (hDep0 c.packet = true → hDep0Value c.packet ≤ (getCounter s c.berth (hDep0Idx c.packet)).toNat) →
      (hDep1 c.packet = true → hDep1Value c.packet ≤ (getCounter s c.berth (hDep1Idx c.packet)).toNat) →
      (hTstart c.packet = true → hTstartNs c.packet ≤ now s) →
      domainsReady s c.berth c = true → resourcesFree s c = true →
      (isOptical c.opcode c.params = true → c.engines.any (engInService s c.berth) = true) →
      ∃ t d, exec (.commandStart id) s = .next t ∧ t = { s with ctxs := t.ctxs, engines := t.engines } ∧
        (∀ k, k ≠ id.ctx → getCtx t k = getCtx s k) ∧ findCmd t id = some d ∧ d.phase = .started ∧ d.began = true ∧
        d.tideStart = now s ∧ d.deadline = now s + timeoutNs (hTimeout c.packet) ∧
        (∀ e ∈ c.engines, id ∈ (getEngine t c.berth e).rotationList)) ∧
    ((heldByEarlier x id = true ∨ 64 ≤ startedCount x ∨
      (hDep0 c.packet = true ∧ (getCounter s c.berth (hDep0Idx c.packet)).toNat < hDep0Value c.packet) ∨
      (hDep1 c.packet = true ∧ (getCounter s c.berth (hDep1Idx c.packet)).toNat < hDep1Value c.packet) ∨
      (hTstart c.packet = true ∧ now s < hTstartNs c.packet)) → exec (.commandStart id) s = .next s)) ∧
  (∀ s id, hasCtx s id.ctx = true → (∀ c, findCmd s id = some c → c.phase ≠ .waiting) →
    exec (.commandStart id) s = .next s)

/-- O32. At its timeout a mailbox request that Blunen has not begun is ready to be answered S_TIMEOUT. A waiting command
of a ring that cannot start at this evaluation ends with S_TIMEOUT; a one at work that no management request holds,
started or with requests still open, is stopped: nothing more is issued, blocks not yet run are cancelled, its status
has at least the rank of S_TIMEOUT, and with no acknowledged chunk of a Tug left to count memory and messages are
unchanged; a GRAPH_RUN with no node in flight ends its run. Before the time nothing changes. A stop unfinished 1 ms
after it began escalates: with a sequencer that does not answer the context is CLOSED with its generation one higher
and nothing in flight; with an engine that does not answer that engine is in reset, its run cleared; each raises fault
event 0x0403 with its rung and leaves memory unchanged. -/
def Obligations.TimeoutsStopCommands : Prop :=
  (∀ s fn m, hasFn fn = true → m = getMbx s fn → m.pending = true → m.accepted = true → m.result = none → m.journal = 0 →
    (m.submitted + timeoutNs (hTimeout m.req) ≤ now s → ∃ t, exec (.commandTimeout (.mailbox fn)) s = .next t ∧
      MbxBecomes s t fn { m with result := some ⟨S_TIMEOUT, 0, []⟩, journal := 2 }) ∧
    (now s < m.submitted + timeoutNs (hTimeout m.req) → exec (.commandTimeout (.mailbox fn)) s = .next s)) ∧
  (∀ s id c, hasCtx s id.ctx = true → findCmd s id = some c → id.node = none → c.blockedAt = none →
    (c.phase = .waiting → c.deadline ≤ now s → startsNow s c = false →
      ∃ t, exec (.commandTimeout (.ring id)) s = .next t ∧ t = { s with ctxs := t.ctxs } ∧
        (∀ k, k ≠ id.ctx → getCtx t k = getCtx s k) ∧
        findCmd t id = some { c with
          phase := .finished
          status := S_TIMEOUT
          detail := 0
          tideStart := now s
          tideEnd := now s }) ∧
    ((c.phase = .started ∧ c.served = false ∨ c.phase = .finished ∧ c.began = true ∧ requestsOpen s id = true) →
      runOf s id = none → c.deadline ≤ now s →
      (∀ m ∈ (getCtx s id.ctx).flight, ownerOf m.id = id → m.tug.begun.any (chunkAcked s m) = false) →
      ∃ t d, exec (.commandTimeout (.ring id)) s = .next t ∧ findCmd t id = some d ∧ d.phase = .stopping ∧
        d.opt.todo = [] ∧ d.tug.stopped = true ∧ statusRank S_TIMEOUT ≤ statusRank d.status ∧ t.mem = s.mem ∧
        t.sent = s.sent ∧ t.engines = s.engines ∧ (∀ k, k ≠ id.ctx → getCtx t k = getCtx s k)) ∧
    (∀ r, c.phase = .started → c.served = false → runOf s id = some r → r.id = id → nodesInFlight s id = false →
      c.deadline ≤ now s → (∀ m ∈ (getCtx s id.ctx).flight, ownerOf m.id = id → m.tug.begun.any (chunkAcked s m) = false) →
      ∃ t d, exec (.commandTimeout (.ring id)) s = .next t ∧ findCmd t id = some d ∧ d.phase = .finished ∧
        statusRank S_TIMEOUT ≤ statusRank d.status ∧ t.mem = s.mem ∧ (∀ x ∈ t.graphs.runs, x.id ≠ id)) ∧
    (now s < c.deadline → exec (.commandTimeout (.ring id)) s = .next s)) ∧
  (∀ s id c, hasCtx s id.ctx = true → findCmd s id = some c → c.phase = .stopping →
    (c.stopTide + 1000000 ≤ now s →
      (∃ t e, exec (.stopEscalation id .sequencer) s = .next t ∧ (getCtx t id.ctx).state = .closed ∧
        (getCtx t id.ctx).gen = (getCtx s id.ctx).gen + 1 ∧ (getCtx t id.ctx).flight = [] ∧ t.mem = s.mem ∧
        t.faults.unlogged = s.faults.unlogged ++ [e] ∧ e.code = 0x0403 ∧ e.unit = 1) ∧
      (∀ g, hasEngine s c.berth g = true → c.engines.contains g = true →
        ∃ t e, exec (.stopEscalation id (.engine c.berth g)) s = .next t ∧ (getEngine t c.berth g).resetting = true ∧
          (getEngine t c.berth g).run = none ∧ t.mem = s.mem ∧ t.faults.unlogged = s.faults.unlogged ++ [e] ∧
          e.code = 0x0403 ∧ e.unit = 2)) ∧
    (now s < c.stopTide + 1000000 → exec (.stopEscalation id .sequencer) s = .next s))

/-- O33. A mailbox request with its outcome is answered: PENDING clears, REPLY_VALID sets, the reply shows the TAG of the
GO write, the status, DETAIL and the data padded to 40 bytes, and the interrupt asked for is sent. A finished command
of a ring with no node in flight whose requests are all answered and whose slot waits for nothing, without a Tally
record or staged results: its 32-byte completion entry stands in slot q mod S of its completion ring and memory
changes nowhere else; with staged results that wait for nothing they are stored first, with what their stores meet,
and the entry after them; the counter of DONE_INC rises by 1 when the status is S_OK, S_OK_FLAGGED, S_BUDGET or
S_DEGRADED; the command is no longer in flight. When that slot cannot be written, an OPEN context becomes STOPPED and
memory is unchanged. A command with a request still open does not complete: nothing changes. -/
def Obligations.CompletionsAreWritten : Prop :=
  (∀ s fn m r, hasFn fn = true → m = getMbx s fn → m.result = some r → m.pending = true →
    ∃ u, exec (.commandCompletion (.mailbox fn)) s =
        .next (if m.goIrq = true ∧ m.goVector < vectorCount fn then msix u fn m.goVector else u) ∧
      MbxBecomes s u fn { m with
        pending := false
        replyValid := true
        replyTag := m.goTag
        detail := r.detail
        status := r.status
        data := r.data ++ List.replicate (40 - r.data.length) 0#8
        accepted := false
        result := none
        journal := 0 }) ∧
  (∀ s id c x d, hasCtx s id.ctx = true → findCmd s id = some c → id.node = none → c.phase = .finished →
    x = getCtx s id.ctx → d = completed s c →
    (requestsOpen s id = true → exec (.commandCompletion (.ring id)) s = .next s) ∧
    (requestsOpen s id = false → nodesInFlight s id = false → c.results = [] → writesTally c.tally = false →
      c.slotLost = false → c.tug.begun.any (chunkAcked s c) = false → entryWaits s d = false →
      (∀ w, slotOk (dropCmd s d) id.ctx (bitAt x.place 1) .store (cqSlot x id.seq) 32 = true →
        w = writeSlot (dropCmd s d) (bitAt x.place 1) (cqSlot x id.seq) (bytesLE 32 (completionEntry d (2 ^ x.log2S))) →
        ∃ t, exec (.commandCompletion (.ring id)) s = .next t ∧ findCmd t id = none ∧
          t.mem.cells = w.mem.cells ∧ t.mem.host = w.mem.host ∧
          (∀ b i, getCounter t b i = getCounter w b i + (if hDoneInc c.packet = true ∧
            d.status ∈ [S_OK, S_OK_FLAGGED, S_BUDGET, S_DEGRADED] ∧
            counterKey b i = counterKey c.berth (hDoneCnt c.packet) then 1 else 0))) ∧
      (slotOk (dropCmd s d) id.ctx (bitAt x.place 1) .store (cqSlot x id.seq) 32 = false → x.state = .opened →
        ∃ t, exec (.commandCompletion (.ring id)) s = .next t ∧ findCmd t id = none ∧
          (getCtx t id.ctx).state = .stopped ∧ t.mem = s.mem)) ∧
    (∀ u e w, requestsOpen s id = false → nodesInFlight s id = false → c.results ≠ [] →
      c.tug.begun.any (chunkAcked s c) = false → Reachable s c (resultStores c) → u = storeResults s c →
      findCmd u id = some e → requestsOpen u id = false → e.tug.begun.any (chunkAcked u e) = false →
      writesTally e.tally = false → e.slotLost = false → entryWaits u (completed u e) = false →
      slotOk (dropCmd u (completed u e)) id.ctx (bitAt x.place 1) .store (cqSlot x id.seq) 32 = true →
      w = writeSlot (dropCmd u (completed u e)) (bitAt x.place 1) (cqSlot x id.seq)
        (bytesLE 32 (completionEntry (completed u e) (2 ^ x.log2S))) →
      ∃ t, exec (.commandCompletion (.ring id)) s = .next t ∧ findCmd t id = none ∧ t.mem.cells = w.mem.cells ∧
        t.mem.host = w.mem.host))

/-- O34. A new request of Table 10-6 from a running source is tracked with its Tide of issue, stamped with the generation
of its context, the epoch that the table of its source holds for the destination and the priority of Table 05-4, its
TAG one that no answer can still come for; it is marked as delayed when its way is delayed at that moment; it goes out
at once when nothing holds it (to another module as a message, in a frame of the link it leaves by), waking the lanes
of its pair direction, and is held otherwise, nothing else changing. The 65th atomic of a context that has 64
outstanding is held. One whose destination is held dead, or to which its source has no path, is never sent: its
command takes the status, and nothing else changes. A request already outstanding and not held changes nothing. -/
def Obligations.RequestsAreIssued : Prop :=
  (∀ s r dst o, (∀ x ∈ s.reqs.out, x.req.tag ≠ r.tag) → sourceRuns s r = true → admitted s r = true → tagTaken s r.tag = false →
    dst = destSite s r.addr →
    o = ({ req := { r with
             gen := (match reqCtx r with
               | some c => (getCtx s c).gen
               | none => 0)
             epoch := tableEpoch s (addrPos r.addr) dst
             pri := reqPri s r
             swell := r.swell && addrPos r.addr != ownPos s && (decide (r.ch = .req) || decide (r.ch = .bulk)) }
           dstPos := addrPos r.addr
           dstSite := dst
           issued := now s
           delayed := pathSlow s r.srcSite (if addrPos r.addr = ownPos s then dst else quayTo s (addrPos r.addr)) ||
             isMoving s r || isDrained s (addrPos r.addr) || linkWaits s (addrPos r.addr) } : OutReq) →
    (issueMeets s r dst = none →
      (mustHold s o = false → ∃ t, exec (.requestIssue r) s = .next t ∧ t = { s with
          reqs := { s.reqs with out := s.reqs.out ++ [o] }
          sent := if addrPos r.addr = ownPos s then s.sent else s.sent ++ [.request (addrPos r.addr) o.req]
          pairs := t.pairs
          harbour := { s.harbour with links := t.harbour.links } } ∧
        (∀ k, addrPos r.addr = ownPos s ∨ k ≠ linkTo s (firstHop s (addrPos r.addr)) → getLink t k = getLink s k) ∧
        (∀ a b, fabricPair r.srcSite (if addrPos r.addr = ownPos s then dst else quayTo s (addrPos r.addr)) = some (a, b) →
          getPair t a b = { getPair s a b with asleep := false, lastPacket := now s }) ∧
        ((fabricPair r.srcSite (if addrPos r.addr = ownPos s then dst else quayTo s (addrPos r.addr))) = none →
          t.pairs = s.pairs)) ∧
      (mustHold s o = true → exec (.requestIssue r) s = .next { s with
        reqs := { s.reqs with out := s.reqs.out ++ [{ o with held := true }] } }) ∧
      (∀ c, r.kind = .atomic → reqCtx r = some c →
        64 ≤ (s.reqs.out.filter (fun x => !x.held && decide (x.req.kind = .atomic) && reqCtx x.req == some c)).length →
        mustHold s o = true)) ∧
    (∀ e id c, issueMeets s r dst = some e → r.srcCtx = some id → findCmd s id = some c →
      ∃ t, exec (.requestIssue r) s = .next t ∧ CmdBecomes s t id { c.note e.1 e.2 with tideEnd := now s })) ∧
  (∀ s r o, s.reqs.out.find? (fun x => x.req.tag == r.tag) = some o → o.held = false →
    exec (.requestIssue r) s = .next s)

/-- O35. A request of an own or admitted source for a place of this READY module that answers, whose turn it is, with the
current role epoch, no poison in its way and a clean array: a LOAD is answered S_OK with its bytes and changes neither
memory nor anything but message, row buffers, waiting requests and lane sleep; a STORE to DRAM or a tile changes
exactly the bytes whose MASK bit is set and is acknowledged; a STORE to a counter writes exactly that counter; an
ATOMIC returns the old value and writes the new one of Table 10-7 to exactly its bytes, or its counter. A request with
a stale epoch is not performed: memory is unchanged, the event is counted at the site, and the answer is S_STALE_ROLE
with the error value. Every answer echoes the mark and has the priority of its request. One whose turn has not come
waits: nothing is answered and memory is unchanged. While requests for rows of a stack wait on both its inputs, one
for another row than the last waits from the near lanes after two rows of them, and from the fabric port before. -/
def Obligations.RequestsAreServed : Prop :=
  (∀ (s : State) (r : WireReq) (o : ServeObs) (i : Instr) (loc k : Nat),
    (r.kind = .load ∧ i = .load r o ∨ r.kind = .store ∧ i = .store r o ∨ r.kind = .atomic ∧ i = .atomic r o) →
    r.bar2 = none → addrPos r.addr = ownPos s → s.rst.ready = true → admitted s r = true → dropsAddition s r = false →
    loc = addrLocal r.addr → k = servingSite s loc → accessStatus s (reqAccess r.kind) loc = none →
    (waitsAtTarget s r = true ∨ outOfOrder s r = true ∨ yields s r = true →
      ∃ t, exec i s = .next t ∧ t.mem = s.mem ∧ t.sent = s.sent ∧ (k, r) ∈ t.reqs.ingress) ∧
    (waitsAtTarget s r = false → outOfOrder s r = false → yields s r = false → (r.srcPos = ownPos s ∨ ingressAdmits s r = true) →
    (r.epoch ≠ (getSite s k).epoch →
      ∃ t, exec i s = .next t ∧ t.mem = s.mem ∧ (getSite t k).stale = (getSite s k).stale + 1 ∧
        t.sent = s.sent ++ [.response ⟨wireTag r.tag, r.gen, S_STALE_ROLE, swelled r o, errorValue r, r.srcPos, r.srcSite, r.pri⟩]) ∧
    (r.epoch = (getSite s k).epoch → o.wrong = 0 →
      (r.kind = .store → maskPoison s r = false) → (r.kind ≠ .store → poisonMet s (reqAccess r.kind) loc r.size = false) →
      ∃ t, exec i s = .next t ∧ t.mem.host = s.mem.host ∧
        t.sent = s.sent ++ [.response ⟨wireTag r.tag, r.gen, S_OK, swelled r o,
          if r.kind = .store then [] else placeBytes s r.addr r.size, r.srcPos, r.srcSite, r.pri⟩] ∧
        ((∀ off, placeOf s.ident.part loc ≠ .mirror off) → t.faults = s.faults ∧ t.sites = s.sites ∧ t.ctxs = s.ctxs) ∧
        (r.kind = .load → t.mem = s.mem) ∧
        (r.kind = .store → (∃ b, placeOf s.ident.part loc = .dram b) ∨ (∃ b v f, placeOf s.ident.part loc = .tile b v f) →
          t.mem.counters = s.mem.counters ∧
          (∀ a, readByte t a = if loc ≤ a ∧ a < loc + 64 ∧ r.mask.getLsbD (a - loc) = true then r.data.getD (a - loc) 0
            else readByte s a)) ∧
        (∀ g b j c d, r.kind = .store → placeOf s.ident.part loc = .counter c d → maskGroup r.mask = some (g, 8) →
          placeOf s.ident.part (loc + g) = .counter b j →
          t.mem.cells = s.mem.cells ∧ getCounter t b j = BitVec.ofNat 64 (leNat (sliceBytes r.data g 8)) ∧
          (∀ b' j', counterKey b' j' ≠ counterKey b j → getCounter t b' j' = getCounter s b' j')) ∧
        (∀ v, r.kind = .atomic → v = atomicNew r.aop r.size (leNat (placeBytes s r.addr r.size)) r.opP.toNat r.opQ.toNat →
          (∀ b j, placeOf s.ident.part loc = .counter b j → t.mem.cells = s.mem.cells ∧
            getCounter t b j = BitVec.ofNat 64 v ∧
            (∀ b' j', counterKey b' j' ≠ counterKey b j → getCounter t b' j' = getCounter s b' j')) ∧
          ((∀ b j, placeOf s.ident.part loc ≠ .counter b j) → t.mem.counters = s.mem.counters ∧
            (∀ a, readByte t a = if loc ≤ a ∧ a < loc + r.size then (bytesLE r.size v).getD (a - loc) 0
              else readByte s a)))))) ∧
  (∀ (s : State) (r : WireReq) (b : Nat), placeOf s.ident.part (addrLocal r.addr) = .dram b → inputWaits s r = true →
    (getStack s (servingStack s (addrLocal r.addr))).lastRow ≠ some (rowOf s r) →
    (nearInput s r = true → 2 ≤ (getStack s (servingStack s (addrLocal r.addr))).nearRun → yields s r = true) ∧
    (nearInput s r = false → (getStack s (servingStack s (addrLocal r.addr))).nearRun < 2 → yields s r = true))

/-- O36. A response whose turn has not come waits, and nothing else changes: an answer to an earlier request of the same
pair of endpoints and channel is outstanding. One that matches no outstanding request is dropped and counted, and its
TAG is free again. One whose generation is not its context's is dropped, counted by the module and by the context, and
its request is no longer outstanding. One with S_OK for a request of the current generation that was not delayed ends
exactly that request, moves its flow on and dates the end of its command, and what a Tug's read brings stands at its
berth for the write; for one that was delayed past its maximum the command takes S_DEGRADED with DETAIL 4, and fault
event 0x0406 names guarantee 4 when the command had met nothing else (that this is once for each command is log entry
76). The window of a flow halves, to 64 bytes at least, on the first ECHO to a request issued after the last decrease;
other echoes leave it; without ECHO it grows by 4 KiB to at most 512 KiB once a window has been acknowledged. A flow
with nothing outstanding for 50 us is forgotten and starts again with 32 KiB. -/
def Obligations.ResponsesAndWindows : Prop :=
  (∀ s r, waitsTurn s r = true →
    exec (.response r) s = .next { s with reqs := { s.reqs with early := s.reqs.early ++ [r] } }) ∧
  (∀ s r, (∀ o ∈ s.reqs.out, o.held = false → wireTag o.req.tag ≠ r.tag) → s.reqs.early = [] →
    exec (.response r) s = .next { s with reqs := { s.reqs with
      dropped := s.reqs.dropped + 1
      spent := s.reqs.spent.filter (· != r.tag) } }) ∧
  (∀ s r o c, s.reqs.out.find? (answersReq r) = some o → reqCtx o.req = some c → answerEarly s o = false →
    s.reqs.early = [] →
    (r.gen ≠ (getCtx s c).gen → ∃ t, exec (.response r) s = .next t ∧
      t = { s with
        reqs := { s.reqs with
          out := s.reqs.out.filter (fun x => x.req.tag != o.req.tag)
          dropped := s.reqs.dropped + 1
          flows := t.reqs.flows }
        ctxs := t.ctxs } ∧
      (getCtx t c).droppedOld = (getCtx s c).droppedOld + 1 ∧ (∀ k, k ≠ c → getCtx t k = getCtx s k)) ∧
    (r.gen = (getCtx s c).gen → r.status = S_OK → o.delayed = false →
      ∃ t, exec (.response r) s = .next t ∧
        t = { s with
          reqs := { s.reqs with out := s.reqs.out.filter (fun x => x.req.tag != o.req.tag), flows := t.reqs.flows }
          ctxs := t.ctxs } ∧
        (∀ id d, o.req.srcCtx = some id → findCmd s id = some d →
          ∃ e, findCmd t id = some e ∧ e.status = (d.note S_OK 0).status ∧ e.detail = (d.note S_OK 0).detail ∧
            e.tideEnd = now s ∧
            (∀ k p, o.chunk = some k → o.off = some p → e.tug.data = d.tug.data ++
              (List.range o.req.size).map (fun i => (k, p + i, r.data.getD i 0xFF#8))))) ∧
    (r.gen = (getCtx s c).gen → r.status = S_OK → o.delayed = true → o.issued + latencyMax s o < now s →
      ∀ id d, o.req.srcCtx = some id → findCmd s id = some d →
      ∃ t, exec (.response r) s = .next t ∧ t.reqs.out = s.reqs.out.filter (fun x => x.req.tag != o.req.tag) ∧ t.mem = s.mem ∧
        (∃ e, findCmd t id = some e ∧ e.status = (d.note S_DEGRADED 4).status ∧ e.detail = (d.note S_DEGRADED 4).detail ∧
          e.tideEnd = now s) ∧
        (d.status = S_OK → ∃ e, t.faults.unlogged = s.faults.unlogged ++ [e] ∧ e.code = 0x0406 ∧ e.outcome = 6 ∧
          e.guarantee = 4 ∧ e.arg = 1) ∧
        (d.status ≠ S_OK → t.faults = s.faults))) ∧
  (∀ (f : Flow) (tag : Nat) (others : List Nat) (t : Nat),
    (f.oldOutstanding.contains tag = false → (f.acknowledge tag true others t).window = max (f.window / 2) 64 ∧
      (f.acknowledge tag true others t).oldOutstanding = others) ∧
    (f.oldOutstanding.contains tag = true → (f.acknowledge tag true others t).window = f.window) ∧
    (f.window ≤ f.acked + 64 → (f.acknowledge tag false others t).window = min (f.window + 4096) 524288) ∧
    (f.acked + 64 < f.window → (f.acknowledge tag false others t).window = f.window ∧
      (f.acknowledge tag false others t).acked = f.acked + 64)) ∧
  (∀ s f, (flowLoad s f = 0 → (getFlow s f).lastBusy + 50000 ≤ now s →
      ∃ l, exec (.flowIdleExpiry f) s = .next { s with reqs := { s.reqs with flows := l } } ∧
        (getFlow { s with reqs := { s.reqs with flows := l } } f).window = 32768 ∧
        (∀ g, g ≠ f → getFlow { s with reqs := { s.reqs with flows := l } } g = getFlow s g)) ∧
    ((flowLoad s f ≠ 0 ∨ now s < (getFlow s f).lastBusy + 50000) → exec (.flowIdleExpiry f) s = .next s))

/-- O37. A request whose age has reached its bound (250 us on the own module, 2 ms on another) is ended by its source: it
is no longer outstanding, fault event 0x0307 names its target, a live own target is being probed, and its command has
at least the rank of S_TARGET_DEAD; its TAG is not given out again while an answer may still come; before its bound
nothing changes. A site that answers its probe stays live, a transient is counted and event 0x0301 has OUTCOME 1 and
ARG its epoch; one that does not is declared dead with OUTCOME 0, the harbour is told, and for a berth of a partition
the partition reset begins with the cause of the ladder. An epoch update puts the epoch into the table; an own site
takes it, another member's PART that comes with it is learned, and every other table entry stays. That a changed epoch
of another module's site makes it live again is log entry 30. -/
def Obligations.DeadTargetsAndProbes : Prop :=
  (∀ s tag o, s.reqs.out.find? (fun o => o.req.tag == tag) = some o →
    (o.issued + (if o.dstPos = ownPos s then 250000 else 2000000) ≤ now s →
      ∃ t e, exec (.requestDeadBound tag) s = .next t ∧ (∀ x ∈ t.reqs.out, x.req.tag ≠ tag) ∧ t.mem = s.mem ∧
        (∃ l, t.faults.unlogged = s.faults.unlogged ++ l ++ [e] ∧ (s.reqs.early = [] → o.slot = none → l = [])) ∧
        (s.reqs.early = [] → o.held = false → wireTag o.req.tag ∈ t.reqs.spent) ∧ e.code = 0x0307 ∧
        e.site = o.dstSite ∧ e.pos = o.dstPos ∧ e.outcome = 0 ∧
        (o.dstPos = ownPos s → (getSite s o.dstSite).dead = false → (getSite t o.dstSite).probing = true) ∧
        (∀ id c, o.req.srcCtx = some id → findCmd s id = some c →
          ∃ d, findCmd t id = some d ∧ statusRank S_TARGET_DEAD ≤ statusRank d.status)) ∧
    (now s < o.issued + (if o.dstPos = ownPos s then 250000 else 2000000) →
      exec (.requestDeadBound tag) s = .next s)) ∧
  (∀ s k x, hasSite s k = true → x = getSite s k → x.probing = true →
    (∃ m t, exec (.probeAnswer k) s = .next t ∧
      SiteBecomes s m k { x with probing := false, transients := x.transients + 1 } ∧
      Raises m t (fun e => e.code = 0x0301 ∧ e.outcome = 1 ∧ e.site = k ∧ e.arg = x.epoch.toNat)) ∧
    ((∀ b, siteKind k ≠ .berth b) → ∃ m u, exec (.probeTimeout k) s =
        .next { u with sent := u.sent ++ [.dead (ownPos s) (some k)] } ∧
      SiteBecomes s m k { x with probing := false, dead := true } ∧
      Raises m u (fun e => e.code = 0x0301 ∧ e.outcome = 0 ∧ e.site = k ∧ e.arg = x.epoch.toNat)) ∧
    (∀ b p, siteKind k = .berth b → berthPart s b = some p → s.rst.ready = true → (getBerth s b).hold = false →
      (getPart s p).resetting = false → ∃ t, exec (.probeTimeout k) s = .next t ∧ (getSite t k).dead = true ∧
        (getPart t p).resetting = true ∧ (getPart t p).cause = 2)) ∧
  (∀ s k, hasSite s k = true → (getSite s k).probing = false →
    exec (.probeAnswer k) s = .next s ∧ exec (.probeTimeout k) s = .next s) ∧
  (∀ s p k (e : EpochSeen), ∃ t, exec (.epochTableUpdate p k e) s = .next t ∧
    t = { s with sites := t.sites, mbx := t.mbx, harbour := { s.harbour with
      epochs := t.harbour.epochs, deadSites := t.harbour.deadSites, memberTab := t.harbour.memberTab } } ∧
    (p ≠ ownPos s ∨ (getSite s k).replyTo = none → t.mbx = s.mbx) ∧ tableEpoch t p k = e.epoch ∧
    (∀ q j, epochKey s q j ≠ epochKey s p k → tableEpoch t q j = tableEpoch s q j) ∧
    (p = ownPos s → (getSite t k).epoch = e.epoch) ∧
    (p ≠ ownPos s → (getMember t p).part = e.part.getD (getMember s p).part) ∧
    (p ≠ ownPos s → e.epoch ≠ tableEpoch s p k → (getMember t p).dead = false ∧
      tabGet false t.harbour.deadSites (p * 64 + k) = false))

/-- O38. On an engine in rotation whose domain is on and that is not in its guard: with no block running or loaded, the
bank load of the first block of a command there makes it the active bank and its windows start at vector 0, run 1; any
other block goes to the idle bank and waits for the switch, as it does while a block runs. Waiting moves of lines and
rows take effect with the load and the command goes to the end of the rotation. A bank switch happens only when the
last window of the block has ended, no block waits for its last outputs and the idle bank is loaded: that bank is then
active, the other empty, the guard is in progress, the block that ended waits for its last outputs, waiting tables are
in effect with a fresh calibration for the lines of both Lighthouses, waiting lines are renormalised, and a wanted
pause begins while one in force goes on. The end of the guard starts the windows of the block in the active bank, with
waiting heater codes in effect, unless its checksum row waits for a spare: then the banks are unloaded. Otherwise
nothing changes; nothing but the engine changes. -/
def Obligations.BanksLoadAndSwitch : Prop :=
  (∀ s b e x c k, hasEngine s b e = true → x = getEngine s b e → engineWorks s b e = true → x.guard = false →
    nextBlock s b e = some (c, k) →
    (x.run = none → x.active.loaded = false → x.idle.loaded = false → firstBlock x e c = true → x.paused = false →
      x.lhSwitching = false → ∃ t y r, exec (.bankLoadDone b e) s = .next t ∧ EngineBecomes s t b e y ∧
        y.active = loadBank (seenFrom s b) c k ∧ y.linePend = [] ∧ y.rowPend = [] ∧
        y.rotationList = x.rotationList.filter (fun i => decide (i ≠ c.id)) ++ [c.id] ∧
        y.run = some r ∧ r.id = c.id ∧ r.block = k ∧ r.next = 0 ∧ r.number = 1 ∧ r.live = true ∧
        r.count = blockVectors s c.id k) ∧
    (x.run = none → x.active.loaded = false → x.idle.loaded = false → firstBlock x e c = false →
      ∃ t y, exec (.bankLoadDone b e) s = .next t ∧ EngineBecomes s t b e y ∧
        y.idle = loadBank (seenFrom s b) c k ∧ y.active = x.active ∧ y.run = none) ∧
    (∀ r, x.run = some r → r.live = true → x.active.loaded = true → x.idle.loaded = false →
      ∃ t y, exec (.bankLoadDone b e) s = .next t ∧ EngineBecomes s t b e y ∧
        y.idle = loadBank (seenFrom s b) c k ∧ y.active = x.active ∧ y.run = x.run ∧ y.linePend = [] ∧ y.rowPend = [])) ∧
  (∀ s b e x, hasEngine s b e = true → x = getEngine s b e →
    (engineWorks s b e = true → x.guard = false → x.lhSwitching = false → x.finishing = none → x.atEnd = true →
      x.idle.loaded = true → nextTest s (.engine b e) = none →
      ∃ t y, exec (.bankSwitch b e) s = .next t ∧ EngineBecomes s t b e y ∧ y.active = x.idle ∧ y.idle = {} ∧
        y.guard = true ∧ y.finishing = x.run ∧ y.run = none ∧ y.paused = (x.paused || x.pauseWanted) ∧ y.pauseWanted = false ∧
        y.tapOff = [] ∧ y.newTables = none ∧
        (∀ m, x.newTables = some m → y.tables = m ∧ y.calTemp = x.temp ∧ y.calTide = now s ∧ y.stale = false ∧ y.lineNorm = [] ∧
          y.standbyNorm = []) ∧
        (x.newTables = none → y.tables = x.tables ∧ y.calTemp = x.calTemp ∧ y.lineNorm = x.renormalise.lineNorm)) ∧
    (x.idle.loaded = false ∨ x.atEnd = false ∨ x.guard = true ∨ x.finishing.isSome = true → exec (.bankSwitch b e) s = .next s)) ∧
  (∀ s b e x, hasEngine s b e = true → x = getEngine s b e →
    (∀ id k, x.guard = true → engineWorks s b e = true → x.paused = false → x.lhSwitching = false → x.run = none →
      x.active.loaded = true → x.active.block = some (id, k) → wantsBlock s e id k = true →
      x.rowPend.any (fun p => p.1 == 128) = false → ∃ t r, exec (.guardEnd b e) s = .next t ∧ EngineBecomes s t b e { x.applyHeat with guard := false, run := some r } ∧
        r.id = id ∧ r.block = k ∧ r.next = 0 ∧ r.number = 1 ∧ r.live = true) ∧
    (x.guard = true → x.run = none → x.rowPend.any (fun p => p.1 == 128) = true →
      ∃ t, exec (.guardEnd b e) s = .next t ∧ EngineBecomes s t b e { x with guard := false, bankA := {}, bankB := {} }) ∧
    (x.guard = false → exec (.guardEnd b e) s = .next s))

/-- O39. Nothing happens in a run whose windows have not started. A window that could not be fed, one while the crossings
of the region are held, and one that the berth's throttle leaves out are idle and count, and waiting heater codes take
effect. A Lighthouse fault in a window is that fault and nothing else. Any other window of a block its command still
wants that matches its checksum puts its output on its way, moves the run to the next vector and counts one window. A
first mismatch counts a window, a mismatch and a repeat and sets the run back to vector 0 as run 2, raising no event;
the second raises fault event 0x0201 and takes the engine out of rotation for its test; one after that takes it out of
service with reason 8. An output with an old tag is dropped and counted and nothing else changes; one of the block
being run stages its partial products for the live rows without touching the accumulators; with the last output of a
block the block is committed with the sigma^2 of its run. Memory never changes. -/
def Obligations.WindowsAreCheckedAndCommitted : Prop :=
  (∀ s b e rows check x r, hasEngine s b e = true → x = getEngine s b e → x.run = some r → engineWorks s b e = true →
    x.guard = false → x.lhSwitching = false → r.ended = false → x.active.loaded = true →
    (r.live = false → ∀ seen, exec (.integrationWindowEnd b e rows check seen) s = .next s) ∧
    (∀ fed, r.live = true → fed = false ∨ (getRegion s b e).holding = true ∨ throttleIdle s b r.slot = true →
      ∃ t, exec (.integrationWindowEnd b e rows check ⟨fed, false⟩) s = .next t ∧
        EngineBecomes s t b e { x.applyHeat with
          idleWindows := x.idleWindows + 1
          run := some { r with slot := r.slot + 1 } }) ∧
    (∀ fed, r.live = true → released s 4 = true →
      exec (.integrationWindowEnd b e rows check ⟨fed, true⟩) s = exec (.lighthouseFault b e) s) ∧
    (∀ c d q, r.live = true → (getRegion s b e).holding = false → throttleIdle s b r.slot = false → wantsBlock s e r.id r.block = true → findCmd s r.id = some c → d = optDims c r.block.product →
      q = (inputSegment (seenFrom s b) c r.block.product (r.block.pass * d.pass + r.next) r.block.c).codes →
      (mismatches x.active q rows check (x.sigmaNow c.tally.cls) = false →
        ∃ t o m, exec (.integrationWindowEnd b e rows check ⟨true, false⟩) s = .next t ∧
          t = { s with engines := t.engines, ctxs := t.ctxs } ∧ (getEngine t b e).outputs = x.outputs ++ [o] ∧
          o.id = r.id ∧ o.block = r.block ∧ o.vector = r.next ∧ o.gen = x.gen ∧
          (getEngine t b e).run = some { r with slot := r.slot + 1, next := r.next + 1, ended := r.next + 1 == r.count } ∧
          findCmd t r.id = some m ∧ m.tally.windows = c.tally.windows + 1 ∧ m.tally.mismatches = c.tally.mismatches) ∧
      (mismatches x.active q rows check (x.sigmaNow c.tally.cls) = true →
        (r.number = 1 → ∃ t n m, exec (.integrationWindowEnd b e rows check ⟨true, false⟩) s = .next t ∧
          t = { s with engines := t.engines, ctxs := t.ctxs } ∧ (getEngine t b e).run = some n ∧ n.id = r.id ∧
          n.block = r.block ∧ n.next = 0 ∧ n.number = 2 ∧
          findCmd t r.id = some m ∧
          m.tally.windows = c.tally.windows + 1 ∧ m.tally.mismatches = c.tally.mismatches + 1 ∧
          m.tally.repeats = c.tally.repeats + 1) ∧
        (r.number = 2 → ∃ t v, exec (.integrationWindowEnd b e rows check ⟨true, false⟩) s = .next t ∧
          (getEngine t b e).rotation = .outOfRotation ∧ t.mem = s.mem ∧
          t.faults.unlogged = s.faults.unlogged ++ [v] ∧ v.code = 0x0201 ∧ v.site = b ∧ v.unit = e) ∧
        (r.number ≠ 1 → r.number ≠ 2 → ∃ t, exec (.integrationWindowEnd b e rows check ⟨true, false⟩) s = .next t ∧
          (getEngine t b e).rotation = .left ∧ (getEngine t b e).reason = 8)))) ∧
  (∀ s b e x o l, hasEngine s b e = true → x = getEngine s b e → x.outputs = o :: l →
    (o.gen ≠ x.gen → ∃ t, exec (.windowOutput b e) s = .next t ∧
      EngineBecomes s t b e { x with outputs := l, droppedOutputs := x.droppedOutputs + 1 }) ∧
    (∀ r c, o.gen = x.gen → x.finishing = none → x.run = some r → r.id = o.id → r.block = o.block →
      findCmd s o.id = some c →
      (o.last = false → ∃ t r' m, exec (.windowOutput b e) s = .next t ∧
        t = { s with engines := t.engines, ctxs := t.ctxs } ∧ (getEngine t b e).outputs = l ∧
        (getEngine t b e).run = some r' ∧ r'.arrived = r.arrived + 1 ∧ findCmd t o.id = some m ∧ m.opt.acc = c.opt.acc ∧
        m.opt.committed = c.opt.committed ∧
        (∀ i, i < min 128 ((optDims c o.block.product).rows - 128 * o.block.g) →
          tabGet 0#32 (getEngine t b e).staging (o.vector * 128 + i) = o.parts.getD i 0)) ∧
      (o.last = true → c.phase = .started →
        c.opt.todo.filter (fun t => !(t.1 == e && decide (t.2 = r.block))) ≠ [] →
        ∃ t m, exec (.windowOutput b e) s = .next t ∧ t.mem = s.mem ∧ findCmd t o.id = some m ∧
          m.opt.committed = c.opt.committed ++ [(o.block, r.sigma2)]))) ∧
  (∀ s b e, hasEngine s b e = true → (getEngine s b e).outputs = [] → exec (.windowOutput b e) s = .next s)

/-- O40. Once boot has released the engines: HEATER_TICK takes the temperature estimate and the comb power; the
calibration is stale exactly when the estimate is more than 4 degC from that of the last calibration, the widening of
the predicted sigma follows from the drift, the age and the slope, and the heater codes for the estimate are in
effect, or wait for the next window boundary while a window is under way. TAP_MONITOR_TICK with all 132 lines within 1
% of their normalised power clears the list of commands with windows; with a line off it marks that line for
renormalisation and those commands calibration-stale. RATE_DETECTOR_TICK, with no test waiting, takes the slope, sets
thermal-step exactly above 10 degC/ms, and above 25 degC/ms wants a pause while a block runs and pauses an idle
engine. THERMAL_RESUME ends the pause exactly when the heaters have settled, with no code waiting, at 10 degC/ms or
less. Nothing but the engine (and those flags) changes. -/
def Obligations.EngineTicksFollowTemperature : Prop :=
  (∀ s b e x t c, hasEngine s b e = true → released s 7 = true → x = getEngine s b e → ∃ u y, exec (.heaterTick b e t c) s = .next u ∧
    EngineBecomes s u b e y ∧ y.temp = t ∧ y.comb = c ∧ (y.stale = true ↔ 4000 < (t - x.calTemp).natAbs) ∧
    y.widen2 = widening2 (t - x.calTemp) (now s - x.calTide) x.slope ∧ y.calTemp = x.calTemp ∧ y.slope = x.slope ∧
    (x.windowing = true → y.heatWait = some t ∧ y.heatIn = x.heatIn) ∧
    (x.windowing = false → y.heatWait = none ∧ y.heatIn = t)) ∧
  (∀ s b e x ppm, hasEngine s b e = true → released s 7 = true → x = getEngine s b e →
    ((∀ j, j < 132 → 100 * ((ppm.getD j (x.normOf j) : Nat) - (x.normOf j : Int)).natAbs ≤ x.normOf j) →
      ∃ t, exec (.tapMonitorTick b e ppm) s = .next t ∧ EngineBecomes s t b e { x with ranSince := [] }) ∧
    (∀ j, j < 132 → x.normOf j < 100 * ((ppm.getD j (x.normOf j) : Nat) - (x.normOf j : Int)).natAbs →
      ∃ t, exec (.tapMonitorTick b e ppm) s = .next t ∧ t = { s with engines := t.engines, ctxs := t.ctxs } ∧
        (j, ppm.getD j 0) ∈ (getEngine t b e).tapOff ∧
        (∀ id c, id ∈ x.ranSince → findCmd s id = some c → ∃ d, findCmd t id = some d ∧ d.tally.calStale = true))) ∧
  (∀ s b e x v, hasEngine s b e = true → released s 7 = true → x = getEngine s b e → nextTest s (.engine b e) = none →
    ∃ t y, exec (.rateDetectorTick b e v) s = .next t ∧ EngineBecomes s t b e y ∧ y.slope = v ∧
      (y.thermalStep = true ↔ 10000 < v.natAbs) ∧
      (25000 < v.natAbs → x.run.isSome = true → y.pauseWanted = true ∧ y.paused = x.paused) ∧
      (25000 < v.natAbs → x.run = none → y.paused = true) ∧
      (v.natAbs ≤ 25000 → x.pauseWanted = false → y.pauseWanted = false ∧ y.paused = x.paused)) ∧
  (∀ s b e t c v l, hasEngine s b e = true → released s 7 = false → exec (.heaterTick b e t c) s = .next s ∧
    exec (.tapMonitorTick b e l) s = .next s ∧ exec (.rateDetectorTick b e v) s = .next s) ∧
  (∀ s b e x, hasEngine s b e = true → x = getEngine s b e →
    (x.paused = true → x.slope.natAbs ≤ 10000 → x.heatWait = none → ∃ t, exec (.thermalResume b e true) s = .next t ∧
      t = { s with engines := t.engines } ∧ (getEngine t b e).paused = false ∧
      (∀ r, x.run = some r → r.live = true → x.rowPend.any (fun p => p.1 == 128) = false →
        EngineBecomes s t b e { x with paused := false })) ∧
    (x.paused = false ∨ 10000 < x.slope.natAbs ∨ x.heatWait ≠ none → exec (.thermalResume b e true) s = .next s) ∧
    exec (.thermalResume b e false) s = .next s)

/-- O41. A first fault of the active Lighthouse in 24 h raises fault event 0x0401 with OUTCOME 2 when the standby can take
over. An engine then switches over and its block goes back to vector 0 with the switch-over flag; a site's port pauses
and its lanes go dark; a quay's standby is active at once. With no standby the engine leaves service with reason 4,
and the links of the quay that are not disabled fail. LH_SWITCHOVER_DONE ends the engine's switch-over with the block
kept and the standby's normalisation of the lines applied, and its windows start again; FABRIC_LH_RESUME resumes the
port on the other Lighthouse with its lanes lit. STANDBY_CHECK of a cold standby that fails retires it, with its
event; one that passes, and a check of an engine's standby, which is held ready, change nothing. -/
def Obligations.LighthousePairsSwitchOver : Prop :=
  (∀ s b e x, hasEngine s b e = true → x = getEngine s b e →
    (released s 4 = true → x.rotation ≠ .left → x.lhSwitching = false → lhReady s (LhOther (.engine b e x.lhActive)) = true →
      within dayNs (now s) (getLh s (.engine b e x.lhActive)).faults = [] →
      ∃ t v, exec (.lighthouseFault b e) s = .next t ∧ (getEngine t b e).lhActive = 1 - x.lhActive ∧
        (getEngine t b e).lhSwitching = true ∧ (getEngine t b e).rotation = x.rotation ∧ t.mem = s.mem ∧
        t.faults.unlogged = s.faults.unlogged ++ [v] ∧ v.code = 0x0401 ∧ v.outcome = 2 ∧ v.site = b ∧
        (∀ r c, x.run = some r → findCmd s r.id = some c →
          ∃ r' d, (getEngine t b e).run = some r' ∧ r'.id = r.id ∧ r'.block = r.block ∧ r'.next = 0 ∧ r'.number = r.number ∧
            findCmd t r.id = some d ∧ d.tally.lhSwitch = true ∧ d.tally.mismatches = c.tally.mismatches ∧
            d.tally.repeats = c.tally.repeats + 1)) ∧
    (released s 4 = true → x.rotation ≠ .left → lhReady s (LhOther (.engine b e x.lhActive)) = false →
      ∃ t, exec (.lighthouseFault b e) s = .next t ∧ (getEngine t b e).rotation = .left ∧ (getEngine t b e).reason = 4) ∧
    (∀ r, x.lhSwitching = true → x.run = some r → x.rowPend.any (fun p => p.1 == 128) = false →
      (r.live = true → ∃ t, exec (.lhSwitchoverDone b e) s = .next t ∧ EngineBecomes s t b e x.standbyLit) ∧
      (r.live = false → engineWorks s b e = true → x.guard = false → x.paused = false → x.active.loaded = true →
        ∃ t, exec (.lhSwitchoverDone b e) s = .next t ∧ EngineBecomes s t b e { x.standbyLit.applyHeat with
          run := some { r with live := true, sigma2 := x.sigmaNow (classOf s r.id) } })) ∧
    (released s 4 = false → exec (.lighthouseFault b e) s = .next s) ∧
    (x.standbyLit.lineNorm = x.standbyNorm ∧ x.standbyLit.lhSwitching = false ∧ x.standbyLit.tapOff = []) ∧
    (x.lhSwitching = false → exec (.lhSwitchoverDone b e) s = .next s)) ∧
  (∀ s k p, hasSite s k = true → p = getPort s k →
    (released s 4 = true → p.paused = false → (getSite s k).fabricLost = false → lhReady s (.fabric k (1 - p.lhActive)) = true →
      within dayNs (now s) (getLh s (.fabric k p.lhActive)).faults = [] →
      ∃ t v, exec (.fabricLighthouseFault k) s = .next t ∧ (getPort t k).paused = true ∧ t.mem = s.mem ∧
        (∀ o ∈ othersOf s k, (getPair t k o).darkSince = some (now s)) ∧
        t.faults.unlogged = s.faults.unlogged ++ [v] ∧ v.code = 0x0401 ∧ v.outcome = 2 ∧ v.site = k) ∧
    (p.paused = true → lhReady s (.fabric k (1 - p.lhActive)) = true → ∃ t, exec (.fabricLhResume k) s = .next t ∧
      ((∀ o, (getPair s k o).again = [] ∧ (getPair s o k).again = []) → t = { s with ports := t.ports, pairs := t.pairs }) ∧
      getPort t k = { p with paused := false, lhActive := 1 - p.lhActive } ∧
      (∀ o ∈ othersOf s k, (getPair t k o).darkSince = none)) ∧
    (p.paused = false ∨ lhReady s (.fabric k (1 - p.lhActive)) = false → exec (.fabricLhResume k) s = .next s)) ∧
  (∀ s q a, q < 8 → a = (getQuayLh s q).lhActive →
    (lhReady s (.link q (1 - a)) = true → within dayNs (now s) (getLh s (.link q a)).faults = [] →
      ∃ t v, exec (.linkLighthouseFault q) s = .next t ∧ (getQuayLh t q).lhActive = 1 - a ∧ t.mem = s.mem ∧
        t.harbour.links = s.harbour.links ∧ t.faults.unlogged = s.faults.unlogged ++ [v] ∧ v.code = 0x0401 ∧
        v.site = quaySite q) ∧
    (lhReady s (.link q (1 - a)) = false → ∃ t, exec (.linkLighthouseFault q) s = .next t ∧
      ∀ i, i < 3 → (getLink s (3 * q + i)).state ≠ .disabled → (getLink t (3 * q + i)).state = .failed)) ∧
  (∀ s k n, hasSite s k = true → n < 2 → (getPort s k).lhActive ≠ n → lhReady s (.fabric k n) = true →
    exec (.standbyCheck (.fabric k n) true) s = .next s ∧
    ∃ t v, exec (.standbyCheck (.fabric k n) false) s = .next t ∧ (getLh t (.fabric k n)).retired = true ∧
      t.mem = s.mem ∧ t.faults.unlogged = s.faults.unlogged ++ [v] ∧ v.code = 0x0401) ∧
  (∀ s b e n pass, hasEngine s b e = true → n < 2 → exec (.standbyCheck (.engine b e n) pass) s = .next s)

/-- O42. An engine reset clears both banks, the runs and the staging and ends the engine's commands with at least the rank
of S_ABORTED, but for one that its timeout is stopping, which keeps its status; its end raises the generation tag by 1
and takes the engine out of rotation for its targeted test, or leaves one that has left service out of it. That test,
passed with fewer than 8 transients in the hour and no other test waiting, counts one transient and returns the engine
to rotation; failed, the engine leaves service with reason 7. A Lighthouse that passes its test counts a transient and
can take over again. The temperature trigger falls due exactly beyond 4 degC from the last calibration: on an engine
that runs a block it queues a calibration. A calibration that passes stores its ENOB and tables, which wait for a bank
switch, and returns the engine; a first failure with nothing found repeats it; a second takes the engine out of
service with reason 6. -/
def Obligations.EngineResetsTestsCalibrations : Prop :=
  (∀ s b e x, hasEngine s b e = true → x = getEngine s b e →
    (x.resetting = false → x.rotation ≠ .left → ∃ t y, exec (.engineReset b e) s = .next t ∧ getEngine t b e = y ∧
      y.resetting = true ∧ y.gen = x.gen ∧ y.bankA = {} ∧ y.bankB = {} ∧ y.run = none ∧ y.finishing = none ∧
      y.staging = [] ∧ t.mem = s.mem ∧ t.faults = s.faults ∧
      (∀ id c, id.ctx < 64 → findCmd s id = some c → onEngine b e c = true → c.phase ≠ .finished →
        (c.phase ≠ .stopping → ∃ d, findCmd t id = some d ∧ d.phase = .finished ∧
          statusRank S_ABORTED ≤ statusRank d.status) ∧ (c.phase = .stopping → findCmd t id = some c))) ∧
    (x.resetting = true ∨ x.rotation = .left → exec (.engineReset b e) s = .next s) ∧
    (x.resetting = true → ∃ t y, exec (.engineResetDone b e) s = .next t ∧ getEngine t b e = y ∧ y.resetting = false ∧
      y.gen = x.gen + 1 ∧ t.mem = s.mem ∧ (x.rotation = .left → y.rotation = .left) ∧
      (x.rotation ≠ .left → y.rotation = .outOfRotation ∧
        ∃ q ∈ t.recovery.tests, q.el = .engine b e ∧ q.rank = 1 ∧ q.running = true)) ∧
    (x.resetting = false → exec (.engineResetDone b e) s = .next s)) ∧
  (∀ s b e x q res, hasEngine s b e = true → x = getEngine s b e → s.recovery.tests = [q] → q.el = .engine b e →
    q.running = true → q.who = [] →
    (q.rank = 1 → q.code ≠ 0x10 → res.pass = true → x.rotation = .outOfRotation →
      (within hourNs (now s) x.transients).length < 7 →
      ∃ t, exec (.targetedTestDone (.engine b e) res) s = .next t ∧ (getEngine t b e).rotation = .inRotation ∧
        t.recovery.tests = [] ∧ (getSite t b).transients = (getSite s b).transients + 1 ∧ t.mem = s.mem ∧
        t.faults = s.faults) ∧
    (q.code = 0 → res.pass = false → x.rotation ≠ .left →
      ∃ t, exec (.targetedTestDone (.engine b e) res) s = .next t ∧ (getEngine t b e).rotation = .left ∧
        (getEngine t b e).reason = 7) ∧
    (∀ enob, q.code = 0x10 → measurementPasses (classCount s) enob = true → x.rotation = .outOfRotation →
      ∃ t, exec (.calibrationDone b e enob res) s = .next t ∧ (getEngine t b e).rotation = .inRotation ∧
        (getEngine t b e).newTables = some (s.fresh + 1) ∧ (getEngine t b e).enob = enob ∧ t.recovery.tests = [] ∧
        tabGet 0 t.recovery.nvCal (engKey b e) = x.temp ∧ t.mem = s.mem ∧ t.faults = s.faults) ∧
    (∀ enob, q.code = 0x10 → measurementPasses (classCount s) enob = false → x.calRepeat = false → res.lines = [] →
      res.rows = [] → ∃ t, exec (.calibrationDone b e enob res) s = .next t ∧
        EngineBecomes s t b e { x with calRepeat := true, enob := enob }) ∧
    (∀ enob, q.code = 0x10 → measurementPasses (classCount s) enob = false → x.calRepeat = true → x.rotation ≠ .left →
      ∃ t, exec (.calibrationDone b e enob res) s = .next t ∧ (getEngine t b e).rotation = .left ∧
        (getEngine t b e).reason = 6)) ∧
  (∀ s lh res, hasElement s (.lighthouse lh) = true → (getLh s lh).testing = true → res.pass = true →
    ∃ t, exec (.targetedTestDone (.lighthouse lh) res) s = .next t ∧ (getLh t lh).testing = false ∧
      (getLh t lh).retired = (getLh s lh).retired ∧ (getSite t (LhSite lh)).transients = (getSite s (LhSite lh)).transients + 1 ∧
      t.faults = s.faults ∧ t.mem = s.mem) ∧
  (∀ s b e x v, hasEngine s b e = true → x = getEngine s b e →
    (4000 < (v - x.calTemp).natAbs → x.rotation ≠ .left → x.run.isSome = true → s.recovery.tests = [] →
      exec (.calibrationTrigger (.engine b e) (.temperature v)) s = .next { s with recovery := { s.recovery with
        tests := [{ el := .engine b e, code := 0x10, rank := 3 }] } }) ∧
    ((v - x.calTemp).natAbs ≤ 4000 → exec (.calibrationTrigger (.engine b e) (.temperature v)) s = .next s))

/-- O43. Once boot has released the regions: a replica warning during a recovery extends it by one cycle and stretches
nothing; otherwise a region that has not stretched in the previous 64 cycles stretches in the cycle after the warning,
its recovery ending 65 cycles after it. The recovery ends at its cycle. 256 cycles after a stretch without phase, and
above 64 stretches in 1 ms, a region above step 0 is asked down at least one step, by R166 once in a recovery; 100 ms
after the last quiet start a stretched-down region is asked up one. A step change waits for the recovery unless it is
urgent, needs the core voltage of its step, and holds the crossings until the step hold ends. A mesh window above 25 %
is counted. Substitution of a core holds its tile only while no started command uses the region, or for a test; its
end attaches the spare, releases the tile, raises fault event 0x0204 with OUTCOME 2 (for a test the test starts
instead, and the end of its withdrawal frees the spare), poisons exactly the words that could not be copied and leaves
the rest of memory. Nothing else changes. -/
def Obligations.RegionsStepStretchAndSubstitute : Prop :=
  (∀ s b e r y, hasEngine s b e = true → released s 7 = true → r = getRegion s b e →
    (∀ c, r.recoverAt = some c → ∃ t, exec (.replicaWarning b e y) s = .next t ∧
      RegionBecomes s t b e { r with recoverAt := some (c + 1) }) ∧
    (r.recoverAt = none → (∀ l, r.lastStretch = some l → l + 64 < y) → ∃ t x, exec (.replicaWarning b e y) s = .next t ∧
      RegionBecomes s t b e x ∧ x.lastStretch = some (y + 1) ∧ x.recoverAt = some (y + 65) ∧ x.step = r.step ∧
      now s ∈ x.stretches) ∧
    (∀ l, r.recoverAt = none → r.lastStretch = some l → y ≤ l + 64 → ∃ t, exec (.replicaWarning b e y) s = .next t ∧
      RegionBecomes s t b e r) ∧
    (∀ c, r.recoverAt = some c → ∃ t, exec (.stretchRecoveryEnd b e y) s = .next t ∧
      RegionBecomes s t b e (if c ≤ y then { r with recoverAt := none, recoveryStepped := false } else r)) ∧
    (∀ c l, r.recoverAt = some c → r.lastStretch = some l → r.step ≠ 0 → l + 256 ≤ y → r.recoveryStepped = false →
      ∃ t x w, exec (.recoveryStepdown b e y) s = .next t ∧ RegionBecomes s t b e x ∧ x.wanted = some w ∧ w < r.step ∧
        x.urgent = true ∧ x.step = r.step ∧ x.stepdowns = r.stepdowns + 1 ∧ x.recoveryStepped = true) ∧
    (r.recoveryStepped = true → ∃ t, exec (.recoveryStepdown b e y) s = .next t ∧ RegionBecomes s t b e r) ∧
    (r.step ≠ 0 → 64 < (r.stretches.filter (fun x => decide (now s < x + 1000000))).length →
      ∃ t x w, exec (.stretchLimit b e) s = .next t ∧ RegionBecomes s t b e x ∧ x.wanted = some w ∧ w < r.step ∧
        x.step = r.step ∧ x.urgent = r.urgent ∧ x.stepdowns = r.stepdowns + 1) ∧
    ((r.stretches.filter (fun x => decide (now s < x + 1000000))).length ≤ 64 →
      ∃ t, exec (.stretchLimit b e) s = .next t ∧ RegionBecomes s t b e r) ∧
    (r.stretchStep < 9 → r.quietFrom + 100000000 ≤ now s → ∃ t x, exec (.stepUpTimer b e) s = .next t ∧
      RegionBecomes s t b e x ∧ x.stretchStep = r.stretchStep + 1 ∧ x.quietFrom = now s ∧ x.step = r.step ∧
      (∀ w, x.wanted = some w → w ≤ r.stretchStep + 1 ∧ w ≤ r.powerStep ∧ w ≤ bandCap r.band ∧ w ≤ x.voltStep)) ∧
    (∀ w, r.wanted = some w → w ≤ r.voltStep → r.holding = false → (r.recoverAt = none ∨ r.urgent = true) →
      ∃ t, exec (.stepChange b e) s = .next t ∧
        RegionBecomes s t b e { r with
          step := w
          wanted := none
          holding := true
          urgent := false
          voltStep := w }) ∧
    ((r.wanted = none ∨ (∃ w, r.wanted = some w ∧ r.voltStep < w) ∨ r.holding = true ∨ (r.recoverAt ≠ none ∧ r.urgent = false)) →
      ∃ t, exec (.stepChange b e) s = .next t ∧ RegionBecomes s t b e r) ∧
    (∃ t, exec (.stepHoldEnd b e) s = .next t ∧ RegionBecomes s t b e { r with holding := false })) ∧
  (∀ s b n, hasBerth s b = true →
    (64 < n → released s 7 = true → ∃ t, exec (.meshLoadWindow b n) s = .next t ∧
      BerthBecomes s t b { getBerth s b with mesh25 := (getBerth s b).mesh25 + 1 }) ∧
    (n ≤ 64 ∨ released s 7 = false → exec (.meshLoadWindow b n) s = .next s)) ∧
  (∀ s b v e r, hasTile s b v = true → e = regionOf v → r = getRegion s b e →
    (r.substituting = some v → (r.forTest = true ∨ (regionInUse s b e = false ∧ engineInUse s b e = false)) →
      ∃ t, exec (.coreSubstitution b v) s = .next t ∧ TileBecomes s t b v { getTile s b v with held := true }) ∧
    (r.substituting ≠ some v ∨ (r.forTest = false ∧ (regionInUse s b e = true ∨ engineInUse s b e = true)) →
      exec (.coreSubstitution b v) s = .next s) ∧
    (∀ bad, (getTile s b v).held = true → (r.withdrawing = some v ∨ r.substituting = some v) →
      ∃ t, exec (.coreSubstitutionDone b v bad) s = .next t ∧
        (r.withdrawing ≠ some v → (getRegion t b e).substituting = none ∧ (getRegion t b e).substituted = some v) ∧
        (getTile t b v).retired = (getTile s b v).retired ∧
        (r.withdrawing ≠ some v → r.forTest = false → (getTile t b v).held = false ∧
          ∃ f, t.faults.unlogged = s.faults.unlogged ++ [f] ∧ f.code = 0x0204 ∧ f.outcome = 2 ∧ f.site = b ∧ f.unit = v) ∧
        (r.withdrawing ≠ some v → r.forTest = true → t.faults = s.faults ∧ ∀ q, nextTest s (.tile b v) = some q →
          (getTile t b v).held = false ∧ ∃ x ∈ t.recovery.tests, x.el = .tile b v ∧ x.running = true) ∧
        (r.withdrawing = some v → (getTile t b v).held = false ∧ t.faults = s.faults ∧ (getRegion t b e).spare = .free ∧
          (getRegion t b e).substituted = none ∧ (getRegion t b e).withdrawing = none) ∧
        (∀ w ∈ bad, ∀ i, i < 8 → readByte t (tileWindow b v + 8 * w + i) = 0xFF#8) ∧
        (∀ a, (∀ w ∈ bad, a < tileWindow b v + 8 * w ∨ tileWindow b v + 8 * w + 8 ≤ a) → readByte t a = readByte s a)) ∧
    ((getTile s b v).held = false → ∀ bad, exec (.coreSubstitutionDone b v bad) s = .next s))

/-- O44. The 16 lane frames of a body give the body back, and a body closed with its CRC passes the check. On a pair
direction that serves, with its light on, a frame that its sender may not send does not arrive. Any other with packets
has been sent: the port's cap and its turn count it, and when it is no replay it takes room in the receive buffers.
One that fails its CRC sets NAK; a failure of the frame expected next counts, the 4th in a row asks for identity and
the 16th starts a retraining. A good frame with the expected SEQ, not marked STRIPE, is accepted: SEQ moves on, NAK
and the failures clear, a packet is counted when it is not idle, the receiver's cap counts it, the reverse direction
takes its acknowledgement, and a lane event in it is asked of the sender. A good frame ahead of the expected SEQ sets
NAK, one behind it only joins the replay buffer. A bundle frame of a near link arrives only on a bundle that no other
would finish before; it occupies the bundle's lanes. One that fails its CRC sets NAK of its direction, and lanes that
alone failed are to leave; a good one with the expected SEQ, none waiting ahead of it, is delivered: SEQ moves on by
one, one frame is counted, NAK clears, the other direction takes its acknowledgement, and the credits cross as events. -/
def Obligations.FramesArriveInOrder : Prop :=
  (∀ h b, b < 2 ^ 1760 → bodyOf ((List.range 16).map (laneFrame h b)) = b) ∧
  (∀ a b f, bodyGood a b (frameBody a b f) = true) ∧
  (∀ s a b seq units m, hasPair s a b = true → m = countSent s a b seq units →
    (units = [] → m = s) ∧
    (units ≠ [] → m = { s with pairs := m.pairs, ports := m.ports } ∧
      (getPort m a).sentAt = sentMicro s (getPort s a).sentAt ++ [(now s, b)] ∧ (getPort m a).served = b ∧
      getPair m a b = { getPair s a b with
        owed := if (getPair s a b).inReplay seq then (getPair s a b).owed else addUnits (getPair s a b).owed units })) ∧
  (∀ s a b lanes units waiting f p m, hasPair s a b = true → p = getPair s a b → released s 5 = true → p.lost = false →
    p.retraining = false → (getPort s a).paused = false → f = parseFrame (bodyOf lanes) →
    (bodyGood a b (bodyOf lanes) = false → p.fails < 15 → maySend s a b p.sending units waiting = true →
      m = countSent s a b p.sending units → ∃ t y, exec (.stripedFrame a b ⟨lanes, units, waiting⟩) s = .next t ∧
      t = { s with pairs := t.pairs, reqs := t.reqs, ports := m.ports } ∧ getPair t a b = y ∧ y.nak = true ∧ y.rxSeq = p.rxSeq ∧
      y.owed = (getPair m a b).owed ∧
      y.stripe = p.stripe ∧ y.delivered = p.delivered ∧ y.retraining = false ∧
      y.fails = (if p.sending = p.rxSeq then p.fails + 1 else p.fails) ∧
      y.idreq = (p.idreq || decide (p.sending = p.rxSeq ∧ p.fails = 3))) ∧
    (bodyGood a b (bodyOf lanes) = false → p.sending = p.rxSeq → 15 ≤ p.fails →
      maySend s a b p.sending units waiting = true → m = countSent s a b p.sending units →
      ∃ t, exec (.stripedFrame a b ⟨lanes, units, waiting⟩) s = .next t ∧
      t = { s with pairs := t.pairs, reqs := t.reqs, ports := m.ports } ∧
      (getPair t a b).retraining = true ∧ (getPair t a b).retrains = p.retrains + 1 ∧ (getPair t a b).fails = 0) ∧
    (bodyGood a b (bodyOf lanes) = true → maySend s a b f.seq units waiting = true → m = countSent s a b f.seq units →
      (f.seq = p.rxSeq → f.stripe = false → p.trimTodo = [] → (getPort s a).trimWait = none → (getPort s b).trimWait = none →
        ∃ t y, exec (.stripedFrame a b ⟨lanes, units, waiting⟩) s = .next t ∧
        t = { s with pairs := t.pairs, reqs := t.reqs, ports := t.ports } ∧ getPort t a = getPort m a ∧
        (getPort t b).takenAt = (if units = [] then (getPort s b).takenAt else lastMicro s (getPort s b).takenAt ++ [now s]) ∧
        getPair t a b = y ∧ y.owed = (getPair m a b).owed ∧ y.rxSeq = p.rxSeq + 1 ∧ y.nak = false ∧ y.fails = 0 ∧ y.stripe = p.stripe ∧
        y.delivered = (if f.idle then p.delivered else p.delivered + 1) ∧ (getPair t b a).txAcked = f.ackSeq ∧
        (f.evt ≠ 0 → (f.evt, f.evtPlane) ∈ (getPair t b a).change) ∧
        (∀ i j, i * 64 + j ≠ a * 64 + b → i * 64 + j ≠ b * 64 + a → getPair t i j = getPair s i j)) ∧
      (f.seq ≠ p.rxSeq → (f.seq - p.rxSeq).toNat < 2 ^ 31 → ∃ t, exec (.stripedFrame a b ⟨lanes, units, waiting⟩) s = .next t ∧
        PairBecomes m t a b { (getPair m a b).put f.seq (some (bodyOf lanes)) with nak := true }) ∧
      (2 ^ 31 ≤ (f.seq - p.rxSeq).toNat → ∃ t, exec (.stripedFrame a b ⟨lanes, units, waiting⟩) s = .next t ∧
        PairBecomes m t a b ((getPair m a b).put f.seq (some (bodyOf lanes))))) ∧
    (maySend s a b (if bodyGood a b (bodyOf lanes) = true then f.seq else p.sending) units waiting = false →
      exec (.stripedFrame a b ⟨lanes, units, waiting⟩) s = .next s)) ∧
  (∀ s a b lanes units waiting, hasPair s a b = true → (released s 5 = false ∨ (getPair s a b).lost = true ∨
    (getPair s a b).retraining = true ∨ (getPort s a).paused = true) → exec (.stripedFrame a b ⟨lanes, units, waiting⟩) s = .next s) ∧
  (∀ s n k up f x d, hasStack s n = true → k < 10 → released s 6 = true → x = getStack s n → d = bit up →
    x.nearLost = false → (getBundle s n k).active ≠ [] →
    (firstBundle s n d k = false → exec (.nearBundleFrame n k up f) s = .next s) ∧
    (firstBundle s n d k = true → f.crcGood = false → ∃ t, exec (.nearBundleFrame n k up f) s = .next t ∧
      t = { s with stackTab := t.stackTab, reqs := t.reqs } ∧ tabGet false (getStack t n).nearNak d = true ∧
      tabGet 0 (getStack t n).nearFree (16 * d + k) = bundleEnd s n d k ∧
      tabGet 0 (getStack t n).nearLaneNo (16 * d + k) = tabGet 0 x.nearLaneNo (16 * d + k) + 32 ∧
      (getStack t n).nearSeq = x.nearSeq ∧ (∀ j, j ≠ n → getStack t j = getStack s j) ∧
      (∀ l m, l ∈ frameLanes s n d k f.failing → l ∈ (getBundle s n k).active → m ∈ (getBundle s n k).active →
        m ∉ frameLanes s n d k f.failing →
        l ∈ (getBundle t n k).leaving)) ∧
    (firstBundle s n d k = true → f.crcGood = true → (f.stripe = false ∨ f.evt ≠ 1) → f.seq = tabGet 0 x.nearSeq d → (∀ e ∈ x.nearAhead, e.1 ≠ d) →
      (f.units = [] ∨ hasCredit (tabGet [] x.nearOwed d) f.units = true) →
      (x.nearSent.filter (fun e => e.1 == d)).length < 128 →
      ∃ t y, exec (.nearBundleFrame n k up f) s = .next t ∧ StackBecomes (nearCredits s n up f.credits) t n y ∧
        tabGet 0 y.nearSeq d = f.seq + 1 ∧ tabGet 0 y.nearFree (16 * d + k) = bundleEnd s n d k ∧
        tabGet 0 y.nearLaneNo (16 * d + k) = tabGet 0 x.nearLaneNo (16 * d + k) + 32 ∧
        tabGet 0 y.nearDelivered d = tabGet 0 x.nearDelivered d + 1 ∧ tabGet false y.nearNak d = false ∧
        tabGet 0 y.nearAcked (1 - d) = f.ackSeq)) ∧
  (∀ s n up c k, k = fld c.toNat 0 8 + fld c.toNat 8 8 + fld c.toNat 16 8 + fld c.toNat 24 8 →
    (k = 0 → nearCredits s n up c = s) ∧
    (k ≠ 0 → nearCredits s n up c = (if up then countEvents s (stackDom n) 3 k else countEvents s 3 (stackDom n) k)))

/-- O45. A right identity word locks both rings of its lane, and reports a lane that is out of the stripe and not under
test; a wrong one, up to the second in 1 s, raises fault event 0x0101 at the receiver, counts a mismatch and a
transient, relocks the receiver ring and asks for EVT 1 for a lane of the stripe; the third retires the lane. An
identity frame without a right word starts a retraining. Nothing counts during a switch-over at either end, a
retraining or the interval after it. A relocking ring with light locks the nearest lit line, its own when it starts
within 40 GHz of it; rings without light for 100 us relock; a retraining ends with every ring locked; a lane sleeps 1
us after its last packet. A lane above its BER in the stripe asks for EVT 1 and its margin test with fault event
0x0102, or waits for a higher event; with an eye of at least 64/256 UI and an OMA of at least -9.0 dBm it becomes a
spare and a transient counts, otherwise it is retired. A near lane above its BER leaves its bundle at a frame marked
STRIPE, with fault event 0x0104. -/
def Obligations.LanesAreWatchedAndReplaced : Prop :=
  (∀ s a b k w p, hasPair s a b = true → p = getPair s a b → w = idWord a b k →
    (released s 5 = true → p.lost = false → p.retraining = false → (getPort s a).paused = false →
      (getPort s b).paused = false → p.quietUntil ≤ now s →
      (∀ x : W64, p.retired.contains k = false →
        (x.toNat = w → ∃ t, exec (.identityWord a b k (.marker x)) s = .next t ∧ t = { s with pairs := t.pairs } ∧
          (getPair t a b).laneLocked k = true ∧ (getPair t a b).stripe = p.stripe ∧
          (p.out.any (fun o => o.1 == k) = true → p.testing.contains k = false → p.trimming ≠ some k →
            (2, k) ∈ (getPair t a b).evt)) ∧
        (x.toNat ≠ w → (within 1000000000 (now s) (tabGet [] p.mismatch k)).length ≤ 1 →
          ∃ t e, exec (.identityWord a b k (.marker x)) s = .next t ∧ (getPair t a b).mismatches = p.mismatches + 1 ∧
            ((getPair t a b).ring true k).state = .relocking ∧ (p.stripe.contains k = true → (1, k) ∈ (getPair t a b).evt) ∧
            (getPair t a b).retraining = false ∧ (getSite t b).transients = (getSite s b).transients + 1 ∧
            t.faults.unlogged = s.faults.unlogged ++ [e] ∧ e.code = 0x0101 ∧ e.site = b ∧ e.unit = k ∧ e.arg = a ∧
            t.mem = s.mem) ∧
        (x.toNat ≠ w → 2 ≤ (within 1000000000 (now s) (tabGet [] p.mismatch k)).length →
          ∃ t, exec (.identityWord a b k (.marker x)) s = .next t ∧ k ∈ (getPair t a b).retired ∧
            (3, k) ∈ (getPair t a b).evt ∧ (getSite t b).retirements = (getSite s b).retirements + 1)) ∧
      (∀ ws, ∃ t, exec (.identityWord a b k (.frame ws)) s = .next t ∧ t.mem = s.mem ∧
        ((getPair t a b).retraining = true ↔ ∀ e ∈ ws.zipIdx, e.1.toNat ≠ idWord a b (laneOf p e.2)))) ∧
    (p.retraining = true ∨ (getPort s a).paused = true ∨ (getPort s b).paused = true ∨ now s < p.quietUntil →
      ∀ x, exec (.identityWord a b k x) s = .next s)) ∧
  (∀ lines own x, own ∈ lines → x.natAbs ≤ 40 → lockLine lines own x = some own) ∧
  (∀ s a b k p, hasPair s a b = true → k < 18 → p = getPair s a b →
    (∀ rx x l, (p.ring rx k).state = .relocking → p.darkSince = none →
      lockLine (litLines s b rx) ((b + 64 - a) % 64) x = some l → ∃ t, exec (.ringLock a b ⟨k, rx, x⟩) s = .next t ∧
      PairBecomes s t a b (p.setRing rx k { state := .locked, line := if l = (b + 64 - a) % 64 then none else some l,
                                            code := (p.ring rx k).code })) ∧
    (∀ rx x, (p.ring rx k).state ≠ .relocking ∨ p.darkSince ≠ none → exec (.ringLock a b ⟨k, rx, x⟩) s = .next s) ∧
    (∀ d, p.darkSince = some d → d + 100000 ≤ now s → ∃ t, exec (.ringDarkExpiry a b) s = .next t ∧
      t = { s with pairs := t.pairs } ∧ (∀ j rx, j < 18 → ((getPair t a b).ring rx j).state =
        if (p.ring rx j).state = .frozen then .relocking else (p.ring rx j).state)) ∧
    (p.darkSince = none → exec (.ringDarkExpiry a b) s = .next s) ∧
    (p.retraining = true → p.again = [] → ∃ t, exec (.retrainingDone a b) s = .next t ∧
      PairBecomes s t a b { p with retraining := false, deskewed := true, rings := [], modRings := [], trained := some (now s),
                                   laneNo := 0, quietUntil := now s + 28672 }) ∧
    (p.retraining = false → exec (.retrainingDone a b) s = .next s) ∧
    (p.lastPacket + 1000 ≤ now s → p.retraining = false → ∃ t, exec (.laneSleep a b) s = .next t ∧
      PairBecomes s t a b { p with asleep := true }) ∧
    (now s < p.lastPacket + 1000 → ∃ t, exec (.laneSleep a b) s = .next t ∧ PairBecomes s t a b p) ∧
    (released s 5 = true → p.lost = false → p.stripe.contains k = true → p.testing.contains k = false →
      (p.retraining = false → (getPort s a).paused = false → (getPort s b).paused = false → p.mismatching = false →
        ∃ t e, exec (.fabricLaneBerExceeded a b k) s = .next t ∧
        t = { s with pairs := t.pairs, reqs := t.reqs, faults := t.faults } ∧ (1, k) ∈ (getPair t a b).evt ∧
        k ∈ (getPair t a b).testing ∧ t.faults.unlogged = s.faults.unlogged ++ [e] ∧ e.code = 0x0102 ∧ e.site = a ∧
        e.unit = k ∧ e.outcome = (if (p.substitute k).2 = none then 0 else 2)) ∧
      (p.retraining = true ∨ (getPort s a).paused = true ∨ (getPort s b).paused = true ∨ p.mismatching = true →
        ∃ t, exec (.fabricLaneBerExceeded a b k) s = .next t ∧
        PairBecomes s t a b { p with again := insertNat k p.again })) ∧
    (p.testing.contains k = true → p.stripe.contains k = false →
      (∀ eye oma, 64 ≤ eye → -900 ≤ oma → ∃ t, exec (.laneMarginTestDone a b k ⟨eye, oma⟩) s = .next t ∧
        k ∈ (getPair t a b).spares ∧ (getPair t a b).testing.contains k = false ∧
        (getSite t b).transients = (getSite s b).transients + 1 ∧ t.faults = s.faults) ∧
      (∀ eye oma, eye < 64 ∨ oma < -900 → ∃ t e, exec (.laneMarginTestDone a b k ⟨eye, oma⟩) s = .next t ∧
        k ∈ (getPair t a b).retired ∧ (3, k) ∈ (getPair t a b).evt ∧ (getPair t a b).testing.contains k = false ∧
        t.faults.unlogged = s.faults.unlogged ++ [e] ∧ e.code = 0x0102 ∧ e.unit = k))) ∧
  (∀ s n k l x, hasStack s n = true → k < 10 → l < 34 → released s 6 = true → x = getBundle s n k →
    (x.active.contains l = true → ∃ t, exec (.nearLaneBerExceeded n k l) s = .next t ∧ t = { s with stackTab := t.stackTab } ∧
      getBundle t n k = { x with leaving := insertNat l x.leaving } ∧ (∀ j, j ≠ n → getStack t j = getStack s j)) ∧
    (x.active.contains l = false → ∃ t, exec (.nearLaneBerExceeded n k l) s = .next t ∧
      t = { s with stackTab := t.stackTab } ∧ getBundle t n k = x) ∧
    (∀ up f, (getStack s n).nearLost = false → firstBundle s n (bit up) k = true → f.crcGood = true → f.stripe = true → f.evt = 1 → f.evtLane = l → f.units = [] →
      ((getStack s n).nearSent.filter (fun e => e.1 == bit up)).length < 128 → x.active.contains l = true →
      (∃ j ∈ x.active, j ≠ l) → ∃ t e, exec (.nearBundleFrame n k up f) s = .next t ∧
        getBundle t n k = { x with active := x.active.filter (· != l), leaving := x.leaving.filter (· != l),
                                   removed := insertNat l x.removed } ∧
        t.faults.unlogged = s.faults.unlogged ++ [e] ∧ e.code = 0x0104 ∧ e.site = stackSite n ∧ e.unit = k ∧
        t.mem = s.mem ∧ (∀ j, j ≠ n → getStack t j = getStack s j)))

/-- O46. On a channel that serves, of a stack that is not off: a refresh operation counts for exactly its bank, which
takes the interval of its layer's band. In a stack stopped for heat or for a rail nothing else happens but that a gap
is counted. Otherwise a scrub counts its corrected symbols, which cross to the base fabric as events, marks every
permanent one as a cell error of its connection (R249) with its row waiting for repair, and counts a transient for
each other one; a write-back marks exactly the buffer of its row as written back. A refresh gap is counted, clears the
tests and repairs that waited, replaces a single suspect connection that fails its loopback by a free spare with fault
event 0x0105 OUTCOME 2, gives a single waiting row a spare row while its bank has used fewer than 32, counts what the
copies of repaired rows corrected, and makes the lane changes of the stack's bundles take effect, the removed lanes to
be tested in the next gap. On a channel that does not serve nothing changes; memory never changes. -/
def Obligations.RefreshScrubAndRowBuffers : Prop :=
  (∀ s n c x, hasStack s n = true → x = getChannel s n c → channelWorks s n c = true →
    (∀ k, ∃ t y, exec (.refreshOperation n c k) s = .next t ∧ t = { s with stackTab := t.stackTab } ∧
      (∀ j, j ≠ n → getStack t j = getStack s j) ∧ (∀ j, j ≠ c → getChannel t n j = getChannel s n j) ∧
      getChannel t n c = { x with refreshes := y, bankBand := (getChannel t n c).bankBand } ∧
      tabGet 0 y k = tabGet 0 x.refreshes k + 1 ∧
      tabGet 0 (getChannel t n c).bankBand k = (tabGet {} (getStack s n).layers c).band ∧
      (∀ j, j ≠ k → tabGet 0 y j = tabGet 0 x.refreshes j ∧
        tabGet 0 (getChannel t n c).bankBand j = tabGet 0 x.bankBand j)) ∧
    (stackQuiet s n = true → (∀ k found, exec (.scrub n c k found) s = .next s) ∧
      (∀ k r, exec (.rowBufferWriteback n k c r) s = .next s) ∧ (∀ l o, ∃ t, exec (.refreshGap n c l o) s = .next t ∧
        t = { s with stackTab := t.stackTab } ∧ (∀ j, j ≠ n → getStack t j = getStack s j) ∧
        (∀ j, j ≠ c → getChannel t n j = getChannel s n j) ∧ getChannel t n c = { x with gaps := x.gaps + 1 })) ∧
    (∀ k found, stackQuiet s n = false → ∃ t, exec (.scrub n c k found) s = .next t ∧
      t = { s with stackTab := t.stackTab, sites := t.sites, crossings := t.crossings } ∧
      (getChannel t n c).corrections = x.corrections + found.length ∧
      (getSite t (stackSite n)).transients = (getSite s (stackSite n)).transients +
        (found.filter (fun f => !f.permanent)).length ∧
      (∀ f ∈ found, f.permanent = true → k * 262144 + f.row ∈ (getChannel t n c).repairWait ∧
        (connectionOf f.sector f.symbol f.bit, k * 262144 + f.row) ∈ (getChannel t n c).cellMarks) ∧
      (∀ j, j ≠ n → getStack t j = getStack s j)) ∧
    (∀ loopback o, stackQuiet s n = false → ∃ t, exec (.refreshGap n c loopback o) s = .next t ∧ t.mem = s.mem ∧
      (getChannel t n c).gaps = x.gaps + 1 ∧ (o.fixed = [] → (getChannel t n c).suspectConn = []) ∧
      (getChannel t n c).corrections = x.corrections +
        (o.fixed.filter (fun f => x.repairWait.contains (f.bank * 262144 + f.row))).length ∧ (getChannel t n c).repairWait = [] ∧
      (getChannel t n c).strobeWait = none ∧
      (∀ j, j < 10 → (getBundle t n j).testWait = (getBundle s n j).removed ∧ (getBundle t n j).removed = []) ∧
      (∀ k, x.suspectConn = [k] → loopback.contains k = false → 0 < x.freeConn →
        (getChannel t n c).freeConn + 1 = x.freeConn ∧ k ∈ (getChannel t n c).spared ∧
        ∃ e, t.faults.unlogged = s.faults.unlogged ++ [e] ∧ e.code = 0x0105 ∧ e.outcome = 2 ∧ e.site = stackSite n ∧
          e.unit = c ∧ e.arg = x.freeConn - 1) ∧
      (∀ r, x.repairWait = [r] → tabGet 0 x.rowsUsed (r / 262144) < 32 →
        tabGet 0 (getChannel t n c).rowsUsed (r / 262144) = tabGet 0 x.rowsUsed (r / 262144) + 1))) ∧
  (∀ s n c k r x, hasStack s n = true → x = getChannel s n c → stackQuiet s n = false → ∃ t, exec (.rowBufferWriteback n c k r) s = .next t ∧
    t = { s with stackTab := t.stackTab } ∧ (∀ j, j ≠ n → getStack t j = getStack s j) ∧
    (∀ j, j ≠ c → getChannel t n j = getChannel s n j) ∧
    getChannel t n c = { x with
      buffers := x.buffers.map (fun b => if b.1 = k * 262144 + r then (b.1, none) else b) }) ∧
  (∀ s n c k l o f, hasStack s n = true → channelWorks s n c = false → exec (.refreshOperation n c k) s = .next s ∧
    exec (.scrub n c k f) s = .next s ∧ exec (.refreshGap n c l o) s = .next s)

/-- O47. A segment that may move, on a stack without a move, gets the chosen slot: its key is MOVING and the move is in
progress, memory and remap entries unchanged; with no slot, every segment of its channel that is not yet moved becomes
a retired range. The acknowledgement of a source that has no earlier request to the segment open is recorded. The copy
is done only when every site that issues requests has acknowledged, and neither stack is stopped; what it corrected
counts, and a sector that could not be corrected is poisoned. The record installs the remap entry, ends the move,
unmarks the key, enters the lifetime records, raises fault event 0x0304 and leaves memory unchanged. A range that has
been retired for 60 s is closed; others stay, and the layer of a retired channel is switched off once none of its
ranges returns data. A step whose condition does not hold changes nothing. -/
def Obligations.SegmentsMoveThroughThePool : Prop :=
  (∀ s k n, hasStack s k.stack = true → n = stackOfKey s k →
    (∀ slot, mayMove s k = true → (getStack s n).move = none → chooseSlot s k.stack = some slot →
      ∃ t, exec (.segmentMoveStart k) s = .next t ∧ t = { s with stackTab := t.stackTab, pool := t.pool } ∧
        t.pool.remap = s.pool.remap ∧ k ∈ t.pool.moving ∧
        (getStack t n).move = some { key := k, slot := slot, began := now s } ∧
        (∀ j, j ≠ n → getStack t j = getStack s j)) ∧
    (mayMove s k = true → (getStack s n).move = none → chooseSlot s k.stack = none →
      ∃ t, exec (.segmentMoveStart k) s = .next t ∧ t.mem = s.mem ∧
        (∀ j ∈ keysOfChannel s (homeOfKey s k).1 (homeOfKey s k).2,
          (∃ r ∈ t.pool.ranges, r.key = j) ∧ t.pool.wanted.contains j = false)) ∧
    (mayMove s k = false ∨ (getStack s n).move ≠ none → exec (.segmentMoveStart k) s = .next s) ∧
    (∀ m src, moveOf s k = some m → hasSite s src = true →
      (openTo s k src = false → ∃ t, exec (.segmentHoldAck k src) s = .next t ∧
        StackBecomes s t n { getStack s n with move := some { m with acks := insertNat src m.acks } }) ∧
      (openTo s k src = true → exec (.segmentHoldAck k src) s = .next s)) ∧
    (∀ m o, moveOf s k = some m → m.copied = false →
      ((∀ x ∈ remapSites s, x ∈ m.acks) → stackQuiet s n = false → stackQuiet s (m.slot / 256) = false →
        ∃ t, exec (.segmentCopyDone k o) s = .next t ∧
        (getStack t n).move = some { m with copied := true, bad := o.bad } ∧ t.pool = s.pool ∧ t.faults = s.faults ∧
        (getChannel t n (homeOfKey s k).2).corrections = (getChannel s n (homeOfKey s k).2).corrections + o.fixed.length ∧
        (∀ i ∈ o.bad, sectorPoisoned t (sectorOfKey s k i / 64) = true) ∧ (o.bad = [] → t.mem = s.mem)) ∧
      ((∃ x ∈ remapSites s, x ∉ m.acks) ∨ stackQuiet s n = true ∨ stackQuiet s (m.slot / 256) = true →
        exec (.segmentCopyDone k o) s = .next s) ∧
      exec (.segmentRecorded k) s = .next s) ∧
    (∀ m, moveOf s k = some m → m.copied = true → ∃ t, exec (.segmentRecorded k) s = .next t ∧
      tabGet none t.pool.remap (keyNat k) = some m.slot ∧
      (∀ j, j ≠ keyNat k → tabGet none t.pool.remap j = tabGet none s.pool.remap j) ∧
      k ∉ t.pool.moving ∧ k ∉ t.pool.wanted ∧ (getStack t n).move = none ∧ t.mem = s.mem ∧
      (⟨1, 0x0304, keyNat k, m.slot, 0⟩ : Retirement) ∈ t.recovery.lifetime ∧
      (∃ e ∈ t.faults.unlogged, e.code = 0x0304 ∧ e.outcome = 2 ∧ e.arg = m.slot)) ∧
    (∃ t, exec (.retiredRangeExpiry k) s = .next t ∧ t = { s with pool := t.pool, stackTab := t.stackTab } ∧
      t.pool = { s.pool with ranges := s.pool.ranges.map (fun r =>
        if r.key = k ∧ r.since + 60000000000 ≤ now s then { r with closed := true } else r) } ∧
      (∀ i c, c < 16 → (getChannel t i c) = getChannel s i c ∧ ((tabGet {} (getStack t i).layers c).off = true ↔
        (tabGet {} (getStack s i).layers c).off = true ∨ ((getChannel s i c).state = .retired ∧
          ∀ r ∈ t.pool.ranges, r.closed = false → homeOfKey s r.key ≠ (i, c))))))

/-- O48. Once boot has released the stacks, LAYER_MODEL_TICK gives each of the 16 layers a temperature of at least its
model plus G and at least every neighbouring good reading, its refresh band by the thresholds of Table 08-3 with their
hysteresis, its power, and its throttle. The alarm holds exactly while a layer is above 100 degC; each layer that
passes it raises fault event 0x0602, and nothing else does; at 105 degC the stack stops, and serves again once every
layer is below 95 degC. A layer sensor that has differed from its model for 10 ms becomes suspect with fault event
0x0601; before that nothing changes; sensors of the base die and the regulators are only marked. A rail out of
tolerance stops the stack with fault event 0x0602 that names the rail; nothing else changes. -/
def Obligations.StackTemperaturesAndStops : Prop :=
  (∀ s n r, hasStack s n = true → released s 6 = true → ∃ t y, exec (.layerModelTick n r) s = .next t ∧ getStack t n = y ∧ t.mem = s.mem ∧
    (∀ l z, l < 16 → z = tabGet {} y.layers l →
      layerModel s n r l + guard15 s ≤ z.temp15 ∧ (∀ v ∈ neighbourEstimate s n r l, 15 * v ≤ z.temp15) ∧
      z.band = refreshBand (tabGet {} (getStack s n).layers l).band z.temp15 ∧ z.power = r.powers.getD l 0 ∧
      z.throttle = (if 1500000 < z.temp15 then 25 else if z.band = 3 then 50 else 100)) ∧
    (y.alarm = true ↔ ∃ l, l < 16 ∧ 1500000 < (tabGet {} y.layers l).temp15) ∧
    ((∃ l, l < 16 ∧ 1575000 ≤ (tabGet {} y.layers l).temp15) → y.stoppedHeat = true) ∧
    ((∀ l, l < 16 → (tabGet {} y.layers l).temp15 < 1425000) → y.stoppedHeat = false) ∧
    (∀ l, l < 16 → ((tabGet {} y.layers l).alarm = true ↔ 1500000 < (tabGet {} y.layers l).temp15)) ∧
    ((∀ l, l < 16 → (tabGet {} y.layers l).alarm = true → (tabGet {} (getStack s n).layers l).alarm = true) →
      StackBecomes s t n y) ∧
    (∀ l, l < 16 → (tabGet {} y.layers l).alarm = true → (tabGet {} (getStack s n).layers l).alarm = false →
      ∃ e ∈ t.faults.unlogged, e.code = 0x0602 ∧ e.site = stackSite n ∧ e.unit = l)) ∧
  (∀ s n r, hasStack s n = true → released s 6 = false → exec (.layerModelTick n r) s = .next s) ∧
  (∀ b t, (1425000 < t → refreshBand b t = 3 ∨ 3 < b) ∧ (t < 945000 → refreshBand b t = 0) ∧
    (1395000 ≤ t → refreshBand 3 t = 3) ∧ (t < 1395000 → 1245000 ≤ t → refreshBand 3 t = 2)) ∧
  (∀ s n x l, hasStack s n = true →
    (x < 64 → l = tabGet {} (getStack s n).layers (x / 4) →
      (tabGet 0 l.offSince (x % 4) ≠ 0 → tabGet 0 l.offSince (x % 4) + 10000000 ≤ now s + 1 →
        l.suspect.contains (x % 4) = false → ∃ t e, exec (.stackSensorSuspect n x) s = .next t ∧
        t = { s with stackTab := t.stackTab, faults := t.faults } ∧
        x % 4 ∈ (tabGet {} (getStack t n).layers (x / 4)).suspect ∧ t.faults.unlogged = s.faults.unlogged ++ [e] ∧
        e.code = 0x0601 ∧ e.site = stackSite n ∧ e.unit = x) ∧
      (tabGet 0 l.offSince (x % 4) = 0 ∨ now s + 1 < tabGet 0 l.offSince (x % 4) + 10000000 →
        exec (.stackSensorSuspect n x) s = .next s)) ∧
    (64 ≤ x → x < 68 → ∃ t, exec (.stackSensorSuspect n x) s = .next t ∧
      StackBecomes s t n { getStack s n with baseSuspect := insertNat (x - 64) (getStack s n).baseSuspect }) ∧
    (68 ≤ x → ∃ t, exec (.stackSensorSuspect n x) s = .next t ∧
      StackBecomes s t n { getStack s n with regSuspect := insertNat (x - 68) (getStack s n).regSuspect })) ∧
  (∀ s n k, hasStack s n = true → ∃ m t, exec (.railFault n k) s = .next t ∧
    StackBecomes s m n { getStack s n with stoppedRail := true } ∧
    Raises m t (fun e => e.code = 0x0602 ∧ e.site = stackSite n ∧ e.unit = k))

/-- O49. A timeout of a crossing that serves or is being parked, one of whose clocks has stopped for 64 periods or comes
from outside: at a stack or a quay it becomes FAILED, every request that would pass it is ended, fault event 0x0404
names its two blocks and the site is probed; a link whose clock is gone enters link reset; between a region and its
engine the engine reset of rung 2 begins; between two regions or at a berth port the berth is reset by rung 3; at the
always-on domain, a Harbourmaster or PCIe the module resets after a crash dump (log entry 24). A PARKED or FAILED
crossing, one whose clocks run, or two blocks that share none, changes nothing. A generator that loses lock while REF
is good stops its clock; the controller of a lit Lighthouse so faults it, and PCLK resets the module (log entry 91). A
window of REF with 12736 to 12864 edges is good; a bad one in reference mode or once REF has passed, and the tenth bad
one of a start, is the clock failure reset. Tide never goes back at a change of mode; the change to reference mode
needs the ports' clocks and loads the replicas. -/
def Obligations.ClocksFailByTheirCrossings : Prop :=
  (∀ s c lo hi, hasBlock s c.a = true → hasBlock s c.b = true → lo = min c.a c.b → hi = max c.a c.b →
    (isCrossing c.a c.b = false ∨ getCrossing s c.a c.b = .parked ∨ getCrossing s c.a c.b = .failed ∨
      watchExpired s c.a c.b = false → exec (.crossingTimeout c) s = .next s) ∧
    (isCrossing c.a c.b = true → getCrossing s c.a c.b = .active ∨ getCrossing s c.a c.b = .parking →
      watchExpired s c.a c.b = true →
      (∀ k, lo = 3 → (∃ n, domKind hi = .stack n ∧ k = stackSite n) ∨ (∃ q, domKind hi = .quay q ∧ k = quaySite q) →
        ∃ t, exec (.crossingTimeout c) s = .next t ∧ getCrossing t c.a c.b = .failed ∧ t.mem = s.mem ∧
          (∀ o ∈ t.reqs.out, o.held = true ∨ passes c.a c.b (pathDoms s o) = false) ∧
          ((getSite t k).probing = true ∨ (getSite t k).dead = true) ∧
          (s.reqs.early = [] → ∃ f, t.faults.unlogged = s.faults.unlogged ++ [f] ∧ f.code = 0x0404 ∧ f.site = k ∧
            f.arg = lo + hi * 65536)) ∧
      (isLinkBlock hi = true → ∃ t, exec (.crossingTimeout c) s = .next t ∧ getCrossing t c.a c.b = .failed ∧
        (getLink t (hi - 0x600)).state = .linkReset ∧ ∃ f ∈ t.faults.unlogged, f.code = 0x0404 ∧ f.arg = lo + hi * 65536) ∧
      (∀ b e x y, (domKind lo = .region b x ∧ domKind hi = .engine y e) ∨ (lo = 3 ∧ domKind hi = .engine b e) →
        ∃ t, exec (.crossingTimeout c) s = .next t ∧ getCrossing t c.a c.b = .failed ∧
          (getEngine t b e).resetting = true ∧ (2, engKey b e, e, now s) ∈ t.recovery.rungs ∧
          ∃ f ∈ t.faults.unlogged, f.code = 0x0404 ∧ f.arg = lo + hi * 65536) ∧
      (∀ b e x y, (domKind lo = .region b x ∧ domKind hi = .region y e) ∨ (lo = 3 ∧ domKind hi = .region b e) →
        ∃ t, exec (.crossingTimeout c) s = .next t ∧
          (∀ p, berthPart s b = some p → s.rst.ready = true → (getPart t p).resetting = true) ∧
          (berthPart s b = none → ∀ k, k < 8 → (getCtx t (8 * b + k)).state = .closed)) ∧
      (lo < 3 ∨ hi = 4 → ∃ t, exec (.crossingTimeout c) s = .next t ∧ AfterReset s t 0x11 ∧
        t.recovery.dumpCount = s.recovery.dumpCount + 1))) ∧
  (∀ s d, hasGenerator s d = true →
    (s.tide.refGood = false ∨ s.tide.refRunning = false ∨ clockStopped s d = true →
      exec (.generatorLockLoss d) s = .next s) ∧
    (s.tide.refGood = true → s.tide.refRunning = true → clockStopped s d = false →
      (domKind d ≠ .lighthouse → d ≠ pclkBlock → exec (.generatorLockLoss d) s =
        .next { s with tide := { s.tide with stoppedGens := s.tide.stoppedGens ++ [(d, now s)] } }) ∧
      (d = pclkBlock → ∃ t, exec (.generatorLockLoss d) s = .next t ∧ AfterReset s t 0x11 ∧
        t.recovery.dumpCount = s.recovery.dumpCount + 1) ∧
      (∀ b e, domKind d = .lighthouse → lighthouseOf d = .engine b e (getEngine s b e).lhActive → hasEngine s b e = true →
        released s 4 = true → exec (.generatorLockLoss d) s = exec (.lighthouseFault b e) s) ∧
      (∀ k, domKind d = .lighthouse → lighthouseOf d = .fabric k (getPort s k).lhActive → hasSite s k = true →
        exec (.generatorLockLoss d) s = exec (.fabricLighthouseFault k) s) ∧
      (∀ q, domKind d = .lighthouse → lighthouseOf d = .link q (getQuayLh s q).lhActive → q < 8 →
        exec (.generatorLockLoss d) s = exec (.linkLighthouseFault q) s))) ∧
  (∀ s n, s.tide.refRunning = true →
    (12736 ≤ n → n ≤ 12864 → exec (.refCheckWindow n false) s = .next { s with tide :=
      { s.tide with refGood := true, refTries := 0 } }) ∧
    (∀ m, n < 12736 ∨ 12864 < n ∨ m = true →
      (s.tide.mode = .reference → ∃ t, exec (.refCheckWindow n m) s = .next t ∧ t.tide.mode = .alwaysOn ∧
        t.tide.locked = false ∧ s.tide.count ≤ t.tide.count ∧ t.rst.ready = false ∧
        t.rst.cause = (if s.rst.ready = true then 7 else s.rst.cause)) ∧
      (s.tide.mode = .alwaysOn → s.tide.refGood = true → ∃ t, exec (.refCheckWindow n m) s = .next t ∧ AfterReset s t 7) ∧
      (s.tide.mode = .alwaysOn → s.tide.refGood = false → s.tide.refTries < 9 → exec (.refCheckWindow n m) s = .next { s with tide :=
        { s.tide with refGood := false, locked := false, refTries := s.tide.refTries + 1 } }) ∧
      (s.tide.mode = .alwaysOn → 9 ≤ s.tide.refTries → ∃ t, exec (.refCheckWindow n m) s = .next t ∧ AfterReset s t 7))) ∧
  (∀ s n m, s.tide.refRunning = false → exec (.refCheckWindow n m) s = .next s) ∧
  (∀ s n, (s.tide.mode = .reference → s.tide.refRunning = false ∨ s.tide.refGood = false →
      ∃ t, exec (.tideModeAlwaysOn n) s = .next t ∧ t = { s with tide := { s.tide with
          count := t.tide.count
          mode := .alwaysOn
          loaded := [] } } ∧ s.tide.count ≤ t.tide.count ∧ s.tide.latchAo + 500 * n * 2 ^ 32 ≤ t.tide.count) ∧
    (s.tide.mode = .alwaysOn ∨ (s.tide.refRunning = true ∧ s.tide.refGood = true) →
      exec (.tideModeAlwaysOn n) s = .next s)) ∧
  (∀ s, (s.tide.mode = .alwaysOn → s.tide.refRunning = true → s.tide.refGood = true → portsLocked s = true →
      ∃ t, exec .tideModeReference s = .next t ∧ t = { s with tide := { s.tide with
          mode := .reference
          locked := true
          latchAo := s.tide.count
          aoPhase := 0
          loaded := t.tide.loaded } } ∧
        (∀ d, d = 3 ∨ d = 4 ∨ d = 1 + s.recovery.active ∨ (∃ q, q < 8 ∧ d = quayDom q) ∨ (∃ n, n < 4 * s.ident.part ∧ d = stackDom n) →
          (getDomain s d).state = .on → ∀ k ∈ replicaHolders d, k ∈ t.tide.loaded)) ∧
    (s.tide.mode = .reference ∨ s.tide.refRunning = false ∨ s.tide.refGood = false ∨ portsLocked s = false →
      exec .tideModeReference s = .next s))

/-- O50. A READY module whose controlled domains are all off or in retention, with PCIe in retention, sleeps once the
crossings of the Harbourmasters and the base fabric are parked: those go into retention, memory and contexts are
unchanged, and REF stops exactly on a harbour of one. A wake source that is active on a sleeping module ends the
sleep, records the Tide, one more wake, the lowest code and the mask of the sources of that edge, and returns the
Harbourmasters and the base fabric; sources 2 and 3 are active only while PCIe is in retention and return it, source 4
while its quay is, source 5 once Tide has reached an armed alarm, which it disarms. A source that is not active, or
one on a module awake, changes nothing. An access through the management port wakes only outside its always-on block.
A press of the button is source 7; held 3 s after READY it opens a window of 120 s, which closes at its end. -/
def Obligations.ModuleSleepsAndWakes : Prop :=
  (∀ s m, m = [1, 2, 3].foldl parkDomain s →
    (s.rst.ready = true → s.io.asleep = false → maySleep s = true → (∀ d, d ∈ [1, 2, 3] → parkable m d = true) →
      ∃ t, exec .moduleSleep s = .next t ∧ t.io = { s.io with asleep := true } ∧
        (∀ d, d = 1 ∨ d = 2 ∨ d = 3 → (getDomain t d).state = .retention) ∧
        (∀ d, d ≠ 1 → d ≠ 2 → d ≠ 3 → getDomain t d = getDomain s d) ∧
        (harbourSize s = 1 → t.tide.refRunning = false ∧ t.tide.locked = false ∧ t.tide.count = s.tide.count) ∧
        (harbourSize s ≠ 1 → t.tide = { s.tide with loaded := t.tide.loaded }) ∧
        t = { s with domains := t.domains, crossings := t.crossings, io := t.io, tide := t.tide }) ∧
    (s.rst.ready = false ∨ s.io.asleep = true ∨ maySleep s = false ∨ (∃ d, d ∈ [1, 2, 3] ∧ parkable m d = false) →
      exec .moduleSleep s = .next s)) ∧
  (∀ s code same q, q < 8 →
    (s.io.asleep = false → exec (.wake code same q) s = .next s) ∧
    (code = 0 ∨ 7 < code → exec (.wake code same q) s = .next s) ∧
    (code = 2 ∨ code = 3 → (getDomain s 4).state ≠ .retention → exec (.wake code same q) s = .next s) ∧
    (code = 4 → (getDomain s (quayDom q)).state ≠ .retention → exec (.wake code same q) s = .next s) ∧
    (code = 5 → (∀ v, s.tide.alarm = some v → now s < v) → exec (.wake code same q) s = .next s) ∧
    (s.io.asleep = true → (code = 1 ∨ code = 6 ∨ code = 7) ∨ (code = 5 ∧ ∃ v, s.tide.alarm = some v ∧ v ≤ now s) ∨ ((code = 2 ∨ code = 3) ∧ (getDomain s 4).state = .retention) ∨
        (code = 4 ∧ (getDomain s (quayDom q)).state = .retention) →
      ∃ t, exec (.wake code same q) s = .next t ∧ t.io.asleep = false ∧ t.io.wakeTide = now s ∧
        t.io.wakeCount = s.io.wakeCount + 1 ∧ t.io.wakeCode ≤ code ∧ t.io.wakeCode ∈ code :: same ∧
        t.io.wakeMask.getLsbD (code - 1) = true ∧ (same = [] → t.io.wakeMask = BitVec.ofNat 7 (2 ^ (code - 1))) ∧
        t.tide = { s.tide with refRunning := true, refTries := 0, alarm := t.tide.alarm } ∧
        (code = 5 → t.tide.alarm = none) ∧ (code ≠ 5 → 5 ∉ same → t.tide.alarm = s.tide.alarm) ∧
        (∀ d, d = 1 ∨ d = 2 ∨ d = 3 → (getDomain s d).state = .retention → (getDomain s d).busy = none →
          (getDomain s d).queue = [] → (getDomain t d).busy = some .on) ∧
        (code = 2 ∨ code = 3 → (getDomain s 4).busy = none → (getDomain s 4).queue = [] →
          (getDomain t 4).busy = some .on) ∧
        (code = 4 → (getDomain s (quayDom q)).busy = none → (getDomain s (quayDom q)).queue = [] →
          (getDomain t (quayDom q)).busy = some .on) ∧
        t = { s with domains := t.domains, crossings := t.crossings, io := t.io, tide := t.tide })) ∧
  (∀ s off, (0x40 ≤ off → s.io.asleep = true → ∃ t, exec (.mpAddressMatchWake off) s = .next t ∧ t.io.asleep = false ∧
      t.io.wakeCode = 1 ∧ t.io.wakeMask = 1 ∧ t.io.wakeCount = s.io.wakeCount + 1) ∧
    (off < 0x40 ∨ s.io.asleep = false → exec (.mpAddressMatchWake off) s = .next s)) ∧
  (∀ s, ∃ t, exec .presenceButtonPress s = .next t ∧ t.sec = { s.sec with buttonSince := some (now s) } ∧
    t.io.asleep = false ∧ (s.io.asleep = true → t.io.wakeCode = 7 ∧ t.io.wakeMask = 64) ∧
    (s.io.asleep = false → t = { s with sec := t.sec })) ∧
  (∀ s, (∀ b, s.sec.buttonSince = some b → s.rst.ready = true → b + 3000000000 ≤ now s →
      s.rst.readyTide + 3000000000 ≤ now s → exec .presenceHold s = .next { s with sec :=
        { s.sec with window := some (now s + 120000000000), buttonSince := none } }) ∧
    (∀ b, s.sec.buttonSince = some b → s.rst.ready = false ∨ now s < b + 3000000000 ∨
      now s < s.rst.readyTide + 3000000000 → exec .presenceHold s = .next s) ∧
    (s.sec.buttonSince = none → exec .presenceHold s = .next s) ∧
    (∀ w, s.sec.window = some w → w ≤ now s → exec .presenceWindowExpiry s = .next { s with sec :=
        { s.sec with window := none } }) ∧
    (∀ w, s.sec.window = some w → now s < w → exec .presenceWindowExpiry s = .next s) ∧
    (s.sec.window = none → exec .presenceWindowExpiry s = .next s))

/-- O51. A new input voltage is recorded with its range of Table 13-1, and the energy of the store is reckoned up to now:
it never exceeds 19.66 J, and falls while the stage does not convert. Below 680 V or above 920 V the stage stops
converting, with one fault event 0x0405 for the dip that gives the voltage in 0.1 V; in 680 to 720 V and 880 to 920 V
a converting stage goes on and reports once, on entering the range. Conversion resumes in 700 to 910 V with the
interlock closed and no brown-out reset begun. An open interlock stops conversion. Brown-out, only while the store
carries the load, is the module reset of source 0x02, with every region, engine, stack and quay off; a new start needs
100 ms in 720 to 880 V, begun within 25 s of the failure of the bus, gives the domains their supply and sets time 0.
The always-on store is exhausted no sooner than 20 s after that failure, and not where the input had returned by then:
it takes the always-on domain down, and pre-charge brings it back with the power-on reset, whose Tide and tags are 0.
A step whose condition does not hold changes nothing. -/
def Obligations.InputVoltageAndBrownOut : Prop :=
  (∀ s v, ∃ t, exec (.inputVoltageChange v) s = .next t ∧ t = { s with power := t.power, faults := t.faults } ∧
    t.power.millivolts = v ∧ t.power.interlockClosed = s.power.interlockClosed ∧ t.power.brownOut = s.power.brownOut ∧
    t.power.store = storeNow s ∧ t.power.storeAt = now s ∧
    (s.power.converting = true → storeNow s ≤ 19662720000000) ∧ (s.power.converting = false → storeNow s ≤ s.power.store) ∧
    (v < 680000 ∨ 920000 < v → t.power.converting = false ∧ t.power.goodSince = none ∧
      (s.power.converting = true → s.power.dip = false → t.power.dip = true ∧
        ∃ e, t.faults.unlogged = s.faults.unlogged ++ [e] ∧ e.code = 0x0405 ∧ e.arg = v / 100) ∧
      (s.power.converting = false → t.faults = s.faults)) ∧
    (680000 ≤ v → v ≤ 920000 → t.power.converting = s.power.converting) ∧
    (720000 ≤ v → v ≤ 880000 → t.power.range = .normal ∧ t.faults = s.faults ∧
      (s.power.goodSince = none → t.power.goodSince = some (now s))) ∧
    (680000 ≤ v → v < 720000 → t.power.range = .low ∧ t.power.goodSince = none ∧
      (s.power.converting = true → s.power.range ≠ .low →
        ∃ e, t.faults.unlogged = s.faults.unlogged ++ [e] ∧ e.code = 0x0405 ∧ e.arg = v / 100) ∧
      (s.power.range = .low → t.faults = s.faults)) ∧
    (880000 < v → v ≤ 920000 → t.power.range = .high ∧ (s.power.range = .high → t.faults = s.faults) ∧
      (s.power.converting = true → s.power.range ≠ .high →
        ∃ e, t.faults.unlogged = s.faults.unlogged ++ [e] ∧ e.code = 0x0405 ∧ e.arg = v / 100))) ∧
  (∀ s, (s.power.converting = false → s.power.interlockClosed = true → s.power.charged = true → s.power.alwaysOn = true →
      s.power.brownOut = false → 700000 ≤ s.power.millivolts → s.power.millivolts ≤ 910000 →
      ∃ t, exec .conversionResume s = .next t ∧ t = { s with power := t.power, faults := t.faults } ∧
        t.power = { s.power with converting := true, dip := false, store := storeNow s, storeAt := now s }) ∧
    (s.power.converting = true ∨ s.power.interlockClosed = false ∨ s.power.brownOut = true ∨ s.power.millivolts < 700000 ∨
      910000 < s.power.millivolts → exec .conversionResume s = .next s) ∧
    (∃ t, exec .interlockOpen s = .next t ∧ t = { s with power := t.power, faults := t.faults } ∧
      t.power.interlockClosed = false ∧ t.power.converting = false ∧
      (s.power.converting = false → t.faults = s.faults)) ∧
    exec .interlockClose s = .next { s with power := { s.power with interlockClosed := true } }) ∧
  (∀ s, (s.power.converting = false → s.power.brownOut = false → ∃ t, exec .brownOut s = .next t ∧ AfterReset s t 2 ∧
      t.power = { s.power with
          brownOut := true
          charged := false
          store := 0
          storeAt := now s
          busFailed := some (now s) } ∧
      (∀ b e, b < 8 → e < 16 → (getDomain t (regionDom b e)).state = .off ∧ (getDomain t (engineDom b e)).state = .off) ∧
      (∀ n, n < 32 → (getDomain t (stackDom n)).state = .off) ∧ (∀ q, q < 8 → (getDomain t (quayDom q)).state = .off) ∧
      (s.tide.refRunning = false → t.tide.mode = .alwaysOn) ∧ (s.tide.refRunning = true → t.tide.mode = s.tide.mode)) ∧
    (s.power.converting = true ∨ s.power.brownOut = true → exec .brownOut s = .next s) ∧
    (∀ g, s.power.brownOut = true → s.power.alwaysOn = true → s.power.interlockClosed = true →
      s.power.goodSince = some g →
      (g + 100000000 ≤ now s → (∀ f, s.power.busFailed = some f → g ≤ f + 25000000000) → exec .newStart s = .next { s with
        domains := []
        power := { s.power with
          brownOut := false
          charged := true
          converting := true
          dip := false
          store := 19662720000000
          storeAt := now s
          busFailed := none }
        rst := { s.rst with time0 := now s } }) ∧
      (now s < g + 100000000 ∨ (∃ f, s.power.busFailed = some f ∧ f + 25000000000 < g) → exec .newStart s = .next s)) ∧
    (s.power.brownOut = false ∨ s.power.goodSince = none → exec .newStart s = .next s) ∧
    (∀ f, s.power.brownOut = true → s.power.busFailed = some f →
      (f + 20000000000 ≤ now s → (∀ g, s.power.goodSince = some g → f + 20000000000 < g) →
        exec .alwaysOnStoreExhausted s = .next { s with power := { s.power with alwaysOn := false, cycleReq := false } }) ∧
      (now s < f + 20000000000 ∨ (∃ g, s.power.goodSince = some g ∧ g ≤ f + 20000000000) →
        exec .alwaysOnStoreExhausted s = .next s)) ∧
    (s.power.brownOut = false → exec .alwaysOnStoreExhausted s = .next s)) ∧
  (∀ s, (s.power.alwaysOn = false → s.power.interlockClosed = true → s.power.range ≠ .below → s.power.range ≠ .above →
      ∃ t, exec .preCharge s = .next t ∧ t.power.alwaysOn = true ∧ t.power.charged = true ∧ t.power.converting = true ∧
        t.power.brownOut = false ∧ t.power.store = 19662720000000 ∧ t.rst.cause = 1 ∧ t.rst.mask = 1 ∧ t.rst.resets = 0 ∧ t.rst.step = 1 ∧
        t.rst.ready = false ∧ t.tide = {} ∧ (∀ c, c < 64 → getCtx t c = {}) ∧ (∀ k, k < 49 → (getSite t k).epoch = 0) ∧
        (∀ a, readByte t a = 0) ∧ (∀ b i, getCounter t b i = 0) ∧ t.sec.sealed = false ∧
        (s.sec.erasePending = false → t.sec.keys = s.sec.keys ∧ t.faults.log = s.faults.log) ∧
        (s.sec.erasePending = true → t.sec.keys = [] ∧ t.faults.log = [] ∧ t.recovery.dumps = [])) ∧
    (s.power.alwaysOn = true ∨ s.power.interlockClosed = false ∨ s.power.range = .below ∨ s.power.range = .above →
      exec .preCharge s = .next s))

/-- O52. Once boot has released the berths, LIMITER_TICK limits a berth exactly while its power is above its cap.
POWER_CAP_TICK below the reset limits: a berth read once has its factor of Table 13-6, in 0.25 to 1, its cap by R409
and R419, its throttle in 1/64 to 1, each region its temperature, its band, and a step limit by the throttle; the
berth's temperature is at least every region's; the alarm is by R417; memory is unchanged. The Harbourmaster area at
100 degC or the inlet at 55 degC resets the module. A sensor that has differed from its model for 10 ms becomes
suspect with fault event 0x0601, before that it does not; the figure of a suspect one beneath no berth is its model.
FLOW_REQUEST_TICK asks for the full flow while a fault, an alarm or a throttle holds, otherwise for the flow of R413.
A cooling fault follows 1 s of its condition and clears after 10 s without. At 105 degC a berth stops and resets;
below 85 degC it returns with its epoch one higher. The always-on sample raises the alarm and wakes a sleeping module. -/
def Obligations.HeatCapsThrottlesAndStops : Prop :=
  (∀ s b p, hasBerth s b = true → (released s 7 = true → ∃ t, exec (.limiterTick b p) s = .next t ∧
      BerthBecomes s t b { getBerth s b with power := p, limiting := decide ((getBerth s b).cap < p) }) ∧
    (released s 7 = false → exec (.limiterTick b p) s = .next s)) ∧
  (∀ s r hm, hm = maxInt 0 ((List.range 4).map (fun i => areaFigure s r (8 + i))) →
    (100000 ≤ hm ∨ 55000 ≤ r.tIn → ∃ t, exec (.powerCapTick r) s = .next t ∧ AfterReset s t 0x10) ∧
    (hm < 100000 → r.tIn < 55000 → ∃ t, exec (.powerCapTick r) s = .next t ∧ t.mem = s.mem ∧
      ((∀ q, q < 8 → areaFigure s r q < 105000) → t.ctxs = s.ctxs) ∧
      t.thermal.tIn = r.tIn ∧ t.thermal.tOut = r.tOut ∧ t.thermal.hmTemp = hm ∧ t.thermal.alarm = alarmHolds t ∧
      (∀ b x, hasBerth s b = true → r.berths.filter (fun y => y.berth == b) = [x] →
        (getBerth t b).power = x.power ∧ (getBerth t b).factor = capFactor t b ∧ 250000 ≤ (getBerth t b).factor ∧
        (getBerth t b).factor ≤ 1000000 ∧
        (getBerth t b).cap = min (min 900000 (x.power + 168000 / 2 ^ rampCode s b)) (900000 * (getBerth t b).factor / 1000000) ∧
        1 ≤ (getBerth t b).throttle ∧ (getBerth t b).throttle ≤ 64 ∧
        ((getBerth t b).cap = 900000 → (getBerth t b).throttle = 64) ∧
        (∀ e, e < 16 → (getRegion t b e).band = nextBand (getRegion s b e).band (getRegion t b e).temp ∧
          (getRegion t b e).temp ≤ (getBerth t b).th ∧ (getRegion t b e).step = (getRegion s b e).step ∧
          (getRegion t b e).powerStep = stepFor (getBerth t b).throttle)))) ∧
  (∀ s b i, hasBerth s b = true → i < 134 → b ≠ 8 →
    (tabGet 0 (getBerth s b).offSince i = 0 ∨ now s + 1 < tabGet 0 (getBerth s b).offSince i + 10000000 →
      exec (.dieSensorSuspect b i) s = .next s) ∧
    (tabGet 0 (getBerth s b).offSince i ≠ 0 → tabGet 0 (getBerth s b).offSince i + 10000000 ≤ now s + 1 →
      (getBerth s b).suspect.contains i = false → ∃ m t, exec (.dieSensorSuspect b i) s = .next t ∧
        BerthBecomes s m b { getBerth s b with suspect := insertNat i (getBerth s b).suspect } ∧
        Raises m t (fun e => e.code = 0x0601 ∧ e.site = b ∧ e.unit = i))) ∧
  (∀ s i x, i < 16 → x = tabGet 0 s.thermal.areaSince i →
    (x = 0 ∨ now s + 1 < x + 10000000 → exec (.dieSensorSuspect 8 i) s = .next s) ∧
    (x ≠ 0 → x + 10000000 ≤ now s + 1 → s.thermal.suspect.contains i = false →
      ∃ m t, exec (.dieSensorSuspect 8 i) s = .next t ∧
        m = { s with thermal := { s.thermal with suspect := insertNat i s.thermal.suspect } } ∧
        Raises m t (fun e => e.code = 0x0601 ∧ e.site = (if i < 8 then quaySite i else hmSite) ∧ e.unit = i))) ∧
  (∀ s r i, (s.thermal.suspect.contains i = true → areaFigure s r i = r.tOut + ((areaSite r i / 20 : Nat) : Int)) ∧
    (s.thermal.suspect.contains i = false → areaFigure s r i = areaReading r i)) ∧
  (∀ s p i o, s.thermal.hmTemp < 100000 → i < 55000 → ∃ t, exec (.flowRequestTick p i o) s = .next t ∧
    t = { s with thermal := t.thermal, power := { s.power with store := storeNow s, storeAt := now s } } ∧
    t.thermal.tIn = i ∧ t.thermal.tOut = o ∧ t.thermal.powerIn = p ∧
    (s.thermal.alarm = true ∨ s.thermal.coolingFault = true ∨ (∃ b, b < s.ident.part ∧ throttled s b = true) →
      t.thermal.flowReq = 200) ∧
    (s.thermal.alarm = false → s.thermal.coolingFault = false → (∀ b, b < s.ident.part → throttled s b = false) →
      t.thermal.flowReq = min 200 (max 40 (ceilDiv (152 * p) 10000000))) ∧
    (t.thermal.lowSince ≠ none ↔ lowFlow s p i o = true) ∧ (t.thermal.hotSince ≠ none ↔ hotBase s = true) ∧
    t.thermal.summary = BitVec.ofNat 64 (thermSummary t)) ∧
  (∀ s why since, since = (match why with
      | .lowFlow => s.thermal.lowSince
      | .hotBase => s.thermal.hotSince) →
    (∀ c, since = some c → c + 1000000000 ≤ now s → s.thermal.coolingFault = false → ∃ m t,
      exec (.coolingFault why) s = .next t ∧ m = { s with thermal :=
        { s.thermal with coolingFault := true, flowReq := 200 } } ∧ Raises m t (fun e => e.code = 0x0602 ∧ e.site = 0xFF)) ∧
    (∀ c, since = some c → now s < c + 1000000000 → exec (.coolingFault why) s = .next s) ∧
    (since = none → exec (.coolingFault why) s = .next s)) ∧
  (∀ s, (∀ c, s.thermal.clearSince = some c → c + 10000000000 ≤ now s → exec .coolingFaultClear s = .next { s with
      thermal := { s.thermal with coolingFault := false } }) ∧
    (∀ c, s.thermal.clearSince = some c → now s < c + 10000000000 → exec .coolingFaultClear s = .next s) ∧
    (s.thermal.clearSince = none → exec .coolingFaultClear s = .next s)) ∧
  (∀ s b, hasBerth s b = true →
    ((getBerth s b).th < 105000 ∨ (getBerth s b).stopped = true ∨ (getBerth s b).hold = true →
      exec (.berthShutdown b) s = .next s) ∧
    (105000 ≤ (getBerth s b).th → (getBerth s b).stopped = false → (getBerth s b).hold = false →
      ∃ t, exec (.berthShutdown b) s = .next t ∧ (getBerth t b).stopped = true ∧
        (∃ e ∈ t.faults.unlogged, e.code = 0x0602 ∧ e.site = b) ∧
        (berthPart s b = none → (getBerth t b).hold = true ∧ (getSite t b).epoch = (getSite s b).epoch + 1 ∧
          ∀ k, k < 8 → (getCtx t (8 * b + k)).state = .closed) ∧
        (∀ p, berthPart s b = some p → s.rst.ready = true → (getPart s p).resetting = false →
          (getPart t p).resetting = true ∧ (getPart t p).cause = 1 ∧ (getPart t p).gen = (getPart s p).gen + 1) ∧
        (∀ p, berthPart s b = some p → s.rst.ready = false → (getBerth t b).hold = true ∧
          t.sec.droppedSources = s.sec.droppedSources + 1)) ∧
    (∀ v, (getBerth s b).hold = true → v < 85000 → ∃ t, exec (.thermalHoldEnd b v) s = .next t ∧
      getBerth t b = { getBerth s b with hold := false, stopped := false, th := v } ∧
      (getSite t b).epoch = (getSite s b).epoch + 1 ∧ .epoch b ((getSite s b).epoch + 1) ∈ t.sent ∧ t.mem = s.mem) ∧
    (∀ v, (getBerth s b).hold = false ∨ 85000 ≤ v → exec (.thermalHoldEnd b v) s = .next s)) ∧
  (∀ s hm i o, (s.io.asleep = false → exec (.alwaysOnThermalSample hm i o) s = .next s) ∧
    (s.io.asleep = true → 45000 ≤ i ∨ 85000 ≤ o ∨ (∃ x ∈ hm, 85000 ≤ x) →
      ∃ t, exec (.alwaysOnThermalSample hm i o) s = .next t ∧ t.thermal.alarm = true ∧ t.io.asleep = false ∧
        t.io.wakeCode = 6 ∧ (s.thermal.alarm = false → ∃ e, t.faults.unlogged = s.faults.unlogged ++ [e] ∧
          e.code = 0x0602)) ∧
    (s.io.asleep = true → i < 45000 → o < 85000 → (∀ x ∈ hm, x < 85000) →
      ∃ t, exec (.alwaysOnThermalSample hm i o) s = .next t ∧ t = { s with thermal := t.thermal } ∧
        t.thermal.alarm = s.thermal.alarm ∧ t.thermal.tIn = i ∧ t.thermal.tOut = o))

/-- O53. On a module with its supplies, RESET_N low for 1 us, the watchdog, a lock-up of both Harbourmasters, RESET_REQ
written by the physical function with REQ and its key, and the JTAG instruction while debug is enabled are module
resets of their source codes; the watchdog and the lock-up write a crash dump first; RESET_N holds the module until it
rises, which sets time 0. Any other write of RESET_REQ changes nothing; in a harbour of 5 or more with a master it
announces a reset at least 1 ms ahead, at which the module and its links are to go into reset. A PCI Express reset
ends every context whose rings lie in host memory, as CTX_ABORT does, and no other context, and disables the virtual
functions; memory stays. A function-level reset of a virtual function and PARTITION_RESET begin the partition reset of
their cause; during a module reset the source is dropped and counted, one for a partition in reset joins it. Its end
releases the partition, sends its berths' epochs and puts a berth that was shut down for heat into its hold. -/
def Obligations.ResetSourcesReset : Prop :=
  (∀ s n, (s.rst.heldByPin = true → exec (.resetN true n) s =
      .next { s with rst := { s.rst with heldByPin := false, time0 := now s } }) ∧
    (s.rst.heldByPin = false → exec (.resetN true n) s = .next s) ∧
    (1000 ≤ n → s.rst.heldByPin = false → s.power.alwaysOn = true → ∃ t, exec (.resetN false n) s = .next t ∧
      AfterReset s t 3 ∧ t.rst.heldByPin = true) ∧
    (n < 1000 ∨ s.rst.heldByPin = true ∨ s.power.alwaysOn = false → exec (.resetN false n) s = .next s)) ∧
  (∀ s, powered s = true →
    (∃ t, exec .watchdog s = .next t ∧ AfterReset s t 4 ∧ t.recovery.dumpCount = s.recovery.dumpCount + 1) ∧
    (∃ t, exec .hmLockup s = .next t ∧ AfterReset s t 8 ∧ t.recovery.dumpCount = s.recovery.dumpCount + 1) ∧
    (∀ v : W64, s.rst.pcieUp = true → v.getLsbD 63 = true → v.toNat % 0x10000 = 0x5253 →
      (harbourSize s ≤ 4 ∨ s.harbour.noMaster = true →
        ∃ t, exec (.resetReq 0 v) s = .next t ∧ AfterReset s t 5 ∧ t.recovery.dumpCount = s.recovery.dumpCount) ∧
      (5 ≤ harbourSize s → s.harbour.noMaster = false → s.harbour.resetAt = none → ∃ t a,
        exec (.resetReq 0 v) s = .next t ∧ t.harbour.resetAt = some a ∧ now s + 1000000 ≤ a ∧ t.rst = s.rst ∧ t.mem = s.mem ∧
        t.ctxs = s.ctxs ∧ (∀ k, (getLink s k).state ≠ .disabled → getLink t k = { getLink s k with entryAt := some a }) ∧
        (isMaster s = true → ∀ m ∈ memberList s, m ≠ ownPos s → .entry m (linkOf m (ownPos s)) a ∈ t.sent) ∧
        (isMaster s = false → t.sent = s.sent ++ [.planned (ownPos s) a])) ∧
      (5 ≤ harbourSize s → s.harbour.noMaster = false → s.harbour.resetAt.isSome = true →
        exec (.resetReq 0 v) s = .next s)) ∧
    (s.sec.debug = true → ∃ t, exec .jtagResetInstruction s = .next t ∧ AfterReset s t 6) ∧
    (s.sec.debug = false → exec .jtagResetInstruction s = .next s)) ∧
  (∀ s fn (v : W64), fn ≠ 0 ∨ v.getLsbD 63 = false ∨ v.toNat % 0x10000 ≠ 0x5253 ∨ s.rst.pcieUp = false →
    exec (.resetReq fn v) s = .next s) ∧
  (∀ s k, powered s = true → s.rst.pcieUp = true → ∃ t, exec (.pcieHotReset k) s = .next t ∧ t.mem = s.mem ∧
    t.rst = s.rst ∧ t.io.msix = [] ∧ t.io.numVFs = 0 ∧ (∀ c, c < 64 →
      ((getCtx s c).state ≠ .closed → (getCtx s c).place ≠ 0 → (getCtx t c).state = .closed ∧ (getCtx t c).flight = [] ∧
        (getCtx t c).gen = (getCtx s c).gen + 1) ∧
      ((getCtx s c).state = .closed ∨ (getCtx s c).place = 0 → getCtx t c = getCtx s c))) ∧
  (∀ s p vf, powered s = true → p < 8 →
    (vfPart s vf = some p → fnPresent s vf = true → 1 ≤ vf → vf ≤ 8 → s.rst.pcieUp = true → s.rst.ready = true → (getPart s p).resetting = false →
      ∃ t, exec (.vfFlr vf) s = .next t ∧ PartReset s t p 3 ∧ ∀ v, v < 128 → tabGet {} t.io.msix (vf * 128 + v) = {}) ∧
    (vfPart s vf = none ∨ fnPresent s vf = false → 1 ≤ vf → vf ≤ 8 → exec (.vfFlr vf) s = .next s) ∧
    (∀ cause, 0x10 ≤ cause → cause ≤ 0x12 →
      ((partRecord s p).valid = true → s.rst.ready = true → (getPart s p).resetting = false → ∃ t, exec (.partitionReset p cause) s = .next t ∧
        PartReset s t p (cause - 0xF)) ∧
      ((partRecord s p).valid = true → s.rst.ready = true → (getPart s p).resetting = true →
        exec (.partitionReset p cause) s = .next s) ∧
      (s.rst.ready = false → exec (.partitionReset p cause) s = .next { s with sec :=
        { s.sec with droppedSources := s.sec.droppedSources + 1 } })) ∧
    (∀ cause, (partRecord s p).valid = false → s.rst.ready = true → exec (.partitionReset p cause) s = .next s)) ∧
  (∀ s p, p < 8 →
    ((getPart s p).resetting = true → ∃ t, exec (.partitionResetDone p) s = .next t ∧
      getPart t p = { getPart s p with resetting := false } ∧ (∀ q, q ≠ p → getPart t q = getPart s q) ∧
      (∀ b ∈ partBerths s p, .epoch b (getSite s b).epoch ∈ t.sent ∧
        ((getBerth s b).stopped = true → (getBerth t b).hold = true) ∧
        ((getBerth s b).stopped = false → (getBerth t b).hold = (getBerth s b).hold))) ∧
    ((getPart s p).resetting = false → exec (.partitionResetDone p) s = .next s))

/-- O54. A release step of Table 14-3 is taken only at its time after time 0, the steps of boot code only at stage B1;
step 8 latches HBR_POS and HBR_MEMBERS: position 0 is the master from power-on, otherwise the module returns as a
slave, and a harbour without position 0 has no master; a module without a valid place runs as a harbour of one, with
fault event 0x0503 when VALID was set; step 9 releases PCIe. Boot stages follow Tables 14-4 and 14-5: B0 goes on with
slot A or else B, and with neither to ROM recovery; B1 waits for the nine steps, B2 for lock, and PCIe then has
trained from the module's own REF (SRIS) exactly when REFCLK is absent or more than 300 ppm off; B3 fixes MOD_ID_REV;
B4 keeps every fabric lane that fails Table 09-6 out of its stripe; B5 stops when no image serves, and the floor never
falls; B7 draws a key for each partition; after B8 the Breakwater is sealed and the virtual functions are enabled; B9
reports every link that is down; B10 sets READY and checks the waiting mailboxes. A module not READY after 5 s resets,
and at the second time in a row requests a power cycle. -/
def Obligations.ReleaseAndBootByTheirTables : Prop :=
  (∀ s k, k = s.rst.step + 1 →
    (powered s = true → k ≤ 9 → s.rst.time0 + (if k ≤ 3 then 32000 * (k - 1) else 200000000 + 32000 * (k - 4)) ≤ now s →
      (k ≤ 3 ∨ s.rst.stage = 1) → ∃ t, exec .releaseStep s = .next t ∧ t.rst.step = k ∧ t.mem = s.mem ∧ t.ctxs = s.ctxs ∧
        (k = 2 → t.tide = { s.tide with refRunning := true, refTries := 0 }) ∧ (k ≠ 2 → k ≠ 8 → t.tide = s.tide) ∧
        (k = 8 → t.tide = { s.tide with loaded := t.tide.loaded }) ∧
        t.rst.pcieUp = (s.rst.pcieUp || decide (k = 9)) ∧ (k = 9 → t.rst.pcieAt = now s) ∧ (k ≠ 8 → t.harbour = s.harbour) ∧
        (k = 8 → t.harbour.latched = true ∧
          (∀ pos, pos = s.harbour.hbrPos.toNat % 32 → s.harbour.hbrPos.getLsbD 7 = true → pos ≤ 24 →
            s.harbour.hbrMembers.getLsbD pos = true → t.harbour.posValid = true ∧ t.harbour.pos = pos ∧
              t.harbour.members.toNat = s.harbour.hbrMembers.toNat % 2 ^ 25 ∧
              (pos = 0 → s.rst.cause = 1 → t.harbour.master = 0 ∧ t.harbour.noMaster = false ∧ t.harbour.rejoining = false) ∧
              (pos ≠ 0 → s.harbour.hbrMembers.getLsbD 0 = true →
                t.harbour.master = 0 ∧ t.harbour.noMaster = false ∧ t.harbour.rejoining = true) ∧
              (pos ≠ 0 → s.harbour.hbrMembers.getLsbD 0 = false → (∃ p, p < 25 ∧ p ≠ pos ∧ s.harbour.hbrMembers.getLsbD p = true) →
                t.harbour.noMaster = true ∧ ∃ e, t.faults.unlogged = s.faults.unlogged ++ [e] ∧ e.code = 0x0501) ∧
              (s.harbour.hbrMembers.getLsbD 0 = true → t.faults = s.faults)) ∧
          (s.harbour.hbrPos.getLsbD 7 = false ∨ 24 < s.harbour.hbrPos.toNat % 32 ∨
              s.harbour.hbrMembers.getLsbD (s.harbour.hbrPos.toNat % 32) = false →
            t.harbour.posValid = false ∧ t.harbour.pos = 0 ∧ t.harbour.members = 1 ∧
            (s.harbour.hbrPos.getLsbD 7 = true → ∃ e, t.faults.unlogged = s.faults.unlogged ++ [e] ∧ e.code = 0x0503) ∧
            (s.harbour.hbrPos.getLsbD 7 = false → t.faults = s.faults)))) ∧
    (powered s = false ∨ 9 < k ∨ (3 < k ∧ s.rst.stage ≠ 1) ∨
        now s < s.rst.time0 + (if k ≤ 3 then 32000 * (k - 1) else 200000000 + 32000 * (k - 4)) →
      exec .releaseStep s = .next s)) ∧
  (∀ s o, powered s = true → s.rst.ready = false → s.rst.romRecovery = false → s.rst.stalledB5 = false →
    (s.rst.stage = 0 → s.rst.step < 3 → exec (.bootStageDone o) s = .next s) ∧
    (s.rst.stage = 0 → 3 ≤ s.rst.step → ∃ t, exec (.bootStageDone o) s = .next t ∧
      (o.slotA = true ∨ o.slotB = true → t.rst.stage = 1 ∧ t.rst.romRecovery = false) ∧
      (o.slotA = false → o.slotB = false → t.rst.stage = 0 ∧ t.rst.romRecovery = true) ∧
      (o.slotA = true → t.faults = s.faults) ∧
      (o.slotA = false → ∃ e, t.faults.unlogged = s.faults.unlogged ++ [e] ∧ e.code = 0x0702 ∧ e.unit = 1) ∧
      t.recovery.active = (if o.romHmA = true ∧ s.recovery.hmA.retired = false then 0 else 1)) ∧
    (s.rst.stage = 1 → exec (.bootStageDone o) s = .next (if s.rst.step < 9 then s
      else { s with rst := { s.rst with stage := 2 } })) ∧
    (s.rst.stage = 2 → exec (.bootStageDone o) s = .next (if s.tide.locked = true then
      { s with
        rst := { s.rst with stage := 3 }
        io := { s.io with sris := match o.refclk with
          | none => true
          | some d => decide (d < -300 ∨ 300 < d) } } else s)) ∧
    (s.rst.stage = 3 → ∃ t, exec (.bootStageDone o) s = .next t ∧ t.rst.stage = 4 ∧
      t.ident.modIdRev = BitVec.ofNat 64 (modIdRev t) ∧ t.mem = s.mem) ∧
    (s.rst.stage = 4 → ∃ t, exec (.bootStageDone o) s = .next t ∧ t.rst.stage = 5 ∧ t.mem = s.mem ∧
      ∀ f ∈ o.lanes, hasPair s f.a f.b = true → f.eye < 64 ∨ f.oma < -900 → f.lane ∉ (getPair t f.a f.b).stripe) ∧
    (s.rst.stage = 5 → s.sec.bootSlot < 2 → ∃ t, exec (.bootStageDone o) s = .next t ∧ releaseLt t.sec.floor s.sec.floor = false ∧
      t.mem = s.mem ∧
      (o.slotA = false → o.slotB = false → t.rst.stalledB5 = true ∧ t.rst.stage = 5 ∧ t.sec = s.sec) ∧
      (o.slotA = true → o.slotB = true → releaseLt (slotRelease s 0) s.sec.floor = false →
        releaseLt (slotRelease s 1) s.sec.floor = false → t.rst.stage = 6 ∧ t.faults = s.faults)) ∧
    (s.rst.stage = 6 → ∃ t, exec (.bootStageDone o) s = .next t ∧ t.rst.stage = 7 ∧ t.mem = s.mem) ∧
    (s.rst.stage = 7 → ∃ t, exec (.bootStageDone o) s = .next t ∧ t.rst.stage = 8 ∧
      ∀ p, p < 8 → getPart t p = { getPart s p with key := (getPart s p).key + 1 }) ∧
    (s.rst.stage = 8 → ∃ t, exec (.bootStageDone o) s = .next t ∧ t.rst.stage = 9 ∧ t.sec.sealed = true ∧
      t.io.numVFs = vfCount t ∧ (s.sec.sealed = true → t.sec = s.sec)) ∧
    (s.rst.stage = 9 → ∃ t, exec (.bootStageDone o) s = .next t ∧ t.rst.stage = 10 ∧
      ∀ k, k < 24 → (getLink s k).state ≠ .disabled → (getLink s k).state ≠ .up →
        ∃ e ∈ t.faults.unlogged, e.code = 0x0107 ∧ e.unit = k) ∧
    (10 ≤ s.rst.stage → ∃ t, exec (.bootStageDone o) s = .next t ∧ t.rst.ready = true ∧ t.rst.stage = 10 ∧
      t.rst.readyTide = now s ∧ t.rst.failedResets = 0 ∧ t.mem = s.mem ∧
      ∀ fn, fn < 9 → (getMbx s fn).pending = true →
        (getMbx t fn).accepted = true ∨ (getMbx t fn).result.isSome = true)) ∧
  (∀ s o, powered s = false ∨ s.rst.ready = true ∨ s.rst.romRecovery = true ∨ s.rst.stalledB5 = true →
    exec (.bootStageDone o) s = .next s ∧ exec .readyTimeout s = .next s) ∧
  (∀ s, powered s = true → s.rst.ready = false → s.rst.romRecovery = false → s.rst.stalledB5 = false →
    s.power.cycleReq = false →
    (now s < s.rst.time0 + 5000000000 + s.rst.allowance → exec .readyTimeout s = .next s) ∧
    (s.rst.time0 + 5000000000 + s.rst.allowance ≤ now s → s.rst.failedResets = 0 → ∃ t, exec .readyTimeout s = .next t ∧
      AfterReset s t 0x11 ∧ t.rst.failedResets = 1 ∧ t.recovery.dumpCount = s.recovery.dumpCount + 1) ∧
    (s.rst.time0 + 5000000000 + s.rst.allowance ≤ now s → s.rst.failedResets ≠ 0 → ∃ t, exec .readyTimeout s = .next t ∧
      t.power = { s.power with cycleReq := true } ∧ t.mem = s.mem ∧ t.recovery.dumpCount = s.recovery.dumpCount + 1 ∧
      t.rst = { s.rst with failedResets := s.rst.failedResets + 1 } ∧ t.faults.unlogged = []))

/-- O55. A dead site that passes its recovery is live again, its role epoch is one higher, and the new epoch is sent; a
berth, stack or quay that fails is retired, and a Harbourmaster site that fails resets the module after a crash dump.
A site that is not dead, or a berth in its thermal hold, is not recovered. A standby that serves takes over from the
active Harbourmaster, every rail keeping its set-point; the failed one is tested, or at its second failure within 24 h
retired; without one nothing happens. HM-A takes back after 10 s as a stable standby. A rung that has ended in time
changes nothing; a sequencer or Tug stuck at rung 1 resets its berth or partition, an engine stuck at rung 2 leaves
service as well, and a berth stuck at rung 3 resets the module. A broken seal stays broken. -/
def Obligations.RecoveryClimbsItsLadder : Prop :=
  (∀ s k pass, hasSite s k = true →
    ((getSite s k).dead = false → exec (.siteRecovery k pass) s = .next s) ∧
    (∀ b, (getSite s k).dead = true → siteKind k = .berth b →
      ((getBerth s b).hold = true ∨ berthResetting s b = true → exec (.siteRecovery k pass) s = .next s) ∧
      ((getBerth s b).hold = false → berthResetting s b = false → pass = false →
        ∃ t, exec (.siteRecovery k pass) s = .next t ∧ (getSite t k).retired = true)) ∧
    ((getSite s k).dead = true → pass = true → (∀ b, siteKind k = .berth b →
        (getBerth s b).hold = false ∧ berthResetting s b = false) →
      ∃ t, exec (.siteRecovery k pass) s = .next t ∧ (getSite t k).dead = false ∧ (getSite t k).probing = false ∧
        (getSite t k).epoch = (getSite s k).epoch + 1 ∧ .epoch k ((getSite s k).epoch + 1) ∈ t.sent ∧ t.mem = s.mem ∧
        ∃ e ∈ t.faults.unlogged, e.code = 0x0301 ∧ e.outcome = 5 ∧ e.site = k) ∧
    ((getSite s k).dead = true → pass = false → (∃ n, siteKind k = .stack n ∨ siteKind k = .quay n) →
      ∃ t, exec (.siteRecovery k pass) s = .next t ∧ (getSite t k).retired = true ∧ t.mem = s.mem) ∧
    ((getSite s k).dead = true → pass = false → siteKind k = .harbourmaster →
      ∃ t, exec (.siteRecovery k pass) s = .next t ∧ AfterReset s t 0x11 ∧
        t.recovery.dumpCount = s.recovery.dumpCount + 1)) ∧
  (∀ s f a, powered s = true → a = s.recovery.active → a < 2 →
    ((getHm s (1 - a)).retired = true ∨ (getHm s (1 - a)).testing = true → exec (.hmSwitchover f) s = .next s) ∧
    ((getHm s (1 - a)).retired = false → (getHm s (1 - a)).testing = false → ∃ t, exec (.hmSwitchover f) s = .next t ∧
      t.recovery.active = 1 - a ∧ t.recovery.lastSwitch = now s ∧ getHm t (1 - a) = getHm s (1 - a) ∧ t.mem = s.mem ∧
      (∀ r, railPoint t r = railPoint s r) ∧
      (∃ e ∈ t.faults.unlogged, e.code = 0x0402 ∧ e.unit = 1 - a ∧ e.outcome = 2) ∧
      (within 86400000000000 (now s) (getHm s a).faults = [] → (getHm t a).testing = true ∧
        (getHm t a).retired = (getHm s a).retired) ∧
      (within 86400000000000 (now s) (getHm s a).faults ≠ [] → (getHm t a).retired = true))) ∧
  (∀ s h, h = s.recovery.hmA →
    (s.recovery.active = 1 → h.retired = false → h.testing = false → h.standbySince + 10000000000 ≤ now s →
      ∃ t, exec .hmHandback s = .next t ∧ t.recovery.active = 0 ∧ t.recovery.lastSwitch = now s ∧ t.recovery.hmA = h ∧
        t.recovery.hmB = { s.recovery.hmB with standbySince := now s } ∧
        t = { s with recovery := t.recovery, faults := t.faults } ∧
        ∃ e, t.faults.unlogged = s.faults.unlogged ++ [e] ∧ e.code = 0x0402 ∧ e.unit = 0) ∧
    (s.recovery.active = 0 ∨ h.retired = true ∨ h.testing = true ∨ now s < h.standbySince + 10000000000 →
      exec .hmHandback s = .next s) ∧
    exec .tamperSealBreak s = .next { s with sec := { s.sec with sealBroken := true } }) ∧
  (∀ s rung reach unit r, r = s.recovery.rungs.find? (fun x => x.1 == rung && x.2.1 == reach && x.2.2.1 == unit) →
    (r = none → exec (.escalationRungDeadline rung reach unit) s = .next s) ∧
    (∀ x, r = some x → now s < x.2.2.2 + (if rung = 1 then 1000000 else if rung = 2 then 5000000 else 200000000) →
      exec (.escalationRungDeadline rung reach unit) s = .next s) ∧
    (∀ x, r = some x → x.2.2.2 + (if rung = 1 then 1000000 else if rung = 2 then 5000000 else 200000000) ≤ now s →
      (∀ b, (rung = 1 ∧ b = reach / 8) ∨ (rung = 2 ∧ b = reach / 16) →
        ∃ t, exec (.escalationRungDeadline rung reach unit) s = .next t ∧
          (rung = 2 → (getEngine t b (reach % 16)).rotation = .left) ∧
          (∀ p, berthPart s b = some p → s.rst.ready = true → (getPart t p).resetting = true) ∧
          (berthPart s b = none → ∀ k, k < 8 → (getCtx t (8 * b + k)).state = .closed)) ∧
      (rung = 3 → ∃ t, exec (.escalationRungDeadline rung reach unit) s = .next t ∧ AfterReset s t 0x11 ∧
        t.recovery.dumpCount = s.recovery.dumpCount + 1)))

/-- O56. A training word on a link that trains is refused with the first check of Table 11-3 that it fails, with fault
event 0x0106, and the partner is told, or, on a link that was up and fails twice in a row, the link fails; one that
passes brings the link up with the smaller of the two directions' wavelengths, at most 32 and at least 16, and teaches
the partner's PART. A refused link repeats its training after 1 s. On a link that is up, a good frame is counted as
own traffic, transit of a pair relayed here at both links, leaving while it has credit, or idle; the second
uncorrectable codeword of a run of 10^9 fails the link, the 16th bad frame in a row retrains it; no frame for 100 us,
or no end of a retraining in 200 us twice, fails it. A link leaves its reset on its own for N up to 4, otherwise at
its instant while there is a master, and trains with its own word; at the instant of a planned reset it goes into
reset, or the module does. A pair whose link has been down for 1 ms or whose relay is lost is to move to the relay
that the master chooses by R361 or to have no route, after 10 s to return; the new route is in force when the drains
have ended and there is a master. -/
def Obligations.LinksTrainFailAndReroute : Prop :=
  (∀ s k w l, hasLink k = true → l = getLink s k →
    (trainRefusal s k w = none ↔ w.check = Config.crc32 (trainBits w) ∧ w.pos = partnerOf (ownPos s) k ∧ w.link = 23 - k ∧
      w.members = s.harbour.members ∧ w.cfgCrc = cfgCrc s) ∧
    (l.state ≠ .training → exec (.trainingWord k w) s = .next s) ∧
    (∀ code, l.state = .training → trainRefusal s k w = some code →
      (l.again = false ∨ l.retrainFails = 0 → ∃ m t, exec (.trainingWord k w) s = .next t ∧
        LinkBecomes (send s (.refuse k code)) m k { l with
          state := .refused
          refusal := code
          since := now s
          retrainFails := l.retrainFails + 1 } ∧
        Raises m t (fun e => e.code = 0x0106 ∧ e.unit = k ∧ e.arg = code)) ∧
      (l.again = true → 1 ≤ l.retrainFails → ∃ t, exec (.trainingWord k w) s = .next t ∧
        (getLink t k).state = .linkReset ∧ ∃ e ∈ t.faults.unlogged, e.code = 0x0107 ∧ e.unit = k)) ∧
    (l.state = .training → trainRefusal s k w = none → w.refused ≠ 0 → l.again = false ∨ l.retrainFails = 0 →
      ∃ t, exec (.trainingWord k w) s = .next t ∧ (getLink t k).state = .refused ∧ (getLink t k).refusal = w.refused ∧
        ∃ e, t.faults.unlogged = s.faults.unlogged ++ [e] ∧ e.code = 0x0106 ∧ e.arg = w.refused) ∧
    (∀ n, n = min w.lanes w.lanesBack → l.state = .training → trainRefusal s k w = none → w.refused = 0 →
      (n < 16 → ∃ t, exec (.trainingWord k w) s = .next t ∧ (getLink t k).state = .linkReset) ∧
      (16 ≤ n → ∃ t, exec (.trainingWord k w) s = .next t ∧ (getLink t k).state = .up ∧
        (getLink t k).lanes = min 32 n ∧ (getLink t k).lanesIn = w.lanes ∧ (getLink t k).lanesOut = w.lanesBack ∧
        (getLink t k).since = now s ∧
        getMember t w.pos = { getMember s w.pos with part := w.part } ∧ t.mem = s.mem ∧
        (∀ j, j ≠ k → getLink t j = getLink s j) ∧ (32 ≤ n → t.faults = s.faults) ∧
        (n < 32 → ∃ e, t.faults.unlogged = s.faults.unlogged ++ [e] ∧ e.code = 0x0107 ∧ e.arg = n)))) ∧
  (∀ s k l, hasLink k = true → l = getLink s k →
    (l.state = .refused → l.since + 1000000000 ≤ now s → ∃ t, exec (.linkRetrainTimer k) s = .next t ∧
      LinkBecomes (send s (.training k (ownWord s k))) t k { l with
        state := .training
        since := now s
        retrains := l.retrains + 1 }) ∧
    (l.state ≠ .refused ∨ now s < l.since + 1000000000 → exec (.linkRetrainTimer k) s = .next s) ∧
    (l.state = .up → l.lastFrame + 100000 ≤ now s → ∃ t, exec (.linkNoFrame k) s = .next t ∧
      (getLink t k).state = .linkReset ∧ ∃ e ∈ t.faults.unlogged, e.code = 0x0107 ∧ e.unit = k) ∧
    (l.state = .up → now s < l.lastFrame + 100000 → exec (.linkNoFrame k) s = .next s) ∧
    (l.state = .training → l.again = true →
      (now s < l.since + 200000 → exec (.linkNoFrame k) s = .next s) ∧
      (l.since + 200000 ≤ now s → l.retrainFails = 0 → ∃ t, exec (.linkNoFrame k) s = .next t ∧
        LinkBecomes (send s (.training k (ownWord s k))) t k { l with
          state := .training
          since := now s
          retrains := l.retrains + 1
          retrainFails := 1 }) ∧
      (l.since + 200000 ≤ now s → 1 ≤ l.retrainFails → ∃ t, exec (.linkNoFrame k) s = .next t ∧
        (getLink t k).state = .linkReset ∧ ∃ e ∈ t.faults.unlogged, e.code = 0x0107 ∧ e.unit = k)) ∧
    (l.state = .training → l.again = false → (now s < l.since + 5000000 → exec (.linkNoFrame k) s = .next s) ∧
      (l.since + 5000000 ≤ now s → ∃ t, exec (.linkNoFrame k) s = .next t ∧ t.mem = s.mem ∧
        ∃ e ∈ t.faults.unlogged, e.code = 0x0107 ∧ e.unit = k)) ∧
    (l.state ≠ .up → l.state ≠ .training → exec (.linkNoFrame k) s = .next s) ∧
    (l.state = .linkReset → harbourSize s ≤ 4 ∨ (s.harbour.noMaster = false ∧ instantCome s l.releaseAt = true) →
      ∃ t, exec (.linkRelease k) s = .next t ∧ t.harbour.rejoining = (s.harbour.rejoining && !s.tide.firstLock) ∧
        getLink t k = { l with
          state := .training
          releaseAt := none
          since := now s } ∧ (∀ j, j ≠ k → getLink t j = getLink s j) ∧
        t.sent = s.sent ++ [.training k (ownWord s k)] ∧ t.tide.count = s.tide.count ∧
        t = { s with
          harbour := { s.harbour with links := t.harbour.links, rejoining := t.harbour.rejoining }
          sent := t.sent
          crossings := t.crossings
          tide := t.tide }) ∧
    (l.state ≠ .linkReset ∨ (4 < harbourSize s ∧ (s.harbour.noMaster = true ∨ instantCome s l.releaseAt = false)) →
      exec (.linkRelease k) s = .next s) ∧
    (ownReset s = true → ∃ t, exec (.linkResetEntryInstant k) s = .next t ∧ AfterReset s t 5) ∧
    (ownReset s = false → l.state ≠ .disabled → instantCome s l.entryAt = true →
      ∃ t, exec (.linkResetEntryInstant k) s = .next t ∧ t.mem = s.mem ∧ (∀ j, j ≠ k → getLink t j = getLink s j) ∧
        getLink t k = { l with
          entryAt := none
          state := .linkReset
          since := now s
          synced := false
          again := false
          fails := 0
          badInRun := 0
          transitWait := []
          transitOwed := [0, 0, 0, 0]
          stamps := none } ∧
        ∃ e ∈ t.faults.unlogged, e.code = 0x0107 ∧ e.unit = k) ∧
    (ownReset s = false → l.state = .disabled ∨ instantCome s l.entryAt = false →
      exec (.linkResetEntryInstant k) s = .next s) ∧
    (∀ o, l.state ≠ .up → exec (.linkFrame k o) s = .next s) ∧
    (∀ (o : LinkFrameObs) z, l.state = .up → o.decodes = true → l.transitWait = [] → z = { l.codeword false with
          lastFrame := now s
          fails := 0
          markers := l.markers + bit o.marker
          transitOwed := unitsMinus l.transitOwed o.credits } →
      (o.idle = false → o.transit = false → ∃ t, exec (.linkFrame k o) s = .next t ∧
        LinkBecomes s t k { z with own := l.own + 1 }) ∧
      (o.idle = true → ∃ t, exec (.linkFrame k o) s = .next t ∧ LinkBecomes s t k { z with
        idleDeleted := l.idleDeleted + bit (o.aboveHalf && !o.marker)
        trimTemp := l.trimWait.getD l.trimTemp
        trimWait := none }) ∧
      (o.idle = false → o.transit = true → o.transitTo ≠ k → relaysHere s k o.transitTo = true →
        (getLink s o.transitTo).transitWait = [] →
        ∃ t, exec (.linkFrame k o) s = .next t ∧ t.mem = s.mem ∧ (getLink t k).transit = l.transit + 1 ∧
          (getLink t k).own = l.own ∧ (getLink t o.transitTo).own = (getLink s o.transitTo).own + bit o.ownWaits ∧
          (transitFits (getLink s o.transitTo) o.units = true →
            (getLink t o.transitTo).transit = (getLink s o.transitTo).transit + 1 ∧
            (getLink t o.transitTo).transitWait = [] ∧ .transit o.transitTo o.units ∈ t.sent ∧ .credits k o.units ∈ t.sent) ∧
          (transitFits (getLink s o.transitTo) o.units = false →
            (getLink t o.transitTo).transit = (getLink s o.transitTo).transit ∧
            (getLink t o.transitTo).transitWait = [(k, o.units)])) ∧
      (o.idle = false → o.transit = true → relaysHere s k o.transitTo = false →
        ∃ t, exec (.linkFrame k o) s = .next t ∧ LinkBecomes s t k z)) ∧
    (∀ o : LinkFrameObs, l.state = .up → o.decodes = false → ∃ t, exec (.linkFrame k o) s = .next t ∧
      (getLink t k).uncorrectable = l.uncorrectable + 1 ∧ t.mem = s.mem ∧
      (l.codewords % 1000000000 ≠ 0 → 1 ≤ l.badInRun → (getLink t k).state = .linkReset) ∧
      (l.codewords % 1000000000 = 0 ∨ l.badInRun = 0 →
        (15 ≤ l.fails → (getLink t k).state = .training ∧ (getLink t k).retrains = l.retrains + 1) ∧
        (l.fails < 15 → (getLink t k).state = .up ∧ (getLink t k).fails = l.fails + 1)))) ∧
  (∀ s p q m,  q = m.q →
    (getRoute s p q = .direct → mustMove s p m = linkFor s p q false 1000000) ∧
    (∀ r, getRoute s p q = .relay r → isMaster s = true → mustMove s p m = relayLost s p q r) ∧
    (∀ r, getRoute s p q = .relay r → isMaster s = false → (mustMove s p m = true ↔ m.relay ≠ some r)) ∧
    (isPair s p q = true → s.harbour.noMaster = false → mustMove s p m = true →
      ∃ t, exec (.relayRouteTimer p m) s = .next t ∧ t = { s with harbour := t.harbour, sent := t.sent, fresh := t.fresh } ∧
        t.harbour.routes = s.harbour.routes ∧
        (isMaster s = true → (p, q, viaRelay (chooseRelay s p q)) ∈ t.harbour.drains ∧
          .drain p q (viaRelay (chooseRelay s p q)) ∈ t.sent) ∧
        (isMaster s = false → (p, q, viaRelay m.relay) ∈ t.harbour.drains ∧ t.sent = s.sent)) ∧
    (isPair s p q = false ∨ s.harbour.noMaster = true ∨ mustMove s p m = false →
      exec (.relayRouteTimer p m) s = .next s)) ∧
  (∀ s p q,
    (isPair s p q = true → s.harbour.noMaster = false → getRoute s p q ≠ .direct → linkFor s p q true 10000000000 = true →
      ∃ t, exec (.routeReturnTimer p q) s = .next t ∧ t = { s with harbour := t.harbour, sent := t.sent } ∧
        (p, q, .direct) ∈ t.harbour.drains ∧ t.harbour.routes = s.harbour.routes) ∧
    (isPair s p q = false ∨ s.harbour.noMaster = true ∨ getRoute s p q = .direct ∨ linkFor s p q true 10000000000 = false →
      exec (.routeReturnTimer p q) s = .next s)) ∧
  (∀ s p (d : DrainSeen),
    (∀ x, findDrain s p d.q = some x → s.harbour.noMaster = false → ownDrained s p d.q = true →
      isMaster s = false ∨ othersDrained s p d x.2.2 = true →
      ∃ t, exec (.routeDrainDone p d) s = .next t ∧ getRoute t p d.q = x.2.2 ∧ t.mem = s.mem ∧
        (∀ x ∈ t.harbour.drains, x.1 ≠ p ∨ x.2.1 ≠ d.q) ∧
        (isMaster s = false → ownPos s = p ∨ ownPos s = d.q → .drained p d.q ∈ t.sent ∧ .written p d.q ∈ t.sent)) ∧
    (∀ x, findDrain s p d.q = some x → s.harbour.noMaster = true ∨ ownDrained s p d.q = false ∨
      (isMaster s = true ∧ othersDrained s p d x.2.2 = false) → exec (.routeDrainDone p d) s = .next s) ∧
    (findDrain s p d.q = none → exec (.routeDrainDone p d) s = .next s) ∧
    (∀ o ∈ s.reqs.out, o.held = false → otherEnd s p d.q = some o.dstPos → ownDrained s p d.q = false))

/-- O57. The master sends its Tide, in 1/16 ns less the fixed delay of the quay, with t2 and t3 of the last exchange, on
exactly its links that are up; a slave feeds only those it relays. A module that knows no master, or whose first lock
is still to come, takes the sender of a synchronisation message as master (log entry 92). One from the slave's source
of Tide is recorded; after the first lock it measures the offset by the delay of its link and the quay's, sets RATE
within 100 ppm and ends holdover; guarantee 4 is relaxed exactly while the offset exceeds its bound. A delay exchange
measures the delay and offset of a slave; its frequency term is a free value (log entry 28); its source keeps t2 and
t3. The first lock steps Tide to harbour Tide and reports the step, once. 1 s of holdover relaxes guarantee 4, and 2.5
ms of it (5 ns at 2 ns per ms) in a harbour without a master. 1 ms after its last synchronisation a slave has been in
holdover since then, and sends its claim. Any other case changes nothing. -/
def Obligations.HarbourTideIsServoed : Prop :=
  (∀ s, (∃ t, exec .tideSyncSend s = .next t ∧
      t = { s with sent := t.sent, harbour := { s.harbour with links := t.harbour.links } } ∧
      ∀ k, k < 24 → (feeds s k = true →
          .tideSync k (s.tide.count / 2 ^ 28 - (quayDelay s k).1) (getLink s k).stamps ∈ t.sent ∧ (getLink t k).stamps = none) ∧
        (feeds s k = false → getLink t k = getLink s k)) ∧
    (∀ k, isMaster s = true → (feeds s k = true ↔ (getLink s k).state = .up)) ∧
    (∀ k, isMaster s = false → getRoute s s.harbour.master (partnerOf (ownPos s) k) ≠ .relay (ownPos s) → feeds s k = false) ∧
    ((∀ k, k < 24 → feeds s k = false) → exec .tideSyncSend s = .next s)) ∧
  (∀ s k h, h = learnMaster s k →
    ((getLink s k).state ≠ .up ∨ (s.harbour.noMaster = false ∧ (s.tide.firstLock = true ∨
        partnerOf (ownPos s) k = firstHop s s.harbour.master)) → h = s) ∧
    ((getLink s k).state = .up → s.harbour.noMaster = true → h.harbour.master = partnerOf (ownPos s) k ∧
      h.harbour.noMaster = false ∧ 3 ∉ h.tide.relaxed ∧ ∃ e ∈ h.faults.unlogged, e.code = 0x0501) ∧
    ((getLink s k).state = .up → s.harbour.noMaster = false → s.tide.firstLock = false →
      partnerOf (ownPos s) k ≠ firstHop s s.harbour.master → h = { s with harbour := { s.harbour with
        master := partnerOf (ownPos s) k
        rejoining := s.harbour.rejoining || isMaster s } })) ∧
  (∀ s k m a h, hasLink k = true → h = learnMaster s k →
    (tideSource h k = false → exec (.tideSyncMessage k m a) s = .next h) ∧
    (tideSource h k = true → h.tide.firstLock = false → exec (.tideSyncMessage k m a) s = .next { h with harbour :=
      { h.harbour with lastSync := now s, claimAt := none } }) ∧
    (tideSource h k = true → h.tide.firstLock = true → ∃ t, exec (.tideSyncMessage k m a) s = .next t ∧
      t = { h with tide := t.tide, harbour := t.harbour, faults := t.faults } ∧
      t.harbour = { h.harbour with lastSync := now s, claimAt := none } ∧
      t.tide.offset16 = (m : Int) + (getLink s k).delay16 - ((a : Int) - (quayDelay s k).2) ∧ t.tide.count = s.tide.count ∧
      t.tide.holdover = none ∧ -429497 ≤ t.tide.rate ∧ t.tide.rate ≤ 429497 ∧
      (∀ x : Int, x = s.tide.freq + t.tide.offset16 * 4294967296 / 16000000 → -429497 ≤ x → x ≤ 429497 → t.tide.rate = x) ∧
      (1 ∈ t.tide.relaxed ↔ offsetBound h < t.tide.offset16.natAbs))) ∧
  (∀ s k (t1 t2 t3 t4 : Nat) (a b : Int), hasLink k = true → a = (t1 : Int) - (quayDelay s k).1 → b = (t4 : Int) - (quayDelay s k).2 →
    (feeds s k = true → ∃ t, exec (.tideDelayExchange k t1 t2 t3 t4) s = .next t ∧ LinkBecomes s t k { getLink s k with
      stamps := some ((t2 : Int) - (quayDelay s k).2, (t3 : Int) - (quayDelay s k).1) }) ∧
    (feeds s k = false → tideSource s k = false → exec (.tideDelayExchange k t1 t2 t3 t4) s = .next s) ∧
    (feeds s k = false → tideSource s k = true → ∃ t, exec (.tideDelayExchange k t1 t2 t3 t4) s = .next t ∧ t.mem = s.mem ∧
      (getLink t k).delay16 = ((b - a) - ((t3 : Int) - t2)) / 2 ∧
      t.tide.offset16 = (((t2 : Int) - a) - (b - t3)) / 2 ∧ t.tide.count = s.tide.count ∧
      t.tide.rate = s.tide.rate ∧ (∀ j, j ≠ k → getLink t j = getLink s j) ∧
      (s.tide.firstLock = false → t.faults = s.faults))) ∧
  (∀ s x, (isMaster s = false → s.harbour.noMaster = false → s.tide.firstLock = false → s.tide.mode = .reference →
      ∃ t, exec (.tideFirstLock x) s = .next t ∧ now t = x ∧
        t.tide.firstLock = true ∧ t.tide.offset16 = 0 ∧ t.tide.holdover = none ∧ t.harbour.lastSync = x ∧
        (2 ∉ s.tide.relaxed → 4 ∉ s.tide.relaxed → ∃ e, t.faults.unlogged = s.faults.unlogged ++ [e] ∧ e.code = 0x0502 ∧
          e.arg = ofSigned 64 ((x : Int) - now s)) ∧
        2 ∉ t.tide.relaxed ∧ 4 ∉ t.tide.relaxed ∧
        t.sent = (if s.harbour.rejoining = true then
          s.sent ++ [.rejoin (linkTo s (firstHop s s.harbour.master)) s.ident.part] else s.sent)) ∧
    (isMaster s = true ∨ s.harbour.noMaster = true ∨ s.tide.firstLock = true ∨ s.tide.mode = .alwaysOn →
      exec (.tideFirstLock x) s = .next s)) ∧
  (∀ s, (∀ h, s.tide.holdover = some h → ∃ t, exec .holdoverExpiry s = .next t ∧
      t = { s with tide := t.tide, faults := t.faults } ∧ t.tide.count = s.tide.count ∧
      (h + 1000000000 ≤ now s → 2 ∈ t.tide.relaxed) ∧
      (s.harbour.noMaster = true → h + 2500000 ≤ now s → 3 ∈ t.tide.relaxed) ∧
      (s.harbour.noMaster = false ∨ now s < h + 2500000 ∨ 3 ∈ s.tide.relaxed →
        (now s < h + 1000000000 ∨ 2 ∈ s.tide.relaxed → t = s) ∧
        (h + 1000000000 ≤ now s → 2 ∉ s.tide.relaxed → ∃ e, t.faults.unlogged = s.faults.unlogged ++ [e] ∧
          e.code = 0x0502 ∧ e.guarantee = 4))) ∧
    (s.tide.holdover = none → exec .holdoverExpiry s = .next s)) ∧
  (∀ s, (isMaster s = false → 2 ≤ harbourSize s → s.harbour.claimAt = none → s.harbour.lastSync + 1000000 ≤ now s →
      ∃ t, exec .masterSyncLoss s = .next t ∧ t.harbour = { s.harbour with claimAt := some (now s) } ∧
        t.sent = s.sent ++ [.claim (reaches s)] ∧ 4 ∈ t.tide.relaxed ∧ t.tide.count = s.tide.count ∧
        (s.tide.holdover = none → t.tide.holdover = some s.harbour.lastSync) ∧
        (∀ h, s.tide.holdover = some h → t.tide.holdover = some h) ∧ t.mem = s.mem) ∧
    (isMaster s = true ∨ harbourSize s < 2 ∨ s.harbour.claimAt ≠ none ∨ now s < s.harbour.lastSync + 1000000 →
      exec .masterSyncLoss s = .next s))

/-- O58. On the master, a heartbeat of a member is recorded with its PART, which is passed on when it is new; 1 ms without
one and an unanswered probe declare the member dead, with fault event 0x0501, and tell the harbour. A declaration
about another module marks it or its site dead, and the master passes that of a site on; one about the own module, or
about no member, changes nothing. 200 us after its claim the member of lowest position that reaches more than half the
harbour is acting master and the harbour has one; with none it has none, and guarantee 4 is relaxed once holdover has
passed 5 ns. The acting master keeps Tide and is relaxed for nothing more. The acting master hands back to position 0
at an instant announced 1 ms ahead. A rejoin request on the master makes the member live with its PART, raises the
epochs of all its sites by one, clears its dead sites, passes PART and epochs of every member on, sends the release
instants of its links in a harbour of 5 or more, and raises fault event 0x0501 with OUTCOME 5 (log entry 29). -/
def Obligations.LivenessAndTheMaster : Prop :=
  (∀ s p n, (isMaster s = true → (memberList s).contains p = true → ∃ t, exec (.heartbeat p n) s = .next t ∧
      getMember t p = { getMember s p with heartbeat := now s, part := n } ∧
      (∀ j, j ≠ p → getMember t j = getMember s j) ∧ t.mem = s.mem ∧
      t.sent = (if (getMember s p).part = n then s.sent else s.sent ++ [memberInfo s p n])) ∧
    (isMaster s = false ∨ (memberList s).contains p = false → exec (.heartbeat p n) s = .next s)) ∧
  (∀ s p, (isMaster s = true → (memberList s).contains p = true → p ≠ ownPos s → (getMember s p).dead = false →
      (getMember s p).heartbeat + 1000000 ≤ now s → ∃ t, exec (.heartbeatTimeout p false) s = .next t ∧
        (getMember t p).dead = true ∧ .dead p none ∈ t.sent ∧ t.mem = s.mem ∧
        ∃ e ∈ t.faults.unlogged, e.code = 0x0501 ∧ e.pos = p) ∧
    (∀ a, isMaster s = false ∨ (memberList s).contains p = false ∨ p = ownPos s ∨ a = true ∨ (getMember s p).dead = true ∨
      now s < (getMember s p).heartbeat + 1000000 → exec (.heartbeatTimeout p a) s = .next s)) ∧
  (∀ s p k, (p = ownPos s ∨ (memberList s).contains p = false → exec (.deadDeclaration p k) s = .next s) ∧
    (p ≠ ownPos s → (memberList s).contains p = true →
      (k = none → ∃ t, exec (.deadDeclaration p k) s = .next t ∧ (getMember t p).dead = true ∧ t.mem = s.mem ∧
        ((getMember s p).dead = true → t = s)) ∧
      (∀ j, k = some j → ∃ t, exec (.deadDeclaration p k) s = .next t ∧
        t = { s with harbour := { s.harbour with deadSites := t.harbour.deadSites }, sent := t.sent } ∧
        t.sent = (if isMaster s = true then s.sent ++ [.dead p k] else s.sent) ∧
        tabGet false t.harbour.deadSites (p * 64 + j) = true ∧
        ∀ i, i ≠ p * 64 + j → tabGet false t.harbour.deadSites i = tabGet false s.harbour.deadSites i))) ∧
  (∀ s cl, (s.harbour.claimAt = none → exec (.claimCollect cl) s = .next s) ∧
    (∀ c, s.harbour.claimAt = some c → now s < c + 200000 → exec (.claimCollect cl) s = .next s) ∧
    (∀ c p, s.harbour.claimAt = some c → c + 200000 ≤ now s →
      (∃ x ∈ (⟨ownPos s, reaches s⟩ : Claim) :: cl, x.pos = p ∧ harbourSize s < 2 * x.reaches) → p < 25 →
      (∀ x ∈ (⟨ownPos s, reaches s⟩ : Claim) :: cl, x.pos < p → 2 * x.reaches ≤ harbourSize s) →
      ∃ t, exec (.claimCollect cl) s = .next t ∧ t.harbour.master = p ∧ t.harbour.noMaster = false ∧
        t.harbour.claimAt = none ∧ t.tide.count = s.tide.count ∧ 3 ∉ t.tide.relaxed ∧
        (∃ e ∈ t.faults.unlogged, e.code = 0x0501 ∧ e.pos = p) ∧
        (p = ownPos s → .announce p (now s) ∈ t.sent ∧ t.tide.holdover = none ∧
          ∀ i, 1 ≤ i → i ≤ 4 → i ∉ t.tide.relaxed) ∧ (p ≠ ownPos s → t.sent = s.sent)) ∧
    (∀ c, s.harbour.claimAt = some c → c + 200000 ≤ now s →
      (∀ x ∈ (⟨ownPos s, reaches s⟩ : Claim) :: cl, x.pos < 25 → 2 * x.reaches ≤ harbourSize s) →
      ∃ t, exec (.claimCollect cl) s = .next t ∧ t.harbour.noMaster = true ∧ t.harbour.claimAt = none ∧
        t.sent = s.sent ∧
        (∀ h, s.tide.holdover = some h → h + 2500000 ≤ now s → 3 ∈ t.tide.relaxed) ∧
        (s.tide.holdover = none ∨ (∃ h, s.tide.holdover = some h ∧ now s < h + 2500000) → t.tide = s.tide))) ∧
  (∀ s, (s.harbour.master = 0 ∨ s.harbour.noMaster = true ∨ s.harbour.members.getLsbD 0 = false ∨ zeroStable s = false →
      exec .masterHandback s = .next s) ∧
    (s.harbour.master ≠ 0 → s.harbour.noMaster = false → s.harbour.members.getLsbD 0 = true → zeroStable s = true →
      (s.harbour.handbackAt = none → ∃ t, exec .masterHandback s = .next t ∧
        t.harbour = { s.harbour with handbackAt := some (now s + 1000000) } ∧
        t.sent = (if isMaster s = true then s.sent ++ [.announce 0 (now s + 1000000)] else s.sent)) ∧
      (∀ a, s.harbour.handbackAt = some a → now s < a → exec .masterHandback s = .next s) ∧
      (∀ a, s.harbour.handbackAt = some a → a ≤ now s → ∃ t, exec .masterHandback s = .next t ∧
        t.harbour = { s.harbour with master := 0, handbackAt := none, returnedAt := none } ∧
        t.tide.count = s.tide.count ∧ (s.harbour.pos = 0 → t.tide.rate = 0 ∧ t.tide.holdover = none ∧
          ∀ i, 1 ≤ i → i ≤ 4 → i ∉ t.tide.relaxed) ∧ (s.harbour.pos ≠ 0 → t.tide = s.tide) ∧
        ∃ e ∈ t.faults.unlogged, e.code = 0x0501))) ∧
  (∀ s p n, (isMaster s = true → (memberList s).contains p = true → p ≠ ownPos s →
      ∃ t, exec (.rejoinRequest p n) s = .next t ∧ getMember t p = { part := n, heartbeat := now s } ∧ t.mem = s.mem ∧
        (∀ k, k < 49 → tableEpoch t p k = tableEpoch s p k + 1 ∧
          tabGet false t.harbour.deadSites (p * 64 + k) = false) ∧
        (∃ e, t.faults.unlogged = s.faults.unlogged ++ [e] ∧ e.code = 0x0501 ∧ e.outcome = 5 ∧ e.pos = p) ∧
        (∀ m ∈ memberList s, memberInfo t m (if m = ownPos s then s.ident.part else (getMember t m).part) ∈ t.sent) ∧
        (harbourSize s ≤ 4 → t.harbour.links = s.harbour.links) ∧
        (5 ≤ harbourSize s → ∃ a, now s + 500000 ≤ a ∧ ∀ m ∈ memberList s, m ≠ p → m ≠ ownPos s →
          .release p (linkOf p m) a ∈ t.sent ∧ .release m (linkOf m p) a ∈ t.sent)) ∧
    (isMaster s = false ∨ (memberList s).contains p = false ∨ p = ownPos s → exec (.rejoinRequest p n) s = .next s))

/-- O59. While ENABLE is 1: a register write of any bytes of FE_BASE changes nothing; a write of FE_CTRL with ENABLE 1, as
FE_ENABLE or as a register write of 4 or 8 bytes, changes IRQ and nothing else, so REJECTED, HOST_RING, VECTOR, LOG2S
and every other part of the state stay. A write that clears ENABLE (FE_DISABLE) changes IRQ and ENABLE and keeps BASE,
HOST_RING, VECTOR, LOG2S, HEAD and TAIL; an entry is written whole by FAULT_EVENT_DELIVERY, so the clear takes effect
after it: no byte of memory changes, and events not yet written stay, held for the ring. -/
def Obligations.EnabledEventRingIsFrozen : Prop :=
  ∀ s, s.faults.enable = true → barOpen s = true →
    (∀ off data, 0x40 ≤ off → off + data.length ≤ 0x48 → 0 < data.length →
      exec (.registerWrite (.bar0 0) off data) s = .next s) ∧
    (∀ v : W64, v.getLsbD 31 = true → exec (.feEnable v) s =
      .next { s with faults := { s.faults with irq := v.getLsbD 30 } }) ∧
    (∀ data, data.length = 4 ∨ data.length = 8 → bitAt (leNat data) 31 = true →
      exec (.registerWrite (.bar0 0) 0x48 data) s =
        .next { s with faults := { s.faults with irq := bitAt (leNat data) 30 } }) ∧
    (∀ v : W64, v.getLsbD 31 = false → ∃ t, exec (.feDisable v) s = .next t ∧ t = { s with faults := t.faults } ∧
      t.faults = { s.faults with
        enable := false
        irq := v.getLsbD 30
        held := t.faults.held
        arriving := []
        lost := t.faults.lost } ∧
      (s.faults.held.length + s.faults.arriving.length ≤ 1024 →
        t.faults.held = s.faults.held ++ s.faults.arriving ∧ (s.faults.lost ≤ 0xFFFFFFFF → t.faults.lost = s.faults.lost)))

/-- O60. A write of FE_CTRL with ENABLE while disabled enables an accepted ring with HEAD and TAIL 0, or sets REJECTED;
its fields are written either way. HEAD moves only within the entries waiting. Delivery writes the oldest waiting
event into its slot when there is room and raises TAIL by one; replayed events go first. The error log takes the
oldest unlogged event. The management port applies a write to the registers it covers whole; DUMP_CTRL selects a
window, its load sets READY; the image registers act only in a recovery state: COMMIT begins the verification, whose
end installs the image and restarts boot or fails. A register write that is unaligned or of an absent function changes
nothing. Configuration space answers from 100 ms after step 9, and a write of NumVFs is kept. MBX_CTRL with GO submits
a request that is not pending. -/
def Obligations.EventRingAndPortRegisters : Prop :=
  (∀ s (v : W64) g, s.faults.enable = false → barOpen s = true → g = { s.faults with
      irq := v.getLsbD 30
      hostRing := v.getLsbD 29
      vector := fld v.toNat 16 11
      log2S := fld v.toNat 0 5 } →
    (v.getLsbD 31 = true → feAccepts s g = true → exec (.feEnable v) s = .next { s with faults :=
      { g with enable := true, rejected := false, head := 0, tail := 0 } }) ∧
    (v.getLsbD 31 = true → feAccepts s g = false → exec (.feEnable v) s = .next { s with faults :=
      { g with rejected := true } }) ∧
    (v.getLsbD 31 = false → exec (.feDisable v) s = .next { s with faults := g })) ∧
  (∀ s (v : W64), barOpen s = false → exec (.feEnable v) s = .next s ∧ exec (.feDisable v) s = .next s) ∧
  (∀ s (v : W32), barOpen s = true →
    ((v - s.faults.head).toNat ≤ (s.faults.tail - s.faults.head).toNat → (v - s.faults.head).toNat ≤ 2 ^ s.faults.log2S →
      exec (.feHeadWrite v) s = .next { s with faults := { s.faults with head := v } }) ∧
    ((s.faults.tail - s.faults.head).toNat < (v - s.faults.head).toNat → exec (.feHeadWrite v) s = .next s)) ∧
  (∀ s f, f = s.faults → powered s = true →
    (∀ e g, s.rst.ready = true → f.enable = true → (f.tail - f.head).toNat < 2 ^ f.log2S → f.nextEvent = some (e, g) →
      (f.hostRing = true ∨ (addrPos (feSlot f f.tail) = ownPos s ∧
        ∃ d, placeOf s.ident.part (addrLocal (feSlot f f.tail)) = .dram d) →
      ∃ t, exec .faultEventDelivery s = .next t ∧ t.faults = { g with tail := f.tail + 1 } ∧
        (f.hostRing = true → readHost t (feSlot f f.tail) 32 =
          bytesLE 32 (eventEntry e (phaseOf f.tail.toNat (2 ^ f.log2S))) ∧ t.mem.cells = s.mem.cells) ∧
        (f.hostRing = false → t.mem.host = s.mem.host) ∧ (f.irq = false → t.sent = s.sent))) ∧
    (∀ e l, f.replay = e :: l → f.nextEvent = some (e, { f with replay := l })) ∧
    (s.rst.ready = false ∨ f.enable = false ∨ 2 ^ f.log2S ≤ (f.tail - f.head).toNat ∨ f.nextEvent = none →
      exec .faultEventDelivery s = .next s) ∧
    (∀ e l, f.unlogged = e :: l → ∃ t, exec .errorLogWrite s = .next t ∧ t = { s with faults :=
        { f with
          log := t.faults.log
          logCount := f.logCount + 1
          unlogged := l } } ∧ t.faults.log = (f.log ++ [e]).drop (f.log.length + 1 - 1048576)) ∧
    (f.unlogged = [] → exec .errorLogWrite s = .next s)) ∧
  (∀ s, s.power.alwaysOn = true →
    (∀ a, exec (.mpDynamicAddress a) s = .next { s with io := { s.io with mpDynamic := some a } }) ∧
    (∀ v : W32, exec (.dumpCtrl v) s = .next { s with io := { s.io with
      dumpWindow := v.toNat / 65536
      dumpRecord := v.toNat % 4
      dumpReady := false } }) ∧
    (∀ v : W32, bitAt v.toNat 8 = true →
      (imgActive s = true → exec (.imgCommit v) s = .next { s with io := { s.io with
        imgWindow := v.toNat / 65536
        imgState := 2 } }) ∧
      (imgActive s = false → exec (.imgCommit v) s = .next s)) ∧
    (∀ b : Byte, exec (.mpWriteTransaction 0x0008 [b]) s = .next { s with harbour :=
      { s.harbour with hbrPos := b &&& 0x9F } }) ∧
    (∀ l : List Byte, l.length = 4 → exec (.mpWriteTransaction 0x000C l) s = .next { s with harbour :=
      { s.harbour with hbrMembers := BitVec.ofNat 32 (leNat l % 2 ^ 25) } }) ∧
    (∀ l : List Byte, l.length < 4 → exec (.mpWriteTransaction 0x000C l) s = .next s) ∧
    (∀ off l, 0x400 ≤ off → exec (.mpWriteTransaction off l) s = .next s)) ∧
  (∀ s off l, s.power.alwaysOn = false → exec (.mpWriteTransaction off l) s = .next s) ∧
  (∀ s, powered s = true →
    exec .dumpWindowLoaded s = .next { s with io := { s.io with dumpReady := true } } ∧
    (imgActive s = false ∨ s.io.imgState ≠ 2 → exec .imgVerifyDone s = .next s) ∧
    (imgActive s = true → s.io.imgState = 2 → ∃ t, exec .imgVerifyDone s = .next t ∧ t.mem = s.mem ∧
      t.sec.floor = s.sec.floor ∧
      (imgGood s = true → t.io.imgState = 3 ∧ t.sec.slotB = imgBytes s ∧ imgActive t = false ∧
        t.rst.stage = 0) ∧
      (imgGood s = false → t = { s with io := { s.io with imgState := 4 } }))) ∧
  (∀ s fn off data, hasFn fn = true →
    (barOpen s = false ∨ fnPresent s fn = false ∨ barAligned off data.length = false →
      exec (.registerWrite (.bar0 fn) off data) s = .next s) ∧
    (barOpen s = true → fnPresent s fn = true → data.length = 64 → off = 0x100 →
      ((getMbx s fn).pending = true → exec (.registerWrite (.bar0 fn) off data) s = .next s) ∧
      ((getMbx s fn).pending = false → ∃ t x, exec (.registerWrite (.bar0 fn) off data) s = .next t ∧
        MbxBecomes s t fn { getMbx s fn with req := x } ∧ x % 2 ^ 512 = leNat data))) ∧
  (∀ s fn off data, hasFn fn = true →
    (configOpen s = true → fn = 0 → exec (.registerWrite (.numVFs fn) off data) s =
      .next { s with io := { s.io with numVFs := leNat data } }) ∧
    (configOpen s = false ∨ fn ≠ 0 → exec (.registerWrite (.numVFs fn) off data) s = .next s)) ∧
  (∀ s fn, (powered s = true → s.rst.pcieUp = true → s.rst.pcieAt + 100000000 ≤ now s →
      (configRead s fn = .absent ↔ fnPresent s fn = false) ∧ configRead s fn ≠ .none) ∧
    (s.rst.pcieUp = false ∨ now s < s.rst.pcieAt + 100000000 → configRead s fn = .none)) ∧
  (∀ s fn (v : W64) m, hasFn fn = true → m = getMbx s fn →
    (fnPresent s fn = false → exec (.mbxCtrlGo fn v) s = .next s) ∧
    (v.getLsbD 32 = true → m.pending = true → exec (.mbxCtrlGo fn v) s = .next s) ∧
    (v.getLsbD 32 = true → m.pending = false → fnPresent s fn = true → ∃ t, exec (.mbxCtrlGo fn v) s = .next t ∧ t = { s with mbx := t.mbx } ∧
      (∀ j, j ≠ fn → getMbx t j = getMbx s j) ∧ (getMbx t fn).pending = true ∧ (getMbx t fn).replyValid = false ∧
      (getMbx t fn).goTag.toNat = v.toNat / 2 ^ 48 ∧ (getMbx t fn).goVector = fld v.toNat 0 11 ∧
      (getMbx t fn).req = m.req))
end

