-- ==== Sys2Proof/Laws/Tab.lean ====
section
/-! SUPPORT. What a table answers after a write, and that every table operation keeps the canonical form. -/

namespace Sys2Proof.Machine

variable {α : Type}

theorem tabGet_put_self (d v : α) (t : Tab α) (k : Nat) : tabGet d (tabPut k v t) k = v := by
  induction t with
  | nil => simp [tabPut, tabGet]
  | cons e t ih =>
    obtain ⟨k', v'⟩ := e
    unfold tabPut
    split
    · simp [tabGet]
    · split
      · simp [tabGet]
      · have h : k' ≠ k := fun h => by omega
        simp [tabGet, h, ih]

theorem tabGet_put_other (d v : α) (t : Tab α) {j k : Nat} (h : j ≠ k) : tabGet d (tabPut k v t) j = tabGet d t j := by
  have h' : k ≠ j := fun e => h e.symm
  induction t with
  | nil => simp [tabPut, tabGet, h']
  | cons e t ih =>
    obtain ⟨k', v'⟩ := e
    unfold tabPut
    split
    · simp [tabGet, h']
    · split
      · rename_i hk
        subst hk
        simp [tabGet, h']
      · simp [tabGet, ih]

theorem tabGet_erase_self (d : α) (t : Tab α) (k : Nat) : tabGet d (tabErase k t) k = d := by
  induction t with
  | nil => rfl
  | cons e t ih =>
    by_cases h : e.1 = k
    · simpa [tabErase, h] using ih
    · simpa [tabErase, tabGet, h] using ih

theorem tabGet_erase_other (d : α) (t : Tab α) {j k : Nat} (h : j ≠ k) : tabGet d (tabErase k t) j = tabGet d t j := by
  induction t with
  | nil => rfl
  | cons e t ih =>
    by_cases hk : e.1 = k
    · have : k ≠ j := fun x => h x.symm
      simpa [tabErase, tabGet, hk, this] using ih
    · simp only [tabErase, bne_iff_ne, ne_eq, hk, not_false_eq_true, List.filter_cons_of_pos, tabGet] at ih ⊢
      rw [ih]

/-- Reading a table after some keys are cleared. -/
theorem tabGet_clear {d : α} (p : Nat → Bool) (t : Tab α) (j : Nat) :
    tabGet d (tabClear p t) j = if p j = true then d else tabGet d t j := by
  induction t with
  | nil => simp [tabClear, tabGet]
  | cons e t ih =>
    obtain ⟨k, v⟩ := e
    unfold tabClear at ih ⊢
    by_cases hk : k = j
    · subst hk
      by_cases hp : p k = true <;> simp [hp, tabGet, ih]
    · by_cases hp : p k = true <;> simp [hp, tabGet, hk, ih]

variable [DecidableEq α]

/-- A read after a write to the same key answers the value written. -/
@[simp] theorem tabGet_set_self (d v : α) (t : Tab α) (k : Nat) : tabGet d (tabSet d t k v) k = v := by
  unfold tabSet
  split
  · rename_i h
    rw [h, tabGet_erase_self]
  · exact tabGet_put_self d v t k

/-- A write leaves every other key alone, whatever an unlisted key reads as. -/
theorem tabGet_set_other {d d' : α} (v : α) (t : Tab α) {j k : Nat} (h : j ≠ k) :
    tabGet d' (tabSet d t k v) j = tabGet d' t j := by
  unfold tabSet
  split
  · exact tabGet_erase_other d' t h
  · exact tabGet_put_other d' v t h

/-- Reading any key after a write. -/
theorem tabGet_set (d v : α) (t : Tab α) (j k : Nat) :
    tabGet d (tabSet d t k v) j = if j = k then v else tabGet d t j := by
  split
  · rename_i h
    rw [h, tabGet_set_self]
  · exact tabGet_set_other v t ‹_›

@[simp] theorem tabGet_upd_self (d : α) (t : Tab α) (k : Nat) (f : α → α) :
    tabGet d (tabUpd d t k f) k = f (tabGet d t k) := by simp [tabUpd]

theorem tabGet_upd_other {d d' : α} (t : Tab α) {j k : Nat} (f : α → α) (h : j ≠ k) :
    tabGet d' (tabUpd d t k f) j = tabGet d' t j := tabGet_set_other _ t h

/-- Reading any key after an update. -/
theorem tabGet_upd (d : α) (t : Tab α) (j k : Nat) (f : α → α) :
    tabGet d (tabUpd d t k f) j = if j = k then f (tabGet d t k) else tabGet d t j := tabGet_set d _ t j k

/-! ## The canonical form -/

theorem tabWfFrom_mono {d : α} {t : Tab α} {a b : Nat} (h : a ≤ b) (w : tabWfFrom d b t = true) : tabWfFrom d a t = true := by
  cases t with
  | nil => rfl
  | cons e t =>
    simp only [tabWfFrom, Bool.and_eq_true, decide_eq_true_eq] at w ⊢
    exact ⟨⟨by omega, w.1.2⟩, w.2⟩

theorem tabWfFrom_put {d v : α} (hv : v ≠ d) {t : Tab α} {lo k : Nat} (h : lo ≤ k) (w : tabWfFrom d lo t = true) :
    tabWfFrom d lo (tabPut k v t) = true := by
  induction t generalizing lo with
  | nil => simp [tabPut, tabWfFrom, h, hv]
  | cons e t ih =>
    obtain ⟨k', v'⟩ := e
    simp only [tabWfFrom, Bool.and_eq_true, decide_eq_true_eq] at w
    unfold tabPut
    split
    · simp only [tabWfFrom, Bool.and_eq_true, decide_eq_true_eq]
      exact ⟨⟨h, hv⟩, ⟨⟨by omega, w.1.2⟩, w.2⟩⟩
    · split
      · rename_i hk
        subst hk
        simp only [tabWfFrom, Bool.and_eq_true, decide_eq_true_eq]
        exact ⟨⟨h, hv⟩, w.2⟩
      · simp only [tabWfFrom, Bool.and_eq_true, decide_eq_true_eq]
        exact ⟨w.1, ih (by omega) w.2⟩

theorem tabWfFrom_filter {d : α} (p : Nat × α → Bool) {t : Tab α} {lo : Nat} (w : tabWfFrom d lo t = true) :
    tabWfFrom d lo (t.filter p) = true := by
  induction t generalizing lo with
  | nil => rfl
  | cons e t ih =>
    obtain ⟨k, v⟩ := e
    simp only [tabWfFrom, Bool.and_eq_true, decide_eq_true_eq] at w
    by_cases hp : p (k, v) = true
    · simp only [List.filter_cons, hp, if_true, tabWfFrom, Bool.and_eq_true, decide_eq_true_eq]
      exact ⟨w.1, ih w.2⟩
    · simp only [List.filter_cons, hp]
      exact ih (tabWfFrom_mono (by omega) w.2)

/-- Writing keeps the canonical form. -/
theorem tabWf_set {d v : α} {t : Tab α} {k : Nat} (w : tabWf d t = true) : tabWf d (tabSet d t k v) = true := by
  unfold tabSet
  split
  · exact tabWfFrom_filter _ w
  · exact tabWfFrom_put ‹_› (Nat.zero_le k) w

theorem tabWf_upd {d : α} {t : Tab α} {k : Nat} {f : α → α} (w : tabWf d t = true) : tabWf d (tabUpd d t k f) = true :=
  tabWf_set w

theorem tabWf_clear {d : α} {p : Nat → Bool} {t : Tab α} (w : tabWf d t = true) : tabWf d (tabClear p t) = true :=
  tabWfFrom_filter _ w

theorem tabGet_filterMap_range {d : α} (f dk : Nat → α) (m n j : Nat) (hd : dk j = d) :
    tabGet d ((List.range' m n).filterMap (fun k => if f k = dk k then none else some (k, f k))) j =
      if m ≤ j ∧ j < m + n then f j else d := by
  induction n generalizing m with
  | zero => rw [if_neg (by omega)]; rfl
  | succ n ih =>
    have e : (m + 1 ≤ j ∧ j < m + 1 + n) ↔ (m < j ∧ j < m + (n + 1)) := by omega
    have ih' := ih (m + 1)
    simp only [e] at ih'
    rw [List.range'_succ, List.filterMap_cons]
    by_cases hj : m = j
    · subst hj
      simp only [Nat.lt_irrefl, false_and, if_false] at ih'
      have h : m ≤ m ∧ m < m + (n + 1) := by omega
      rw [if_pos h]
      by_cases hf : f m = dk m
      · simp only [hf, if_true, ih', hd]
      · simp [hf, tabGet]
    · have e2 : (m ≤ j ∧ j < m + (n + 1)) ↔ (m < j ∧ j < m + (n + 1)) := by omega
      simp only [e2]
      by_cases hf : f m = dk m
      · simp only [hf, if_true, ih']
      · simp only [hf, if_false, tabGet, hj, ih']

/-- Reading a built table: the value built below `n`, what an unlisted key reads as from there on. -/
theorem tabGet_build {d : α} (dk f : Nat → α) (n j : Nat) (hd : dk j = d) :
    tabGet d (tabBuild dk n f) j = if j < n then f j else d := by
  rw [tabBuild, List.range_eq_range', tabGet_filterMap_range f dk 0 n j hd]
  simp

/-- Reading a mapped table, where the default maps to itself. -/
theorem tabGet_map {d : α} {f : Nat → α → α} (hf : ∀ k, f k d = d) (t : Tab α) (j : Nat) :
    tabGet d (tabMap d f t) j = f j (tabGet d t j) := by
  induction t with
  | nil => simp [tabMap, tabGet, hf]
  | cons e t ih =>
    obtain ⟨k, v⟩ := e
    by_cases hj : j = k
    · subst hj
      by_cases hv : f j v = d <;> simp [tabMap, tabGet, hv, tabGet_erase_self]
    · have hk : k ≠ j := fun h => hj h.symm
      by_cases hv : f k v = d <;> simp [tabMap, tabGet, hv, hk, tabGet_erase_other d _ hj, ih]

theorem tabWfFrom_map {d : α} {f : Nat → α → α} {t : Tab α} {lo : Nat} (w : tabWfFrom d lo t = true) :
    tabWfFrom d lo (tabMap d f t) = true := by
  induction t generalizing lo with
  | nil => rfl
  | cons e t ih =>
    obtain ⟨k, v⟩ := e
    simp only [tabWfFrom, Bool.and_eq_true, decide_eq_true_eq] at w
    have h : tabWfFrom d (k + 1) (tabErase k (tabMap d f t)) = true := tabWfFrom_filter _ (ih w.2)
    by_cases hv : f k v = d
    · simp only [tabMap, hv, if_true]
      exact tabWfFrom_mono (by omega) h
    · simp [tabMap, hv, tabWfFrom, w.1.1, h]

/-- A mapped table keeps the canonical form. -/
theorem tabWf_map {d : α} {f : Nat → α → α} {t : Tab α} (w : tabWf d t = true) : tabWf d (tabMap d f t) = true :=
  tabWfFrom_map w

@[simp] theorem tabWf_nil (d : α) : tabWf d ([] : Tab α) = true := rfl

end Sys2Proof.Machine
end

