-- ==== Sys2Proof/Laws/State.lean ====
section
/-! SUPPORT. Which field of the state each named update leaves alone, one lemma for each field and update, and what a
record reads after its own update. -/

namespace Sys2Proof.Machine

variable (s : State)

@[simp] theorem updCtx_pending (c : Nat) (f : Context → Context) : (updCtx s c f).pending = s.pending := rfl
@[simp] theorem updCtx_ident (c : Nat) (f : Context → Context) : (updCtx s c f).ident = s.ident := rfl
@[simp] theorem updCtx_rst (c : Nat) (f : Context → Context) : (updCtx s c f).rst = s.rst := rfl
@[simp] theorem updCtx_sec (c : Nat) (f : Context → Context) : (updCtx s c f).sec = s.sec := rfl
@[simp] theorem updCtx_tide (c : Nat) (f : Context → Context) : (updCtx s c f).tide = s.tide := rfl
@[simp] theorem updCtx_mem (c : Nat) (f : Context → Context) : (updCtx s c f).mem = s.mem := rfl
@[simp] theorem updCtx_mbx (c : Nat) (f : Context → Context) : (updCtx s c f).mbx = s.mbx := rfl
@[simp] theorem updCtx_reqs (c : Nat) (f : Context → Context) : (updCtx s c f).reqs = s.reqs := rfl
@[simp] theorem updCtx_sites (c : Nat) (f : Context → Context) : (updCtx s c f).sites = s.sites := rfl
@[simp] theorem updCtx_berths (c : Nat) (f : Context → Context) : (updCtx s c f).berths = s.berths := rfl
@[simp] theorem updCtx_regions (c : Nat) (f : Context → Context) : (updCtx s c f).regions = s.regions := rfl
@[simp] theorem updCtx_tiles (c : Nat) (f : Context → Context) : (updCtx s c f).tiles = s.tiles := rfl
@[simp] theorem updCtx_engines (c : Nat) (f : Context → Context) : (updCtx s c f).engines = s.engines := rfl
@[simp] theorem updCtx_stackTab (c : Nat) (f : Context → Context) : (updCtx s c f).stackTab = s.stackTab := rfl
@[simp] theorem updCtx_pool (c : Nat) (f : Context → Context) : (updCtx s c f).pool = s.pool := rfl
@[simp] theorem updCtx_pairs (c : Nat) (f : Context → Context) : (updCtx s c f).pairs = s.pairs := rfl
@[simp] theorem updCtx_ports (c : Nat) (f : Context → Context) : (updCtx s c f).ports = s.ports := rfl
@[simp] theorem updCtx_harbour (c : Nat) (f : Context → Context) : (updCtx s c f).harbour = s.harbour := rfl
@[simp] theorem updCtx_crossings (c : Nat) (f : Context → Context) : (updCtx s c f).crossings = s.crossings := rfl
@[simp] theorem updCtx_domains (c : Nat) (f : Context → Context) : (updCtx s c f).domains = s.domains := rfl
@[simp] theorem updCtx_power (c : Nat) (f : Context → Context) : (updCtx s c f).power = s.power := rfl
@[simp] theorem updCtx_thermal (c : Nat) (f : Context → Context) : (updCtx s c f).thermal = s.thermal := rfl
@[simp] theorem updCtx_recovery (c : Nat) (f : Context → Context) : (updCtx s c f).recovery = s.recovery := rfl
@[simp] theorem updCtx_faults (c : Nat) (f : Context → Context) : (updCtx s c f).faults = s.faults := rfl
@[simp] theorem updCtx_graphs (c : Nat) (f : Context → Context) : (updCtx s c f).graphs = s.graphs := rfl
@[simp] theorem updCtx_io (c : Nat) (f : Context → Context) : (updCtx s c f).io = s.io := rfl
@[simp] theorem updCtx_sent (c : Nat) (f : Context → Context) : (updCtx s c f).sent = s.sent := rfl
@[simp] theorem updCtx_fresh (c : Nat) (f : Context → Context) : (updCtx s c f).fresh = s.fresh := rfl

@[simp] theorem updMbx_pending (n : Nat) (f : Mailbox → Mailbox) : (updMbx s n f).pending = s.pending := rfl
@[simp] theorem updMbx_ident (n : Nat) (f : Mailbox → Mailbox) : (updMbx s n f).ident = s.ident := rfl
@[simp] theorem updMbx_rst (n : Nat) (f : Mailbox → Mailbox) : (updMbx s n f).rst = s.rst := rfl
@[simp] theorem updMbx_sec (n : Nat) (f : Mailbox → Mailbox) : (updMbx s n f).sec = s.sec := rfl
@[simp] theorem updMbx_tide (n : Nat) (f : Mailbox → Mailbox) : (updMbx s n f).tide = s.tide := rfl
@[simp] theorem updMbx_mem (n : Nat) (f : Mailbox → Mailbox) : (updMbx s n f).mem = s.mem := rfl
@[simp] theorem updMbx_ctxs (n : Nat) (f : Mailbox → Mailbox) : (updMbx s n f).ctxs = s.ctxs := rfl
@[simp] theorem updMbx_reqs (n : Nat) (f : Mailbox → Mailbox) : (updMbx s n f).reqs = s.reqs := rfl
@[simp] theorem updMbx_sites (n : Nat) (f : Mailbox → Mailbox) : (updMbx s n f).sites = s.sites := rfl
@[simp] theorem updMbx_berths (n : Nat) (f : Mailbox → Mailbox) : (updMbx s n f).berths = s.berths := rfl
@[simp] theorem updMbx_regions (n : Nat) (f : Mailbox → Mailbox) : (updMbx s n f).regions = s.regions := rfl
@[simp] theorem updMbx_tiles (n : Nat) (f : Mailbox → Mailbox) : (updMbx s n f).tiles = s.tiles := rfl
@[simp] theorem updMbx_engines (n : Nat) (f : Mailbox → Mailbox) : (updMbx s n f).engines = s.engines := rfl
@[simp] theorem updMbx_stackTab (n : Nat) (f : Mailbox → Mailbox) : (updMbx s n f).stackTab = s.stackTab := rfl
@[simp] theorem updMbx_pool (n : Nat) (f : Mailbox → Mailbox) : (updMbx s n f).pool = s.pool := rfl
@[simp] theorem updMbx_pairs (n : Nat) (f : Mailbox → Mailbox) : (updMbx s n f).pairs = s.pairs := rfl
@[simp] theorem updMbx_ports (n : Nat) (f : Mailbox → Mailbox) : (updMbx s n f).ports = s.ports := rfl
@[simp] theorem updMbx_harbour (n : Nat) (f : Mailbox → Mailbox) : (updMbx s n f).harbour = s.harbour := rfl
@[simp] theorem updMbx_crossings (n : Nat) (f : Mailbox → Mailbox) : (updMbx s n f).crossings = s.crossings := rfl
@[simp] theorem updMbx_domains (n : Nat) (f : Mailbox → Mailbox) : (updMbx s n f).domains = s.domains := rfl
@[simp] theorem updMbx_power (n : Nat) (f : Mailbox → Mailbox) : (updMbx s n f).power = s.power := rfl
@[simp] theorem updMbx_thermal (n : Nat) (f : Mailbox → Mailbox) : (updMbx s n f).thermal = s.thermal := rfl
@[simp] theorem updMbx_recovery (n : Nat) (f : Mailbox → Mailbox) : (updMbx s n f).recovery = s.recovery := rfl
@[simp] theorem updMbx_faults (n : Nat) (f : Mailbox → Mailbox) : (updMbx s n f).faults = s.faults := rfl
@[simp] theorem updMbx_graphs (n : Nat) (f : Mailbox → Mailbox) : (updMbx s n f).graphs = s.graphs := rfl
@[simp] theorem updMbx_io (n : Nat) (f : Mailbox → Mailbox) : (updMbx s n f).io = s.io := rfl
@[simp] theorem updMbx_sent (n : Nat) (f : Mailbox → Mailbox) : (updMbx s n f).sent = s.sent := rfl
@[simp] theorem updMbx_fresh (n : Nat) (f : Mailbox → Mailbox) : (updMbx s n f).fresh = s.fresh := rfl

@[simp] theorem updSite_pending (k : Nat) (f : Site → Site) : (updSite s k f).pending = s.pending := rfl
@[simp] theorem updSite_ident (k : Nat) (f : Site → Site) : (updSite s k f).ident = s.ident := rfl
@[simp] theorem updSite_rst (k : Nat) (f : Site → Site) : (updSite s k f).rst = s.rst := rfl
@[simp] theorem updSite_sec (k : Nat) (f : Site → Site) : (updSite s k f).sec = s.sec := rfl
@[simp] theorem updSite_tide (k : Nat) (f : Site → Site) : (updSite s k f).tide = s.tide := rfl
@[simp] theorem updSite_mem (k : Nat) (f : Site → Site) : (updSite s k f).mem = s.mem := rfl
@[simp] theorem updSite_ctxs (k : Nat) (f : Site → Site) : (updSite s k f).ctxs = s.ctxs := rfl
@[simp] theorem updSite_mbx (k : Nat) (f : Site → Site) : (updSite s k f).mbx = s.mbx := rfl
@[simp] theorem updSite_reqs (k : Nat) (f : Site → Site) : (updSite s k f).reqs = s.reqs := rfl
@[simp] theorem updSite_berths (k : Nat) (f : Site → Site) : (updSite s k f).berths = s.berths := rfl
@[simp] theorem updSite_regions (k : Nat) (f : Site → Site) : (updSite s k f).regions = s.regions := rfl
@[simp] theorem updSite_tiles (k : Nat) (f : Site → Site) : (updSite s k f).tiles = s.tiles := rfl
@[simp] theorem updSite_engines (k : Nat) (f : Site → Site) : (updSite s k f).engines = s.engines := rfl
@[simp] theorem updSite_stackTab (k : Nat) (f : Site → Site) : (updSite s k f).stackTab = s.stackTab := rfl
@[simp] theorem updSite_pool (k : Nat) (f : Site → Site) : (updSite s k f).pool = s.pool := rfl
@[simp] theorem updSite_pairs (k : Nat) (f : Site → Site) : (updSite s k f).pairs = s.pairs := rfl
@[simp] theorem updSite_ports (k : Nat) (f : Site → Site) : (updSite s k f).ports = s.ports := rfl
@[simp] theorem updSite_harbour (k : Nat) (f : Site → Site) : (updSite s k f).harbour = s.harbour := rfl
@[simp] theorem updSite_crossings (k : Nat) (f : Site → Site) : (updSite s k f).crossings = s.crossings := rfl
@[simp] theorem updSite_domains (k : Nat) (f : Site → Site) : (updSite s k f).domains = s.domains := rfl
@[simp] theorem updSite_power (k : Nat) (f : Site → Site) : (updSite s k f).power = s.power := rfl
@[simp] theorem updSite_thermal (k : Nat) (f : Site → Site) : (updSite s k f).thermal = s.thermal := rfl
@[simp] theorem updSite_recovery (k : Nat) (f : Site → Site) : (updSite s k f).recovery = s.recovery := rfl
@[simp] theorem updSite_faults (k : Nat) (f : Site → Site) : (updSite s k f).faults = s.faults := rfl
@[simp] theorem updSite_graphs (k : Nat) (f : Site → Site) : (updSite s k f).graphs = s.graphs := rfl
@[simp] theorem updSite_io (k : Nat) (f : Site → Site) : (updSite s k f).io = s.io := rfl
@[simp] theorem updSite_sent (k : Nat) (f : Site → Site) : (updSite s k f).sent = s.sent := rfl
@[simp] theorem updSite_fresh (k : Nat) (f : Site → Site) : (updSite s k f).fresh = s.fresh := rfl

@[simp] theorem updBerth_pending (b : Nat) (f : Berth → Berth) : (updBerth s b f).pending = s.pending := rfl
@[simp] theorem updBerth_ident (b : Nat) (f : Berth → Berth) : (updBerth s b f).ident = s.ident := rfl
@[simp] theorem updBerth_rst (b : Nat) (f : Berth → Berth) : (updBerth s b f).rst = s.rst := rfl
@[simp] theorem updBerth_sec (b : Nat) (f : Berth → Berth) : (updBerth s b f).sec = s.sec := rfl
@[simp] theorem updBerth_tide (b : Nat) (f : Berth → Berth) : (updBerth s b f).tide = s.tide := rfl
@[simp] theorem updBerth_mem (b : Nat) (f : Berth → Berth) : (updBerth s b f).mem = s.mem := rfl
@[simp] theorem updBerth_ctxs (b : Nat) (f : Berth → Berth) : (updBerth s b f).ctxs = s.ctxs := rfl
@[simp] theorem updBerth_mbx (b : Nat) (f : Berth → Berth) : (updBerth s b f).mbx = s.mbx := rfl
@[simp] theorem updBerth_reqs (b : Nat) (f : Berth → Berth) : (updBerth s b f).reqs = s.reqs := rfl
@[simp] theorem updBerth_sites (b : Nat) (f : Berth → Berth) : (updBerth s b f).sites = s.sites := rfl
@[simp] theorem updBerth_regions (b : Nat) (f : Berth → Berth) : (updBerth s b f).regions = s.regions := rfl
@[simp] theorem updBerth_tiles (b : Nat) (f : Berth → Berth) : (updBerth s b f).tiles = s.tiles := rfl
@[simp] theorem updBerth_engines (b : Nat) (f : Berth → Berth) : (updBerth s b f).engines = s.engines := rfl
@[simp] theorem updBerth_stackTab (b : Nat) (f : Berth → Berth) : (updBerth s b f).stackTab = s.stackTab := rfl
@[simp] theorem updBerth_pool (b : Nat) (f : Berth → Berth) : (updBerth s b f).pool = s.pool := rfl
@[simp] theorem updBerth_pairs (b : Nat) (f : Berth → Berth) : (updBerth s b f).pairs = s.pairs := rfl
@[simp] theorem updBerth_ports (b : Nat) (f : Berth → Berth) : (updBerth s b f).ports = s.ports := rfl
@[simp] theorem updBerth_harbour (b : Nat) (f : Berth → Berth) : (updBerth s b f).harbour = s.harbour := rfl
@[simp] theorem updBerth_crossings (b : Nat) (f : Berth → Berth) : (updBerth s b f).crossings = s.crossings := rfl
@[simp] theorem updBerth_domains (b : Nat) (f : Berth → Berth) : (updBerth s b f).domains = s.domains := rfl
@[simp] theorem updBerth_power (b : Nat) (f : Berth → Berth) : (updBerth s b f).power = s.power := rfl
@[simp] theorem updBerth_thermal (b : Nat) (f : Berth → Berth) : (updBerth s b f).thermal = s.thermal := rfl
@[simp] theorem updBerth_recovery (b : Nat) (f : Berth → Berth) : (updBerth s b f).recovery = s.recovery := rfl
@[simp] theorem updBerth_faults (b : Nat) (f : Berth → Berth) : (updBerth s b f).faults = s.faults := rfl
@[simp] theorem updBerth_graphs (b : Nat) (f : Berth → Berth) : (updBerth s b f).graphs = s.graphs := rfl
@[simp] theorem updBerth_io (b : Nat) (f : Berth → Berth) : (updBerth s b f).io = s.io := rfl
@[simp] theorem updBerth_sent (b : Nat) (f : Berth → Berth) : (updBerth s b f).sent = s.sent := rfl
@[simp] theorem updBerth_fresh (b : Nat) (f : Berth → Berth) : (updBerth s b f).fresh = s.fresh := rfl

@[simp] theorem updRegion_pending (b e : Nat) (f : Region → Region) : (updRegion s b e f).pending = s.pending := rfl
@[simp] theorem updRegion_ident (b e : Nat) (f : Region → Region) : (updRegion s b e f).ident = s.ident := rfl
@[simp] theorem updRegion_rst (b e : Nat) (f : Region → Region) : (updRegion s b e f).rst = s.rst := rfl
@[simp] theorem updRegion_sec (b e : Nat) (f : Region → Region) : (updRegion s b e f).sec = s.sec := rfl
@[simp] theorem updRegion_tide (b e : Nat) (f : Region → Region) : (updRegion s b e f).tide = s.tide := rfl
@[simp] theorem updRegion_mem (b e : Nat) (f : Region → Region) : (updRegion s b e f).mem = s.mem := rfl
@[simp] theorem updRegion_ctxs (b e : Nat) (f : Region → Region) : (updRegion s b e f).ctxs = s.ctxs := rfl
@[simp] theorem updRegion_mbx (b e : Nat) (f : Region → Region) : (updRegion s b e f).mbx = s.mbx := rfl
@[simp] theorem updRegion_reqs (b e : Nat) (f : Region → Region) : (updRegion s b e f).reqs = s.reqs := rfl
@[simp] theorem updRegion_sites (b e : Nat) (f : Region → Region) : (updRegion s b e f).sites = s.sites := rfl
@[simp] theorem updRegion_berths (b e : Nat) (f : Region → Region) : (updRegion s b e f).berths = s.berths := rfl
@[simp] theorem updRegion_tiles (b e : Nat) (f : Region → Region) : (updRegion s b e f).tiles = s.tiles := rfl
@[simp] theorem updRegion_engines (b e : Nat) (f : Region → Region) : (updRegion s b e f).engines = s.engines := rfl
@[simp] theorem updRegion_stackTab (b e : Nat) (f : Region → Region) : (updRegion s b e f).stackTab = s.stackTab := rfl
@[simp] theorem updRegion_pool (b e : Nat) (f : Region → Region) : (updRegion s b e f).pool = s.pool := rfl
@[simp] theorem updRegion_pairs (b e : Nat) (f : Region → Region) : (updRegion s b e f).pairs = s.pairs := rfl
@[simp] theorem updRegion_ports (b e : Nat) (f : Region → Region) : (updRegion s b e f).ports = s.ports := rfl
@[simp] theorem updRegion_harbour (b e : Nat) (f : Region → Region) : (updRegion s b e f).harbour = s.harbour := rfl
@[simp] theorem updRegion_crossings (b e : Nat) (f : Region → Region) : (updRegion s b e f).crossings = s.crossings := rfl
@[simp] theorem updRegion_domains (b e : Nat) (f : Region → Region) : (updRegion s b e f).domains = s.domains := rfl
@[simp] theorem updRegion_power (b e : Nat) (f : Region → Region) : (updRegion s b e f).power = s.power := rfl
@[simp] theorem updRegion_thermal (b e : Nat) (f : Region → Region) : (updRegion s b e f).thermal = s.thermal := rfl
@[simp] theorem updRegion_recovery (b e : Nat) (f : Region → Region) : (updRegion s b e f).recovery = s.recovery := rfl
@[simp] theorem updRegion_faults (b e : Nat) (f : Region → Region) : (updRegion s b e f).faults = s.faults := rfl
@[simp] theorem updRegion_graphs (b e : Nat) (f : Region → Region) : (updRegion s b e f).graphs = s.graphs := rfl
@[simp] theorem updRegion_io (b e : Nat) (f : Region → Region) : (updRegion s b e f).io = s.io := rfl
@[simp] theorem updRegion_sent (b e : Nat) (f : Region → Region) : (updRegion s b e f).sent = s.sent := rfl
@[simp] theorem updRegion_fresh (b e : Nat) (f : Region → Region) : (updRegion s b e f).fresh = s.fresh := rfl

@[simp] theorem updTile_pending (b v : Nat) (f : Tile → Tile) : (updTile s b v f).pending = s.pending := rfl
@[simp] theorem updTile_ident (b v : Nat) (f : Tile → Tile) : (updTile s b v f).ident = s.ident := rfl
@[simp] theorem updTile_rst (b v : Nat) (f : Tile → Tile) : (updTile s b v f).rst = s.rst := rfl
@[simp] theorem updTile_sec (b v : Nat) (f : Tile → Tile) : (updTile s b v f).sec = s.sec := rfl
@[simp] theorem updTile_tide (b v : Nat) (f : Tile → Tile) : (updTile s b v f).tide = s.tide := rfl
@[simp] theorem updTile_mem (b v : Nat) (f : Tile → Tile) : (updTile s b v f).mem = s.mem := rfl
@[simp] theorem updTile_ctxs (b v : Nat) (f : Tile → Tile) : (updTile s b v f).ctxs = s.ctxs := rfl
@[simp] theorem updTile_mbx (b v : Nat) (f : Tile → Tile) : (updTile s b v f).mbx = s.mbx := rfl
@[simp] theorem updTile_reqs (b v : Nat) (f : Tile → Tile) : (updTile s b v f).reqs = s.reqs := rfl
@[simp] theorem updTile_sites (b v : Nat) (f : Tile → Tile) : (updTile s b v f).sites = s.sites := rfl
@[simp] theorem updTile_berths (b v : Nat) (f : Tile → Tile) : (updTile s b v f).berths = s.berths := rfl
@[simp] theorem updTile_regions (b v : Nat) (f : Tile → Tile) : (updTile s b v f).regions = s.regions := rfl
@[simp] theorem updTile_engines (b v : Nat) (f : Tile → Tile) : (updTile s b v f).engines = s.engines := rfl
@[simp] theorem updTile_stackTab (b v : Nat) (f : Tile → Tile) : (updTile s b v f).stackTab = s.stackTab := rfl
@[simp] theorem updTile_pool (b v : Nat) (f : Tile → Tile) : (updTile s b v f).pool = s.pool := rfl
@[simp] theorem updTile_pairs (b v : Nat) (f : Tile → Tile) : (updTile s b v f).pairs = s.pairs := rfl
@[simp] theorem updTile_ports (b v : Nat) (f : Tile → Tile) : (updTile s b v f).ports = s.ports := rfl
@[simp] theorem updTile_harbour (b v : Nat) (f : Tile → Tile) : (updTile s b v f).harbour = s.harbour := rfl
@[simp] theorem updTile_crossings (b v : Nat) (f : Tile → Tile) : (updTile s b v f).crossings = s.crossings := rfl
@[simp] theorem updTile_domains (b v : Nat) (f : Tile → Tile) : (updTile s b v f).domains = s.domains := rfl
@[simp] theorem updTile_power (b v : Nat) (f : Tile → Tile) : (updTile s b v f).power = s.power := rfl
@[simp] theorem updTile_thermal (b v : Nat) (f : Tile → Tile) : (updTile s b v f).thermal = s.thermal := rfl
@[simp] theorem updTile_recovery (b v : Nat) (f : Tile → Tile) : (updTile s b v f).recovery = s.recovery := rfl
@[simp] theorem updTile_faults (b v : Nat) (f : Tile → Tile) : (updTile s b v f).faults = s.faults := rfl
@[simp] theorem updTile_graphs (b v : Nat) (f : Tile → Tile) : (updTile s b v f).graphs = s.graphs := rfl
@[simp] theorem updTile_io (b v : Nat) (f : Tile → Tile) : (updTile s b v f).io = s.io := rfl
@[simp] theorem updTile_sent (b v : Nat) (f : Tile → Tile) : (updTile s b v f).sent = s.sent := rfl
@[simp] theorem updTile_fresh (b v : Nat) (f : Tile → Tile) : (updTile s b v f).fresh = s.fresh := rfl

@[simp] theorem updEngine_pending (b e : Nat) (f : Engine → Engine) : (updEngine s b e f).pending = s.pending := rfl
@[simp] theorem updEngine_ident (b e : Nat) (f : Engine → Engine) : (updEngine s b e f).ident = s.ident := rfl
@[simp] theorem updEngine_rst (b e : Nat) (f : Engine → Engine) : (updEngine s b e f).rst = s.rst := rfl
@[simp] theorem updEngine_sec (b e : Nat) (f : Engine → Engine) : (updEngine s b e f).sec = s.sec := rfl
@[simp] theorem updEngine_tide (b e : Nat) (f : Engine → Engine) : (updEngine s b e f).tide = s.tide := rfl
@[simp] theorem updEngine_mem (b e : Nat) (f : Engine → Engine) : (updEngine s b e f).mem = s.mem := rfl
@[simp] theorem updEngine_ctxs (b e : Nat) (f : Engine → Engine) : (updEngine s b e f).ctxs = s.ctxs := rfl
@[simp] theorem updEngine_mbx (b e : Nat) (f : Engine → Engine) : (updEngine s b e f).mbx = s.mbx := rfl
@[simp] theorem updEngine_reqs (b e : Nat) (f : Engine → Engine) : (updEngine s b e f).reqs = s.reqs := rfl
@[simp] theorem updEngine_sites (b e : Nat) (f : Engine → Engine) : (updEngine s b e f).sites = s.sites := rfl
@[simp] theorem updEngine_berths (b e : Nat) (f : Engine → Engine) : (updEngine s b e f).berths = s.berths := rfl
@[simp] theorem updEngine_regions (b e : Nat) (f : Engine → Engine) : (updEngine s b e f).regions = s.regions := rfl
@[simp] theorem updEngine_tiles (b e : Nat) (f : Engine → Engine) : (updEngine s b e f).tiles = s.tiles := rfl
@[simp] theorem updEngine_stackTab (b e : Nat) (f : Engine → Engine) : (updEngine s b e f).stackTab = s.stackTab := rfl
@[simp] theorem updEngine_pool (b e : Nat) (f : Engine → Engine) : (updEngine s b e f).pool = s.pool := rfl
@[simp] theorem updEngine_pairs (b e : Nat) (f : Engine → Engine) : (updEngine s b e f).pairs = s.pairs := rfl
@[simp] theorem updEngine_ports (b e : Nat) (f : Engine → Engine) : (updEngine s b e f).ports = s.ports := rfl
@[simp] theorem updEngine_harbour (b e : Nat) (f : Engine → Engine) : (updEngine s b e f).harbour = s.harbour := rfl
@[simp] theorem updEngine_crossings (b e : Nat) (f : Engine → Engine) : (updEngine s b e f).crossings = s.crossings := rfl
@[simp] theorem updEngine_domains (b e : Nat) (f : Engine → Engine) : (updEngine s b e f).domains = s.domains := rfl
@[simp] theorem updEngine_power (b e : Nat) (f : Engine → Engine) : (updEngine s b e f).power = s.power := rfl
@[simp] theorem updEngine_thermal (b e : Nat) (f : Engine → Engine) : (updEngine s b e f).thermal = s.thermal := rfl
@[simp] theorem updEngine_recovery (b e : Nat) (f : Engine → Engine) : (updEngine s b e f).recovery = s.recovery := rfl
@[simp] theorem updEngine_faults (b e : Nat) (f : Engine → Engine) : (updEngine s b e f).faults = s.faults := rfl
@[simp] theorem updEngine_graphs (b e : Nat) (f : Engine → Engine) : (updEngine s b e f).graphs = s.graphs := rfl
@[simp] theorem updEngine_io (b e : Nat) (f : Engine → Engine) : (updEngine s b e f).io = s.io := rfl
@[simp] theorem updEngine_sent (b e : Nat) (f : Engine → Engine) : (updEngine s b e f).sent = s.sent := rfl
@[simp] theorem updEngine_fresh (b e : Nat) (f : Engine → Engine) : (updEngine s b e f).fresh = s.fresh := rfl

@[simp] theorem updStack_pending (n : Nat) (f : Stack → Stack) : (updStack s n f).pending = s.pending := rfl
@[simp] theorem updStack_ident (n : Nat) (f : Stack → Stack) : (updStack s n f).ident = s.ident := rfl
@[simp] theorem updStack_rst (n : Nat) (f : Stack → Stack) : (updStack s n f).rst = s.rst := rfl
@[simp] theorem updStack_sec (n : Nat) (f : Stack → Stack) : (updStack s n f).sec = s.sec := rfl
@[simp] theorem updStack_tide (n : Nat) (f : Stack → Stack) : (updStack s n f).tide = s.tide := rfl
@[simp] theorem updStack_mem (n : Nat) (f : Stack → Stack) : (updStack s n f).mem = s.mem := rfl
@[simp] theorem updStack_ctxs (n : Nat) (f : Stack → Stack) : (updStack s n f).ctxs = s.ctxs := rfl
@[simp] theorem updStack_mbx (n : Nat) (f : Stack → Stack) : (updStack s n f).mbx = s.mbx := rfl
@[simp] theorem updStack_reqs (n : Nat) (f : Stack → Stack) : (updStack s n f).reqs = s.reqs := rfl
@[simp] theorem updStack_sites (n : Nat) (f : Stack → Stack) : (updStack s n f).sites = s.sites := rfl
@[simp] theorem updStack_berths (n : Nat) (f : Stack → Stack) : (updStack s n f).berths = s.berths := rfl
@[simp] theorem updStack_regions (n : Nat) (f : Stack → Stack) : (updStack s n f).regions = s.regions := rfl
@[simp] theorem updStack_tiles (n : Nat) (f : Stack → Stack) : (updStack s n f).tiles = s.tiles := rfl
@[simp] theorem updStack_engines (n : Nat) (f : Stack → Stack) : (updStack s n f).engines = s.engines := rfl
@[simp] theorem updStack_pool (n : Nat) (f : Stack → Stack) : (updStack s n f).pool = s.pool := rfl
@[simp] theorem updStack_pairs (n : Nat) (f : Stack → Stack) : (updStack s n f).pairs = s.pairs := rfl
@[simp] theorem updStack_ports (n : Nat) (f : Stack → Stack) : (updStack s n f).ports = s.ports := rfl
@[simp] theorem updStack_harbour (n : Nat) (f : Stack → Stack) : (updStack s n f).harbour = s.harbour := rfl
@[simp] theorem updStack_crossings (n : Nat) (f : Stack → Stack) : (updStack s n f).crossings = s.crossings := rfl
@[simp] theorem updStack_domains (n : Nat) (f : Stack → Stack) : (updStack s n f).domains = s.domains := rfl
@[simp] theorem updStack_power (n : Nat) (f : Stack → Stack) : (updStack s n f).power = s.power := rfl
@[simp] theorem updStack_thermal (n : Nat) (f : Stack → Stack) : (updStack s n f).thermal = s.thermal := rfl
@[simp] theorem updStack_recovery (n : Nat) (f : Stack → Stack) : (updStack s n f).recovery = s.recovery := rfl
@[simp] theorem updStack_faults (n : Nat) (f : Stack → Stack) : (updStack s n f).faults = s.faults := rfl
@[simp] theorem updStack_graphs (n : Nat) (f : Stack → Stack) : (updStack s n f).graphs = s.graphs := rfl
@[simp] theorem updStack_io (n : Nat) (f : Stack → Stack) : (updStack s n f).io = s.io := rfl
@[simp] theorem updStack_sent (n : Nat) (f : Stack → Stack) : (updStack s n f).sent = s.sent := rfl
@[simp] theorem updStack_fresh (n : Nat) (f : Stack → Stack) : (updStack s n f).fresh = s.fresh := rfl

@[simp] theorem updChannel_pending (n c : Nat) (f : StackChannel → StackChannel) : (updChannel s n c f).pending = s.pending := rfl
@[simp] theorem updChannel_ident (n c : Nat) (f : StackChannel → StackChannel) : (updChannel s n c f).ident = s.ident := rfl
@[simp] theorem updChannel_rst (n c : Nat) (f : StackChannel → StackChannel) : (updChannel s n c f).rst = s.rst := rfl
@[simp] theorem updChannel_sec (n c : Nat) (f : StackChannel → StackChannel) : (updChannel s n c f).sec = s.sec := rfl
@[simp] theorem updChannel_tide (n c : Nat) (f : StackChannel → StackChannel) : (updChannel s n c f).tide = s.tide := rfl
@[simp] theorem updChannel_mem (n c : Nat) (f : StackChannel → StackChannel) : (updChannel s n c f).mem = s.mem := rfl
@[simp] theorem updChannel_ctxs (n c : Nat) (f : StackChannel → StackChannel) : (updChannel s n c f).ctxs = s.ctxs := rfl
@[simp] theorem updChannel_mbx (n c : Nat) (f : StackChannel → StackChannel) : (updChannel s n c f).mbx = s.mbx := rfl
@[simp] theorem updChannel_reqs (n c : Nat) (f : StackChannel → StackChannel) : (updChannel s n c f).reqs = s.reqs := rfl
@[simp] theorem updChannel_sites (n c : Nat) (f : StackChannel → StackChannel) : (updChannel s n c f).sites = s.sites := rfl
@[simp] theorem updChannel_berths (n c : Nat) (f : StackChannel → StackChannel) : (updChannel s n c f).berths = s.berths := rfl
@[simp] theorem updChannel_regions (n c : Nat) (f : StackChannel → StackChannel) : (updChannel s n c f).regions = s.regions := rfl
@[simp] theorem updChannel_tiles (n c : Nat) (f : StackChannel → StackChannel) : (updChannel s n c f).tiles = s.tiles := rfl
@[simp] theorem updChannel_engines (n c : Nat) (f : StackChannel → StackChannel) : (updChannel s n c f).engines = s.engines := rfl
@[simp] theorem updChannel_pool (n c : Nat) (f : StackChannel → StackChannel) : (updChannel s n c f).pool = s.pool := rfl
@[simp] theorem updChannel_pairs (n c : Nat) (f : StackChannel → StackChannel) : (updChannel s n c f).pairs = s.pairs := rfl
@[simp] theorem updChannel_ports (n c : Nat) (f : StackChannel → StackChannel) : (updChannel s n c f).ports = s.ports := rfl
@[simp] theorem updChannel_harbour (n c : Nat) (f : StackChannel → StackChannel) : (updChannel s n c f).harbour = s.harbour := rfl
@[simp] theorem updChannel_crossings (n c : Nat) (f : StackChannel → StackChannel) : (updChannel s n c f).crossings = s.crossings := rfl
@[simp] theorem updChannel_domains (n c : Nat) (f : StackChannel → StackChannel) : (updChannel s n c f).domains = s.domains := rfl
@[simp] theorem updChannel_power (n c : Nat) (f : StackChannel → StackChannel) : (updChannel s n c f).power = s.power := rfl
@[simp] theorem updChannel_thermal (n c : Nat) (f : StackChannel → StackChannel) : (updChannel s n c f).thermal = s.thermal := rfl
@[simp] theorem updChannel_recovery (n c : Nat) (f : StackChannel → StackChannel) : (updChannel s n c f).recovery = s.recovery := rfl
@[simp] theorem updChannel_faults (n c : Nat) (f : StackChannel → StackChannel) : (updChannel s n c f).faults = s.faults := rfl
@[simp] theorem updChannel_graphs (n c : Nat) (f : StackChannel → StackChannel) : (updChannel s n c f).graphs = s.graphs := rfl
@[simp] theorem updChannel_io (n c : Nat) (f : StackChannel → StackChannel) : (updChannel s n c f).io = s.io := rfl
@[simp] theorem updChannel_sent (n c : Nat) (f : StackChannel → StackChannel) : (updChannel s n c f).sent = s.sent := rfl
@[simp] theorem updChannel_fresh (n c : Nat) (f : StackChannel → StackChannel) : (updChannel s n c f).fresh = s.fresh := rfl

@[simp] theorem updPair_pending (a b : Nat) (f : PairDir → PairDir) : (updPair s a b f).pending = s.pending := rfl
@[simp] theorem updPair_ident (a b : Nat) (f : PairDir → PairDir) : (updPair s a b f).ident = s.ident := rfl
@[simp] theorem updPair_rst (a b : Nat) (f : PairDir → PairDir) : (updPair s a b f).rst = s.rst := rfl
@[simp] theorem updPair_sec (a b : Nat) (f : PairDir → PairDir) : (updPair s a b f).sec = s.sec := rfl
@[simp] theorem updPair_tide (a b : Nat) (f : PairDir → PairDir) : (updPair s a b f).tide = s.tide := rfl
@[simp] theorem updPair_mem (a b : Nat) (f : PairDir → PairDir) : (updPair s a b f).mem = s.mem := rfl
@[simp] theorem updPair_ctxs (a b : Nat) (f : PairDir → PairDir) : (updPair s a b f).ctxs = s.ctxs := rfl
@[simp] theorem updPair_mbx (a b : Nat) (f : PairDir → PairDir) : (updPair s a b f).mbx = s.mbx := rfl
@[simp] theorem updPair_reqs (a b : Nat) (f : PairDir → PairDir) : (updPair s a b f).reqs = s.reqs := rfl
@[simp] theorem updPair_sites (a b : Nat) (f : PairDir → PairDir) : (updPair s a b f).sites = s.sites := rfl
@[simp] theorem updPair_berths (a b : Nat) (f : PairDir → PairDir) : (updPair s a b f).berths = s.berths := rfl
@[simp] theorem updPair_regions (a b : Nat) (f : PairDir → PairDir) : (updPair s a b f).regions = s.regions := rfl
@[simp] theorem updPair_tiles (a b : Nat) (f : PairDir → PairDir) : (updPair s a b f).tiles = s.tiles := rfl
@[simp] theorem updPair_engines (a b : Nat) (f : PairDir → PairDir) : (updPair s a b f).engines = s.engines := rfl
@[simp] theorem updPair_stackTab (a b : Nat) (f : PairDir → PairDir) : (updPair s a b f).stackTab = s.stackTab := rfl
@[simp] theorem updPair_pool (a b : Nat) (f : PairDir → PairDir) : (updPair s a b f).pool = s.pool := rfl
@[simp] theorem updPair_ports (a b : Nat) (f : PairDir → PairDir) : (updPair s a b f).ports = s.ports := rfl
@[simp] theorem updPair_harbour (a b : Nat) (f : PairDir → PairDir) : (updPair s a b f).harbour = s.harbour := rfl
@[simp] theorem updPair_crossings (a b : Nat) (f : PairDir → PairDir) : (updPair s a b f).crossings = s.crossings := rfl
@[simp] theorem updPair_domains (a b : Nat) (f : PairDir → PairDir) : (updPair s a b f).domains = s.domains := rfl
@[simp] theorem updPair_power (a b : Nat) (f : PairDir → PairDir) : (updPair s a b f).power = s.power := rfl
@[simp] theorem updPair_thermal (a b : Nat) (f : PairDir → PairDir) : (updPair s a b f).thermal = s.thermal := rfl
@[simp] theorem updPair_recovery (a b : Nat) (f : PairDir → PairDir) : (updPair s a b f).recovery = s.recovery := rfl
@[simp] theorem updPair_faults (a b : Nat) (f : PairDir → PairDir) : (updPair s a b f).faults = s.faults := rfl
@[simp] theorem updPair_graphs (a b : Nat) (f : PairDir → PairDir) : (updPair s a b f).graphs = s.graphs := rfl
@[simp] theorem updPair_io (a b : Nat) (f : PairDir → PairDir) : (updPair s a b f).io = s.io := rfl
@[simp] theorem updPair_sent (a b : Nat) (f : PairDir → PairDir) : (updPair s a b f).sent = s.sent := rfl
@[simp] theorem updPair_fresh (a b : Nat) (f : PairDir → PairDir) : (updPair s a b f).fresh = s.fresh := rfl

@[simp] theorem updPort_pending (k : Nat) (f : FabricPort → FabricPort) : (updPort s k f).pending = s.pending := rfl
@[simp] theorem updPort_ident (k : Nat) (f : FabricPort → FabricPort) : (updPort s k f).ident = s.ident := rfl
@[simp] theorem updPort_rst (k : Nat) (f : FabricPort → FabricPort) : (updPort s k f).rst = s.rst := rfl
@[simp] theorem updPort_sec (k : Nat) (f : FabricPort → FabricPort) : (updPort s k f).sec = s.sec := rfl
@[simp] theorem updPort_tide (k : Nat) (f : FabricPort → FabricPort) : (updPort s k f).tide = s.tide := rfl
@[simp] theorem updPort_mem (k : Nat) (f : FabricPort → FabricPort) : (updPort s k f).mem = s.mem := rfl
@[simp] theorem updPort_ctxs (k : Nat) (f : FabricPort → FabricPort) : (updPort s k f).ctxs = s.ctxs := rfl
@[simp] theorem updPort_mbx (k : Nat) (f : FabricPort → FabricPort) : (updPort s k f).mbx = s.mbx := rfl
@[simp] theorem updPort_reqs (k : Nat) (f : FabricPort → FabricPort) : (updPort s k f).reqs = s.reqs := rfl
@[simp] theorem updPort_sites (k : Nat) (f : FabricPort → FabricPort) : (updPort s k f).sites = s.sites := rfl
@[simp] theorem updPort_berths (k : Nat) (f : FabricPort → FabricPort) : (updPort s k f).berths = s.berths := rfl
@[simp] theorem updPort_regions (k : Nat) (f : FabricPort → FabricPort) : (updPort s k f).regions = s.regions := rfl
@[simp] theorem updPort_tiles (k : Nat) (f : FabricPort → FabricPort) : (updPort s k f).tiles = s.tiles := rfl
@[simp] theorem updPort_engines (k : Nat) (f : FabricPort → FabricPort) : (updPort s k f).engines = s.engines := rfl
@[simp] theorem updPort_stackTab (k : Nat) (f : FabricPort → FabricPort) : (updPort s k f).stackTab = s.stackTab := rfl
@[simp] theorem updPort_pool (k : Nat) (f : FabricPort → FabricPort) : (updPort s k f).pool = s.pool := rfl
@[simp] theorem updPort_pairs (k : Nat) (f : FabricPort → FabricPort) : (updPort s k f).pairs = s.pairs := rfl
@[simp] theorem updPort_harbour (k : Nat) (f : FabricPort → FabricPort) : (updPort s k f).harbour = s.harbour := rfl
@[simp] theorem updPort_crossings (k : Nat) (f : FabricPort → FabricPort) : (updPort s k f).crossings = s.crossings := rfl
@[simp] theorem updPort_domains (k : Nat) (f : FabricPort → FabricPort) : (updPort s k f).domains = s.domains := rfl
@[simp] theorem updPort_power (k : Nat) (f : FabricPort → FabricPort) : (updPort s k f).power = s.power := rfl
@[simp] theorem updPort_thermal (k : Nat) (f : FabricPort → FabricPort) : (updPort s k f).thermal = s.thermal := rfl
@[simp] theorem updPort_recovery (k : Nat) (f : FabricPort → FabricPort) : (updPort s k f).recovery = s.recovery := rfl
@[simp] theorem updPort_faults (k : Nat) (f : FabricPort → FabricPort) : (updPort s k f).faults = s.faults := rfl
@[simp] theorem updPort_graphs (k : Nat) (f : FabricPort → FabricPort) : (updPort s k f).graphs = s.graphs := rfl
@[simp] theorem updPort_io (k : Nat) (f : FabricPort → FabricPort) : (updPort s k f).io = s.io := rfl
@[simp] theorem updPort_sent (k : Nat) (f : FabricPort → FabricPort) : (updPort s k f).sent = s.sent := rfl
@[simp] theorem updPort_fresh (k : Nat) (f : FabricPort → FabricPort) : (updPort s k f).fresh = s.fresh := rfl

@[simp] theorem updDomain_pending (d : Nat) (f : Domain → Domain) : (updDomain s d f).pending = s.pending := rfl
@[simp] theorem updDomain_ident (d : Nat) (f : Domain → Domain) : (updDomain s d f).ident = s.ident := rfl
@[simp] theorem updDomain_rst (d : Nat) (f : Domain → Domain) : (updDomain s d f).rst = s.rst := rfl
@[simp] theorem updDomain_sec (d : Nat) (f : Domain → Domain) : (updDomain s d f).sec = s.sec := rfl
@[simp] theorem updDomain_tide (d : Nat) (f : Domain → Domain) : (updDomain s d f).tide = s.tide := rfl
@[simp] theorem updDomain_mem (d : Nat) (f : Domain → Domain) : (updDomain s d f).mem = s.mem := rfl
@[simp] theorem updDomain_ctxs (d : Nat) (f : Domain → Domain) : (updDomain s d f).ctxs = s.ctxs := rfl
@[simp] theorem updDomain_mbx (d : Nat) (f : Domain → Domain) : (updDomain s d f).mbx = s.mbx := rfl
@[simp] theorem updDomain_reqs (d : Nat) (f : Domain → Domain) : (updDomain s d f).reqs = s.reqs := rfl
@[simp] theorem updDomain_sites (d : Nat) (f : Domain → Domain) : (updDomain s d f).sites = s.sites := rfl
@[simp] theorem updDomain_berths (d : Nat) (f : Domain → Domain) : (updDomain s d f).berths = s.berths := rfl
@[simp] theorem updDomain_regions (d : Nat) (f : Domain → Domain) : (updDomain s d f).regions = s.regions := rfl
@[simp] theorem updDomain_tiles (d : Nat) (f : Domain → Domain) : (updDomain s d f).tiles = s.tiles := rfl
@[simp] theorem updDomain_engines (d : Nat) (f : Domain → Domain) : (updDomain s d f).engines = s.engines := rfl
@[simp] theorem updDomain_stackTab (d : Nat) (f : Domain → Domain) : (updDomain s d f).stackTab = s.stackTab := rfl
@[simp] theorem updDomain_pool (d : Nat) (f : Domain → Domain) : (updDomain s d f).pool = s.pool := rfl
@[simp] theorem updDomain_pairs (d : Nat) (f : Domain → Domain) : (updDomain s d f).pairs = s.pairs := rfl
@[simp] theorem updDomain_ports (d : Nat) (f : Domain → Domain) : (updDomain s d f).ports = s.ports := rfl
@[simp] theorem updDomain_harbour (d : Nat) (f : Domain → Domain) : (updDomain s d f).harbour = s.harbour := rfl
@[simp] theorem updDomain_crossings (d : Nat) (f : Domain → Domain) : (updDomain s d f).crossings = s.crossings := rfl
@[simp] theorem updDomain_power (d : Nat) (f : Domain → Domain) : (updDomain s d f).power = s.power := rfl
@[simp] theorem updDomain_thermal (d : Nat) (f : Domain → Domain) : (updDomain s d f).thermal = s.thermal := rfl
@[simp] theorem updDomain_recovery (d : Nat) (f : Domain → Domain) : (updDomain s d f).recovery = s.recovery := rfl
@[simp] theorem updDomain_faults (d : Nat) (f : Domain → Domain) : (updDomain s d f).faults = s.faults := rfl
@[simp] theorem updDomain_graphs (d : Nat) (f : Domain → Domain) : (updDomain s d f).graphs = s.graphs := rfl
@[simp] theorem updDomain_io (d : Nat) (f : Domain → Domain) : (updDomain s d f).io = s.io := rfl
@[simp] theorem updDomain_sent (d : Nat) (f : Domain → Domain) : (updDomain s d f).sent = s.sent := rfl
@[simp] theorem updDomain_fresh (d : Nat) (f : Domain → Domain) : (updDomain s d f).fresh = s.fresh := rfl

@[simp] theorem updLink_pending (k : Nat) (f : Link → Link) : (updLink s k f).pending = s.pending := rfl
@[simp] theorem updLink_ident (k : Nat) (f : Link → Link) : (updLink s k f).ident = s.ident := rfl
@[simp] theorem updLink_rst (k : Nat) (f : Link → Link) : (updLink s k f).rst = s.rst := rfl
@[simp] theorem updLink_sec (k : Nat) (f : Link → Link) : (updLink s k f).sec = s.sec := rfl
@[simp] theorem updLink_tide (k : Nat) (f : Link → Link) : (updLink s k f).tide = s.tide := rfl
@[simp] theorem updLink_mem (k : Nat) (f : Link → Link) : (updLink s k f).mem = s.mem := rfl
@[simp] theorem updLink_ctxs (k : Nat) (f : Link → Link) : (updLink s k f).ctxs = s.ctxs := rfl
@[simp] theorem updLink_mbx (k : Nat) (f : Link → Link) : (updLink s k f).mbx = s.mbx := rfl
@[simp] theorem updLink_reqs (k : Nat) (f : Link → Link) : (updLink s k f).reqs = s.reqs := rfl
@[simp] theorem updLink_sites (k : Nat) (f : Link → Link) : (updLink s k f).sites = s.sites := rfl
@[simp] theorem updLink_berths (k : Nat) (f : Link → Link) : (updLink s k f).berths = s.berths := rfl
@[simp] theorem updLink_regions (k : Nat) (f : Link → Link) : (updLink s k f).regions = s.regions := rfl
@[simp] theorem updLink_tiles (k : Nat) (f : Link → Link) : (updLink s k f).tiles = s.tiles := rfl
@[simp] theorem updLink_engines (k : Nat) (f : Link → Link) : (updLink s k f).engines = s.engines := rfl
@[simp] theorem updLink_stackTab (k : Nat) (f : Link → Link) : (updLink s k f).stackTab = s.stackTab := rfl
@[simp] theorem updLink_pool (k : Nat) (f : Link → Link) : (updLink s k f).pool = s.pool := rfl
@[simp] theorem updLink_pairs (k : Nat) (f : Link → Link) : (updLink s k f).pairs = s.pairs := rfl
@[simp] theorem updLink_ports (k : Nat) (f : Link → Link) : (updLink s k f).ports = s.ports := rfl
@[simp] theorem updLink_crossings (k : Nat) (f : Link → Link) : (updLink s k f).crossings = s.crossings := rfl
@[simp] theorem updLink_domains (k : Nat) (f : Link → Link) : (updLink s k f).domains = s.domains := rfl
@[simp] theorem updLink_power (k : Nat) (f : Link → Link) : (updLink s k f).power = s.power := rfl
@[simp] theorem updLink_thermal (k : Nat) (f : Link → Link) : (updLink s k f).thermal = s.thermal := rfl
@[simp] theorem updLink_recovery (k : Nat) (f : Link → Link) : (updLink s k f).recovery = s.recovery := rfl
@[simp] theorem updLink_faults (k : Nat) (f : Link → Link) : (updLink s k f).faults = s.faults := rfl
@[simp] theorem updLink_graphs (k : Nat) (f : Link → Link) : (updLink s k f).graphs = s.graphs := rfl
@[simp] theorem updLink_io (k : Nat) (f : Link → Link) : (updLink s k f).io = s.io := rfl
@[simp] theorem updLink_sent (k : Nat) (f : Link → Link) : (updLink s k f).sent = s.sent := rfl
@[simp] theorem updLink_fresh (k : Nat) (f : Link → Link) : (updLink s k f).fresh = s.fresh := rfl

@[simp] theorem updMember_pending (p : Nat) (f : Member → Member) : (updMember s p f).pending = s.pending := rfl
@[simp] theorem updMember_ident (p : Nat) (f : Member → Member) : (updMember s p f).ident = s.ident := rfl
@[simp] theorem updMember_rst (p : Nat) (f : Member → Member) : (updMember s p f).rst = s.rst := rfl
@[simp] theorem updMember_sec (p : Nat) (f : Member → Member) : (updMember s p f).sec = s.sec := rfl
@[simp] theorem updMember_tide (p : Nat) (f : Member → Member) : (updMember s p f).tide = s.tide := rfl
@[simp] theorem updMember_mem (p : Nat) (f : Member → Member) : (updMember s p f).mem = s.mem := rfl
@[simp] theorem updMember_ctxs (p : Nat) (f : Member → Member) : (updMember s p f).ctxs = s.ctxs := rfl
@[simp] theorem updMember_mbx (p : Nat) (f : Member → Member) : (updMember s p f).mbx = s.mbx := rfl
@[simp] theorem updMember_reqs (p : Nat) (f : Member → Member) : (updMember s p f).reqs = s.reqs := rfl
@[simp] theorem updMember_sites (p : Nat) (f : Member → Member) : (updMember s p f).sites = s.sites := rfl
@[simp] theorem updMember_berths (p : Nat) (f : Member → Member) : (updMember s p f).berths = s.berths := rfl
@[simp] theorem updMember_regions (p : Nat) (f : Member → Member) : (updMember s p f).regions = s.regions := rfl
@[simp] theorem updMember_tiles (p : Nat) (f : Member → Member) : (updMember s p f).tiles = s.tiles := rfl
@[simp] theorem updMember_engines (p : Nat) (f : Member → Member) : (updMember s p f).engines = s.engines := rfl
@[simp] theorem updMember_stackTab (p : Nat) (f : Member → Member) : (updMember s p f).stackTab = s.stackTab := rfl
@[simp] theorem updMember_pool (p : Nat) (f : Member → Member) : (updMember s p f).pool = s.pool := rfl
@[simp] theorem updMember_pairs (p : Nat) (f : Member → Member) : (updMember s p f).pairs = s.pairs := rfl
@[simp] theorem updMember_ports (p : Nat) (f : Member → Member) : (updMember s p f).ports = s.ports := rfl
@[simp] theorem updMember_crossings (p : Nat) (f : Member → Member) : (updMember s p f).crossings = s.crossings := rfl
@[simp] theorem updMember_domains (p : Nat) (f : Member → Member) : (updMember s p f).domains = s.domains := rfl
@[simp] theorem updMember_power (p : Nat) (f : Member → Member) : (updMember s p f).power = s.power := rfl
@[simp] theorem updMember_thermal (p : Nat) (f : Member → Member) : (updMember s p f).thermal = s.thermal := rfl
@[simp] theorem updMember_recovery (p : Nat) (f : Member → Member) : (updMember s p f).recovery = s.recovery := rfl
@[simp] theorem updMember_faults (p : Nat) (f : Member → Member) : (updMember s p f).faults = s.faults := rfl
@[simp] theorem updMember_graphs (p : Nat) (f : Member → Member) : (updMember s p f).graphs = s.graphs := rfl
@[simp] theorem updMember_io (p : Nat) (f : Member → Member) : (updMember s p f).io = s.io := rfl
@[simp] theorem updMember_sent (p : Nat) (f : Member → Member) : (updMember s p f).sent = s.sent := rfl
@[simp] theorem updMember_fresh (p : Nat) (f : Member → Member) : (updMember s p f).fresh = s.fresh := rfl

@[simp] theorem updPart_pending (p : Nat) (f : Partition → Partition) : (updPart s p f).pending = s.pending := rfl
@[simp] theorem updPart_ident (p : Nat) (f : Partition → Partition) : (updPart s p f).ident = s.ident := rfl
@[simp] theorem updPart_rst (p : Nat) (f : Partition → Partition) : (updPart s p f).rst = s.rst := rfl
@[simp] theorem updPart_tide (p : Nat) (f : Partition → Partition) : (updPart s p f).tide = s.tide := rfl
@[simp] theorem updPart_mem (p : Nat) (f : Partition → Partition) : (updPart s p f).mem = s.mem := rfl
@[simp] theorem updPart_ctxs (p : Nat) (f : Partition → Partition) : (updPart s p f).ctxs = s.ctxs := rfl
@[simp] theorem updPart_mbx (p : Nat) (f : Partition → Partition) : (updPart s p f).mbx = s.mbx := rfl
@[simp] theorem updPart_reqs (p : Nat) (f : Partition → Partition) : (updPart s p f).reqs = s.reqs := rfl
@[simp] theorem updPart_sites (p : Nat) (f : Partition → Partition) : (updPart s p f).sites = s.sites := rfl
@[simp] theorem updPart_berths (p : Nat) (f : Partition → Partition) : (updPart s p f).berths = s.berths := rfl
@[simp] theorem updPart_regions (p : Nat) (f : Partition → Partition) : (updPart s p f).regions = s.regions := rfl
@[simp] theorem updPart_tiles (p : Nat) (f : Partition → Partition) : (updPart s p f).tiles = s.tiles := rfl
@[simp] theorem updPart_engines (p : Nat) (f : Partition → Partition) : (updPart s p f).engines = s.engines := rfl
@[simp] theorem updPart_stackTab (p : Nat) (f : Partition → Partition) : (updPart s p f).stackTab = s.stackTab := rfl
@[simp] theorem updPart_pool (p : Nat) (f : Partition → Partition) : (updPart s p f).pool = s.pool := rfl
@[simp] theorem updPart_pairs (p : Nat) (f : Partition → Partition) : (updPart s p f).pairs = s.pairs := rfl
@[simp] theorem updPart_ports (p : Nat) (f : Partition → Partition) : (updPart s p f).ports = s.ports := rfl
@[simp] theorem updPart_harbour (p : Nat) (f : Partition → Partition) : (updPart s p f).harbour = s.harbour := rfl
@[simp] theorem updPart_crossings (p : Nat) (f : Partition → Partition) : (updPart s p f).crossings = s.crossings := rfl
@[simp] theorem updPart_domains (p : Nat) (f : Partition → Partition) : (updPart s p f).domains = s.domains := rfl
@[simp] theorem updPart_power (p : Nat) (f : Partition → Partition) : (updPart s p f).power = s.power := rfl
@[simp] theorem updPart_thermal (p : Nat) (f : Partition → Partition) : (updPart s p f).thermal = s.thermal := rfl
@[simp] theorem updPart_recovery (p : Nat) (f : Partition → Partition) : (updPart s p f).recovery = s.recovery := rfl
@[simp] theorem updPart_faults (p : Nat) (f : Partition → Partition) : (updPart s p f).faults = s.faults := rfl
@[simp] theorem updPart_graphs (p : Nat) (f : Partition → Partition) : (updPart s p f).graphs = s.graphs := rfl
@[simp] theorem updPart_io (p : Nat) (f : Partition → Partition) : (updPart s p f).io = s.io := rfl
@[simp] theorem updPart_sent (p : Nat) (f : Partition → Partition) : (updPart s p f).sent = s.sent := rfl
@[simp] theorem updPart_fresh (p : Nat) (f : Partition → Partition) : (updPart s p f).fresh = s.fresh := rfl

@[simp] theorem updCmd_pending (id : CmdId) (f : Cmd → Cmd) : (updCmd s id f).pending = s.pending := rfl
@[simp] theorem updCmd_ident (id : CmdId) (f : Cmd → Cmd) : (updCmd s id f).ident = s.ident := rfl
@[simp] theorem updCmd_rst (id : CmdId) (f : Cmd → Cmd) : (updCmd s id f).rst = s.rst := rfl
@[simp] theorem updCmd_sec (id : CmdId) (f : Cmd → Cmd) : (updCmd s id f).sec = s.sec := rfl
@[simp] theorem updCmd_tide (id : CmdId) (f : Cmd → Cmd) : (updCmd s id f).tide = s.tide := rfl
@[simp] theorem updCmd_mem (id : CmdId) (f : Cmd → Cmd) : (updCmd s id f).mem = s.mem := rfl
@[simp] theorem updCmd_mbx (id : CmdId) (f : Cmd → Cmd) : (updCmd s id f).mbx = s.mbx := rfl
@[simp] theorem updCmd_reqs (id : CmdId) (f : Cmd → Cmd) : (updCmd s id f).reqs = s.reqs := rfl
@[simp] theorem updCmd_sites (id : CmdId) (f : Cmd → Cmd) : (updCmd s id f).sites = s.sites := rfl
@[simp] theorem updCmd_berths (id : CmdId) (f : Cmd → Cmd) : (updCmd s id f).berths = s.berths := rfl
@[simp] theorem updCmd_regions (id : CmdId) (f : Cmd → Cmd) : (updCmd s id f).regions = s.regions := rfl
@[simp] theorem updCmd_tiles (id : CmdId) (f : Cmd → Cmd) : (updCmd s id f).tiles = s.tiles := rfl
@[simp] theorem updCmd_engines (id : CmdId) (f : Cmd → Cmd) : (updCmd s id f).engines = s.engines := rfl
@[simp] theorem updCmd_stackTab (id : CmdId) (f : Cmd → Cmd) : (updCmd s id f).stackTab = s.stackTab := rfl
@[simp] theorem updCmd_pool (id : CmdId) (f : Cmd → Cmd) : (updCmd s id f).pool = s.pool := rfl
@[simp] theorem updCmd_pairs (id : CmdId) (f : Cmd → Cmd) : (updCmd s id f).pairs = s.pairs := rfl
@[simp] theorem updCmd_ports (id : CmdId) (f : Cmd → Cmd) : (updCmd s id f).ports = s.ports := rfl
@[simp] theorem updCmd_harbour (id : CmdId) (f : Cmd → Cmd) : (updCmd s id f).harbour = s.harbour := rfl
@[simp] theorem updCmd_crossings (id : CmdId) (f : Cmd → Cmd) : (updCmd s id f).crossings = s.crossings := rfl
@[simp] theorem updCmd_domains (id : CmdId) (f : Cmd → Cmd) : (updCmd s id f).domains = s.domains := rfl
@[simp] theorem updCmd_power (id : CmdId) (f : Cmd → Cmd) : (updCmd s id f).power = s.power := rfl
@[simp] theorem updCmd_thermal (id : CmdId) (f : Cmd → Cmd) : (updCmd s id f).thermal = s.thermal := rfl
@[simp] theorem updCmd_recovery (id : CmdId) (f : Cmd → Cmd) : (updCmd s id f).recovery = s.recovery := rfl
@[simp] theorem updCmd_faults (id : CmdId) (f : Cmd → Cmd) : (updCmd s id f).faults = s.faults := rfl
@[simp] theorem updCmd_graphs (id : CmdId) (f : Cmd → Cmd) : (updCmd s id f).graphs = s.graphs := rfl
@[simp] theorem updCmd_io (id : CmdId) (f : Cmd → Cmd) : (updCmd s id f).io = s.io := rfl
@[simp] theorem updCmd_sent (id : CmdId) (f : Cmd → Cmd) : (updCmd s id f).sent = s.sent := rfl
@[simp] theorem updCmd_fresh (id : CmdId) (f : Cmd → Cmd) : (updCmd s id f).fresh = s.fresh := rfl

@[simp] theorem updCounter_pending (b i : Nat) (f : W64 → W64) : (updCounter s b i f).pending = s.pending := rfl
@[simp] theorem updCounter_ident (b i : Nat) (f : W64 → W64) : (updCounter s b i f).ident = s.ident := rfl
@[simp] theorem updCounter_rst (b i : Nat) (f : W64 → W64) : (updCounter s b i f).rst = s.rst := rfl
@[simp] theorem updCounter_sec (b i : Nat) (f : W64 → W64) : (updCounter s b i f).sec = s.sec := rfl
@[simp] theorem updCounter_tide (b i : Nat) (f : W64 → W64) : (updCounter s b i f).tide = s.tide := rfl
@[simp] theorem updCounter_ctxs (b i : Nat) (f : W64 → W64) : (updCounter s b i f).ctxs = s.ctxs := rfl
@[simp] theorem updCounter_mbx (b i : Nat) (f : W64 → W64) : (updCounter s b i f).mbx = s.mbx := rfl
@[simp] theorem updCounter_reqs (b i : Nat) (f : W64 → W64) : (updCounter s b i f).reqs = s.reqs := rfl
@[simp] theorem updCounter_sites (b i : Nat) (f : W64 → W64) : (updCounter s b i f).sites = s.sites := rfl
@[simp] theorem updCounter_berths (b i : Nat) (f : W64 → W64) : (updCounter s b i f).berths = s.berths := rfl
@[simp] theorem updCounter_regions (b i : Nat) (f : W64 → W64) : (updCounter s b i f).regions = s.regions := rfl
@[simp] theorem updCounter_tiles (b i : Nat) (f : W64 → W64) : (updCounter s b i f).tiles = s.tiles := rfl
@[simp] theorem updCounter_engines (b i : Nat) (f : W64 → W64) : (updCounter s b i f).engines = s.engines := rfl
@[simp] theorem updCounter_stackTab (b i : Nat) (f : W64 → W64) : (updCounter s b i f).stackTab = s.stackTab := rfl
@[simp] theorem updCounter_pool (b i : Nat) (f : W64 → W64) : (updCounter s b i f).pool = s.pool := rfl
@[simp] theorem updCounter_pairs (b i : Nat) (f : W64 → W64) : (updCounter s b i f).pairs = s.pairs := rfl
@[simp] theorem updCounter_ports (b i : Nat) (f : W64 → W64) : (updCounter s b i f).ports = s.ports := rfl
@[simp] theorem updCounter_harbour (b i : Nat) (f : W64 → W64) : (updCounter s b i f).harbour = s.harbour := rfl
@[simp] theorem updCounter_crossings (b i : Nat) (f : W64 → W64) : (updCounter s b i f).crossings = s.crossings := rfl
@[simp] theorem updCounter_domains (b i : Nat) (f : W64 → W64) : (updCounter s b i f).domains = s.domains := rfl
@[simp] theorem updCounter_power (b i : Nat) (f : W64 → W64) : (updCounter s b i f).power = s.power := rfl
@[simp] theorem updCounter_thermal (b i : Nat) (f : W64 → W64) : (updCounter s b i f).thermal = s.thermal := rfl
@[simp] theorem updCounter_recovery (b i : Nat) (f : W64 → W64) : (updCounter s b i f).recovery = s.recovery := rfl
@[simp] theorem updCounter_faults (b i : Nat) (f : W64 → W64) : (updCounter s b i f).faults = s.faults := rfl
@[simp] theorem updCounter_graphs (b i : Nat) (f : W64 → W64) : (updCounter s b i f).graphs = s.graphs := rfl
@[simp] theorem updCounter_io (b i : Nat) (f : W64 → W64) : (updCounter s b i f).io = s.io := rfl
@[simp] theorem updCounter_sent (b i : Nat) (f : W64 → W64) : (updCounter s b i f).sent = s.sent := rfl
@[simp] theorem updCounter_fresh (b i : Nat) (f : W64 → W64) : (updCounter s b i f).fresh = s.fresh := rfl

@[simp] theorem writeBytes_pending (a : Nat) (bs : List Byte) : (writeBytes s a bs).pending = s.pending := rfl
@[simp] theorem writeBytes_ident (a : Nat) (bs : List Byte) : (writeBytes s a bs).ident = s.ident := rfl
@[simp] theorem writeBytes_rst (a : Nat) (bs : List Byte) : (writeBytes s a bs).rst = s.rst := rfl
@[simp] theorem writeBytes_sec (a : Nat) (bs : List Byte) : (writeBytes s a bs).sec = s.sec := rfl
@[simp] theorem writeBytes_tide (a : Nat) (bs : List Byte) : (writeBytes s a bs).tide = s.tide := rfl
@[simp] theorem writeBytes_ctxs (a : Nat) (bs : List Byte) : (writeBytes s a bs).ctxs = s.ctxs := rfl
@[simp] theorem writeBytes_mbx (a : Nat) (bs : List Byte) : (writeBytes s a bs).mbx = s.mbx := rfl
@[simp] theorem writeBytes_reqs (a : Nat) (bs : List Byte) : (writeBytes s a bs).reqs = s.reqs := rfl
@[simp] theorem writeBytes_sites (a : Nat) (bs : List Byte) : (writeBytes s a bs).sites = s.sites := rfl
@[simp] theorem writeBytes_berths (a : Nat) (bs : List Byte) : (writeBytes s a bs).berths = s.berths := rfl
@[simp] theorem writeBytes_regions (a : Nat) (bs : List Byte) : (writeBytes s a bs).regions = s.regions := rfl
@[simp] theorem writeBytes_tiles (a : Nat) (bs : List Byte) : (writeBytes s a bs).tiles = s.tiles := rfl
@[simp] theorem writeBytes_engines (a : Nat) (bs : List Byte) : (writeBytes s a bs).engines = s.engines := rfl
@[simp] theorem writeBytes_stackTab (a : Nat) (bs : List Byte) : (writeBytes s a bs).stackTab = s.stackTab := rfl
@[simp] theorem writeBytes_pool (a : Nat) (bs : List Byte) : (writeBytes s a bs).pool = s.pool := rfl
@[simp] theorem writeBytes_pairs (a : Nat) (bs : List Byte) : (writeBytes s a bs).pairs = s.pairs := rfl
@[simp] theorem writeBytes_ports (a : Nat) (bs : List Byte) : (writeBytes s a bs).ports = s.ports := rfl
@[simp] theorem writeBytes_harbour (a : Nat) (bs : List Byte) : (writeBytes s a bs).harbour = s.harbour := rfl
@[simp] theorem writeBytes_crossings (a : Nat) (bs : List Byte) : (writeBytes s a bs).crossings = s.crossings := rfl
@[simp] theorem writeBytes_domains (a : Nat) (bs : List Byte) : (writeBytes s a bs).domains = s.domains := rfl
@[simp] theorem writeBytes_power (a : Nat) (bs : List Byte) : (writeBytes s a bs).power = s.power := rfl
@[simp] theorem writeBytes_thermal (a : Nat) (bs : List Byte) : (writeBytes s a bs).thermal = s.thermal := rfl
@[simp] theorem writeBytes_recovery (a : Nat) (bs : List Byte) : (writeBytes s a bs).recovery = s.recovery := rfl
@[simp] theorem writeBytes_faults (a : Nat) (bs : List Byte) : (writeBytes s a bs).faults = s.faults := rfl
@[simp] theorem writeBytes_graphs (a : Nat) (bs : List Byte) : (writeBytes s a bs).graphs = s.graphs := rfl
@[simp] theorem writeBytes_io (a : Nat) (bs : List Byte) : (writeBytes s a bs).io = s.io := rfl
@[simp] theorem writeBytes_sent (a : Nat) (bs : List Byte) : (writeBytes s a bs).sent = s.sent := rfl
@[simp] theorem writeBytes_fresh (a : Nat) (bs : List Byte) : (writeBytes s a bs).fresh = s.fresh := rfl

@[simp] theorem writeCells_pending (l : List (Nat × Byte)) : (writeCells s l).pending = s.pending := rfl
@[simp] theorem writeCells_ident (l : List (Nat × Byte)) : (writeCells s l).ident = s.ident := rfl
@[simp] theorem writeCells_rst (l : List (Nat × Byte)) : (writeCells s l).rst = s.rst := rfl
@[simp] theorem writeCells_sec (l : List (Nat × Byte)) : (writeCells s l).sec = s.sec := rfl
@[simp] theorem writeCells_tide (l : List (Nat × Byte)) : (writeCells s l).tide = s.tide := rfl
@[simp] theorem writeCells_ctxs (l : List (Nat × Byte)) : (writeCells s l).ctxs = s.ctxs := rfl
@[simp] theorem writeCells_mbx (l : List (Nat × Byte)) : (writeCells s l).mbx = s.mbx := rfl
@[simp] theorem writeCells_reqs (l : List (Nat × Byte)) : (writeCells s l).reqs = s.reqs := rfl
@[simp] theorem writeCells_sites (l : List (Nat × Byte)) : (writeCells s l).sites = s.sites := rfl
@[simp] theorem writeCells_berths (l : List (Nat × Byte)) : (writeCells s l).berths = s.berths := rfl
@[simp] theorem writeCells_regions (l : List (Nat × Byte)) : (writeCells s l).regions = s.regions := rfl
@[simp] theorem writeCells_tiles (l : List (Nat × Byte)) : (writeCells s l).tiles = s.tiles := rfl
@[simp] theorem writeCells_engines (l : List (Nat × Byte)) : (writeCells s l).engines = s.engines := rfl
@[simp] theorem writeCells_stackTab (l : List (Nat × Byte)) : (writeCells s l).stackTab = s.stackTab := rfl
@[simp] theorem writeCells_pool (l : List (Nat × Byte)) : (writeCells s l).pool = s.pool := rfl
@[simp] theorem writeCells_pairs (l : List (Nat × Byte)) : (writeCells s l).pairs = s.pairs := rfl
@[simp] theorem writeCells_ports (l : List (Nat × Byte)) : (writeCells s l).ports = s.ports := rfl
@[simp] theorem writeCells_harbour (l : List (Nat × Byte)) : (writeCells s l).harbour = s.harbour := rfl
@[simp] theorem writeCells_crossings (l : List (Nat × Byte)) : (writeCells s l).crossings = s.crossings := rfl
@[simp] theorem writeCells_domains (l : List (Nat × Byte)) : (writeCells s l).domains = s.domains := rfl
@[simp] theorem writeCells_power (l : List (Nat × Byte)) : (writeCells s l).power = s.power := rfl
@[simp] theorem writeCells_thermal (l : List (Nat × Byte)) : (writeCells s l).thermal = s.thermal := rfl
@[simp] theorem writeCells_recovery (l : List (Nat × Byte)) : (writeCells s l).recovery = s.recovery := rfl
@[simp] theorem writeCells_faults (l : List (Nat × Byte)) : (writeCells s l).faults = s.faults := rfl
@[simp] theorem writeCells_graphs (l : List (Nat × Byte)) : (writeCells s l).graphs = s.graphs := rfl
@[simp] theorem writeCells_io (l : List (Nat × Byte)) : (writeCells s l).io = s.io := rfl
@[simp] theorem writeCells_sent (l : List (Nat × Byte)) : (writeCells s l).sent = s.sent := rfl
@[simp] theorem writeCells_fresh (l : List (Nat × Byte)) : (writeCells s l).fresh = s.fresh := rfl

@[simp] theorem writeHost_pending (a : Nat) (bs : List Byte) : (writeHost s a bs).pending = s.pending := rfl
@[simp] theorem writeHost_ident (a : Nat) (bs : List Byte) : (writeHost s a bs).ident = s.ident := rfl
@[simp] theorem writeHost_rst (a : Nat) (bs : List Byte) : (writeHost s a bs).rst = s.rst := rfl
@[simp] theorem writeHost_sec (a : Nat) (bs : List Byte) : (writeHost s a bs).sec = s.sec := rfl
@[simp] theorem writeHost_tide (a : Nat) (bs : List Byte) : (writeHost s a bs).tide = s.tide := rfl
@[simp] theorem writeHost_ctxs (a : Nat) (bs : List Byte) : (writeHost s a bs).ctxs = s.ctxs := rfl
@[simp] theorem writeHost_mbx (a : Nat) (bs : List Byte) : (writeHost s a bs).mbx = s.mbx := rfl
@[simp] theorem writeHost_reqs (a : Nat) (bs : List Byte) : (writeHost s a bs).reqs = s.reqs := rfl
@[simp] theorem writeHost_sites (a : Nat) (bs : List Byte) : (writeHost s a bs).sites = s.sites := rfl
@[simp] theorem writeHost_berths (a : Nat) (bs : List Byte) : (writeHost s a bs).berths = s.berths := rfl
@[simp] theorem writeHost_regions (a : Nat) (bs : List Byte) : (writeHost s a bs).regions = s.regions := rfl
@[simp] theorem writeHost_tiles (a : Nat) (bs : List Byte) : (writeHost s a bs).tiles = s.tiles := rfl
@[simp] theorem writeHost_engines (a : Nat) (bs : List Byte) : (writeHost s a bs).engines = s.engines := rfl
@[simp] theorem writeHost_stackTab (a : Nat) (bs : List Byte) : (writeHost s a bs).stackTab = s.stackTab := rfl
@[simp] theorem writeHost_pool (a : Nat) (bs : List Byte) : (writeHost s a bs).pool = s.pool := rfl
@[simp] theorem writeHost_pairs (a : Nat) (bs : List Byte) : (writeHost s a bs).pairs = s.pairs := rfl
@[simp] theorem writeHost_ports (a : Nat) (bs : List Byte) : (writeHost s a bs).ports = s.ports := rfl
@[simp] theorem writeHost_harbour (a : Nat) (bs : List Byte) : (writeHost s a bs).harbour = s.harbour := rfl
@[simp] theorem writeHost_crossings (a : Nat) (bs : List Byte) : (writeHost s a bs).crossings = s.crossings := rfl
@[simp] theorem writeHost_domains (a : Nat) (bs : List Byte) : (writeHost s a bs).domains = s.domains := rfl
@[simp] theorem writeHost_power (a : Nat) (bs : List Byte) : (writeHost s a bs).power = s.power := rfl
@[simp] theorem writeHost_thermal (a : Nat) (bs : List Byte) : (writeHost s a bs).thermal = s.thermal := rfl
@[simp] theorem writeHost_recovery (a : Nat) (bs : List Byte) : (writeHost s a bs).recovery = s.recovery := rfl
@[simp] theorem writeHost_faults (a : Nat) (bs : List Byte) : (writeHost s a bs).faults = s.faults := rfl
@[simp] theorem writeHost_graphs (a : Nat) (bs : List Byte) : (writeHost s a bs).graphs = s.graphs := rfl
@[simp] theorem writeHost_io (a : Nat) (bs : List Byte) : (writeHost s a bs).io = s.io := rfl
@[simp] theorem writeHost_sent (a : Nat) (bs : List Byte) : (writeHost s a bs).sent = s.sent := rfl
@[simp] theorem writeHost_fresh (a : Nat) (bs : List Byte) : (writeHost s a bs).fresh = s.fresh := rfl

@[simp] theorem setPoison_pending (k : Nat) (v : Bool) : (setPoison s k v).pending = s.pending := rfl
@[simp] theorem setPoison_ident (k : Nat) (v : Bool) : (setPoison s k v).ident = s.ident := rfl
@[simp] theorem setPoison_rst (k : Nat) (v : Bool) : (setPoison s k v).rst = s.rst := rfl
@[simp] theorem setPoison_sec (k : Nat) (v : Bool) : (setPoison s k v).sec = s.sec := rfl
@[simp] theorem setPoison_tide (k : Nat) (v : Bool) : (setPoison s k v).tide = s.tide := rfl
@[simp] theorem setPoison_ctxs (k : Nat) (v : Bool) : (setPoison s k v).ctxs = s.ctxs := rfl
@[simp] theorem setPoison_mbx (k : Nat) (v : Bool) : (setPoison s k v).mbx = s.mbx := rfl
@[simp] theorem setPoison_reqs (k : Nat) (v : Bool) : (setPoison s k v).reqs = s.reqs := rfl
@[simp] theorem setPoison_sites (k : Nat) (v : Bool) : (setPoison s k v).sites = s.sites := rfl
@[simp] theorem setPoison_berths (k : Nat) (v : Bool) : (setPoison s k v).berths = s.berths := rfl
@[simp] theorem setPoison_regions (k : Nat) (v : Bool) : (setPoison s k v).regions = s.regions := rfl
@[simp] theorem setPoison_tiles (k : Nat) (v : Bool) : (setPoison s k v).tiles = s.tiles := rfl
@[simp] theorem setPoison_engines (k : Nat) (v : Bool) : (setPoison s k v).engines = s.engines := rfl
@[simp] theorem setPoison_stackTab (k : Nat) (v : Bool) : (setPoison s k v).stackTab = s.stackTab := rfl
@[simp] theorem setPoison_pool (k : Nat) (v : Bool) : (setPoison s k v).pool = s.pool := rfl
@[simp] theorem setPoison_pairs (k : Nat) (v : Bool) : (setPoison s k v).pairs = s.pairs := rfl
@[simp] theorem setPoison_ports (k : Nat) (v : Bool) : (setPoison s k v).ports = s.ports := rfl
@[simp] theorem setPoison_harbour (k : Nat) (v : Bool) : (setPoison s k v).harbour = s.harbour := rfl
@[simp] theorem setPoison_crossings (k : Nat) (v : Bool) : (setPoison s k v).crossings = s.crossings := rfl
@[simp] theorem setPoison_domains (k : Nat) (v : Bool) : (setPoison s k v).domains = s.domains := rfl
@[simp] theorem setPoison_power (k : Nat) (v : Bool) : (setPoison s k v).power = s.power := rfl
@[simp] theorem setPoison_thermal (k : Nat) (v : Bool) : (setPoison s k v).thermal = s.thermal := rfl
@[simp] theorem setPoison_recovery (k : Nat) (v : Bool) : (setPoison s k v).recovery = s.recovery := rfl
@[simp] theorem setPoison_faults (k : Nat) (v : Bool) : (setPoison s k v).faults = s.faults := rfl
@[simp] theorem setPoison_graphs (k : Nat) (v : Bool) : (setPoison s k v).graphs = s.graphs := rfl
@[simp] theorem setPoison_io (k : Nat) (v : Bool) : (setPoison s k v).io = s.io := rfl
@[simp] theorem setPoison_sent (k : Nat) (v : Bool) : (setPoison s k v).sent = s.sent := rfl
@[simp] theorem setPoison_fresh (k : Nat) (v : Bool) : (setPoison s k v).fresh = s.fresh := rfl

@[simp] theorem setPoisonWord_pending (k : Nat) (v : Bool) : (setPoisonWord s k v).pending = s.pending := rfl
@[simp] theorem setPoisonWord_ident (k : Nat) (v : Bool) : (setPoisonWord s k v).ident = s.ident := rfl
@[simp] theorem setPoisonWord_rst (k : Nat) (v : Bool) : (setPoisonWord s k v).rst = s.rst := rfl
@[simp] theorem setPoisonWord_sec (k : Nat) (v : Bool) : (setPoisonWord s k v).sec = s.sec := rfl
@[simp] theorem setPoisonWord_tide (k : Nat) (v : Bool) : (setPoisonWord s k v).tide = s.tide := rfl
@[simp] theorem setPoisonWord_ctxs (k : Nat) (v : Bool) : (setPoisonWord s k v).ctxs = s.ctxs := rfl
@[simp] theorem setPoisonWord_mbx (k : Nat) (v : Bool) : (setPoisonWord s k v).mbx = s.mbx := rfl
@[simp] theorem setPoisonWord_reqs (k : Nat) (v : Bool) : (setPoisonWord s k v).reqs = s.reqs := rfl
@[simp] theorem setPoisonWord_sites (k : Nat) (v : Bool) : (setPoisonWord s k v).sites = s.sites := rfl
@[simp] theorem setPoisonWord_berths (k : Nat) (v : Bool) : (setPoisonWord s k v).berths = s.berths := rfl
@[simp] theorem setPoisonWord_regions (k : Nat) (v : Bool) : (setPoisonWord s k v).regions = s.regions := rfl
@[simp] theorem setPoisonWord_tiles (k : Nat) (v : Bool) : (setPoisonWord s k v).tiles = s.tiles := rfl
@[simp] theorem setPoisonWord_engines (k : Nat) (v : Bool) : (setPoisonWord s k v).engines = s.engines := rfl
@[simp] theorem setPoisonWord_stackTab (k : Nat) (v : Bool) : (setPoisonWord s k v).stackTab = s.stackTab := rfl
@[simp] theorem setPoisonWord_pool (k : Nat) (v : Bool) : (setPoisonWord s k v).pool = s.pool := rfl
@[simp] theorem setPoisonWord_pairs (k : Nat) (v : Bool) : (setPoisonWord s k v).pairs = s.pairs := rfl
@[simp] theorem setPoisonWord_ports (k : Nat) (v : Bool) : (setPoisonWord s k v).ports = s.ports := rfl
@[simp] theorem setPoisonWord_harbour (k : Nat) (v : Bool) : (setPoisonWord s k v).harbour = s.harbour := rfl
@[simp] theorem setPoisonWord_crossings (k : Nat) (v : Bool) : (setPoisonWord s k v).crossings = s.crossings := rfl
@[simp] theorem setPoisonWord_domains (k : Nat) (v : Bool) : (setPoisonWord s k v).domains = s.domains := rfl
@[simp] theorem setPoisonWord_power (k : Nat) (v : Bool) : (setPoisonWord s k v).power = s.power := rfl
@[simp] theorem setPoisonWord_thermal (k : Nat) (v : Bool) : (setPoisonWord s k v).thermal = s.thermal := rfl
@[simp] theorem setPoisonWord_recovery (k : Nat) (v : Bool) : (setPoisonWord s k v).recovery = s.recovery := rfl
@[simp] theorem setPoisonWord_faults (k : Nat) (v : Bool) : (setPoisonWord s k v).faults = s.faults := rfl
@[simp] theorem setPoisonWord_graphs (k : Nat) (v : Bool) : (setPoisonWord s k v).graphs = s.graphs := rfl
@[simp] theorem setPoisonWord_io (k : Nat) (v : Bool) : (setPoisonWord s k v).io = s.io := rfl
@[simp] theorem setPoisonWord_sent (k : Nat) (v : Bool) : (setPoisonWord s k v).sent = s.sent := rfl
@[simp] theorem setPoisonWord_fresh (k : Nat) (v : Bool) : (setPoisonWord s k v).fresh = s.fresh := rfl

@[simp] theorem setCrossing_pending (a b : Nat) (c : CrossState) : (setCrossing s a b c).pending = s.pending := rfl
@[simp] theorem setCrossing_ident (a b : Nat) (c : CrossState) : (setCrossing s a b c).ident = s.ident := rfl
@[simp] theorem setCrossing_rst (a b : Nat) (c : CrossState) : (setCrossing s a b c).rst = s.rst := rfl
@[simp] theorem setCrossing_sec (a b : Nat) (c : CrossState) : (setCrossing s a b c).sec = s.sec := rfl
@[simp] theorem setCrossing_tide (a b : Nat) (c : CrossState) : (setCrossing s a b c).tide = s.tide := rfl
@[simp] theorem setCrossing_mem (a b : Nat) (c : CrossState) : (setCrossing s a b c).mem = s.mem := rfl
@[simp] theorem setCrossing_ctxs (a b : Nat) (c : CrossState) : (setCrossing s a b c).ctxs = s.ctxs := rfl
@[simp] theorem setCrossing_mbx (a b : Nat) (c : CrossState) : (setCrossing s a b c).mbx = s.mbx := rfl
@[simp] theorem setCrossing_reqs (a b : Nat) (c : CrossState) : (setCrossing s a b c).reqs = s.reqs := rfl
@[simp] theorem setCrossing_sites (a b : Nat) (c : CrossState) : (setCrossing s a b c).sites = s.sites := rfl
@[simp] theorem setCrossing_berths (a b : Nat) (c : CrossState) : (setCrossing s a b c).berths = s.berths := rfl
@[simp] theorem setCrossing_regions (a b : Nat) (c : CrossState) : (setCrossing s a b c).regions = s.regions := rfl
@[simp] theorem setCrossing_tiles (a b : Nat) (c : CrossState) : (setCrossing s a b c).tiles = s.tiles := rfl
@[simp] theorem setCrossing_engines (a b : Nat) (c : CrossState) : (setCrossing s a b c).engines = s.engines := rfl
@[simp] theorem setCrossing_stackTab (a b : Nat) (c : CrossState) : (setCrossing s a b c).stackTab = s.stackTab := rfl
@[simp] theorem setCrossing_pool (a b : Nat) (c : CrossState) : (setCrossing s a b c).pool = s.pool := rfl
@[simp] theorem setCrossing_pairs (a b : Nat) (c : CrossState) : (setCrossing s a b c).pairs = s.pairs := rfl
@[simp] theorem setCrossing_ports (a b : Nat) (c : CrossState) : (setCrossing s a b c).ports = s.ports := rfl
@[simp] theorem setCrossing_harbour (a b : Nat) (c : CrossState) : (setCrossing s a b c).harbour = s.harbour := rfl
@[simp] theorem setCrossing_domains (a b : Nat) (c : CrossState) : (setCrossing s a b c).domains = s.domains := rfl
@[simp] theorem setCrossing_power (a b : Nat) (c : CrossState) : (setCrossing s a b c).power = s.power := rfl
@[simp] theorem setCrossing_thermal (a b : Nat) (c : CrossState) : (setCrossing s a b c).thermal = s.thermal := rfl
@[simp] theorem setCrossing_recovery (a b : Nat) (c : CrossState) : (setCrossing s a b c).recovery = s.recovery := rfl
@[simp] theorem setCrossing_faults (a b : Nat) (c : CrossState) : (setCrossing s a b c).faults = s.faults := rfl
@[simp] theorem setCrossing_graphs (a b : Nat) (c : CrossState) : (setCrossing s a b c).graphs = s.graphs := rfl
@[simp] theorem setCrossing_io (a b : Nat) (c : CrossState) : (setCrossing s a b c).io = s.io := rfl
@[simp] theorem setCrossing_sent (a b : Nat) (c : CrossState) : (setCrossing s a b c).sent = s.sent := rfl
@[simp] theorem setCrossing_fresh (a b : Nat) (c : CrossState) : (setCrossing s a b c).fresh = s.fresh := rfl

@[simp] theorem send_pending (m : OutMsg) : (send s m).pending = s.pending := rfl
@[simp] theorem send_ident (m : OutMsg) : (send s m).ident = s.ident := rfl
@[simp] theorem send_rst (m : OutMsg) : (send s m).rst = s.rst := rfl
@[simp] theorem send_sec (m : OutMsg) : (send s m).sec = s.sec := rfl
@[simp] theorem send_tide (m : OutMsg) : (send s m).tide = s.tide := rfl
@[simp] theorem send_mem (m : OutMsg) : (send s m).mem = s.mem := rfl
@[simp] theorem send_ctxs (m : OutMsg) : (send s m).ctxs = s.ctxs := rfl
@[simp] theorem send_mbx (m : OutMsg) : (send s m).mbx = s.mbx := rfl
@[simp] theorem send_reqs (m : OutMsg) : (send s m).reqs = s.reqs := rfl
@[simp] theorem send_sites (m : OutMsg) : (send s m).sites = s.sites := rfl
@[simp] theorem send_berths (m : OutMsg) : (send s m).berths = s.berths := rfl
@[simp] theorem send_regions (m : OutMsg) : (send s m).regions = s.regions := rfl
@[simp] theorem send_tiles (m : OutMsg) : (send s m).tiles = s.tiles := rfl
@[simp] theorem send_engines (m : OutMsg) : (send s m).engines = s.engines := rfl
@[simp] theorem send_stackTab (m : OutMsg) : (send s m).stackTab = s.stackTab := rfl
@[simp] theorem send_pool (m : OutMsg) : (send s m).pool = s.pool := rfl
@[simp] theorem send_pairs (m : OutMsg) : (send s m).pairs = s.pairs := rfl
@[simp] theorem send_ports (m : OutMsg) : (send s m).ports = s.ports := rfl
@[simp] theorem send_harbour (m : OutMsg) : (send s m).harbour = s.harbour := rfl
@[simp] theorem send_crossings (m : OutMsg) : (send s m).crossings = s.crossings := rfl
@[simp] theorem send_domains (m : OutMsg) : (send s m).domains = s.domains := rfl
@[simp] theorem send_power (m : OutMsg) : (send s m).power = s.power := rfl
@[simp] theorem send_thermal (m : OutMsg) : (send s m).thermal = s.thermal := rfl
@[simp] theorem send_recovery (m : OutMsg) : (send s m).recovery = s.recovery := rfl
@[simp] theorem send_faults (m : OutMsg) : (send s m).faults = s.faults := rfl
@[simp] theorem send_graphs (m : OutMsg) : (send s m).graphs = s.graphs := rfl
@[simp] theorem send_io (m : OutMsg) : (send s m).io = s.io := rfl
@[simp] theorem send_fresh (m : OutMsg) : (send s m).fresh = s.fresh := rfl

@[simp] theorem sendAll_pending (ms : List OutMsg) : (sendAll s ms).pending = s.pending := rfl
@[simp] theorem sendAll_ident (ms : List OutMsg) : (sendAll s ms).ident = s.ident := rfl
@[simp] theorem sendAll_rst (ms : List OutMsg) : (sendAll s ms).rst = s.rst := rfl
@[simp] theorem sendAll_sec (ms : List OutMsg) : (sendAll s ms).sec = s.sec := rfl
@[simp] theorem sendAll_tide (ms : List OutMsg) : (sendAll s ms).tide = s.tide := rfl
@[simp] theorem sendAll_mem (ms : List OutMsg) : (sendAll s ms).mem = s.mem := rfl
@[simp] theorem sendAll_ctxs (ms : List OutMsg) : (sendAll s ms).ctxs = s.ctxs := rfl
@[simp] theorem sendAll_mbx (ms : List OutMsg) : (sendAll s ms).mbx = s.mbx := rfl
@[simp] theorem sendAll_reqs (ms : List OutMsg) : (sendAll s ms).reqs = s.reqs := rfl
@[simp] theorem sendAll_sites (ms : List OutMsg) : (sendAll s ms).sites = s.sites := rfl
@[simp] theorem sendAll_berths (ms : List OutMsg) : (sendAll s ms).berths = s.berths := rfl
@[simp] theorem sendAll_regions (ms : List OutMsg) : (sendAll s ms).regions = s.regions := rfl
@[simp] theorem sendAll_tiles (ms : List OutMsg) : (sendAll s ms).tiles = s.tiles := rfl
@[simp] theorem sendAll_engines (ms : List OutMsg) : (sendAll s ms).engines = s.engines := rfl
@[simp] theorem sendAll_stackTab (ms : List OutMsg) : (sendAll s ms).stackTab = s.stackTab := rfl
@[simp] theorem sendAll_pool (ms : List OutMsg) : (sendAll s ms).pool = s.pool := rfl
@[simp] theorem sendAll_pairs (ms : List OutMsg) : (sendAll s ms).pairs = s.pairs := rfl
@[simp] theorem sendAll_ports (ms : List OutMsg) : (sendAll s ms).ports = s.ports := rfl
@[simp] theorem sendAll_harbour (ms : List OutMsg) : (sendAll s ms).harbour = s.harbour := rfl
@[simp] theorem sendAll_crossings (ms : List OutMsg) : (sendAll s ms).crossings = s.crossings := rfl
@[simp] theorem sendAll_domains (ms : List OutMsg) : (sendAll s ms).domains = s.domains := rfl
@[simp] theorem sendAll_power (ms : List OutMsg) : (sendAll s ms).power = s.power := rfl
@[simp] theorem sendAll_thermal (ms : List OutMsg) : (sendAll s ms).thermal = s.thermal := rfl
@[simp] theorem sendAll_recovery (ms : List OutMsg) : (sendAll s ms).recovery = s.recovery := rfl
@[simp] theorem sendAll_faults (ms : List OutMsg) : (sendAll s ms).faults = s.faults := rfl
@[simp] theorem sendAll_graphs (ms : List OutMsg) : (sendAll s ms).graphs = s.graphs := rfl
@[simp] theorem sendAll_io (ms : List OutMsg) : (sendAll s ms).io = s.io := rfl
@[simp] theorem sendAll_fresh (ms : List OutMsg) : (sendAll s ms).fresh = s.fresh := rfl

@[simp] theorem nextFresh_pending : (nextFresh s).pending = s.pending := rfl
@[simp] theorem nextFresh_ident : (nextFresh s).ident = s.ident := rfl
@[simp] theorem nextFresh_rst : (nextFresh s).rst = s.rst := rfl
@[simp] theorem nextFresh_sec : (nextFresh s).sec = s.sec := rfl
@[simp] theorem nextFresh_tide : (nextFresh s).tide = s.tide := rfl
@[simp] theorem nextFresh_mem : (nextFresh s).mem = s.mem := rfl
@[simp] theorem nextFresh_ctxs : (nextFresh s).ctxs = s.ctxs := rfl
@[simp] theorem nextFresh_mbx : (nextFresh s).mbx = s.mbx := rfl
@[simp] theorem nextFresh_reqs : (nextFresh s).reqs = s.reqs := rfl
@[simp] theorem nextFresh_sites : (nextFresh s).sites = s.sites := rfl
@[simp] theorem nextFresh_berths : (nextFresh s).berths = s.berths := rfl
@[simp] theorem nextFresh_regions : (nextFresh s).regions = s.regions := rfl
@[simp] theorem nextFresh_tiles : (nextFresh s).tiles = s.tiles := rfl
@[simp] theorem nextFresh_engines : (nextFresh s).engines = s.engines := rfl
@[simp] theorem nextFresh_stackTab : (nextFresh s).stackTab = s.stackTab := rfl
@[simp] theorem nextFresh_pool : (nextFresh s).pool = s.pool := rfl
@[simp] theorem nextFresh_pairs : (nextFresh s).pairs = s.pairs := rfl
@[simp] theorem nextFresh_ports : (nextFresh s).ports = s.ports := rfl
@[simp] theorem nextFresh_harbour : (nextFresh s).harbour = s.harbour := rfl
@[simp] theorem nextFresh_crossings : (nextFresh s).crossings = s.crossings := rfl
@[simp] theorem nextFresh_domains : (nextFresh s).domains = s.domains := rfl
@[simp] theorem nextFresh_power : (nextFresh s).power = s.power := rfl
@[simp] theorem nextFresh_thermal : (nextFresh s).thermal = s.thermal := rfl
@[simp] theorem nextFresh_recovery : (nextFresh s).recovery = s.recovery := rfl
@[simp] theorem nextFresh_faults : (nextFresh s).faults = s.faults := rfl
@[simp] theorem nextFresh_graphs : (nextFresh s).graphs = s.graphs := rfl
@[simp] theorem nextFresh_io : (nextFresh s).io = s.io := rfl
@[simp] theorem nextFresh_sent : (nextFresh s).sent = s.sent := rfl

@[simp] theorem raiseAt_pending (ev : FaultEv) : (raiseAt s ev).pending = s.pending := rfl
@[simp] theorem raiseAt_ident (ev : FaultEv) : (raiseAt s ev).ident = s.ident := rfl
@[simp] theorem raiseAt_rst (ev : FaultEv) : (raiseAt s ev).rst = s.rst := rfl
@[simp] theorem raiseAt_sec (ev : FaultEv) : (raiseAt s ev).sec = s.sec := rfl
@[simp] theorem raiseAt_tide (ev : FaultEv) : (raiseAt s ev).tide = s.tide := rfl
@[simp] theorem raiseAt_mem (ev : FaultEv) : (raiseAt s ev).mem = s.mem := rfl
@[simp] theorem raiseAt_ctxs (ev : FaultEv) : (raiseAt s ev).ctxs = s.ctxs := rfl
@[simp] theorem raiseAt_mbx (ev : FaultEv) : (raiseAt s ev).mbx = s.mbx := rfl
@[simp] theorem raiseAt_reqs (ev : FaultEv) : (raiseAt s ev).reqs = s.reqs := rfl
@[simp] theorem raiseAt_sites (ev : FaultEv) : (raiseAt s ev).sites = s.sites := rfl
@[simp] theorem raiseAt_berths (ev : FaultEv) : (raiseAt s ev).berths = s.berths := rfl
@[simp] theorem raiseAt_regions (ev : FaultEv) : (raiseAt s ev).regions = s.regions := rfl
@[simp] theorem raiseAt_tiles (ev : FaultEv) : (raiseAt s ev).tiles = s.tiles := rfl
@[simp] theorem raiseAt_engines (ev : FaultEv) : (raiseAt s ev).engines = s.engines := rfl
@[simp] theorem raiseAt_stackTab (ev : FaultEv) : (raiseAt s ev).stackTab = s.stackTab := rfl
@[simp] theorem raiseAt_pool (ev : FaultEv) : (raiseAt s ev).pool = s.pool := rfl
@[simp] theorem raiseAt_pairs (ev : FaultEv) : (raiseAt s ev).pairs = s.pairs := rfl
@[simp] theorem raiseAt_ports (ev : FaultEv) : (raiseAt s ev).ports = s.ports := rfl
@[simp] theorem raiseAt_harbour (ev : FaultEv) : (raiseAt s ev).harbour = s.harbour := rfl
@[simp] theorem raiseAt_crossings (ev : FaultEv) : (raiseAt s ev).crossings = s.crossings := rfl
@[simp] theorem raiseAt_domains (ev : FaultEv) : (raiseAt s ev).domains = s.domains := rfl
@[simp] theorem raiseAt_power (ev : FaultEv) : (raiseAt s ev).power = s.power := rfl
@[simp] theorem raiseAt_thermal (ev : FaultEv) : (raiseAt s ev).thermal = s.thermal := rfl
@[simp] theorem raiseAt_recovery (ev : FaultEv) : (raiseAt s ev).recovery = s.recovery := rfl
@[simp] theorem raiseAt_graphs (ev : FaultEv) : (raiseAt s ev).graphs = s.graphs := rfl
@[simp] theorem raiseAt_io (ev : FaultEv) : (raiseAt s ev).io = s.io := rfl
@[simp] theorem raiseAt_sent (ev : FaultEv) : (raiseAt s ev).sent = s.sent := rfl
@[simp] theorem raiseAt_fresh (ev : FaultEv) : (raiseAt s ev).fresh = s.fresh := rfl

@[simp] theorem raise_pending (ev : FaultEv) : (raise s ev).pending = s.pending := rfl
@[simp] theorem raise_ident (ev : FaultEv) : (raise s ev).ident = s.ident := rfl
@[simp] theorem raise_rst (ev : FaultEv) : (raise s ev).rst = s.rst := rfl
@[simp] theorem raise_sec (ev : FaultEv) : (raise s ev).sec = s.sec := rfl
@[simp] theorem raise_tide (ev : FaultEv) : (raise s ev).tide = s.tide := rfl
@[simp] theorem raise_mem (ev : FaultEv) : (raise s ev).mem = s.mem := rfl
@[simp] theorem raise_ctxs (ev : FaultEv) : (raise s ev).ctxs = s.ctxs := rfl
@[simp] theorem raise_mbx (ev : FaultEv) : (raise s ev).mbx = s.mbx := rfl
@[simp] theorem raise_reqs (ev : FaultEv) : (raise s ev).reqs = s.reqs := rfl
@[simp] theorem raise_sites (ev : FaultEv) : (raise s ev).sites = s.sites := rfl
@[simp] theorem raise_berths (ev : FaultEv) : (raise s ev).berths = s.berths := rfl
@[simp] theorem raise_regions (ev : FaultEv) : (raise s ev).regions = s.regions := rfl
@[simp] theorem raise_tiles (ev : FaultEv) : (raise s ev).tiles = s.tiles := rfl
@[simp] theorem raise_engines (ev : FaultEv) : (raise s ev).engines = s.engines := rfl
@[simp] theorem raise_stackTab (ev : FaultEv) : (raise s ev).stackTab = s.stackTab := rfl
@[simp] theorem raise_pool (ev : FaultEv) : (raise s ev).pool = s.pool := rfl
@[simp] theorem raise_pairs (ev : FaultEv) : (raise s ev).pairs = s.pairs := rfl
@[simp] theorem raise_ports (ev : FaultEv) : (raise s ev).ports = s.ports := rfl
@[simp] theorem raise_harbour (ev : FaultEv) : (raise s ev).harbour = s.harbour := rfl
@[simp] theorem raise_crossings (ev : FaultEv) : (raise s ev).crossings = s.crossings := rfl
@[simp] theorem raise_domains (ev : FaultEv) : (raise s ev).domains = s.domains := rfl
@[simp] theorem raise_power (ev : FaultEv) : (raise s ev).power = s.power := rfl
@[simp] theorem raise_thermal (ev : FaultEv) : (raise s ev).thermal = s.thermal := rfl
@[simp] theorem raise_recovery (ev : FaultEv) : (raise s ev).recovery = s.recovery := rfl
@[simp] theorem raise_graphs (ev : FaultEv) : (raise s ev).graphs = s.graphs := rfl
@[simp] theorem raise_io (ev : FaultEv) : (raise s ev).io = s.io := rfl
@[simp] theorem raise_sent (ev : FaultEv) : (raise s ev).sent = s.sent := rfl
@[simp] theorem raise_fresh (ev : FaultEv) : (raise s ev).fresh = s.fresh := rfl

@[simp] theorem getCtx_upd_self (k : Nat) (f : Context → Context) :
    getCtx (updCtx s k f) k = f (getCtx s k) := tabGet_upd_self _ _ _ _
theorem getCtx_upd_other {j k : Nat} (f : Context → Context) (h : j ≠ k) :
    getCtx (updCtx s k f) j = getCtx s j := tabGet_upd_other _ _ h

@[simp] theorem getMbx_upd_self (k : Nat) (f : Mailbox → Mailbox) :
    getMbx (updMbx s k f) k = f (getMbx s k) := tabGet_upd_self _ _ _ _
theorem getMbx_upd_other {j k : Nat} (f : Mailbox → Mailbox) (h : j ≠ k) :
    getMbx (updMbx s k f) j = getMbx s j := tabGet_upd_other _ _ h

@[simp] theorem getSite_upd_self (k : Nat) (f : Site → Site) :
    getSite (updSite s k f) k = f (getSite s k) := tabGet_upd_self _ _ _ _
theorem getSite_upd_other {j k : Nat} (f : Site → Site) (h : j ≠ k) :
    getSite (updSite s k f) j = getSite s j := tabGet_upd_other _ _ h

@[simp] theorem getBerth_upd_self (k : Nat) (f : Berth → Berth) :
    getBerth (updBerth s k f) k = f (getBerth s k) := tabGet_upd_self _ _ _ _
theorem getBerth_upd_other {j k : Nat} (f : Berth → Berth) (h : j ≠ k) :
    getBerth (updBerth s k f) j = getBerth s j := tabGet_upd_other _ _ h

@[simp] theorem getStack_upd_self (k : Nat) (f : Stack → Stack) :
    getStack (updStack s k f) k = f (getStack s k) := tabGet_upd_self _ _ _ _
theorem getStack_upd_other {j k : Nat} (f : Stack → Stack) (h : j ≠ k) :
    getStack (updStack s k f) j = getStack s j := tabGet_upd_other _ _ h

@[simp] theorem getPort_upd_self (k : Nat) (f : FabricPort → FabricPort) :
    getPort (updPort s k f) k = f (getPort s k) := tabGet_upd_self _ _ _ _
theorem getPort_upd_other {j k : Nat} (f : FabricPort → FabricPort) (h : j ≠ k) :
    getPort (updPort s k f) j = getPort s j := tabGet_upd_other _ _ h

@[simp] theorem getDomain_upd_self (k : Nat) (f : Domain → Domain) :
    getDomain (updDomain s k f) k = f (getDomain s k) := tabGet_upd_self _ _ _ _
theorem getDomain_upd_other {j k : Nat} (f : Domain → Domain) (h : j ≠ k) :
    getDomain (updDomain s k f) j = getDomain s j := tabGet_upd_other _ _ h

@[simp] theorem getLink_upd_self (k : Nat) (f : Link → Link) :
    getLink (updLink s k f) k = f (getLink s k) := tabGet_upd_self _ _ _ _
theorem getLink_upd_other {j k : Nat} (f : Link → Link) (h : j ≠ k) :
    getLink (updLink s k f) j = getLink s j := tabGet_upd_other _ _ h

@[simp] theorem getMember_upd_self (k : Nat) (f : Member → Member) :
    getMember (updMember s k f) k = f (getMember s k) := tabGet_upd_self _ _ _ _
theorem getMember_upd_other {j k : Nat} (f : Member → Member) (h : j ≠ k) :
    getMember (updMember s k f) j = getMember s j := tabGet_upd_other _ _ h

@[simp] theorem getPart_upd_self (k : Nat) (f : Partition → Partition) :
    getPart (updPart s k f) k = f (getPart s k) := tabGet_upd_self _ _ _ _
theorem getPart_upd_other {j k : Nat} (f : Partition → Partition) (h : j ≠ k) :
    getPart (updPart s k f) j = getPart s j := tabGet_upd_other _ _ h

@[simp] theorem getRegion_upd_self (a b : Nat) (f : Region → Region) :
    getRegion (updRegion s a b f) a b = f (getRegion s a b) := tabGet_upd_self _ _ _ _
theorem getRegion_upd_other {a b c d : Nat} (f : Region → Region) (h : engKey c d ≠ engKey a b) :
    getRegion (updRegion s a b f) c d = getRegion s c d := tabGet_upd_other _ _ h

@[simp] theorem getEngine_upd_self (a b : Nat) (f : Engine → Engine) :
    getEngine (updEngine s a b f) a b = f (getEngine s a b) := tabGet_upd_self _ _ _ _
theorem getEngine_upd_other {a b c d : Nat} (f : Engine → Engine) (h : engKey c d ≠ engKey a b) :
    getEngine (updEngine s a b f) c d = getEngine s c d := tabGet_upd_other _ _ h

@[simp] theorem getTile_upd_self (a b : Nat) (f : Tile → Tile) :
    getTile (updTile s a b f) a b = f (getTile s a b) := tabGet_upd_self _ _ _ _
theorem getTile_upd_other {a b c d : Nat} (f : Tile → Tile) (h : tileKey c d ≠ tileKey a b) :
    getTile (updTile s a b f) c d = getTile s c d := tabGet_upd_other _ _ h

@[simp] theorem getPair_upd_self (a b : Nat) (f : PairDir → PairDir) :
    getPair (updPair s a b f) a b = f (getPair s a b) := tabGet_upd_self _ _ _ _
theorem getPair_upd_other {a b c d : Nat} (f : PairDir → PairDir) (h : c * 64 + d ≠ a * 64 + b) :
    getPair (updPair s a b f) c d = getPair s c d := tabGet_upd_other _ _ h

@[simp] theorem getCounter_upd_self (b i : Nat) (f : W64 → W64) :
    getCounter (updCounter s b i f) b i = f (getCounter s b i) := tabGet_upd_self _ _ _ _
theorem getCounter_upd_other {b i c j : Nat} (f : W64 → W64) (h : counterKey c j ≠ counterKey b i) :
    getCounter (updCounter s b i f) c j = getCounter s c j := tabGet_upd_other _ _ h

end Sys2Proof.Machine
end

