-- ==== Sys2Proof/Laws/Commands.lean ====
section
/-! SUPPORT. What the shared operations on commands and requests do: a change of a command in flight, the end of a
command's work, the answer of a request, and when a row about a started command or a request runs. -/

namespace Sys2Proof.Machine

@[simp] theorem Cmd.note_id (c : Cmd) (st d : Nat) : (c.note st d).id = c.id := by unfold Cmd.note; split <;> rfl
@[simp] theorem Cmd.note_phase (c : Cmd) (st d : Nat) : (c.note st d).phase = c.phase := by
  unfold Cmd.note; split <;> rfl
@[simp] theorem Cmd.note_params (c : Cmd) (st d : Nat) : (c.note st d).params = c.params := by
  unfold Cmd.note; split <;> rfl
@[simp] theorem Cmd.note_opcode (c : Cmd) (st d : Nat) : (c.note st d).opcode = c.opcode := by
  unfold Cmd.note; split <;> rfl
@[simp] theorem Cmd.note_results (c : Cmd) (st d : Nat) : (c.note st d).results = c.results := by
  unfold Cmd.note; split <;> rfl
@[simp] theorem Cmd.done_id (c : Cmd) (t : Nat) (st : Option (Nat × Nat)) (l : List (Nat × Byte)) :
    (c.done t st l).id = c.id := by cases st <;> simp [Cmd.done]

/-! ## Commands in flight -/

theorem find_mapIf {l : List Cmd} {id : CmdId} {f : Cmd → Cmd} (hf : ∀ c, (f c).id = c.id) :
    (mapIf (fun m => decide (m.id = id)) f l).find? (fun c => decide (c.id = id)) =
      (l.find? (fun c => decide (c.id = id))).map f := by
  induction l with
  | nil => rfl
  | cons c l ih =>
    by_cases h : c.id = id
    · simp [mapIf, h, hf]
    · simpa [mapIf, h] using ih

theorem find_mapIf_other {l : List Cmd} {id j : CmdId} {f : Cmd → Cmd} (hf : ∀ c, (f c).id = c.id) (hj : j ≠ id) :
    (mapIf (fun m => decide (m.id = id)) f l).find? (fun c => decide (c.id = j)) =
      l.find? (fun c => decide (c.id = j)) := by
  have h' : ¬ id = j := fun e => hj e.symm
  induction l with
  | nil => rfl
  | cons c l ih =>
    by_cases h : c.id = id
    · simpa [mapIf, h, hf, h'] using ih
    · by_cases hc : c.id = j
      · simp [mapIf, hc, hj]
      · simpa [mapIf, h, hc] using ih

variable {s : State} {id : CmdId} {f : Cmd → Cmd}

theorem findCmd_updCmd_self (hf : ∀ c, (f c).id = c.id) : findCmd (updCmd s id f) id = (findCmd s id).map f := by
  simp [findCmd, updCmd, find_mapIf hf]

theorem getCtx_updCmd_other {k : Nat} (h : k ≠ id.ctx) : getCtx (updCmd s id f) k = getCtx s k :=
  getCtx_upd_other s _ h

theorem findCmd_updCmd_other (hf : ∀ c, (f c).id = c.id) {j : CmdId} (hj : j ≠ id) :
    findCmd (updCmd s id f) j = findCmd s j := by
  by_cases h : j.ctx = id.ctx
  · simp [findCmd, updCmd, h, find_mapIf_other hf hj]
  · simp [findCmd, getCtx_updCmd_other h]

/-- A change of one command in flight changes nothing else. -/
theorem cmdBecomes_updCmd {c : Cmd} (hf : ∀ c, (f c).id = c.id) (h : findCmd s id = some c) :
    CmdBecomes s (updCmd s id f) id (f c) :=
  ⟨rfl, fun _ hk => getCtx_updCmd_other hk, by simp [updCmd], fun _ hi => findCmd_updCmd_other hf hi,
    by simp [findCmd_updCmd_self hf, h]⟩

/-- A command whose work has ended has finished, with its status and results. -/
theorem cmdBecomes_finishCmd {c : Cmd} {st : Option (Nat × Nat)} {l : List (Nat × Byte)} (h : findCmd s id = some c) :
    CmdBecomes s (finishCmd s id st l) id (c.done (now s) st l) := by
  have hf : ∀ c : Cmd, (c.done (now s) st l).id = c.id := by simp
  have e : finishCmd s id st l = updCmd s id (fun c => c.done (now s) st l) := by cases st <;> rfl
  rw [e]
  exact cmdBecomes_updCmd hf h

/-! ## Rows about a started command -/

/-- A row about a started command runs its work on it. -/
theorem onStarted_next {op : Nat} {c : Cmd} {w : Cmd → State} (h : Started s id op c) :
    onStarted s id op w = .next (w c) := by
  obtain ⟨h1, h2, h3, h4⟩ := h
  simp [onStarted, guarded, h1, h2, h3, h4]

/-! ## Requests -/

theorem routeAsked_ring {op : Nat} {a : Asked} (h : routeAsked s (.ring id) op = some a) :
    ∃ c, findCmd s id = some c ∧ c.phase = .started ∧ c.opcode = op ∧ c.served = false := by
  simp only [routeAsked] at h
  split at h
  · cases h
  · rename_i c hc
    split at h
    · rename_i hh
      simp only [Bool.and_eq_true, decide_eq_true_eq, beq_iff_eq, Bool.not_eq_true'] at hh
      exact ⟨c, hc, hh.1.1, hh.1.2, hh.2⟩
    · cases h

theorem routeAsked_mailbox {fn op : Nat} {a : Asked} (h : routeAsked s (.mailbox fn) op = some a) :
    (getMbx s fn).pending = true ∧ (getMbx s fn).accepted = true ∧ (getMbx s fn).result = none := by
  simp only [routeAsked] at h
  split at h
  · rename_i hh
    simp only [Bool.and_eq_true, decide_eq_true_eq, beq_iff_eq] at hh
    exact ⟨hh.1.1.1.1, hh.1.1.1.2, hh.1.1.2⟩
  · cases h

/-- A request that Blunen may begin and that ends at once is answered, over the state its effect leaves, when that effect
touches neither the request's mailbox nor its command. -/
theorem blunen_replied {r : Route} {op : Nat} {a : Asked} {m : State} {res : MbxResult}
    {w : Asked → State × Option MbxResult} (h : Asks s r op a) (hw : w a = (m, some res))
    (hm : m.mbx = s.mbx) (hc : ∀ id, r = .ring id → m.ctxs = s.ctxs) :
    ∃ t, blunen s r op w = .next t ∧ Replied m t r res.status res.detail res.data := by
  obtain ⟨h1, h2⟩ := h
  refine ⟨answer (markServed m r) r res, by simp [blunen, guarded, h1, h2, hw], ?_⟩
  cases r with
  | mailbox fn =>
    obtain ⟨p1, p2, p3⟩ := routeAsked_mailbox h2
    have e : getMbx m fn = getMbx s fn := by simp [getMbx, hm]
    have q1 : (getMbx m fn).pending = true := by rw [e]; exact p1
    have q2 : (getMbx m fn).accepted = true := by rw [e]; exact p2
    have q3 : (getMbx m fn).result = none := by rw [e]; exact p3
    simp only [answer, markServed, getMbx_upd_self, q1, q2, q3, decide_true, Bool.and_self, if_true, Replied]
    refine ⟨rfl, fun k hk => ?_, trivial⟩
    rw [getMbx_upd_other _ _ hk, getMbx_upd_other _ _ hk]
  | ring id =>
    obtain ⟨c, p1, p2, -, -⟩ := routeAsked_ring h2
    have e : findCmd m id = some c := by simpa [findCmd, getCtx, hc id rfl] using p1
    have k1 : ∀ c : Cmd, ({ c with served := true } : Cmd).id = c.id := fun _ => rfl
    have a1 := cmdBecomes_updCmd k1 e
    have k2 : ∀ x : Cmd, ({ x.note res.status res.detail with
        phase := .finished
        served := true
        reply := res.data
        tideEnd := now m
        results := (replyBytes c res.data).filter (fun e => !goesOut m e.1) } : Cmd).id = x.id := by intro x; simp
    have a2 := cmdBecomes_updCmd k2 a1.2.2.2.2
    have e1 : findCmd (markServed m (.ring id)) id = some { c with served := true } := a1.2.2.2.2
    refine ⟨c, _, e, ?_, ⟨?_, fun k hk => (a2.2.1 k hk).trans (a1.2.1 k hk), ?_,
      fun i hi => (a2.2.2.2.1 i hi).trans (a1.2.2.2.1 i hi), ?_⟩⟩
    rotate_left
    · exact a2.1.trans rfl
    · rw [a2.2.2.1, show getCtx (updCmd m id _) id.ctx = _ from a1.2.2.1]
    · rw [a2.2.2.2.2]
      by_cases hn : statusRank c.status < statusRank res.status <;> simp [Cmd.note, hn]
    · simp only [answer, e1, p2, if_true]
      rfl

/-! ## Failing fields -/

theorem leastOf_cons_ne_none (x : Nat) (l : List Nat) : leastOf (x :: l) ≠ none := by
  suffices h : ∀ (l : List Nat) (y : Nat), l.foldl (fun a x => match a with
      | some y => some (min x y)
      | none => some x) (some y) ≠ none from h l x
  intro l
  induction l with
  | nil => simp
  | cons z l ih => intro y; exact ih _

/-- No field is reported exactly when none fails. -/
theorem firstBad_eq_none {l : List (Bool × Nat)} : firstBad l = none ↔ ∀ x ∈ l, x.1 = false := by
  unfold firstBad
  cases h : l.filter (·.1) with
  | nil =>
    refine ⟨fun _ x m => ?_, fun _ => rfl⟩
    simpa using List.filter_eq_nil_iff.1 h x m
  | cons a t =>
    have m : a ∈ l ∧ a.1 = true := by simpa using (h ▸ List.mem_cons_self : a ∈ l.filter (·.1))
    refine ⟨fun e => (leastOf_cons_ne_none _ _ e).elim, fun e => ?_⟩
    simp [e a m.1] at m

end Sys2Proof.Machine
end

