-- ==== Sys2Proof/Laws/Memory.lean ====
section
/-! SUPPORT. Memory: every operation that writes memory, host memory or the counters keeps their canonical form (`memWf`),
the reset state has it, and what a byte or a counter reads after each write. -/

namespace Sys2Proof.Machine

variable (s : State)

/-! ## The canonical form -/

theorem tabWf_putBytes {t : List Host.Cell} (w : tabWf 0#8 t = true) (a : Nat) (bs : List Byte) :
    tabWf 0#8 (putBytes t a bs) = true := by
  induction bs generalizing t a with
  | nil => exact w
  | cons b bs ih => exact ih (tabWf_set w) (a + 1)

theorem tabWf_foldl_set {α : Type} [DecidableEq α] {d : α} (cs : List (Nat × α)) {t : Tab α} (w : tabWf d t = true) :
    tabWf d (cs.foldl (fun t c => tabSet d t c.1 c.2) t) = true := by
  induction cs generalizing t with
  | nil => exact w
  | cons c cs ih => exact ih (tabWf_set w)

theorem memWf_iff : memWf s = true ↔
    tabWf 0#8 s.mem.cells = true ∧ tabWf 0#8 s.mem.host = true ∧ tabWf 0#64 s.mem.counters = true := by
  simp [memWf, and_assoc]

/-- The canonical form depends on the three lists alone. -/
theorem memWf_congr {s t : State} (h : t.mem = s.mem) : memWf t = memWf s := by
  simp [memWf, h]

variable {s}

theorem memWf_writeBytes (w : memWf s = true) (a : Nat) (bs : List Byte) : memWf (writeBytes s a bs) = true := by
  rw [memWf_iff] at *
  exact ⟨tabWf_putBytes w.1 a bs, w.2⟩

theorem memWf_writeCells (w : memWf s = true) (cs : List (Nat × Byte)) : memWf (writeCells s cs) = true := by
  rw [memWf_iff] at *
  exact ⟨tabWf_foldl_set cs w.1, w.2⟩

theorem memWf_writeHost (w : memWf s = true) (a : Nat) (bs : List Byte) : memWf (writeHost s a bs) = true := by
  rw [memWf_iff] at *
  exact ⟨w.1, tabWf_putBytes w.2.1 a bs, w.2.2⟩

theorem memWf_updCounter (w : memWf s = true) (b i : Nat) (f : W64 → W64) : memWf (updCounter s b i f) = true := by
  rw [memWf_iff] at *
  exact ⟨w.1, w.2.1, tabWf_upd w.2.2⟩

theorem memWf_setPoison (k : Nat) (v : Bool) : memWf (setPoison s k v) = memWf s := rfl

theorem memWf_setPoisonWord (k : Nat) (v : Bool) : memWf (setPoisonWord s k v) = memWf s := rfl

theorem memWf_zeroBerth (w : memWf s = true) (dram : Bool) (b : Nat) : memWf (zeroBerth s dram b) = true := by
  rw [memWf_iff] at *
  exact ⟨tabWfFrom_filter _ w.1, w.2.1, tabWfFrom_filter _ w.2.2⟩

/-- A module reset empties memory and the counters, and leaves host memory. -/
theorem memWf_moduleReset (w : memWf s = true) (code : Nat) : memWf (moduleReset s code) = true := by
  rw [memWf_iff] at *
  exact ⟨rfl, w.2.1, rfl⟩

theorem memWf_reset : memWf State.reset = true := by decide

/-! ## Reading after a write -/

theorem tabGet_putBytes (t : List Host.Cell) (a x : Nat) (bs : List Byte) :
    tabGet 0#8 (putBytes t a bs) x = if a ≤ x ∧ x < a + bs.length then bs.getD (x - a) 0#8 else tabGet 0#8 t x := by
  induction bs generalizing t a with
  | nil => simp [putBytes, show ¬(a ≤ x ∧ x < a) by omega]
  | cons b bs ih =>
    rw [putBytes, ih, tabGet_set]
    by_cases h : x = a
    · subst h
      rw [if_neg (by omega), if_pos rfl, if_pos (by simp only [List.length_cons]; omega), Nat.sub_self, List.getD_cons_zero]
    · by_cases h2 : a + 1 ≤ x ∧ x < a + 1 + bs.length
      · have h3 : a ≤ x ∧ x < a + (b :: bs).length := by simp only [List.length_cons]; omega
        have h4 : x - a = (x - (a + 1)) + 1 := by omega
        rw [if_pos h2, if_pos h3, h4, List.getD_cons_succ]
      · have h3 : ¬(a ≤ x ∧ x < a + (b :: bs).length) := by simp only [List.length_cons]; omega
        rw [if_neg h2, if_neg h3, if_neg h]

variable (s)

/-- Every byte after `writeBytes`: the bytes written inside the range, the old ones outside. -/
theorem readByte_writeBytes (a x : Nat) (bs : List Byte) :
    readByte (writeBytes s a bs) x = if a ≤ x ∧ x < a + bs.length then bs.getD (x - a) 0#8 else readByte s x :=
  tabGet_putBytes _ a x bs

theorem readByte_writeBytes_outside {a x : Nat} {bs : List Byte} (h : x < a ∨ a + bs.length ≤ x) :
    readByte (writeBytes s a bs) x = readByte s x := by
  rw [readByte_writeBytes, if_neg (by omega)]

/-- A byte that no written cell names is as before. -/
theorem readByte_writeCells_outside {x : Nat} {cs : List (Nat × Byte)} (h : ∀ c ∈ cs, c.1 ≠ x) :
    readByte (writeCells s cs) x = readByte s x := by
  unfold readByte writeCells
  induction cs generalizing s with
  | nil => rfl
  | cons c cs ih =>
    have := ih (writeCells s [c]) (fun d hd => h d (List.mem_cons_of_mem _ hd))
    simp only [writeCells, List.foldl_cons, List.foldl_nil] at this ⊢
    rw [this]
    exact tabGet_set_other _ _ (fun e => h c List.mem_cons_self e.symm)

/-- Every counter after an update of one. -/
theorem getCounter_updCounter (b i c j : Nat) (f : W64 → W64) :
    getCounter (updCounter s b i f) c j = if counterKey c j = counterKey b i then f (getCounter s b i) else getCounter s c j :=
  tabGet_upd 0#64 s.mem.counters (counterKey c j) (counterKey b i) f

end Sys2Proof.Machine
end

