-- ==== Sys2Proof/Laws/Ops.lean ====
section
/-! SUPPORT. What each shared operation of the machine does, said once: events, messages, free values and guarded units. -/

namespace Sys2Proof.Machine

variable (s : State)

/-- A command that names a unit either finds it and goes on, or stops with `absentUnit`. -/
theorem guarded_next {p : Bool} {t u : State} : guarded p t = .next u ↔ p = true ∧ t = u := by
  cases p <;> simp [guarded]

/-- Raising an event changes the fault group alone. -/
theorem raiseAt_frame (e : FaultEv) : raiseAt s e = { s with faults := (raiseAt s e).faults } := rfl
theorem raise_frame (e : FaultEv) : raise s e = { s with faults := (raise s e).faults } := rfl

/-- Where an event goes does not depend on the log, and no other event leaves the queue of the log. -/
theorem FaultGroup.raise_unlogged (f : FaultGroup) (ready : Bool) (tide : Nat) (e : FaultEv) :
    ∃ x, (f.raise ready tide e).unlogged = f.unlogged ++ [x] ∧ x.code = e.code ∧ x.site = e.site ∧ x.unit = e.unit ∧
      x.arg = e.arg ∧ x.outcome = e.outcome ∧ x.pos = e.pos ∧ x.guarantee = e.guarantee ∧ x.tide = tide :=
  ⟨_, rfl, rfl, rfl, rfl, rfl, rfl, rfl, rfl, rfl⟩

/-- An event of the own module joins the events not yet in the error log, with the own position and the Tide. -/
theorem raise_unlogged (e : FaultEv) :
    ∃ x, (raise s e).faults.unlogged = s.faults.unlogged ++ [x] ∧ x.code = e.code ∧ x.site = e.site ∧ x.unit = e.unit ∧
      x.arg = e.arg ∧ x.outcome = e.outcome ∧ x.pos = s.harbour.pos ∧ x.guarantee = e.guarantee ∧ x.tide = now s :=
  ⟨_, rfl, rfl, rfl, rfl, rfl, rfl, rfl, rfl, rfl⟩

theorem raiseAt_unlogged (e : FaultEv) :
    ∃ x, (raiseAt s e).faults.unlogged = s.faults.unlogged ++ [x] ∧ x.code = e.code ∧ x.site = e.site ∧ x.unit = e.unit ∧
      x.arg = e.arg ∧ x.outcome = e.outcome ∧ x.pos = e.pos ∧ x.guarantee = e.guarantee ∧ x.tide = now s :=
  ⟨_, rfl, rfl, rfl, rfl, rfl, rfl, rfl, rfl, rfl⟩

/-- Sending a message changes the messages alone. -/
theorem send_frame (m : OutMsg) : send s m = { s with sent := s.sent ++ [m] } := rfl

/-- A message of a vector is sent, or held pending in its entry while the entry is masked; the request crosses from the base
fabric to the PCIe interface. -/
theorem msix_frame (fn v : Nat) : msix s fn v =
    { s with io := (msix s fn v).io, sent := (msix s fn v).sent, crossings := (msix s fn v).crossings } := by
  have h : countEvents s 3 4 1 = { s with crossings := (countEvents s 3 4 1).crossings } := by
    unfold countEvents; split <;> rfl
  dsimp only [msix, send]
  rw [h]
  cases (tabGet {} s.io.msix (fn * 128 + v)).ctrl.getLsbD 0 <;> rfl

/-- A projection of the state that every step of a fold keeps, the fold keeps. -/
theorem foldl_keeps {α β : Type} (p : State → β) {f : State → α → State} (h : ∀ t x, p (f t x) = p t) (l : List α) (t : State) :
    p (l.foldl f t) = p t := by
  induction l generalizing t with
  | nil => rfl
  | cons x l ih => rw [List.foldl_cons, ih, h]

end Sys2Proof.Machine
end

