-- ==== Sys2Proof/Laws/Requests.lean ====
section
/-! SUPPORT. What the source side of requests and the end of a command's work may change, said once for every operation: the
commands in flight and the contexts that stop, the requests of the module, the lane sleep of its pairs, the frames of its links,
its messages and its events; reads take row buffers and count refusals as well. -/

namespace Sys2Proof.Machine

/-- `t` differs from `s` in nothing but what issuing requests may change. -/
def IssueFrame (s t : State) : Prop :=
  t = { s with ctxs := t.ctxs, reqs := t.reqs, pairs := t.pairs, harbour := t.harbour, faults := t.faults, sent := t.sent }

/-- `t` differs from `s` in nothing but what the end of a command's work may change. -/
def WorkFrame (s t : State) : Prop :=
  t = { s with ctxs := t.ctxs, reqs := t.reqs, pairs := t.pairs, harbour := t.harbour, faults := t.faults, sent := t.sent,
               stackTab := t.stackTab, sites := t.sites }

theorem IssueFrame.refl (s : State) : IssueFrame s s := rfl
theorem IssueFrame.trans {s t u : State} (h : IssueFrame s t) (k : IssueFrame t u) : IssueFrame s u := by
  unfold IssueFrame at *; rw [k, h]
theorem WorkFrame.refl (s : State) : WorkFrame s s := rfl
theorem WorkFrame.trans {s t u : State} (h : WorkFrame s t) (k : WorkFrame t u) : WorkFrame s u := by
  unfold WorkFrame at *; rw [k, h]
theorem IssueFrame.work {s t : State} (h : IssueFrame s t) : WorkFrame s t := by
  unfold IssueFrame at h; unfold WorkFrame; rw [h]
theorem WorkFrame.mem {s t : State} (h : WorkFrame s t) : t.mem = s.mem := by rw [h]
theorem WorkFrame.engines {s t : State} (h : WorkFrame s t) : t.engines = s.engines := by rw [h]
theorem WorkFrame.tide {s t : State} (h : WorkFrame s t) : t.tide = s.tide := by rw [h]

/-- A relation that every step of a fold keeps relates its ends. -/
theorem foldl_rel {α : Type} {R : State → State → Prop} (refl : ∀ t, R t t) (trans : ∀ {a b c}, R a b → R b c → R a c)
    {f : State → α → State} (h : ∀ t x, R t (f t x)) (l : List α) (s : State) : R s (l.foldl f s) := by
  induction l generalizing s with
  | nil => exact refl s
  | cons x l ih => exact trans (h s x) (ih _)

theorem issueFrame_updCmd (s : State) (id : CmdId) (f : Cmd → Cmd) : IssueFrame s (updCmd s id f) := rfl
theorem issueFrame_updPair (s : State) (a b : Nat) (f : PairDir → PairDir) : IssueFrame s (updPair s a b f) := rfl

theorem issueFrame_stopContext (s : State) (c a : Nat) : IssueFrame s (stopContext s c a) := by
  unfold stopContext; split <;> rfl

theorem issueFrame_stopTug (s : State) (id : CmdId) : IssueFrame s (stopTug s id) := rfl

theorem issueFrame_ite {p : Prop} [Decidable p] {s a b : State} (ha : IssueFrame s a) (hb : IssueFrame s b) :
    IssueFrame s (if p then a else b) := by
  split
  · exact ha
  · exact hb

theorem issueFrame_noteOut (s : State) (o : OutReq) (st d : Nat) : IssueFrame s (noteOut s o st d) := by
  have hit : ∀ (u : State) (id : CmdId) (f : Cmd → Cmd) (p : Bool),
      IssueFrame u (if p = true then stopTug (updCmd u id f) id else updCmd u id f) := fun u id f p =>
    issueFrame_ite (.trans (issueFrame_updCmd _ _ _) (issueFrame_stopTug _ _)) (issueFrame_updCmd _ _ _)
  unfold noteOut
  cases o.slot <;> cases o.req.srcCtx <;> dsimp only
  · exact .refl s
  · exact hit _ _ _ _
  · exact issueFrame_ite (.refl s) (issueFrame_stopContext _ _ _)
  · exact .trans (issueFrame_ite (.refl s) (issueFrame_stopContext _ _ _)) (hit _ _ _ _)

theorem issueFrame_wakeLanes (s : State) (a b : Nat) : IssueFrame s (wakeLanes s a b) := by
  unfold wakeLanes; split <;> rfl

theorem issueFrame_linkSend (s : State) (k : Nat) (m : OutMsg) : IssueFrame s (linkSend s k m) := rfl

theorem issueFrame_sendReq (s : State) (o : OutReq) : IssueFrame s (sendReq s o) := by
  unfold sendReq
  split
  · exact issueFrame_wakeLanes _ _ _
  · exact (issueFrame_wakeLanes _ _ _).trans (issueFrame_linkSend _ _ _)

/-- A new request is ended at its source, held or sent. -/
theorem issueFrame_issueTracked (s : State) (r : WireReq) (k : Purpose) : IssueFrame s (issueTracked s r k) := by
  unfold issueTracked
  dsimp only
  split
  · exact issueFrame_noteOut _ _ _ _
  · split
    · rfl
    · refine .trans ?_ (issueFrame_sendReq _ _); rfl

/-- A request of a command's work takes its number and is issued. -/
theorem issueFrame_issueWork (s : State) (r : WireReq) (p : Purpose) : IssueFrame s (issueWork s r p) :=
  .trans (t := useTag s r.tag) rfl (issueFrame_issueTracked _ _ _)

theorem issueFrame_issueLoads (s : State) (c : Cmd) (p : Purpose) (a n : Nat) : IssueFrame s (issueLoads s c p a n) := by
  unfold issueLoads
  refine foldl_rel IssueFrame.refl IssueFrame.trans (fun t x => ?_) _ _
  split
  · exact foldl_rel IssueFrame.refl IssueFrame.trans (fun u q => issueFrame_issueWork _ _ _) _ _
  · exact .refl t

theorem issueFrame_issueStores (s : State) (c : Cmd) (p : Purpose) (a : Nat) (l : List Byte) :
    IssueFrame s (issueStores s c p a l) := by
  unfold issueStores
  refine foldl_rel IssueFrame.refl IssueFrame.trans (fun t x => ?_) _ _
  split
  · split
    · exact issueFrame_issueWork _ _ _
    · exact foldl_rel IssueFrame.refl IssueFrame.trans (fun u q => issueFrame_issueWork _ _ _) _ _
  · exact .refl t

/-- Results that go out leave as requests. -/
theorem issueFrame_issueResults (s : State) (c : Cmd) (l : List (Nat × Byte)) : IssueFrame s (issueResults s c l) := by
  unfold issueResults
  generalize gather l = g
  apply foldl_rel IssueFrame.refl IssueFrame.trans
  intro t r
  apply issueFrame_issueStores

@[simp] theorem issueResults_nil (s : State) (c : Cmd) : issueResults s c [] = s := rfl

/-- An addition elsewhere, or behind an earlier request, leaves as a request; any other is what `addFrom` does. -/
theorem sendAddition_out {s : State} {c : Cmd} {a : Nat} {v : W64}
    (h : (goesOut s a || overtakes s c.berth .ctl a) = true) :
    IssueFrame s (sendAddition s c a v).1 ∧ (sendAddition s c a v).2 = none := by
  simp only [sendAddition, h, if_true, and_true]
  exact issueFrame_issueWork _ _ _

theorem sendAddition_here {s : State} {c : Cmd} {a : Nat} {v : W64}
    (h : (goesOut s a || overtakes s c.berth .ctl a) = false) :
    sendAddition s c a v = addFrom s c.berth a v := by simp [sendAddition, h]

theorem workFrame_updSite (s : State) (k : Nat) (f : Site → Site) : WorkFrame s (updSite s k f) := rfl

theorem workFrame_touchDram (s : State) (loc : Nat) (w : Bool) : WorkFrame s (touchDram s loc w) := by
  unfold touchDram; split <;> rfl

theorem workFrame_touchRange (s : State) (a n : Nat) (w : Bool) : WorkFrame s (touchRange s a n w) := by
  unfold touchRange
  split
  · exact .refl s
  · refine foldl_rel WorkFrame.refl WorkFrame.trans (fun t i => ?_) _ _
    dsimp only
    split
    · exact .refl t
    · exact workFrame_touchDram _ _ _

theorem workFrame_countStale (s : State) (src a n : Nat) : WorkFrame s (countStale s src a n) :=
  foldl_rel WorkFrame.refl WorkFrame.trans (fun u k => workFrame_updSite u k _) _ _

theorem workFrame_readMarks (s : State) (c : Cmd) (p : Purpose) (t : Touch) : WorkFrame s (readMarks s c p t) := by
  unfold readMarks
  dsimp only
  split
  · exact (workFrame_countStale _ _ _ _).trans (.trans (issueFrame_issueLoads _ _ _ _ _).work (workFrame_touchRange _ _ _ _))
  · exact workFrame_countStale _ _ _ _

/-- The work of a command ends: the command finishes, and nothing changes but what its requests and the marks of its reads
change. -/
theorem workFrame_finishWork (s : State) (c : Cmd) (ts : List Touch) (st : Option (Nat × Nat)) (l : List (Nat × Byte)) :
    WorkFrame s (finishWork s c ts st l) := by
  unfold finishWork
  dsimp only
  refine .trans ?_ (issueFrame_issueResults _ _ _).work
  refine .trans ?_ (foldl_rel WorkFrame.refl WorkFrame.trans (fun u t => workFrame_readMarks u c {} t) _ _)
  exact (issueFrame_updCmd _ _ _).work

/-- Nothing happens in a domain that its release step has not reached, and everything does from then on. -/
theorem onceReleased_of {s t : State} {k : Nat} (h : released s k = true) : onceReleased s k t = t := by simp [onceReleased, h]
theorem onceReleased_not {s t : State} {k : Nat} (h : released s k = false) : onceReleased s k t = s := by
  simp [onceReleased, h]

end Sys2Proof.Machine
end

