-- ==== Sys2Proof/WellFormed.lean ====
section
/-! DEFINITION. Well-formed commands: every operand lies in the range of the field that carries it on the hardware
(numbers of functions, contexts, berths, engines, regions, tiles, stacks, channels, banks, lanes, links, positions). -/

namespace Sys2Proof

def CmdId.wf (i : CmdId) : Bool :=
  decide (i.ctx < 64) && decide (i.seq < 2 ^ 32) &&
  (match i.node with
   | none => true
   | some (n, k) => decide (n < 64) && decide (k < 65536))

def Route.wf : Route → Bool
  | .mailbox fn => decide (fn < 9)
  | .ring id => id.wf

def DoorbellPath.wf : DoorbellPath → Bool
  | .bar0 fn => decide (fn < 9)
  | .mirror => true

def LighthouseId.wf : LighthouseId → Bool
  | .engine b e k => decide (b < 8) && decide (e < 16) && decide (k < 2)
  | .fabric site k => decide (site < 49) && decide (k < 2)
  | .link q k => decide (q < 8) && decide (k < 2)

def Element.wf : Element → Bool
  | .engine b e => decide (b < 8) && decide (e < 16)
  | .tile b t => decide (b < 8) && decide (t < 144)
  | .router b => decide (b < 8)
  | .lighthouse lh => lh.wf
  | .harbourmaster i => decide (i < 2)
  | .fabricRings site => decide (site < 49)
  | .fabricLanes site => decide (site < 49)
  | .linkLanes l => decide (l < 24)
  | .nearLanes n => decide (n < 32)
  | .connections n c => decide (n < 32) && decide (c < 16)

def TestResult.wf (r : TestResult) : Bool := r.lines.all (· < 128) && r.rows.all (· < 129)

def IdSeen.wf : IdSeen → Bool
  | .marker _ => true
  | .frame ws => decide (ws.length = 16)

/-- A request's number has no bound: its TAG on the wire is the low 16 bits (Table 10-5). -/
def WireReq.wf (r : WireReq) : Bool :=
  decide (r.srcPos < 25) && decide (r.srcSite < 49) &&
  (decide (r.srcVtile < 144) || r.srcVtile == 255) && decide (r.addr < 2 ^ 47) && decide (1 ≤ r.size) &&
  decide (r.size ≤ 64) && (match r.srcCtx with
    | none => true
    | some id => id.wf) && (match r.bar2 with
    | none => true
    | some fn => decide (fn < 9))

def WireResp.wf (r : WireResp) : Bool :=
  decide (r.tag < 65536) && [0x00, 0x20, 0x32, 0x33, 0x50].contains r.status && decide (r.dstPos < 25)

def SegKey.wf (k : SegKey) : Bool := decide (k.stack < 32) && decide (k.channel < 16) && decide (k.segment < 1008)

def CopyFix.wf (f : CopyFix) : Bool :=
  decide (f.bank < 16) && decide (f.row < 262144) && decide (f.sector < 16) && decide (f.symbol < 72) && decide (f.bit < 8)

def StuckUnit.wf : StuckUnit → Bool
  | .engine b e => decide (b < 8) && decide (e < 16)
  | _ => true

def BerthReading.wf (r : BerthReading) : Bool :=
  decide (r.berth < 8) && decide (r.railPower.length = 16) && decide (r.die.length = 128) && decide (r.base.length = 6)

def StackReading.wf (r : StackReading) : Bool :=
  decide (r.layers.length = 16) && r.layers.all (·.length == 4) && decide (r.base.length = 4) &&
  decide (r.reg.length = 4) && decide (r.powers.length = 16)

def pairWf (src dst : Nat) : Bool := decide (src < 49) && decide (dst < 49) && decide (src ≠ dst)

/-- Every operand of the command lies in its field's range. -/
def Instr.wf : Instr → Bool
  | .ctxOpen fn => decide (fn < 9)
  | .ctxClose fn => decide (fn < 9)
  | .ctxAbort fn => decide (fn < 9)
  | .ctxQuery r => r.wf
  | .fwInfo r => r.wf
  | .healthRead r => r.wf
  | .roleChange fn => decide (fn < 9)
  | .roleDrainDone site => decide (site < 49)
  | .domainSet r => r.wf
  | .domainTransitionDone d => decide (d < 65536)
  | .tideAlarm r => r.wf
  | .tideAlarmFire => true
  | .tugCopy id => id.wf
  | .tugFill id => id.wf
  | .tugChunkDone id _ => id.wf
  | .cntWait id => id.wf
  | .cntAdd id => id.wf
  | .cntSet id => id.wf
  | .cntRead id => id.wf
  | .tideWait id => id.wf
  | .tideRead id => id.wf
  | .ctxDrain id => id.wf
  | .matmul id => id.wf
  | .optMatmul id => id.wf
  | .convert id => id.wf
  | .transpose id => id.wf
  | .ewise id => id.wf
  | .tableFn id => id.wf
  | .reduce id => id.wf
  | .softmax id => id.wf
  | .attention id => id.wf
  | .allReduce id => id.wf
  | .allGather id => id.wf
  | .reduceScatter id => id.wf
  | .broadcast id => id.wf
  | .collectiveRendezvous c _ => decide (c < 2 ^ 32)
  | .graphLoad id => id.wf
  | .graphRun id => id.wf
  | .graphUnload id => id.wf
  | .graphNodeStart id => id.wf
  | .graphEdgeStatus id p st => id.wf && decide (p < 64) && decide (st < 256)
  | .selftest r => r.wf
  | .calibrate r => r.wf
  | .keyEnrol r => r.wf
  | .secureErase r => r.wf
  | .lifetimeReset r => r.wf
  | .fwRollback r => r.wf
  | .configStage r => r.wf
  | .debugEnable r => r.wf
  | .breakwaterWrite => true
  | .sqTail p c _ => p.wf && decide (c < 64)
  | .cqHead p c _ => p.wf && decide (c < 64)
  | .commandFetch c => decide (c < 64)
  | .commandStart id => id.wf
  | .commandTimeout r => r.wf
  | .stopEscalation id u => id.wf && u.wf
  | .commandCompletion r => r.wf
  | .requestIssue r => r.wf
  | .load r o => r.wf && decide (o.symbol < 72) && decide (o.bit < 8)
  | .store r o => r.wf && decide (o.symbol < 72) && decide (o.bit < 8)
  | .atomic r o => r.wf && decide (o.symbol < 72) && decide (o.bit < 8)
  | .response r => r.wf
  | .flowIdleExpiry f => decide (f.ctx < 64) && decide (f.pos < 25) && decide (f.site < 49)
  | .requestDeadBound _ => true
  | .probeAnswer site => decide (site < 49)
  | .probeTimeout site => decide (site < 49)
  | .epochTableUpdate p site _ => decide (p < 25) && decide (site < 49)
  | .bankLoadDone b e => decide (b < 8) && decide (e < 16)
  | .bankSwitch b e => decide (b < 8) && decide (e < 16)
  | .guardEnd b e => decide (b < 8) && decide (e < 16)
  | .integrationWindowEnd b e rows _ _ => decide (b < 8) && decide (e < 16) && decide (rows.length = 128)
  | .windowOutput b e => decide (b < 8) && decide (e < 16)
  | .heaterTick b e _ _ => decide (b < 8) && decide (e < 16)
  | .tapMonitorTick b e l => decide (b < 8) && decide (e < 16) && decide (l.length = 132)
  | .rateDetectorTick b e _ => decide (b < 8) && decide (e < 16)
  | .thermalResume b e _ => decide (b < 8) && decide (e < 16)
  | .lighthouseFault b e => decide (b < 8) && decide (e < 16)
  | .lhSwitchoverDone b e => decide (b < 8) && decide (e < 16)
  | .fabricLighthouseFault site => decide (site < 49)
  | .fabricLhResume site => decide (site < 49)
  | .linkLighthouseFault q => decide (q < 8)
  | .standbyCheck lh _ => lh.wf
  | .engineReset b e => decide (b < 8) && decide (e < 16)
  | .engineResetDone b e => decide (b < 8) && decide (e < 16)
  | .targetedTestDone el r => el.wf && r.wf
  | .calibrationTrigger el _ => el.wf
  | .calibrationDone b e enob r => decide (b < 8) && decide (e < 16) && decide (enob.length = 5) && r.wf
  | .replicaWarning b r _ => decide (b < 8) && decide (r < 16)
  | .stretchRecoveryEnd b r _ => decide (b < 8) && decide (r < 16)
  | .recoveryStepdown b r _ => decide (b < 8) && decide (r < 16)
  | .stretchLimit b r => decide (b < 8) && decide (r < 16)
  | .stepUpTimer b r => decide (b < 8) && decide (r < 16)
  | .stepChange b r => decide (b < 8) && decide (r < 16)
  | .stepHoldEnd b r => decide (b < 8) && decide (r < 16)
  | .meshLoadWindow b _ => decide (b < 8)
  | .coreSubstitution b t => decide (b < 8) && decide (t < 144)
  | .coreSubstitutionDone b t w => decide (b < 8) && decide (t < 144) && w.all (· < 262144)
  | .stripedFrame a d f => pairWf a d && decide (f.lanes.length = 16)
  | .identityWord a d p w => pairWf a d && decide (p < 18) && w.wf
  | .ringLock a d r => pairWf a d && decide (r.plane < 18)
  | .ringDarkExpiry a d => pairWf a d
  | .retrainingDone a d => pairWf a d
  | .laneSleep a d => pairWf a d
  | .fabricLaneBerExceeded a d p => pairWf a d && decide (p < 18)
  | .laneMarginTestDone a d p _ => pairWf a d && decide (p < 18)
  | .nearBundleFrame n k _ _ => decide (n < 32) && decide (k < 10)
  | .nearLaneBerExceeded n k l => decide (n < 32) && decide (k < 10) && decide (l < 34)
  | .refreshOperation n c b => decide (n < 32) && decide (c < 16) && decide (b < 16)
  | .refreshGap n c p o => decide (n < 32) && decide (c < 16) && p.all (· < 9216) && o.lanesPass.all (· < 340) && o.fixed.all CopyFix.wf
  | .scrub n c b f => decide (n < 32) && decide (c < 16) && decide (b < 16) && f.all (fun x =>
    decide (x.row < 262144) && decide (x.sector < 16) && decide (x.symbol < 72) && decide (x.bit < 8))
  | .rowBufferWriteback n c b r => decide (n < 32) && decide (c < 16) && decide (b < 16) && decide (r < 262144)
  | .segmentMoveStart k => k.wf
  | .segmentHoldAck k src => k.wf && decide (src < 49)
  | .segmentCopyDone k o => k.wf && o.bad.all (· < 65536) && o.fixed.all CopyFix.wf
  | .segmentRecorded k => k.wf
  | .retiredRangeExpiry k => k.wf
  | .layerModelTick n r => decide (n < 32) && r.wf
  | .stackSensorSuspect n x => decide (n < 32) && decide (x < 72)
  | .railFault n r => decide (n < 32) && decide (r < 35)
  | .crossingTimeout c => decide (c.a < 65536) && decide (c.b < 65536)
  | .refCheckWindow _ _ => true
  | .tideModeAlwaysOn _ => true
  | .tideModeReference => true
  | .moduleSleep => true
  | .wake code l q => decide (1 ≤ code) && decide (code < 8) && l.all (fun c => 1 ≤ c && c < 8) && decide (q < 8)
  | .mpAddressMatchWake _ => true
  | .presenceButtonPress => true
  | .presenceHold => true
  | .presenceWindowExpiry => true
  | .inputVoltageChange _ => true
  | .conversionResume => true
  | .interlockOpen => true
  | .brownOut => true
  | .alwaysOnStoreExhausted => true
  | .preCharge => true
  | .limiterTick b _ => decide (b < 8)
  | .powerCapTick r => r.berths.all BerthReading.wf && decide (r.quays.length = 8)
  | .dieSensorSuspect b x => (decide (b < 8) && decide (x < 134)) || (decide (b = 8) && decide (x < 16))
  | .flowRequestTick _ _ _ => true
  | .coolingFault _ => true
  | .coolingFaultClear => true
  | .berthShutdown b => decide (b < 8)
  | .thermalHoldEnd b _ => decide (b < 8)
  | .alwaysOnThermalSample _ _ _ => true
  | .resetN _ _ => true
  | .watchdog => true
  | .hmLockup => true
  | .hmSwitchover _ => true
  | .hmHandback => true
  | .resetReq fn _ => decide (fn < 9)
  | .jtagResetInstruction => true
  | .pcieHotReset _ => true
  | .vfFlr v => decide (1 ≤ v) && decide (v < 9)
  | .partitionReset p c => decide (p < 8) && [0x10, 0x11, 0x12].contains c
  | .releaseStep => true
  | .bootStageDone _ => true
  | .readyTimeout => true
  | .siteRecovery k _ => decide (k < 49)
  | .trainingWord l w => decide (l < 24) && decide (w.pos < 32) && decide (w.link < 32) && decide (w.lanes ≤ 34) &&
    decide (w.lanesBack ≤ 34) && decide (w.refused ≤ 5)
  | .linkRetrainTimer l => decide (l < 24)
  | .linkFrame l o => decide (l < 24) && decide (o.transitTo < 24) && decide (o.units.length ≤ 4) && decide (o.credits.length ≤ 4)
  | .linkNoFrame l => decide (l < 24)
  | .linkRelease l => decide (l < 24)
  | .relayRouteTimer p q => decide (p < q.q) && decide (q.q < 25)
  | .routeReturnTimer p q => decide (p < q) && decide (q < 25)
  | .routeDrainDone p q => decide (p < q.q) && decide (q.q < 25)
  | .tideSyncSend => true
  | .tideSyncMessage l _ _ => decide (l < 24)
  | .tideDelayExchange l _ _ _ _ => decide (l < 24)
  | .tideFirstLock _ => true
  | .holdoverExpiry => true
  | .heartbeat p _ => decide (p < 25)
  | .heartbeatTimeout p _ => decide (p < 25)
  | .deadDeclaration p site => decide (p < 25) && (match site with
    | none => true
    | some k => decide (k < 49))
  | .masterSyncLoss => true
  | .claimCollect l => l.all (fun c => c.pos < 25 && c.reaches < 26)
  | .masterHandback => true
  | .rejoinRequest p _ => decide (p < 25)
  | .mbxCtrlGo fn _ => decide (fn < 9)
  | .feEnable _ => true
  | .feDisable _ => true
  | .feHeadWrite _ => true
  | .faultEventDelivery => true
  | .errorLogWrite => true
  | .mpWriteTransaction off d => decide (off < 65536) && decide (d.length ≤ 1024)
  | .mpDynamicAddress a => decide (a < 128)
  | .dumpCtrl _ => true
  | .dumpWindowLoaded => true
  | .imgCommit _ => true
  | .imgVerifyDone => true
  | .registerWrite r off d => decide (r.fn < 9) && decide (off < 0x40000) && decide (d.length ≤ 64)
  | .newStart => true
  | .interlockClose => true
  | .generatorLockLoss _ => true
  | .tamperSealBreak => true
  | .partitionResetDone p => decide (p < 8)
  | .escalationRungDeadline r _ _ => decide (r < 8)
  | .linkResetEntryInstant l => decide (l < 24)

end Sys2Proof
end

