-- ==== Sys2Proof/Tests/Slice0.lean ====
section
/-! SUPPORT. Tests: ill-formed commands are refused by every check of `Instr.wf`; one small state and operands for the
hypotheses of every statement, with what one command does there. Expected values are the manual's. -/

namespace Sys2Proof.Tests

set_option Elab.async false

open Sys2Proof Sys2Proof.Machine

/-! ## Helpers -/

/-- The next state of an outcome, the reset state where there is none. -/
def after (o : Out) : State :=
  match o with
  | .next t => t
  | _ => {}

/-- The outcome is a next state. -/
def runs (o : Out) : Bool :=
  match o with
  | .next _ => true
  | _ => false

/-- A module that is READY, at a Tide in ns. -/
def up (t : Nat) : State :=
  { rst := { ready := true, pcieUp := true, step := 9, stage := 10 }, tide := { count := t * 2 ^ 32 } }

/-- Partition 0, of the physical function, with every berth. -/
def part0 : PartRecord := { valid := true, ramp := 2, berths := 0xFF }

/-- A module that is READY with partition 0. -/
def owned (t : Nat) : State := { up t with sec := { breakwater := { parts := [part0] }, sealed := true } }

/-- A mailbox request of the physical function that Blunen may begin. -/
def asked (s : State) (op params : Nat) : State :=
  { s with mbx := [(0, { pending := true, accepted := true, req := op + params * 2 ^ 128 })] }

/-- What Blunen sees of the mailbox request. -/
def ask (s : State) (op : Nat) : Asked := (routeAsked s (.mailbox 0) op).getD { p := 0, mbx := none }

/-- The first command of context 0, started. -/
def id0 : CmdId := ⟨0, 0, none⟩
def started (op params : Nat) : Cmd := { id := id0, opcode := op, params := params, phase := .started, began := true }

/-- A state with one command in flight in context 0. -/
def inFlight (s : State) (c : Cmd) : State := { s with ctxs := [(0, { state := .opened, log2S := 4, flight := [c] })] }

/-- The hypothesis `Started` as a Bool. -/
def isStarted (s : State) (c : Cmd) (op : Nat) : Bool :=
  hasCtx s c.id.ctx && decide (findCmd s c.id = some c) && decide (c.phase = .started) && c.opcode == op

/-- The command in flight after a step. -/
def cmd0 (s : State) : Cmd := (findCmd s id0).getD { id := id0 }

/-- Codes of the events not yet in the error log. -/
def codes (s : State) : List Nat := s.faults.unlogged.map (·.code)

/-- The hypothesis `Reachable` as a Bool, and ranges that lie on the own module, whose sites answer. -/
def reach (s : State) (ts : List Touch) : Bool := decide (sleepers s ts = []) && !ts.any (rangeWaits s)
def atHome (s : State) (ts : List Touch) : Bool := reach s ts && !asksOut s ts && !touchesSilent s ts

/-! ## Well-formedness -/

/-- A request that is well formed, and one whose source position is not. -/
def goodReq : WireReq :=
  { kind := .load, tag := 0, srcCtx := none, gen := 0, epoch := 0, srcPos := 0, srcSite := 0, addr := 0, size := 8 }
def badReq : WireReq := { goodReq with srcPos := 25 }

/-- Readings of a stack at 0 °C. -/
def goodStack : StackReading :=
  ⟨List.replicate 16 [0, 0, 0, 0], [0, 0, 0, 0], [0, 0, 0, 0], List.replicate 16 0⟩

/-- Ill-formed commands, one for each check. -/
theorem test_wf_refuses_1 : ([
    .ctxOpen 9,
    .ctxClose 9,
    .ctxAbort 9,
    .ctxQuery (.mailbox 9),
    .ctxQuery (.ring ⟨64, 0, none⟩),
    .fwInfo (.mailbox 9),
    .fwInfo (.ring ⟨64, 0, none⟩),
    .healthRead (.mailbox 9),
    .healthRead (.ring ⟨64, 0, none⟩),
    .roleChange 9,
    .roleDrainDone 49,
    .domainSet (.mailbox 9),
    .domainSet (.ring ⟨64, 0, none⟩),
    .domainTransitionDone 65536,
    .tideAlarm (.mailbox 9),
    .tideAlarm (.ring ⟨64, 0, none⟩),
    .tugCopy ⟨64, 0, none⟩,
    .tugFill ⟨64, 0, none⟩,
    .tugChunkDone ⟨64, 0, none⟩ 0,
    .cntWait ⟨64, 0, none⟩,
    .cntAdd ⟨64, 0, none⟩,
    .cntSet ⟨64, 0, none⟩,
    .cntRead ⟨64, 0, none⟩,
    .tideWait ⟨64, 0, none⟩] : List Instr).all (fun c => !c.wf) = true := by decide +kernel

/-- Ill-formed commands, one for each check. -/
theorem test_wf_refuses_2 : ([
    .tideRead ⟨64, 0, none⟩,
    .ctxDrain ⟨64, 0, none⟩,
    .matmul ⟨64, 0, none⟩,
    .optMatmul ⟨64, 0, none⟩,
    .convert ⟨64, 0, none⟩,
    .transpose ⟨64, 0, none⟩,
    .ewise ⟨64, 0, none⟩,
    .tableFn ⟨64, 0, none⟩,
    .reduce ⟨64, 0, none⟩,
    .softmax ⟨64, 0, none⟩,
    .attention ⟨64, 0, none⟩,
    .allReduce ⟨64, 0, none⟩,
    .allGather ⟨64, 0, none⟩,
    .reduceScatter ⟨64, 0, none⟩,
    .broadcast ⟨64, 0, none⟩,
    .collectiveRendezvous (2 ^ 32) true,
    .graphLoad ⟨64, 0, none⟩,
    .graphRun ⟨64, 0, none⟩,
    .graphUnload ⟨64, 0, none⟩,
    .graphNodeStart ⟨64, 0, none⟩,
    .graphNodeStart ⟨0, 2 ^ 32, none⟩,
    .graphNodeStart ⟨0, 0, some (64, 0)⟩,
    .graphNodeStart ⟨0, 0, some (0, 65536)⟩,
    .graphEdgeStatus ⟨64, 0, none⟩ 0 0] : List Instr).all (fun c => !c.wf) = true := by decide +kernel

/-- Ill-formed commands, one for each check. -/
theorem test_wf_refuses_3 : ([
    .graphEdgeStatus ⟨0, 0, none⟩ 64 0,
    .graphEdgeStatus ⟨0, 0, none⟩ 0 256,
    .selftest (.mailbox 9),
    .selftest (.ring ⟨64, 0, none⟩),
    .calibrate (.mailbox 9),
    .calibrate (.ring ⟨64, 0, none⟩),
    .keyEnrol (.mailbox 9),
    .keyEnrol (.ring ⟨64, 0, none⟩),
    .secureErase (.mailbox 9),
    .secureErase (.ring ⟨64, 0, none⟩),
    .lifetimeReset (.mailbox 9),
    .lifetimeReset (.ring ⟨64, 0, none⟩),
    .fwRollback (.mailbox 9),
    .fwRollback (.ring ⟨64, 0, none⟩),
    .configStage (.mailbox 9),
    .configStage (.ring ⟨64, 0, none⟩),
    .debugEnable (.mailbox 9),
    .debugEnable (.ring ⟨64, 0, none⟩),
    .sqTail (.bar0 9) 0 0#32,
    .sqTail .mirror 64 0#32,
    .cqHead (.bar0 9) 0 0#32,
    .cqHead .mirror 64 0#32,
    .commandFetch 64,
    .commandStart ⟨64, 0, none⟩] : List Instr).all (fun c => !c.wf) = true := by decide +kernel

/-- Ill-formed commands, one for each check. -/
theorem test_wf_refuses_4 : ([
    .commandTimeout (.mailbox 9),
    .commandTimeout (.ring ⟨64, 0, none⟩),
    .stopEscalation ⟨64, 0, none⟩ .tug,
    .stopEscalation ⟨0, 0, none⟩ (.engine 8 0),
    .stopEscalation ⟨0, 0, none⟩ (.engine 0 16),
    .commandCompletion (.mailbox 9),
    .commandCompletion (.ring ⟨64, 0, none⟩),
    .requestIssue badReq,
    .load badReq {},
    .load goodReq { symbol := 72 },
    .load goodReq { bit := 8 },
    .store badReq {},
    .store goodReq { symbol := 72 },
    .store goodReq { bit := 8 },
    .atomic badReq {},
    .atomic goodReq { symbol := 72 },
    .atomic goodReq { bit := 8 },
    .response { tag := 65536, gen := 0, status := 0, echo := false },
    .response { tag := 0, gen := 0, status := 1, echo := false },
    .response { tag := 0, gen := 0, status := 0, echo := false, dstPos := 25 },
    .flowIdleExpiry ⟨64, false, 0, 0⟩,
    .flowIdleExpiry ⟨0, false, 25, 0⟩,
    .flowIdleExpiry ⟨0, false, 0, 49⟩,
    .probeAnswer 49,
    .probeTimeout 49,
    .epochTableUpdate 25 0 ⟨0#8, none⟩] : List Instr).all (fun c => !c.wf) = true := by decide +kernel

/-- Ill-formed commands, one for each check. -/
theorem test_wf_refuses_5 : ([
    .epochTableUpdate 0 49 ⟨0#8, none⟩,
    .bankLoadDone 8 0,
    .bankLoadDone 0 16,
    .bankSwitch 8 0,
    .bankSwitch 0 16,
    .guardEnd 8 0,
    .guardEnd 0 16,
    .integrationWindowEnd 8 0 (List.replicate 128 0) 0 {},
    .integrationWindowEnd 0 16 (List.replicate 128 0) 0 {},
    .integrationWindowEnd 0 0 [] 0 {},
    .windowOutput 8 0,
    .windowOutput 0 16,
    .heaterTick 8 0 0 0,
    .heaterTick 0 16 0 0,
    .tapMonitorTick 8 0 (List.replicate 132 0),
    .tapMonitorTick 0 16 (List.replicate 132 0),
    .tapMonitorTick 0 0 [],
    .rateDetectorTick 8 0 0,
    .rateDetectorTick 0 16 0,
    .thermalResume 8 0 true,
    .thermalResume 0 16 true,
    .lighthouseFault 8 0,
    .lighthouseFault 0 16,
    .lhSwitchoverDone 8 0] : List Instr).all (fun c => !c.wf) = true := by decide +kernel

/-- Ill-formed commands, one for each check. -/
theorem test_wf_refuses_6 : ([
    .lhSwitchoverDone 0 16,
    .fabricLighthouseFault 49,
    .fabricLhResume 49,
    .linkLighthouseFault 8,
    .standbyCheck (.engine 8 0 0) true,
    .standbyCheck (.engine 0 16 0) true,
    .standbyCheck (.engine 0 0 2) true,
    .standbyCheck (.fabric 49 0) true,
    .standbyCheck (.fabric 0 2) true,
    .standbyCheck (.link 8 0) true,
    .standbyCheck (.link 0 2) true,
    .engineReset 8 0,
    .engineReset 0 16,
    .engineResetDone 8 0,
    .engineResetDone 0 16,
    .targetedTestDone (.engine 8 0) ⟨true, [], []⟩,
    .targetedTestDone (.engine 0 0) ⟨false, [128], []⟩,
    .targetedTestDone (.engine 0 0) ⟨false, [], [129]⟩,
    .calibrationTrigger (.engine 0 16) .age,
    .calibrationTrigger (.tile 8 0) .age,
    .calibrationTrigger (.tile 0 144) .age,
    .calibrationTrigger (.router 8) .age,
    .calibrationTrigger (.harbourmaster 2) .age,
    .calibrationTrigger (.fabricRings 49) .age] : List Instr).all (fun c => !c.wf) = true := by decide +kernel

/-- Ill-formed commands, one for each check. -/
theorem test_wf_refuses_7 : ([
    .calibrationTrigger (.fabricLanes 49) .age,
    .calibrationTrigger (.linkLanes 24) .age,
    .calibrationTrigger (.nearLanes 32) .age,
    .calibrationTrigger (.connections 32 0) .age,
    .calibrationTrigger (.connections 0 16) .age,
    .calibrationDone 8 0 [0, 0, 0, 0, 0] ⟨true, [], []⟩,
    .calibrationDone 0 16 [0, 0, 0, 0, 0] ⟨true, [], []⟩,
    .calibrationDone 0 0 [] ⟨true, [], []⟩,
    .calibrationDone 0 0 [0, 0, 0, 0, 0] ⟨false, [128], []⟩,
    .replicaWarning 8 0 0,
    .replicaWarning 0 16 0,
    .stretchRecoveryEnd 8 0 0,
    .stretchRecoveryEnd 0 16 0,
    .recoveryStepdown 8 0 0,
    .recoveryStepdown 0 16 0,
    .stretchLimit 8 0,
    .stretchLimit 0 16,
    .stepUpTimer 8 0,
    .stepUpTimer 0 16,
    .stepChange 8 0,
    .stepChange 0 16,
    .stepHoldEnd 8 0,
    .stepHoldEnd 0 16,
    .meshLoadWindow 8 0] : List Instr).all (fun c => !c.wf) = true := by decide +kernel

/-- Ill-formed commands, one for each check. -/
theorem test_wf_refuses_8 : ([
    .coreSubstitution 8 0,
    .coreSubstitution 0 144,
    .coreSubstitutionDone 8 0 [],
    .coreSubstitutionDone 0 144 [],
    .coreSubstitutionDone 0 0 [262144],
    .stripedFrame 0 0 { lanes := (List.replicate 16 0) },
    .stripedFrame 0 1 { lanes := [] },
    .identityWord 49 0 0 (.marker 0),
    .identityWord 0 1 18 (.marker 0),
    .identityWord 0 1 0 (.frame []),
    .ringLock 49 0 ⟨0, true, 0⟩,
    .ringLock 0 49 ⟨0, true, 0⟩,
    .ringLock 1 1 ⟨0, true, 0⟩,
    .ringLock 0 1 ⟨18, true, 0⟩,
    .ringDarkExpiry 49 0,
    .ringDarkExpiry 0 49,
    .ringDarkExpiry 1 1,
    .retrainingDone 49 0,
    .retrainingDone 0 49,
    .retrainingDone 1 1,
    .laneSleep 49 0,
    .laneSleep 0 49,
    .laneSleep 1 1,
    .fabricLaneBerExceeded 49 0 0,
    .fabricLaneBerExceeded 0 49 0,
    .fabricLaneBerExceeded 1 1 0] : List Instr).all (fun c => !c.wf) = true := by decide +kernel

/-- Ill-formed commands, one for each check. -/
theorem test_wf_refuses_9 : ([
    .fabricLaneBerExceeded 0 1 18,
    .laneMarginTestDone 0 0 0 ⟨64, 0⟩,
    .laneMarginTestDone 0 1 18 ⟨64, 0⟩,
    .nearBundleFrame 32 0 true ⟨0, 0, false, 0, 0, false, true, [], 0, [], 0⟩,
    .nearBundleFrame 0 10 true ⟨0, 0, false, 0, 0, false, true, [], 0, [], 0⟩,
    .nearLaneBerExceeded 32 0 0,
    .nearLaneBerExceeded 0 10 0,
    .nearLaneBerExceeded 0 0 34,
    .refreshOperation 32 0 0,
    .refreshOperation 0 16 0,
    .refreshOperation 0 0 16,
    .refreshGap 32 0 [] ⟨[], []⟩,
    .refreshGap 0 16 [] ⟨[], []⟩,
    .refreshGap 0 0 [9216] ⟨[], []⟩,
    .refreshGap 0 0 [] ⟨[340], []⟩,
    .refreshGap 0 0 [] ⟨[], [⟨16, 0, 0, 0, 0⟩]⟩,
    .refreshGap 0 0 [] ⟨[], [⟨0, 0, 0, 72, 0⟩]⟩,
    .scrub 32 0 0 [],
    .scrub 0 16 0 [],
    .scrub 0 0 16 [],
    .scrub 0 0 0 [{ row := 262144, permanent := true }],
    .scrub 0 0 0 [{ row := 0, permanent := true, sector := 16 }],
    .scrub 0 0 0 [{ row := 0, permanent := true, symbol := 72 }],
    .scrub 0 0 0 [{ row := 0, permanent := true, bit := 8 }],
    .rowBufferWriteback 32 0 0 0,
    .rowBufferWriteback 0 16 0 0,
    .rowBufferWriteback 0 0 16 0,
    .rowBufferWriteback 0 0 0 262144,
    .segmentMoveStart ⟨32, 0, 0⟩] : List Instr).all (fun c => !c.wf) = true := by decide +kernel

/-- Ill-formed commands, one for each check. -/
theorem test_wf_refuses_10 : ([
    .segmentMoveStart ⟨0, 16, 0⟩,
    .segmentMoveStart ⟨0, 0, 1008⟩,
    .segmentHoldAck ⟨0, 0, 0⟩ 49,
    .segmentHoldAck ⟨32, 0, 0⟩ 0,
    .segmentCopyDone ⟨0, 16, 0⟩ ⟨[], []⟩,
    .segmentCopyDone ⟨0, 0, 0⟩ ⟨[65536], []⟩,
    .segmentCopyDone ⟨0, 0, 0⟩ ⟨[], [⟨0, 262144, 0, 0, 0⟩]⟩,
    .segmentRecorded ⟨32, 0, 0⟩,
    .segmentRecorded ⟨0, 16, 0⟩,
    .segmentRecorded ⟨0, 0, 1008⟩,
    .retiredRangeExpiry ⟨32, 0, 0⟩,
    .retiredRangeExpiry ⟨0, 16, 0⟩,
    .retiredRangeExpiry ⟨0, 0, 1008⟩,
    .layerModelTick 32 goodStack,
    .layerModelTick 0 ⟨[], [0, 0, 0, 0], [0, 0, 0, 0], List.replicate 16 0⟩,
    .layerModelTick 0 ⟨List.replicate 16 [], [0, 0, 0, 0], [0, 0, 0, 0], List.replicate 16 0⟩,
    .layerModelTick 0 ⟨List.replicate 16 [0, 0, 0, 0], [], [0, 0, 0, 0], List.replicate 16 0⟩,
    .layerModelTick 0 ⟨List.replicate 16 [0, 0, 0, 0], [0, 0, 0, 0], [], List.replicate 16 0⟩,
    .layerModelTick 0 ⟨List.replicate 16 [0, 0, 0, 0], [0, 0, 0, 0], [0, 0, 0, 0], []⟩,
    .stackSensorSuspect 32 0,
    .stackSensorSuspect 0 72,
    .railFault 32 0,
    .railFault 0 35,
    .crossingTimeout ⟨65536, 0⟩,
    .crossingTimeout ⟨0, 65536⟩,
    .wake 0 [] 0] : List Instr).all (fun c => !c.wf) = true := by decide +kernel

/-- Ill-formed commands, one for each check. -/
theorem test_wf_refuses_11 : ([
    .wake 8 [] 0,
    .wake 1 [8] 0,
    .wake 1 [] 8,
    .limiterTick 8 0,
    .powerCapTick ⟨[⟨8, 0, [], [], []⟩], List.replicate 8 0, [], 0, 0, [], []⟩,
    .powerCapTick ⟨[], [], [], 0, 0, [], []⟩,
    .dieSensorSuspect 0 134,
    .dieSensorSuspect 8 16,
    .dieSensorSuspect 9 0,
    .berthShutdown 8,
    .thermalHoldEnd 8 0,
    .resetReq 9 0#64,
    .vfFlr 0,
    .vfFlr 9,
    .partitionReset 8 0x10,
    .partitionReset 0 0x0F,
    .siteRecovery 49 true,
    .trainingWord 24 { cfgCrc := 0, members := 0, link := 0, pos := 0, part := 0, check := 0, lanes := 32 },
    .trainingWord 0 { cfgCrc := 0, members := 0, link := 32, pos := 0, part := 0, check := 0, lanes := 32 },
    .trainingWord 0 { cfgCrc := 0, members := 0, link := 0, pos := 32, part := 0, check := 0, lanes := 32 },
    .trainingWord 0 { cfgCrc := 0, members := 0, link := 0, pos := 0, part := 0, check := 0, lanes := 35 },
    .trainingWord 0 { cfgCrc := 0, members := 0, link := 0, pos := 0, part := 0, check := 0, lanesBack := 35 },
    .trainingWord 0 { cfgCrc := 0, members := 0, link := 0, pos := 0, part := 0, check := 0, refused := 6 },
    .linkRetrainTimer 24,
    .linkFrame 24 { decodes := true, idle := true, aboveHalf := false },
    .linkFrame 0 { decodes := true, idle := true, aboveHalf := false, units := [0, 0, 0, 0, 0] },
    .linkNoFrame 24] : List Instr).all (fun c => !c.wf) = true := by decide +kernel

/-- Ill-formed commands, one for each check. -/
theorem test_wf_refuses_12 : ([
    .linkRelease 24,
    .relayRouteTimer 1 ⟨1, none⟩,
    .relayRouteTimer 0 ⟨25, none⟩,
    .routeReturnTimer 1 1,
    .routeReturnTimer 0 25,
    .routeDrainDone 1 ⟨1, [], []⟩,
    .routeDrainDone 0 ⟨25, [], []⟩,
    .tideSyncMessage 24 0 0,
    .tideDelayExchange 24 0 0 0 0,
    .heartbeat 25 0,
    .heartbeatTimeout 25 true,
    .deadDeclaration 25 none,
    .deadDeclaration 0 (some 49),
    .claimCollect [⟨25, 0⟩],
    .claimCollect [⟨0, 26⟩],
    .rejoinRequest 25 0,
    .mbxCtrlGo 9 0#64,
    .mpWriteTransaction 65536 [],
    .mpWriteTransaction 0 (List.replicate 1025 0#8),
    .mpDynamicAddress 128,
    .registerWrite (.bar0 9) 0 [],
    .registerWrite (.bar0 0) 0x40000 [],
    .registerWrite (.bar0 0) 0 (List.replicate 65 0#8),
    .partitionResetDone 8] : List Instr).all (fun c => !c.wf) = true := by decide +kernel

/-- Ill-formed commands, one for each check. -/
theorem test_wf_refuses_13 : ([
    .escalationRungDeadline 8 0 0,
    .linkResetEntryInstant 24] : List Instr).all (fun c => !c.wf) = true := by decide +kernel

/-- Ill-formed requests on the wire, one for each check. -/
theorem test_wf_refuses_requests : ([
    { goodReq with srcPos := 25 },
    { goodReq with srcSite := 49 },
    { goodReq with srcVtile := 144 },
    { goodReq with addr := 2 ^ 47 },
    { goodReq with size := 0 },
    { goodReq with size := 65 },
    { goodReq with srcCtx := some ⟨64, 0, none⟩ },
    { goodReq with bar2 := some 9 }] : List WireReq).all (fun r => !r.wf) = true := by decide +kernel

/-- Ill-formed berth readings, one for each length. -/
theorem test_wf_refuses_berth_readings : ([
    ⟨8, 0, List.replicate 16 0, List.replicate 128 0, List.replicate 6 0⟩,
    ⟨0, 0, [], List.replicate 128 0, List.replicate 6 0⟩,
    ⟨0, 0, List.replicate 16 0, [], List.replicate 6 0⟩,
    ⟨0, 0, List.replicate 16 0, List.replicate 128 0, []⟩] : List BerthReading).all (fun r => !r.wf) = true := by decide +kernel

/-- Commands at the ends of their ranges are well formed. -/
theorem test_wf_accepts : ([
    .ctxOpen 8, .ctxQuery (.mailbox 8), .ctxQuery (.ring ⟨63, 2 ^ 32 - 1, some (63, 65535)⟩), .sqTail .mirror 63 0#32,
    .load goodReq { symbol := 71, bit := 7 }, .engineReset 7 15, .coreSubstitution 7 143, .ringLock 47 48 ⟨17, true, 0⟩,
    .nearLaneBerExceeded 31 9 33, .segmentMoveStart ⟨31, 15, 1007⟩, .layerModelTick 31 goodStack, .stackSensorSuspect 31 71,
    .wake 7 [1] 7, .dieSensorSuspect 7 133, .dieSensorSuspect 8 15, .vfFlr 8, .partitionReset 7 0x12, .linkRelease 23,
    .relayRouteTimer 23 ⟨24, none⟩, .heartbeat 24 0, .registerWrite (.bar0 8) 0x3FFF8 (List.replicate 8 0#8)] : List Instr).all Instr.wf =
    true := by decide +kernel

/-- A word spells no command: the table gives no row any bits. -/
theorem test_decode_none : decodeTableWord 16 0x0300 = none := rfl

/-! ## Steps, resets, requests to Blunen -/

/-- Queue and clock: the front command runs, an empty queue ticks (500 ns in always-on mode, 1 ns at RATE 0). -/
theorem witness_step :
    (let s : State := { pending := [.interlockOpen, .watchdog] }
     s.pending = .interlockOpen :: [.watchdog] ∧ (after (step s)).pending = [.watchdog] ∧
     (after (step s)).power.interlockClosed = false) ∧
    (({} : State).pending = [] ∧ ({} : State).power.alwaysOn = true ∧ ({} : State).tide.mode = .alwaysOn ∧
     now (after (step {})) = 500) ∧
    (let s : State := { tide := { mode := .reference } }
     s.pending = [] ∧ s.power.alwaysOn = true ∧ s.tide.mode = .reference ∧ now (after (step s)) = 1) ∧
    (let s : State := { power := { alwaysOn := false } }
     s.pending = [] ∧ s.power.alwaysOn = false ∧ now (after (step s)) = 0) ∧
    (let s : State := { tide := { mode := .reference, aoPhase := 499 } }
     s.pending = [] ∧ s.tide.mode = .reference ∧ s.tide.tick.aoPhase = 0 ∧ s.tide.tick.latchAo = 2 ^ 32) := by decide +kernel

/-- A member at position 1 whose link to the master at position 0 is up. -/
def memberUp (t : Nat) : State :=
  { owned t with harbour := { posValid := true, latched := true, pos := 1, members := 3, hbrMembers := 3, hbrPos := 0x81
                              memberTab := [(0, { part := 0x11 })], links := [(23, { state := .up })] } }

/-- The tick at which a heartbeat falls due sends it; the tick before does not. -/
theorem witness_heartbeatTick :
    (let s := memberUp 99500
     s.pending = [] ∧ s.power.alwaysOn = true ∧ beatDue { s with tide := s.tide.tick } = true ∧
     (after (step s)).sent = [.heartbeat 1 8] ∧ (after (step s)).harbour.beatAt = 100000 ∧
     (getLink (after (step s)) 23).framesSent = 1) ∧
    (let s := memberUp 99499
     s.pending = [] ∧ s.power.alwaysOn = true ∧ beatDue { s with tide := s.tide.tick } = false ∧
     (after (step s)).sent = [] ∧ now (after (step s)) = 99999) := by decide +kernel

/-- Memory at reset is canonical; a step on a module answers a next state, or a fault where a unit is absent. -/
theorem witness_whole_machine : memWf State.reset = true ∧ runs (step State.reset) = true ∧
    unitsPresent {} (.limiterTick 7 0) = true ∧ runs (exec (.limiterTick 7 0) {}) = true ∧
    unitsPresent {} (.limiterTick 8 0) = false ∧ runs (exec (.limiterTick 8 0) {}) = false := by decide +kernel

/-- The mailbox request may begin. -/
def askedOk (s : State) (op : Nat) : Bool := hasRoute s (.mailbox 0) && decide (routeAsked s (.mailbox 0) op = some (ask s op))

/-- The status that a mailbox request is answered with, 0xFF before that. -/
def answered (s : State) : Nat := ((getMbx s 0).result.map (·.status)).getD 0xFF

theorem witness_readingRequests :
    askedOk (asked (up 0) 0x0004 5) 0x0004 = true ∧ answered (after (exec (.ctxQuery (.mailbox 0)) (asked (up 0) 0x0004 5))) = 0 ∧
    askedOk (asked (up 0) 0x0010 0) 0x0010 = true ∧ answered (after (exec (.fwInfo (.mailbox 0)) (asked (up 0) 0x0010 0))) = 0 ∧
    askedOk (asked (up 0) 0x0011 48) 0x0011 = true ∧
    answered (after (exec (.healthRead (.mailbox 0)) (asked (up 0) 0x0011 48))) = 0 := by decide +kernel

/-- Context 0 in a state, with generation 255. -/
def ctx0 (st : CtxState) : Tab Context := [(0, { state := st, gen := 255 })]

theorem witness_ctxOpen :
    (let s := asked (owned 0) 0x0001 (4 * 256)
     askedOk s 0x0001 = true ∧ fld (ask s 0x0001).params 0 6 = 0 ∧ (getCtx s 0).state = .closed ∧ oldOutstanding s 0 = false ∧
     (getBerth s 0).hold = false ∧ berthResetting s 0 = false ∧ lockWaits s = false ∧ (getSite s 0).retired = false ∧
     (after (exec (.ctxOpen 0) s)).tide.firstLock = true ∧
     (getCtx (after (exec (.ctxOpen 0) s)) 0).state = .opened ∧ (getCtx (after (exec (.ctxOpen 0) s)) 0).log2S = 4) ∧
    (let s := { asked (owned 0) 0x0001 (4 * 256) with ctxs := ctx0 .opened }
     askedOk s 0x0001 = true ∧ (getCtx s (fld (ask s 0x0001).params 0 6)).state ≠ .closed ∧
     answered (after (exec (.ctxOpen 0) s)) = S_BAD_PARAM) := by decide +kernel

/-- CTX_OPEN waits for a thermal hold and for the first lock of a slave; a lost berth has no context to open. -/
theorem witness_ctxOpen_waits :
    (let s := { asked (owned 0) 0x0001 (4 * 256) with berths := [(0, { hold := true })] }
     askedOk s 0x0001 = true ∧ (getCtx s 0).state = .closed ∧ (getBerth s 0).hold = true ∧
     after (exec (.ctxOpen 0) s) = s) ∧
    (let s := asked (memberUp 0) 0x0001 (4 * 256)
     askedOk s 0x0001 = true ∧ (getCtx s 0).state = .closed ∧ lockWaits s = true ∧ after (exec (.ctxOpen 0) s) = s) ∧
    (let s := { asked (owned 0) 0x0001 (4 * 256 + 63) with sites := [(7, { retired := true })] }
     askedOk s 0x0001 = true ∧ fld (ask s 0x0001).params 0 6 = 63 ∧ (getCtx s 63).state = .closed ∧
     oldOutstanding s 63 = false ∧ (getBerth s 7).hold = false ∧ berthResetting s 7 = false ∧ lockWaits s = false ∧
     (getSite s (ctxBerth 63)).retired = true ∧ answered (after (exec (.ctxOpen 0) s)) = S_BAD_PARAM ∧
     (getCtx (after (exec (.ctxOpen 0) s)) 63).state = .closed) := by decide +kernel

theorem witness_ctxClose_ctxAbort :
    (let s := { asked (owned 0) 0x0002 0 with ctxs := ctx0 .opened }
     askedOk s 0x0002 = true ∧ (getCtx s (fld (ask s 0x0002).params 0 8)).state = .opened ∧
     (getCtx (after (exec (.ctxClose 0) s)) 0).state = .closed ∧ answered (after (exec (.ctxClose 0) s)) = 0) ∧
    (let s := { asked (owned 0) 0x0003 0 with ctxs := ctx0 .closing }
     askedOk s 0x0003 = true ∧ (getCtx s (fld (ask s 0x0003).params 0 8)).state ≠ .closed ∧
     (getCtx (after (exec (.ctxAbort 0) s)) 0).state = .closed ∧ (getCtx (after (exec (.ctxAbort 0) s)) 0).gen = 0) ∧
    (let s := { asked (owned 0) 0x0002 0 with ctxs := ctx0 .stopped }
     askedOk s 0x0002 = true ∧ (getCtx s (fld (ask s 0x0002).params 0 8)).state ≠ .opened ∧
     answered (after (exec (.ctxClose 0) s)) = S_BAD_PARAM) ∧
    (let s := asked (owned 0) 0x0003 63
     askedOk s 0x0003 = true ∧ (getCtx s (fld (ask s 0x0003).params 0 8)).state = .closed ∧
     answered (after (exec (.ctxAbort 0) s)) = S_BAD_PARAM) := by decide +kernel

theorem witness_roles :
    (let s := asked (owned 0) 0x0020 (7 + 5 * 256)
     askedOk s 0x0020 = true ∧ fld (ask s 0x0020).params 0 8 = 7 ∧ (getSite s 7).retired = false ∧ siteDown s 7 = false ∧
     (getSite s 7).drain = none ∧ (getSite (after (exec (.roleChange 0) s)) 7).drain = some (5, 0)) ∧
    (let s := { asked (owned 0) 0x0020 7 with sites := [(7, { drain := some (5, 0), epoch := 255 })] }
     hasSite s 7 = true ∧ (getSite s 7).drain = some (5, 0) ∧ (getSite (after (exec (.roleDrainDone 7) s)) 7).role = 5 ∧
     (getSite (after (exec (.roleDrainDone 7) s)) 7).epoch = 0 ∧
     (getSite (after (exec (.roleDrainDone 7) s)) 7).replyTo = some 0 ∧ answered (after (exec (.roleDrainDone 7) s)) = 0xFF) ∧
    (let s := { asked (owned 0) 0x0020 7 with sites := [(7, { role := 5, epoch := 3, replyTo := some 0 })] }
     (getSite s 7).replyTo = some 0 ∧ (3 : BitVec 8) = (getSite s 7).epoch ∧ (getMbx s 0).pending = true ∧
     (getMbx s 0).accepted = true ∧ (getMbx s 0).result = none ∧
     answered (after (exec (.epochTableUpdate 0 7 ⟨3, none⟩) s)) = 0 ∧
     tableEpoch (after (exec (.epochTableUpdate 0 7 ⟨3, none⟩) s)) 0 7 = 3) ∧
    (let s := { asked (owned 0) 0x0020 (7 + 5 * 256) with sites := [(7, { retired := true })] }
     askedOk s 0x0020 = true ∧ (getSite s (fld (ask s 0x0020).params 0 8)).retired = true ∧
     answered (after (exec (.roleChange 0) s)) = S_BAD_PARAM) ∧
    (let s := { asked (owned 0) 0x0020 (7 + 5 * 256) with sites := [(7, { dead := true })] }
     askedOk s 0x0020 = true ∧ (getSite s (fld (ask s 0x0020).params 0 8)).retired = false ∧
     siteDown s (fld (ask s 0x0020).params 0 8) = true ∧ answered (after (exec (.roleChange 0) s)) = S_HW_ERROR) := by
  decide +kernel

theorem witness_domainSet :
    (let s := asked (owned 0) 0x0030 (0x200 + 65536)
     askedOk s 0x0030 = true ∧ fld (ask s 0x0030).params 0 16 = 0x200 ∧ domainAllowed s 0x200 (fld (ask s 0x0030).params 16 8) = true ∧
     (getDomain s 0x200).target ≠ domStateOf (fld (ask s 0x0030).params 16 8) ∧ domainInUse s 0x200 = false ∧
     (getDomain s 0x200).queue = [] ∧ (getDomain (after (exec (.domainSet (.mailbox 0)) s)) 0x200).state = .on ∧
     (getDomain (after (exec (.domainSet (.mailbox 0)) s)) 0x200).target = .retention) ∧
    (let s := asked (owned 0) 0x0030 0x200
     askedOk s 0x0030 = true ∧ domainAllowed s 0x200 (fld (ask s 0x0030).params 16 8) = true ∧
     (getDomain s 0x200).target = domStateOf (fld (ask s 0x0030).params 16 8) ∧ (getDomain s 0x200).busy = none ∧
     answered (after (exec (.domainSet (.mailbox 0)) s)) = 0) ∧
    (let s := asked (owned 0) 0x0030 0xFFFF
     askedOk s 0x0030 = true ∧ domainAllowed s (fld (ask s 0x0030).params 0 16) (fld (ask s 0x0030).params 16 8) = false ∧
     answered (after (exec (.domainSet (.mailbox 0)) s)) = S_BAD_PARAM) := by decide +kernel

theorem witness_domainTransitionDone :
    (let s : State := { domains := [(0x20, { busy := some .off })] }
     hasDomain s 0x20 = true ∧ (getDomain s 0x20).busy = some .off ∧ parkable s 0x20 = true ∧
     (getDomain (after (exec (.domainTransitionDone 0x20) s)) 0x20).state = .off) ∧
    (let s : State := { domains := [(0x100, { busy := some .off }), (0x200, { state := .off })] }
     hasDomain s 0x100 = true ∧ (getDomain s 0x100).busy = some .off ∧ domKind 0x100 = .region 0 0 ∧
     ¬ (getDomain s (engineDom 0 0)).state.depth < DomState.off.depth ∧
     (getDomain (after (exec (.domainTransitionDone 0x100) s)) 0x100).state = .off) ∧
    (let s : State := { domains := [(0x200, { state := .off, busy := some .on })] }
     hasDomain s 0x200 = true ∧ (getDomain s 0x200).busy = some .on ∧ domKind 0x200 = .engine 0 0 ∧
     (getDomain s (regionDom 0 0)).state = .on ∧
     (getDomain (after (exec (.domainTransitionDone 0x200) s)) 0x200).state = .on) ∧
    (let s : State := { domains := [(0x17F, { state := .off, busy := some .on })], berths := [(7, { hold := true })] }
     hasDomain s 0x17F = true ∧ domKind 0x17F = .region 7 15 ∧ (getDomain s 0x17F).busy = some .on ∧ (getBerth s 7).hold = true ∧
     (getDomain (after (exec (.domainTransitionDone 0x17F) s)) 0x17F).state = .off) ∧
    (let s : State := { domains := [(0x27F, { state := .off, busy := some .retention })], berths := [(7, { hold := true })] }
     hasDomain s 0x27F = true ∧ domKind 0x27F = .engine 7 15 ∧ (getBerth s 7).hold = true ∧
     after (exec (.domainTransitionDone 0x27F) s) = s) ∧
    (let s : State := { domains := [(0x20, { busy := some .off })], tide := { stoppedGens := [(0x20, 0)] } }
     hasDomain s 0x20 = true ∧ (getDomain s 0x20).busy = some .off ∧ parkable s 0x20 = false ∧
     after (exec (.domainTransitionDone 0x20) s) = s) := by decide +kernel

theorem witness_privileged :
    (let s := asked (owned 0) 0x0F00 (256 + 3)
     askedOk s 0x0F00 = true ∧ fld (ask s 0x0F00).params 8 8 = 1 ∧ answered (after (exec (.keyEnrol (.mailbox 0)) s)) = 0) ∧
    (let s := asked (owned 0) 0x0F00 3
     askedOk s 0x0F00 = true ∧ fld (ask s 0x0F00).params 8 8 ≠ 1 ∧ silentParts s (fld (ask s 0x0F00).params 64 64) 96 = [] ∧
     hmReads s (fld (ask s 0x0F00).params 64 64) 96 = none ∧
     tabGet [] (after (exec (.keyEnrol (.mailbox 0)) s)).sec.keys 3 = List.replicate 96 0#8) ∧
    (let s := asked (owned 0) 0x0F02 0
     askedOk s 0x0F02 = true ∧ (after (exec (.lifetimeReset (.mailbox 0)) s)).sec.lifetimeReset = true) ∧
    (let s := asked (owned 0) 0x0F03 (1 + 4 * 256 + 2 * 65536)
     askedOk s 0x0F03 = true ∧ (after (exec (.fwRollback (.mailbox 0)) s)).sec.rollback = some (1, 2, 4)) ∧
    (let s := asked (owned 0) 0x0F04 0
     askedOk s 0x0F04 = true ∧ silentParts s (fld (ask s 0x0F04).params 0 64) 64 = [] ∧ hmReads s (fld (ask s 0x0F04).params 0 64) imageBytes = none ∧
     imageFault s (loadBytes s (fld (ask s 0x0F04).params 0 64) 4) = some 0) := by decide +kernel

/-- KEY_ENROL answers what its read meets, and waits while a stack gives no answer. -/
theorem witness_privilegedReads :
    (let s := { asked (owned 0) 0x0F00 3 with sites := [(8, { dead := true })] }
     askedOk s 0x0F00 = true ∧ fld (ask s 0x0F00).params 8 8 ≠ 1 ∧ silentParts s (fld (ask s 0x0F00).params 64 64) 96 = [] ∧
     hmReads s (fld (ask s 0x0F00).params 64 64) 96 = some (S_TARGET_DEAD, 8) ∧
     answered (after (exec (.keyEnrol (.mailbox 0)) s)) = S_TARGET_DEAD) ∧
    (let s := { asked (owned 0) 0x0F00 3 with stackTab := [(0, { stoppedHeat := true })] }
     askedOk s 0x0F00 = true ∧ fld (ask s 0x0F00).params 8 8 ≠ 1 ∧ silentParts s (fld (ask s 0x0F00).params 64 64) 96 ≠ [] ∧
     answered (after (exec (.keyEnrol (.mailbox 0)) s)) = 0xFF ∧
     (after (exec (.keyEnrol (.mailbox 0)) s)).sec.keys = []) := by decide +kernel

theorem witness_eraseAndDebug :
    (let s := asked (owned 0) 0x0F01 0
     askedOk s 0x0F01 = true ∧ s.rst.ready = true ∧ validParts s = [0] ∧ (getPart s 0).resetting = false ∧
     (after (exec (.secureErase (.mailbox 0)) s)).sec.erasePending = true ∧
     (getPart (after (exec (.secureErase (.mailbox 0)) s)) 0).resetting = true) ∧
    (let s := asked (owned 0) 0x0F05 0
     askedOk s 0x0F05 = true ∧ s.rst.ready = true ∧ s.sec.debugWait = none ∧ validParts s ≠ [] ∧
     (after (exec (.debugEnable (.mailbox 0)) s)).sec.debugWait = some (.mailbox 0) ∧
     (after (exec (.debugEnable (.mailbox 0)) s)).sec.debug = false) := by decide +kernel

/-- A module at boot stage B8. -/
def atB8 : State := { rst := { stage := 8, step := 9, pcieUp := true } }

/-- Stage B8 with an active configuration: an empty body, and one with a reserved bit set. -/
def goodCfg : ConfigImage := { serial := 7 }
def badCfg : ConfigImage := { serial := 7, image := List.replicate 64 0 ++ [2] }
def withCfg (c : ConfigImage) : State := { atB8 with sec := { activeCfg := some c } }

theorem test_goodBody : firstBad (bodyBad (withCfg goodCfg) goodCfg.image) = none := by decide +kernel

theorem test_badBody : configValid (withCfg badCfg) badCfg = false := by
  simp only [configValid, decide_eq_false_iff_not, firstBad_eq_none]
  intro h
  have m : byteBad badCfg.image bodyAt 0xFE ∈ bodyBad (withCfg badCfg) badCfg.image := by
    unfold bodyBad; simp only [List.mem_append, List.mem_singleton, true_or]
  exact absurd (h _ m) (by decide +kernel)

theorem useActive_valid {s : State} {c : ConfigImage} (h : s.sec.activeCfg = some c) (v : configValid s c = true) :
    useActive s = sealWith s c := by
  unfold useActive; rw [h]; simp only [Option.filter, v, if_true]

theorem useActive_invalid {s : State} {c : ConfigImage} (h : s.sec.activeCfg = some c) (v : configValid s c = false) :
    useActive s = configEvent (sealWith s (defaultConfig s)) 0 := by
  unfold useActive; rw [h]; simp [Option.filter, v]

theorem write_atB8 {s : State} (h : s.rst.stage = 8 ∧ s.rst.ready = false ∧ s.sec.sealed = false ∧ s.sec.staged = none) :
    after (exec .breakwaterWrite s) = useActive s := by
  obtain ⟨a, b, c, d⟩ := h
  simp [exec, execBreakwaterWrite, applyConfig, after, a, b, c, d]

theorem witness_breakwater_active :
    (let s := withCfg goodCfg
     s.rst.stage = 8 ∧ s.rst.ready = false ∧ s.sec.sealed = false ∧ s.sec.staged = none ∧ s.sec.activeCfg = some goodCfg ∧
     firstBad (bodyBad s goodCfg.image) = none) ∧
    (after (exec .breakwaterWrite (withCfg goodCfg))).sec.breakwater.serial = 7 := by
  refine ⟨⟨rfl, rfl, rfl, rfl, rfl, test_goodBody⟩, ?_⟩
  rw [write_atB8 ⟨rfl, rfl, rfl, rfl⟩, useActive_valid rfl (by simp [configValid, test_goodBody])]; rfl

theorem witness_breakwater_invalid :
    firstBad (bodyBad (withCfg badCfg) badCfg.image) ≠ none ∧
    (after (exec .breakwaterWrite (withCfg badCfg))).sec.breakwater.serial = 0 ∧
    (after (exec .breakwaterWrite (withCfg badCfg))).sec.sealed = true ∧
    codes (after (exec .breakwaterWrite (withCfg badCfg))) = [0x0701] := by
  rw [write_atB8 ⟨rfl, rfl, rfl, rfl⟩, useActive_invalid rfl test_badBody]
  exact ⟨by simpa [configValid] using test_badBody, by decide +kernel⟩

theorem witness_breakwater :
    (atB8.rst.stage = 8 ∧ atB8.sec.sealed = false ∧ atB8.sec.staged = none ∧ atB8.sec.activeCfg = none ∧
     (after (exec .breakwaterWrite atB8)).sec.sealed = true ∧ codes (after (exec .breakwaterWrite atB8)) = [0x0701]) ∧
    (let s := { atB8 with sec := { staged := some { serial := 9 } }, ident := { part := 2 } }
     let t := after (exec (.bootStageDone {}) s)
     powered s = true ∧ imageFault s [] = some 0 ∧ t.sec.breakwater.parts = [⟨true, 2, false, 0, 3, []⟩] ∧
     t.sec.staged = none ∧ t.rst.stage = 9 ∧ codes t = [0x0701, 0x0701]) ∧
    (let s := owned 0
     s.sec.sealed = true ∧ s.rst.ready = true ∧ s.rst.stage ≠ 8 ∧ after (exec .breakwaterWrite s) = s) := by decide +kernel

theorem witness_testRequests :
    (let s := { asked (owned 0) 0x0E00 (3 * 2 ^ 24 + 15 * 256 + 7) with
       engines := [(7 * 16 + 15, { run := some { id := id0, block := ⟨0, 0, 0, 0⟩ } })] }
     askedOk s 0x0E00 = true ∧ fld (ask s 0x0E00).params 0 8 = 7 ∧ fld (ask s 0x0E00).params 8 16 = 15 ∧
     fld (ask s 0x0E00).params 24 8 = 3 ∧ (getEngine s 7 15).rotation = .inRotation ∧ (getSite s 7).retired = false ∧
     (getEngine s 7 15).run.isSome = true ∧ s.recovery.tests = [] ∧
     (after (exec (.selftest (.mailbox 0)) s)).recovery.tests.map (·.rank) = [2]) ∧
    (let s := { asked (owned 0) 0x0E01 0 with engines := [(0, { run := some { id := id0, block := ⟨0, 0, 0, 0⟩ } })] }
     askedOk s 0x0E01 = true ∧ fld (ask s 0x0E01).params 8 16 ≠ 0xFFFF ∧ (getEngine s 0 0).run.isSome = true ∧
     (after (exec (.calibrate (.mailbox 0)) s)).recovery.tests.map (·.running) = [false]) ∧
    (let s := asked (owned 0) 0x0E01 0
     askedOk s 0x0E01 = true ∧ (getEngine s 0 0).rotation = .inRotation ∧ (getEngine s 0 0).run = none ∧
     (getEngine s 0 0).finishing = none ∧ (getEngine s 0 0).resetting = false ∧ (getEngine s 0 0).thermalStep = false ∧
     s.recovery.tests = [] ∧ (getEngine (after (exec (.calibrate (.mailbox 0)) s)) 0 0).rotation = .outOfRotation ∧
     (after (exec (.calibrate (.mailbox 0)) s)).recovery.tests.map (·.running) = [true]) := by decide +kernel

/-! ## Ring commands -/

/-- The command of context 0 after one command of the queue. -/
def fin (s : State) (i : Instr) : Cmd := cmd0 (after (exec i s))

/-- A Tide of the state. -/
def atTide (t : Nat) : State := { tide := { count := t * 2 ^ 32 } }

theorem witness_counterCommands :
    (let c := started 0x0200 (4095 + 7 * 2 ^ 64)
     let s := updCounter (inFlight {} c) 0 4095 (fun _ => 7)
     isStarted s c 0x0200 = true ∧ fld c.params 64 64 ≤ (getCounter s 0 (fld c.params 0 16)).toNat ∧
     (fin s (.cntWait id0)).phase = .finished ∧ (fin s (.cntWait id0)).status = 0) ∧
    (let c := started 0x0200 (4095 + 8 * 2 ^ 64)
     let s := updCounter (inFlight {} c) 0 4095 (fun _ => 7)
     isStarted s c 0x0200 = true ∧ (getCounter s 0 (fld c.params 0 16)).toNat < fld c.params 64 64 ∧
     after (exec (.cntWait id0) s) = s) ∧
    (let c := started 0x0202 (5 + (2 ^ 64 - 1) * 2 ^ 64)
     let s := inFlight {} c
     isStarted s c 0x0202 = true ∧ getCounter (after (exec (.cntSet id0) s)) 0 5 = BitVec.ofNat 64 (2 ^ 64 - 1) ∧
     (fin s (.cntSet id0)).phase = .finished) ∧
    (let c := started 0x0201 (counterAddr 0 4095 + 3 * 2 ^ 64)
     let s := updCounter (inFlight {} c) 0 4095 (fun _ => BitVec.ofNat 64 (2 ^ 64 - 1))
     isStarted s c 0x0201 = true ∧ addrPos (fld c.params 0 64) = ownPos s ∧ goesOut s (fld c.params 0 64) = false ∧
     overtakes s c.berth .ctl (fld c.params 0 64) = false ∧ placeOf s.ident.part (addrLocal (fld c.params 0 64)) = .counter 0 4095 ∧ berthResetting s 0 = false ∧
     siteDown s 0 = false ∧ siteGone s 0 = false ∧ rangeStatus (seenFrom s 0) .atomic (fld c.params 0 64) 8 = none ∧
     getCounter (after (exec (.cntAdd id0) s)) 0 4095 = 2 ∧ (fin s (.cntAdd id0)).phase = .finished) ∧
    (let c := started 0x0203 (5 + 4096 * 2 ^ 64)
     let s := updCounter (inFlight {} c) 0 5 (fun _ => 0x1234)
     isStarted s c 0x0203 = true ∧ atHome s [⟨.store, fld c.params 64 64, 8⟩] = true ∧
     (fin s (.cntRead id0)).results.take 2 = [(4096, 0x34#8), (4097, 0x12#8)]) := by decide +kernel

/-- A module at position 0 of a harbour of two, with its partner. -/
def pairUp (s : State) : State :=
  { s with harbour := { s.harbour with posValid := true, latched := true, members := 3, hbrMembers := 3, hbrPos := 0x80
                                       memberTab := [(1, { part := 0x11 })], links := [(0, { state := .up })] } }

theorem witness_counterAddRemote :
    (let c := started 0x0201 (2 ^ 42 + counterAddr 0 5 + 3 * 2 ^ 64)
     let s := pairUp (inFlight (owned 0) c)
     let r := workReq s c .atomic (fld c.params 0 64) 8 .ctl
     isStarted s c 0x0201 = true ∧ goesOut s (fld c.params 0 64) = true ∧
     issueMeets s { r with opP := 3 } (destSite s r.addr) = none ∧
     (after (exec (.cntAdd id0) s)).reqs.out.map (fun o => (o.req.addr, o.req.size, o.req.opP)) =
       [(2 ^ 42 + counterAddr 0 5, 8, 3)]) ∧
    (let c := started 0x0201 (counterAddr 7 5 + 3 * 2 ^ 64)
     let e : OutReq := { req := workReq (owned 0) c .atomic (counterAddr 7 5) 8 .ctl, dstPos := 0, dstSite := 7, held := true }
     let s0 := inFlight (owned 0) c
     let s := { s0 with reqs := { s0.reqs with out := [e], nextTag := 1 } }
     let r := workReq s c .atomic (fld c.params 0 64) 8 .ctl
     isStarted s c 0x0201 = true ∧ goesOut s (fld c.params 0 64) = false ∧
     overtakes s c.berth .ctl (fld c.params 0 64) = true ∧ issueMeets s { r with opP := 3 } (destSite s r.addr) = none ∧
     (after (exec (.cntAdd id0) s)).reqs.out.map (fun o => (o.req.tag, o.held)) = [(0, true), (1, true)] ∧
     getCounter (after (exec (.cntAdd id0) s)) 7 5 = 0 ∧ (fin s (.cntAdd id0)).phase = .finished) := by decide +kernel

theorem witness_countersThroughResets :
    (let s := updCounter (owned 0) 7 4095 (fun _ => 9)
     powered s = true ∧ runs (exec .watchdog s) = true ∧ getCounter (after (exec .watchdog s)) 7 4095 = 0 ∧
     s.rst.ready = true ∧ (getPart s 0).resetting = false ∧ 7 ∈ partBerths s 0 ∧
     getCounter (beginPartitionReset s 0 2) 7 4095 = 0 ∧ getCounter (moduleReset s 0x10) 7 4095 = 0) ∧
    (let s := updCounter { asked (owned 0) 0x0003 0 with ctxs := ctx0 .opened } 0 1 (fun _ => 9)
     askedOk s 0x0003 = true ∧ getCounter (after (exec (.ctxAbort 0) s)) 0 1 = 9) ∧
    (let s0 := owned 0
     let s := { s0 with sec := { s0.sec with parts := [(0, { resetting := true })] } }
     addrPos (counterAddr 7 4095) = ownPos s ∧ placeOf s.ident.part (addrLocal (counterAddr 7 4095)) = .counter 7 4095 ∧
     berthResetting s 7 = true ∧ (addCounter s (counterAddr 7 4095) 1).mem.droppedAdds = 1) := by decide +kernel

theorem witness_tideAlarm :
    (let s := asked (owned 5) 0x0031 6
     askedOk s 0x0031 = true ∧ (after (exec (.tideAlarm (.mailbox 0)) s)).tide.alarm = some 6 ∧
     answered (after (exec (.tideAlarm (.mailbox 0)) s)) = 0) ∧
    (let s0 := asked (owned 5) 0x0031 5
     let s := { s0 with tide := { s0.tide with alarm := some 9 } }
     askedOk s 0x0031 = true ∧ (after (exec (.tideAlarm (.mailbox 0)) s)).tide.alarm = none) ∧
    (let s : State := { tide := { count := 5 * 2 ^ 32, alarm := some 5 } }
     s.tide.alarm = some 5 ∧ 5 ≤ now s ∧ s.io.asleep = false ∧ (after (exec .tideAlarmFire s)).tide.alarm = none) ∧
    (let s : State := { tide := { count := 5 * 2 ^ 32, alarm := some 5 }, io := { asleep := true } }
     s.tide.alarm = some 5 ∧ 5 ≤ now s ∧ s.io.asleep = true ∧ (after (exec .tideAlarmFire s)).io.wakeCode = 5 ∧
     (after (exec .tideAlarmFire s)).io.asleep = false) ∧
    (let s : State := { tide := { count := 5 * 2 ^ 32, alarm := some 6 } }
     s.tide.alarm = some 6 ∧ now s < 6 ∧ after (exec .tideAlarmFire s) = s) := by decide +kernel

theorem witness_tideCommands :
    (let c := started 0x0210 5
     let s := inFlight (atTide 5) c
     isStarted s c 0x0210 = true ∧ fld c.params 0 64 ≤ now s ∧ (fin s (.tideWait id0)).phase = .finished) ∧
    (let c := started 0x0210 6
     let s := inFlight (atTide 5) c
     isStarted s c 0x0210 = true ∧ now s < fld c.params 0 64 ∧ after (exec (.tideWait id0) s) = s) ∧
    (let c := { started 0x0211 4096 with tideStart := 0x0203 }
     let s := inFlight {} c
     isStarted s c 0x0211 = true ∧ atHome s [⟨.store, fld c.params 0 64, 8⟩] = true ∧
     (fin s (.tideRead id0)).results.take 2 = [(4096, 3#8), (4097, 2#8)]) ∧
    (let c := started 0x0220 0
     let s := inFlight {} c
     isStarted s c 0x0220 = true ∧ (getCtx s 0).flight.takeWhile (fun m => decide (m.id ≠ id0)) = [] ∧
     (fin s (.ctxDrain id0)).phase = .finished) ∧
    (let c := { started 0x0220 0 with id := ⟨0, 1, none⟩ }
     let s : State := { ctxs := [(0, { state := .opened, flight := [started 0x0200 0, c] })] }
     isStarted s c 0x0220 = true ∧
     (∃ m ∈ (getCtx s 0).flight.takeWhile (fun m => decide (m.id ≠ c.id)), m.id.node = none) ∧
     after (exec (.ctxDrain c.id) s) = s) := by decide +kernel

/-- Every controlled domain and PCIe in retention. -/
def resting (s : State) : State :=
  { s with domains := (4 :: controlled s).map (fun d => (d, { state := .retention })) }

theorem witness_sleepAndWake :
    (let s := resting { up 0 with ident := { part := 2 } }
     s.rst.ready = true ∧ s.io.asleep = false ∧ (getDomain s 4).state = .retention ∧ (getDomain s 4).busy = none ∧
     (controlled s).all (fun d => decide ((getDomain s d).state ≠ .on) && decide ((getDomain s d).busy = none)) = true ∧
     ([1, 2, 3].all (parkable ([1, 2, 3].foldl parkDomain s))) = true ∧
     (after (exec .moduleSleep s)).io.asleep = true ∧ (getDomain (after (exec .moduleSleep s)) 1).state = .retention) ∧
    (let s : State := { up 5 with io := { asleep := true }, tide := { count := 5 * 2 ^ 32, alarm := some 5 } }
     s.io.asleep = true ∧ s.tide.alarm = some 5 ∧ 5 ≤ now s ∧ (after (exec (.wake 5 [] 7) s)).tide.alarm = none ∧
     (after (exec (.wake 5 [] 7) s)).io.wakeCode = 5 ∧ (after (exec (.wake 5 [] 7) s)).io.asleep = false) ∧
    (let s : State := { up 5 with io := { asleep := true }, tide := { count := 5 * 2 ^ 32, alarm := some 6 } }
     s.io.asleep = true ∧ s.tide.alarm = some 6 ∧ now s < 6 ∧ after (exec (.wake 5 [] 7) s) = s) ∧
    (let s : State := { up 5 with io := { asleep := true } }
     s.io.asleep = true ∧ (after (exec (.wake 7 [] 7) s)).io.wakeCode = 7 ∧ (after (exec (.wake 1 [] 0) s)).io.wakeCode = 1 ∧
     (after (exec (.wake 6 [] 0) s)).io.wakeTide = 5 ∧ (after (exec (.mpAddressMatchWake 0x40) s)).io.asleep = false ∧
     (after (exec .presenceButtonPress s)).sec.buttonSince = some 5) ∧
    (let s0 := up 3000000000
     let s := { s0 with sec := { buttonSince := some 0 } }
     s.rst.ready = true ∧ s.rst.readyTide + 3000000000 ≤ now s ∧
     (after (exec .presenceHold s)).sec.window = some 123000000000) ∧
    (let s := { up 9 with sec := { window := some 9 } }
     now s = 9 ∧ (after (exec .presenceWindowExpiry s)).sec.window = none) := by decide +kernel

/-- TUG_COPY of LEN0 bytes from 0x1000 to 0x3000; TUG_FILL of LEN bytes at 0x1000 with a pattern. -/
def tugCopyCmd (len0 : Nat) : Cmd := started 0x0100 (0x1000 + 0x3000 * 2 ^ 64 + len0 * 2 ^ 128)
def tugFillCmd (len pattern : Nat) : Cmd := started 0x0101 (0x1000 + (len - 1) * 2 ^ 64 + pattern * 2 ^ 128)

theorem witness_tugChunks :
    (let c := tugCopyCmd 4097
     let s := inFlight {} c
     isStarted s c 0x0100 = true ∧ c.tug.chunks = 0 ∧ (fin s (.tugCopy id0)).tug.chunks = 2) ∧
    (let c := tugFillCmd 4096 0
     let s := inFlight {} c
     isStarted s c 0x0101 = true ∧ c.tug.chunks = 0 ∧ (fin s (.tugFill id0)).tug.chunks = 1) ∧
    (let c := { tugCopyCmd 9 with tug := { chunks := 1 } }
     let s := inFlight {} c
     isStarted s c 0x0100 = true ∧ c.tug.chunks ≠ 0 ∧ after (exec (.tugCopy id0) s) = s) ∧
    (let c := { tugFillCmd 9 0 with tug := { chunks := 1 } }
     let s := inFlight {} c
     isStarted s c 0x0101 = true ∧ c.tug.chunks ≠ 0 ∧ after (exec (.tugFill id0) s) = s) := by decide +kernel

/-- A chunk of the command in flight may move its bytes. -/
def chunkReady (s : State) (c : Cmd) (k : Nat) : Bool :=
  hasCtx s 0 && decide (findCmd s id0 = some c) && decide (c.phase = .started) && isTug c.opcode && decide (k < c.tug.chunks) &&
  !c.tug.finished.contains k && !c.tug.begun.contains k && !c.tug.stopped && !chunkOpen s id0 k &&
  reach s ((tugPieces c k).flatMap TugPiece.touches)

theorem witness_tugChunkMoves :
    (let c := { tugFillCmd 9 0x0807060504030201 with tug := { chunks := 1 } }
     let s := inFlight {} c
     chunkReady s c 0 = true ∧ touchStatus s 0 ((tugPieces c 0).flatMap TugPiece.touches) = none ∧ tugCounter c = none ∧
     asksOut s (readsOf ((tugPieces c 0).flatMap TugPiece.touches)) = false ∧
     asksOut s ((tugPieces c 0).flatMap TugPiece.touches) = false ∧
     (fin s (.tugChunkDone id0 0)).tug.finished = [0] ∧
     readBytes (after (exec (.tugChunkDone id0 0) s)) 0x1007 3 = [8#8, 1#8, 0#8] ∧
     (fin s (.tugChunkDone id0 0)).phase = .finished) ∧
    (let c := { tugCopyCmd 2 with tug := { chunks := 1 } }
     let s := writeBytes (inFlight {} c) 0x1000 [0x5A#8, 0xA5#8, 0xFF#8]
     chunkReady s c 0 = true ∧ touchStatus s 0 ((tugPieces c 0).flatMap TugPiece.touches) = none ∧ tugCounter c = none ∧
     readBytes (after (exec (.tugChunkDone id0 0) s)) 0x3000 3 = [0x5A#8, 0xA5#8, 0#8]) ∧
    (let c := { tugFillCmd 9 1 with tug := { chunks := 1 } }
     let s := updSite (inFlight {} c) 9 (fun k => { k with dead := true })
     chunkReady s c 0 = true ∧ touchStatus s 0 ((tugPieces c 0).flatMap TugPiece.touches) = some (S_TARGET_DEAD, 9) ∧
     stopsTug S_TARGET_DEAD = true ∧ (fin s (.tugChunkDone id0 0)).status = S_TARGET_DEAD) ∧
    (let c := { started 0x0100 (2 ^ 42 + 0x1000 + 0x3000 * 2 ^ 64 + 2 * 2 ^ 128) with tug := { chunks := 1 } }
     let s := pairUp (inFlight (owned 0) c)
     let t := after (exec (.tugChunkDone id0 0) s)
     chunkReady s c 0 = true ∧ touchStatus s 0 ((tugPieces c 0).flatMap TugPiece.touches) = none ∧
     asksOut s (readsOf ((tugPieces c 0).flatMap TugPiece.touches)) = true ∧
     t.reqs.out.map (fun o => (o.req.kind, o.req.addr, o.req.size, o.off)) = [(.load, 2 ^ 42 + 0x1000, 2, some 0)] ∧
     (findCmd t id0).map (·.phase) = some .started ∧ readBytes t 0x3000 2 = [0#8, 0#8]) := by decide +kernel

/-! ## Operators -/

/-- A descriptor of rows × cols elements of a format at an address, at bit `lo` of the parameters. -/
def td (lo addr fmt rows cols : Nat) : Nat := (addr + fmt * 2 ^ 48 + rows * 2 ^ 128 + cols * 2 ^ 160) * 2 ^ lo

/-- A digital command may do its work: a tile in service, no sleeping range, no failing access. -/
def digitalOk (s : State) (c : Cmd) (op : Nat) (ts : List Touch) : Bool :=
  isStarted s c op && !isOptical c.opcode c.params && !noTiles s c && atHome s ts &&
  decide (touchStatus s c.berth ts = none)

/-- FP32 1.0 and 2.0 at address 0x1000. -/
def twoFloats (s : State) : State := writeBytes s 0x1000 [0#8, 0#8, 0x80#8, 0x3F#8, 0#8, 0#8, 0#8, 0x40#8]

/-- Two operands of 1 × 2 and a result of `n` FP32 elements. -/
def binaryCmd (op n : Nat) : Cmd := started op (td 128 0x1000 1 1 2 + td 384 0x1000 1 1 2 + td 640 0x2000 1 1 n)

/-- One operand of 1 × 2 and a result of rows × n FP32 elements. -/
def unaryCmd (op opt rows n : Nat) : Cmd := started op (opt * 2 ^ 64 + td 128 0x1000 1 1 2 + td 384 0x2000 1 rows n)

/-- The operator ends with a result byte at an address. -/
def gives (s : State) (i : Instr) (a : Nat) (v : Byte) : Bool :=
  decide ((fin s i).phase = .finished) && decide ((fin s i).status = 0) && (fin s i).results.contains (a, v)

theorem witness_digital_binary :
    (let c := binaryCmd 0x0300 1
     let s := twoFloats (inFlight {} c)
     digitalOk s c 0x0300 (matmulTouches c) = true ∧ gives s (.matmul id0) 0x2003 0x40#8 = true ∧
     gives s (.matmul id0) 0x2002 0xA0#8 = true) ∧
    (let c := binaryCmd 0x0502 2
     let s := twoFloats (inFlight {} c)
     digitalOk s c 0x0502 (ewiseTouches c) = true ∧ gives s (.ewise id0) 0x2007 0x40#8 = true ∧
     gives s (.ewise id0) 0x2006 0x80#8 = true) := by decide +kernel

theorem witness_digital_unary :
    (let c := unaryCmd 0x0500 0 1 2
     let s := twoFloats (inFlight {} c)
     digitalOk s c 0x0500 (unaryTouches c) = true ∧ gives s (.convert id0) 0x2003 0x3F#8 = true) ∧
    (let c := unaryCmd 0x0501 0 2 1
     let s := twoFloats (inFlight {} c)
     digitalOk s c 0x0501 (unaryTouches c) = true ∧ gives s (.transpose id0) 0x2007 0x40#8 = true) ∧
    (let c := unaryCmd 0x0503 0 1 2
     let s := twoFloats (inFlight {} c)
     digitalOk s c 0x0503 (unaryTouches c) = true ∧ gives s (.tableFn id0) 0x2007 0x40#8 = true) ∧
    (let c := unaryCmd 0x0504 1 1 1
     let s := twoFloats (inFlight {} c)
     digitalOk s c 0x0504 (unaryTouches c) = true ∧ gives s (.reduce id0) 0x2003 0x40#8 = true) := by decide +kernel

/-- ATTENTION over one query, one key and one value of one element; bit 1 of OPT0 sends it to the engines. -/
def attentionCmd (opt0 : Nat) : Cmd :=
  started 0x0510 (opt0 * 2 ^ 64 + 0x3F800000 * 2 ^ 96 + td 128 0x1000 1 1 1 + td 384 0x1000 1 1 1 + td 640 0x1000 1 1 1 +
    td 896 0x2000 1 1 1)

theorem witness_digital_composite :
    (let c := unaryCmd 0x0505 0 1 2
     let s := twoFloats (inFlight {} c)
     digitalOk s c 0x0505 (unaryTouches c) = true ∧ (fin s (.softmax id0)).phase = .finished ∧
     (fin s (.softmax id0)).status = 0) ∧
    (let c := attentionCmd 0
     let s := twoFloats (inFlight {} c)
     digitalOk s c 0x0510 (attentionTouches c) = true ∧ (fin s (.attention id0)).phase = .finished ∧
     (fin s (.attention id0)).status = 0) ∧
    (let c := unaryCmd 0x0500 (2 ^ 64 - 1) 1 2
     let c1 := { c with params := c.params % 2 ^ 48 + (c.params / 2 ^ 64) * 2 ^ 64 + 2 ^ 48 }
     let s : State := { inFlight {} c1 with tiles := (tilesOf 0).map (fun t => (t, { retired := true })) }
     isStarted s c1 0x0500 = true ∧ noTiles s c1 = true ∧ (fin s (.convert id0)).status = S_RESOURCE_RETIRED) := by
  decide +kernel

theorem witness_integerConversions :
    encodeInt 8 .rne (.fin false 255 (-1)) = 127 ∧ encodeInt 8 .rne (.fin true 257 (-1)) = -128 ∧
    encodeInt 8 .rdn (.fin true 257 (-1)) = -128 ∧ encodeInt 8 .rne (.fin false 5 (-1)) = 2 ∧
    encodeInt 1 .rtz (.inf true) = -1 := by decide +kernel

theorem witness_optical :
    (let c := { started 0x0400 (td 128 0x1000 4 129 1 + td 384 0x1000 4 1 1 + td 640 0x2000 1 1 129 + 2 ^ 32 * 0x8001) with
       engines := [0, 15], opt := { engines := [0, 15] } }
     let s := inFlight {} c
     isStarted s c 0x0400 = true ∧ isOptical c.opcode c.params = true ∧ c.opt.stage = 0 ∧
     c.engines.any (engInService s c.berth) = true ∧ c.opt.engines.all (engInService s c.berth) = true ∧
     atHome s (optMatmulTouches c) = true ∧ touchStatus s c.berth (optMatmulTouches c) = none ∧
     (c.opt.engines.all (fun e => decide ((getEngine s 0 e).rotation = .inRotation))) = true ∧
     (fin s (.optMatmul id0)).opt.todo = [(0, ⟨0, 0, 0, 0⟩), (15, ⟨0, 0, 1, 0⟩)]) ∧
    (let c := { attentionCmd 2 with engines := [0], opt := { engines := [0] } }
     let s := inFlight {} c
     isStarted s c 0x0510 = true ∧ isOptical c.opcode c.params = true ∧ c.opt.stage = 0 ∧
     c.engines.any (engInService s c.berth) = true ∧ atHome s (attentionTouches c) = true ∧
     touchStatus s c.berth (attentionTouches c) = none ∧ (fin s (.attention id0)).opt.stage = 1) ∧
    (let c := { attentionCmd 2 with engines := [3], opt := { engines := [3] } }
     let s := updEngine (inFlight {} c) 0 3 (fun e => { e with rotation := .left })
     isStarted s c 0x0510 = true ∧ isOptical c.opcode c.params = true ∧ c.opt.stage = 0 ∧
     c.engines.any (engInService s c.berth) = false ∧ (fin s (.attention id0)).status = S_RESOURCE_RETIRED) := by
  decide +kernel

/-! ## Collectives and graphs -/

/-- A collective of one region at berth scope, over one FP32 element. -/
def collCmd (op : Nat) : Cmd := started op (2 ^ 48 + td 128 0x1000 1 1 1 + td 384 0x2000 1 1 1)

/-- A collective of module scope of berths 0 and 7, COLL_ID 9, of a berth. -/
def memberCmd (b : Nat) : Cmd :=
  { started 0x0600 (td 128 0x1000 1 1 1 + td 384 0x2000 1 1 1 + 2 ^ 640 + 0x81 * 2 ^ 656 + 9 * 2 ^ 704) with
    id := ⟨8 * b, 0, none⟩, berth := b }

/-- Both members in flight. -/
def members (x y : Cmd) (l : List Collective) : State :=
  { ctxs := [(x.id.ctx, { flight := [x] }), (y.id.ctx, { flight := [y] })], graphs := { colls := l } }

/-- A berth-scope collective works alone. -/
def collOk (op : Nat) (i : Instr) : Bool :=
  let c := collCmd op
  let s := twoFloats (inFlight {} c)
  isStarted s c op && !noTiles s c && !c.served && c.scope == 0 && atHome s (collLoads s c ++ collStores c) &&
  gives s i 0x2003 0x3F#8

theorem witness_collectives :
    (collOk 0x0600 (.allReduce id0) && collOk 0x0601 (.allGather id0) && collOk 0x0602 (.reduceScatter id0) &&
      collOk 0x0603 (.broadcast id0)) = true ∧
    (let c := memberCmd 0
     let s := inFlight {} c
     isStarted s c 0x0600 = true ∧ noTiles s c = false ∧ c.served = false ∧ c.scope ≠ 0 ∧ deadMember s c = none ∧
     s.graphs.colls = [] ∧ (after (exec (.allReduce id0) s)).graphs.colls.map (·.arrived) = [[id0]]) ∧
    (let c := memberCmd 0
     let d := { memberCmd 0 with id := ⟨0, 1, none⟩ }
     let k : Collective := { collId := 9, part := c.part {}, arrived := [d.id] }
     let s : State := { ctxs := [(0, { flight := [d, c] })], graphs := { colls := [k] } }
     isStarted s c 0x0600 = true ∧ c.scope ≠ 0 ∧ deadMember s c = none ∧ collOf s c = some k ∧ k.running = false ∧
     k.arrived.contains id0 = false ∧ (arrivedCmds s k).any (fun x => x.berth == c.berth) = true ∧
     (fin s (.allReduce id0)).status = S_BAD_PARAM) ∧
    (let x := memberCmd 0
     let y := memberCmd 7
     let k : Collective := { collId := 9, part := x.part {}, arrived := [x.id, y.id], running := true }
     let s := twoFloats (members x y [k])
     isStarted s x 0x0600 = true ∧ noTiles s x = false ∧ x.served = false ∧ x.scope ≠ 0 ∧ deadMember s x = none ∧
     collOf s x = some k ∧ k.arrived.contains id0 = true ∧ arrivedCmds s k = [x, y] ∧ ([x, y].map (·.id)).Nodup ∧
     reach s ([x, y].flatMap (fun z => collLoads s z ++ collStores z)) = true ∧
     (fin s (.allReduce id0)).phase = .finished ∧ (fin s (.allReduce id0)).results.length = 4) := by decide +kernel

theorem witness_rendezvous :
    (let x := memberCmd 0
     let y := memberCmd 7
     let k : Collective := { collId := 9, part := 8, arrived := [x.id, y.id] }
     let s := members x y [k]
     s.graphs.colls.filter (fun k => k.collId == 9 && !k.running && !k.failed) = [k] ∧ arrivedCmds s k = [x, y] ∧
     [y].all (sameDescriptor x) = true ∧ allArrived s x [x, y] = true ∧ hasRemote s x = false ∧
     (after (exec (.collectiveRendezvous 9 false) s)).graphs.colls.map (·.running) = [true]) ∧
    (let x := memberCmd 0
     let y := { memberCmd 7 with opcode := 0x0601 }
     let k : Collective := { collId := 9, part := 8, arrived := [x.id, y.id] }
     let s := members x y [k]
     s.graphs.colls.filter (fun k => k.collId == 9 && !k.running && !k.failed) = [k] ∧ arrivedCmds s k = [x, y] ∧
     [y].all (sameDescriptor x) = false ∧ (after (exec (.collectiveRendezvous 9 true) s)).graphs.colls = [{ k with failed := true }] ∧
     (fin s (.collectiveRendezvous 9 true)).status = S_BAD_PARAM) ∧
    (let s : State := {}
     s.graphs.colls.filter (fun k => k.collId == 9 && !k.running && !k.failed) = [] ∧
     after (exec (.collectiveRendezvous 9 true) s) = s) := by decide +kernel

/-- A node CNT_WAIT of berth 0 with predecessors. -/
def nodeOf (pred : Nat) : Nat := 0x0200 + pred * 2 ^ 64

/-- A graph of two nodes, the second after the first, in memory at 0x1000. -/
def graphBytes : List Byte := bytesLE 64 (0x47520001 + 2 * 2 ^ 32) ++ bytesLE 256 (nodeOf 0) ++ bytesLE 256 (nodeOf 1)

theorem witness_graphLoad :
    let c := started 0x0700 (0x1000 + 15 * 2 ^ 64)
    let s := writeBytes (inFlight (owned 0) c) 0x1000 graphBytes
    let h := loadNat (seenFrom s 0) 0x1000 64
    let entries := (List.range (fld h 32 8)).map (fun i => loadNat (seenFrom s 0) (0x1000 + 64 + 256 * i) 256)
    isStarted s c 0x0700 = true ∧ atHome s [⟨.load, 0x1000, 64⟩] = true ∧ atHome s [⟨.load, 0x1000, 64 + 256 * fld h 32 8⟩] = true ∧
    (getSlot s (graphPart s c) 15).loaded = false ∧ touchStatus s 0 [⟨.load, 0x1000, 64⟩] = none ∧
    firstFault (headerFaults h) = none ∧ reachOk s (graphPart s c) .load 0x1000 (64 + 256 * fld h 32 8) = true ∧
    touchStatus s 0 [⟨.load, 0x1000, 64 + 256 * fld h 32 8⟩] = none ∧
    firstFault (entries.zipIdx.flatMap (fun e => nodeFaults s (graphPart s c) 0 (fld h 40 8) e.2 e.1)) = none ∧
    (getSlot (after (exec (.graphLoad id0) s)) 0 15).nodes = 2 := by decide +kernel

/-- Slot 15 of partition 0 holds a graph of two nodes; GRAPH_RUN of it for two iterations, results at 0x2000. -/
def slot15 : Tab GraphSlot := [(15, { loaded := true, nodes := 2, entries := [nodeOf 0, nodeOf 1] })]
def runCmd : Cmd := started 0x0701 (15 + 0x1000 * 2 ^ 16 + 2 ^ 64 + 0x2000 * 2 ^ 80)
def run0 : GraphRunState := { id := id0, part := 0, slot := 15, iters := 2 }

theorem witness_graphRunUnload :
    (let s := { inFlight (owned 0) runCmd with graphs := { slots := slot15 } }
     isStarted s runCmd 0x0701 = true ∧ reach s [⟨.load, 0x1000, 1024⟩, ⟨.store, 0x2000, 512⟩] = true ∧
     touchesSilent s [⟨.load, 0x1000, 16 * (getSlot s 0 15).nargs⟩] = false ∧ s.graphs.edges = [] ∧
     s.graphs.runs = [] ∧ (getSlot s (graphPart s runCmd) 15).loaded = true ∧
     touchStatus s 0 [⟨.load, 0x1000, 16 * (getSlot s 0 15).nargs⟩] = none ∧
     reachOk s 0 .load 0x1000 (16 * (getSlot s 0 15).nargs) = true ∧
     firstFault (argFaults s runCmd 0 2 (getSlot s 0 15).entries) = none ∧ runOver s run0 = false ∧
     (after (exec (.graphRun id0) s)).graphs.runs = [run0]) ∧
    (let c := started 0x0702 15
     let s := { inFlight (owned 0) c with graphs := { slots := slot15 } }
     isStarted s c 0x0702 = true ∧ s.graphs.runs.any (fun r => r.part == graphPart s c && r.slot == 15) = false ∧
     (getSlot (after (exec (.graphUnload id0) s)) 0 15).loaded = false) ∧
    (let c := started 0x0702 15
     let s := { inFlight (owned 0) c with graphs := { slots := slot15, runs := [run0] } }
     isStarted s c 0x0702 = true ∧ s.graphs.runs.any (fun r => r.part == graphPart s c && r.slot == 15) = true ∧
     (fin s (.graphUnload id0)).status = S_BAD_PARAM ∧
     (getSlot (after (exec (.graphUnload id0) s)) 0 15).loaded = true) := by decide +kernel

/-- A run in progress. -/
def running (entries : List Nat) : State :=
  { inFlight (owned 0) runCmd with
    graphs := { slots := [(15, { loaded := true, nodes := 2, entries := entries })], runs := [run0] } }

theorem witness_graphNodes :
    (let s := running [nodeOf 0, nodeOf 1]
     let id : CmdId := ⟨0, 0, some (0, 0)⟩
     let m := nodeCmd s runCmd (nodeOf 0) 0 0
     hasCtx s 0 = true ∧ runOf s id = some run0 ∧ findCmd s (ownerOf id) = some runCmd ∧ runCmd.phase = .started ∧
     ownNode s (nodeOf 0) = true ∧ deadPred s run0 (nodeOf 0) 0 = none ∧ predsDone s run0 (nodeOf 0) 0 = true ∧ domainsReady s m.berth m = true ∧
     isOptical m.opcode m.params = false ∧ resourcesFree s m = true ∧
     argTDs (nOpcode (nodeOf 0)) (nParams (nodeOf 0)) = [] ∧ findCmd s m.id = none ∧
     (findCmd (after (exec (.graphNodeStart id) s)) id).map (·.phase) = some .started) ∧
    (let s := running [nodeOf 0, nodeOf 1]
     let id : CmdId := ⟨0, 0, some (1, 0)⟩
     runOf s id = some run0 ∧ ownNode s (nodeOf 1) = true ∧ deadPred s run0 (nodeOf 1) 0 = none ∧ predsDone s run0 (nodeOf 1) 0 = false ∧
     after (exec (.graphNodeStart id) s) = s) ∧
    (let s0 := running [nodeOf 0 + 24 * 2 ^ 59, nodeOf 1]
     let s := { s0 with harbour := { s0.harbour with memberTab := [(24, { dead := true })] } }
     let id : CmdId := ⟨0, 0, some (1, 0)⟩
     hasCtx s 0 = true ∧ runOf s id = some run0 ∧ findCmd s (ownerOf id) = some runCmd ∧ ownNode s (nodeOf 1) = true ∧
     (tabGet {} run0.nodes 1).started = 0 ∧ deadPred s run0 (nodeOf 1) 0 = some 24 ∧
     ((runOf (after (exec (.graphNodeStart id) s)) id).map (·.stopped)).getD true = true ∧
     (fin s (.graphNodeStart id)).status = S_TARGET_DEAD) ∧
    (let s := running [nodeOf 0 + 24 * 2 ^ 59, nodeOf 1]
     let id : CmdId := ⟨0, 0, some (1, 0)⟩
     hasCtx s 0 = true ∧ runOf s id = some run0 ∧ ownNode s (nodeOf 1) = true ∧
     ownNode s (nodeOf 0 + 24 * 2 ^ 59) = false ∧ bitAt (nPred (nodeOf 1)) 0 = true ∧ statusWritten S_OK = true ∧
     (after (exec (.graphEdgeStatus id 0 S_OK) s)).graphs.runs.map (·.remote) = [[(0, 0, 0)]]) ∧
    (let s := inFlight (owned 0) runCmd
     let id : CmdId := ⟨0, 0, some (1, 0)⟩
     hasCtx s 0 = true ∧ runOf s id = none ∧
     (after (exec (.graphEdgeStatus id 0 S_OK) s)).graphs.edges = [(id, 0, S_OK)]) := by decide +kernel

/-! ## Rings and requests -/

/-- Context 63 of the physical function, open, 16 slots. -/
def ringOf (x : Context) : State := { owned 0 with ctxs := [(63, { x with state := .opened, log2S := 4 })] }

theorem witness_doorbells :
    (let s := ringOf {}
     doorbellOpen s (.bar0 0) 63 = true ∧ s.rst.ready = true ∧ (getCtx s 63).state = .opened ∧
     ((16#32 : W32) - (getCtx s 63).fetchCount).toNat ≤ 2 ^ (getCtx s 63).log2S ∧
     (getCtx (after (exec (.sqTail (.bar0 0) 63 16) s)) 63).sqTail = 16) ∧
    (let s := ringOf {}
     2 ^ (getCtx s 63).log2S < ((17#32 : W32) - (getCtx s 63).fetchCount).toNat ∧
     (getCtx (after (exec (.sqTail .mirror 63 17) s)) 63).rejected = 1 ∧
     codes (after (exec (.sqTail .mirror 63 17) s)) = [0x0306]) ∧
    (let s := ringOf { inOrder := 2 }
     ((2#32 : W32) - (getCtx s 63).cqHead).toNat ≤ ((getCtx s 63).inOrder - (getCtx s 63).cqHead).toNat ∧
     (getCtx (after (exec (.cqHead .mirror 63 2) s)) 63).cqHead = 2) ∧
    (let s := ringOf { inOrder := 2 }
     ((getCtx s 63).inOrder - (getCtx s 63).cqHead).toNat < ((3#32 : W32) - (getCtx s 63).cqHead).toNat ∧
     (getCtx (after (exec (.cqHead .mirror 63 3) s)) 63).cqHead = 0) ∧
    (doorbellOpen (owned 0) .mirror 0 = true ∧ (getCtx (owned 0) 0).state ≠ .opened ∧
     (getCtx (after (exec (.sqTail .mirror 0 1) (owned 0))) 0).ignored = 1) ∧
    (doorbellOpen (owned 0) (.bar0 8) 0 = false ∧ after (exec (.sqTail (.bar0 8) 0 1) (owned 0)) = owned 0) ∧
    hasCtx (owned 0) 63 = true ∧ (owned 0).ident.part ≤ 8 := by decide +kernel

/-- A packet CTX_DRAIN of context 0, sequence number 0. -/
def drainPacket : Nat := 0x0220

/-- Context 0 with one packet submitted at 0x1000. -/
def submitted (p n : Nat) (x : Context) : State :=
  writeBytes { owned 0 with ctxs := [(0, { x with state := .opened, log2S := 4, sqBase := 0x1000, sqTail := BitVec.ofNat 32 n })] }
    0x1000 (bytesLE 64 p)

/-- The hypotheses of a fetch: open, room, not empty, the header slot readable. -/
def fetchOk (s : State) : Bool :=
  let x := getCtx s 0
  hasCtx s 0 && decide (x.state = .opened) && decide ((x.cmdCount - x.cqHead).toNat < 2 ^ x.log2S) &&
  decide (x.sqTail ≠ x.fetchCount) && !slotWaits s 0 (bitAt x.place 0) (sqSlot x x.fetchCount) 64 && slotOk s 0 (bitAt x.place 0) .load (sqSlot x x.fetchCount) 64

theorem witness_commandFetch :
    (let s := submitted drainPacket 1 {}
     let t := after (exec (.commandFetch 0) s)
     fetchOk s = true ∧ hNcont drainPacket = 0 ∧ checkCommand s (askedRing s 0 0 drainPacket) = none ∧
     (getCtx t 0).fetchCount = 1 ∧ (getCtx t 0).cmdCount = 1 ∧ (cmd0 t).phase = .waiting ∧ (cmd0 t).deadline = 10000) ∧
    (let s := submitted 0x0221 1 {}
     fetchOk s = true ∧ checkCommand s (askedRing s 0 0 0x0221) = some (S_BAD_OPCODE, 0) ∧
     (cmd0 (after (exec (.commandFetch 0) s))).status = S_BAD_OPCODE) ∧
    (let s := submitted (drainPacket + 2 ^ 70) 1 {}
     fetchOk s = true ∧ hNcont (drainPacket + 2 ^ 70) = 1 ∧ after (exec (.commandFetch 0) s) = s) ∧
    (let s := updSite (submitted drainPacket 1 {}) 9 (fun k => { k with dead := true })
     slotWaits s 0 false (sqSlot (getCtx s 0) 0) 64 = false ∧ slotOk s 0 false .load (sqSlot (getCtx s 0) 0) 64 = false ∧
     slotSilent s false (sqSlot (getCtx s 0) 0) = false ∧
     (getCtx (after (exec (.commandFetch 0) s)) 0).state = .stopped ∧ codes (after (exec (.commandFetch 0) s)) = [0x0308]) ∧
    (let s := submitted drainPacket 1 { cmdCount := 16 }
     2 ^ (getCtx s 0).log2S ≤ ((getCtx s 0).cmdCount - (getCtx s 0).cqHead).toNat ∧ after (exec (.commandFetch 0) s) = s) := by
  decide +kernel

/-- A header slot in a stack in retention wakes it; one in a stack that gives no answer is asked for by a request. -/
theorem witness_commandFetch_waits :
    (let s := { submitted drainPacket 1 {} with domains := [(0x21, { state := .retention })] }
     slotWaits s 0 false (sqSlot (getCtx s 0) 0) 64 = true ∧
     (getDomain (after (exec (.commandFetch 0) s)) 0x21).busy = some .on ∧
     (getCtx (after (exec (.commandFetch 0) s)) 0).fetchCount = 0) ∧
    (let s := { submitted drainPacket 1 {} with stackTab := [(1, { stoppedHeat := true })] }
     let t := after (exec (.commandFetch 0) s)
     slotWaits s 0 false (sqSlot (getCtx s 0) 0) 64 = false ∧ slotOk s 0 false .load (sqSlot (getCtx s 0) 0) 64 = false ∧
     slotSilent s false (sqSlot (getCtx s 0) 0) = true ∧ (getCtx t 0).fetchCount = 0 ∧
     t.reqs.out.map (fun o => (o.req.addr, o.slot)) = [(0x1000, some (0, 0x1000))]) := by decide +kernel

/-- A command that waits in context 0. -/
def waitingCmd (op packet : Nat) : Cmd := { id := id0, opcode := op, packet := packet, deadline := 10 }

theorem witness_commandStart :
    (let c := { waitingCmd 0x0400 0x0400 with engines := [15], opt := { engines := [15] }, regions := [15] }
     let s := inFlight (atTide 5) c
     hasCtx s 0 = true ∧ findCmd s id0 = some c ∧ c.phase = .waiting ∧ heldByEarlier (getCtx s 0) id0 = false ∧
     startedCount (getCtx s 0) < 64 ∧ hDep0 c.packet = false ∧ hDep1 c.packet = false ∧ hTstart c.packet = false ∧
     domainsReady s c.berth c = true ∧ resourcesFree s c = true ∧ c.engines.any (engInService s c.berth) = true ∧
     (fin s (.commandStart id0)).phase = .started ∧ (fin s (.commandStart id0)).tideStart = 5 ∧
     (getEngine (after (exec (.commandStart id0) s)) 0 15).rotationList = [id0]) ∧
    (let p := 0x0220 + 7 * 2 ^ 16 + 3 * 2 ^ 512 + 5 * 2 ^ 640
     let s := updCounter (inFlight (atTide 5) (waitingCmd 0x0220 p)) 0 0 (fun _ => 3)
     hDep0 p = true ∧ hDep0Value p ≤ (getCounter s 0 (hDep0Idx p)).toNat ∧ hDep1 p = true ∧
     hDep1Value p ≤ (getCounter s 0 (hDep1Idx p)).toNat ∧ hTstart p = true ∧ hTstartNs p ≤ now s ∧
     (fin s (.commandStart id0)).phase = .started) ∧
    (let p := 0x0220 + 2 ^ 16 + 3 * 2 ^ 512
     let s := updCounter (inFlight {} (waitingCmd 0x0220 p)) 0 0 (fun _ => 2)
     hDep0 p = true ∧ (getCounter s 0 (hDep0Idx p)).toNat < hDep0Value p ∧ after (exec (.commandStart id0) s) = s) ∧
    (let p := 0x0220 + 2 ^ 18 + 6 * 2 ^ 640
     let s := inFlight (atTide 5) (waitingCmd 0x0220 p)
     hTstart p = true ∧ now s < hTstartNs p ∧ after (exec (.commandStart id0) s) = s) ∧
    (let c := started 0x0220 0
     let s := inFlight {} c
     findCmd s id0 = some c ∧ c.phase ≠ .waiting ∧ after (exec (.commandStart id0) s) = s) := by decide +kernel

theorem witness_timeouts :
    (let s := asked (owned 10000) 0x0001 0
     (getMbx s 0).pending = true ∧ (getMbx s 0).accepted = true ∧ (getMbx s 0).result = none ∧ (getMbx s 0).journal = 0 ∧
     (getMbx s 0).submitted + timeoutNs (hTimeout (getMbx s 0).req) ≤ now s ∧
     answered (after (exec (.commandTimeout (.mailbox 0)) s)) = S_TIMEOUT) ∧
    (let s := asked (owned 9999) 0x0001 0
     now s < (getMbx s 0).submitted + timeoutNs (hTimeout (getMbx s 0).req) ∧
     after (exec (.commandTimeout (.mailbox 0)) s) = s) ∧
    (let c := waitingCmd 0x0220 (0x0220 + 2 ^ 16 + 3 * 2 ^ 512)
     let s := inFlight (atTide 10) c
     findCmd s id0 = some c ∧ c.blockedAt = none ∧ c.phase = .waiting ∧ c.deadline ≤ now s ∧ startsNow s c = false ∧
     (fin s (.commandTimeout (.ring id0))).status = S_TIMEOUT) ∧
    (let c := { started 0x0100 0 with deadline := 10 }
     let s := inFlight (atTide 10) c
     findCmd s id0 = some c ∧ c.blockedAt = none ∧ c.phase = .started ∧ c.served = false ∧ runOf s id0 = none ∧
     c.deadline ≤ now s ∧ (fin s (.commandTimeout (.ring id0))).phase = .stopping) ∧
    (let c := { started 0x0100 0 with phase := .finished, deadline := 10 }
     let s := { inFlight (atTide 10) c with
       reqs := { out := [{ req := { (default : WireReq) with srcCtx := some id0 }, dstPos := 0, dstSite := 8 }] } }
     findCmd s id0 = some c ∧ c.phase = .finished ∧ c.began = true ∧ requestsOpen s id0 = true ∧ runOf s id0 = none ∧
     (fin s (.commandTimeout (.ring id0))).status = S_TIMEOUT) ∧
    (let c := { started 0x0802 0 with deadline := 10 }
     let r : GraphRunState := { id := id0, part := 0, slot := 0, iters := 1 }
     let s := { inFlight (atTide 10) c with graphs := { runs := [r] } }
     findCmd s id0 = some c ∧ runOf s id0 = some r ∧ nodesInFlight s id0 = false ∧ c.deadline ≤ now s ∧
     (fin s (.commandTimeout (.ring id0))).phase = .finished ∧
     (after (exec (.commandTimeout (.ring id0)) s)).graphs.runs = []) ∧
    (let c := { started 0x0100 0 with deadline := 11 }
     let s := inFlight (atTide 10) c
     now s < c.deadline ∧ after (exec (.commandTimeout (.ring id0)) s) = s) := by decide +kernel

theorem witness_stopEscalation :
    (let c := { started 0x0400 0 with phase := .stopping, stopTide := 5, engines := [15] }
     let s := inFlight (atTide 1000005) c
     hasCtx s 0 = true ∧ findCmd s id0 = some c ∧ c.phase = .stopping ∧ c.stopTide + 1000000 ≤ now s ∧
     (getCtx (after (exec (.stopEscalation id0 .sequencer) s)) 0).state = .closed ∧ hasEngine s c.berth 15 = true ∧
     c.engines.contains 15 = true ∧
     (getEngine (after (exec (.stopEscalation id0 (.engine 0 15)) s)) 0 15).resetting = true) ∧
    (let c := { started 0x0400 0 with phase := .stopping, stopTide := 5 }
     let s := inFlight (atTide 1000004) c
     findCmd s id0 = some c ∧ now s < c.stopTide + 1000000 ∧ after (exec (.stopEscalation id0 .sequencer) s) = s) := by
  decide +kernel

/-- A finished command of context 0 with DONE_INC of counter 4095, its completion ring at 0x2000. -/
def doneCmd : Cmd := { started 0x0220 0 with phase := .finished, packet := 0x0220 + 2 ^ 21 + 4095 * 2 ^ 84 }
def doneState : State := { owned 0 with ctxs := [(0, { state := .opened, log2S := 4, cqBase := 0x2000, flight := [doneCmd] })] }

/-- A finished command with one result byte for 0x3000. -/
def resultCmd : Cmd := { doneCmd with results := [(0x3000, 7#8)] }
def resultState : State :=
  { owned 9 with ctxs := [(0, { state := .opened, log2S := 4, cqBase := 0x2000, flight := [resultCmd] })] }

theorem witness_completion_results :
    let s := resultState
    let u := storeResults s resultCmd
    let e := (findCmd u id0).getD { id := id0 }
    findCmd s id0 = some resultCmd ∧ requestsOpen s id0 = false ∧ nodesInFlight s id0 = false ∧ resultCmd.results ≠ [] ∧
    reach s (resultStores resultCmd) = true ∧ (resultStores resultCmd).any (rangeBehind s resultCmd) = false ∧
    findCmd u id0 = some e ∧ requestsOpen u id0 = false ∧ writesTally e.tally = false ∧ e.slotLost = false ∧
    entryWaits u (completed u e) = false ∧
    slotOk (dropCmd u (completed u e)) 0 false .store (cqSlot (getCtx s 0) 0) 32 = true ∧
    readByte (after (exec (.commandCompletion (.ring id0)) s)) 0x3000 = 7 ∧
    findCmd (after (exec (.commandCompletion (.ring id0)) s)) id0 = none := by decide +kernel

theorem witness_completion :
    (let s : State := { mbx := [(8, { pending := true, result := some ⟨S_OK, 0, [7#8]⟩, goTag := 5 })] }
     hasFn 8 = true ∧ (getMbx s 8).result = some ⟨S_OK, 0, [7#8]⟩ ∧ (getMbx s 8).pending = true ∧
     (getMbx (after (exec (.commandCompletion (.mailbox 8)) s)) 8).replyTag = 5) ∧
    (let s := doneState
     let d := completed s doneCmd
     findCmd s id0 = some doneCmd ∧ doneCmd.phase = .finished ∧ requestsOpen s id0 = false ∧ nodesInFlight s id0 = false ∧
     doneCmd.results = [] ∧
     doneCmd.slotLost = false ∧ doneCmd.tug.begun = [] ∧ entryWaits s d = false ∧
     writesTally doneCmd.tally = false ∧ slotOk (dropCmd s d) 0 false .store (cqSlot (getCtx s 0) 0) 32 = true ∧
     hDoneInc doneCmd.packet = true ∧ getCounter (after (exec (.commandCompletion (.ring id0)) s)) 0 4095 = 1 ∧
     findCmd (after (exec (.commandCompletion (.ring id0)) s)) id0 = none) ∧
    (let s := updSite doneState 10 (fun k => { k with dead := true })
     slotOk (dropCmd s (completed s doneCmd)) 0 false .store (cqSlot (getCtx s 0) 0) 32 = false ∧
     (getCtx s 0).state = .opened ∧ (getCtx (after (exec (.commandCompletion (.ring id0)) s)) 0).state = .stopped) ∧
    (let s := { doneState with reqs := { out := [{ req := { (default : WireReq) with srcCtx := some id0 }, dstPos := 0, dstSite := 8 }] } }
     requestsOpen s id0 = true ∧ after (exec (.commandCompletion (.ring id0)) s) = s) := by decide +kernel

/-- A load of 8 bytes at address 0 by berth 0, with a tag. -/
def load0 (tag : Nat) : WireReq :=
  { kind := .load, tag := tag, srcCtx := none, gen := 0, epoch := 0, srcPos := 0, srcSite := 0, addr := 0, size := 8 }

/-- An atomic ADD of 1 to counter 4095 of berth 7 for a command of context 0. -/
def add0 (tag : Nat) : WireReq :=
  { load0 tag with kind := .atomic, srcCtx := some id0, addr := counterAddr 7 4095, opP := 1 }

/-- A request is outstanding. -/
def out (r : WireReq) (site : Nat) : OutReq := { req := r, dstPos := addrPos r.addr, dstSite := site }

theorem witness_requestIssue :
    (let s := owned 0
     s.reqs.out = [] ∧ sourceRuns s (load0 1) = true ∧ admitted s (load0 1) = true ∧ destSite s 0 = 8 ∧
     fabricPair 0 8 = none ∧ issueMeets s (load0 1) 8 = none ∧ mustHold s (out (load0 1) 8) = false ∧
     (after (exec (.requestIssue (load0 1)) s)).reqs.out = [out (load0 1) 8]) ∧
    (let s := { inFlight (owned 0) (started 0x0201 0) with
       reqs := { out := List.replicate 64 (out (add0 2) 7) } }
     (∀ x ∈ s.reqs.out, x.req.tag ≠ 1) ∧ sourceRuns s (add0 1) = true ∧ admitted s (add0 1) = true ∧
     issueMeets s (add0 1) 7 = none ∧ fabricPair 0 7 = some (0, 7) ∧ 64 ≤ (s.reqs.out.filter (fun x => !x.held && decide (x.req.kind = .atomic) && reqCtx x.req == some 0)).length ∧
     mustHold s (out (add0 1) 7) = true ∧
     ((after (exec (.requestIssue (add0 1)) s)).reqs.out.getLast?.map (·.held)) = some true) ∧
    (let s := pairUp (inFlight (owned 3) (started 0x0201 0))
     let r := { add0 1 with addr := 2 ^ 42 + counterAddr 7 4095, ch := .ctl }
     sourceRuns s r = true ∧ admitted s r = true ∧ issueMeets s r (destSite s r.addr) = none ∧ quayTo s 1 = 40 ∧
     fabricPair 0 (quayTo s 1) = some (0, 40) ∧ (getPair (after (exec (.requestIssue r) s)) 0 40).lastPacket = 3 ∧
     (after (exec (.requestIssue r) s)).sent.length = 1 ∧ (getLink (after (exec (.requestIssue r) s)) 0).framesSent = 1 ∧
     (after (exec (.requestIssue r) s)).reqs.out.map (fun o => (o.held, o.req.pri, o.issued)) = [(false, true, 3)]) ∧
    (let s := updSite (inFlight (owned 0) (started 0x0201 0)) 7 (fun k => { k with dead := true })
     sourceRuns s (add0 1) = true ∧ admitted s (add0 1) = true ∧ issueMeets s (add0 1) 7 = some (S_TARGET_DEAD, 7) ∧
     (fin s (.requestIssue (add0 1))).status = S_TARGET_DEAD) ∧
    (let s := { owned 0 with reqs := { out := [out (load0 1) 8] } }
     s.reqs.out.find? (fun x => x.req.tag == 1) = some (out (load0 1) 8) ∧ (out (load0 1) 8).held = false ∧
     after (exec (.requestIssue (load0 1)) s) = s) := by decide +kernel

/-- A request issued while its pair direction repeats frames is marked as delayed; a TAG that an answer can still come for is
not given out. -/
theorem witness_requestIssue_delayed :
    (let s := updPair (inFlight (owned 0) (started 0x0201 0)) 0 7 (fun x => { x with replayFrom := some 3 })
     tagTaken s 1 = false ∧ pathSlow s 0 7 = true ∧ mustHold s (out (add0 1) 7) = false ∧
     (after (exec (.requestIssue (add0 1)) s)).reqs.out.map (·.delayed) = [true]) ∧
    (let s : State := { owned 0 with reqs := { spent := [1] } }
     tagTaken s 1 = true ∧ after (exec (.requestIssue (load0 1)) s) = s) := by decide +kernel

/-- The conditions under which a request is served. -/
def served (s : State) (r : WireReq) : Bool :=
  r.bar2.isNone && decide (addrPos r.addr = ownPos s) && s.rst.ready && admitted s r && !dropsAddition s r &&
  decide (accessStatus s (reqAccess r.kind) (addrLocal r.addr) = none) && !waitsAtTarget s r &&
  !outOfOrder s r && !yields s r && r.srcPos == ownPos s &&
  decide (r.epoch = (getSite s (servingSite s (addrLocal r.addr))).epoch)

/-- A store of 64 bytes 0, 1, 2 … by a mask. -/
def store0 (a mask : Nat) : WireReq :=
  { load0 1 with kind := .store, addr := a, size := 64, mask := BitVec.ofNat 64 mask, data := (List.range 64).map (BitVec.ofNat 8) }

theorem witness_served :
    (let s := writeBytes (owned 0) 0 [9#8]
     let t := after (exec (.load (load0 1) {}) s)
     served s (load0 1) = true ∧ poisonMet s .load 0 8 = false ∧
     t.sent = [.response ⟨1, 0, S_OK, false, 9#8 :: List.replicate 7 0#8, 0, 0, false⟩]) ∧
    (let s := writeBytes (owned 0) 0x2000000003F [9#8]
     let r := store0 0x20000000000 (2 ^ 63 + 2)
     let t := after (exec (.store r {}) s)
     served s r = true ∧ maskPoison s r = false ∧ readBytes t 0x20000000000 3 = [0#8, 1#8, 0#8] ∧
     readByte t 0x2000000003F = 63#8) ∧
    (let r := store0 (counterAddr 7 4088) (0xFF * 2 ^ 56)
     served (owned 0) r = true ∧ maskGroup r.mask = some (56, 8) ∧
     placeOf 8 (addrLocal r.addr) = .counter 7 4088 ∧ placeOf 8 (addrLocal r.addr + 56) = .counter 7 4095 ∧
     getCounter (after (exec (.store r {}) (owned 0))) 7 4095 = 0x3F3E3D3C3B3A3938) ∧
    (let r := { add0 1 with srcCtx := none, opP := BitVec.ofNat 64 (2 ^ 64 - 1) }
     let s := updCounter (owned 0) 7 4095 (fun _ => 3)
     served s r = true ∧ getCounter (after (exec (.atomic r {}) s)) 7 4095 = 2) ∧
    (let r := { load0 1 with kind := .atomic, size := 4, aop := .max, opP := 5 }
     let s := writeBytes (owned 0) 0 [255#8, 255#8, 255#8, 255#8, 7#8]
     served s r = true ∧ readBytes (after (exec (.atomic r {}) s)) 0 5 = [5#8, 0#8, 0#8, 0#8, 7#8]) ∧
    (let s := updSite (owned 0) 8 (fun k => { k with epoch := 1 })
     (load0 1).epoch ≠ (getSite s 8).epoch ∧ (getSite (after (exec (.load (load0 1) {}) s)) 8).stale = 1) := by
  decide +kernel

/-- A request behind an earlier one of its pair and channel waits; at the inputs of a stack two rows of the near lanes go for
one of the fabric port. -/
theorem witness_servedInTurn :
    (let s : State := { owned 0 with reqs := { out := [out (load0 1) 8, out (load0 2) 8] } }
     outOfOrder s (load0 2) = true ∧ (after (exec (.load (load0 2) {}) s)).reqs.ingress = [(8, load0 2)] ∧
     (after (exec (.load (load0 2) {}) s)).sent = []) ∧
    (let s : State := { owned 0 with
       reqs := { ingress := [(8, { load0 2 with srcSite := 1 })] }
       stackTab := [(0, { nearRun := 2 })] }
     inputWaits s (load0 1) = true ∧ (getStack s (servingStack s 0)).lastRow ≠ some (rowOf s (load0 1)) ∧
     nearInput s (load0 1) = true ∧ yields s (load0 1) = true) ∧
    (let r := { load0 2 with srcSite := 1 }
     let s : State := { owned 0 with reqs := { ingress := [(8, load0 1)] }, stackTab := [(0, { nearRun := 1 })] }
     inputWaits s r = true ∧ nearInput s r = false ∧ (getStack s (servingStack s 0)).lastRow ≠ some (rowOf s r) ∧
     yields s r = true ∧ yields { s with stackTab := [(0, { nearRun := 2 })] } r = false) := by decide +kernel

theorem witness_responses :
    (let s : State := {}
     let r : WireResp := { tag := 1, gen := 0, status := 0, echo := false }
     s.reqs.out = [] ∧ s.reqs.early = [] ∧
     (after (exec (.response r) { s with reqs := { spent := [1, 2] } })).reqs.spent = [2] ∧ (after (exec (.response r) s)).reqs.dropped = 1) ∧
    (let s : State := { reqs := { out := [out (load0 1) 8, out (load0 2) 8] } }
     let r : WireResp := { tag := 2, gen := 0, status := 0, echo := false }
     waitsTurn s r = true ∧ (after (exec (.response r) s)).reqs.early = [r] ∧
     (after (exec (.response { r with tag := 1 }) (after (exec (.response r) s)))).reqs.out = []) ∧
    (let o := out { load0 1 with srcCtx := some id0 } 8
     let s : State := { reqs := { out := [o] } }
     let s1 : State := { s with ctxs := [(0, { gen := 1 })] }
     let s2 : State := { inFlight (atTide 9) (started 0x0201 0) with reqs := { out := [o] } }
     let r : WireResp := { tag := 1, gen := 0, status := 0, echo := false }
     s.reqs.out.find? (answersReq r) = some o ∧ reqCtx o.req = some 0 ∧ answerEarly s o = false ∧ s.reqs.early = [] ∧
     answerEarly s1 o = false ∧ r.gen ≠ (getCtx s1 0).gen ∧ (getCtx (after (exec (.response r) s1)) 0).droppedOld = 1 ∧
     (after (exec (.response r) s1)).reqs.out = [] ∧ r.gen = (getCtx s 0).gen ∧ o.delayed = false ∧
     (fin s2 (.response r)).tideEnd = 9 ∧
     (let o3 := { o with delayed := true }
      let s3 : State := { inFlight (atTide 300) (started 0x0201 0) with reqs := { out := [o3] } }
      let t3 := after (exec (.response r) s3)
      s3.reqs.out.find? (answersReq r) = some o3 ∧ answerEarly s3 o3 = false ∧ r.gen = (getCtx s3 0).gen ∧
      o3.issued + latencyMax s3 o3 < now s3 ∧ (findCmd s3 id0).map (·.status) = some S_OK ∧
      (findCmd t3 id0).map (fun c => (c.status, c.detail)) = some (S_DEGRADED, 4) ∧
      t3.faults.unlogged.map (fun e => (e.code, e.guarantee, e.arg)) = [(0x0406, 4, 1)]) ∧
     (after (exec (.response { tag := 1, gen := 0, status := 0, echo := false }) s)).reqs.out = [] ∧
     (after (exec (.response { tag := 1, gen := 0, status := 0, echo := true }) s)).reqs.flows.map (·.2.window) = [16384]) ∧
    (let o := { out { load0 1 with srcCtx := some id0, size := 2 } 8 with chunk := some 3, off := some 5 }
     let s : State := { inFlight (atTide 9) (started 0x0100 0) with reqs := { out := [o] } }
     let r : WireResp := { tag := 1, gen := 0, status := 0, echo := false, data := [7#8, 8#8] }
     s.reqs.out.find? (answersReq r) = some o ∧ answerEarly s o = false ∧ r.gen = (getCtx s 0).gen ∧
     (fin s (.response r)).tug.data = [(3, 5, 7#8), (3, 6, 8#8)]) ∧
    (let f : FlowId := ⟨0, false, 0, 8⟩
     let s : State := { atTide 50000 with reqs := { flows := [(f, { window := 64 })] } }
     flowLoad s f = 0 ∧ (getFlow s f).lastBusy + 50000 ≤ now s ∧ (after (exec (.flowIdleExpiry f) s)).reqs.flows = []) ∧
    (let f : FlowId := ⟨0, false, 0, 8⟩
     let s : State := { atTide 49999 with reqs := { flows := [(f, { window := 64 })] } }
     now s < (getFlow s f).lastBusy + 50000 ∧ after (exec (.flowIdleExpiry f) s) = s) := by decide +kernel

theorem witness_deadTargets :
    (let o := out (add0 1) 7
     let s := { inFlight (owned 250000) (started 0x0201 0) with reqs := { out := [o] } }
     s.reqs.out.find? (fun o => o.req.tag == 1) = some o ∧ o.issued + 250000 ≤ now s ∧ o.dstPos = ownPos s ∧
     (getSite s 7).dead = false ∧ (getSite (after (exec (.requestDeadBound 1) s)) 7).probing = true ∧
     (fin s (.requestDeadBound 1)).status = S_TARGET_DEAD ∧ (after (exec (.requestDeadBound 1) s)).reqs.spent = [1] ∧ codes (after (exec (.requestDeadBound 1) s)) = [0x0307]) ∧
    (let s : State := { owned 249999 with reqs := { out := [out (load0 1) 8] } }
     after (exec (.requestDeadBound 1) s) = s) ∧
    (let s : State := { owned 0 with sites := [(39, { probing := true })] }
     hasSite s 39 = true ∧ (getSite s 39).probing = true ∧ (getSite (after (exec (.probeAnswer 39) s)) 39).transients = 1 ∧
     (∀ b, siteKind 39 ≠ .berth b) ∧ (getSite (after (exec (.probeTimeout 39) s)) 39).dead = true) ∧
    (hasSite (owned 0) 39 = true ∧ (getSite (owned 0) 39).probing = false) ∧
    (let s : State := { owned 0 with sites := [(7, { probing := true })] }
     siteKind 7 = .berth 7 ∧ berthPart s 7 = some 0 ∧ s.rst.ready = true ∧ (getBerth s 7).hold = false ∧ (getPart s 0).resetting = false ∧
     (getPart (after (exec (.probeTimeout 7) s)) 0).cause = 2) ∧
    (let s : State := { harbour := { deadSites := [(24 * 64 + 48, true)] } }
     ownPos s ≠ 24 ∧ (1 : BitVec 8) ≠ tableEpoch s 24 48 ∧
     tableEpoch (after (exec (.epochTableUpdate 24 48 ⟨1, some 0x11⟩) s)) 24 48 = 1 ∧
     (getMember (after (exec (.epochTableUpdate 24 48 ⟨1, some 0x11⟩) s)) 24).part = 0x11 ∧
     (getMember (after (exec (.epochTableUpdate 24 48 ⟨1, some 0x11⟩) s)) 24).dead = false ∧
     (after (exec (.epochTableUpdate 24 48 ⟨1, some 0x11⟩) s)).harbour.deadSites = []) ∧
    (getSite (after (exec (.epochTableUpdate 0 48 ⟨255, none⟩) {})) 48).epoch = 255 := by
  refine ⟨?_, ?_, ⟨by decide +kernel, by decide +kernel, by decide +kernel, ?_, by decide +kernel⟩, ?_, ?_, ?_, ?_⟩
  · decide +kernel
  · decide +kernel
  · intro b h; cases h
  all_goals decide +kernel

/-! ## Engines -/

/-- The first block of the product of `optCmd`, an optical product of one element on engine 15 of berth 0. -/
def blk0 : OptBlock := ⟨0, 0, 0, 0⟩
def optCmd : Cmd :=
  { started 0x0400 (2 ^ 47 + td 128 0x1000 4 1 1 + td 384 0x1000 4 1 1 + td 640 0x2000 1 1 1) with
    engines := [15], opt := { engines := [15], todo := [(15, blk0)], stage := 1 } }

/-- Engine 15 with that command in its rotation. -/
def engState (x : Engine) : State := { inFlight (owned 0) optCmd with engines := [(15, { x with rotationList := [id0] })] }
def eng (s : State) : Engine := getEngine s 0 15

/-- A run of that block, and a bank that holds it. -/
def run15 : Run := { id := id0, block := blk0, count := 1 }
def bank15 : Bank := { block := some (id0, blk0), loaded := true, codes := List.replicate 128 [], check := [] }

theorem witness_bankLoad :
    (let s := engState { linePend := [(5, 128)] }
     hasEngine s 0 15 = true ∧ engineWorks s 0 15 = true ∧ (eng s).guard = false ∧
     nextBlock s 0 15 = some (optCmd, blk0) ∧ (eng s).run = none ∧ (eng s).active.loaded = false ∧
     (eng s).idle.loaded = false ∧ firstBlock (eng s) 15 optCmd = true ∧ (eng s).paused = false ∧
     (eng s).lhSwitching = false ∧ (eng (after (exec (.bankLoadDone 0 15) s))).run.map (·.number) = some 1 ∧
     (eng (after (exec (.bankLoadDone 0 15) s))).linePend = []) ∧
    (let s := engState { run := some { run15 with block := ⟨0, 1, 0, 0⟩ }, bankA := { loaded := true } }
     engineWorks s 0 15 = true ∧ (nextBlock s 0 15).map (·.2) = some blk0 ∧ (eng s).run.isSome = true ∧
     (eng s).active.loaded = true ∧ (eng s).idle.loaded = false ∧
     run15.live = true ∧ (eng (after (exec (.bankLoadDone 0 15) s))).idle.loaded = true) ∧
    (let s := engState { finishing := some { run15 with block := ⟨0, 1, 0, 0⟩ } }
     (nextBlock s 0 15).map (·.2) = some blk0 ∧ (eng s).run = none ∧ (eng s).active.loaded = false ∧
     (eng s).idle.loaded = false ∧ firstBlock (eng s) 15 optCmd = false ∧
     (eng (after (exec (.bankLoadDone 0 15) s))).idle.loaded = true ∧
     (eng (after (exec (.bankLoadDone 0 15) s))).run = none) := by decide +kernel

theorem witness_bankSwitch_guardEnd :
    (let s := engState { bankB := bank15, run := some { run15 with ended := true }, newTables := some 6, temp := 5, pauseWanted := true }
     engineWorks s 0 15 = true ∧ (eng s).guard = false ∧ (eng s).lhSwitching = false ∧ (eng s).finishing = none ∧
     (eng s).atEnd = true ∧ (eng s).idle.loaded = true ∧ nextTest s (.engine 0 15) = none ∧
     (eng (after (exec (.bankSwitch 0 15) s))).active = bank15 ∧ (eng (after (exec (.bankSwitch 0 15) s))).calTemp = 5 ∧
     (eng (after (exec (.bankSwitch 0 15) s))).tables = 6 ∧
     (eng (after (exec (.bankSwitch 0 15) s))).paused = true ∧ (eng (after (exec (.bankSwitch 0 15) s))).guard = true) ∧
    (let s := engState { bankB := bank15, run := some { run15 with ended := true }, tapOff := [(5, 0)], paused := true }
     (eng s).atEnd = true ∧ (eng s).newTables = none ∧ nextTest s (.engine 0 15) = none ∧
     (eng (after (exec (.bankSwitch 0 15) s))).tapOff = [] ∧
     (eng (after (exec (.bankSwitch 0 15) s))).normOf 5 = 0 ∧
     (eng (after (exec (.bankSwitch 0 15) s))).paused = true) ∧
    (let s := engState { bankB := bank15, run := some run15 }
     (eng s).atEnd = false ∧ after (exec (.bankSwitch 0 15) s) = s) ∧
    (let s := engState { guard := true, bankA := bank15 }
     (eng s).guard = true ∧ engineWorks s 0 15 = true ∧ (eng s).paused = false ∧ (eng s).lhSwitching = false ∧
     (eng s).run = none ∧ (eng s).active.loaded = true ∧ (eng s).active.block = some (id0, blk0) ∧
     wantsBlock s 15 id0 blk0 = true ∧ (eng s).rowPend = [] ∧ (eng (after (exec (.guardEnd 0 15) s))).run.map (·.next) = some 0) ∧
    (let s := engState { guard := true, bankA := bank15, rowPend := [(128, 130)] }
     (eng s).guard = true ∧ (eng s).run = none ∧ (eng s).rowPend.any (fun p => p.1 == 128) = true ∧
     (eng (after (exec (.guardEnd 0 15) s))).active.loaded = false) ∧
    (let s := engState {}
     (eng s).guard = false ∧ after (exec (.guardEnd 0 15) s) = s) := by decide +kernel

/-- The window of the block: its outputs zero, its checksum output as given. -/
def window (s : State) (check : Int) (fed : Bool) : State := after (exec (.integrationWindowEnd 0 15 (List.replicate 128 0) check ⟨fed, false⟩) s)

/-- The hypotheses of a window. -/
def windowOk (s : State) : Bool :=
  hasEngine s 0 15 && (eng s).run.isSome && engineWorks s 0 15 && !(eng s).guard && !(eng s).lhSwitching &&
  (match (eng s).run with
   | some r => r.live && !r.ended && wantsBlock s 15 r.id r.block
   | none => false) && (eng s).active.loaded && decide (findCmd s id0 = some optCmd)

/-- The window's checksum comparison. -/
def windowMiss (s : State) (check : Int) : Bool :=
  mismatches (eng s).active (inputSegment (seenFrom s 0) optCmd 0 0 0).codes (List.replicate 128 0) check ((eng s).sigmaNow 0)

theorem witness_windows :
    (let s := engState { bankA := bank15, run := some { run15 with live := false } }
     engineWorks s 0 15 = true ∧ (eng s).guard = false ∧ (eng s).lhSwitching = false ∧ (eng s).active.loaded = true ∧
     window s 0 true = s) ∧
    (let s := engState { bankA := bank15, run := some run15 }
     windowOk s = true ∧ (eng (window s 0 false)).idleWindows = 1 ∧ windowMiss s 0 = false ∧
     (eng (window s 0 true)).outputs.map (·.last) = [true] ∧ (cmd0 (window s 0 true)).tally.windows = 1) ∧
    (let s := engState { bankA := bank15, run := some run15 }
     windowMiss s 1000000000 = true ∧ run15.number = 1 ∧ run15.live = true ∧
     (eng (window s 1000000000 true)).run.map (·.number) = some 2 ∧ (cmd0 (window s 1000000000 true)).tally.repeats = 1) ∧
    (let s := engState { bankA := bank15, run := some { run15 with number := 2 } }
     windowOk s = true ∧ windowMiss s 1000000000 = true ∧ (eng (window s 1000000000 true)).rotation = .outOfRotation ∧
     codes (window s 1000000000 true) = [0x0201]) ∧
    (let s := engState { bankA := bank15, run := some { run15 with number := 3 } }
     windowOk s = true ∧ windowMiss s 1000000000 = true ∧ (eng (window s 1000000000 true)).rotation = .left ∧
     (eng (window s 1000000000 true)).reason = 8) := by decide +kernel

/-- A window that the region's crossings or the berth's throttle leave out is idle, and waiting heater codes take effect; a
Lighthouse fault in a window is that fault. -/
theorem witness_windows_idle :
    (let s := { engState { bankA := bank15, run := some run15, heatWait := some 7 } with regions := [(15, { holding := true })] }
     windowOk s = true ∧ (getRegion s 0 15).holding = true ∧ (eng (window s 0 true)).idleWindows = 1 ∧
     (eng (window s 0 true)).heatIn = 7 ∧ (eng (window s 0 true)).heatWait = none ∧
     (cmd0 (window s 0 true)).tally.windows = 0) ∧
    (let s := { engState { bankA := bank15, run := some { run15 with slot := 1 } } with berths := [(0, { throttle := 32 })] }
     windowOk s = true ∧ throttleIdle s 0 1 = true ∧ throttleIdle s 0 0 = false ∧ (eng (window s 0 true)).idleWindows = 1 ∧
     (eng (window s 0 true)).run.map (·.slot) = some 2) ∧
    (let s := engState { bankA := bank15, run := some run15 }
     windowOk s = true ∧ released s 4 = true ∧
     runs (exec (.lighthouseFault 0 15) s) = true ∧
     after (exec (.integrationWindowEnd 0 15 (List.replicate 128 0) 0 ⟨true, true⟩) s) = after (exec (.lighthouseFault 0 15) s)) := by
  decide +kernel

/-- An output of the block on its way. -/
def out15 (g : BitVec 8) (last : Bool) : WindowOut := ⟨g, id0, blk0, 0, [0x3F800000], [], last⟩

theorem witness_outputs :
    (let s := engState { outputs := [out15 1 true] }
     (eng s).outputs = [out15 1 true] ∧ (out15 1 true).gen ≠ (eng s).gen ∧
     (eng (after (exec (.windowOutput 0 15) s))).droppedOutputs = 1) ∧
    (let s := engState { outputs := [out15 0 false], run := some run15, bankA := bank15 }
     (out15 0 false).gen = (eng s).gen ∧ (eng s).finishing = none ∧ (eng s).run = some run15 ∧
     findCmd s id0 = some optCmd ∧ tabGet 0 (eng (after (exec (.windowOutput 0 15) s))).staging 0 = 0x3F800000) ∧
    (let c := { optCmd with opt := { optCmd.opt with todo := [(15, blk0), (15, ⟨0, 1, 0, 0⟩)] } }
     let s0 := engState { outputs := [out15 0 true], run := some { run15 with sigma2 := 7 }, bankA := bank15 }
     let s := { s0 with ctxs := (inFlight {} c).ctxs }
     findCmd s id0 = some c ∧ c.phase = .started ∧
     c.opt.todo.filter (fun t => !(t.1 == 15 && decide (t.2 = blk0))) ≠ [] ∧
     (cmd0 (after (exec (.windowOutput 0 15) s))).opt.committed = [(blk0, 7)]) ∧
    (let s := engState {}
     (eng s).outputs = [] ∧ after (exec (.windowOutput 0 15) s) = s) := by decide +kernel

theorem witness_engineTicks :
    (let s := engState { calTemp := 30000, ranSince := [id0] }
     hasEngine s 0 15 = true ∧ (eng (after (exec (.heaterTick 0 15 34001 1000000) s))).stale = true ∧
     (eng (after (exec (.heaterTick 0 15 34000 1000000) s))).stale = false ∧
     released s 7 = true ∧ (eng s).windowing = false ∧ (eng (after (exec (.heaterTick 0 15 34001 1000000) s))).heatIn = 34001 ∧
     (∀ j, j < 132 → 100 * (([].getD j ((eng s).normOf j) : Nat) - ((eng s).normOf j : Int)).natAbs ≤ (eng s).normOf j) ∧
     (eng (after (exec (.tapMonitorTick 0 15 []) s))).ranSince = [] ∧
     (let l := List.replicate 131 1000000 ++ [989999]
      (eng s).normOf 131 < 100 * ((l.getD 131 ((eng s).normOf 131) : Nat) - ((eng s).normOf 131 : Int)).natAbs ∧
      (eng (after (exec (.tapMonitorTick 0 15 l) s))).tapOff = [(131, 989999)] ∧
      (cmd0 (after (exec (.tapMonitorTick 0 15 l) s))).tally.calStale = true)) ∧
    (let s := engState { run := some run15 }
     (eng s).windowing = true ∧ (eng (after (exec (.heaterTick 0 15 7 1000000) s))).heatWait = some 7) ∧
    (released {} 7 = false ∧ after (exec (.heaterTick 0 15 7 1000000) {}) = {}) ∧
    (let s := engState { run := some run15 }
     nextTest s (.engine 0 15) = none ∧ (eng (after (exec (.rateDetectorTick 0 15 (-25001)) s))).pauseWanted = true ∧
     (eng (after (exec (.rateDetectorTick 0 15 10001) s))).thermalStep = true ∧
     (eng (after (exec (.rateDetectorTick 0 15 10000) s))).thermalStep = false) ∧
    (let s := engState {}
     (eng s).run = none ∧ (eng (after (exec (.rateDetectorTick 0 15 25001) s))).paused = true) ∧
    (let s := engState { paused := true, slope := -10000, run := some run15 }
     (eng s).paused = true ∧ (eng s).slope.natAbs ≤ 10000 ∧ (eng s).heatWait = none ∧ run15.live = true ∧
     (eng s).rowPend.any (fun p => p.1 == 128) = false ∧ (eng (after (exec (.thermalResume 0 15 true) s))).paused = false ∧
     after (exec (.thermalResume 0 15 false) s) = s) ∧
    (let s := engState { paused := true, slope := 10001 }
     10000 < (eng s).slope.natAbs ∧ after (exec (.thermalResume 0 15 true) s) = s) := by decide +kernel

theorem witness_lighthouses_engine :
    (let s := engState { run := some { run15 with next := 3 } }
     released s 4 = true ∧ (eng s).rotation ≠ .left ∧ (eng s).lhSwitching = false ∧ lhReady s (LhOther (.engine 0 15 0)) = true ∧
     within dayNs (now s) (getLh s (.engine 0 15 0)).faults = [] ∧
     (eng (after (exec (.lighthouseFault 0 15) s))).lhActive = 1 ∧
     (eng (after (exec (.lighthouseFault 0 15) s))).run.map (·.next) = some 0 ∧
     (cmd0 (after (exec (.lighthouseFault 0 15) s))).tally.lhSwitch = true ∧
     codes (after (exec (.lighthouseFault 0 15) s)) = [0x0401]) ∧
    (let s := engState { lhSwitching := true, run := some { run15 with live := false }, bankA := bank15 }
     engineWorks s 0 15 = true ∧ (eng s).guard = false ∧ (eng s).paused = false ∧ (eng s).active.loaded = true ∧
     (eng s).rowPend = [] ∧ (eng (after (exec (.lhSwitchoverDone 0 15) s))).run.map (·.live) = some true) ∧
    (let s := engState { lhSwitching := true, lineNorm := [(5, 1)], standbyNorm := [(5, 2)], tapOff := [(5, 0)], run := some run15 }
     (eng s).standbyLit.lineNorm = [(5, 2)] ∧ (eng (after (exec (.lhSwitchoverDone 0 15) s))).normOf 5 = 2 ∧
     (eng (after (exec (.lhSwitchoverDone 0 15) s))).tapOff = []) ∧
    (released {} 4 = false ∧ after (exec (.lighthouseFault 0 15) {}) = {}) ∧
    (let s := engState { lh1 := { retired := true } }
     lhReady s (LhOther (.engine 0 15 0)) = false ∧ (eng (after (exec (.lighthouseFault 0 15) s))).rotation = .left ∧
     (eng (after (exec (.lighthouseFault 0 15) s))).reason = 4) ∧
    (let s := engState { lhSwitching := true, run := some run15 }
     (eng s).lhSwitching = true ∧ (eng s).rowPend = [] ∧ run15.live = true ∧ (eng (after (exec (.lhSwitchoverDone 0 15) s))).lhSwitching = false) ∧
    (let s := engState {}
     after (exec (.lhSwitchoverDone 0 15) s) = s ∧ after (exec (.standbyCheck (.engine 0 15 1) false) s) = s) := by
  decide +kernel

theorem witness_lighthouses_other :
    (let s : State := owned 0
     hasSite s 48 = true ∧ released s 4 = true ∧ (getPort s 48).paused = false ∧ (getSite s 48).fabricLost = false ∧
     lhReady s (.fabric 48 1) = true ∧ within dayNs (now s) (getLh s (.fabric 48 0)).faults = [] ∧
     (getPort (after (exec (.fabricLighthouseFault 48) s)) 48).paused = true ∧ 0 ∈ othersOf s 48 ∧
     (getPair (after (exec (.fabricLighthouseFault 48) s)) 48 0).darkSince = some 0 ∧
     after (exec (.fabricLhResume 48) s) = s ∧ (getPort s 48).lhActive ≠ 1 ∧
     (getLh (after (exec (.standbyCheck (.fabric 48 1) false) s)) (.fabric 48 1)).retired = true ∧
     after (exec (.standbyCheck (.fabric 48 1) true) s) = s) ∧
    (let s : State := { ports := [(48, { paused := true })] }
     lhReady s (.fabric 48 1) = true ∧ (getPort s 48).paused = true ∧ (getPort (after (exec (.fabricLhResume 48) s)) 48).lhActive = 1) ∧
    (let s : State := {}
     (getQuayLh s 7).lhActive = 0 ∧ lhReady s (.link 7 1) = true ∧ within dayNs (now s) (getLh s (.link 7 0)).faults = [] ∧
     (getQuayLh (after (exec (.linkLighthouseFault 7) s)) 7).lhActive = 1) ∧
    (let s : State := { harbour := { quayLh := [(7, { lh1 := { retired := true } })], links := [(23, { state := .up })] } }
     lhReady s (.link 7 1) = false ∧ (getLink s 23).state ≠ .disabled ∧
     (getLink (after (exec (.linkLighthouseFault 7) s)) 23).state = .failed) := by decide +kernel

/-- A state with one running test of engine 15. -/
def testing (x : Engine) (code : Nat) : State :=
  { engState x with recovery := { tests := [{ el := .engine 0 15, code := code, rank := 1, running := true }] } }

theorem witness_engineReset :
    (let s := engState { run := some run15, bankA := bank15 }
     (eng s).resetting = false ∧ (eng s).rotation ≠ .left ∧ onEngine 0 15 optCmd = true ∧ optCmd.phase ≠ .finished ∧
     (eng (after (exec (.engineReset 0 15) s))).resetting = true ∧
     (cmd0 (after (exec (.engineReset 0 15) s))).status = S_ABORTED) ∧
    (let s := engState { resetting := true, gen := 255 }
     (eng s).resetting = true ∧ (eng s).rotation ≠ .left ∧ after (exec (.engineReset 0 15) s) = s ∧
     (eng (after (exec (.engineResetDone 0 15) s))).gen = 0 ∧
     (after (exec (.engineResetDone 0 15) s)).recovery.tests.map (·.rank) = [1]) ∧
    (let s0 := engState { run := some run15, bankA := bank15 }
     let s := { s0 with ctxs := (inFlight {} { optCmd with phase := .stopping }).ctxs }
     (cmd0 s).phase = .stopping ∧ (eng s).resetting = false ∧ (cmd0 (after (exec (.engineReset 0 15) s))).phase = .stopping) ∧
    (let s := engState { resetting := true, rotation := .left }
     (eng s).resetting = true ∧ (eng s).rotation = .left ∧
     (eng (after (exec (.engineResetDone 0 15) s))).rotation = .left) ∧
    (let s := engState {}
     after (exec (.engineResetDone 0 15) s) = s) := by decide +kernel

theorem witness_engineTests :
    (let s := testing { rotation := .outOfRotation, transients := List.replicate 6 0 } 0
     (within hourNs (now s) (eng s).transients).length < 7 ∧
     (eng (after (exec (.targetedTestDone (.engine 0 15) { pass := true }) s))).rotation = .inRotation ∧
     (eng (after (exec (.targetedTestDone (.engine 0 15) { pass := false }) s))).reason = 7) ∧
    (let s := testing { rotation := .outOfRotation, temp := 5 } 0x10
     let ok : List Nat := List.replicate 5 2048
     measurementPasses (classCount s) ok = true ∧ measurementPasses (classCount s) [] = false ∧
     (eng (after (exec (.calibrationDone 0 15 ok { pass := true }) s))).newTables = some 1 ∧
     (eng (after (exec (.calibrationDone 0 15 [] { pass := false }) s))).calRepeat = true) ∧
    (let s := testing { rotation := .outOfRotation, calRepeat := true } 0x10
     (eng (after (exec (.calibrationDone 0 15 [] { pass := false }) s))).reason = 6) ∧
    (let s : State := { harbour := { quayLh := [(7, { lh1 := { testing := true } })] } }
     hasElement s (.lighthouse (.link 7 1)) = true ∧ (getLh s (.link 7 1)).testing = true ∧
     (getLh (after (exec (.targetedTestDone (.lighthouse (.link 7 1)) { pass := true }) s)) (.link 7 1)).testing = false) ∧
    (let s := engState { calTemp := 0, run := some run15 }
     (after (exec (.calibrationTrigger (.engine 0 15) (.temperature 4001)) s)).recovery.tests.map (·.code) = [0x10] ∧
     after (exec (.calibrationTrigger (.engine 0 15) (.temperature 4000)) s) = s) := by decide +kernel

/-! ## Regions, fabric, stacks -/

/-- Region 15 of berth 7. -/
def regState (t : Nat) (r : Region) : State := { owned t with regions := [(7 * 16 + 15, r)] }
def reg (s : State) : Region := getRegion s 7 15

theorem witness_stretches :
    (let s := regState 5 { recoverAt := some 70 }
     hasEngine s 7 15 = true ∧ released s 7 = true ∧ (reg s).recoverAt = some 70 ∧
     (reg (after (exec (.replicaWarning 7 15 9) s))).recoverAt = some 71 ∧
     (reg (after (exec (.stretchRecoveryEnd 7 15 70) s))).recoverAt = none ∧
     (reg (after (exec (.stretchRecoveryEnd 7 15 69) s))).recoverAt = some 70) ∧
    (let s := regState 5 { lastStretch := some 10 }
     (reg s).recoverAt = none ∧ (reg (after (exec (.replicaWarning 7 15 75) s))).recoverAt = some 140 ∧
     (reg (after (exec (.replicaWarning 7 15 74) s))).recoverAt = none) ∧
    (let s := regState 5 { recoverAt := some 70, lastStretch := some 10 }
     (reg s).step ≠ 0 ∧ (reg s).recoveryStepped = false ∧ (reg (after (exec (.recoveryStepdown 7 15 266) s))).wanted = some 8 ∧
     (reg (after (exec (.recoveryStepdown 7 15 266) s))).urgent = true ∧
     (reg (after (exec (.recoveryStepdown 7 15 265) s))).wanted = none) ∧
    (let s := regState 5 { recoverAt := some 70, lastStretch := some 10, recoveryStepped := true }
     (reg s).recoveryStepped = true ∧ (reg (after (exec (.recoveryStepdown 7 15 266) s))).wanted = none) ∧
    (let s := regState 5 { stretches := List.replicate 65 0 }
     64 < ((reg s).stretches.filter (fun x => decide (now s < x + 1000000))).length ∧
     (reg (after (exec (.stretchLimit 7 15) s))).wanted = some 8) ∧
    (let s := regState 5 { stretches := List.replicate 64 0 }
     ((reg s).stretches.filter (fun x => decide (now s < x + 1000000))).length ≤ 64 ∧
     (reg (after (exec (.stretchLimit 7 15) s))).wanted = none) := by decide +kernel

theorem witness_steps :
    (let s := regState 100000000 { step := 7, stretchStep := 7 }
     (reg s).stretchStep < 9 ∧ (reg s).quietFrom + 100000000 ≤ now s ∧
     (reg (after (exec (.stepUpTimer 7 15) s))).wanted = some 8) ∧
    (let s := regState 0 { wanted := some 5, recoverAt := some 9, urgent := true }
     (reg s).wanted = some 5 ∧ 5 ≤ (reg s).voltStep ∧ (reg s).holding = false ∧ (reg s).urgent = true ∧
     (reg (after (exec (.stepChange 7 15) s))).voltStep = 5 ∧
     (reg (after (exec (.stepChange 7 15) s))).step = 5 ∧ (reg (after (exec (.stepChange 7 15) s))).holding = true) ∧
    (let s := regState 0 { wanted := some 5, recoverAt := some 9 }
     (reg s).recoverAt ≠ none ∧ (reg (after (exec (.stepChange 7 15) s))).step = 9) ∧
    (let s := regState 0 { step := 5, wanted := some 8, voltStep := 7 }
     (reg s).voltStep < 8 ∧ (reg (after (exec (.stepChange 7 15) s))).step = 5) ∧
    (let s := regState 0 { holding := true }
     (reg (after (exec (.stepHoldEnd 7 15) s))).holding = false) ∧
    (hasBerth (owned 0) 7 = true ∧ (getBerth (after (exec (.meshLoadWindow 7 65) (owned 0))) 7).mesh25 = 1 ∧
     after (exec (.meshLoadWindow 7 64) (owned 0)) = owned 0 ∧ after (exec (.meshLoadWindow 7 65) {}) = {}) := by
  decide +kernel

theorem witness_coreSubstitution :
    (let s := regState 0 { spare := .inService, substituting := some 143 }
     hasTile s 7 143 = true ∧ regionOf 143 = 15 ∧ (reg s).substituting = some 143 ∧ regionInUse s 7 15 = false ∧
     engineInUse s 7 15 = false ∧ (reg s).forTest = false ∧ (getTile s 7 143).held = false ∧ (getTile (after (exec (.coreSubstitution 7 143) s)) 7 143).held = true ∧
     after (exec (.coreSubstitutionDone 7 143 []) s) = s) ∧
    (let s := { regState 0 { spare := .inService, substituting := some 143 } with tiles := [(7 * 144 + 143, { held := true })] }
     let t := after (exec (.coreSubstitutionDone 7 143 [131071]) s)
     (getTile s 7 143).held = true ∧ (reg s).substituting = some 143 ∧ (reg s).withdrawing = none ∧ (reg s).forTest = false ∧
     (reg t).substituted = some 143 ∧ (getTile t 7 143).held = false ∧
     readByte t (tileWindow 7 143 + 8 * 131071 + 7) = 0xFF#8 ∧ codes t = [0x0204]) ∧
    (let q : TestReq := { el := .tile 7 143, code := 0, rank := 1 }
     let s := { regState 0 { spare := .inService, substituting := some 143, forTest := true } with
       tiles := [(7 * 144 + 143, { held := true })], recovery := { tests := [q] } }
     let t := after (exec (.coreSubstitutionDone 7 143 []) s)
     (reg s).forTest = true ∧ nextTest s (.tile 7 143) = some q ∧ (reg t).substituted = some 143 ∧
     (getTile t 7 143).held = false ∧ t.recovery.tests = [{ q with running := true }]) ∧
    (let s := { regState 0 { spare := .inService, substituted := some 143, withdrawing := some 143, forTest := true } with
       tiles := [(7 * 144 + 143, { held := true })] }
     let t := after (exec (.coreSubstitutionDone 7 143 []) s)
     (reg s).withdrawing = some 143 ∧ (reg t).spare = .free ∧ (reg t).substituted = none ∧ (getTile t 7 143).held = false) := by
  decide +kernel

/-- The lane frames of an idle frame from site 0 to site 48 with a sequence number, which acknowledges frame 5, and such lane
frames of which one carries other bits. -/
def idle0 (seq : W32) : FabricFrame := ⟨0, 0, 5, seq, 0, 0, 0, false, false, true, false, 0⟩
def lanes0 (seq : W32) : List (BitVec 112) := (List.range 16).map (laneFrame false (frameBody 0 48 (idle0 seq)))
def badLanes : List (BitVec 112) := (lanes0 0).set 0 1

set_option maxRecDepth 100000 in
theorem frame_good : bodyGood 0 48 (bodyOf (lanes0 0)) = true ∧ parseFrame (bodyOf (lanes0 0)) =
    { idle0 0 with crc := BitVec.ofNat 64 (bodyCrc 0 48 (frameBits (idle0 0))) } := by decide +kernel

set_option maxRecDepth 100000 in
theorem frame_ahead_good : bodyGood 0 48 (bodyOf (lanes0 1)) = true ∧ (parseFrame (bodyOf (lanes0 1))).seq = 1 := by
  decide +kernel

set_option maxRecDepth 100000 in
theorem frame_bad : bodyGood 0 48 (bodyOf badLanes) = false := by decide +kernel

/-- The pair from site 0 to site 48, and a state where it is the only one changed. -/
def pair48 (s : State) : PairDir := getPair s 0 48
def pairState (p : PairDir) : State := { owned 0 with pairs := [(48, p)] }

set_option maxRecDepth 100000 in
theorem witness_stripedFrame :
    (let s := owned 0
     let t := after (exec (.stripedFrame 0 48 { lanes := (lanes0 0) }) s)
     hasPair s 0 48 = true ∧ released s 5 = true ∧ (pair48 s).lost = false ∧ (pair48 s).retraining = false ∧
     (getPort s 0).paused = false ∧ maySend s 0 48 0 [] [] = true ∧ (pair48 s).rxSeq = 0 ∧ (pair48 s).trimTodo = [] ∧
     (getPort s 0).trimWait = none ∧ (pair48 t).rxSeq = 1 ∧ (getPair t 48 0).txAcked = 5) := by decide +kernel

set_option maxRecDepth 100000 in
theorem witness_failedFrame :
    (let s := pairState { fails := 3 }
     let t := after (exec (.stripedFrame 0 48 { lanes := badLanes }) s)
     (pair48 s).fails < 15 ∧ (pair48 s).sending = (pair48 s).rxSeq ∧ (pair48 t).fails = 4 ∧ (pair48 t).idreq = true ∧
     (pair48 t).nak = true) ∧
    (let s := pairState { fails := 15 }
     15 ≤ (pair48 s).fails ∧ (pair48 s).sending = (pair48 s).rxSeq ∧
     (pair48 (after (exec (.stripedFrame 0 48 { lanes := badLanes }) s))).retraining = true) := by decide +kernel

set_option maxRecDepth 100000 in
theorem witness_framesOutOfOrder :
    (let s := owned 0
     let t := after (exec (.stripedFrame 0 48 { lanes := (lanes0 1) }) s)
     maySend s 0 48 1 [] [] = true ∧ (1#32 : W32) ≠ (pair48 s).rxSeq ∧ ((1#32 : W32) - (pair48 s).rxSeq).toNat < 2 ^ 31 ∧
     (pair48 t).nak = true ∧ (pair48 t).rxSeq = 0) ∧
    (let s := pairState { rxSeq := 1 }
     let t := after (exec (.stripedFrame 0 48 { lanes := (lanes0 0) }) s)
     maySend s 0 48 0 [] [] = true ∧ 2 ^ 31 ≤ ((0#32 : W32) - (pair48 s).rxSeq).toNat ∧ (pair48 t).nak = false ∧
     (pair48 t).rxSeq = 1) := by decide +kernel

set_option maxRecDepth 100000 in
theorem witness_framesNotSent :
    (let s := pairState { txAcked := 0xFFFFFF00 }
     maySend s 0 48 0 [] [] = false ∧ after (exec (.stripedFrame 0 48 { lanes := (lanes0 0) }) s) = s) ∧
    (let s := pairState { retraining := true }
     (pair48 s).retraining = true ∧ after (exec (.stripedFrame 0 48 { lanes := (lanes0 0) }) s) = s) := by decide +kernel

set_option maxRecDepth 100000 in
/-- A frame with packets counts at its sender whether it arrives good or bad, and at its receiver when it is good; none travels
on the fabric between a berth and its own stacks. -/
theorem witness_framesCounted :
    (let s := owned 7
     let m := countSent s 0 48 0 [0, 1]
     let t := after (exec (.stripedFrame 0 48 { lanes := lanes0 0, units := [0, 1] }) s)
     maySend s 0 48 0 [0, 1] [] = true ∧ (getPort m 0).sentAt = [(7, 48)] ∧ (getPort m 0).served = 48 ∧
     (getPair m 0 48).owed = [0, 1, 0, 0] ∧ (getPort t 0).sentAt = [(7, 48)] ∧ (getPort t 48).takenAt = [7] ∧
     (pair48 t).rxSeq = 1) ∧
    (let s := owned 7
     let t := after (exec (.stripedFrame 0 48 { lanes := badLanes, units := [0, 1] }) s)
     maySend s 0 48 (pair48 s).sending [0, 1] [] = true ∧ (getPort t 0).sentAt = [(7, 48)] ∧ (getPort t 48).takenAt = [] ∧
     (pair48 t).owed = [0, 1, 0, 0] ∧ (pair48 t).nak = true) ∧
    (hasPair (owned 0) 0 8 = true ∧ maySend (owned 0) 0 8 0 [0, 1] [] = false ∧ maySend (owned 0) 0 8 0 [] [] = true) := by
  decide +kernel

/-- A frame comes on no bundle that another would have beaten; returned credits cross as events. -/
theorem witness_bundleChoice :
    (let s := { owned 0 with stackTab := [(31, { nearFree := [(25, 99999)] })] }
     let f : BundleFrame := { (default : BundleFrame) with crcGood := true }
     firstBundle s 31 1 9 = false ∧ firstBundle s 31 1 8 = true ∧ (getBundle s 31 9).active ≠ [] ∧
     after (exec (.nearBundleFrame 31 9 true f) s) = s) ∧
    (let s := owned 0
     let f : BundleFrame := { (default : BundleFrame) with crcGood := true, credits := 0x02000001 }
     let t := after (exec (.nearBundleFrame 31 9 true f) s)
     firstBundle s 31 1 9 = true ∧ fld f.credits.toNat 0 8 + fld f.credits.toNat 24 8 = 3 ∧
     tabGet 0 (getStack t 31).nearLaneNo 25 = 32 ∧ tabGet 0 (getStack t 31).nearFree 25 = 1024 ∧
     nearCredits s 31 true 0 = s ∧ nearCredits s 31 true 0x02000001 = countEvents s (stackDom 31) 3 3 ∧
     t.crossings = (countEvents s (stackDom 31) 3 3).crossings ∧ t.crossings ≠ []) := by decide +kernel

theorem witness_bundleFrame :
    (let s := owned 0
     let f : BundleFrame := { (default : BundleFrame) with ackSeq := 7, crcGood := true }
     hasStack s 31 = true ∧ released s 6 = true ∧ (getStack s 31).nearLost = false ∧ (getBundle s 31 9).active ≠ [] ∧
     f.seq = tabGet 0 (getStack s 31).nearSeq 1 ∧ (getStack s 31).nearAhead = [] ∧ (getStack s 31).nearSent = [] ∧
     f.units = [] ∧ f.stripe = false ∧ tabGet 0 (getStack (after (exec (.nearBundleFrame 31 9 true f) s)) 31).nearSeq 1 = 1 ∧
     tabGet 0 (getStack (after (exec (.nearBundleFrame 31 9 true f) s)) 31).nearAcked 0 = 7) ∧
    (let s := owned 0
     let f : BundleFrame := { (default : BundleFrame) with crcGood := false, failing := [31] }
     tabGet false (getStack (after (exec (.nearBundleFrame 31 9 true f) s)) 31).nearNak 1 = true ∧
     31 ∈ (getBundle s 31 9).active ∧ 0 ∈ (getBundle s 31 9).active ∧
     (getBundle (after (exec (.nearBundleFrame 31 9 true f) s)) 31 9).leaving = [31]) := by decide +kernel

/-- The right identity word of a plane from site 0 to site 48. -/
def word48 (plane : Nat) : W64 := BitVec.ofNat 64 (idWord 0 48 plane)

theorem witness_identityWords :
    (let s := pairState { rings := [(17, { state := .relocking })], out := [(17, none)] }
     let t := after (exec (.identityWord 0 48 17 (.marker (word48 17))) s)
     hasPair s 0 48 = true ∧ released s 5 = true ∧ (pair48 s).lost = false ∧ (pair48 s).retraining = false ∧
     (getPort s 0).paused = false ∧ (getPort s 48).paused = false ∧ (pair48 s).quietUntil ≤ now s ∧
     (pair48 s).retired.contains 17 = false ∧ (word48 17).toNat = idWord 0 48 17 ∧
     (pair48 s).out.any (fun o => o.1 == 17) = true ∧ (pair48 s).testing.contains 17 = false ∧
     (pair48 t).laneLocked 17 = true ∧ (2, 17) ∈ (pair48 t).evt) ∧
    (let s := owned 0
     let t := after (exec (.identityWord 0 48 0 (.marker (word48 1))) s)
     (word48 1).toNat ≠ idWord 0 48 0 ∧ (within 1000000000 (now s) (tabGet [] (pair48 s).mismatch 0)).length ≤ 1 ∧
     (pair48 s).stripe.contains 0 = true ∧ (1, 0) ∈ (pair48 t).evt ∧ codes t = [0x0101] ∧ (getSite t 48).transients = 1) ∧
    (let s := pairState { mismatch := [(0, [0, 0])] }
     let t := after (exec (.identityWord 0 48 0 (.marker (word48 1))) s)
     2 ≤ (within 1000000000 (now s) (tabGet [] (pair48 s).mismatch 0)).length ∧ 0 ∈ (pair48 t).retired ∧
     (3, 0) ∈ (pair48 t).evt ∧ (getSite t 48).retirements = 1) ∧
    (let s := owned 0
     laneOf (pair48 s) 0 = 0 ∧ laneOf (pair48 s) 1 = 1 ∧
     (pair48 (after (exec (.identityWord 0 48 0 (.frame [word48 1, word48 1])) s))).retraining = false ∧
     (pair48 (after (exec (.identityWord 0 48 0 (.frame [word48 1, word48 0])) s))).retraining = true) ∧
    (let s := pairState { quietUntil := 1 }
     now s < (pair48 s).quietUntil ∧ after (exec (.identityWord 0 48 0 (.marker (word48 1))) s) = s) := by decide +kernel

theorem witness_rings :
    (let s := pairState { rings := [(17, { state := .relocking })] }
     ((pair48 s).ring true 17).state = .relocking ∧ (pair48 s).darkSince = none ∧
     lockLine (litLines s 48 true) 48 40 = some 48 ∧ lockLine (litLines s 48 true) 48 (-60) = some 47 ∧
     ((pair48 (after (exec (.ringLock 0 48 ⟨17, true, 40⟩) s))).ring true 17) = {} ∧
     ((pair48 (after (exec (.ringLock 0 48 ⟨17, true, (-60)⟩) s))).ring true 17).line = some 47 ∧ 48 ∈ litLines s 48 true) ∧
    (let s := { owned 100000 with pairs := [(48, { rings := [(0, { state := .frozen })], darkSince := some 0 })] }
     (pair48 s).darkSince = some 0 ∧ 0 + 100000 ≤ now s ∧ after (exec (.ringLock 0 48 ⟨0, true, 0⟩) s) = s ∧
     ((pair48 (after (exec (.ringDarkExpiry 0 48) s))).ring true 0).state = .relocking) ∧
    (let s := pairState { retraining := true }
     (pair48 s).retraining = true ∧ (pair48 s).again = [] ∧
     (pair48 (after (exec (.retrainingDone 0 48) s))).quietUntil = 28672) ∧
    (let s := owned 1000
     (pair48 s).lastPacket + 1000 ≤ now s ∧ (pair48 s).retraining = false ∧ (pair48 s).darkSince = none ∧
     (pair48 (after (exec (.laneSleep 0 48) s))).asleep = true ∧
     after (exec (.ringDarkExpiry 0 48) s) = s ∧ after (exec (.retrainingDone 0 48) s) = s) ∧
    (let s := owned 999
     now s < (pair48 s).lastPacket + 1000 ∧ (pair48 (after (exec (.laneSleep 0 48) s))).asleep = false) := by decide +kernel

theorem witness_laneTests :
    (let s := owned 0
     let t := after (exec (.fabricLaneBerExceeded 0 48 15) s)
     released s 5 = true ∧ (pair48 s).lost = false ∧ (pair48 s).stripe.contains 15 = true ∧
     (pair48 s).testing.contains 15 = false ∧ (pair48 s).retraining = false ∧ (getPort s 0).paused = false ∧
     (getPort s 48).paused = false ∧ (1, 15) ∈ (pair48 t).evt ∧ 15 ∈ (pair48 t).testing ∧ codes t = [0x0102]) ∧
    (let s := pairState { retraining := true }
     (pair48 s).retraining = true ∧ (pair48 (after (exec (.fabricLaneBerExceeded 0 48 15) s))).again = [15]) ∧
    (let s := pairState { out := [(3, some 16)] }
     (pair48 s).mismatching = true ∧ (pair48 s).retraining = false ∧ (pair48 s).testing.contains 15 = false ∧
     (pair48 (after (exec (.fabricLaneBerExceeded 0 48 15) s))).again = [15]) ∧
    (let s := pairState { stripe := List.range 15, testing := [15] }
     (pair48 s).testing.contains 15 = true ∧ (pair48 s).stripe.contains 15 = false ∧
     15 ∈ (pair48 (after (exec (.laneMarginTestDone 0 48 15 ⟨64, (-900)⟩) s))).spares ∧
     15 ∈ (pair48 (after (exec (.laneMarginTestDone 0 48 15 ⟨64, (-901)⟩) s))).retired ∧
     15 ∈ (pair48 (after (exec (.laneMarginTestDone 0 48 15 ⟨63, (-900)⟩) s))).retired) ∧
    (let s := owned 0
     (getBundle s 31 9).active.contains 31 = true ∧
     (getBundle (after (exec (.nearLaneBerExceeded 31 9 31) s)) 31 9).leaving = [31] ∧
     (getBundle s 31 9).active.contains 33 = false ∧
     getBundle (after (exec (.nearLaneBerExceeded 31 9 33) s)) 31 9 = getBundle s 31 9) ∧
    (let s := owned 0
     let f : BundleFrame := { (default : BundleFrame) with crcGood := true, stripe := true, evt := 1, evtLane := 31 }
     let t := after (exec (.nearBundleFrame 31 9 true f) s)
     (getStack s 31).nearSent = [] ∧ (getStack s 31).nearLost = false ∧ (0 ∈ (getBundle s 31 9).active ∧ 0 ≠ 31) ∧
     (getBundle t 31 9).removed = [31] ∧ codes t = [0x0104]) := by decide +kernel

/-- Channel 15 of stack 31. -/
def chan (s : State) : StackChannel := getChannel s 31 15
def chanState (x : StackChannel) : State := { owned 0 with stackTab := [(31, { channels := [(15, x)] })] }

theorem witness_refresh :
    (let s := chanState {}
     hasStack s 31 = true ∧ channelWorks s 31 15 = true ∧ stackQuiet s 31 = false ∧
     tabGet 0 (chan (after (exec (.refreshOperation 31 15 15) s))).refreshes 15 = 1 ∧
     tabGet 0 (chan (after (exec (.refreshOperation 31 15 15) s))).bankBand 15 = 0) ∧
    (let s := chanState {}
     let t := after (exec (.scrub 31 15 1 [⟨7, true, 0, 64, 1⟩, ⟨8, false, 0, 0, 0⟩]) s)
     channelWorks s 31 15 = true ∧ (chan t).corrections = 2 ∧ (chan t).repairWait = [262151] ∧
     (chan t).cellMarks = [(8193, 262151)] ∧ (getSite t 39).transients = 1) ∧
    (let s := chanState { suspectConn := [5], repairWait := [262151] }
     let t := after (exec (.refreshGap 31 15 [] ⟨[], []⟩) s)
     (chan s).suspectConn = [5] ∧ (chan s).repairWait = [262151] ∧ channelWorks s 31 15 = true ∧
     tabGet 0 (chan s).rowsUsed 1 < 32 ∧ 0 < (chan s).freeConn ∧ (chan t).freeConn = 63 ∧
     tabGet 0 (chan t).rowsUsed 1 = 1 ∧ codes t = [0x0105]) ∧
    (let s := chanState { repairWait := [262151] }
     let t := after (exec (.refreshGap 31 15 [] ⟨[], [⟨1, 7, 0, 64, 1⟩, ⟨1, 8, 0, 0, 0⟩]⟩) s)
     stackQuiet s 31 = false ∧ (chan t).corrections = 1 ∧ (chan t).gaps = 1) ∧
    (let s := { chanState {} with stackTab := [(31, { stoppedHeat := true })] }
     stackQuiet s 31 = true ∧ channelWorks s 31 15 = true ∧ after (exec (.scrub 31 15 1 [⟨7, true, 0, 64, 1⟩]) s) = s ∧
     after (exec (.rowBufferWriteback 31 15 1 7) s) = s ∧ (chan (after (exec (.refreshGap 31 15 [] ⟨[], []⟩) s))).gaps = 1 ∧
     tabGet 0 (chan (after (exec (.refreshOperation 31 15 15) s))).refreshes 15 = 1) ∧
    (let s0 := chanState {}
     let s := updBundle s0 31 9 (fun b => { b with removed := [31] })
     channelWorks s 31 15 = true ∧ (getBundle (after (exec (.refreshGap 31 15 [] ⟨[], []⟩) s)) 31 9).testWait = [31] ∧
     (getBundle (after (exec (.refreshGap 31 15 [] ⟨[], []⟩) s)) 31 9).removed = []) ∧
    (let s := chanState { buffers := [(262151, some 4)] }
     (chan (after (exec (.rowBufferWriteback 31 15 1 7) s))).buffers = [(262151, none)]) ∧
    (let s := { owned 0 with stackTab := [(31, { layers := [(15, { off := true })] })] }
     channelWorks s 31 15 = false ∧ after (exec (.scrub 31 15 1 [⟨7, true, 0, 0, 0⟩]) s) = s) := by decide +kernel

/-- The last segment of channel 15 of stack 31, wanted for a move; with a move in progress. -/
def seg : SegKey := ⟨31, 15, 1007⟩
def moving (m : Move) : State := { stackTab := [(31, { move := some m })], pool := { moving := [seg], wanted := [seg] } }

theorem witness_segmentMove :
    (let s : State := { pool := { wanted := [seg] } }
     hasStack s 31 = true ∧ stackOfKey s seg = 31 ∧ mayMove s seg = true ∧ (getStack s 31).move = none ∧
     chooseSlot s 31 = some (31 * 256) ∧
     (getStack (after (exec (.segmentMoveStart seg) s)) 31).move.map (·.slot) = some (31 * 256)) ∧
    (let s : State := {}
     mayMove s seg = false ∧ after (exec (.segmentMoveStart seg) s) = s) ∧
    (let s := moving { key := seg, slot := 7936 }
     moveOf s seg = some { key := seg, slot := 7936 } ∧ hasSite s 48 = true ∧ (0 ∈ remapSites s ∧ 0 ∉ ([] : List Nat)) ∧
     openTo s seg 48 = false ∧
     (getStack (after (exec (.segmentHoldAck seg 48) s)) 31).move.map (·.acks) = some [48] ∧
     after (exec (.segmentCopyDone seg ⟨[], []⟩) s) = s ∧ after (exec (.segmentRecorded seg) s) = s) ∧
    (let s := { moving { key := seg, slot := 7936, acks := List.range 49 } with
       stackTab := [(31, { move := some { key := seg, slot := 7936, acks := List.range 49 }, stoppedRail := true })] }
     stackQuiet s 31 = true ∧ after (exec (.segmentCopyDone seg ⟨[0], []⟩) s) = s) ∧
    (let s := moving { key := seg, slot := 7936, acks := List.range 49 }
     let t := after (exec (.segmentCopyDone seg ⟨[], [⟨0, 0, 0, 5, 1⟩]⟩) s)
     stackQuiet s 31 = false ∧ (chan t).corrections = 1 ∧ t.mem = s.mem) ∧
    (let s0 : State := moving { key := seg, slot := 7936 }
     let a := sectorOfKey s0 seg 0
     let s := { s0 with reqs := { out := [{ req := { (default : WireReq) with addr := a, srcSite := 5 }, dstPos := 0, dstSite := 39 }] } }
     openTo s seg 5 = true ∧ openTo s seg 6 = false ∧ after (exec (.segmentHoldAck seg 5) s) = s) ∧
    (let s := moving { key := seg, slot := 7936, acks := List.range 49 }
     (∀ x ∈ remapSites s, x ∈ List.range 49) ∧
     (getStack (after (exec (.segmentCopyDone seg ⟨[0], []⟩) s)) 31).move.map (·.copied) = some true ∧
     sectorPoisoned (after (exec (.segmentCopyDone seg ⟨[0], []⟩) s)) (sectorOfKey s seg 0 / 64) = true) ∧
    (let s := moving { key := seg, slot := 7936, copied := true }
     let t := after (exec (.segmentRecorded seg) s)
     moveOf s seg = some { key := seg, slot := 7936, copied := true } ∧ slotOfKey t seg = some 7936 ∧ t.pool.moving = [] ∧
     codes t = [0x0304]) ∧
    (let s : State := { atTide 60000000000 with pool := { ranges := [{ key := seg }] } }
     (after (exec (.retiredRangeExpiry seg) s)).pool.ranges.map (·.closed) = [true]) ∧
    (let s : State := { atTide 60000000000 with
       pool := { ranges := [{ key := seg }] }, stackTab := [(31, { channels := [(15, { state := .retired })] })] }
     homeOfKey s seg = (31, 15) ∧
     (tabGet {} (getStack (after (exec (.retiredRangeExpiry seg) s)) 31).layers 15).off = true) := by decide +kernel

/-- No channel of any stack is in service. -/
def noSlots : State :=
  { owned 0 with
    pool := { wanted := [seg] }
    stackTab := (List.range 32).map (fun n => (n, { channels := (List.range 16).map (fun c => (c, { state := .degraded })) })) }

/-- Every layer sensor, every base sensor at one temperature, in 0.001 °C. -/
def flat (t : Int) : StackReading := ⟨List.replicate 16 (List.replicate 4 t), List.replicate 4 t, [], []⟩

theorem witness_stackTemperatures :
    (chooseSlot noSlots 31 = none ∧ (getStack noSlots 31).move = none ∧
     mayMove noSlots seg = true ∧ hasStack noSlots 31 = true ∧ seg ∈ keysOfChannel noSlots 31 15) ∧
    (let s := owned 0
     let t := after (exec (.layerModelTick 31 (flat 101000)) s)
     hasStack s 31 = true ∧ released s 6 = true ∧
     (tabGet {} (getStack t 31).layers 15).temp15 = 15 * 101000 + guard15 s ∧ (getStack t 31).alarm = true ∧
     codes t = List.replicate 16 0x0602) ∧
    (let s := { owned 0 with stackTab := [(31, { stoppedHeat := true, alarm := true })] }
     (getStack (after (exec (.layerModelTick 31 (flat 80000)) s)) 31).stoppedHeat = false) ∧
    (released {} 6 = false ∧ after (exec (.layerModelTick 31 (flat 101000)) {}) = {}) ∧
    (let s : State := { atTide 9999999 with stackTab := [(31, { layers := [(15, { offSince := [(3, 0 + 1)] })] })] }
     let l := tabGet {} (getStack s 31).layers 15
     tabGet 0 l.offSince 3 ≠ 0 ∧ now s + 1 < tabGet 0 l.offSince 3 + 10000000 ∧
     after (exec (.stackSensorSuspect 31 63) s) = s) ∧
    (let s : State := { atTide 10000000 with stackTab := [(31, { layers := [(15, { offSince := [(3, 0 + 1)] })] })] }
     (tabGet {} (getStack (after (exec (.stackSensorSuspect 31 63) s)) 31).layers 15).suspect = [3] ∧
     codes (after (exec (.stackSensorSuspect 31 63) s)) = [0x0601]) ∧
    (getStack (after (exec (.stackSensorSuspect 31 67) {})) 31).baseSuspect = [3] ∧
    (getStack (after (exec (.stackSensorSuspect 31 71) {})) 31).regSuspect = [3] ∧
    (getStack (after (exec (.railFault 31 2) {})) 31).stoppedRail = true ∧
    codes (after (exec (.railFault 31 2) {})) = [0x0602] := by decide +kernel

/-! ## Clocks, power and heat -/

/-- The codes and args of the events not yet in the error log. -/
def evs (s : State) : List (Nat × Nat) := s.faults.unlogged.map (fun e => (e.code, e.arg))

/-- The clocks of blocks stopped at Tide 0. -/
def stoppedAt (s : State) (l : List Nat) : State := { s with tide := { s.tide with stoppedGens := l.map (fun d => (d, 0)) } }

/-- A load of berth 0 that passes the crossing of the base fabric and stack 0. -/
def passing : State := { owned 0 with reqs := { out := [out (load0 1) 8] } }

theorem witness_crossingStack :
    (isCrossing 0x100 0x20 = false ∧ after (exec (.crossingTimeout ⟨0x100, 0x20⟩) {}) = {}) ∧
    (let s := setCrossing {} 3 0x3F .parked
     hasBlock s 3 = true ∧ hasBlock s 0x3F = true ∧ getCrossing s 3 0x3F = .parked ∧
     after (exec (.crossingTimeout ⟨3, 0x3F⟩) s) = s ∧
     after (exec (.crossingTimeout ⟨3, 0x3F⟩) (setCrossing {} 3 0x3F .failed)) = setCrossing {} 3 0x3F .failed) ∧
    (let s := stoppedAt (owned 79) [0x20]
     getCrossing s 3 0x20 = .active ∧ crossTimeout s 3 0x20 = 80 ∧ watchExpired s 3 0x20 = false ∧
     after (exec (.crossingTimeout ⟨3, 0x20⟩) s) = s) ∧
    (let s := setCrossing (stoppedAt (owned 80) [0x20]) 3 0x20 .parking
     getCrossing s 3 0x20 = .parking ∧ watchExpired s 3 0x20 = true ∧
     getCrossing (after (exec (.crossingTimeout ⟨3, 0x20⟩) s)) 3 0x20 = .failed) ∧
    (let t := after (exec (.crossingTimeout ⟨quayDom 7, 0x600 + 23⟩) (owned 9))
     hasBlock {} (0x600 + 23) = true ∧ isCrossing (quayDom 7) (0x600 + 23) = true ∧ isLinkBlock (0x600 + 23) = true ∧
     watchExpired (owned 9) (quayDom 7) (0x600 + 23) = true ∧ getCrossing t (quayDom 7) (0x600 + 23) = .failed ∧
     (getLink t 23).state = .linkReset ∧ (0x0404, quayDom 7 + (0x600 + 23) * 65536) ∈ evs t) ∧
    (let s := stoppedAt { passing with tide := { count := 99 * 2 ^ 32 } } [3]
     let t := after (exec (.crossingTimeout ⟨0x20, 3⟩) s)
     isCrossing 0x20 3 = true ∧ getCrossing s 0x20 3 = .active ∧ watchExpired s 0x20 3 = true ∧ s.reqs.early = [] ∧ domKind 0x20 = .stack 0 ∧ stackSite 0 = 8 ∧
     (s.reqs.out.any (fun o => passes 0x20 3 (pathDoms s o))) = true ∧ t.reqs.out = [] ∧ (getSite t 8).probing = true ∧
     getCrossing t 0x20 3 = .failed ∧ evs t = [(0x0404, 3 + 0x20 * 65536)]) ∧
    (let t := after (exec (.crossingTimeout ⟨3, quayDom 7⟩) (stoppedAt (atTide 99) [3]))
     isCrossing 3 (quayDom 7) = true ∧ domKind (quayDom 7) = .quay 7 ∧ (getSite t (quaySite 7)).probing = true) := by
  decide +kernel

theorem witness_crossingBerth :
    (let t := after (exec (.crossingTimeout ⟨regionDom 7 15, engineDom 7 15⟩) (stoppedAt (atTide 99) [regionDom 7 15]))
     isCrossing (regionDom 7 15) (engineDom 7 15) = true ∧ domKind (regionDom 7 15) = .region 7 15 ∧
     domKind (engineDom 7 15) = .engine 7 15 ∧ (getEngine t 7 15).resetting = true ∧
     t.recovery.rungs = [(2, engKey 7 15, 15, 99)] ∧ (evs t).head? = some (0x0404, regionDom 7 15 + engineDom 7 15 * 65536)) ∧
    (let t := after (exec (.crossingTimeout ⟨engineDom 0 0, 3⟩) (stoppedAt (atTide 99) [3]))
     isCrossing (engineDom 0 0) 3 = true ∧ (getEngine t 0 0).resetting = true) ∧
    (let s := stoppedAt (owned 99) [regionDom 0 0]
     isCrossing (regionDom 0 0) (regionDom 0 1) = true ∧ berthPart s 0 = some 0 ∧ s.rst.ready = true ∧
     (getPart (after (exec (.crossingTimeout ⟨regionDom 0 1, regionDom 0 0⟩) s)) 0).resetting = true) ∧
    (let s := stoppedAt { up 99 with ctxs := ctx0 .opened } [3]
     isCrossing 3 (regionDom 0 15) = true ∧ berthPart s 0 = none ∧
     (getCtx (after (exec (.crossingTimeout ⟨3, regionDom 0 15⟩) s)) 0).state = .closed) ∧
    (let s := owned 7
     let t := after (exec (.crossingTimeout ⟨4, 1⟩) s)
     isCrossing 4 1 = true ∧ watchExpired s 4 1 = true ∧ t.rst.cause = 0x11 ∧ t.recovery.dumpCount = 1 ∧ now t = 7) ∧
    (after (exec (.crossingTimeout ⟨2, 0⟩) (stoppedAt (owned 32000) [2]))).rst.cause = 0x11 ∧
    after (exec (.crossingTimeout ⟨2, 0⟩) (stoppedAt (owned 31999) [2])) = stoppedAt (owned 31999) [2] := by decide +kernel

/-- REF runs. -/
def refState (mode : TideMode) (good : Bool) (tries : Nat) : State :=
  { owned 0 with tide := { count := 5 * 2 ^ 32, mode := mode, refRunning := true, refGood := good, refTries := tries } }

theorem witness_refAndTideModes :
    (let s := refState .reference true 0
     hasGenerator s (quayDom 7) = true ∧ clockStopped s (quayDom 7) = false ∧ domKind (quayDom 7) = .quay 7 ∧
     (after (exec (.generatorLockLoss (quayDom 7)) s)).tide.stoppedGens = [(quayDom 7, 5)] ∧
     hasGenerator s pclkBlock = true ∧ (after (exec (.generatorLockLoss pclkBlock) s)).rst.cause = 0x11) ∧
    (let s := stoppedAt (refState .reference true 0) [quayDom 7]
     clockStopped s (quayDom 7) = true ∧ after (exec (.generatorLockLoss (quayDom 7)) s) = s) ∧
    (let s := refState .reference true 0
     let g := 0x4FE
     let f := 0x560
     let q := 0x58E
     hasGenerator s g = true ∧ domKind g = .lighthouse ∧ lighthouseOf g = .engine 7 15 0 ∧ released s 4 = true ∧
     (getEngine (after (exec (.generatorLockLoss g) s)) 7 15).lhActive = 1 ∧
     hasGenerator s f = true ∧ lighthouseOf f = .fabric 48 0 ∧
     (getPort (after (exec (.generatorLockLoss f) s)) 48).paused = true ∧
     hasGenerator s q = true ∧ lighthouseOf q = .link 7 0 ∧
     (getQuayLh (after (exec (.generatorLockLoss q) s)) 7).lhActive = 1) ∧
    (let s := refState .reference false 0
     hasGenerator s 3 = true ∧ after (exec (.generatorLockLoss 3) s) = s) ∧
    (let t := after (exec (.refCheckWindow 12736 false) (refState .reference false 9))
     t.tide.refGood = true ∧ t.tide.refTries = 0 ∧ t.tide.latchAo = 0) ∧
    (after (exec (.refCheckWindow 12864 false) (refState .alwaysOn false 9))).tide.refGood = true ∧
    (let t := after (exec (.refCheckWindow 12735 false) (refState .reference true 0))
     t.tide.mode = .alwaysOn ∧ t.rst.cause = 7 ∧ t.tide.count = 500 * 2 ^ 32) ∧
    (let t := after (exec (.refCheckWindow 2 true) (refState .reference true 0))
     t.rst.ready = false ∧ t.tide.count = 1000 * 2 ^ 32) ∧
    (after (exec (.refCheckWindow 12865 false) (refState .alwaysOn false 8))).tide.refTries = 9 ∧
    (after (exec (.refCheckWindow 0 true) (refState .alwaysOn false 9))).rst.cause = 7 ∧
    (after (exec (.refCheckWindow 12735 false) (refState .alwaysOn true 0))).rst.cause = 7 ∧
    (after (exec (.refCheckWindow 12800 false) {}) = {} ∧ (({} : State).tide.refRunning = false)) ∧
    (let s := refState .reference false 0
     (after (exec (.tideModeAlwaysOn 3) s)).tide.count = 1500 * 2 ^ 32 ∧
     (after (exec (.tideModeAlwaysOn 3) s)).tide.mode = .alwaysOn) ∧
    (let s := refState .reference true 0
     after (exec (.tideModeAlwaysOn 3) s) = s ∧ after (exec .tideModeReference s) = s) ∧
    (let t := after (exec .tideModeReference (refState .alwaysOn true 0))
     t.tide.mode = .reference ∧ t.tide.locked = true ∧ t.tide.latchAo = 5 * 2 ^ 32 ∧
     portsLocked (refState .alwaysOn true 0) = true ∧ 48 ∈ t.tide.loaded ∧ stackSite 31 ∈ t.tide.loaded) ∧
    (let s := stoppedAt (refState .alwaysOn true 0) [quayDom 7]
     portsLocked s = false ∧ after (exec .tideModeReference s) = s) ∧
    (let s := refState .alwaysOn false 0
     after (exec .tideModeReference s) = s) := by decide +kernel

/-- A module of two berths with every controlled domain and PCI Express in retention. -/
def sleepy : State :=
  { up 9 with
    ident := { part := 2 }
    domains := (4 :: controlled { ident := { part := 2 } }).map (fun d => (d, { state := .retention })) }
def asleep : State := after (exec .moduleSleep sleepy)

/-- That module with its alarm armed, for the present Tide and for the next. -/
def alarmed : State := { asleep with tide := { asleep.tide with alarm := some 9 } }
def alarmed10 : State := { asleep with tide := { asleep.tide with alarm := some 10 } }

theorem witness_sleep :
    sleepy.rst.ready = true ∧ maySleep sleepy = true ∧ [1, 2, 3].all (parkable ([1, 2, 3].foldl parkDomain sleepy)) = true ∧
    (let s := stoppedAt sleepy [2]
     maySleep s = true ∧ parkable ([1, 2, 3].foldl parkDomain s) 2 = false ∧ after (exec .moduleSleep s) = s) ∧ asleep.io.asleep = true ∧
    (getDomain asleep 1).state = .retention ∧ (getDomain asleep 3).state = .retention ∧ harbourSize sleepy = 1 ∧
    asleep.tide.refRunning = false ∧ after (exec .moduleSleep asleep) = asleep ∧
    (let s := up 9
     maySleep s = false ∧ after (exec .moduleSleep s) = s) ∧
    (let s := { sleepy with harbour := { members := 3 }, tide := { sleepy.tide with refRunning := true } }
     harbourSize s = 2 ∧ maySleep s = true ∧ (after (exec .moduleSleep s)).tide.refRunning = true) := by decide +kernel

theorem witness_wake :
    (after (exec (.wake 1 [] 0) (up 9)) = up 9 ∧ after (exec (.wake 0 [] 0) asleep) = asleep ∧
     after (exec (.wake 8 [] 7) asleep) = asleep) ∧
    (let s := updDomain asleep 4 (fun d => { d with state := .on })
     (getDomain s 4).state ≠ .retention ∧ after (exec (.wake 3 [] 0) s) = s) ∧
    (let s := updDomain asleep (quayDom 7) (fun d => { d with state := .off })
     after (exec (.wake 4 [] 7) s) = s) ∧
    (asleep.tide.alarm = none ∧ after (exec (.wake 5 [] 0) asleep) = asleep) ∧
    (alarmed10.tide.alarm = some 10 ∧ now alarmed10 < 10 ∧ after (exec (.wake 5 [] 0) alarmed10) = alarmed10) ∧
    (let t := after (exec (.wake 5 [1, 5] 0) alarmed)
     alarmed.io.asleep = true ∧ alarmed.tide.alarm = some 9 ∧ 9 ≤ now alarmed ∧ t.tide.alarm = none ∧ (getDomain alarmed 2).state = .retention ∧
     (getDomain alarmed 2).busy = none ∧ (getDomain alarmed 2).queue = [] ∧
     t.io.asleep = false ∧ t.io.wakeTide = 9 ∧ t.io.wakeCount = 1 ∧ t.io.wakeCode = 1 ∧ t.io.wakeMask = 17 ∧
     t.tide.refRunning = true ∧ (getDomain t 2).busy = some .on ∧ (getDomain t 4).busy = none) ∧
    (let t := after (exec (.wake 2 [] 0) asleep)
     (getDomain asleep 4).state = .retention ∧ (getDomain t 4).busy = some .on ∧ t.io.wakeMask = 2) ∧
    (let t := after (exec (.wake 4 [] 7) asleep)
     (getDomain asleep (quayDom 7)).state = .retention ∧ (getDomain t (quayDom 7)).busy = some .on ∧ t.io.wakeMask = 8) ∧
    (after (exec (.mpAddressMatchWake 0x40) asleep)).io.wakeCode = 1 ∧
    after (exec (.mpAddressMatchWake 0x3F) asleep) = asleep ∧
    (let t := after (exec .presenceButtonPress asleep)
     t.sec.buttonSince = some 9 ∧ t.io.wakeCode = 7 ∧ t.io.wakeMask = 64) ∧
    (let s := up 9
     s.io.asleep = false ∧ after (exec .presenceButtonPress s) = { s with sec := { s.sec with buttonSince := some 9 } }) := by
  decide +kernel

/-- The button pressed at a Tide, the module READY since 5. -/
def pressed (b t : Nat) : State :=
  { up t with sec := { buttonSince := some b }, rst := { ready := true, readyTide := 5 } }

theorem witness_presence :
    (after (exec .presenceHold (pressed 0 3000000005))).sec.window = some 123000000005 ∧
    after (exec .presenceHold (pressed 0 3000000004)) = pressed 0 3000000004 ∧
    (let s := { pressed 0 3000000005 with rst := {} }
     after (exec .presenceHold s) = s) ∧
    after (exec .presenceHold (up 9)) = up 9 ∧ after (exec .presenceWindowExpiry (up 9)) = up 9 ∧
    (let s : State := { up 9 with sec := { window := some 9 } }
     (after (exec .presenceWindowExpiry s)).sec.window = none) ∧
    (let s : State := { up 9 with sec := { window := some 10 } }
     after (exec .presenceWindowExpiry s) = s) := by decide +kernel

/-- The input at a voltage in mV, the stage converting. -/
def input (mv : Nat) (s : State) : State := after (exec (.inputVoltageChange mv) s)

theorem witness_inputVoltage :
    (let s := { up 9 with power := { converting := false, store := 5000000, storeAt := 8 }, thermal := { powerIn := 1000 } }
     let t := input 800000 s
     s.power.converting = false ∧ t.power.store = storeNow s ∧ t.power.storeAt = 9 ∧ t.power.store = 4999040) ∧
    (let t := input 679999 (up 9)
     t.power.converting = false ∧ t.power.dip = true ∧ t.power.range = .below ∧ evs t = [(0x0405, 6799)]) ∧
    (evs (input 920001 (input 679999 (up 9))) = [(0x0405, 6799)]) ∧
    (let t := input 680000 (up 9)
     t.power.converting = true ∧ t.power.range = .low ∧ t.power.goodSince = none ∧ evs t = [(0x0405, 6800)]) ∧
    (evs (input 719999 (input 680000 (up 9))) = [(0x0405, 6800)]) ∧
    (let t := input 720000 (input 680000 (up 9))
     t.power.range = .normal ∧ t.power.goodSince = some 9 ∧ evs t = [(0x0405, 6800)]) ∧
    (input 880000 (up 9)).power.range = .normal ∧
    (let t := input 880001 (up 9)
     t.power.range = .high ∧ evs t = [(0x0405, 8800)]) ∧
    (let t := input 920000 (input 880001 (up 9))
     t.power.converting = true ∧ evs t = [(0x0405, 8800)]) := by decide +kernel

/-- The stage does not convert, at a voltage in mV. -/
def dipAt (mv t : Nat) : State :=
  { owned t with power := { converting := false, dip := true, millivolts := mv, range := inputRange mv, goodSince := none } }
def brown (g : Option Nat) (t : Nat) : State :=
  { owned t with power := { converting := false, brownOut := true, charged := false, goodSince := g, busFailed := some 0 } }
def dark : State := after (exec .alwaysOnStoreExhausted (brown none 20000000000))

theorem witness_brownOut :
    (after (exec .conversionResume (dipAt 700000 9))).power.converting = true ∧
    (after (exec .conversionResume (dipAt 910000 9))).power.dip = false ∧
    after (exec .conversionResume (dipAt 699999 9)) = dipAt 699999 9 ∧
    after (exec .conversionResume (dipAt 910001 9)) = dipAt 910001 9 ∧
    (let t := after (exec .interlockOpen (up 9))
     t.power.converting = false ∧ (after (exec .interlockClose t)).power.interlockClosed = true ∧
     (after (exec .interlockOpen (dipAt 700000 9))).faults = (dipAt 700000 9).faults) ∧
    (let t := after (exec .brownOut (dipAt 600000 9))
     t.rst.cause = 2 ∧ t.power.brownOut = true ∧ t.power.charged = false ∧ now t = 9 ∧ t.power.busFailed = some 9 ∧
     (getDomain t (regionDom 7 15)).state = .off ∧ (getDomain t (engineDom 0 0)).state = .off ∧
     (getDomain t (stackDom 31)).state = .off ∧ (getDomain t (quayDom 7)).state = .off ∧ t.tide.mode = .alwaysOn) ∧
    (let s := { dipAt 600000 9 with tide := { count := 9 * 2 ^ 32, mode := .reference, refRunning := true, refGood := true } }
     (after (exec .brownOut s)).tide.mode = .reference) ∧
    after (exec .brownOut (up 9)) = up 9 ∧
    (let t := after (exec .newStart (brown (some 0) 100000000))
     t.power.brownOut = false ∧ t.power.converting = true ∧ t.rst.time0 = 100000000) ∧
    after (exec .newStart (brown (some 0) 99999999)) = brown (some 0) 99999999 ∧
    (after (exec .newStart (brown (some 25000000000) 25100000000))).power.busFailed = none ∧
    after (exec .newStart (brown (some 25000000001) 25200000000)) = brown (some 25000000001) 25200000000 ∧
    after (exec .alwaysOnStoreExhausted (brown none 19999999999)) = brown none 19999999999 ∧
    after (exec .alwaysOnStoreExhausted (brown (some 20000000000) 30000000000)) = brown (some 20000000000) 30000000000 ∧
    (after (exec .alwaysOnStoreExhausted (brown (some 20000000001) 30000000000))).power.alwaysOn = false ∧
    after (exec .newStart (brown none 9)) = brown none 9 ∧ after (exec .newStart (up 9)) = up 9 ∧
    (dark.power.alwaysOn = false ∧ after (exec .alwaysOnStoreExhausted (up 9)) = up 9) ∧
    (let t := after (exec .preCharge dark)
     dark.power.range = .normal ∧ t.power.alwaysOn = true ∧ t.power.brownOut = false ∧ t.rst.cause = 1 ∧ t.tide = {} ∧
     t.sec.sealed = false) ∧
    (let s : State := { dark with sec := { dark.sec with erasePending := true, keys := [(0, [1#8])] } }
     (after (exec .preCharge s)).sec.keys = [] ∧ (after (exec .preCharge s)).rst.allowance = 30000000000) ∧
    after (exec .preCharge (up 9)) = up 9 ∧
    (let s := input 920001 dark
     s.power.range = .above ∧ after (exec .preCharge s) = s) := by decide +kernel

/-- Every sensor of a berth at one temperature, and of the module. -/
def berthFlat (b : Nat) (t : Int) : BerthReading := ⟨b, 500000, [], List.replicate 128 t, List.replicate 6 t⟩
def moduleFlat (b : List BerthReading) (q hm tIn : Int) : ModuleReading :=
  { berths := b, quays := List.replicate 8 q, hmArea := List.replicate 4 hm, tIn := tIn, tOut := 30000 }

/-- A module of two berths. -/
def small (t : Nat) : State := { owned t with ident := { part := 2 } }

theorem witness_powerCap :
    (hasBerth (owned 0) 7 = true ∧ (getBerth (after (exec (.limiterTick 7 900001) (owned 0))) 7).limiting = true ∧
     (getBerth (after (exec (.limiterTick 7 900000) (owned 0))) 7).limiting = false ∧
     after (exec (.limiterTick 7 900001) {}) = {} ∧ released {} 7 = false) := by decide +kernel

theorem witness_powerCapModel :
    (let t := after (exec (.powerCapTick (moduleFlat [berthFlat 1 96000] 20000 20000 30000)) (small 9))
     (getBerth t 1).th = 96000 ∧ (getBerth t 1).factor = 960000 ∧ (getBerth t 1).cap = 542000 ∧ t.rst.ready = true ∧
     t.thermal.tIn = 30000 ∧ t.thermal.alarm = false) := by decide +kernel

theorem witness_powerCapBinds :
    (let t := after (exec (.powerCapTick (moduleFlat [{ berthFlat 1 95000 with power := 858000 }] 20000 20000 40000)) (small 9))
     (getBerth t 1).cap = 900000 ∧ (getBerth t 1).throttle = 64 ∧ (getRegion t 1 15).temp = 95000 ∧
     (getRegion t 1 15).powerStep = 9) := by decide +kernel

theorem witness_powerCapAlarms :
    (let t := after (exec (.powerCapTick (moduleFlat [berthFlat 0 100000] 20000 20000 44999)) (small 9))
     t.thermal.alarm = true ∧ codes t = [0x0602]) ∧
    (after (exec (.powerCapTick (moduleFlat [] 20000 100000 30000)) (small 9))).rst.cause = 0x10 ∧
    (after (exec (.powerCapTick (moduleFlat [] 20000 20000 55000)) (small 9))).rst.cause = 0x10 ∧
    (after (exec (.powerCapTick (moduleFlat [] 20000 99999 54999)) (small 9))).rst.ready = true := by decide +kernel

/-- A sensor of berth 7 has differed since Tide 0. -/
def offState (t : Nat) : State := { owned t with berths := [(7, { offSince := [(133, 1)] })] }

theorem witness_sensorsAndFlow :
    (after (exec (.dieSensorSuspect 7 133) (offState 9999999)) = offState 9999999 ∧ hasBerth (offState 0) 7 = true ∧
     tabGet 0 (getBerth (offState 0) 7).offSince 133 ≠ 0 ∧ now (offState 9999999) + 1 < 1 + 10000000) ∧
    (let t := after (exec (.dieSensorSuspect 7 133) (offState 10000000))
     (getBerth t 7).suspect = [133] ∧ codes t = [0x0601]) ∧
    (let s := { owned 10000000 with thermal := { areaSince := [(15, 1)] } }
     let t := after (exec (.dieSensorSuspect 8 15) s)
     tabGet 0 s.thermal.areaSince 15 = 1 ∧ t.thermal.suspect = [15] ∧ codes t = [0x0601]) ∧
    (let s := { owned 9999999 with thermal := { areaSince := [(15, 1)] } }
     after (exec (.dieSensorSuspect 8 15) s) = s) ∧
    (let r := { moduleFlat [] 0 0 0 with edge := [1, 2, 3, 77], sitePower := List.replicate 15 0 ++ [4000] }
     areaFigure {} r 15 = 77 ∧ areaFigure { thermal := { suspect := [15] } } r 15 = 30200) ∧
    (let s : State := { small 0 with thermal := { alarm := true } }
     (after (exec (.flowRequestTick 0 0 0) s)).thermal.flowReq = 200) ∧
    (let s : State := { small 0 with berths := [(1, { factor := 999999 })] }
     throttled s 1 = true ∧ (after (exec (.flowRequestTick 0 0 0) s)).thermal.flowReq = 200) ∧
    (let t := after (exec (.flowRequestTick 4000000 30000 54999) (small 0))
     (∀ b, b < 2 → throttled (small 0) b = false) ∧ t.thermal.flowReq = 61 ∧ lowFlow (small 0) 4000000 30000 54999 = true ∧
     t.thermal.lowSince = some 0 ∧ t.thermal.clearSince = none ∧ t.thermal.tIn = 30000) ∧
    (after (exec (.flowRequestTick 0 0 0) (small 7))).thermal.clearSince = some 7 ∧
    (let s : State := { small 1000000000 with thermal := { lowSince := some 0 } }
     let t := after (exec (.coolingFault .lowFlow) s)
     t.thermal.coolingFault = true ∧ codes t = [0x0602] ∧ after (exec (.coolingFault .hotBase) s) = s) ∧
    (let s : State := { small 999999999 with thermal := { hotSince := some 0 } }
     after (exec (.coolingFault .hotBase) s) = s) ∧
    (let s : State := { small 10000000000 with thermal := { clearSince := some 0, coolingFault := true } }
     (after (exec .coolingFaultClear s)).thermal.coolingFault = false) ∧
    (let s : State := { small 9999999999 with thermal := { clearSince := some 0, coolingFault := true } }
     after (exec .coolingFaultClear s) = s) ∧
    after (exec .coolingFaultClear (small 0)) = small 0 := by decide +kernel

/-- Berth 1 of two, at a temperature. -/
def hotBerth (s : State) (x : Berth) : State := { s with berths := [(1, x)] }

theorem witness_berthShutdown :
    (let s := hotBerth (small 0) { th := 104999 }
     after (exec (.berthShutdown 1) s) = s) ∧
    (let s := hotBerth (small 0) { th := 105000 }
     let t := after (exec (.berthShutdown 1) s)
     berthPart s 1 = some 0 ∧ (getPart t 0).resetting = true ∧ (getPart t 0).cause = 1 ∧ (getBerth t 1).stopped = true ∧
     codes t = [0x0602]) ∧
    (let s := hotBerth { up 0 with ident := { part := 2 } } { th := 105000 }
     let t := after (exec (.berthShutdown 1) s)
     berthPart s 1 = none ∧ (getBerth t 1).hold = true ∧ (getSite t 1).epoch = 1) := by decide +kernel

theorem witness_berthShutdownAtBoot :
    (let s := hotBerth { small 0 with rst := {} } { th := 105000 }
     let t := after (exec (.berthShutdown 1) s)
     berthPart s 1 = some 0 ∧ s.rst.ready = false ∧ (getBerth t 1).hold = true ∧ t.sec.droppedSources = 1) := by decide +kernel

theorem witness_thermalHold :
    (let s := hotBerth (small 0) { hold := true, stopped := true }
     let t := after (exec (.thermalHoldEnd 1 84999) s)
     (getBerth t 1).hold = false ∧ (getSite t 1).epoch = 1 ∧ t.sent = [.epoch 1 1] ∧
     after (exec (.thermalHoldEnd 1 85000) s) = s ∧ after (exec (.berthShutdown 1) s) = s) ∧
    (let s := { small 0 with io := { asleep := true } }
     let t := after (exec (.alwaysOnThermalSample [0, 85000] 44999 84999) s)
     t.thermal.alarm = true ∧ t.io.wakeCode = 6 ∧ codes t = [0x0602] ∧
     (after (exec (.alwaysOnThermalSample [84999] 44999 84999) s)).io.asleep = true ∧
     (after (exec (.alwaysOnThermalSample [84999] 44999 84999) s)).thermal.tIn = 44999 ∧
     (after (exec (.alwaysOnThermalSample [] 45000 0) s)).io.asleep = false) ∧
    after (exec (.alwaysOnThermalSample [85000] 0 0) (small 0)) = small 0 := by decide +kernel

/-! ## Resets, boot, the harbour and the registers -/

/-- A reset of a cause that set Tide's time 0 again and left the mailboxes empty. -/
def wasReset (t : State) (code : Nat) : Bool := !t.rst.ready && t.rst.cause == code && t.rst.step == 1 && t.mbx == []

theorem witness_resetSources :
    (let s := owned 1000
     let t := after (exec (.resetN false 1000) s)
     wasReset t 3 = true ∧ t.rst.heldByPin = true ∧ after (exec (.resetN false 1000) t) = t ∧
     (after (exec (.resetN true 0) t)).rst.heldByPin = false ∧ (after (exec (.resetN true 0) t)).rst.time0 = 1000 ∧
     after (exec (.resetN true 0) s) = s ∧ after (exec (.resetN false 999) s) = s) ∧
    powered (owned 9) = true ∧ wasReset (after (exec .watchdog (owned 9))) 4 = true ∧
    (after (exec .watchdog (owned 9))).recovery.dumps.map (·.number) = [0] ∧ wasReset (after (exec .hmLockup (owned 9))) 8 = true ∧
    (wasReset (after (exec (.resetReq 0 0x8000000000005253) (owned 9))) 5 = true ∧
     after (exec (.resetReq 0 0x8000000000005252) (owned 9)) = owned 9 ∧
     after (exec (.resetReq 8 0x8000000000005253) (owned 9)) = owned 9 ∧ after (exec (.resetReq 0 0x5253) (owned 9)) = owned 9) ∧
    (let s := { owned 9 with harbour := { members := 0x1F, links := [(0, { state := .up })] } }
     let t := after (exec (.resetReq 0 0x8000000000005253) s)
     let u := { s with harbour := { s.harbour with master := 1 } }
     5 ≤ harbourSize s ∧ isMaster s = true ∧ s.harbour.noMaster = false ∧ s.harbour.resetAt = none ∧ t.harbour.resetAt.isSome = true ∧
     (getLink t 0).entryAt.isSome = true ∧ t.rst = s.rst ∧ t.sent.length = 4 ∧
     let v := { s with harbour := { s.harbour with resetAt := some 5 } }
     isMaster u = false ∧ (after (exec (.resetReq 0 0x8000000000005253) u)).sent.length = 1 ∧
     after (exec (.resetReq 0 0x8000000000005253) v) = v) ∧
    (let s := { owned 9 with sec := { (owned 9).sec with debug := true } }
     wasReset (after (exec .jtagResetInstruction s)) 6 = true) ∧
    after (exec .jtagResetInstruction (owned 9)) = owned 9 ∧
    (let s := { owned 9 with ctxs := [(0, { state := .opened }), (63, { state := .opened, place := 4, gen := 7 })] }
     let t := after (exec (.pcieHotReset .linkDown) s)
     powered s = true ∧ s.rst.pcieUp = true ∧ (getCtx t 63).state = .closed ∧ (getCtx t 63).gen = 8 ∧
     getCtx t 0 = getCtx s 0 ∧ t.io.numVFs = 0) := by decide +kernel

/-- Partition 7, of virtual function 8, with berth 7 alone. -/
def vfOwned : State :=
  { up 9 with sec := { breakwater := { parts := List.replicate 7 {} ++ [{ valid := true, function := 8, berths := 0x80 }] }, sealed := true }
              io := { numVFs := 1 } }

theorem witness_partitionReset :
    (let s := { vfOwned with ctxs := [(63, { state := .opened, gen := 255 })] }
     let t := after (exec (.vfFlr 8) s)
     vfPart s 8 = some 7 ∧ fnPresent s 8 = true ∧ s.rst.pcieUp = true ∧ s.rst.ready = true ∧ (getPart s 7).resetting = false ∧ (getPart t 7).resetting = true ∧
     (getPart t 7).cause = 3 ∧ (getPart t 7).gen = 1 ∧ (getCtx t 63).gen = 0 ∧ (getSite t 7).epoch = 1 ∧ (getSite t 6).epoch = 0) ∧
    (let s := { vfOwned with io := { numVFs := 2 } }
     fnPresent s 8 = false ∧ after (exec (.vfFlr 8) s) = s) ∧
    (vfPart vfOwned 1 = none ∧ after (exec (.vfFlr 1) vfOwned) = vfOwned) ∧
    (let t := after (exec (.partitionReset 7 0x10) vfOwned)
     (partRecord vfOwned 7).valid = true ∧ (getPart t 7).cause = 1 ∧ after (exec (.partitionReset 7 0x12) t) = t ∧
     (getPart (after (exec (.partitionResetDone 7) t)) 7).resetting = false ∧
     .epoch 7 1 ∈ (after (exec (.partitionResetDone 7) t)).sent) ∧
    (let s := { vfOwned with rst := {} }
     s.rst.ready = false ∧ (after (exec (.partitionReset 7 0x11) s)).sec.droppedSources = 1 ∧ (partRecord s 0).valid = false ∧
     (after (exec (.partitionReset 0 0x11) s)).sec.droppedSources = 1) ∧
    ((partRecord vfOwned 0).valid = false ∧ vfOwned.rst.ready = true ∧ after (exec (.partitionReset 0 0x11) vfOwned) = vfOwned) ∧
    (let s := { after (exec (.partitionReset 7 0x10) vfOwned) with berths := [(7, { stopped := true })] }
     (getPart s 7).resetting = true ∧ (getBerth (after (exec (.partitionResetDone 7) s)) 7).hold = true) ∧
    after (exec (.partitionResetDone 0) vfOwned) = vfOwned := by decide +kernel

/-- A module that boots: the last release step taken and the stage in progress. -/
def boot (step stage t : Nat) : State := { small t with rst := { step := step, stage := stage }, sec := {} }
def stage (o : BootObs) (s : State) : State := after (exec (.bootStageDone o) s)

theorem witness_release :
    ((after (exec .releaseStep (boot 1 0 32000))).tide.refRunning = true ∧
     after (exec .releaseStep (boot 1 0 31999)) = boot 1 0 31999) ∧
    (after (exec .releaseStep (boot 2 0 64000))).rst.step = 3 ∧ after (exec .releaseStep (boot 3 0 200000000)) = boot 3 0 200000000 ∧
    (after (exec .releaseStep (boot 3 1 200000000))).rst.step = 4 ∧
    (let s := { boot 7 1 200128000 with harbour := { hbrPos := 0x98, hbrMembers := 0x1000001 } }
     let t := after (exec .releaseStep s)
     t.harbour.posValid = true ∧ t.harbour.pos = 24 ∧ t.harbour.members = 0x1000001 ∧ (getLink t 0).state = .training ∧
     (getLink t 1).state = .disabled ∧ t.harbour.rejoining = true) ∧
    (let s := { boot 7 1 200128000 with harbour := { hbrPos := 0x99, hbrMembers := 0x1FFFFFF } }
     let t := after (exec .releaseStep s)
     t.harbour.posValid = false ∧ t.harbour.members = 1 ∧ codes t = [0x0503]) ∧
    (let t := after (exec .releaseStep (boot 7 1 200128000))
     t.harbour.posValid = false ∧ codes t = []) ∧
    (let s := { boot 7 1 200128000 with harbour := { hbrPos := 0x80, hbrMembers := 0x1000001 }, rst := { step := 7, stage := 1, cause := 1 } }
     let t := after (exec .releaseStep s)
     t.harbour.master = 0 ∧ t.harbour.noMaster = false ∧ t.harbour.rejoining = false ∧ codes t = []) ∧
    (let s := { boot 7 1 200128000 with harbour := { hbrPos := 0x98, hbrMembers := 0x1000002 } }
     let t := after (exec .releaseStep s)
     t.harbour.pos = 24 ∧ t.harbour.noMaster = true ∧ codes t = [0x0501]) ∧
    (after (exec .releaseStep (boot 8 1 200160000))).rst.pcieUp = true ∧
    (after (exec .releaseStep (boot 8 1 200160000))).rst.pcieAt = 200160000 ∧
    after (exec .releaseStep (boot 9 1 300000000)) = boot 9 1 300000000 := by decide +kernel

set_option maxRecDepth 100000 in
theorem witness_bootStages :
    stage {} (boot 2 0 0) = boot 2 0 0 ∧ (stage {} (boot 3 0 0)).rst.stage = 1 ∧
    (let t := stage { slotA := false, romHmA := false } (boot 3 0 0)
     t.rst.stage = 1 ∧ t.recovery.active = 1 ∧ codes t = [0x0702]) ∧
    (let t := stage { slotA := false, slotB := false } (boot 3 0 0)
     t.rst.romRecovery = true ∧ stage {} t = t) ∧
    stage {} (boot 8 1 0) = boot 8 1 0 ∧ (stage {} (boot 9 1 0)).rst.stage = 2 ∧ stage {} (boot 9 2 0) = boot 9 2 0 ∧
    (let s := { boot 9 2 0 with tide := { locked := true } }
     (stage {} s).rst.stage = 3 ∧ (stage {} s).io.sris = false ∧ (stage { refclk := none } s).io.sris = true ∧
     (stage { refclk := some (-301) } s).io.sris = true ∧ (stage { refclk := some 300 } s).io.sris = false) ∧
    (stage {} (boot 9 3 0)).ident.modIdRev = 0x4853021121211111 ∧ (stage {} (boot 9 4 0)).rst.stage = 5 ∧
    (let s := boot 9 4 0
     let t := stage { lanes := [⟨0, 48, 3, 63, 0⟩, ⟨0, 48, 5, 64, -901⟩, ⟨0, 48, 7, 64, -900⟩] } s
     hasPair s 0 48 = true ∧ (getPair s 0 48).stripe = List.range 16 ∧
     (getPair t 0 48).stripe = [0, 1, 2, 4, 6, 7, 8, 9, 10, 11, 12, 13, 14, 15, 16, 17]) ∧
    ((stage {} (boot 9 5 0)).rst.stage = 6 ∧ (stage { slotA := false, slotB := false } (boot 9 5 0)).rst.stalledB5 = true ∧
     (stage { floor := (2, 5) } (boot 9 5 0)).sec.floor = (2, 5) ∧
     releaseLt (slotRelease (boot 9 5 0) 0) (boot 9 5 0).sec.floor = false) ∧
    (stage {} (boot 9 6 0)).rst.stage = 7 ∧ (getEngine (stage { enobs := [(5, [])] } (boot 9 6 0)) 0 5).reason = 6 ∧ (getPart (stage {} (boot 9 7 0)) 7).key = 1 ∧
    (let t := stage {} (boot 9 8 0)
     t.sec.sealed = true ∧ t.io.numVFs = vfCount t ∧ codes t = [0x0701] ∧ (stage {} { t with rst := { step := 9, stage := 8 } }).sec = t.sec) ∧
    (let s := { boot 9 9 0 with harbour := { links := [(23, { state := .training })] } }
     codes (stage {} s) = [0x0107]) ∧
    (let s := { boot 9 10 7 with mbx := [(8, { pending := true })] }
     let t := stage {} s
     t.rst.ready = true ∧ t.rst.readyTide = 7 ∧ stage {} t = t ∧
     ((getMbx t 8).accepted = true ∨ (getMbx t 8).result.isSome = true)) ∧
    (after (exec .readyTimeout (boot 9 4 4999999999)) = boot 9 4 4999999999 ∧
     wasReset (after (exec .readyTimeout (boot 9 4 5000000000))) 1 = true ∧
     (after (exec .readyTimeout (boot 9 4 5000000000))).rst.failedResets = 1 ∧
     after (exec .readyTimeout (owned 9)) = owned 9) ∧
    (let s := { boot 9 4 5000000000 with rst := { step := 9, stage := 4, failedResets := 1 } }
     (after (exec .readyTimeout s)).power.cycleReq = true) := by decide +kernel

/-- A module of two berths with a dead site. -/
def deadSite (k : Nat) : State := updSite (small 9) k (fun x => { x with dead := true })

theorem witness_recovery :
    (hasSite (small 9) 48 = true ∧ after (exec (.siteRecovery 48 true) (small 9)) = small 9) ∧
    (let s := { deadSite 1 with berths := [(1, { hold := true })] }
     siteKind 1 = .berth 1 ∧ after (exec (.siteRecovery 1 true) s) = s) ∧
    (let t := after (exec (.siteRecovery 1 false) (deadSite 1))
     (getBerth (deadSite 1) 1).hold = false ∧ berthResetting (deadSite 1) 1 = false ∧ (getSite t 1).retired = true) ∧
    (let t := after (exec (.siteRecovery 1 true) (deadSite 1))
     (getSite t 1).dead = false ∧ (getSite t 1).epoch = 1 ∧ t.sent = [.epoch 1 1] ∧ codes t = [0x0301]) ∧
    (siteKind 47 = .quay 7 ∧ (getSite (after (exec (.siteRecovery 47 false) (deadSite 47))) 47).retired = true) ∧
    (siteKind 48 = .harbourmaster ∧ wasReset (after (exec (.siteRecovery 48 false) (deadSite 48))) 0x11 = true) ∧
    (let t := after (exec (.hmSwitchover true) (small 9))
     t.recovery.active = 1 ∧ t.recovery.hmA.testing = true ∧ t.recovery.lastSwitch = 9 ∧ 0x0402 ∈ codes t ∧
     after (exec (.hmSwitchover false) t) = t) ∧
    (let s := { small 9 with recovery := { hmA := { faults := [0] } } }
     within 86400000000000 9 [0] ≠ [] ∧ (after (exec (.hmSwitchover true) s)).recovery.hmA.retired = true) ∧
    (let s := { small 10000000000 with recovery := { active := 1 } }
     (after (exec .hmHandback s)).recovery.active = 0 ∧ codes (after (exec .hmHandback s)) = [0x0402]) ∧
    (let s := { small 9999999999 with recovery := { active := 1 } }
     after (exec .hmHandback s) = s) ∧
    (after (exec .tamperSealBreak (small 9))).sec.sealBroken = true := by decide +kernel

/-- A rung in progress since Tide 0. -/
def rungAt (rung reach unit t : Nat) : State := { small t with recovery := { rungs := [(rung, reach, unit, 0)] } }

theorem witness_rungs :
    after (exec (.escalationRungDeadline 1 8 3) (small 9)) = small 9 ∧
    after (exec (.escalationRungDeadline 1 8 3) (rungAt 1 8 3 999999)) = rungAt 1 8 3 999999 ∧
    (getPart (after (exec (.escalationRungDeadline 1 8 3) (rungAt 1 8 3 1000000))) 0).resetting = true ∧
    berthPart (rungAt 1 8 3 1000000) 1 = some 0 ∧
    (let t := after (exec (.escalationRungDeadline 2 31 15) (rungAt 2 31 15 5000000))
     (getEngine t 1 15).rotation = .left ∧ (getPart t 0).resetting = true) ∧
    wasReset (after (exec (.escalationRungDeadline 3 0 0) (rungAt 3 0 0 200000000))) 0x11 = true := by decide +kernel

/-- Position 0 of a harbour of 0, 1 and 24, master; its links to 1 and to 24 in given states. -/
def haven (a b : Link) (t : Nat) : State :=
  { up t with harbour :=
      { pos := 0
        members := 0x1000003
        posValid := true
        latched := true
        links := [(0, a), (23, b)] } }
def upLink : Link := { state := .up, lanes := 32 }

/-- The training word that the end of link 23 at position 24 sends, with a refusal code or without. -/
def goodWord (s : State) (lanes refused : Nat) : TrainWord :=
  let w : TrainWord :=
    { cfgCrc := cfgCrc s, members := 0x1000003, link := 0, pos := 24, part := 8, check := 0, lanes := lanes, lanesBack := lanes,
      refused := refused }
  { w with check := Config.crc32 (trainBits w) }

/-- Every link of `haven` that trains accepts that word. -/
theorem goodWord_accepted (a b : Link) (t lanes refused : Nat) :
    trainRefusal (haven a b t) 23 (goodWord (haven a b t) lanes refused) = none := by
  unfold trainRefusal goodWord
  generalize cfgCrc (haven a b t) = c
  rw [if_neg, if_neg, if_neg, if_neg, if_neg]
  all_goals exact fun h => h rfl

/-- A word that names another link is refused with code 3. -/
theorem wrongLink_refused (a b : Link) (t : Nat) :
    trainRefusal (haven a b t) 23 (
      let w : TrainWord := { cfgCrc := cfgCrc (haven a b t), members := 0x1000003, link := 1, pos := 24, part := 8, check := 0 }
      { w with check := Config.crc32 (trainBits w) }) = some 3 := by
  unfold trainRefusal
  generalize cfgCrc (haven a b t) = c
  rw [if_neg, if_neg, if_pos]
  · exact fun h => Nat.noConfusion h
  all_goals exact fun h => h rfl

theorem witness_training :
    (let s := haven upLink { state := .training } 9
     let t := linkUp s 23 (goodWord s 32 0)
     hasLink 23 = true ∧ (getLink s 23).state = .training ∧ (getLink s 23).again = false ∧ (getLink t 23).state = .up ∧
     (getLink t 23).lanes = 32 ∧ (getMember t 24).part = 8 ∧ codes t = [] ∧ codes (linkUp s 23 (goodWord s 31 0)) = [0x0107] ∧
     (getLink (linkUp s 23 (goodWord s 34 0)) 23).spares = 2 ∧ (goodWord s 32 5).refused = 5 ∧ bothLanes (goodWord s 15 0) = 15 ∧
     trainingWord s 0 (goodWord s 32 0) = s) ∧
    (let s := haven {} { state := .training } 9
     let t := refuseLink s 23 3
     (getLink t 23).state = .refused ∧ (getLink t 23).refusal = 3 ∧ codes t = [0x0106]) ∧
    (let s := haven {} { state := .training, again := true, retrainFails := 1 } 9
     (getLink (refuseLink s 23 1) 23).state = .linkReset ∧ codes (refuseLink s 23 1) = [0x0107]) := by decide +kernel

theorem witness_linkTimers :
    ((getLink (after (exec (.linkRetrainTimer 23) (haven {} { state := .refused } 1000000000))) 23).state = .training ∧
     (getLink (after (exec (.linkRetrainTimer 23) (haven {} { state := .refused } 999999999))) 23).state = .refused) ∧
    ((getLink (after (exec (.linkNoFrame 0) (haven upLink {} 100000))) 0).state = .linkReset ∧
     after (exec (.linkNoFrame 0) (haven upLink {} 99999)) = haven upLink {} 99999) ∧
    (let l : Link := { state := .training, again := true }
     let t := after (exec (.linkNoFrame 23) (haven {} l 200000))
     (getLink t 23).state = .training ∧ (getLink t 23).retrains = 1 ∧ (getLink t 23).retrainFails = 1 ∧
     after (exec (.linkNoFrame 23) (haven {} l 199999)) = haven {} l 199999 ∧
     (getLink (after (exec (.linkNoFrame 23) (haven {} { l with retrainFails := 1 } 200000))) 23).state = .linkReset) ∧
    (let l : Link := { state := .training }
     codes (after (exec (.linkNoFrame 23) (haven {} l 5000000))) = [0x0107] ∧
     after (exec (.linkNoFrame 23) (haven {} l 4999999)) = haven {} l 4999999) ∧
    (let s := haven {} { state := .linkReset } 9
     harbourSize s = 3 ∧ (getLink (after (exec (.linkRelease 23) s)) 23).state = .training ∧
     (after (exec (.linkRelease 23) s)).sent.length = 1) ∧
    (let s := haven {} { state := .linkReset, releaseAt := some 9 } 9
     let u := { s with harbour := { s.harbour with members := 0x100000F } }
     4 < harbourSize u ∧ instantCome u (some 9) = true ∧ (getLink (after (exec (.linkRelease 23) u)) 23).state = .training) ∧
    (let s := haven {} { state := .linkReset, releaseAt := some 10 } 9
     let u := { s with harbour := { s.harbour with members := 0x100000F } }
     4 < harbourSize u ∧ instantCome u (some 10) = false ∧ after (exec (.linkRelease 23) u) = u) ∧
    (let s := haven {} { upLink with entryAt := some 9 } 9
     let u := { s with harbour := { s.harbour with resetAt := some 9 } }
     ownReset s = false ∧ (getLink (after (exec (.linkResetEntryInstant 23) s)) 23).state = .linkReset ∧
     ownReset u = true ∧ wasReset (after (exec (.linkResetEntryInstant 23) u)) 5 = true) ∧
    (let s := haven {} { upLink with entryAt := some 10 } 9
     after (exec (.linkResetEntryInstant 23) s) = s) := by decide +kernel

/-- What is seen of a frame: a good own frame, an idle one, transit to a link, and one that does not decode. -/
def ownFrame : LinkFrameObs := { decodes := true, idle := false, aboveHalf := false }
def idleFrame : LinkFrameObs := { decodes := true, idle := true, aboveHalf := true }
def transitTo (k : Nat) : LinkFrameObs := { decodes := true, idle := false, aboveHalf := false, transit := true, transitTo := k }
def badCode : LinkFrameObs := { decodes := false, idle := false, aboveHalf := false }

/-- One frame on link 23. -/
def frame (b : Link) (o : LinkFrameObs) : State :=
  let s := haven upLink b 9
  after (exec (.linkFrame 23 o) { s with harbour := { s.harbour with routes := [(routeKey 1 24, .relay 0)] } })

/-- Whatever room a partner's buffers have, a frame without units fits in them, and one of 65 536 units of RSP does not. -/
theorem witness_transitFits : transitFits upLink [] = true ∧ transitFits upLink [1, 65536] = false := by
  have h := (Config.transitBuffer 1).isLt
  constructor
  · simp [transitFits, upLink, List.range_succ]
  · simp only [transitFits, upLink, List.range_succ, List.range_zero, List.nil_append, List.cons_append, List.all_cons,
      List.getD_cons_zero, List.getD_cons_succ, Bool.and_eq_false_iff, decide_eq_false_iff_not]
    exact .inr (.inl (by omega))

theorem witness_linkFrames :
    ((getLink (frame upLink ownFrame) 23).own = 1 ∧ (getLink (frame upLink idleFrame) 23).idleDeleted = 1 ∧
     (getLink (frame upLink { idleFrame with marker := true }) 23).idleDeleted = 0 ∧
     (getLink (frame upLink { idleFrame with marker := true }) 23).markers = 1 ∧
     (getLink (frame upLink (transitTo 5)) 23).transit = 0) ∧
    (let s := { haven upLink upLink 9 with harbour := { (haven upLink upLink 9).harbour with routes := [(routeKey 1 24, .relay 0)] } }
     relaysHere s 23 0 = true ∧ (getLink s 0).transitWait = [] ∧ (getLink s 0).transitOwed = [0, 0, 0, 0]) ∧
    (getLink (frame { upLink with codewords := 1, badInRun := 1 } badCode) 23).state = .linkReset ∧
    (getLink (frame { upLink with codewords := 1000000000, badInRun := 1 } badCode) 23).state = .up ∧
    (getLink (frame { upLink with fails := 15 } badCode) 23).state = .training ∧
    (getLink (frame { upLink with fails := 14 } badCode) 23).fails = 15 ∧
    (getLink (frame {} ownFrame) 23).own = 0 := by decide +kernel

/-- Its routes. -/
def routed (s : State) (r : Tab Route2) (d : List (Nat × Nat × Route2)) : State :=
  { s with harbour := { s.harbour with routes := r, drains := d } }

theorem witness_routes :
    (let s := haven upLink { state := .linkReset } 1000000
     let t := after (exec (.relayRouteTimer 0 ⟨24, none⟩) s)
     isPair s 0 24 = true ∧ getRoute s 0 24 = .direct ∧ mustMove s 0 ⟨24, none⟩ = true ∧ chooseRelay s 0 24 = some 1 ∧
     t.harbour.drains = [(0, 24, .relay 1)] ∧ t.sent = [.drain 0 24 (.relay 1)]) ∧
    (let s := haven {} { state := .linkReset } 1000000
     chooseRelay s 0 24 = none ∧ (after (exec (.relayRouteTimer 0 ⟨24, none⟩) s)).harbour.drains = [(0, 24, .none)]) ∧
    (let s := haven upLink { state := .linkReset } 999999
     linkFor s 0 24 false 1000000 = false ∧ after (exec (.relayRouteTimer 0 ⟨24, none⟩) s) = s) ∧
    (let s := routed (haven {} { state := .linkReset } 9) [(24, .relay 1)] []
     isMaster s = true ∧ relayLost s 0 24 1 = true ∧ mustMove s 0 ⟨24, none⟩ = true) ∧
    (let s0 := routed (haven upLink { state := .linkReset } 9) [(24, .relay 2)] []
     let s := { s0 with harbour := { s0.harbour with master := 1 } }
     isMaster s = false ∧ mustMove s 0 ⟨24, some 2⟩ = false ∧ mustMove s 0 ⟨24, some 1⟩ = true ∧
     (after (exec (.relayRouteTimer 0 ⟨24, some 1⟩) s)).harbour.drains = [(0, 24, .relay 1)]) ∧
    (let s := routed (haven upLink upLink 10000000000) [(24, .relay 1)] []
     getRoute s 0 24 ≠ .direct ∧ (after (exec (.routeReturnTimer 0 24) s)).harbour.drains = [(0, 24, .direct)]) ∧
    (let s := routed (haven upLink upLink 9999999999) [(24, .relay 1)] []
     after (exec (.routeReturnTimer 0 24) s) = s) ∧
    (let s := routed (haven upLink {} 9) [] [(0, 24, .relay 1)]
     let t := after (exec (.routeDrainDone 0 ⟨24, [24, 1], [1, 24]⟩) s)
     s.harbour.noMaster = false ∧ ownDrained s 0 24 = true ∧ othersDrained s 0 ⟨24, [24, 1], [1, 24]⟩ (.relay 1) = true ∧
     getRoute t 0 24 = .relay 1 ∧ t.harbour.drains = [] ∧
     othersDrained s 0 ⟨24, [24], [24]⟩ (.relay 1) = false ∧ after (exec (.routeDrainDone 0 ⟨24, [24], [24]⟩) s) = s) ∧
    (let s0 := routed (haven upLink {} 9) [] [(0, 24, .relay 1)]
     let s := { s0 with harbour := { s0.harbour with master := 1 } }
     (after (exec (.routeDrainDone 0 ⟨24, [], []⟩) s)).sent = [.drained 0 24, .written 0 24]) ∧
    (let s := { routed (haven upLink {} 9) [] [(0, 24, .relay 1)] with
        reqs := { out := [{ req := load0 1, dstPos := 24, dstSite := 8 }] } }
     ownDrained s 0 24 = false ∧ after (exec (.routeDrainDone 0 ⟨24, [24, 1], [24, 1]⟩) s) = s) ∧
    after (exec (.routeDrainDone 0 ⟨24, [], []⟩) (haven {} {} 9)) = haven {} {} 9 := by decide +kernel

/-- Position 1 of a harbour of two, its master at position 0. -/
def slave (g : TideGroup) (t : Nat) : State :=
  { up t with
    tide := { g with count := t * 2 ^ 32, mode := .reference }
    harbour :=
      { pos := 1
        members := 3
        posValid := true
        latched := true
        rejoining := true
        links := [(23, upLink)] } }

theorem witness_tideServo :
    (let s := haven upLink {} 9
     isMaster s = true ∧ feeds s 0 = true ∧ (after (exec .tideSyncSend s)).sent = [.tideSync 0 144 none] ∧
     (getLink (after (exec (.tideDelayExchange 0 100 160 170 210) s)) 0).stamps = some (160, 170)) ∧
    after (exec .tideSyncSend (slave {} 9)) = slave {} 9 ∧
    (let s := slave {} 9
     tideSource s 23 = true ∧ tideSource s 0 = false ∧ after (exec (.tideSyncMessage 0 5 5) s) = s ∧
     (after (exec (.tideSyncMessage 23 5 5) s)).harbour.lastSync = 9) ∧
    (let t := after (exec (.tideSyncMessage 23 124 100) (slave { firstLock := true, holdover := some 1, relaxed := [2] } 9))
     t.tide.offset16 = 24 ∧ t.tide.rate = 6442 ∧ t.tide.relaxed = [] ∧ t.tide.holdover = none ∧ codes t = [0x0502]) ∧
    (let t := after (exec (.tideSyncMessage 23 125 100) (slave { firstLock := true } 9))
     t.tide.offset16 = 25 ∧ t.tide.relaxed = [1] ∧ codes t = [0x0502]) ∧
    (let t := after (exec (.tideDelayExchange 23 100 160 170 210) (slave {} 9))
     (getLink t 23).delay16 = 50 ∧ t.tide.offset16 = 10 ∧ now t = 9) ∧
    (let t := after (exec (.tideFirstLock 5) (slave {} 9))
     now t = 5 ∧ t.tide.firstLock = true ∧ t.sent = [.rejoin 23 8] ∧ codes t = [0x0502] ∧
     after (exec (.tideFirstLock 6) t) = t) ∧
    (let s := { slave {} 9 with harbour := { (slave {} 9).harbour with noMaster := true } }
     let t := learnMaster s 23
     after (exec (.tideFirstLock 5) s) = s ∧ tideSource s 23 = false ∧ t.harbour.noMaster = false ∧ tideSource t 23 = true ∧
     codes t = [0x0501] ∧ (after (exec (.tideSyncMessage 23 5 5) s)).harbour.lastSync = 9) ∧
    (let s := haven upLink {} 9
     let t := learnMaster s 0
     isMaster s = true ∧ s.tide.firstLock = false ∧ partnerOf (ownPos s) 0 ≠ firstHop s s.harbour.master ∧ t.harbour.master = 1 ∧
     t.harbour.rejoining = true) ∧
    ((after (exec .holdoverExpiry (slave { holdover := some 0 } 1000000000))).tide.relaxed = [2] ∧
     after (exec .holdoverExpiry (slave { holdover := some 0 } 999999999)) = slave { holdover := some 0 } 999999999 ∧
     after (exec .holdoverExpiry (slave {} 9)) = slave {} 9) ∧
    (let s0 := slave { holdover := some 0 } 2500000
     let s := { s0 with harbour := { s0.harbour with noMaster := true } }
     s.tide.holdover = some 0 ∧ s.harbour.noMaster = true ∧ 0 + 2500000 ≤ now s ∧
     (after (exec .holdoverExpiry s)).tide.relaxed = [3]) ∧
    (let t := after (exec .masterSyncLoss (slave {} 1000000))
     t.tide.holdover = some 0 ∧ t.tide.relaxed = [4] ∧ t.sent = [.claim 2] ∧ t.harbour.claimAt = some 1000000 ∧
     after (exec .masterSyncLoss t) = t) ∧
    after (exec .masterSyncLoss (slave {} 999999)) = slave {} 999999 := by decide +kernel

/-- A slave with a claim sent at Tide 0. -/
def claiming (l : Link) (t : Nat) : State :=
  let s := slave {} t
  { s with harbour := { s.harbour with claimAt := some 0, links := [(23, l)] } }

/-- Position 1, acting master since position 0 was lost, which returned at Tide 0. -/
def acting (at_ : Option Nat) (t : Nat) : State :=
  let s := slave { rate := 5 } t
  { s with harbour := { s.harbour with master := 1, returnedAt := some 0, handbackAt := at_ } }

theorem witness_liveness :
    (let s := haven upLink {} 9
     let t := after (exec (.heartbeat 24 8) s)
     (memberList s).contains 24 = true ∧ (getMember t 24).heartbeat = 9 ∧ t.sent = [memberInfo s 24 8] ∧
     (after (exec (.heartbeat 24 8) t)).sent = t.sent ∧ after (exec (.heartbeat 2 8) s) = s) ∧
    (let t := after (exec (.heartbeatTimeout 24 false) (haven upLink {} 1000000))
     (getMember t 24).dead = true ∧ t.sent = [.dead 24 none] ∧ codes t = [0x0501]) ∧
    after (exec (.heartbeatTimeout 24 false) (haven upLink {} 999999)) = haven upLink {} 999999 ∧
    (let s := slave {} 9
     (getMember (after (exec (.deadDeclaration 0 none) s)) 0).dead = true ∧
     tabGet false (after (exec (.deadDeclaration 0 (some 48)) s)).harbour.deadSites 48 = true ∧
     after (exec (.deadDeclaration 1 none) s) = s ∧ after (exec (.deadDeclaration 24 (some 0)) s) = s ∧
     (after (exec (.deadDeclaration 24 (some 0)) (haven {} {} 9))).sent = [.dead 24 (some 0)]) ∧
    (let t := after (exec (.claimCollect []) (claiming upLink 200000))
     reaches (claiming upLink 200000) = 2 ∧ t.harbour.master = 1 ∧ t.harbour.noMaster = false ∧ t.sent = [.announce 1 200000] ∧
     0x0501 ∈ codes t) ∧
    (let t := after (exec (.claimCollect [⟨0, 2⟩]) (claiming upLink 200000))
     t.harbour.master = 0 ∧ t.sent = []) ∧
    (let t := after (exec (.claimCollect []) (claiming {} 200000))
     reaches (claiming {} 200000) = 1 ∧ t.harbour.noMaster = true ∧ t.tide.relaxed = []) ∧
    (let s0 := claiming {} 2500000
     let s := { s0 with tide := { s0.tide with holdover := some 0 } }
     s.tide.holdover = some 0 ∧ 0 + 2500000 ≤ now s ∧ (after (exec (.claimCollect []) s)).tide.relaxed = [3]) ∧
    after (exec (.claimCollect []) (claiming upLink 199999)) = claiming upLink 199999 ∧
    after (exec (.claimCollect []) (slave {} 9)) = slave {} 9 := by decide +kernel

theorem witness_masterAndRejoin :
    (let s := acting none 10000000000
     let t := after (exec .masterHandback s)
     zeroStable s = true ∧ s.harbour.members.getLsbD 0 = true ∧ t.harbour.handbackAt = some 10001000000 ∧
     t.sent = [.announce 0 10001000000] ∧ after (exec .masterHandback t) = t) ∧
    (let t := after (exec .masterHandback (acting (some 10001000000) 10001000000))
     t.harbour.master = 0 ∧ t.harbour.handbackAt = none ∧ t.tide.rate = 5 ∧ codes t = [0x0501]) ∧
    (let s := acting none 9999999999
     zeroStable s = false ∧ after (exec .masterHandback s) = s) ∧
    (let s := haven upLink {} 9
     let t := after (exec (.rejoinRequest 24 4) s)
     getMember t 24 = { part := 4, heartbeat := 9 } ∧ tableEpoch t 24 48 = 1 ∧ codes t = [0x0501] ∧
     t.sent = [memberInfo t 0 8, memberInfo t 1 (getMember s 1).part, memberInfo t 24 4] ∧ after (exec (.rejoinRequest 2 4) s) = s) ∧
    (let s := haven upLink {} 9
     let u := { s with harbour := { s.harbour with members := 0x100000F } }
     let t := after (exec (.rejoinRequest 24 4) u)
     5 ≤ harbourSize u ∧ isMaster u = true ∧ t.sent.length = 11) := by decide +kernel

/-- The fault-event ring of 16 entries, in DRAM or in host memory, enabled. -/
def ringEvent : FaultEv := { code := 0x0702, arg := 7 }
def feOn (host : Bool) : FaultGroup := { base := 0x1000, enable := true, hostRing := host, log2S := 4, arriving := [ringEvent] }
def feState (f : FaultGroup) : State := { owned 0 with faults := f }

theorem witness_eventRing :
    (let s := feState { feOn false with arriving := [] }
     s.faults.enable = true ∧ barOpen s = true ∧ after (exec (.registerWrite (.bar0 0) 0x40 [1#8, 2#8, 3#8, 4#8]) s) = s ∧
     after (exec (.registerWrite (.bar0 0) 0x40 (List.replicate 8 0xFF#8)) s) = s ∧
     (after (exec (.feEnable 0xE0000005) s)).faults = { s.faults with irq := true } ∧
     after (exec (.registerWrite (.bar0 0) 0x48 (bytesLE 8 0x80000005)) s) = s) ∧
    (let t := after (exec (.feDisable 0x40000000) (feState (feOn true)))
     t.faults.enable = false ∧ t.faults.irq = true ∧ t.faults.held = [ringEvent] ∧ t.faults.arriving = [] ∧ t.faults.log2S = 4) ∧
    (let s := feState { base := 0x1000 }
     feAccepts s (s.faults.feFields 0xA0000004) = true ∧ (after (exec (.feEnable 0xA0000004) s)).faults.enable = true ∧
     (after (exec (.feEnable 0xA0000003) s)).faults.rejected = true ∧ (after (exec (.feEnable 0xA0000003) s)).faults.log2S = 3 ∧
     (after (exec (.feDisable 5) s)).faults.log2S = 5) ∧
    (barOpen {} = false ∧ after (exec (.feEnable 0xA0000004) {}) = {}) ∧
    (let s := feState { feOn false with tail := 16 }
     (after (exec (.feHeadWrite 16) s)).faults.head = 16 ∧ after (exec (.feHeadWrite 17) s) = s) := by decide +kernel

theorem witness_delivery :
    (let t := after (exec .faultEventDelivery (feState (feOn true)))
     (feOn true).nextEvent = some (ringEvent, { feOn true with arriving := [] }) ∧ t.faults.tail = 1 ∧ t.faults.arriving = [] ∧
     readHost t 0x1000 32 = bytesLE 32 (eventEntry ringEvent (phaseOf 0 16)) ∧ t.sent = []) ∧
    (let s := feState (feOn false)
     addrPos (feSlot s.faults 0) = ownPos s ∧ placeOf 8 (addrLocal (feSlot s.faults 0)) = .dram 0 ∧
     loadBytes (after (exec .faultEventDelivery s)) 0x1000 32 = bytesLE 32 (eventEntry ringEvent (phaseOf 0 16))) ∧
    (let s := feState { feOn true with tail := 16 }
     2 ^ s.faults.log2S ≤ (s.faults.tail - s.faults.head).toNat ∧ after (exec .faultEventDelivery s) = s) ∧
    (let f := { feOn true with replay := [{ ringEvent with replayed := true }] }
     f.nextEvent = some ({ ringEvent with replayed := true }, { f with replay := [] })) ∧
    (let s := feState { unlogged := [ringEvent] }
     (after (exec .errorLogWrite s)).faults.log = [ringEvent] ∧ (after (exec .errorLogWrite s)).faults.logCount = 1) ∧
    after (exec .errorLogWrite (owned 0)) = owned 0 := by decide +kernel

theorem witness_managementPort :
    ((after (exec (.mpDynamicAddress 9) {})).io.mpDynamic = some 9 ∧
     (after (exec (.dumpCtrl 0x70003) {})).io.dumpWindow = 7 ∧ (after (exec (.dumpCtrl 0x70003) {})).io.dumpRecord = 3 ∧
     (after (exec .dumpWindowLoaded {})).io.dumpReady = true) ∧
    (let s : State := { rst := { romRecovery := true } }
     imgActive s = true ∧ (after (exec (.imgCommit 0x50100) s)).io.imgState = 2 ∧
     (after (exec (.imgCommit 0x50100) s)).io.imgWindow = 5 ∧ after (exec .imgVerifyDone s) = s) ∧
    (bitAt 0x100 8 = true ∧ after (exec (.imgCommit 0x100) {}) = {}) ∧
    ((after (exec (.mpWriteTransaction 8 [0xFF#8]) {})).harbour.hbrPos = 0x9F ∧
     (after (exec (.mpWriteTransaction 12 (List.replicate 4 0xFF#8)) {})).harbour.hbrMembers = 0x1FFFFFF ∧
     after (exec (.mpWriteTransaction 12 (List.replicate 3 0xFF#8)) {}) = {} ∧
     after (exec (.mpWriteTransaction 0x400 [0#8]) {}) = {} ∧
     after (exec (.mpWriteTransaction 8 [0xFF#8]) dark) = dark ∧ dark.power.alwaysOn = false) ∧
    (let s := owned 0
     hasFn 8 = true ∧ fnPresent s 8 = false ∧ after (exec (.registerWrite (.bar0 8) 0x140 (List.replicate 8 0xFF#8)) s) = s ∧
     barAligned 0x101 4 = false ∧ after (exec (.registerWrite (.bar0 0) 0x101 (List.replicate 4 0xFF#8)) s) = s ∧
     (getMbx (after (exec (.registerWrite (.bar0 0) 0x100 (List.replicate 64 0xFF#8)) s)) 0).req = 2 ^ 512 - 1) ∧
    (let s : State := { owned 0 with mbx := [(0, { pending := true })] }
     after (exec (.registerWrite (.bar0 0) 0x100 (List.replicate 64 0xFF#8)) s) = s ∧ after (exec (.mbxCtrlGo 0 0x100000000) s) = s) ∧
    (let s := vfOwned
     let t := after (exec (.mbxCtrlGo 8 0xABCD000100000007) s)
     fnPresent s 8 = true ∧ (getMbx s 8).pending = false ∧
     (getMbx t 8).pending = true ∧ (getMbx t 8).goTag = 0xABCD ∧ (getMbx t 8).goVector = 7) := by decide +kernel

theorem witness_configSpace :
    (let s := owned 100000000
     configOpen s = true ∧ configRead s 0 = .ids pcieVendorId (pcieDeviceId s 0) ∧ fnPresent s 3 = false ∧
     configRead s 3 = .absent ∧ (after (exec (.registerWrite (.numVFs 0) 0 [3#8, 0#8]) s)).io.numVFs = 3 ∧
     after (exec (.registerWrite (.numVFs 8) 0 [3#8, 0#8]) s) = s) ∧
    (let s := owned 99999999
     configOpen s = false ∧ s.rst.pcieUp = true ∧ now s < s.rst.pcieAt + 100000000 ∧ configRead s 0 = .none ∧
     after (exec (.registerWrite (.numVFs 0) 0 [3#8, 0#8]) s) = s) := by decide +kernel

/-- The image that waits for its verification: the outcome is what the signature says. -/
theorem witness_imgVerify :
    let s : State := { rst := { romRecovery := true }, io := { imgState := 2 } }
    powered s = true ∧ imgActive s = true ∧ s.io.imgState = 2 ∧
    (after (exec .imgVerifyDone s)).io.imgState = if imgGood s = true then 3 else 4 := by
  refine ⟨by decide +kernel, by decide +kernel, rfl, ?_⟩
  simp only [exec, execImgVerifyDone, imgVerify]
  cases imgGood _ <;> rfl


/-! ## Indicators and identity (Table 17-14, R512) -/

/-- Boot in progress: amber, steady; no always-on supply: off. -/
theorem test_statusLight :
    statusLight State.reset = .amberSteady ∧
    statusLight { State.reset with power := { State.reset.power with alwaysOn := false } } = .off ∧
    presenceLight State.reset = .off := by decide +kernel

/-- A GL8 module: Device ID 0x4708, and 0x4718 for a virtual function. -/
theorem test_pcieDeviceId :
    pcieDeviceId { State.reset with ident := { State.reset.ident with part := 8 } } 0 = 0x4708 ∧
    pcieDeviceId { State.reset with ident := { State.reset.ident with part := 8 } } 3 = 0x4718 := by decide

/-! ## Ciphers and signatures (R251, R441) -/

/-- The example of AES-256 in the standard's appendix: key 00 to 1F, block 00112233 … FF. -/
theorem test_aes256 :
    aes256 ((List.range 32).map (BitVec.ofNat 8)) ((List.range 16).map (fun i => BitVec.ofNat 8 (17 * i))) =
      [0x8E, 0xA2, 0xB7, 0xCA, 0x51, 0x67, 0x45, 0xBF, 0xEA, 0xFC, 0x49, 0x90, 0x4B, 0x49, 0x60, 0x89] := by decide +kernel

/-- The example of SHA-384 in the standard: the digest of the three bytes "abc". -/
theorem test_sha384 :
    sha384 [0x61#8, 0x62#8, 0x63#8] =
      0xcb00753f45a35e8bb5a03d699ac65007272c32ab0eded1631a8b605a43ff5bed8086072ba1e7cc2358baeca134c825a7 := by
  decide +kernel

/-- The base point lies on the curve, and so does its double, whose first coordinate is the published one. -/
theorem test_p384 : onCurve p384G = true ∧ (addPoint (some p384G) (some p384G)).any onCurve = true ∧
    (addPoint (some p384G) (some p384G)).map (·.1) = some
      0x08d999057ba3d2d969260045c55b97f089025959a6f434d651d207d19fb96e9e4fe0e86ebe0e64f85b96a9c75295df61 := by
  decide +kernel
end Sys2Proof.Tests
end

section
/-! SUPPORT. Which commands stop: every arm of `exec` is one change of the state behind one question, whether the units the
command names exist. And what a request that only reads answers. -/

namespace Sys2Proof.Machine

/-- Each arm asks for the units it names and then answers one next state; an arm that names no unit asks nothing. -/
theorem exec_eq_guarded (c : Instr) (s : State) : ∃ t, exec c s = guarded (unitsPresent s c) t := by
  cases c <;> exact ⟨_, rfl⟩

/-- Settles O6, by the one guard of every arm of `exec`. -/
theorem commandStopsOnlyOnAbsentUnit : Obligations.CommandStopsOnlyOnAbsentUnit := by
  intro c s
  obtain ⟨t, ht⟩ := exec_eq_guarded c s
  refine ⟨fun h => ⟨t, ?_⟩, fun h => ?_⟩
  · simp [ht, h, guarded]
  · simp [ht, h, guarded]

/-- A request whose effect is a reading is answered S_OK with the bytes read, over the state as it was. -/
theorem blunen_reads {s : State} {r : Route} {op : Nat} {a : Asked} (reads : Asked → List Byte) (h : Asks s r op a) :
    ∃ t, blunen s r op (fun a => (s, okReply (reads a))) = .next t ∧ Replied s t r S_OK 0 (reads a) :=
  blunen_replied (res := ⟨S_OK, 0, reads a⟩) h rfl rfl (fun _ _ => rfl)

/-- Settles O7: the three requests are readings. -/
theorem readingRequestsReply : Obligations.ReadingRequestsReply := by
  unfold Obligations.ReadingRequestsReply
  refine ⟨fun s r a h => ?_, fun s r a h => ?_, fun s r a h => ?_⟩
  · exact blunen_reads (fun _ => _) h
  · exact blunen_reads (fun _ => _) h
  · exact blunen_reads (fun _ => _) h

end Sys2Proof.Machine
end

section
/-! SUPPORT. What every command keeps: the queue of waiting commands and PART. One lemma for each function that changes the
state, by the branches of its definition and the lemmas of the functions it calls, in the order of the model's files; the
commands of a file stand with its functions. -/

namespace Sys2Proof.Machine

/-- The same commands wait in `t` as in `s`, on the same variant. -/
@[simp, reducible] def Keeps (s t : State) : Prop := t.pending = s.pending ∧ t.ident.part = s.ident.part

/-- Every next state that the outcome answers keeps the queue and the variant of `s`. -/
def KeepsOut (s : State) (o : Out) : Prop := ∀ t, o = .next t → Keeps s t

theorem Keeps.trans {s t u : State} (h : Keeps s t) (k : Keeps t u) : Keeps s u := ⟨k.1.trans h.1, k.2.trans h.2⟩

@[simp] theorem Keeps.foldl {α : Type} {f : State → α → State} (h : ∀ t x, Keeps t (f t x)) (l : List α) (s : State) :
    Keeps s (l.foldl f s) :=
  ⟨foldl_keeps State.pending (fun t x => (h t x).1) l s, foldl_keeps (·.ident.part) (fun t x => (h t x).2) l s⟩

/-- Both figures of a choice are the choice of the figures: how `simp` goes through a branch inside a larger term. -/
theorem pending_part_ite (p : Prop) [Decidable p] (a b : State) :
    (if p then a else b).pending = (if p then a.pending else b.pending) ∧
    (if p then a else b).ident.part = (if p then a.ident.part else b.ident.part) := by split <;> simp

@[simp] theorem keepsOut_next {s t : State} : KeepsOut s (.next t) ↔ Keeps s t := by simp [KeepsOut]

@[simp] theorem keepsOut_guarded {s t : State} (p : Bool) (h : Keeps s t) : KeepsOut s (guarded p t) := by
  intro u hu
  obtain ⟨-, rfl⟩ := (guarded_next).1 hu
  exact h

variable (s : State)

/-! ## Shared operations -/

variable {s} in
@[simp] theorem keeps_onceReleased {t : State} (k : Nat) (h : Keeps s t) : Keeps s (onceReleased s k t) := by
  unfold onceReleased
  split
  · exact h
  · exact ⟨rfl, rfl⟩

/-- Stated of any state, so that a chain of changes is never unfolded to compare its ends. -/
theorem keeps_updEngine (b e : Nat) (f : Engine → Engine) : Keeps s (updEngine s b e f) := ⟨rfl, rfl⟩

@[simp] theorem keeps_updCrossing (a b : Nat) (f : Crossing → Crossing) :
    Keeps s (updCrossing s a b f) := ⟨rfl, rfl⟩
@[simp] theorem keeps_countEvents (a b n : Nat) : Keeps s (countEvents s a b n) := by
  simp only [countEvents]; split <;> simp
@[simp] theorem keeps_msix (fn vector : Nat) : Keeps s (msix s fn vector) := by
  simp only [msix]; split <;> simp

/-! ## Memory accesses and doorbells -/

@[simp] theorem keeps_linkSend (k : Nat) (m : OutMsg) : Keeps s (linkSend s k m) := by simp [linkSend]
@[simp] theorem keeps_doorbellHalf (c : Nat) (cq : Bool) (v : W32) : Keeps s (doorbellHalf s c cq v) := by
  simp only [doorbellHalf]; (repeat' split) <;> simp

@[simp] theorem keeps_mirrorWrite (off : Nat) (bs : List Byte) : Keeps s (mirrorWrite s off bs) := by
  unfold mirrorWrite
  refine Keeps.foldl (fun t x => ?_) _ _
  split <;> simp

@[simp] theorem keeps_clearPoison (loc len : Nat) : Keeps s (clearPoison s loc len) := by simp [clearPoison]

@[simp] theorem keeps_storeCounters (loc : Nat) (bs : List Byte) : Keeps s (storeCounters s loc bs) := by
  unfold storeCounters
  refine Keeps.foldl (fun t x => ?_) _ _
  split <;> simp

@[simp] theorem keeps_storeBytes (a : Nat) (bs : List Byte) : Keeps s (storeBytes s a bs) := by
  simp only [storeBytes]; (repeat' split) <;> simp
@[simp] theorem keeps_storeRuns (l : List (Nat × Byte)) : Keeps s (storeRuns s l) := by simp [storeRuns]
@[simp] theorem keeps_storeFrom (src : Nat) (l : List (Nat × Byte)) : Keeps s (storeFrom s src l) := by simp [storeFrom]
@[simp] theorem keeps_touchDram (loc : Nat) (write : Bool) : Keeps s (touchDram s loc write) := by
  simp only [touchDram]; split <;> simp

@[simp] theorem keeps_touchRange (a len : Nat) (write : Bool) : Keeps s (touchRange s a len write) := by
  simp only [touchRange]
  split
  · simp
  · refine Keeps.foldl (fun t x => ?_) _ _
    split <;> simp

@[simp] theorem keeps_countStale (src a len : Nat) : Keeps s (countStale s src a len) := by simp [countStale]
@[simp] theorem keeps_addCounter (a : Nat) (v : W64) : Keeps s (addCounter s a v) := by
  simp only [addCounter]; (repeat' split) <;> simp
@[simp] theorem keeps_addFrom (src a : Nat) (v : W64) : Keeps s (addFrom s src a v).1 := by
  simp only [addFrom]; (repeat' split) <;> simp

/-! ## Requests at their source -/

@[simp] theorem keeps_setFlow (f : FlowId) (x : Flow) : Keeps s (setFlow s f x) := ⟨rfl, rfl⟩
@[simp] theorem keeps_stopContext (c addr : Nat) : Keeps s (stopContext s c addr) := by
  simp only [stopContext]; split <;> simp
@[simp] theorem keeps_dropHeldOf (p : CmdId → Bool) : Keeps s (dropHeldOf s p) := ⟨rfl, rfl⟩
@[simp] theorem keeps_stopTug (id : CmdId) : Keeps s (stopTug s id) := by simp [stopTug]
@[simp] theorem keeps_noteOut (o : OutReq) (st detail : Nat) : Keeps s (noteOut s o st detail) := by
  simp only [noteOut]; (repeat' split) <;> simp
@[simp] theorem keeps_wakeLanes (src dst : Nat) : Keeps s (wakeLanes s src dst) := by
  simp only [wakeLanes]; split <;> simp
@[simp] theorem keeps_sendReq (o : OutReq) : Keeps s (sendReq s o) := by
  simp only [sendReq]; split <;> simp
@[simp] theorem keeps_issueTracked (r : WireReq) (p : Purpose) : Keeps s (issueTracked s r p) := by
  simp only [issueTracked]; (repeat' split) <;> simp
@[simp] theorem keeps_issueNew (r : WireReq) : Keeps s (issueNew s r) := by simp [issueNew]
@[simp] theorem keeps_untrack (tag : Nat) : Keeps s (untrack s tag) := ⟨rfl, rfl⟩
@[simp] theorem keeps_issueHeld (o : OutReq) (swell : Bool) : Keeps s (issueHeld s o swell) := by
  simp only [issueHeld]; (repeat' split) <;> simp
@[simp] theorem keeps_useTag (n : Nat) : Keeps s (useTag s n) := ⟨rfl, rfl⟩
@[simp] theorem keeps_issueWork (r : WireReq) (p : Purpose) : Keeps s (issueWork s r p) := by simp [issueWork]

@[simp] theorem keeps_issueLoads (c : Cmd) (p : Purpose) (a len : Nat) : Keeps s (issueLoads s c p a len) := by
  unfold issueLoads
  refine Keeps.foldl (fun t x => ?_) _ _
  split <;> simp

@[simp] theorem keeps_issueStores (c : Cmd) (p : Purpose) (a : Nat) (bs : List Byte) :
    Keeps s (issueStores s c p a bs) := by
  unfold issueStores
  refine Keeps.foldl (fun t x => ?_) _ _
  (repeat' split) <;> simp

@[simp] theorem keeps_issueResults (c : Cmd) (l : List (Nat × Byte)) : Keeps s (issueResults s c l) := by
  simp [issueResults]
@[simp] theorem keeps_sendAddition (c : Cmd) (a : Nat) (v : W64) : Keeps s (sendAddition s c a v).1 := by
  simp only [sendAddition]; split <;> simp

/-! ## Power domains and their crossings -/

@[simp] theorem keeps_parkDomain (d : Nat) : Keeps s (parkDomain s d) := by
  unfold parkDomain
  refine Keeps.foldl (fun t x => ?_) _ _
  split <;> simp

@[simp] theorem keeps_finishPark (d : Nat) : Keeps s (finishPark s d) := by
  unfold finishPark
  refine Keeps.foldl (fun t x => ?_) _ _
  split <;> simp

@[simp] theorem keeps_unparkDomain (d : Nat) : Keeps s (unparkDomain s d) := by simp [unparkDomain]
@[simp] theorem keeps_blockReset (hit : Nat → Bool) : Keeps s (blockReset s hit) := by simp [blockReset]

@[simp] theorem keeps_pushDomain (d : Nat) (st : DomState) (who : Option Route) :
    Keeps s (pushDomain s d st who) := by
  simp only [pushDomain]; split <;> simp

@[simp] theorem keeps_pushVia (d : Nat) (st : DomState) (who : Option Route) : Keeps s (pushVia s d st who) := by
  simp only [pushVia]; split <;> simp
@[simp] theorem keeps_wakeDomain (d : Nat) : Keeps s (wakeDomain s d) := by
  simp only [wakeDomain]; split <;> simp
@[simp] theorem keeps_wakeEngine (b e : Nat) : Keeps s (wakeEngine s b e) := by simp [wakeEngine]
@[simp] theorem keeps_beginSet (d : Nat) (st : DomState) (r : Route) : Keeps s (beginSet s d st r) := by
  simp only [beginSet]; (repeat' split) <;> simp

@[simp] theorem keeps_releaseWaiting : Keeps s (releaseWaiting s) := by
  unfold releaseWaiting
  refine Keeps.foldl (fun t d => ?_) _ _
  (repeat' split) <;> simp

@[simp] theorem keeps_wakeFor (b : Nat) (c : Cmd) : Keeps s (wakeFor s b c) := by
  refine Keeps.trans ?_ (Keeps.foldl (fun t x => ?_) _ _)
  · simp
  · split <;> simp

@[simp] theorem keeps_wakeModule (code : Nat) (same : List Nat) (returns : List Nat) :
    Keeps s (wakeModule s code same returns) := by
  simp only [wakeModule]; split <;> simp

/-! ## The plan of an optical command -/

@[simp] theorem keeps_joinRotation (c : Cmd) : Keeps s (joinRotation s c) := by simp [joinRotation]

/-! ## Contexts, engines, berths and the module reset -/

@[simp] theorem keeps_withdrawSets (p : Route → Bool) : Keeps s (withdrawSets s p) := by simp [withdrawSets]
@[simp] theorem keeps_endCtx (c : Nat) (g : BitVec 8 → BitVec 8) : Keeps s (endCtx s c g) := by simp [endCtx]
@[simp] theorem keeps_abortCtx (c : Nat) : Keeps s (abortCtx s c) := by simp [abortCtx]
@[simp] theorem keeps_abortOnEngine (b e : Nat) : Keeps s (abortOnEngine s b e) := by simp [abortOnEngine]
@[simp] theorem keeps_beginEngineReset (b e : Nat) : Keeps s (beginEngineReset s b e) :=
  (keeps_abortOnEngine s b e).trans (keeps_updEngine _ b e _)
@[simp] theorem keeps_takeRung (rung reach unit site : Nat) : Keeps s (takeRung s rung reach unit site) := by
  simp [takeRung]
@[simp] theorem keeps_noteRung (rung reach unit : Nat) : Keeps s (noteRung s rung reach unit) := by
  simp only [noteRung]; split <;> simp
@[simp] theorem keeps_endRung (rung reach : Nat) : Keeps s (endRung s rung reach) := ⟨rfl, rfl⟩
@[simp] theorem keeps_writeDump : Keeps s (writeDump s) := by simp [writeDump]
@[simp] theorem keeps_zeroBerth (dram : Bool) (b : Nat) : Keeps s (zeroBerth s dram b) := ⟨rfl, rfl⟩
@[simp] theorem keeps_takeOver (b : Nat) : Keeps s (takeOver s b) := ⟨rfl, rfl⟩
@[simp] theorem keeps_resetBerth (dram : Bool) (b : Nat) : Keeps s (resetBerth s dram b) := by simp [resetBerth]
@[simp] theorem keeps_switchLayers : Keeps s (switchLayers s) := ⟨rfl, rfl⟩
@[simp] theorem keeps_closeRanges (b : Nat) : Keeps s (closeRanges s b) := by simp [closeRanges]
@[simp] theorem keeps_beginPartitionReset (p cause : Nat) : Keeps s (beginPartitionReset s p cause) := by
  simp only [beginPartitionReset]; (repeat' split) <;> simp
@[simp] theorem keeps_resetBerthRung (b cause : Nat) : Keeps s (resetBerthRung s b cause) := by
  simp only [resetBerthRung]; split <;> simp
@[simp] theorem keeps_moduleReset (code : Nat) : Keeps s (moduleReset s code) := by simp [moduleReset]
@[simp] theorem keeps_dumpReset (code : Nat) : Keeps s (dumpReset s code) := by simp [dumpReset]

/-! ## Fetch, start and mailbox requests -/

@[simp] theorem keepsOut_execSqTail (path : DoorbellPath) (ctx : Nat) (value : W32) :
    KeepsOut s (execSqTail path ctx value s) := by
  simp [execSqTail, pending_part_ite]

@[simp] theorem keepsOut_execCqHead (path : DoorbellPath) (ctx : Nat) (value : W32) :
    KeepsOut s (execCqHead path ctx value s) := by
  simp [execCqHead, pending_part_ite]

@[simp] theorem keeps_issueSlot (c : Nat) (id : Option CmdId) (k : ReqKind) (a len : Nat) :
    Keeps s (issueSlot s c id k a len) := by
  simp only [issueSlot]; split <;> simp

@[simp] theorem keeps_writeSlot (host : Bool) (a : Nat) (bs : List Byte) : Keeps s (writeSlot s host a bs) := by
  simp only [writeSlot]; split <;> simp
@[simp] theorem keeps_touchSlot (host : Bool) (a : Nat) : Keeps s (touchSlot s host a) := by
  simp only [touchSlot]; split <;> simp
@[simp] theorem keeps_settleLimit (c : Nat) : Keeps s (settleLimit s c) := by simp [settleLimit]
@[simp] theorem keeps_takeCommand (c p n : Nat) : Keeps s (takeCommand s c p n) := by simp [takeCommand]
@[simp] theorem keeps_fetchCommand (c : Nat) : Keeps s (fetchCommand s c) := by
  simp only [fetchCommand]; (repeat' split) <;> simp
@[simp] theorem keepsOut_execCommandFetch (ctx : Nat) : KeepsOut s (execCommandFetch ctx s) := by
  simp [execCommandFetch]
@[simp] theorem keeps_startCmd (c : Cmd) : Keeps s (startCmd s c) := by simp [startCmd]
@[simp] theorem keeps_tryStart (c : Cmd) : Keeps s (tryStart s c) := by
  simp only [tryStart]; (repeat' split) <;> simp
@[simp] theorem keeps_startCommand (id : CmdId) : Keeps s (startCommand s id) := by
  simp only [startCommand]; (repeat' split) <;> simp
@[simp] theorem keepsOut_execCommandStart (id : CmdId) : KeepsOut s (execCommandStart id s) := by
  simp [execCommandStart]
@[simp] theorem keeps_mbxCheck (fn : Nat) : Keeps s (mbxCheck s fn) := by
  simp only [mbxCheck]; (repeat' split) <;> simp
@[simp] theorem keeps_mbxCtrl (fn : Nat) (v : W64) : Keeps s (mbxCtrl s fn v) := by
  simp only [mbxCtrl]; (repeat' split) <;> simp
@[simp] theorem keepsOut_execMbxCtrlGo (fn : Nat) (value : W64) : KeepsOut s (execMbxCtrlGo fn value s) := by
  simp [execMbxCtrlGo, pending_part_ite]
@[simp] theorem keeps_markServed (r : Route) : Keeps s (markServed s r) := by
  simp only [markServed]; split <;> simp
@[simp] theorem keeps_answer (r : Route) (res : MbxResult) : Keeps s (answer s r res) := by
  simp only [answer]; (repeat' split) <;> simp

variable {s} in
@[simp] theorem keepsOut_blunen {f : Asked → State × Option MbxResult} (r : Route) (op : Nat)
    (h : ∀ a, Keeps s (f a).1) : KeepsOut s (blunen s r op f) := by
  refine keepsOut_guarded _ ?_
  split
  · simp
  · next a _ =>
    have ha := h a
    split <;> simp_all

/-! ## Service and retirement of engines -/

@[simp] theorem keeps_retire (site : Nat) (r : Retirement) : Keeps s (retire s site r) := by simp [retire]
@[simp] theorem keeps_countTransient (site : Nat) : Keeps s (countTransient s site) := by simp [countTransient]
@[simp] theorem keeps_redealEngine (b e : Nat) : Keeps s (redealEngine s b e) := by simp [redealEngine]
@[simp] theorem keeps_endWithoutEngines (b : Nat) : Keeps s (endWithoutEngines s b) := by simp [endWithoutEngines]

@[simp] theorem keeps_gatherResult (code : Nat) (fail : Bool) (enob us : Nat) (r : Route) :
    Keeps s (gatherResult code fail enob us s r) := by
  simp only [gatherResult]; split <;> simp

@[simp] theorem keeps_closeTest (fail : Bool) (enob us : Nat) (t : TestReq) :
    Keeps s (closeTest fail enob us s t) := by
  simp [closeTest]

@[simp] theorem keeps_dropTests (el : Element) : Keeps s (dropTests s el) := by simp [dropTests]
@[simp] theorem keeps_leaveService (b e reason : Nat) : Keeps s (leaveService s b e reason) := by
  simp only [leaveService]; split <;> simp
@[simp] theorem keeps_flagRotation (b e : Nat) (f : TallyAcc → TallyAcc) : Keeps s (flagRotation s b e f) := by
  simp [flagRotation]

@[simp] theorem keeps_spareLines (b e : Nat) (ls : List Nat) : Keeps s (spareLines s b e ls) := by
  unfold spareLines
  refine Keeps.foldl (fun t x => ?_) _ _
  split <;> simp

@[simp] theorem keeps_spareRows (b e : Nat) (rs : List Nat) : Keeps s (spareRows s b e rs) := by
  unfold spareRows
  refine Keeps.foldl (fun t x => ?_) _ _
  split <;> simp

@[simp] theorem keeps_spareAll (b e : Nat) (lines rows : List Nat) : Keeps s (spareAll s b e lines rows) := by
  simp only [spareAll]; (repeat' split) <;> simp
@[simp] theorem keeps_flagCmd (id : CmdId) (f : TallyAcc → TallyAcc) : Keeps s (flagCmd s id f) := by simp [flagCmd]

/-! ## The work of a started command -/

variable {s} in
@[simp] theorem keepsOut_onStarted {f : Cmd → State} (id : CmdId) (op : Nat) (h : ∀ c, Keeps s (f c)) :
    KeepsOut s (onStarted s id op f) := by
  refine keepsOut_guarded _ ?_
  (repeat' split) <;> simp [h]

@[simp] theorem keeps_finishCmd (id : CmdId) (st : Option (Nat × Nat)) (results : List (Nat × Byte)) :
    Keeps s (finishCmd s id st results) := by
  simp [finishCmd]

@[simp] theorem keeps_guaranteeBroken (c : Cmd) (g : Nat) : Keeps s (guaranteeBroken s c g) := by
  simp only [guaranteeBroken]; split <;> simp
@[simp] theorem keeps_latencyBroken (c : Cmd) : Keeps s (latencyBroken s c) := by simp [latencyBroken]
@[simp] theorem keeps_markHeld (c : Cmd) : Keeps s (markHeld s c) := by simp [markHeld]
@[simp] theorem keeps_settleHeld (c : Cmd) : Keeps s (settleHeld s c) := by
  simp only [settleHeld]; (repeat' split) <;> simp

@[simp] theorem keeps_awake (c : Cmd) (l : List Touch) {f : State → State} (h : ∀ t, Keeps t (f t)) :
    Keeps s (awake s c l f) := by
  unfold awake
  dsimp only
  (repeat' split) <;> simp [h]

@[simp] theorem keeps_readMarks (c : Cmd) (p : Purpose) (t : Touch) : Keeps s (readMarks s c p t) := by
  simp only [readMarks]; split <;> simp

@[simp] theorem keeps_finishWork (c : Cmd) (ts : List Touch) (st : Option (Nat × Nat)) (results : List (Nat × Byte)) :
    Keeps s (finishWork s c ts st results) := by
  simp [finishWork]

/-! ## Digital operators -/

@[simp] theorem keeps_finishProduct (c : Cmd) (ts : List Touch) (w : Product) :
    Keeps s (finishProduct s c ts w) := by
  simp [finishProduct]

@[simp] theorem keeps_runDigital (c : Cmd) (ts : List Touch) (work : State → Product) :
    Keeps s (runDigital s c ts work) := by
  simp only [runDigital]; split <;> simp

/-! ## Commands of the operators -/

@[simp] theorem keepsOut_execMatmul (id : CmdId) : KeepsOut s (execMatmul id s) := by simp [execMatmul]
@[simp] theorem keepsOut_execConvert (id : CmdId) : KeepsOut s (execConvert id s) := by simp [execConvert]
@[simp] theorem keepsOut_execTranspose (id : CmdId) : KeepsOut s (execTranspose id s) := by simp [execTranspose]
@[simp] theorem keepsOut_execEwise (id : CmdId) : KeepsOut s (execEwise id s) := by simp [execEwise]
@[simp] theorem keepsOut_execTableFn (id : CmdId) : KeepsOut s (execTableFn id s) := by simp [execTableFn]
@[simp] theorem keepsOut_execReduce (id : CmdId) : KeepsOut s (execReduce id s) := by simp [execReduce]
@[simp] theorem keepsOut_execSoftmax (id : CmdId) : KeepsOut s (execSoftmax id s) := by simp [execSoftmax]
@[simp] theorem keeps_beginOptical (c : Cmd) (ts : List Touch) : Keeps s (beginOptical s c ts) := by
  simp only [beginOptical]; (repeat' split) <;> simp
@[simp] theorem keepsOut_execOptMatmul (id : CmdId) : KeepsOut s (execOptMatmul id s) := by simp [execOptMatmul]
@[simp] theorem keepsOut_execAttention (id : CmdId) : KeepsOut s (execAttention id s) := by
  simp [execAttention, pending_part_ite]

/-! ## Collectives -/

@[simp] theorem keeps_setColls (l : List Collective) : Keeps s (setColls s l) := ⟨rfl, rfl⟩
@[simp] theorem keeps_stageMember (v : State) (cmds : List Cmd) (c : Cmd) : Keeps s (stageMember v cmds s c) := by
  simp [stageMember]
@[simp] theorem keeps_runMembers (cmds : List Cmd) : Keeps s (runMembers s cmds) := by simp [runMembers]
@[simp] theorem keeps_foundCollective (c : Cmd) : Keeps s (foundCollective s c) := by simp [foundCollective]
@[simp] theorem keeps_joinCollective (c : Cmd) : Keeps s (joinCollective s c) := by
  simp only [joinCollective]; (repeat' split) <;> simp
@[simp] theorem keeps_collWork (c : Cmd) : Keeps s (collWork s c) := by
  simp only [collWork]; (repeat' split) <;> simp
@[simp] theorem keepsOut_execAllReduce (id : CmdId) : KeepsOut s (execAllReduce id s) := by simp [execAllReduce]
@[simp] theorem keepsOut_execAllGather (id : CmdId) : KeepsOut s (execAllGather id s) := by simp [execAllGather]
@[simp] theorem keepsOut_execReduceScatter (id : CmdId) : KeepsOut s (execReduceScatter id s) := by
  simp [execReduceScatter]
@[simp] theorem keepsOut_execBroadcast (id : CmdId) : KeepsOut s (execBroadcast id s) := by simp [execBroadcast]
@[simp] theorem keeps_settleColls : Keeps s (settleColls s) := by simp [settleColls]
@[simp] theorem keeps_meet (remoteAgree : Bool) (k : Collective) : Keeps s (meet remoteAgree s k) := by
  simp only [meet]; (repeat' split) <;> simp

@[simp] theorem keepsOut_execCollectiveRendezvous (collId : Nat) (remoteAgree : Bool) :
    KeepsOut s (execCollectiveRendezvous collId remoteAgree s) := by
  simp [execCollectiveRendezvous]

/-! ## Graphs -/

@[simp] theorem keeps_setSlot (p slot : Nat) (g : GraphSlot) : Keeps s (setSlot s p slot g) := ⟨rfl, rfl⟩
@[simp] theorem keeps_graphLoad (c : Cmd) : Keeps s (graphLoad s c) := by
  simp only [graphLoad]; (repeat' split) <;> simp
@[simp] theorem keepsOut_execGraphLoad (id : CmdId) : KeepsOut s (execGraphLoad id s) := by simp [execGraphLoad]
@[simp] theorem keeps_graphUnload (c : Cmd) : Keeps s (graphUnload s c) := by
  simp only [graphUnload]; split <;> simp
@[simp] theorem keepsOut_execGraphUnload (id : CmdId) : KeepsOut s (execGraphUnload id s) := by simp [execGraphUnload]
@[simp] theorem keeps_updRun (id : CmdId) (f : GraphRunState → GraphRunState) :
    Keeps s (updRun s id f) := ⟨rfl, rfl⟩
@[simp] theorem keeps_finishRun (r : GraphRunState) : Keeps s (finishRun s r) := by
  simp only [finishRun]; split <;> simp
@[simp] theorem keeps_settleRun (id : CmdId) : Keeps s (settleRun s id) := by
  simp only [settleRun]; (repeat' split) <;> simp
@[simp] theorem keeps_abortNode (id : CmdId) (i j st detail : Nat) : Keeps s (abortNode s id i j st detail) := by
  simp only [abortNode]; split <;> simp
@[simp] theorem keeps_edgeStatus (id : CmdId) (producer st : Nat) : Keeps s (edgeStatus s id producer st) := by
  simp only [edgeStatus]; (repeat' split) <;> simp
@[simp] theorem keeps_beginRun (r : GraphRunState) : Keeps s (beginRun s r) := by simp [beginRun]
@[simp] theorem keeps_graphRun (c : Cmd) : Keeps s (graphRun s c) := by
  simp only [graphRun]; (repeat' split) <;> simp
@[simp] theorem keepsOut_execGraphRun (id : CmdId) : KeepsOut s (execGraphRun id s) := by simp [execGraphRun]
@[simp] theorem keeps_beginNode (m : Cmd) (i : Nat) : Keeps s (beginNode s m i) := by simp [beginNode]
@[simp] theorem keeps_endNode (id : CmdId) (i j st detail : Nat) : Keeps s (endNode s id i j st detail) := by
  simp [endNode]
@[simp] theorem keeps_nodeStart (id : CmdId) (i j : Nat) : Keeps s (nodeStart s id i j) := by
  simp only [nodeStart]; (repeat' split) <;> simp
@[simp] theorem keepsOut_execGraphNodeStart (id : CmdId) : KeepsOut s (execGraphNodeStart id s) := by
  simp only [execGraphNodeStart]; split <;> simp

@[simp] theorem keepsOut_execGraphEdgeStatus (id : CmdId) (producer : Nat) (status : Nat) :
    KeepsOut s (execGraphEdgeStatus id producer status s) := by
  simp [execGraphEdgeStatus]

@[simp] theorem keeps_deadNodes (pos : Nat) : Keeps s (deadNodes s pos) := by
  unfold deadNodes
  refine Keeps.foldl (fun t r => Keeps.foldl (fun u n => ?_) _ _) _ _
  dsimp only
  split <;> simp

@[simp] theorem keeps_nodeCompleted (c : Cmd) (i j : Nat) : Keeps s (nodeCompleted s c i j) := by
  simp only [nodeCompleted]; split <;> simp

/-! ## Results of optical commands -/

@[simp] theorem keeps_finishOptical (c : Cmd) (product : Nat) : Keeps s (finishOptical s c product) := by
  simp [finishOptical]
@[simp] theorem keeps_attentionMiddle (c : Cmd) : Keeps s (attentionMiddle s c) := by simp [attentionMiddle]
@[simp] theorem keeps_productDone (c : Cmd) : Keeps s (productDone s c) := by
  simp only [productDone]; (repeat' split) <;> simp

/-! ## Tests, runs and Lighthouses -/

@[simp] theorem keeps_queueTest (t : TestReq) : Keeps s (queueTest s t) := by simp [queueTest]
@[simp] theorem keeps_startTest (t : TestReq) : Keeps s (startTest s t) := ⟨rfl, rfl⟩
@[simp] theorem keeps_endTest (el : Element) : Keeps s (endTest s el) := ⟨rfl, rfl⟩
@[simp] theorem keeps_orderTest (el : Element) (code : Nat) (work : Option CmdId) :
    Keeps s (orderTest s el code work) := ⟨rfl, rfl⟩
@[simp] theorem keeps_lendBlocks (b e : Nat) : Keeps s (lendBlocks s b e) := by simp [lendBlocks]
@[simp] theorem keeps_startRun (s0 : State) (b e : Nat) : Keeps s0 (startRun s0 b e) := by
  simp only [startRun]; (repeat' split) <;> simp
@[simp] theorem keeps_engineBoundary (b e : Nat) : Keeps s (engineBoundary s b e) := by
  simp only [engineBoundary]; (repeat' split) <;> simp
@[simp] theorem keeps_berthBoundaries (b : Nat) : Keeps s (berthBoundaries s b) := by simp [berthBoundaries]
@[simp] theorem keeps_requeueTests (el : Element) : Keeps s (requeueTests s el) := ⟨rfl, rfl⟩
@[simp] theorem keeps_returnEngine (b e : Nat) : Keeps s (returnEngine s b e) := by simp [returnEngine]
@[simp] theorem keeps_engineTransient (b e : Nat) : Keeps s (engineTransient s b e).1 := by simp [engineTransient]
@[simp] theorem keeps_updQuayLh (q : Nat) (f : FabricPort → FabricPort) : Keeps s (updQuayLh s q f) := ⟨rfl, rfl⟩
@[simp] theorem keeps_updLh (lh : LighthouseId) (f : Lighthouse → Lighthouse) : Keeps s (updLh s lh f) := by
  simp only [updLh]; split <;> simp
@[simp] theorem keeps_retireLh (lh : LighthouseId) : Keeps s (retireLh s lh) := by
  simp only [retireLh]; split <;> simp
@[simp] theorem keeps_faultLh (lh : LighthouseId) : Keeps s (faultLh s lh) := by
  simp only [faultLh]; split <;> simp

/-! ## Engines -/

@[simp] theorem keeps_reloadBlock (b e : Nat) (r : Run) : Keeps s (reloadBlock s b e r) := by
  simp only [reloadBlock]; split <;> simp
@[simp] theorem keeps_bankLoadDone (b e : Nat) : Keeps s (bankLoadDone s b e) := by
  simp only [bankLoadDone]; (repeat' split) <;> simp
@[simp] theorem keepsOut_execBankLoadDone (berth engine : Nat) : KeepsOut s (execBankLoadDone berth engine s) := by
  simp [execBankLoadDone]
@[simp] theorem keeps_bankSwitch (b e : Nat) : Keeps s (bankSwitch s b e) := by
  simp only [bankSwitch]; split <;> simp
@[simp] theorem keepsOut_execBankSwitch (berth engine : Nat) : KeepsOut s (execBankSwitch berth engine s) := by
  simp [execBankSwitch]
@[simp] theorem keepsOut_execGuardEnd (berth engine : Nat) : KeepsOut s (execGuardEnd berth engine s) := by
  simp [execGuardEnd, pending_part_ite]
@[simp] theorem keeps_discardRun (b e : Nat) : Keeps s (discardRun s b e) := by
  simp only [discardRun]; (repeat' split) <;> simp
@[simp] theorem keeps_repeatRun (b e number : Nat) : Keeps s (repeatRun s b e number) := by
  simp only [repeatRun]; split <;> simp
@[simp] theorem keeps_lighthouseFault (b e : Nat) : Keeps s (lighthouseFault s b e) := by
  simp only [lighthouseFault]; (repeat' split) <;> simp
@[simp] theorem keeps_sweepForRun (b e : Nat) (r : Run) : Keeps s (sweepForRun s b e r) := by simp [sweepForRun]
@[simp] theorem keeps_retriesSpent (b e : Nat) (r : Run) : Keeps s (retriesSpent s b e r) := by simp [retriesSpent]
@[simp] theorem keeps_windowMismatch (b e : Nat) (r : Run) : Keeps s (windowMismatch s b e r) := by
  simp only [windowMismatch]; (repeat' split) <;> simp

@[simp] theorem keeps_windowClean (b e : Nat) (r : Run) (seg : Segment) (rows : List Int) :
    Keeps s (windowClean s b e r seg rows) := by
  simp [windowClean]

@[simp] theorem keeps_windowIdle (b e : Nat) (r : Run) : Keeps s (windowIdle s b e r) := by simp [windowIdle]

@[simp] theorem keeps_windowEnd (b e : Nat) (rows : List Int) (check : Int) (o : WindowSeen) :
    Keeps s (windowEnd s b e rows check o) := by
  simp only [windowEnd]; (repeat' split) <;> simp

@[simp] theorem keepsOut_execIntegrationWindowEnd (berth engine : Nat) (rows : List Int) (check : Int)
    (seen : WindowSeen) : KeepsOut s (execIntegrationWindowEnd berth engine rows check seen s) := by
  simp [execIntegrationWindowEnd]

@[simp] theorem keeps_commitRun (b e : Nat) (r : Run) (switched : Bool) : Keeps s (commitRun s b e r switched) := by
  simp only [commitRun]; (repeat' split) <;> simp

@[simp] theorem keeps_stageOutput (b e : Nat) (o : WindowOut) (r : Run) (switched : Bool) :
    Keeps s (stageOutput s b e o r switched) := by
  simp only [stageOutput]; (repeat' split) <;> simp

@[simp] theorem keeps_windowOutput (b e : Nat) : Keeps s (windowOutput s b e) := by
  simp only [windowOutput]; (repeat' split) <;> simp
@[simp] theorem keepsOut_execWindowOutput (berth engine : Nat) : KeepsOut s (execWindowOutput berth engine s) := by
  simp [execWindowOutput]

@[simp] theorem keepsOut_execHeaterTick (berth engine : Nat) (temp : Int) (combPpm : Nat) :
    KeepsOut s (execHeaterTick berth engine temp combPpm s) := by
  simp [execHeaterTick]

@[simp] theorem keeps_tapTick (b e : Nat) (ppm : List Nat) : Keeps s (tapTick s b e ppm) := by
  simp only [tapTick]; split <;> simp

@[simp] theorem keepsOut_execTapMonitorTick (berth engine : Nat) (linePpm : List Nat) :
    KeepsOut s (execTapMonitorTick berth engine linePpm s) := by
  simp [execTapMonitorTick]

@[simp] theorem keepsOut_execRateDetectorTick (berth engine : Nat) (slope : Int) :
    KeepsOut s (execRateDetectorTick berth engine slope s) := by
  simp [execRateDetectorTick]

@[simp] theorem keepsOut_execThermalResume (berth engine : Nat) (settled : Bool) :
    KeepsOut s (execThermalResume berth engine settled s) := by
  simp [execThermalResume, pending_part_ite]

@[simp] theorem keepsOut_execLighthouseFault (berth engine : Nat) :
    KeepsOut s (execLighthouseFault berth engine s) := by
  simp [execLighthouseFault]

@[simp] theorem keepsOut_execLhSwitchoverDone (berth engine : Nat) :
    KeepsOut s (execLhSwitchoverDone berth engine s) := by
  simp [execLhSwitchoverDone, pending_part_ite]

@[simp] theorem keepsOut_execEngineReset (berth engine : Nat) : KeepsOut s (execEngineReset berth engine s) := by
  simp [execEngineReset, pending_part_ite]
@[simp] theorem keeps_engineResetDone (b e : Nat) : Keeps s (engineResetDone s b e) := by
  simp only [engineResetDone]; (repeat' split) <;> simp

@[simp] theorem keepsOut_execEngineResetDone (berth engine : Nat) :
    KeepsOut s (execEngineResetDone berth engine s) := by
  simp [execEngineResetDone]

/-! ## Stacks -/

@[simp] theorem keeps_correctChannel (n c conn row : Nat) : Keeps s (correctChannel s n c conn row) := by
  simp [correctChannel]
@[simp] theorem keeps_degradeChannel (n c : Nat) : Keeps s (degradeChannel s n c) := by
  simp only [degradeChannel]; split <;> simp
@[simp] theorem keeps_spareConnection (n c conn : Nat) : Keeps s (spareConnection s n c conn) := by
  simp only [spareConnection]; split <;> simp
@[simp] theorem keeps_chooseConns (failed : List Nat) (n c : Nat) : Keeps s (chooseConns failed s n c) := by
  simp only [chooseConns]; (repeat' split) <;> simp
@[simp] theorem keeps_countFixes (n c : Nat) (l : List CopyFix) : Keeps s (countFixes s n c l) := by simp [countFixes]

@[simp] theorem keepsOut_execRefreshOperation (stack channel bank : Nat) :
    KeepsOut s (execRefreshOperation stack channel bank s) := by
  simp [execRefreshOperation, pending_part_ite]

@[simp] theorem keeps_testConnections (n c : Nat) (pass : List Nat) : Keeps s (testConnections s n c pass) := by
  unfold testConnections
  refine Keeps.foldl (fun t x => ?_) _ _
  split <;> simp

@[simp] theorem keeps_repairRow (n c r : Nat) : Keeps s (repairRow s n c r) := by
  simp only [repairRow]; (repeat' split) <;> simp
@[simp] theorem keeps_repairRows (n c : Nat) (fixed : List CopyFix) : Keeps s (repairRows s n c fixed) := by
  simp [repairRows]
@[simp] theorem keeps_updBundle (n k : Nat) (f : Bundle → Bundle) : Keeps s (updBundle s n k f) := by simp [updBundle]

@[simp] theorem keeps_gapLanes (n : Nat) (pass : List Nat) : Keeps s (gapLanes s n pass) := by
  unfold gapLanes
  refine Keeps.foldl (fun t x => ?_) _ _
  refine Keeps.trans (Keeps.foldl (fun u l => ?_) _ _) (keeps_updBundle _ _ _ _)
  split <;> simp

@[simp] theorem keeps_trimNear (n : Nat) : Keeps s (trimNear s n) := by
  simp only [trimNear]; split <;> simp

@[simp] theorem keeps_refreshGap (n c : Nat) (loopback : List Nat) (o : GapSeen) :
    Keeps s (refreshGap s n c loopback o) := by
  simp only [refreshGap]; (repeat' split) <;> simp

@[simp] theorem keepsOut_execRefreshGap (stack channel : Nat) (loopbackPass : List Nat) (seen : GapSeen) :
    KeepsOut s (execRefreshGap stack channel loopbackPass seen s) := by
  simp [execRefreshGap]

@[simp] theorem keeps_scrubOne (n c bank : Nat) (f : ScrubFinding) : Keeps s (scrubOne n c bank s f) := by
  simp only [scrubOne]; split <;> simp

@[simp] theorem keepsOut_execScrub (stack channel bank : Nat) (found : List ScrubFinding) :
    KeepsOut s (execScrub stack channel bank found s) := by
  simp [execScrub, pending_part_ite]

@[simp] theorem keepsOut_execRowBufferWriteback (stack channel bank row : Nat) :
    KeepsOut s (execRowBufferWriteback stack channel bank row s) := by
  simp [execRowBufferWriteback, pending_part_ite]

@[simp] theorem keeps_retireRange (k : SegKey) : Keeps s (retireRange s k) := by
  simp only [retireRange]; split <;> simp
@[simp] theorem keepsOut_execRetiredRangeExpiry (key : SegKey) : KeepsOut s (execRetiredRangeExpiry key s) := by
  simp [execRetiredRangeExpiry]
@[simp] theorem keeps_retireChannel (n c : Nat) : Keeps s (retireChannel s n c) := by simp [retireChannel]
@[simp] theorem keeps_settleLoss (n : Nat) : Keeps s (settleLoss s n) := by
  simp only [settleLoss]; split <;> simp
@[simp] theorem keeps_evacuationEnd (n : Nat) : Keeps s (evacuationEnd s n) := by
  simp only [evacuationEnd]; (repeat' split) <;> simp
@[simp] theorem keeps_poolExhausted (k : SegKey) : Keeps s (poolExhausted s k) := by simp [poolExhausted]
@[simp] theorem keeps_segmentMoveStart (k : SegKey) : Keeps s (segmentMoveStart s k) := by
  simp only [segmentMoveStart]; (repeat' split) <;> simp
@[simp] theorem keepsOut_execSegmentMoveStart (key : SegKey) : KeepsOut s (execSegmentMoveStart key s) := by
  simp [execSegmentMoveStart]
@[simp] theorem keeps_updMove (k : SegKey) (f : Move → Move) : Keeps s (updMove s k f) := by
  simp only [updMove]; split <;> simp

@[simp] theorem keepsOut_execSegmentHoldAck (key : SegKey) (source : Nat) :
    KeepsOut s (execSegmentHoldAck key source s) := by
  simp [execSegmentHoldAck, pending_part_ite]

@[simp] theorem keeps_segmentCopyDone (k : SegKey) (o : CopySeen) : Keeps s (segmentCopyDone s k o) := by
  simp only [segmentCopyDone]; (repeat' split) <;> simp

@[simp] theorem keepsOut_execSegmentCopyDone (key : SegKey) (seen : CopySeen) :
    KeepsOut s (execSegmentCopyDone key seen s) := by
  simp [execSegmentCopyDone]

@[simp] theorem keeps_releaseSegment (k : SegKey) : Keeps s (releaseSegment s k) := by simp [releaseSegment]
@[simp] theorem keeps_segmentRecorded (k : SegKey) : Keeps s (segmentRecorded s k) := by
  simp only [segmentRecorded]; (repeat' split) <;> simp
@[simp] theorem keepsOut_execSegmentRecorded (key : SegKey) : KeepsOut s (execSegmentRecorded key s) := by
  simp [execSegmentRecorded]
@[simp] theorem keeps_layerAlarm (n : Nat) (l : Nat) : Keeps s (layerAlarm n s l) := by simp [layerAlarm]
@[simp] theorem keeps_layerTick (n : Nat) (r : StackReading) : Keeps s (layerTick s n r) := by simp [layerTick]

@[simp] theorem keepsOut_execLayerModelTick (stack : Nat) (r : StackReading) :
    KeepsOut s (execLayerModelTick stack r s) := by
  simp [execLayerModelTick, pending_part_ite]

@[simp] theorem keeps_sensorEvent (site unit : Nat) (reading : Int) :
    Keeps s (sensorEvent s site unit reading) := by
  simp [sensorEvent]

@[simp] theorem keeps_stackSensor (n x : Nat) : Keeps s (stackSensor s n x) := by
  simp only [stackSensor]; (repeat' split) <;> simp

@[simp] theorem keepsOut_execStackSensorSuspect (stack sensor : Nat) :
    KeepsOut s (execStackSensorSuspect stack sensor s) := by
  simp [execStackSensorSuspect]

@[simp] theorem keepsOut_execRailFault (stack rail : Nat) : KeepsOut s (execRailFault stack rail s) := by
  simp [execRailFault]

/-! ## Losses of sites and pairs -/

@[simp] theorem keeps_loseBerth (b : Nat) : Keeps s (loseBerth s b) := by
  simp only [loseBerth]; split <;> simp
@[simp] theorem keeps_loseStack (n : Nat) (port : Bool) : Keeps s (loseStack s n port) := by
  simp only [loseStack]; (repeat' split) <;> simp
@[simp] theorem keeps_linkDown (k : Nat) (st : LinkState) (outcome : Nat) : Keeps s (linkDown s k st outcome) := by
  simp [linkDown]
@[simp] theorem keeps_endRelayed (r : Nat) : Keeps s (endRelayed s r) := by
  simp only [endRelayed]; split <;> simp
@[simp] theorem keeps_delayLink (k : Nat) : Keeps s (delayLink s k) := ⟨rfl, rfl⟩
@[simp] theorem keeps_linkLost (k : Nat) : Keeps s (linkLost s k) := by simp [linkLost]

@[simp] theorem keeps_failQuayLinks (q : Nat) : Keeps s (failQuayLinks s q) := by
  unfold failQuayLinks
  refine Keeps.foldl (fun t x => ?_) _ _
  split <;> simp

@[simp] theorem keeps_loseQuay (q : Nat) : Keeps s (loseQuay s q) := by
  simp only [loseQuay]; split <;> simp
@[simp] theorem keeps_loseFabric (k : Nat) : Keeps s (loseFabric s k) := by
  simp only [loseFabric]; split <;> simp
@[simp] theorem keeps_pairLoss (src dst : Nat) : Keeps s (pairLoss s src dst) := by
  simp only [pairLoss]; (repeat' split) <;> simp

/-! ## Regions and tiles -/

@[simp] theorem keepsOut_execStepChange (berth region : Nat) : KeepsOut s (execStepChange berth region s) := by
  simp [execStepChange]
@[simp] theorem keepsOut_execStepHoldEnd (berth region : Nat) : KeepsOut s (execStepHoldEnd berth region s) := by
  simp [execStepHoldEnd]

@[simp] theorem keepsOut_execReplicaWarning (berth region cycle : Nat) :
    KeepsOut s (execReplicaWarning berth region cycle s) := by
  simp [execReplicaWarning]

@[simp] theorem keepsOut_execStretchRecoveryEnd (berth region cycle : Nat) :
    KeepsOut s (execStretchRecoveryEnd berth region cycle s) := by
  simp [execStretchRecoveryEnd]

@[simp] theorem keepsOut_execRecoveryStepdown (berth region cycle : Nat) :
    KeepsOut s (execRecoveryStepdown berth region cycle s) := by
  simp [execRecoveryStepdown]

@[simp] theorem keepsOut_execStretchLimit (berth region : Nat) : KeepsOut s (execStretchLimit berth region s) := by
  simp [execStretchLimit]
@[simp] theorem keepsOut_execStepUpTimer (berth region : Nat) : KeepsOut s (execStepUpTimer berth region s) := by
  simp [execStepUpTimer]

@[simp] theorem keepsOut_execMeshLoadWindow (berth slotsHigh : Nat) :
    KeepsOut s (execMeshLoadWindow berth slotsHigh s) := by
  simp [execMeshLoadWindow, pending_part_ite]

@[simp] theorem keeps_feedCheck (b e : Nat) : Keeps s (feedCheck s b e) := by
  simp only [feedCheck]; split <;> simp
@[simp] theorem keeps_retireTile (b t : Nat) : Keeps s (retireTile s b t) := by
  simp only [retireTile]; split <;> simp
@[simp] theorem keeps_failTile (b t : Nat) : Keeps s (failTile s b t) := by
  simp only [failTile]; (repeat' split) <;> simp
@[simp] theorem keeps_coreSubstitution (b t : Nat) : Keeps s (coreSubstitution s b t) := by
  simp only [coreSubstitution]; split <;> simp

@[simp] theorem keepsOut_execCoreSubstitution (berth vtile : Nat) :
    KeepsOut s (execCoreSubstitution berth vtile s) := by
  simp [execCoreSubstitution]

@[simp] theorem keeps_poisonCopy (b t w : Nat) : Keeps s (poisonCopy s b t w) := by simp [poisonCopy]
@[simp] theorem keeps_attachForTest (b t : Nat) : Keeps s (attachForTest s b t) := by
  simp only [attachForTest]; split <;> simp
@[simp] theorem keeps_detachSpare (b t : Nat) : Keeps s (detachSpare s b t) := by simp [detachSpare]

@[simp] theorem keeps_coreSubstitutionDone (b t : Nat) (bad : List Nat) :
    Keeps s (coreSubstitutionDone s b t bad) := by
  simp only [coreSubstitutionDone]; (repeat' split) <;> simp

@[simp] theorem keepsOut_execCoreSubstitutionDone (berth vtile : Nat) (badWords : List Nat) :
    KeepsOut s (execCoreSubstitutionDone berth vtile badWords s) := by
  simp [execCoreSubstitutionDone]

/-! ## Tests and calibrations -/

@[simp] theorem keeps_tileBoundary (b t : Nat) : Keeps s (tileBoundary s b t) := by
  simp only [tileBoundary]; (repeat' split) <;> simp

@[simp] theorem keeps_tileBoundaries (b : Nat) : Keeps s (tileBoundaries s b) := by
  unfold tileBoundaries
  refine Keeps.foldl (fun t q => ?_) _ _
  (repeat' split) <;> simp

@[simp] theorem keeps_restoreTile (b t : Nat) : Keeps s (restoreTile s b t) := by
  simp only [restoreTile]; split <;> simp
@[simp] theorem keeps_lostCore (b t : Nat) : Keeps s (lostCore s b t) := by
  simp only [lostCore]; split <;> simp
@[simp] theorem keeps_requestTest (r : Route) (code : Nat) (el : Element) : Keeps s (requestTest r code s el) := by
  simp only [requestTest]; split <;> simp

@[simp] theorem keepsOut_execSelftest (r : Route) : KeepsOut s (execSelftest r s) := by
  refine keepsOut_blunen _ _ (fun a => ?_)
  dsimp only
  (repeat' split) <;> simp

@[simp] theorem keepsOut_execCalibrate (r : Route) : KeepsOut s (execCalibrate r s) := by
  refine keepsOut_blunen _ _ (fun a => ?_)
  dsimp only
  split
  · simp
  · refine .trans ?_ (Keeps.foldl (fun t el => ?_) _ _)
    · simp
    · split <;> simp

@[simp] theorem keeps_reloadHeld (b e : Nat) (work : Option CmdId) : Keeps s (reloadHeld s b e work) := by
  simp only [reloadHeld]; split <;> simp

@[simp] theorem keeps_engineTested (b e : Nat) (t : TestReq) (res : TestResult) :
    Keeps s (engineTested s b e t res) := by
  simp only [engineTested]; (repeat' split) <;> simp

@[simp] theorem keeps_tileTransient (b t : Nat) : Keeps s (tileTransient s b t) := by
  simp only [tileTransient]; split <;> simp

@[simp] theorem keeps_tileTested (b v : Nat) (t : TestReq) (res : TestResult) :
    Keeps s (tileTested s b v t res) := by
  simp only [tileTested]; (repeat' split) <;> simp

@[simp] theorem keeps_hmTested (i : Nat) (pass : Bool) : Keeps s (hmTested s i pass) := by
  simp only [hmTested]; (repeat' split) <;> simp
@[simp] theorem keeps_lhTested (lh : LighthouseId) (pass : Bool) : Keeps s (lhTested s lh pass) := by
  simp only [lhTested]; (repeat' split) <;> simp
@[simp] theorem keeps_testDone (el : Element) (res : TestResult) : Keeps s (testDone s el res) := by
  simp only [testDone]; (repeat' split) <;> simp

@[simp] theorem keepsOut_execTargetedTestDone (el : Element) (res : TestResult) :
    KeepsOut s (execTargetedTestDone el res s) := by
  simp [execTargetedTestDone]

@[simp] theorem keeps_engineTrigger (b e : Nat) (why : CalTrigger) : Keeps s (engineTrigger s b e why) := by
  simp only [engineTrigger]; (repeat' split) <;> simp
@[simp] theorem keeps_trimPair (idle : Bool) (src : Nat) (dst : Nat) : Keeps s (trimPair idle src s dst) := by
  simp only [trimPair]; (repeat' split) <;> simp
@[simp] theorem keeps_finishTrims (k : Nat) : Keeps s (finishTrims s k) := by
  simp only [finishTrims]; (repeat' split) <;> simp
@[simp] theorem keeps_trimDuePair (src dst : Nat) : Keeps s (trimDuePair s src dst) := by simp [trimDuePair]
@[simp] theorem keeps_trimPort (k : Nat) (both : Bool) : Keeps s (trimPort s k both) := by
  simp only [trimPort]; split <;> simp
@[simp] theorem keeps_laneTrigger (k : Nat) (why : CalTrigger) : Keeps s (laneTrigger s k why) := by
  simp only [laneTrigger]; split <;> simp
@[simp] theorem keeps_calTrigger (el : Element) (why : CalTrigger) : Keeps s (calTrigger s el why) := by
  simp only [calTrigger]; (repeat' split) <;> simp

@[simp] theorem keepsOut_execCalibrationTrigger (el : Element) (why : CalTrigger) :
    KeepsOut s (execCalibrationTrigger el why s) := by
  simp [execCalibrationTrigger]

@[simp] theorem keeps_calibrationPassed (b e : Nat) (t : TestReq) (enob : List Nat) :
    Keeps s (calibrationPassed s b e t enob) := by
  simp [calibrationPassed]

@[simp] theorem keeps_calibrationDone (b e : Nat) (enob : List Nat) (res : TestResult) :
    Keeps s (calibrationDone s b e enob res) := by
  simp only [calibrationDone]; (repeat' split) <;> simp

@[simp] theorem keepsOut_execCalibrationDone (berth engine : Nat) (enob : List Nat) (res : TestResult) :
    KeepsOut s (execCalibrationDone berth engine enob res s) := by
  simp [execCalibrationDone]

@[simp] theorem keeps_standbyCheck (lh : LighthouseId) (pass : Bool) : Keeps s (standbyCheck s lh pass) := by
  simp only [standbyCheck]; (repeat' split) <;> simp

@[simp] theorem keepsOut_execStandbyCheck (lh : LighthouseId) (pass : Bool) :
    KeepsOut s (execStandbyCheck lh pass s) := by
  simp [execStandbyCheck]

/-! ## Copies and fills -/

@[simp] theorem keeps_readPiece (c : Cmd) (k : Nat) (p : TugPiece) : Keeps s (readPiece s c k p) := by
  simp only [readPiece]; split <;> simp
@[simp] theorem keeps_writePiece (c : Cmd) (k : Nat) (p : TugPiece) : Keeps s (writePiece s c k p) := by
  simp [writePiece]
@[simp] theorem keeps_tugBegin (c : Cmd) : Keeps s (tugBegin s c) := by
  simp only [tugBegin]; split <;> simp
@[simp] theorem keeps_endChunk (c : Cmd) (k : Nat) (st : Option (Nat × Nat)) : Keeps s (endChunk s c k st) := by
  simp only [endChunk]; (repeat' split) <;> simp

@[simp] theorem keeps_failChunk (c : Cmd) (k : Nat) (ts : List Touch) (e : Nat × Nat) :
    Keeps s (failChunk s c k ts e) := by
  simp [failChunk]

@[simp] theorem keeps_writeChunk (c : Cmd) (k : Nat) : Keeps s (writeChunk s c k) := by
  unfold writeChunk
  refine keeps_awake _ _ _ (fun t => ?_)
  dsimp only
  (repeat' split) <;> simp

@[simp] theorem keeps_beginChunk (c : Cmd) (k : Nat) : Keeps s (beginChunk s c k) := by
  unfold beginChunk
  refine keeps_awake _ _ _ (fun t => ?_)
  dsimp only
  (repeat' split) <;> simp

@[simp] theorem keeps_advanceChunk (c : Cmd) (k : Nat) : Keeps s (advanceChunk s c k) := by
  simp only [advanceChunk]; (repeat' split) <;> simp
@[simp] theorem keeps_tugChunkDone (c : Cmd) (k : Nat) : Keeps s (tugChunkDone s c k) := by
  simp only [tugChunkDone]; (repeat' split) <;> simp

@[simp] theorem keeps_endAcked (c : Cmd) : Keeps s (endAcked s c) := by
  unfold endAcked
  refine Keeps.foldl (fun t x => ?_) _ _
  split <;> simp

@[simp] theorem keepsOut_execTugCopy (id : CmdId) : KeepsOut s (execTugCopy id s) := by simp [execTugCopy]
@[simp] theorem keepsOut_execTugFill (id : CmdId) : KeepsOut s (execTugFill id s) := by simp [execTugFill]

@[simp] theorem keepsOut_execTugChunkDone (id : CmdId) (chunk : Nat) :
    KeepsOut s (execTugChunkDone id chunk s) := by
  refine keepsOut_guarded _ ?_
  (repeat' split) <;> simp

/-! ## Timeouts and completion -/

@[simp] theorem keeps_dropHeld (id : CmdId) : Keeps s (dropHeld s id) := by simp [dropHeld]
@[simp] theorem keeps_settleTugs (id : CmdId) : Keeps s (settleTugs s id) := by simp [settleTugs]
@[simp] theorem keeps_stopCmd (id : CmdId) : Keeps s (stopCmd s id) := by simp [stopCmd]
@[simp] theorem keeps_withdrawTests (r : Route) : Keeps s (withdrawTests s r) := by simp [withdrawTests]
@[simp] theorem keeps_servedTimeout (r : Route) (op params : Nat) : Keeps s (servedTimeout s r op params) := by
  simp only [servedTimeout]; (repeat' split) <;> simp
@[simp] theorem keeps_mailboxTimeout (fn : Nat) : Keeps s (mailboxTimeout s fn) := by
  simp only [mailboxTimeout]; (repeat' split) <;> simp
@[simp] theorem keeps_ringTimeout (id : CmdId) : Keeps s (ringTimeout s id) := by
  simp only [ringTimeout]; (repeat' split) <;> simp
@[simp] theorem keepsOut_execCommandTimeout (r : Route) : KeepsOut s (execCommandTimeout r s) := by
  simp only [execCommandTimeout]; split <;> simp
@[simp] theorem keeps_escalateStop (id : CmdId) (u : StuckUnit) : Keeps s (escalateStop s id u) := by
  simp only [escalateStop]; (repeat' split) <;> simp

@[simp] theorem keepsOut_execStopEscalation (id : CmdId) (unit : StuckUnit) :
    KeepsOut s (execStopEscalation id unit s) := by
  simp [execStopEscalation]

@[simp] theorem keeps_storeResults (c : Cmd) : Keeps s (storeResults s c) := by simp [storeResults]
@[simp] theorem keeps_landResults (c : Cmd) : Keeps s (landResults s c) := by
  simp only [landResults]; split <;> simp
@[simp] theorem keeps_dropCmd (c : Cmd) : Keeps s (dropCmd s c) := by simp [dropCmd]
@[simp] theorem keeps_afterEntry (c : Cmd) : Keeps s (afterEntry s c) := by
  simp only [afterEntry]; (repeat' split) <;> simp

@[simp] theorem keeps_waitEntry (c : Cmd) : Keeps s (waitEntry s c) := by
  unfold waitEntry
  refine Keeps.foldl (fun t x => ?_) _ _
  (repeat' split) <;> simp

@[simp] theorem keeps_writeEntry (c : Cmd) : Keeps s (writeEntry s c) := by
  simp only [writeEntry]; (repeat' split) <;> simp

@[simp] theorem keeps_residualCalibrations (c : Cmd) : Keeps s (residualCalibrations s c) := by
  unfold residualCalibrations
  split
  · refine Keeps.foldl (fun t x => ?_) _ _
    split <;> simp
  · simp

@[simp] theorem keeps_releaseAfter (c : Cmd) : Keeps s (releaseAfter s c) := by simp [releaseAfter]
@[simp] theorem keeps_settleClosing (c : Nat) : Keeps s (settleClosing s c) := by simp [settleClosing]
@[simp] theorem keeps_completeCmd (m : Cmd) : Keeps s (completeCmd s m) := by
  simp only [completeCmd]; split <;> simp
@[simp] theorem keeps_completeMailbox (fn : Nat) : Keeps s (completeMailbox s fn) := by
  simp only [completeMailbox]; (repeat' split) <;> simp

@[simp] theorem keepsOut_execCommandCompletion (r : Route) : KeepsOut s (execCommandCompletion r s) := by
  refine keepsOut_guarded _ ?_
  dsimp only
  (repeat' split) <;> simp

/-! ## Training of links -/

@[simp] theorem keeps_memberEvent (pos outcome : Nat) : Keeps s (memberEvent s pos outcome) := by simp [memberEvent]
@[simp] theorem keeps_startTraining (k : Nat) : Keeps s (startTraining s k) := by simp [startTraining]

@[simp] theorem keeps_freeQuay (q : Nat) : Keeps s (freeQuay s q) := by
  unfold freeQuay
  refine Keeps.foldl (fun t x => ?_) _ _
  dsimp only
  (repeat' split) <;> simp

/-! ## Management requests -/

@[simp] theorem keeps_noStep : Keeps s (noStep s) := ⟨rfl, rfl⟩

@[simp] theorem keepsOut_execCtxOpen (fn : Nat) : KeepsOut s (execCtxOpen fn s) := by
  refine keepsOut_blunen _ _ (fun a => ?_)
  dsimp only
  (repeat' split) <;> simp

@[simp] theorem keepsOut_execCtxClose (fn : Nat) : KeepsOut s (execCtxClose fn s) := by
  refine keepsOut_blunen _ _ (fun a => ?_)
  dsimp only
  (repeat' split) <;> simp

@[simp] theorem keepsOut_execCtxAbort (fn : Nat) : KeepsOut s (execCtxAbort fn s) := by
  refine keepsOut_blunen _ _ (fun a => ?_)
  dsimp only
  (repeat' split) <;> simp

@[simp] theorem keepsOut_execCtxQuery (r : Route) : KeepsOut s (execCtxQuery r s) := by simp [execCtxQuery]
@[simp] theorem keepsOut_execFwInfo (r : Route) : KeepsOut s (execFwInfo r s) := by simp [execFwInfo]
@[simp] theorem keepsOut_execHealthRead (r : Route) : KeepsOut s (execHealthRead r s) := by simp [execHealthRead]

@[simp] theorem keepsOut_execRoleChange (fn : Nat) : KeepsOut s (execRoleChange fn s) := by
  refine keepsOut_blunen _ _ (fun a => ?_)
  dsimp only
  (repeat' split) <;> simp

@[simp] theorem keeps_roleDrained (k : Nat) : Keeps s (roleDrained s k) := by
  simp only [roleDrained]; split <;> simp
@[simp] theorem keeps_roleReply (k : Nat) : Keeps s (roleReply s k) := by
  simp only [roleReply]; (repeat' split) <;> simp
@[simp] theorem keepsOut_execRoleDrainDone (site : Nat) : KeepsOut s (execRoleDrainDone site s) := by
  simp [execRoleDrainDone]

@[simp] theorem keepsOut_execDomainSet (r : Route) : KeepsOut s (execDomainSet r s) := by
  refine keepsOut_blunen _ _ (fun a => ?_)
  dsimp only
  (repeat' split) <;> simp

@[simp] theorem keeps_nextTransition (d : Nat) : Keeps s (nextTransition s d) := by
  simp only [nextTransition]; (repeat' split) <;> simp
@[simp] theorem keeps_domainArrived (d : Nat) (old new : DomState) : Keeps s (domainArrived s d old new) := by
  simp only [domainArrived]; (repeat' split) <;> simp
@[simp] theorem keeps_loadReplicas (d : Nat) (st : DomState) : Keeps s (loadReplicas s d st) := ⟨rfl, rfl⟩
@[simp] theorem keeps_transitionDone (d : Nat) : Keeps s (transitionDone s d) := by
  simp only [transitionDone]; (repeat' split) <;> simp

@[simp] theorem keepsOut_execDomainTransitionDone (domain : Nat) :
    KeepsOut s (execDomainTransitionDone domain s) := by
  simp [execDomainTransitionDone]

@[simp] theorem keepsOut_execTideAlarm (r : Route) : KeepsOut s (execTideAlarm r s) := by simp [execTideAlarm]

@[simp] theorem keepsOut_execTideAlarmFire : KeepsOut s (execTideAlarmFire s) := by
  refine keepsOut_next.2 ?_
  (repeat' split) <;> simp

/-! ## Requests at their target, and responses -/

@[simp] theorem keeps_requestIssue (r : WireReq) : Keeps s (requestIssue s r) := by
  simp only [requestIssue]; (repeat' split) <;> simp
@[simp] theorem keepsOut_execRequestIssue (req : WireReq) : KeepsOut s (execRequestIssue req s) := by
  simp [execRequestIssue]
@[simp] theorem keeps_countPri (r : WireReq) : Keeps s (countPri s r) := by
  simp only [countPri]; split <;> simp
@[simp] theorem keeps_countRow (r : WireReq) : Keeps s (countRow s r) := by
  simp only [countRow]; split <;> simp
@[simp] theorem keeps_countSlot (r : WireReq) : Keeps s (countSlot s r) := by simp [countSlot]
@[simp] theorem keeps_park (r : WireReq) : Keeps s (park s r) :=
  Keeps.foldl (fun t d => by simp) _ _
@[simp] theorem keeps_unpark (r : WireReq) : Keeps s (unpark s r) := ⟨rfl, rfl⟩
@[simp] theorem keeps_markAnswered (r : WireReq) : Keeps s (markAnswered s r) := by
  simp only [markAnswered]; split <;> simp
@[simp] theorem keeps_answerBy (r : WireReq) (m : OutMsg) : Keeps s (answerBy r s m) := by
  simp only [answerBy]; split <;> simp

@[simp] theorem keeps_respond (r : WireReq) (o : ServeObs) (st : Nat) (data : List Byte) :
    Keeps s (respond s r o st data) := by
  simp only [respond]; split <;> simp

@[simp] theorem keeps_correctedDram (loc : Nat) (o : ServeObs) : Keeps s (correctedDram s loc o) := by
  simp [correctedDram]
@[simp] theorem keeps_uncorrectableDram (r : WireReq) : Keeps s (uncorrectableDram s r) := by simp [uncorrectableDram]
@[simp] theorem keeps_uncorrectableTile (r : WireReq) (b t : Nat) : Keeps s (uncorrectableTile s r b t) := by
  simp [uncorrectableTile]
@[simp] theorem keeps_readArray (r : WireReq) (o : ServeObs) : Keeps s (readArray s r o).1 := by
  simp only [readArray]; (repeat' split) <;> simp

@[simp] theorem keeps_performStore (r : WireReq) : Keeps s (performStore s r) := by
  simp only [performStore]
  split
  case h_3 => split <;> simp
  case h_4 =>
    refine Keeps.trans ?_ (Keeps.foldl (fun t i => ?_) _ _)
    · simp
    · split <;> simp
  all_goals simp

@[simp] theorem keeps_performAtomic (r : WireReq) : Keeps s (performAtomic s r) := by
  simp only [performAtomic]; split <;> simp
@[simp] theorem keeps_perform (r : WireReq) (o : ServeObs) : Keeps s (perform s r o) := by
  simp only [perform]; split <;> simp
@[simp] theorem keeps_tellWork (r : WireReq) (st : Nat) : Keeps s (tellWork s r st) := by
  simp only [tellWork]; (repeat' split) <;> simp
@[simp] theorem keeps_serveHere (r : WireReq) (o : ServeObs) : Keeps s (serveHere s r o) := by
  simp only [serveHere]; (repeat' split) <;> simp
@[simp] theorem keeps_refuseBar2 (fn : Nat) (r : WireReq) (o : ServeObs) : Keeps s (refuseBar2 s fn r o) := by
  simp only [refuseBar2]; split <;> simp
@[simp] theorem keeps_arrive (r : WireReq) (o : ServeObs) : Keeps s (arrive s r o) := by
  simp only [arrive]; (repeat' split) <;> simp
@[simp] theorem keeps_serve (r : WireReq) (o : ServeObs) : Keeps s (serve s r o) := by
  simp only [serve]; (repeat' split) <;> simp
@[simp] theorem keepsOut_execLoad (req : WireReq) (obs : ServeObs) : KeepsOut s (execLoad req obs s) := by
  simp [execLoad, pending_part_ite]
@[simp] theorem keepsOut_execStore (req : WireReq) (obs : ServeObs) : KeepsOut s (execStore req obs s) := by
  simp [execStore, pending_part_ite]
@[simp] theorem keepsOut_execAtomic (req : WireReq) (obs : ServeObs) : KeepsOut s (execAtomic req obs s) := by
  simp [execAtomic, pending_part_ite]
@[simp] theorem keeps_settleFlow (o : OutReq) (echo : Bool) : Keeps s (settleFlow s o echo) := by
  simp only [settleFlow]; split <;> simp
@[simp] theorem keeps_requestLate (o : OutReq) : Keeps s (requestLate s o) := by
  simp only [requestLate]; split <;> simp
@[simp] theorem keeps_answered (o : OutReq) (st : Nat) : Keeps s (answered s o st) := by
  simp only [answered]; (repeat' split) <;> simp
@[simp] theorem keeps_dropResponse (ctx : Option Nat) : Keeps s (dropResponse s ctx) := by
  simp only [dropResponse]; split <;> simp
@[simp] theorem keeps_leaveFlow (o : OutReq) : Keeps s (leaveFlow s o) := by
  simp only [leaveFlow]; split <;> simp
@[simp] theorem keeps_readBack (o : OutReq) (data : List Byte) : Keeps s (readBack s o data) := by
  simp only [readBack]; split <;> simp
@[simp] theorem keeps_unspend (t : Nat) : Keeps s (unspend s t) := ⟨rfl, rfl⟩
@[simp] theorem keeps_spend (o : OutReq) : Keeps s (spend s o) := by
  simp only [spend]; split <;> simp
@[simp] theorem keeps_takeResponse (r : WireResp) : Keeps s (takeResponse s r) := by
  simp only [takeResponse]; (repeat' split) <;> simp

@[simp] theorem keeps_settleEarly (n : Nat) (s : State) : Keeps s (settleEarly n s) := by
  induction n generalizing s with
  | zero => exact ⟨rfl, rfl⟩
  | succ n ih =>
    simp only [settleEarly]
    split <;> simp [ih]

@[simp] theorem keeps_response (r : WireResp) : Keeps s (response s r) := by
  simp only [response]; split <;> simp
@[simp] theorem keepsOut_execResponse (resp : WireResp) : KeepsOut s (execResponse resp s) := by simp [execResponse]
@[simp] theorem keepsOut_execFlowIdleExpiry (flow : FlowId) : KeepsOut s (execFlowIdleExpiry flow s) := by
  simp [execFlowIdleExpiry, pending_part_ite]
@[simp] theorem keeps_probeAway (pos site : Nat) : Keeps s (probeAway s pos site) := by simp [probeAway]
@[simp] theorem keeps_probe (pos site : Nat) : Keeps s (probe s pos site) := by
  simp only [probe]; (repeat' split) <;> simp
@[simp] theorem keeps_endRequest (o : OutReq) : Keeps s (endRequest s o) := by simp [endRequest]

@[simp] theorem keepsOut_execRequestDeadBound (tag : Nat) : KeepsOut s (execRequestDeadBound tag s) := by
  refine keepsOut_next.2 ?_
  (repeat' split) <;> simp

@[simp] theorem keeps_siteEvent (site outcome : Nat) : Keeps s (siteEvent s site outcome) := by simp [siteEvent]
@[simp] theorem keepsOut_execProbeAnswer (site : Nat) : KeepsOut s (execProbeAnswer site s) := by
  simp [execProbeAnswer, pending_part_ite]
@[simp] theorem keeps_probeTimeout (site : Nat) : Keeps s (probeTimeout s site) := by
  simp only [probeTimeout]; (repeat' split) <;> simp
@[simp] theorem keepsOut_execProbeTimeout (site : Nat) : KeepsOut s (execProbeTimeout site s) := by
  simp [execProbeTimeout]
@[simp] theorem keeps_epochUpdate (pos site : Nat) (e : EpochSeen) : Keeps s (epochUpdate s pos site e) := by
  simp only [epochUpdate]; (repeat' split) <;> simp

@[simp] theorem keepsOut_execEpochTableUpdate (pos site : Nat) (epoch : EpochSeen) :
    KeepsOut s (execEpochTableUpdate pos site epoch s) := by
  simp [execEpochTableUpdate]

/-! ## The fabric and the near bundles -/

@[simp] theorem keeps_delayed (p : OutReq → Bool) : Keeps s (delayed s p) := ⟨rfl, rfl⟩
@[simp] theorem keeps_delayPair (a b : Nat) : Keeps s (delayPair s a b) := by simp [delayPair]
@[simp] theorem keeps_delayNear (n : Nat) : Keeps s (delayNear s n) := by simp [delayNear]
@[simp] theorem keeps_delaySite (k : Nat) : Keeps s (delaySite s k) := by simp [delaySite]

@[simp] theorem keeps_relockRing (src dst : Nat) (rx : Bool) (plane : Nat) :
    Keeps s (relockRing s src dst rx plane) := by
  simp [relockRing]

@[simp] theorem keeps_ringLock (src dst plane : Nat) (rx : Bool) (offset : Int) :
    Keeps s (ringLock s src dst plane rx offset) := by
  simp only [ringLock]; (repeat' split) <;> simp

@[simp] theorem keepsOut_execRingLock (src dst : Nat) (ring : RingSeen) :
    KeepsOut s (execRingLock src dst ring s) := by
  simp [execRingLock]

@[simp] theorem keeps_ringDarkExpiry (src dst : Nat) : Keeps s (ringDarkExpiry s src dst) := by
  simp only [ringDarkExpiry]
  (repeat' split)
  · refine Keeps.foldl (fun t x => Keeps.foldl (fun u rx => ?_) _ _) _ _
    split <;> simp
  all_goals simp

@[simp] theorem keepsOut_execRingDarkExpiry (src dst : Nat) : KeepsOut s (execRingDarkExpiry src dst s) := by
  simp [execRingDarkExpiry]

@[simp] theorem keeps_beginRetraining (src dst : Nat) : Keeps s (beginRetraining s src dst) := by
  unfold beginRetraining
  refine Keeps.foldl (fun t x => ?_) _ _
  split <;> simp

@[simp] theorem keeps_frameFailed (src dst : Nat) : Keeps s (frameFailed s src dst) := by
  simp only [frameFailed]; (repeat' split) <;> simp
@[simp] theorem keeps_settleWidth (src dst before : Nat) : Keeps s (settleWidth s src dst before) := by
  simp only [settleWidth]; (repeat' split) <;> simp
@[simp] theorem keeps_settlePlane (before : State) (plane : Nat) : Keeps s (settlePlane before s plane) := by
  simp only [settlePlane]; split <;> simp
@[simp] theorem keeps_takeOut (src dst plane : Nat) : Keeps s (takeOut s src dst plane) := by simp [takeOut]
@[simp] theorem keeps_laneEvent (src dst evt plane : Nat) : Keeps s (laneEvent s src dst evt plane) := by
  simp only [laneEvent]; (repeat' split) <;> simp
@[simp] theorem keeps_askEvent (src dst evt plane : Nat) : Keeps s (askEvent s src dst evt plane) := by
  simp only [askEvent]; split <;> simp
@[simp] theorem keeps_fabricLaneBer (src dst plane : Nat) : Keeps s (fabricLaneBer s src dst plane) := by
  simp only [fabricLaneBer]; (repeat' split) <;> simp

@[simp] theorem keepsOut_execFabricLaneBerExceeded (src dst plane : Nat) :
    KeepsOut s (execFabricLaneBerExceeded src dst plane s) := by
  simp [execFabricLaneBerExceeded]

@[simp] theorem keeps_examineAgain (src dst : Nat) : Keeps s (examineAgain s src dst) := by simp [examineAgain]

@[simp] theorem keeps_countSent (src dst : Nat) (seq : W32) (units : List Nat) :
    Keeps s (countSent s src dst seq units) := by
  simp only [countSent]; split <;> simp

@[simp] theorem keeps_countTaken (dst : Nat) (units : List Nat) : Keeps s (countTaken s dst units) := by
  simp only [countTaken]; split <;> simp
@[simp] theorem keeps_reverseFields (src dst : Nat) (f : FabricFrame) : Keeps s (reverseFields s src dst f) := by
  simp only [reverseFields]; (repeat' split) <;> simp
@[simp] theorem keeps_endTrims (k : Nat) : Keeps s (endTrims s k) := by
  simp only [endTrims]; (repeat' split) <;> simp

@[simp] theorem keeps_acceptFrame (src dst : Nat) (f : FabricFrame) (body : Nat) (units : List Nat) :
    Keeps s (acceptFrame s src dst f body units) := by
  simp only [acceptFrame]; split <;> simp

@[simp] theorem keeps_stripedFrame (src dst : Nat) (lanes : List (BitVec 112)) (units waiting : List Nat) :
    Keeps s (stripedFrame s src dst lanes units waiting) := by
  simp only [stripedFrame]; (repeat' split) <;> simp

@[simp] theorem keepsOut_execStripedFrame (src dst : Nat) (frame : FrameSeen) :
    KeepsOut s (execStripedFrame src dst frame s) := by
  simp [execStripedFrame]

@[simp] theorem keeps_retireLane (src dst plane : Nat) (held : Bool) :
    Keeps s (retireLane s src dst plane held) := by
  simp [retireLane]

@[simp] theorem keeps_identityMismatch (src dst plane : Nat) : Keeps s (identityMismatch s src dst plane) := by
  simp only [identityMismatch]; split <;> simp
@[simp] theorem keeps_compareWord (src dst : Nat) (pw : Nat × W64) : Keeps s (compareWord src dst s pw) := by
  simp only [compareWord]; (repeat' split) <;> simp

@[simp] theorem keeps_identityWord (src dst plane : Nat) (w : IdSeen) :
    Keeps s (identityWord s src dst plane w) := by
  simp only [identityWord]; (repeat' split) <;> simp

@[simp] theorem keepsOut_execIdentityWord (src dst plane : Nat) (word : IdSeen) :
    KeepsOut s (execIdentityWord src dst plane word s) := by
  simp [execIdentityWord]

@[simp] theorem keeps_laneMarginDone (src dst plane : Nat) (pass : Bool) :
    Keeps s (laneMarginDone s src dst plane pass) := by
  simp only [laneMarginDone]; (repeat' split) <;> simp

@[simp] theorem keepsOut_execLaneMarginTestDone (src dst plane : Nat) (fig : MarginFig) :
    KeepsOut s (execLaneMarginTestDone src dst plane fig s) := by
  simp [execLaneMarginTestDone]

@[simp] theorem keeps_retrainingDone (src dst : Nat) : Keeps s (retrainingDone s src dst) := by
  simp only [retrainingDone]; split <;> simp
@[simp] theorem keepsOut_execRetrainingDone (src dst : Nat) : KeepsOut s (execRetrainingDone src dst s) := by
  simp [execRetrainingDone]
@[simp] theorem keepsOut_execLaneSleep (src dst : Nat) : KeepsOut s (execLaneSleep src dst s) := by simp [execLaneSleep]
@[simp] theorem keeps_darken (k : Nat) : Keeps s (darken s k) := by simp [darken]
@[simp] theorem keeps_relight (k : Nat) : Keeps s (relight s k) := by simp [relight]
@[simp] theorem keeps_fabricLighthouseFault (k : Nat) : Keeps s (fabricLighthouseFault s k) := by
  simp only [fabricLighthouseFault]; (repeat' split) <;> simp

@[simp] theorem keepsOut_execFabricLighthouseFault (site : Nat) :
    KeepsOut s (execFabricLighthouseFault site s) := by
  simp [execFabricLighthouseFault]

@[simp] theorem keeps_fabricLhResume (k : Nat) : Keeps s (fabricLhResume s k) := by
  simp only [fabricLhResume]; split <;> simp
@[simp] theorem keepsOut_execFabricLhResume (site : Nat) : KeepsOut s (execFabricLhResume site s) := by
  simp [execFabricLhResume]
@[simp] theorem keeps_delayQuay (q : Nat) : Keeps s (delayQuay s q) := by simp [delayQuay]
@[simp] theorem keeps_linkLighthouseFault (q : Nat) : Keeps s (linkLighthouseFault s q) := by
  simp only [linkLighthouseFault]; split <;> simp
@[simp] theorem keepsOut_execLinkLighthouseFault (quay : Nat) : KeepsOut s (execLinkLighthouseFault quay s) := by
  simp [execLinkLighthouseFault]
@[simp] theorem keeps_leaveBundle (n k : Nat) (lanes : List Nat) : Keeps s (leaveBundle s n k lanes) := by
  simp [leaveBundle]
@[simp] theorem keeps_removeNearLane (n k lane : Nat) : Keeps s (removeNearLane s n k lane) := by
  simp only [removeNearLane]; (repeat' split) <;> simp

@[simp] theorem keepsOut_execNearLaneBerExceeded (stack bundle lane : Nat) :
    KeepsOut s (execNearLaneBerExceeded stack bundle lane s) := by
  simp [execNearLaneBerExceeded, pending_part_ite]

@[simp] theorem keeps_occupy (n d k : Nat) : Keeps s (occupy s n d k) := by simp [occupy]
@[simp] theorem keeps_nearCredits (n : Nat) (up : Bool) (credits : W32) : Keeps s (nearCredits s n up credits) := by
  simp only [nearCredits]; (repeat' split) <;> simp

@[simp] theorem keeps_nearBundleFrame (n k : Nat) (up : Bool) (f : BundleFrame) :
    Keeps s (nearBundleFrame s n k up f) := by
  simp only [nearBundleFrame]; (repeat' split) <;> simp

@[simp] theorem keepsOut_execNearBundleFrame (stack bundle : Nat) (up : Bool) (frame : BundleFrame) :
    KeepsOut s (execNearBundleFrame stack bundle up frame s) := by
  simp [execNearBundleFrame]

/-! ## Clocks, sleep and wake -/

@[simp] theorem keeps_beat : Keeps s (beat s) := by
  simp only [beat]; split <;> simp
@[simp] theorem keeps_clockTick : Keeps s (clockTick s) := by
  simp only [clockTick]; split <;> simp
@[simp] theorem keeps_crossingRecovery (a b : Nat) : Keeps s (crossingRecovery s a b) := by
  simp only [crossingRecovery]; (repeat' split) <;> simp
@[simp] theorem keeps_crossingTimeout (a b : Nat) : Keeps s (crossingTimeout s a b) := by
  simp only [crossingTimeout]; split <;> simp
@[simp] theorem keepsOut_execCrossingTimeout (c : CrossingId) : KeepsOut s (execCrossingTimeout c s) := by
  simp [execCrossingTimeout]
@[simp] theorem keeps_lighthouseClock (lh : LighthouseId) : Keeps s (lighthouseClock s lh) := by
  simp only [lighthouseClock]; (repeat' split) <;> simp
@[simp] theorem keeps_lockLoss (d : Nat) : Keeps s (lockLoss s d) := by
  simp only [lockLoss]; (repeat' split) <;> simp
@[simp] theorem keepsOut_execGeneratorLockLoss (block : Nat) : KeepsOut s (execGeneratorLockLoss block s) := by
  simp [execGeneratorLockLoss]
@[simp] theorem keeps_clockFailure : Keeps s (clockFailure s) := by simp [clockFailure]
@[simp] theorem keeps_refCheckWindow (edges : Nat) (missing : Bool) : Keeps s (refCheckWindow s edges missing) := by
  simp only [refCheckWindow]; (repeat' split) <;> simp

@[simp] theorem keepsOut_execRefCheckWindow (edges : Nat) (missing : Bool) :
    KeepsOut s (execRefCheckWindow edges missing s) := by
  simp [execRefCheckWindow]

@[simp] theorem keepsOut_execTideModeAlwaysOn (edges : Nat) : KeepsOut s (execTideModeAlwaysOn edges s) := by
  simp [execTideModeAlwaysOn, pending_part_ite]

@[simp] theorem keeps_loadAll : Keeps s (loadAll s) := by
  unfold loadAll
  refine Keeps.foldl (fun t x => ?_) _ _
  split <;> simp

@[simp] theorem keepsOut_execTideModeReference : KeepsOut s (execTideModeReference s) := by
  simp [execTideModeReference, pending_part_ite]
@[simp] theorem keeps_moduleSleep : Keeps s (moduleSleep s) := by
  simp only [moduleSleep]; split <;> simp
@[simp] theorem keepsOut_execModuleSleep : KeepsOut s (execModuleSleep s) := by simp [execModuleSleep]

@[simp] theorem keeps_wakeBy (code : Nat) (sameEdge : List Nat) (quay : Nat) :
    Keeps s (wakeBy s code sameEdge quay) := by
  simp only [wakeBy]; (repeat' split) <;> simp

@[simp] theorem keepsOut_execWake (code : Nat) (sameEdge : List Nat) (quay : Nat) :
    KeepsOut s (execWake code sameEdge quay s) := by
  simp [execWake]

@[simp] theorem keepsOut_execMpAddressMatchWake (offset : Nat) : KeepsOut s (execMpAddressMatchWake offset s) := by
  simp [execMpAddressMatchWake, pending_part_ite]
@[simp] theorem keepsOut_execPresenceButtonPress : KeepsOut s (execPresenceButtonPress s) := by
  simp [execPresenceButtonPress]
@[simp] theorem keepsOut_execPresenceHold : KeepsOut s (execPresenceHold s) := by
  simp [execPresenceHold, pending_part_ite]

@[simp] theorem keepsOut_execPresenceWindowExpiry : KeepsOut s (execPresenceWindowExpiry s) := by
  refine keepsOut_next.2 ?_
  (repeat' split) <;> simp

/-! ## The staged configuration -/

@[simp] theorem keeps_sealWith (c : ConfigImage) : Keeps s (sealWith s c) := ⟨rfl, rfl⟩
@[simp] theorem keeps_configEvent (serial : Nat) : Keeps s (configEvent s serial) := by simp [configEvent]
@[simp] theorem keeps_useActive : Keeps s (useActive s) := by
  simp only [useActive]; split <;> simp
@[simp] theorem keeps_applyConfig : Keeps s (applyConfig s) := by
  simp only [applyConfig]; (repeat' split) <;> simp

/-! ## Privileged requests -/

@[simp] theorem keeps_hmFetch (a len : Nat) {f : State × Option MbxResult} (h : Keeps s f.1) :
    Keeps s (hmFetch s a len f).1 := by
  unfold hmFetch
  (repeat' split) <;> simp [h, pending_part_ite]

@[simp] theorem keepsOut_execKeyEnrol (r : Route) : KeepsOut s (execKeyEnrol r s) := by
  refine keepsOut_blunen _ _ (fun a => ?_)
  dsimp only
  split
  · exact ⟨rfl, rfl⟩
  · exact keeps_hmFetch _ _ _ ⟨rfl, rfl⟩

@[simp] theorem keeps_resetAllParts : Keeps s (resetAllParts s) := by simp [resetAllParts]
@[simp] theorem keepsOut_execSecureErase (r : Route) : KeepsOut s (execSecureErase r s) := by simp [execSecureErase]
@[simp] theorem keepsOut_execLifetimeReset (r : Route) : KeepsOut s (execLifetimeReset r s) := by
  simp [execLifetimeReset]
@[simp] theorem keepsOut_execFwRollback (r : Route) : KeepsOut s (execFwRollback r s) := by simp [execFwRollback]

@[simp] theorem keepsOut_execConfigStage (r : Route) : KeepsOut s (execConfigStage r s) := by
  refine keepsOut_blunen _ _ (fun a => keeps_hmFetch _ _ _ ?_)
  split <;> exact ⟨rfl, rfl⟩

@[simp] theorem keeps_debugSettles : Keeps s (debugSettles s) := by
  simp only [debugSettles]; (repeat' split) <;> simp
@[simp] theorem keeps_zeroUnowned : Keeps s (zeroUnowned s) := by simp [zeroUnowned]
@[simp] theorem keepsOut_execDebugEnable (r : Route) : KeepsOut s (execDebugEnable r s) := by
  simp only [execDebugEnable]; split <;> simp
@[simp] theorem keepsOut_execBreakwaterWrite : KeepsOut s (execBreakwaterWrite s) := by
  simp [execBreakwaterWrite, pending_part_ite]

/-! ## Reset sources, release and boot -/

@[simp] theorem keeps_resetPin (level : Bool) (lowFor : Nat) : Keeps s (resetPin s level lowFor) := by
  simp only [resetPin]; (repeat' split) <;> simp
@[simp] theorem keepsOut_execResetN (level : Bool) (lowFor : Nat) : KeepsOut s (execResetN level lowFor s) := by
  simp [execResetN]
@[simp] theorem keepsOut_execWatchdog : KeepsOut s (execWatchdog s) := by simp [execWatchdog, pending_part_ite]
@[simp] theorem keepsOut_execHmLockup : KeepsOut s (execHmLockup s) := by simp [execHmLockup, pending_part_ite]
@[simp] theorem keepsOut_execJtagResetInstruction : KeepsOut s (execJtagResetInstruction s) := by
  simp [execJtagResetInstruction, pending_part_ite]
@[simp] theorem keeps_clearMsix (fn : Nat) : Keeps s (clearMsix s fn) := ⟨rfl, rfl⟩
@[simp] theorem keeps_pcieReset : Keeps s (pcieReset s) := by simp [pcieReset]
@[simp] theorem keepsOut_execPcieHotReset (_kind : PcieReset) : KeepsOut s (execPcieHotReset _kind s) := by
  simp [execPcieHotReset, pending_part_ite]

@[simp] theorem keepsOut_execVfFlr (vf : Nat) : KeepsOut s (execVfFlr vf s) := by
  refine keepsOut_guarded _ ?_
  (repeat' split) <;> simp

@[simp] theorem keepsOut_execPartitionReset (part cause : Nat) : KeepsOut s (execPartitionReset part cause s) := by
  simp [execPartitionReset, pending_part_ite]
@[simp] theorem keeps_berthBack (b : Nat) : Keeps s (berthBack s b) := by
  simp only [berthBack]; split <;> simp
@[simp] theorem keeps_partitionResetDone (p : Nat) : Keeps s (partitionResetDone s p) := by
  simp only [partitionResetDone]; split <;> simp
@[simp] theorem keepsOut_execPartitionResetDone (part : Nat) : KeepsOut s (execPartitionResetDone part s) := by
  simp [execPartitionResetDone]
@[simp] theorem keeps_latchHarbour : Keeps s (latchHarbour s) := by
  simp only [latchHarbour]; (repeat' split) <;> simp
@[simp] theorem keeps_releaseStep : Keeps s (releaseStep s) := by
  simp only [releaseStep]; (repeat' split) <;> simp
@[simp] theorem keepsOut_execReleaseStep : KeepsOut s (execReleaseStep s) := by simp [execReleaseStep]
@[simp] theorem keeps_toStage (k : Nat) : Keeps s (toStage s k) := ⟨rfl, rfl⟩
@[simp] theorem keeps_slotEvent (slot : Nat) : Keeps s (slotEvent s slot) := by simp [slotEvent]
@[simp] theorem keeps_bootB0 (o : BootObs) : Keeps s (bootB0 s o) := by
  simp only [bootB0]; (repeat' split) <;> simp
@[simp] theorem keeps_unreadableDie (k : Nat) : Keeps s (unreadableDie s k) := by
  simp only [unreadableDie]; (repeat' split) <;> simp
@[simp] theorem keeps_bootB3 (o : BootObs) : Keeps s (bootB3 s o) := by simp [bootB3]

@[simp] theorem keeps_choosePair (failed : List (Nat × Nat × Nat)) (pr : Nat × Nat) :
    Keeps s (choosePair failed s pr) := by
  simp only [choosePair]; split <;> simp

@[simp] theorem keeps_chooseBundle (failed : List (Nat × Nat × Nat)) (nk : Nat × Nat) :
    Keeps s (chooseBundle failed s nk) := by
  simp only [chooseBundle]; (repeat' split) <;> simp

@[simp] theorem keeps_trainLanes : Keeps s (trainLanes s) := ⟨rfl, rfl⟩
@[simp] theorem keeps_bootB4 (o : BootObs) : Keeps s (bootB4 s o) := by simp [bootB4]
@[simp] theorem keeps_bootB5 (o : BootObs) : Keeps s (bootB5 s o) := by
  simp only [bootB5]; (repeat' split) <;> simp
@[simp] theorem keeps_lhAtBoot (lh : LighthouseId) : Keeps s (lhAtBoot s lh) := by
  simp only [lhAtBoot]; (repeat' split) <;> simp
@[simp] theorem keeps_failedAtBoot (el : Element) : Keeps s (failedAtBoot s el) := by
  simp only [failedAtBoot]; (repeat' split) <;> simp
@[simp] theorem keeps_sensorAtBoot (f : Nat × Nat) : Keeps s (sensorAtBoot s f) := by
  simp only [sensorAtBoot]; (repeat' split) <;> simp
@[simp] theorem keeps_calibratedAtBoot (k : Nat) (fig : List Nat) : Keeps s (calibratedAtBoot s k fig) := ⟨rfl, rfl⟩
@[simp] theorem keeps_calibrateAtBoot (o : BootObs) (k : Nat) : Keeps s (calibrateAtBoot o s k) := by
  simp only [calibrateAtBoot]; (repeat' split) <;> simp
@[simp] theorem keeps_bootB6 (o : BootObs) : Keeps s (bootB6 s o) := by simp [bootB6]
@[simp] theorem keeps_bootB7 : Keeps s (bootB7 s) := by simp [bootB7]
@[simp] theorem keeps_bootB8 : Keeps s (bootB8 s) := by
  simp only [bootB8]; split <;> simp

@[simp] theorem keeps_bootB9 : Keeps s (bootB9 s) := by
  unfold bootB9
  refine Keeps.trans (Keeps.foldl (fun t k => ?_) _ _) (keeps_toStage _ _)
  dsimp only
  split <;> simp

@[simp] theorem keeps_bootReady : Keeps s (bootReady s) := by
  refine Keeps.trans ?_ (Keeps.foldl (fun t fn => ?_) _ _)
  · exact ⟨rfl, rfl⟩
  · split <;> simp

@[simp] theorem keeps_bootB2 (o : BootObs) : Keeps s (bootB2 s o) := by simp [bootB2]
@[simp] theorem keeps_bootStageDone (o : BootObs) : Keeps s (bootStageDone s o) := by
  simp only [bootStageDone]; (repeat' split) <;> simp
@[simp] theorem keepsOut_execBootStageDone (obs : BootObs) : KeepsOut s (execBootStageDone obs s) := by
  simp [execBootStageDone]
@[simp] theorem keeps_readyTimeout : Keeps s (readyTimeout s) := by
  simp only [readyTimeout]; (repeat' split) <;> simp
@[simp] theorem keepsOut_execReadyTimeout : KeepsOut s (execReadyTimeout s) := by simp [execReadyTimeout]
@[simp] theorem keeps_rungDeadline (rung reach unit : Nat) : Keeps s (rungDeadline s rung reach unit) := by
  simp only [rungDeadline]; (repeat' split) <;> simp

@[simp] theorem keepsOut_execEscalationRungDeadline (rung reach unit : Nat) :
    KeepsOut s (execEscalationRungDeadline rung reach unit s) := by
  simp [execEscalationRungDeadline]

@[simp] theorem keeps_updHm (i : Nat) (f : HmInst → HmInst) : Keeps s (updHm s i f) := ⟨rfl, rfl⟩
@[simp] theorem keeps_hmEvent (i outcome : Nat) : Keeps s (hmEvent s i outcome) := by simp [hmEvent]
@[simp] theorem keeps_hmSwitchover : Keeps s (hmSwitchover s) := by
  simp only [hmSwitchover]; (repeat' split) <;> simp
@[simp] theorem keepsOut_execHmSwitchover (_fatal : Bool) : KeepsOut s (execHmSwitchover _fatal s) := by
  simp [execHmSwitchover, pending_part_ite]
@[simp] theorem keeps_hmHandback : Keeps s (hmHandback s) := by
  simp only [hmHandback]; split <;> simp
@[simp] theorem keepsOut_execHmHandback : KeepsOut s (execHmHandback s) := by simp [execHmHandback]
@[simp] theorem keeps_siteBack (k : Nat) : Keeps s (siteBack s k) := by simp [siteBack]
@[simp] theorem keeps_siteRecovery (k : Nat) (pass : Bool) : Keeps s (siteRecovery s k pass) := by
  simp only [siteRecovery]; (repeat' split) <;> simp

@[simp] theorem keepsOut_execSiteRecovery (site : Nat) (pass : Bool) :
    KeepsOut s (execSiteRecovery site pass s) := by
  simp [execSiteRecovery]

@[simp] theorem keepsOut_execTamperSealBreak : KeepsOut s (execTamperSealBreak s) := by simp [execTamperSealBreak]

/-! ## The harbour -/

@[simp] theorem keeps_beginDrain (p q : Nat) (r : Route2) : Keeps s (beginDrain s p q r) := by
  simp only [beginDrain]; split <;> simp
@[simp] theorem keeps_moveToRelay (p q : Nat) : Keeps s (moveToRelay s p q) := by simp [moveToRelay]
@[simp] theorem keeps_movePairs (l : List (Nat × Nat)) : Keeps s (movePairs s l) := by
  simp only [movePairs]; split <;> simp
@[simp] theorem keeps_scheduleLinks (l : List (Nat × Nat)) : Keeps s (scheduleLinks s l) := by simp [scheduleLinks]
@[simp] theorem keeps_scheduleLink (p q : Nat) : Keeps s (scheduleLink s p q) := by
  simp only [scheduleLink]; split <;> simp
@[simp] theorem keeps_failLink (k : Nat) : Keeps s (failLink s k) := by simp [failLink]
@[simp] theorem keeps_refuseLink (k code : Nat) : Keeps s (refuseLink s k code) := by
  simp only [refuseLink]; split <;> simp
@[simp] theorem keeps_linkUp (k : Nat) (w : TrainWord) : Keeps s (linkUp s k w) := by
  simp only [linkUp]; split <;> simp
@[simp] theorem keeps_trainingWord (k : Nat) (w : TrainWord) : Keeps s (trainingWord s k w) := by
  simp only [trainingWord]; (repeat' split) <;> simp

@[simp] theorem keepsOut_execTrainingWord (link : Nat) (word : TrainWord) :
    KeepsOut s (execTrainingWord link word s) := by
  simp [execTrainingWord]

@[simp] theorem keeps_retrain (k : Nat) : Keeps s (retrain s k) := by simp [retrain]
@[simp] theorem keepsOut_execLinkRetrainTimer (link : Nat) : KeepsOut s (execLinkRetrainTimer link s) := by
  simp [execLinkRetrainTimer, pending_part_ite]
@[simp] theorem keeps_badFrame (k : Nat) : Keeps s (badFrame s k) := by
  simp only [badFrame]; (repeat' split) <;> simp

@[simp] theorem keeps_squeeze (k flows : Nat) : Keeps s (squeeze s k flows) := by
  simp only [squeeze]
  split
  · refine Keeps.foldl (fun t id => ?_) _ _
    split <;> simp
  · simp

@[simp] theorem keeps_transitOut (j : Nat) (e : Nat × List Nat) : Keeps s (transitOut s j e) := by simp [transitOut]

@[simp] theorem keeps_transitDrain (j n : Nat) (s : State) : Keeps s (transitDrain s j n) := by
  induction n generalizing s with
  | zero => exact ⟨rfl, rfl⟩
  | succ n ih =>
    simp only [transitDrain]
    (repeat' split) <;> simp [ih]

@[simp] theorem keeps_transitFrame (k j : Nat) (o : LinkFrameObs) : Keeps s (transitFrame s k j o) := by
  simp only [transitFrame]; split <;> simp
@[simp] theorem keeps_goodFrame (k : Nat) (o : LinkFrameObs) : Keeps s (goodFrame s k o) := by
  simp only [goodFrame]; (repeat' split) <;> simp
@[simp] theorem keeps_linkFrame (k : Nat) (o : LinkFrameObs) : Keeps s (linkFrame s k o) := by
  simp only [linkFrame]; (repeat' split) <;> simp

@[simp] theorem keepsOut_execLinkFrame (link : Nat) (obs : LinkFrameObs) :
    KeepsOut s (execLinkFrame link obs s) := by
  simp [execLinkFrame]

@[simp] theorem keeps_nextFirst (k : Nat) : Keeps s (nextFirst s k) := by
  simp only [nextFirst]; (repeat' split) <;> simp
@[simp] theorem keeps_linkNoFrame (k : Nat) : Keeps s (linkNoFrame s k) := by
  simp only [linkNoFrame]; (repeat' split) <;> simp
@[simp] theorem keepsOut_execLinkNoFrame (link : Nat) : KeepsOut s (execLinkNoFrame link s) := by simp [execLinkNoFrame]
@[simp] theorem keeps_linkRelease (k : Nat) : Keeps s (linkRelease s k) := by
  simp only [linkRelease]; split <;> simp
@[simp] theorem keepsOut_execLinkRelease (link : Nat) : KeepsOut s (execLinkRelease link s) := by simp [execLinkRelease]
@[simp] theorem keeps_linkEntry (k : Nat) : Keeps s (linkEntry s k) := by
  simp only [linkEntry]; (repeat' split) <;> simp

@[simp] theorem keepsOut_execLinkResetEntryInstant (link : Nat) :
    KeepsOut s (execLinkResetEntryInstant link s) := by
  simp [execLinkResetEntryInstant]

@[simp] theorem keeps_planReset : Keeps s (planReset s) := by
  simp only [planReset]; split <;> simp
@[simp] theorem keepsOut_execResetReq (fn : Nat) (value : W64) : KeepsOut s (execResetReq fn value s) := by
  simp [execResetReq, pending_part_ite]
@[simp] theorem keeps_rerouteFrom (r : Nat) : Keeps s (rerouteFrom s r) := by simp [rerouteFrom]
@[simp] theorem keeps_relayRoute (p : Nat) (m : MoveSeen) : Keeps s (relayRoute s p m) := by
  simp only [relayRoute]; (repeat' split) <;> simp
@[simp] theorem keepsOut_execRelayRouteTimer (p : Nat) (q : MoveSeen) : KeepsOut s (execRelayRouteTimer p q s) := by
  simp [execRelayRouteTimer]
@[simp] theorem keepsOut_execRouteReturnTimer (p q : Nat) : KeepsOut s (execRouteReturnTimer p q s) := by
  simp [execRouteReturnTimer, pending_part_ite]

@[simp] theorem keeps_relayRoles : Keeps s (relayRoles s) := by
  unfold relayRoles
  refine Keeps.foldl (fun t x => ?_) _ _
  dsimp only
  (repeat' split) <;> simp

@[simp] theorem keeps_routeDrainDone (p : Nat) (d : DrainSeen) : Keeps s (routeDrainDone s p d) := by
  simp only [routeDrainDone]; (repeat' split) <;> simp
@[simp] theorem keepsOut_execRouteDrainDone (p : Nat) (q : DrainSeen) : KeepsOut s (execRouteDrainDone p q s) := by
  simp [execRouteDrainDone]

@[simp] theorem keeps_tideEvent (outcome guarantee : Nat) (ns : Int) :
    Keeps s (tideEvent s outcome guarantee ns) := by
  simp [tideEvent]

@[simp] theorem keeps_relax (why : Nat) (holds : Bool) (ns : Int) : Keeps s (relax s why holds ns) := by
  simp only [relax]; split <;> simp
@[simp] theorem keeps_keepsTide : Keeps s (keepsTide s) := by simp [keepsTide]
@[simp] theorem keeps_holdoverDrift : Keeps s (holdoverDrift s) := by
  simp only [holdoverDrift]; (repeat' split) <;> simp
@[simp] theorem keeps_judgeOffset : Keeps s (judgeOffset s) := by
  simp only [judgeOffset]; split <;> simp
@[simp] theorem keeps_tideSyncSend : Keeps s (tideSyncSend s) := by simp [tideSyncSend]
@[simp] theorem keepsOut_execTideSyncSend : KeepsOut s (execTideSyncSend s) := by simp [execTideSyncSend]
@[simp] theorem keeps_learnMaster (k : Nat) : Keeps s (learnMaster s k) := by
  simp only [learnMaster]; (repeat' split) <;> simp
@[simp] theorem keeps_syncTide (k masterTide arrival : Nat) : Keeps s (syncTide s k masterTide arrival) := by
  simp only [syncTide]; (repeat' split) <;> simp

@[simp] theorem keeps_tideSyncMessage (k masterTide arrival : Nat) :
    Keeps s (tideSyncMessage s k masterTide arrival) := by
  simp [tideSyncMessage]

@[simp] theorem keepsOut_execTideSyncMessage (link masterTide arrival : Nat) :
    KeepsOut s (execTideSyncMessage link masterTide arrival s) := by
  simp [execTideSyncMessage]

@[simp] theorem keeps_tideDelayExchange (k t1 t2 t3 t4 : Nat) : Keeps s (tideDelayExchange s k t1 t2 t3 t4) := by
  simp only [tideDelayExchange]; (repeat' split) <;> simp

@[simp] theorem keepsOut_execTideDelayExchange (link t1 t2 t3 t4 : Nat) :
    KeepsOut s (execTideDelayExchange link t1 t2 t3 t4 s) := by
  simp [execTideDelayExchange]

@[simp] theorem keeps_tideFirstLock (harbourTide : Nat) : Keeps s (tideFirstLock s harbourTide) := by
  simp only [tideFirstLock]; (repeat' split) <;> simp
@[simp] theorem keepsOut_execTideFirstLock (harbourTide : Nat) : KeepsOut s (execTideFirstLock harbourTide s) := by
  simp [execTideFirstLock]
@[simp] theorem keeps_holdoverExpiry : Keeps s (holdoverExpiry s) := by
  simp only [holdoverExpiry]; (repeat' split) <;> simp
@[simp] theorem keepsOut_execHoldoverExpiry : KeepsOut s (execHoldoverExpiry s) := by simp [execHoldoverExpiry]
@[simp] theorem keeps_heartbeat (pos part : Nat) : Keeps s (heartbeat s pos part) := by
  simp only [heartbeat]; (repeat' split) <;> simp
@[simp] theorem keepsOut_execHeartbeat (pos part : Nat) : KeepsOut s (execHeartbeat pos part s) := by
  simp [execHeartbeat]
@[simp] theorem keeps_moduleDead (pos : Nat) : Keeps s (moduleDead s pos) := by
  simp only [moduleDead]; split <;> simp

@[simp] theorem keeps_heartbeatTimeout (pos : Nat) (probeAnswered : Bool) :
    Keeps s (heartbeatTimeout s pos probeAnswered) := by
  simp only [heartbeatTimeout]; split <;> simp

@[simp] theorem keepsOut_execHeartbeatTimeout (pos : Nat) (probeAnswered : Bool) :
    KeepsOut s (execHeartbeatTimeout pos probeAnswered s) := by
  simp [execHeartbeatTimeout]

@[simp] theorem keeps_deadDeclaration (pos : Nat) (site : Option Nat) : Keeps s (deadDeclaration s pos site) := by
  simp only [deadDeclaration]; (repeat' split) <;> simp

@[simp] theorem keepsOut_execDeadDeclaration (pos : Nat) (site : Option Nat) :
    KeepsOut s (execDeadDeclaration pos site s) := by
  simp [execDeadDeclaration]

@[simp] theorem keeps_masterSyncLoss : Keeps s (masterSyncLoss s) := by
  simp only [masterSyncLoss]; split <;> simp
@[simp] theorem keepsOut_execMasterSyncLoss : KeepsOut s (execMasterSyncLoss s) := by simp [execMasterSyncLoss]
@[simp] theorem keeps_claimCollect (claims : List Claim) : Keeps s (claimCollect s claims) := by
  simp only [claimCollect]; (repeat' split) <;> simp
@[simp] theorem keepsOut_execClaimCollect (claims : List Claim) : KeepsOut s (execClaimCollect claims s) := by
  simp [execClaimCollect]
@[simp] theorem keeps_masterHandback : Keeps s (masterHandback s) := by
  simp only [masterHandback]; (repeat' split) <;> simp
@[simp] theorem keepsOut_execMasterHandback : KeepsOut s (execMasterHandback s) := by simp [execMasterHandback]
@[simp] theorem keeps_scheduleReleases (pos : Nat) : Keeps s (scheduleReleases s pos) := by simp [scheduleReleases]
@[simp] theorem keeps_rejoinRequest (pos part : Nat) : Keeps s (rejoinRequest s pos part) := by
  simp only [rejoinRequest]; (repeat' split) <;> simp
@[simp] theorem keepsOut_execRejoinRequest (pos part : Nat) : KeepsOut s (execRejoinRequest pos part s) := by
  simp [execRejoinRequest]

/-! ## Power and heat -/

@[simp] theorem keeps_inputEvent : Keeps s (inputEvent s) := by simp [inputEvent]
@[simp] theorem keeps_settleStore : Keeps s (settleStore s) := ⟨rfl, rfl⟩
@[simp] theorem keeps_stopConverting : Keeps s (stopConverting s) := by
  simp only [stopConverting]; (repeat' split) <;> simp
@[simp] theorem keeps_inputVoltage (mv : Nat) : Keeps s (inputVoltage s mv) := by
  simp only [inputVoltage]; (repeat' split) <;> simp

@[simp] theorem keepsOut_execInputVoltageChange (millivolts : Nat) :
    KeepsOut s (execInputVoltageChange millivolts s) := by
  simp [execInputVoltageChange]

@[simp] theorem keeps_conversionResume : Keeps s (conversionResume s) := by
  simp only [conversionResume]; (repeat' split) <;> simp
@[simp] theorem keepsOut_execConversionResume : KeepsOut s (execConversionResume s) := by simp [execConversionResume]
@[simp] theorem keepsOut_execInterlockOpen : KeepsOut s (execInterlockOpen s) := by simp [execInterlockOpen]
@[simp] theorem keepsOut_execInterlockClose : KeepsOut s (execInterlockClose s) := by simp [execInterlockClose]
@[simp] theorem keeps_brownOut : Keeps s (brownOut s) := by
  simp only [brownOut]; split <;> simp
@[simp] theorem keepsOut_execBrownOut : KeepsOut s (execBrownOut s) := by simp [execBrownOut]
@[simp] theorem keeps_newStart : Keeps s (newStart s) := by
  simp only [newStart]; split <;> simp
@[simp] theorem keepsOut_execNewStart : KeepsOut s (execNewStart s) := by simp [execNewStart]
@[simp] theorem keepsOut_execAlwaysOnStoreExhausted : KeepsOut s (execAlwaysOnStoreExhausted s) := by
  simp [execAlwaysOnStoreExhausted, pending_part_ite]
@[simp] theorem keeps_preCharge : Keeps s (preCharge s) := by
  simp only [preCharge]; split <;> simp
@[simp] theorem keepsOut_execPreCharge : KeepsOut s (execPreCharge s) := by simp [execPreCharge]
@[simp] theorem keepsOut_execLimiterTick (berth power : Nat) : KeepsOut s (execLimiterTick berth power s) := by
  simp [execLimiterTick]
@[simp] theorem keeps_regionBands (r : BerthReading) (tOut : Int) : Keeps s (regionBands s r tOut) := by
  simp [regionBands]
@[simp] theorem keeps_heatEvent (site : Nat) (limit old new : Int) : Keeps s (heatEvent s site limit old new) := by
  simp only [heatEvent]; split <;> simp
@[simp] theorem keeps_berthHeat (tOut : Int) (r : BerthReading) : Keeps s (berthHeat tOut s r) := by
  simp only [berthHeat]; split <;> simp
@[simp] theorem keeps_berthPower (r : BerthReading) : Keeps s (berthPower s r) := by
  simp only [berthPower]; split <;> simp

@[simp] theorem keeps_portBands : Keeps s (portBands s) := by
  unfold portBands
  refine Keeps.foldl (fun t x => ?_) _ _
  dsimp only
  split <;> simp

@[simp] theorem keeps_quayHeat (q : Nat) (t : Int) : Keeps s (quayHeat s q t) := by
  simp only [quayHeat]; split <;> simp
@[simp] theorem keeps_heatReset : Keeps s (heatReset s) := by
  simp only [heatReset]; split <;> simp
@[simp] theorem keeps_takeReadings (r : ModuleReading) : Keeps s (takeReadings s r) := by simp [takeReadings]
@[simp] theorem keeps_powerCapTick (r : ModuleReading) : Keeps s (powerCapTick s r) := by simp [powerCapTick]
@[simp] theorem keepsOut_execPowerCapTick (r : ModuleReading) : KeepsOut s (execPowerCapTick r s) := by
  simp [execPowerCapTick]
@[simp] theorem keeps_dieSensor (b i : Nat) : Keeps s (dieSensor s b i) := by
  simp only [dieSensor]; (repeat' split) <;> simp

@[simp] theorem keepsOut_execDieSensorSuspect (berth sensor : Nat) :
    KeepsOut s (execDieSensorSuspect berth sensor s) := by
  simp [execDieSensorSuspect]

@[simp] theorem keeps_flowTick (powerIn : Nat) (tIn tOut : Int) : Keeps s (flowTick s powerIn tIn tOut) := by
  simp [flowTick]

@[simp] theorem keepsOut_execFlowRequestTick (powerIn : Nat) (tIn tOut : Int) :
    KeepsOut s (execFlowRequestTick powerIn tIn tOut s) := by
  simp [execFlowRequestTick]

@[simp] theorem keeps_coolingFault (why : CoolingCause) : Keeps s (coolingFault s why) := by
  simp only [coolingFault]; (repeat' split) <;> simp
@[simp] theorem keepsOut_execCoolingFault (why : CoolingCause) : KeepsOut s (execCoolingFault why s) := by
  simp [execCoolingFault]

@[simp] theorem keepsOut_execCoolingFaultClear : KeepsOut s (execCoolingFaultClear s) := by
  refine keepsOut_next.2 ?_
  (repeat' split) <;> simp

@[simp] theorem keeps_stopDomains (b : Nat) : Keeps s (stopDomains s b) := by simp [stopDomains]
@[simp] theorem keeps_berthShutdown (b : Nat) : Keeps s (berthShutdown s b) := by
  simp only [berthShutdown]; (repeat' split) <;> simp
@[simp] theorem keepsOut_execBerthShutdown (berth : Nat) : KeepsOut s (execBerthShutdown berth s) := by
  simp [execBerthShutdown]
@[simp] theorem keeps_thermalHoldEnd (b : Nat) (temp : Int) : Keeps s (thermalHoldEnd s b temp) := by
  simp only [thermalHoldEnd]; split <;> simp

@[simp] theorem keepsOut_execThermalHoldEnd (berth : Nat) (temp : Int) :
    KeepsOut s (execThermalHoldEnd berth temp s) := by
  simp [execThermalHoldEnd]

@[simp] theorem keeps_thermalSample (hmArea : List Int) (tIn tOut : Int) :
    Keeps s (thermalSample s hmArea tIn tOut) := by
  simp only [thermalSample]; (repeat' split) <;> simp

@[simp] theorem keepsOut_execAlwaysOnThermalSample (hmArea : List Int) (tIn tOut : Int) :
    KeepsOut s (execAlwaysOnThermalSample hmArea tIn tOut s) := by
  simp [execAlwaysOnThermalSample]

/-! ## Registers -/

@[simp] theorem keeps_feCtrl (v : W32) : Keeps s (feCtrl s v) := by
  simp only [feCtrl]; split <;> simp
@[simp] theorem keepsOut_execFeEnable (value : W64) : KeepsOut s (execFeEnable value s) := by
  simp [execFeEnable, pending_part_ite]
@[simp] theorem keepsOut_execFeDisable (value : W64) : KeepsOut s (execFeDisable value s) := by
  simp [execFeDisable, pending_part_ite]
@[simp] theorem keeps_feHead (v : W32) : Keeps s (feHead s v) := by
  simp only [feHead]; split <;> simp
@[simp] theorem keepsOut_execFeHeadWrite (value : W32) : KeepsOut s (execFeHeadWrite value s) := by
  simp [execFeHeadWrite, pending_part_ite]
@[simp] theorem keeps_deliverEvent : Keeps s (deliverEvent s) := by
  simp only [deliverEvent]; (repeat' split) <;> simp
@[simp] theorem keepsOut_execFaultEventDelivery : KeepsOut s (execFaultEventDelivery s) := by
  simp [execFaultEventDelivery, pending_part_ite]
@[simp] theorem keepsOut_execErrorLogWrite : KeepsOut s (execErrorLogWrite s) := by
  simp [execErrorLogWrite, pending_part_ite]

@[simp] theorem keeps_mpWrite (offset : Nat) (data : List Byte) (reg width : Nat) {f : State → List Byte → State}
    (h : ∀ t bs, Keeps t (f t bs)) : Keeps s (mpWrite offset data reg width f s) := by
  unfold mpWrite
  split <;> simp [h]

@[simp] theorem keeps_dumpSelect (v : W32) : Keeps s (dumpSelect s v) := ⟨rfl, rfl⟩
@[simp] theorem keeps_imgCtrl (v : W32) : Keeps s (imgCtrl s v) := by
  simp only [imgCtrl]; split <;> simp
@[simp] theorem keeps_imgStore (bs : List Byte) : Keeps s (imgStore s bs) := by
  simp only [imgStore]; split <;> simp
@[simp] theorem keeps_imgLength (bs : List Byte) : Keeps s (imgLength s bs) := by
  simp only [imgLength]; split <;> simp
@[simp] theorem keeps_hbrPosWrite (bs : List Byte) : Keeps s (hbrPosWrite s bs) := ⟨rfl, rfl⟩
@[simp] theorem keeps_hbrMembersWrite (bs : List Byte) : Keeps s (hbrMembersWrite s bs) := ⟨rfl, rfl⟩
@[simp] theorem keeps_mpTransaction (offset : Nat) (data : List Byte) : Keeps s (mpTransaction s offset data) := by
  simp [mpTransaction]

@[simp] theorem keepsOut_execMpWriteTransaction (offset : Nat) (data : List Byte) :
    KeepsOut s (execMpWriteTransaction offset data s) := by
  simp [execMpWriteTransaction, pending_part_ite]

@[simp] theorem keepsOut_execMpDynamicAddress (addr : Nat) : KeepsOut s (execMpDynamicAddress addr s) := by
  simp [execMpDynamicAddress, pending_part_ite]
@[simp] theorem keepsOut_execDumpCtrl (value : W32) : KeepsOut s (execDumpCtrl value s) := by
  simp [execDumpCtrl, pending_part_ite]
@[simp] theorem keepsOut_execDumpWindowLoaded : KeepsOut s (execDumpWindowLoaded s) := by
  simp [execDumpWindowLoaded, pending_part_ite]
@[simp] theorem keepsOut_execImgCommit (value : W32) : KeepsOut s (execImgCommit value s) := by
  simp [execImgCommit, pending_part_ite]
@[simp] theorem keeps_imgVerify : Keeps s (imgVerify s) := by
  simp only [imgVerify]; (repeat' split) <;> simp
@[simp] theorem keepsOut_execImgVerifyDone : KeepsOut s (execImgVerifyDone s) := by
  simp [execImgVerifyDone, pending_part_ite]
@[simp] theorem keeps_mbxReqWrite (fn o : Nat) (bs : List Byte) : Keeps s (mbxReqWrite s fn o bs) := by
  simp only [mbxReqWrite]; split <;> simp
@[simp] theorem keeps_msixWrite (fn v o : Nat) (bs : List Byte) : Keeps s (msixWrite s fn v o bs) := by
  simp only [msixWrite]; split <;> simp
@[simp] theorem keeps_pfWrite (off : Nat) (bs : List Byte) : Keeps s (pfWrite s off bs) := by
  simp only [pfWrite]; (repeat' split) <;> simp
@[simp] theorem keeps_barWrite (fn off : Nat) (bs : List Byte) : Keeps s (barWrite s fn off bs) := by
  simp only [barWrite]; (repeat' split) <;> simp
@[simp] theorem keeps_numVFsWrite (fn : Nat) (data : List Byte) : Keeps s (numVFsWrite s fn data) := by
  simp only [numVFsWrite]; split <;> simp

@[simp] theorem keepsOut_execRegisterWrite (space : RegSpace) (offset : Nat) (data : List Byte) :
    KeepsOut s (execRegisterWrite space offset data s) := by
  refine keepsOut_guarded _ ?_
  (repeat' split) <;> simp

/-! ## Synchronisation commands -/

@[simp] theorem keepsOut_execCntWait (id : CmdId) : KeepsOut s (execCntWait id s) := by
  simp [execCntWait, pending_part_ite]
@[simp] theorem keepsOut_execCntAdd (id : CmdId) : KeepsOut s (execCntAdd id s) := by simp [execCntAdd]
@[simp] theorem keepsOut_execCntSet (id : CmdId) : KeepsOut s (execCntSet id s) := by simp [execCntSet]
@[simp] theorem keepsOut_execCntRead (id : CmdId) : KeepsOut s (execCntRead id s) := by simp [execCntRead]
@[simp] theorem keepsOut_execTideWait (id : CmdId) : KeepsOut s (execTideWait id s) := by
  simp [execTideWait, pending_part_ite]
@[simp] theorem keepsOut_execTideRead (id : CmdId) : KeepsOut s (execTideRead id s) := by simp [execTideRead]
@[simp] theorem keepsOut_execCtxDrain (id : CmdId) : KeepsOut s (execCtxDrain id s) := by
  simp [execCtxDrain, pending_part_ite]

/-! ## Every command, and every step -/

/-- No arm of `exec` writes the queue or PART. -/
theorem keepsOut_exec (c : Instr) : KeepsOut s (exec c s) := by
  cases c <;> simp [exec]

/-- A step takes the front command out of the queue, or lets the clock tick on an empty one, and leaves PART alone. -/
theorem step_takes_front {t : State} (h : step s = .next t) :
    t.pending = s.pending.tail ∧ t.ident.part = s.ident.part := by
  unfold step at h
  split at h
  · next hp =>
    cases h
    simp [hp]
  · next c rest hp =>
    rw [hp]
    exact keepsOut_exec _ c t h

/-- Settles O4: no command writes the queue or PART, by one lemma for each function that a command calls. -/
theorem queueIsFifoAndVariantFixed : Obligations.QueueIsFifoAndVariantFixed := by
  refine ⟨fun s t c rest hp h => ?_, fun s t hp h => ?_, fun s t h => (step_takes_front s h).2⟩
  · rw [(step_takes_front s h).1, hp, List.tail_cons]
  · rw [(step_takes_front s h).1, hp, List.tail_nil]

end Sys2Proof.Machine
end

section
/-! SUPPORT. Synchronisation commands: what the requests that the work of a command makes leave alone, and how the four
counter commands end. -/

namespace Sys2Proof.Machine

/-! ## What the requests of a command's work leave alone -/

/-- `t` differs from `s` in what the requests of command `id` may change: request tracking, lane sleep, link frames, messages,
and the status of that command; its phase, results and plan stay, as does every other command. -/
def RequestsLeave (id : CmdId) (s t : State) : Prop :=
  t = { s with ctxs := t.ctxs, reqs := t.reqs, sent := t.sent, pairs := t.pairs,
               harbour := { s.harbour with links := t.harbour.links } } ∧
  (∀ k, k ≠ id.ctx → getCtx t k = getCtx s k) ∧ (∀ i, i ≠ id → findCmd t i = findCmd s i) ∧
  ∀ x, findCmd s id = some x → ∃ y, findCmd t id = some y ∧ y.phase = x.phase ∧ y.results = x.results ∧ y.opt = x.opt

theorem RequestsLeave.refl (id : CmdId) (s : State) : RequestsLeave id s s :=
  ⟨rfl, fun _ _ => rfl, fun _ _ => rfl, fun x hx => ⟨x, hx, rfl, rfl, rfl⟩⟩

theorem RequestsLeave.trans {id : CmdId} {s t u : State} (h : RequestsLeave id s t) (k : RequestsLeave id t u) :
    RequestsLeave id s u := by
  obtain ⟨h1, h2, h3, h4⟩ := h
  obtain ⟨k1, k2, k3, k4⟩ := k
  refine ⟨by rw [k1, h1], fun j hj => (k2 j hj).trans (h2 j hj), fun i hi => (k3 i hi).trans (h3 i hi), fun x hx => ?_⟩
  obtain ⟨y, hy, p1, p2, p3⟩ := h4 x hx
  obtain ⟨z, hz, q1, q2, q3⟩ := k4 y hy
  exact ⟨z, hz, q1.trans p1, q2.trans p2, q3.trans p3⟩

/-- A change that leaves the contexts alone, and nothing but what requests change. -/
theorem RequestsLeave.of_ctxs {id : CmdId} {s t : State}
    (h : t = { s with reqs := t.reqs, sent := t.sent, pairs := t.pairs,
                      harbour := { s.harbour with links := t.harbour.links } }) : RequestsLeave id s t := by
  have hc : t.ctxs = s.ctxs := by rw [h]
  refine ⟨by rw [hc]; exact h, fun _ _ => by simp [getCtx, hc], fun _ _ => by simp [findCmd, getCtx, hc],
    fun x hx => ⟨x, by simpa [findCmd, getCtx, hc] using hx, rfl, rfl, rfl⟩⟩

theorem sendReq_frame (s : State) (o : OutReq) :
    sendReq s o = { s with sent := (sendReq s o).sent, pairs := (sendReq s o).pairs,
                           harbour := { s.harbour with links := (sendReq s o).harbour.links } } := by
  unfold sendReq wakeLanes linkSend
  split <;> split <;> rfl

theorem requestsLeave_sendReq {id : CmdId} (s : State) (o : OutReq) : RequestsLeave id s (sendReq s o) :=
  .of_ctxs (by rw [sendReq_frame s o])

/-- What the answer or the end of a request leaves of its command. -/
def Cmd.noted (c : Cmd) (o : OutReq) (st d t : Nat) : Cmd :=
  let c1 := { c.note st d with tideEnd := t }
  if st = S_OK ∨ st = S_DEGRADED then c1
  else match o.chunk with
    | some k => { c1 with tug := { c1.tug with bad := insertNat k c1.tug.bad } }
    | none => { c1 with slotLost := c1.slotLost || o.slot.isSome }

@[simp] theorem Cmd.noted_id (c : Cmd) (o : OutReq) (st d t : Nat) : (c.noted o st d t).id = c.id := by
  unfold Cmd.noted; split <;> [skip; split] <;> simp
@[simp] theorem Cmd.noted_phase (c : Cmd) (o : OutReq) (st d t : Nat) : (c.noted o st d t).phase = c.phase := by
  unfold Cmd.noted; split <;> [skip; split] <;> simp
@[simp] theorem Cmd.noted_results (c : Cmd) (o : OutReq) (st d t : Nat) : (c.noted o st d t).results = c.results := by
  unfold Cmd.noted; split <;> [skip; split] <;> simp
@[simp] theorem Cmd.note_opt (c : Cmd) (st d : Nat) : (c.note st d).opt = c.opt := by
  unfold Cmd.note; split <;> rfl
@[simp] theorem Cmd.noted_opt (c : Cmd) (o : OutReq) (st d t : Nat) : (c.noted o st d t).opt = c.opt := by
  unfold Cmd.noted; split <;> [skip; split] <;> simp

/-- The answer of a request that reads no ring slot and moves no chunk goes to its command alone. -/
theorem noteOut_eq_updCmd {s : State} {o : OutReq} {id : CmdId} (st d : Nat) (hs : o.slot = none) (hk : o.chunk = none)
    (hc : o.req.srcCtx = some id) : noteOut s o st d = updCmd s id (fun c => c.noted o st d (now s)) := by
  simp [noteOut, Cmd.noted, hs, hk, hc]

/-- What a request meets at its source changes at most the status of its command, when it reads no ring slot and moves no
chunk. -/
theorem requestsLeave_noteOut {id : CmdId} (s : State) {o : OutReq} (st d : Nat) (hs : o.slot = none) (hk : o.chunk = none)
    (hc : o.req.srcCtx = some id) : RequestsLeave id s (noteOut s o st d) := by
  rw [noteOut_eq_updCmd st d hs hk hc]
  have hf : ∀ c : Cmd, (c.noted o st d (now s)).id = c.id := fun _ => Cmd.noted_id _ _ _ _ _
  refine ⟨rfl, fun k hk => getCtx_updCmd_other hk, fun i hi => findCmd_updCmd_other hf hi, fun x hx => ⟨_, by
    rw [findCmd_updCmd_self hf, hx]; rfl, ?_⟩⟩
  simp

/-- A new request of a command's work is tracked at the end of the list, unless its source meets something. -/
theorem issueTracked_of_meets_none {s : State} {r : WireReq} {p : Purpose} (h : issueMeets s r (destSite s r.addr) = none) :
    ∃ o, (issueTracked s r p).reqs = { s.reqs with out := s.reqs.out ++ [o] } ∧
      o.req = stamped s r (destSite s r.addr) := by
  unfold issueTracked
  simp only [h]
  split
  · exact ⟨_, rfl, rfl⟩
  · rw [sendReq_frame]
    exact ⟨_, rfl, rfl⟩

theorem requestsLeave_issueTracked {id : CmdId} (s : State) {r : WireReq} {p : Purpose} (hs : p.slot = none)
    (hk : p.chunk = none) (hc : r.srcCtx = some id) : RequestsLeave id s (issueTracked s r p) := by
  unfold issueTracked
  dsimp only
  split
  · exact requestsLeave_noteOut s _ _ hs hk (by simpa [stamped] using hc)
  · split
    · exact .of_ctxs rfl
    · exact .trans (.of_ctxs rfl) (requestsLeave_sendReq _ _)

theorem requestsLeave_issueWork {id : CmdId} (s : State) {r : WireReq} {p : Purpose} (hs : p.slot = none)
    (hk : p.chunk = none) (hc : r.srcCtx = some id) : RequestsLeave id s (issueWork s r p) :=
  .trans (t := useTag s r.tag) (.of_ctxs rfl) (requestsLeave_issueTracked _ hs hk hc)

theorem requestsLeave_issueStores (s : State) (c : Cmd) {p : Purpose} (hs : p.slot = none) (hk : p.chunk = none) (a : Nat)
    (l : List Byte) : RequestsLeave c.id s (issueStores s c p a l) := by
  unfold issueStores
  refine foldl_rel (RequestsLeave.refl c.id) RequestsLeave.trans (fun t x => ?_) _ _
  split
  · split
    · exact requestsLeave_issueWork _ hs hk rfl
    · exact foldl_rel (RequestsLeave.refl c.id) RequestsLeave.trans
        (fun u q => requestsLeave_issueWork _ hs hk rfl) _ _
  · exact .refl _ t

theorem requestsLeave_issueResults (s : State) (c : Cmd) (l : List (Nat × Byte)) :
    RequestsLeave c.id s (issueResults s c l) := by
  unfold issueResults
  generalize gather l = g
  exact foldl_rel (RequestsLeave.refl c.id) RequestsLeave.trans (fun t r => requestsLeave_issueStores t c rfl rfl _ _) _ _

/-! ## The end of a command that only stores -/

theorem findCmd_id {s : State} {id : CmdId} {c : Cmd} (h : findCmd s id = some c) : c.id = id := by
  simpa using List.find?_some h

theorem awake_of_reachable {s : State} {c : Cmd} {ts : List Touch} {f : State → State} (h : Reachable s c ts) :
    awake s c ts f = f s := by
  obtain ⟨h1, h2, h3, h4, h5, h6⟩ := h
  simp [awake, h1, h2, h3, h4, h5, settleHeld, h6]

/-- The work of a command whose ranges are all stores ends with its results staged, or on their way. -/
theorem workEnds_finishWork {s : State} {c : Cmd} {ts : List Touch} {st : Option (Nat × Nat)} {l : List (Nat × Byte)}
    (hf : findCmd s c.id = some c) (hr : readsOf ts = []) : WorkEnds s (finishWork s c ts st l) c ts st l := by
  let m := finishCmd s c.id (worse (touchStatus s c.berth (readsOf ts)) st) (l.filter (fun e => !goesOut s e.1))
  obtain ⟨a1, a2, -, a4, a5⟩ : CmdBecomes s m c.id (c.done (now s) (worse (touchStatus s c.berth (readsOf ts)) st)
    (l.filter (fun e => !goesOut s e.1))) := cmdBecomes_finishCmd hf
  have e : finishWork s c ts st l = issueResults m c (l.filter (fun e => goesOut s e.1)) := by
    simp only [finishWork, hr, List.foldl_nil, m]
  obtain ⟨b1, b2, b3, b4⟩ := requestsLeave_issueResults m c (l.filter (fun e => goesOut s e.1))
  rw [e]
  obtain ⟨y, hy, y1, y2, y3⟩ := b4 _ a5
  refine ⟨?_, fun k hk => (b2 k hk).trans (a2 k hk), fun i hi => (b3 i hi).trans (a4 i hi), y, hy, y1, y2, y3, fun _ hl => ?_⟩
  · show _ = _
    rw [b1, a1]
  · have hn : l.filter (fun e => goesOut s e.1) = [] := by simpa using hl
    rw [hn, issueResults_nil] at hy ⊢
    exact ⟨Option.some.inj (hy.symm.trans a5), by rw [a1], by rw [a1], by rw [a1]⟩

/-! ## The counter commands -/

theorem finishCmd_reqs (s : State) (id : CmdId) (st : Option (Nat × Nat)) (l : List (Nat × Byte)) :
    (finishCmd s id st l).reqs = s.reqs := rfl
theorem finishCmd_mem (s : State) (id : CmdId) (st : Option (Nat × Nat)) (l : List (Nat × Byte)) :
    (finishCmd s id st l).mem = s.mem := rfl

/-- A change of one counter changes the counters alone. -/
theorem updCounter_frame (s : State) (b i : Nat) (f : W64 → W64) :
    updCounter s b i f = { s with mem := { s.mem with counters := (updCounter s b i f).mem.counters } } := rfl

/-- An addition that answers and meets nothing raises its counter. -/
theorem addFrom_counter {s : State} {src a b i : Nat} {v : W64} (hp : addrPos a = ownPos s)
    (hc : placeOf s.ident.part (addrLocal a) = .counter b i) (hr : berthResetting s b = false) (hd : siteDown s b = false)
    (hg : siteGone s b = false) (hm : rangeStatus (seenFrom s src) .atomic a 8 = none) :
    addFrom s src a v = (updCounter s b i (· + v), none) := by
  simp [addFrom, addCounter, hp, hc, hr, hd, hg, hm]

/-- The 8-byte addition on CTL that a command makes of a counter it does not reach itself. -/
def additionReq (s : State) (c : Cmd) (a : Nat) (v : W64) : WireReq := { workReq s c .atomic a 8 .ctl with opP := v }

theorem sendAddition_request {s : State} {c : Cmd} {a : Nat} (v : W64)
    (h : goesOut s a = true ∨ overtakes s c.berth .ctl a = true) :
    sendAddition s c a v = (issueWork s (additionReq s c a v) {}, none) := by
  have h' : (goesOut s a || overtakes s c.berth .ctl a) = true := by simpa using h
  simp [sendAddition, h', additionReq]

/-- An addition that leaves as a request is outstanding, unless its source meets something. -/
theorem issueWork_additionReq {s : State} {c : Cmd} {a : Nat} {v : W64}
    (hm : issueMeets s (additionReq s c a v) (destSite s a) = none) :
    ∃ o, (issueWork s (additionReq s c a v) {}).reqs.out = s.reqs.out ++ [o] ∧
      o.req.kind = .atomic ∧ o.req.addr = a ∧ o.req.size = 8 ∧ o.req.ch = .ctl ∧ o.req.srcCtx = some c.id ∧ o.req.opP = v := by
  obtain ⟨o, h1, h2⟩ := issueTracked_of_meets_none (s := useTag s (freeTag s)) (p := {}) (r := additionReq s c a v) hm
  refine ⟨o, congrArg ReqGroup.out h1, ?_⟩
  simp [h2, stamped, additionReq, workReq]

/-- Settles O16: each command is its change of the counters followed by the end of its work. -/
theorem counterCommandsFinish : Obligations.CounterCommandsFinish := by
  unfold Obligations.CounterCommandsFinish
  refine ⟨fun s id c h => ⟨fun hv => ⟨_, onStarted_next h, ?_⟩, fun hv => ?_⟩, fun s id c h => ?_,
    fun s id c b i h hp hg ho hc hr hd hn hm => ?_, fun s id c r h hg hr => ?_, fun s id c h hR => ?_⟩
  · rw [if_pos hv]
    exact cmdBecomes_finishCmd h.2.1
  · show onStarted _ _ _ _ = _
    rw [onStarted_next h, if_neg (by omega)]
  · exact ⟨updCounter s c.berth (fld c.params 0 16) (fun _ => BitVec.ofNat 64 (fld c.params 64 64)), _, onStarted_next h,
      cmdBecomes_finishCmd h.2.1, updCounter_frame _ _ _ _, getCounter_upd_self _ _ _ _,
      fun b i hb => getCounter_upd_other _ _ hb⟩
  · have hs : sendAddition s c (fld c.params 0 64) (BitVec.ofNat 64 (fld c.params 64 64)) =
        (updCounter s b i (· + BitVec.ofNat 64 (fld c.params 64 64)), none) := by
      rw [sendAddition_here (by simp [hg, ho]), addFrom_counter hp hc hr hd hn hm]
    refine ⟨updCounter s b i (· + BitVec.ofNat 64 (fld c.params 64 64)), _, ?_, cmdBecomes_finishCmd h.2.1,
      updCounter_frame _ _ _ _, getCounter_upd_self _ _ _ _, fun b' i' hb => getCounter_upd_other _ _ hb⟩
    exact (onStarted_next h).trans (by rw [hs])
  · obtain rfl := findCmd_id h.2.1
    have k := requestsLeave_issueWork s (r := additionReq s c (fld c.params 0 64) (BitVec.ofNat 64 (fld c.params 64 64)))
      (p := {}) rfl rfl rfl
    obtain ⟨k1, -, -, k4⟩ := k
    obtain ⟨y, hy, -⟩ := k4 c h.2.1
    obtain ⟨f1, -, -, -, f5⟩ := cmdBecomes_finishCmd (st := none) (l := []) hy
    refine ⟨_, _, (onStarted_next h).trans (by rw [sendAddition_request _ hg]), ?_, f5, rfl, fun hm => ?_⟩
    · rw [finishCmd_mem, k1]
    · subst hr
      rw [finishCmd_reqs]
      exact issueWork_additionReq hm
  · have hid := findCmd_id h.2.1
    refine ⟨_, onStarted_next h, ?_⟩
    rw [awake_of_reachable hR]
    exact workEnds_finishWork (hid ▸ h.2.1) rfl

end Sys2Proof.Machine
end

section
/-! SUPPORT. Requests at their source: what one that goes out changes, and when it is held or never sent. -/

namespace Sys2Proof.Machine

variable (s : State)

/-! ## A request that goes out -/

theorem sendReq_sent (o : OutReq) :
    (sendReq s o).sent = if o.dstPos = ownPos s then s.sent else s.sent ++ [.request o.dstPos o.req] := by
  unfold sendReq wakeLanes linkSend
  split <;> split <;> rfl

/-- A request that leaves the module counts a frame of the link it leaves by, and of no other. -/
theorem getLink_sendReq {o : OutReq} {k : Nat} (h : o.dstPos = ownPos s ∨ k ≠ linkTo s (firstHop s o.dstPos)) :
    getLink (sendReq s o) k = getLink s k := by
  unfold sendReq wakeLanes
  by_cases hp : o.dstPos = ownPos s
  · rw [if_pos hp]
    split <;> rfl
  · rw [if_neg hp]
    have hk := h.resolve_left hp
    split <;> exact getLink_upd_other _ _ hk

/-- A request wakes the lanes of its way through the module. -/
theorem sendReq_pairs (o : OutReq) : (sendReq s o).pairs = (wakeLanes s o.req.srcSite (wayTo s o)).pairs := by
  unfold sendReq wayTo
  split <;> rfl

/-- A packet wakes the lanes of its pair direction, when it uses one (R287). -/
theorem getPair_sendReq {o : OutReq} {a b : Nat} (h : fabricPair o.req.srcSite (wayTo s o) = some (a, b)) :
    getPair (sendReq s o) a b = { getPair s a b with asleep := false, lastPacket := now s } := by
  simp [getPair, sendReq_pairs, wakeLanes, h, updPair]

theorem sendReq_pairs_none {o : OutReq} (h : fabricPair o.req.srcSite (wayTo s o) = none) :
    (sendReq s o).pairs = s.pairs := by
  simp [sendReq_pairs, wakeLanes, h]

/-! ## A new request -/

/-- The record by which a new request is tracked, before it is known whether its source holds it. -/
def newReq (s : State) (r : WireReq) : OutReq :=
  { req := stamped s r (destSite s r.addr)
    dstPos := addrPos r.addr
    dstSite := destSite s r.addr
    issued := now s
    delayed := pathSlow s r.srcSite (if addrPos r.addr = ownPos s then destSite s r.addr else quayTo s (addrPos r.addr)) ||
      isMoving s r || isDrained s (addrPos r.addr) || linkWaits s (addrPos r.addr) }

variable {s}

theorem requestIssue_new {r : WireReq} (hn : ∀ x ∈ s.reqs.out, x.req.tag ≠ r.tag) (hs : sourceRuns s r = true)
    (ha : admitted s r = true) (ht : tagTaken s r.tag = false) : requestIssue s r = issueTracked s r {} := by
  have hf : s.reqs.out.find? (fun o => o.req.tag == r.tag) = none := by simpa using hn
  simp [requestIssue, hf, hs, ha, ht, issueNew]

theorem issueTracked_sent {r : WireReq} (hm : issueMeets s r (destSite s r.addr) = none) (hh : mustHold s (newReq s r) = false) :
    issueTracked s r {} = sendReq { s with reqs := { s.reqs with out := s.reqs.out ++ [newReq s r] } } (newReq s r) := by
  have hh' : mustHold s { req := stamped s r (destSite s r.addr), dstPos := addrPos r.addr, dstSite := destSite s r.addr,
                          issued := now s } = false := hh
  simp [issueTracked, hm, hh', newReq, wayTo]

theorem issueTracked_held {r : WireReq} (hm : issueMeets s r (destSite s r.addr) = none) (hh : mustHold s (newReq s r) = true) :
    issueTracked s r {} = { s with reqs := { s.reqs with out := s.reqs.out ++ [{ newReq s r with held := true }] } } := by
  have hh' : mustHold s { req := stamped s r (destSite s r.addr), dstPos := addrPos r.addr, dstSite := destSite s r.addr,
                          issued := now s } = true := hh
  simp [issueTracked, hm, hh', newReq, wayTo]

theorem issueTracked_ended {r : WireReq} {e : Nat × Nat} {id : CmdId} {c : Cmd}
    (hm : issueMeets s r (destSite s r.addr) = some e) (hc : r.srcCtx = some id) (hf : findCmd s id = some c) :
    CmdBecomes s (issueTracked s r {}) id { c.note e.1 e.2 with tideEnd := now s } := by
  have ho : ∀ o : OutReq, o.slot = none → o.chunk = none → o.req.srcCtx = some id →
      CmdBecomes s (noteOut s o e.1 e.2) id { c.note e.1 e.2 with tideEnd := now s } := fun o h1 h2 h3 => by
    rw [noteOut_eq_updCmd _ _ h1 h2 h3]
    convert cmdBecomes_updCmd (fun _ => Cmd.noted_id _ _ _ _ _) hf using 1
    simp [Cmd.noted, h1, h2]
  simp only [issueTracked, hm]
  exact ho _ rfl rfl hc

/-- The 65th atomic of a context is held (R327). -/
theorem mustHold_of_atomics {r : WireReq} {c : Nat} (hk : r.kind = .atomic) (hc : reqCtx r = some c)
    (hn : 64 ≤ (s.reqs.out.filter
      (fun x => !x.held && decide (x.req.kind = .atomic) && reqCtx x.req == some c)).length) :
    mustHold s (newReq s r) = true := by
  have h1 : (newReq s r).req.kind = .atomic := hk
  have h2 : reqCtx (newReq s r).req = some c := hc
  have ha : atomicsFull s (newReq s r).req = true := by simp [atomicsFull, h1, h2, hn]
  simp [mustHold, ha]

/-- Settles O34: a new request meets something, is held, or goes out, as `issueTracked` branches. -/
theorem requestsAreIssued : Obligations.RequestsAreIssued := by
  unfold Obligations.RequestsAreIssued
  refine ⟨fun s r dst o hn hs ha ht hd ho => ?_, fun s r o hf hh => ?_⟩
  · obtain rfl := hd
    obtain rfl : o = newReq s r := ho
    have he : exec (.requestIssue r) s = .next (issueTracked s r {}) := congrArg _ (requestIssue_new hn hs ha ht)
    refine ⟨fun hm => ⟨fun hh => ?_, fun hh => ?_, fun c hk hc hl => mustHold_of_atomics hk hc hl⟩, fun e id c hm hc hf => ?_⟩
    · rw [issueTracked_sent hm hh] at he
      refine ⟨_, he, ?_, fun k hk => getLink_sendReq _ hk, fun a b hp => getPair_sendReq _ hp,
        fun hp => sendReq_pairs_none _ hp⟩
      rw [sendReq_frame, sendReq_sent]
      rfl
    · rw [he, issueTracked_held hm hh]
    · exact ⟨_, he, issueTracked_ended hm hc hf⟩
  · show Host.Outcome.next (requestIssue s r) = _
    simp [requestIssue, hf, hh]

end Sys2Proof.Machine
end

section
/-! SUPPORT. Responses at their source: what the match, the bytes read and the flow of an answered request change, and the
window of a flow. -/

namespace Sys2Proof.Machine

variable (s : State)

/-! ## The answer of a request -/

theorem reqCtx_eq_some {r : WireReq} {c : Nat} (h : reqCtx r = some c) : ∃ id, r.srcCtx = some id ∧ id.ctx = c := by
  simpa [reqCtx] using h

/-- The bytes that a Tug's read brings stand at its command; any other answer brings none (R334). -/
def Cmd.brought (c : Cmd) (o : OutReq) (data : List Byte) : Cmd :=
  match o.chunk, o.off with
  | some k, some p => { c with tug := { c.tug with
      data := c.tug.data ++ (List.range o.req.size).map (fun i => (k, p + i, data.getD i 0xFF#8)) } }
  | _, _ => c

@[simp] theorem Cmd.brought_id (c : Cmd) (o : OutReq) (data : List Byte) : (c.brought o data).id = c.id := by
  unfold Cmd.brought; split <;> rfl
@[simp] theorem Cmd.brought_status (c : Cmd) (o : OutReq) (data : List Byte) : (c.brought o data).status = c.status := by
  unfold Cmd.brought; split <;> rfl
@[simp] theorem Cmd.brought_detail (c : Cmd) (o : OutReq) (data : List Byte) : (c.brought o data).detail = c.detail := by
  unfold Cmd.brought; split <;> rfl

theorem cmdBecomes_self {s : State} {id : CmdId} {c : Cmd} (h : findCmd s id = some c) : CmdBecomes s s id c :=
  ⟨rfl, fun _ _ => rfl, rfl, fun _ _ => rfl, h⟩

/-- The bytes read change nothing but the command they were read for. -/
theorem cmdBecomes_readBack {s : State} {o : OutReq} {id : CmdId} {c : Cmd} (data : List Byte)
    (hc : o.req.srcCtx = some id) (hf : findCmd s id = some c) : CmdBecomes s (readBack s o data) id (c.brought o data) := by
  unfold readBack Cmd.brought
  rw [hc]
  cases o.chunk with
  | none => exact cmdBecomes_self hf
  | some k =>
    cases o.off with
    | none => exact cmdBecomes_self hf
    | some p => exact cmdBecomes_updCmd (fun _ => rfl) hf

theorem readBack_frame (o : OutReq) (data : List Byte) :
    readBack s o data = { s with ctxs := (readBack s o data).ctxs } := by
  unfold readBack; split <;> rfl

/-- The bytes read change a context in its commands only, and no other context. -/
theorem getCtx_readBack (o : OutReq) (data : List Byte) (k : Nat) :
    getCtx (readBack s o data) k = { getCtx s k with flight := (getCtx (readBack s o data) k).flight } := by
  unfold readBack
  split
  case h_1 id _ _ _ _ _ =>
    by_cases h : k = id.ctx
    · simp [h, updCmd]
    · rw [getCtx_updCmd_other h]
  case h_2 => rfl

theorem getCtx_readBack_other {o : OutReq} {c k : Nat} (data : List Byte) (hc : reqCtx o.req = some c) (h : k ≠ c) :
    getCtx (readBack s o data) k = getCtx s k := by
  obtain ⟨id, hi, rfl⟩ := reqCtx_eq_some hc
  unfold readBack
  rw [hi]
  split
  case h_1 => simp_all [getCtx_updCmd_other]
  case h_2 => rfl

theorem leaveFlow_frame (o : OutReq) :
    leaveFlow s o = { s with reqs := { s.reqs with flows := (leaveFlow s o).reqs.flows } } := by
  unfold leaveFlow; split <;> rfl

theorem settleFlow_frame (o : OutReq) (echo : Bool) :
    settleFlow s o echo = { s with reqs := { s.reqs with flows := (settleFlow s o echo).reqs.flows } } := by
  unfold settleFlow; split <;> rfl

/-- An answer that is no error goes to its command alone. -/
theorem noteOut_of_good {o : OutReq} {id : CmdId} {st : Nat} (d : Nat) (hst : st = S_OK ∨ st = S_DEGRADED)
    (hc : o.req.srcCtx = some id) : noteOut s o st d = updCmd s id (fun c => { c.note st d with tideEnd := now s }) := by
  have ht : stopsTug st = false := by rcases hst with rfl | rfl <;> rfl
  unfold noteOut
  cases o.slot <;> simp [hst, hc, ht]

/-! ## A response in its turn -/

variable {s}

theorem waitsTurn_of_find {r : WireResp} {o : OutReq} (hf : s.reqs.out.find? (answersReq r) = some o) :
    waitsTurn s r = answerEarly s o := by simp [waitsTurn, hf]

/-- With no response waiting, one whose turn has come is taken and nothing follows. -/
theorem response_taken {r : WireResp} (hw : waitsTurn s r = false) (he : s.reqs.early = []) :
    response s r = takeResponse s r := by simp [response, hw, he, settleEarly]

/-- The state in which the answer of a tracked request is judged: the request is no longer outstanding, and what it read
stands at its command. -/
def answeredState (s : State) (o : OutReq) (r : WireResp) : State := readBack (untrack s o.req.tag) o r.data

theorem takeResponse_old {r : WireResp} {o : OutReq} {c : Nat} (hf : s.reqs.out.find? (answersReq r) = some o)
    (hc : reqCtx o.req = some c) (hg : r.gen ≠ (getCtx s c).gen) :
    takeResponse s r = dropResponse (leaveFlow (answeredState s o r) o) (some c) := by
  simp [takeResponse, hf, hc, hg, answeredState]

theorem takeResponse_current {r : WireResp} {o : OutReq} {c : Nat} (hf : s.reqs.out.find? (answersReq r) = some o)
    (hc : reqCtx o.req = some c) (hg : r.gen = (getCtx s c).gen) :
    takeResponse s r = answered (settleFlow (answeredState s o r) o r.echo) o r.status := by
  simp [takeResponse, hf, hc, hg, answeredState]

/-- A response of an old generation ends its request, and is counted by the module and by the context. -/
theorem response_of_old_generation {r : WireResp} {o : OutReq} {c : Nat} (hc : reqCtx o.req = some c) {t : State}
    (ht : t = dropResponse (leaveFlow (answeredState s o r) o) (some c)) :
    t = { s with
      reqs := { s.reqs with
        out := s.reqs.out.filter (fun x => x.req.tag != o.req.tag)
        dropped := s.reqs.dropped + 1
        flows := t.reqs.flows }
      ctxs := t.ctxs } ∧
    (getCtx t c).droppedOld = (getCtx s c).droppedOld + 1 ∧ (∀ k, k ≠ c → getCtx t k = getCtx s k) := by
  have hg : ∀ k, getCtx (leaveFlow (answeredState s o r) o) k = getCtx (answeredState s o r) k := fun k => by
    rw [leaveFlow_frame]; rfl
  subst ht
  refine ⟨?_, ?_, fun k hk => ?_⟩
  · simp only [dropResponse]
    rw [leaveFlow_frame, answeredState, readBack_frame]
    rfl
  · simp only [dropResponse, getCtx_upd_self]
    show (getCtx (leaveFlow (answeredState s o r) o) c).droppedOld + 1 = _
    rw [hg, answeredState, getCtx_readBack]
    rfl
  · simp only [dropResponse, getCtx_upd_other _ _ hk]
    show getCtx (leaveFlow (answeredState s o r) o) k = _
    rw [hg, answeredState, getCtx_readBack_other _ _ hc hk]
    rfl

/-- The state in which a request of the current generation has its answer: its flow has moved on. -/
theorem settled_frame (o : OutReq) (r : WireResp) :
    settleFlow (answeredState s o r) o r.echo = { s with
      reqs := { s.reqs with
        out := s.reqs.out.filter (fun x => x.req.tag != o.req.tag)
        flows := (settleFlow (answeredState s o r) o r.echo).reqs.flows }
      ctxs := (settleFlow (answeredState s o r) o r.echo).ctxs } := by
  rw [settleFlow_frame, answeredState, readBack_frame]
  rfl

theorem findCmd_settled {o : OutReq} {r : WireResp} {id : CmdId} {d : Cmd} (hc : o.req.srcCtx = some id)
    (hf : findCmd s id = some d) : findCmd (settleFlow (answeredState s o r) o r.echo) id = some (d.brought o r.data) := by
  have h : findCmd (untrack s o.req.tag) id = some d := hf
  obtain ⟨-, -, -, -, h5⟩ := cmdBecomes_readBack r.data hc h
  rw [settleFlow_frame]
  exact h5

theorem latencyMax_congr {s t : State} (hh : t.harbour = s.harbour) (hi : t.ident = s.ident) (o : OutReq) :
    latencyMax t o = latencyMax s o := by
  have hf : firstHop t o.dstPos = firstHop s o.dstPos := by unfold firstHop; rw [hh]
  have hp : ownPos t = ownPos s := by unfold ownPos; rw [hh]
  unfold latencyMax
  rw [hf, hp, hi]

/-- A command takes the answer over what it had before: status, DETAIL and the Tide of its end. -/
theorem Cmd.note_brought (c : Cmd) (o : OutReq) (data : List Byte) (st d : Nat) :
    ((c.brought o data).note st d).status = (c.note st d).status ∧
    ((c.brought o data).note st d).detail = (c.note st d).detail ∧
    ((c.brought o data).note st d).tug = (c.brought o data).tug := by
  by_cases h : statusRank c.status < statusRank st <;> simp [Cmd.note, h]

/-- What an answer without error leaves of a command that is in flight. -/
theorem findCmd_answered_good {o : OutReq} {m : State} {id : CmdId} {d : Cmd} {st x : Nat} {data : List Byte}
    (hst : st = S_OK ∨ st = S_DEGRADED) (hc : o.req.srcCtx = some id) (hm : findCmd m id = some (d.brought o data)) :
    ∃ e, findCmd (noteOut m o st x) id = some e ∧ e.status = (d.note st x).status ∧ e.detail = (d.note st x).detail ∧
      e.tideEnd = now m ∧ e.tug = (d.brought o data).tug := by
  obtain ⟨h1, h2, h3⟩ := Cmd.note_brought d o data st x
  refine ⟨{ (d.brought o data).note st x with tideEnd := now m }, ?_, h1, h2, rfl, h3⟩
  rw [noteOut_of_good _ _ hst hc, findCmd_updCmd_self (fun _ => by simp), hm]
  rfl

/-- A request that was not delayed, or not past its maximum, is answered S_OK. -/
theorem answered_in_time {m : State} {o : OutReq} (h : o.delayed = false) : answered m o S_OK = noteOut m o S_OK 0 := by
  simp [answered, h, S_OK, S_PROTECTION]

theorem answered_late {m : State} {o : OutReq} (hd : o.delayed = true) (ht : o.issued + latencyMax m o < now m) :
    answered m o S_OK = noteOut (requestLate m o) o S_DEGRADED 4 := by
  simp [answered, hd, ht, S_OK, S_PROTECTION]

/-- A late answer raises event 0x0406 for a command that had met nothing else. -/
theorem requestLate_eq {m : State} {o : OutReq} {id : CmdId} {c : Cmd} (hc : o.req.srcCtx = some id)
    (hf : findCmd m id = some c) : requestLate m o = latencyBroken m c := by
  simp [requestLate, hc, hf]

theorem latencyBroken_frame (m : State) (c : Cmd) : latencyBroken m c = { m with faults := (latencyBroken m c).faults } := by
  unfold latencyBroken guaranteeBroken; split <;> rfl

theorem latencyBroken_raises {m : State} {c : Cmd} (h : c.status = S_OK) :
    ∃ e, (latencyBroken m c).faults.unlogged = m.faults.unlogged ++ [e] ∧ e.code = 0x0406 ∧ e.outcome = 6 ∧
      e.guarantee = 4 ∧ e.arg = 1 := by
  simp only [latencyBroken, guaranteeBroken, h, if_true]
  obtain ⟨e, h1, h2, -, -, h5, h6, -, h8, -⟩ := raise_unlogged m
    { code := 0x0406, outcome := 6, guarantee := 4, site := c.berth, arg := 1 }
  exact ⟨e, h1, h2, h6, h8, h5⟩

theorem latencyBroken_quiet {m : State} {c : Cmd} (h : c.status ≠ S_OK) : latencyBroken m c = m := by
  simp [latencyBroken, guaranteeBroken, h]

/-! ## Flows -/

/-- A flow that is forgotten starts again with 32 KiB, and every other flow stays (R332). -/
theorem getFlow_forgotten (f g : FlowId) :
    getFlow { s with reqs := { s.reqs with flows := s.reqs.flows.filter (fun e => decide (e.1 ≠ f)) } } g =
      if g = f then { window := 32768 } else getFlow s g := by
  unfold getFlow
  dsimp only
  by_cases h : g = f
  · have hn : (s.reqs.flows.filter (fun e => decide (e.1 ≠ f))).find? (fun e => decide (e.1 = g)) = none := by
      simp [h, List.find?_eq_none]
    rw [hn, if_pos h]
  · have he : (s.reqs.flows.filter (fun e => decide (e.1 ≠ f))).find? (fun e => decide (e.1 = g)) =
        s.reqs.flows.find? (fun e => decide (e.1 = g)) := by
      rw [List.find?_filter]
      congr 1
      funext e
      by_cases he : e.1 = g <;> simp [he, h]
    rw [he, if_neg h]

/-- Settles O36: the branches of a response in its turn, and of the window's acknowledgement. -/
theorem responsesAndWindows : Obligations.ResponsesAndWindows := by
  unfold Obligations.ResponsesAndWindows
  refine ⟨fun s r hw => ?_, fun s r hn he => ?_, fun s r o c hf hc ha he => ?_, fun f tag others t => ?_, fun s f => ?_⟩
  · show Host.Outcome.next (response s r) = _
    simp [response, hw]
  · have h1 : s.reqs.out.find? (answersReq r) = none := by
      simpa [answersReq] using fun o ho hh ht => absurd ht (hn o ho hh)
    have h2 : s.reqs.out.find? (fun o => !o.held && wireTag o.req.tag == r.tag) = none := by simpa using hn
    show Host.Outcome.next (response s r) = _
    rw [response_taken (by simp [waitsTurn, h1]) he]
    simp [takeResponse, h1, h2, dropResponse, unspend]
  · have hx : exec (.response r) s = .next (takeResponse s r) :=
      congrArg _ (response_taken ((waitsTurn_of_find hf).trans ha) he)
    refine ⟨fun hg => ⟨_, hx, response_of_old_generation hc (takeResponse_old hf hc hg)⟩, fun hg hs hd => ?_,
      fun hg hs hd hl id d hi hfd => ?_⟩
    · obtain ⟨id, hi, -⟩ := reqCtx_eq_some hc
      rw [takeResponse_current hf hc hg, hs, answered_in_time hd] at hx
      refine ⟨_, hx, ?_, fun i d hi' hfd => ?_⟩
      · rw [noteOut_of_good _ _ (.inl rfl) hi, settled_frame]
        rfl
      · obtain ⟨e, h1, h2, h3, h4, h5⟩ := findCmd_answered_good (x := 0) (.inl rfl) hi' (findCmd_settled (r := r) hi' hfd)
        refine ⟨e, h1, h2, h3, h4.trans (by rw [settled_frame]; rfl), fun k p hk hp => ?_⟩
        simp [h5, Cmd.brought, hk, hp]
    · have hm := findCmd_settled (r := r) hi hfd
      have hlate : o.issued + latencyMax (settleFlow (answeredState s o r) o r.echo) o <
          now (settleFlow (answeredState s o r) o r.echo) := by
        rw [latencyMax_congr (s := s) (by rw [settled_frame]) (by rw [settled_frame]), settled_frame]
        exact hl
      rw [takeResponse_current hf hc hg, hs, answered_late hd hlate, requestLate_eq hi hm] at hx
      have hm' : findCmd (latencyBroken (settleFlow (answeredState s o r) o r.echo) (d.brought o r.data)) id =
          some (d.brought o r.data) := by
        rw [latencyBroken_frame]; exact hm
      obtain ⟨e, h1, h2, h3, h4, -⟩ := findCmd_answered_good (x := 4) (.inr rfl) hi hm'
      refine ⟨_, hx, ?_, ?_, ⟨e, h1, h2, h3, h4.trans ?_⟩, fun hd' => ?_, fun hd' => ?_⟩
      · rw [noteOut_of_good _ _ (.inr rfl) hi, latencyBroken_frame, settled_frame]
        rfl
      · rw [noteOut_of_good _ _ (.inr rfl) hi, latencyBroken_frame, settled_frame]
        rfl
      · rw [latencyBroken_frame, settled_frame]
        rfl
      · obtain ⟨e, g1, g2⟩ := latencyBroken_raises (m := settleFlow (answeredState s o r) o r.echo)
          (c := d.brought o r.data) (by simpa using hd')
        refine ⟨e, ?_, g2⟩
        rw [noteOut_of_good _ _ (.inr rfl) hi]
        exact g1.trans (by rw [settled_frame])
      · rw [latencyBroken_quiet (by simpa using hd'), noteOut_of_good _ _ (.inr rfl) hi, settled_frame]
        rfl
  · refine ⟨fun h => ?_, fun h => ?_, fun h => ?_, fun h => ?_⟩
    · simp only [Flow.acknowledge, h]
      simp
    · simp only [Flow.acknowledge, h]
      simp
    · simp [Flow.acknowledge, h]
    · simp [Flow.acknowledge, Nat.not_le.2 h]
  · refine ⟨fun h1 h2 => ⟨s.reqs.flows.filter (fun e => decide (e.1 ≠ f)), ?_, ?_, fun g hg => ?_⟩, fun h => ?_⟩
    · show Host.Outcome.next (if _ then _ else _) = _
      rw [if_pos ⟨h1, h2⟩]
    · rw [getFlow_forgotten, if_pos rfl]
    · rw [getFlow_forgotten, if_neg hg]
    · show Host.Outcome.next (if _ then _ else _) = _
      rw [if_neg (fun hh => h.elim (· hh.1) (fun h => absurd hh.2 (Nat.not_le.2 h)))]

end Sys2Proof.Machine
end

section
/-! SUPPORT. Dead targets and probes: what the end of a request and the responses that follow it leave alone, what a partition
reset leaves of the sites, and the epoch table. -/

namespace Sys2Proof.Machine

variable {s : State}

/-! ## Requests that end -/

/-- The status of a command keeps at least its rank. -/
theorem Cmd.rank_le_note (c : Cmd) (st d : Nat) :
    statusRank c.status ≤ statusRank (c.note st d).status ∧ statusRank st ≤ statusRank (c.note st d).status := by
  unfold Cmd.note
  split <;> simp <;> omega

/-- `t` is what ended or answered requests may leave of `s`: no request is added, memory, sites and the harbour stay, events are
added at the end, and no command in flight loses rank. -/
def RequestsEnd (s t : State) : Prop :=
  t.reqs.out.Sublist s.reqs.out ∧ t.mem = s.mem ∧ t.sites = s.sites ∧ t.harbour = s.harbour ∧
  (∃ l, t.faults.unlogged = s.faults.unlogged ++ l) ∧
  ∀ id c, findCmd s id = some c → ∃ d, findCmd t id = some d ∧ statusRank c.status ≤ statusRank d.status

theorem RequestsEnd.refl (s : State) : RequestsEnd s s :=
  ⟨.refl _, rfl, rfl, rfl, ⟨[], by simp⟩, fun _ c h => ⟨c, h, le_refl _⟩⟩

theorem RequestsEnd.trans {s t u : State} (h : RequestsEnd s t) (k : RequestsEnd t u) : RequestsEnd s u := by
  obtain ⟨h1, h2, h3, h4, ⟨l, h5⟩, h6⟩ := h
  obtain ⟨k1, k2, k3, k4, ⟨m, k5⟩, k6⟩ := k
  refine ⟨k1.trans h1, k2.trans h2, k3.trans h3, k4.trans h4, ⟨l ++ m, by rw [k5, h5, List.append_assoc]⟩, fun id c hc => ?_⟩
  obtain ⟨d, hd, r1⟩ := h6 id c hc
  obtain ⟨e, he, r2⟩ := k6 id d hd
  exact ⟨e, he, r1.trans r2⟩

/-- A change that touches neither commands, memory, sites, harbour nor events, and adds no request. -/
theorem RequestsEnd.of_reqs {t : State} (h : t = { s with reqs := t.reqs }) (ho : t.reqs.out.Sublist s.reqs.out) :
    RequestsEnd s t := by
  have hc : t.ctxs = s.ctxs := by rw [h]
  exact ⟨ho, by rw [h], by rw [h], by rw [h], ⟨[], by rw [h]; simp⟩, fun _ c hf => ⟨c, by simpa [findCmd, getCtx, hc] using hf,
    le_refl _⟩⟩

theorem requestsEnd_updCmd (s : State) (id : CmdId) {f : Cmd → Cmd} (hf : ∀ c, (f c).id = c.id)
    (hr : ∀ c, statusRank c.status ≤ statusRank (f c).status) : RequestsEnd s (updCmd s id f) := by
  refine ⟨.refl _, rfl, rfl, rfl, ⟨[], by simp⟩, fun i c h => ?_⟩
  by_cases hi : i = id
  · subst hi
    exact ⟨f c, by rw [findCmd_updCmd_self hf, h]; rfl, hr c⟩
  · exact ⟨c, by rw [findCmd_updCmd_other hf hi]; exact h, le_refl _⟩

/-- A change of a context that leaves its commands alone. -/
theorem requestsEnd_updCtx (s : State) (k : Nat) {f : Context → Context} (hf : ∀ x, (f x).flight = x.flight) :
    RequestsEnd s (updCtx s k f) := by
  refine ⟨.refl _, rfl, rfl, rfl, ⟨[], by simp⟩, fun i c h => ⟨c, ?_, le_refl _⟩⟩
  by_cases hi : i.ctx = k
  · subst hi
    simpa [findCmd, hf] using h
  · simpa [findCmd, getCtx_upd_other _ _ hi] using h

theorem requestsEnd_raiseAt (s : State) (e : FaultEv) : RequestsEnd s (raiseAt s e) := by
  obtain ⟨x, hx, -⟩ := raiseAt_unlogged s e
  exact ⟨.refl _, rfl, rfl, rfl, ⟨[x], hx⟩, fun _ c h => ⟨c, h, le_refl _⟩⟩

theorem requestsEnd_stopContext (s : State) (c a : Nat) : RequestsEnd s (stopContext s c a) := by
  unfold stopContext
  split
  · refine .trans ?_ (requestsEnd_raiseAt _ _)
    exact requestsEnd_updCtx s c (fun _ => rfl)
  · exact .refl s

theorem requestsEnd_stopTug (s : State) (id : CmdId) : RequestsEnd s (stopTug s id) :=
  (requestsEnd_updCmd s id (by simp) (by simp)).trans (.of_reqs rfl List.filter_sublist)

/-- The command of a request takes what the request met, by its rank. -/
theorem Cmd.rank_le_noted (c : Cmd) (o : OutReq) (st d t : Nat) :
    statusRank c.status ≤ statusRank (c.noted o st d t).status ∧ statusRank st ≤ statusRank (c.noted o st d t).status := by
  have h := Cmd.rank_le_note c st d
  unfold Cmd.noted
  split
  · exact h
  · split <;> exact h

/-- The ring slot of a request that ends in error stops its context; any other changes nothing. -/
def slotStops (s : State) (o : OutReq) (st : Nat) : State :=
  match o.slot with
  | some x => if st = S_OK ∨ st = S_DEGRADED then s else stopContext s x.1 x.2
  | none => s

theorem requestsEnd_slotStops (s : State) (o : OutReq) (st : Nat) : RequestsEnd s (slotStops s o st) := by
  unfold slotStops
  split
  · split
    · exact .refl s
    · exact requestsEnd_stopContext _ _ _
  · exact .refl s

theorem noteOut_of_cmd {o : OutReq} {id : CmdId} (s : State) (st d : Nat) (hc : o.req.srcCtx = some id) :
    noteOut s o st d =
      if (o.chunk.isSome && stopsTug st) = true then
        stopTug (updCmd (slotStops s o st) id (fun c => c.noted o st d (now s))) id
      else updCmd (slotStops s o st) id (fun c => c.noted o st d (now s)) := by
  simp only [noteOut, hc]
  rfl

theorem noteOut_of_none {o : OutReq} (s : State) (st d : Nat) (hc : o.req.srcCtx = none) :
    noteOut s o st d = slotStops s o st := by
  simp only [noteOut, hc]
  rfl

theorem requestsEnd_noteOut (s : State) (o : OutReq) (st d : Nat) : RequestsEnd s (noteOut s o st d) := by
  cases hc : o.req.srcCtx with
  | none =>
    rw [noteOut_of_none s st d hc]
    exact requestsEnd_slotStops s o st
  | some id =>
    have h := (requestsEnd_slotStops s o st).trans
      (requestsEnd_updCmd _ id (f := fun c => c.noted o st d (now s)) (by simp) (fun c => (Cmd.rank_le_noted c o st d _).1))
    rw [noteOut_of_cmd s st d hc]
    split
    · exact h.trans (requestsEnd_stopTug _ _)
    · exact h

/-- The command of an ended request has at least the rank of what the request met. -/
theorem findCmd_noteOut {o : OutReq} {id : CmdId} {c : Cmd} (st d : Nat) (hc : o.req.srcCtx = some id)
    (hf : findCmd s id = some c) : ∃ e, findCmd (noteOut s o st d) id = some e ∧ statusRank st ≤ statusRank e.status := by
  obtain ⟨-, -, -, -, -, k⟩ := requestsEnd_slotStops s o st
  obtain ⟨x, hx, -⟩ := k id c hf
  have hn : findCmd (updCmd (slotStops s o st) id (fun c => c.noted o st d (now s))) id = some (x.noted o st d (now s)) := by
    rw [findCmd_updCmd_self (by simp), hx]; rfl
  have hr := (Cmd.rank_le_noted x o st d (now s)).2
  rw [noteOut_of_cmd s st d hc]
  split
  · obtain ⟨-, -, -, -, -, k⟩ := requestsEnd_stopTug (updCmd (slotStops s o st) id (fun c => c.noted o st d (now s))) id
    obtain ⟨e, he, hr'⟩ := k id _ hn
    exact ⟨e, he, hr.trans hr'⟩
  · exact ⟨_, hn, hr⟩

/-- A request that reads no ring slot raises nothing when it ends. -/
theorem noteOut_faults {o : OutReq} (s : State) (st d : Nat) (hs : o.slot = none) : (noteOut s o st d).faults = s.faults := by
  have h : slotStops s o st = s := by simp [slotStops, hs]
  cases hc : o.req.srcCtx with
  | none => rw [noteOut_of_none s st d hc, h]
  | some id =>
    rw [noteOut_of_cmd s st d hc, h]
    split <;> rfl

theorem slotStops_reqs (s : State) (o : OutReq) (st : Nat) : (slotStops s o st).reqs = s.reqs := by
  unfold slotStops stopContext
  split <;> [(split <;> [rfl; (split <;> rfl)]); rfl]

/-- What ends a request changes the requests in held ones only. -/
theorem noteOut_reqs (s : State) (o : OutReq) (st d : Nat) :
    (noteOut s o st d).reqs = { s.reqs with out := (noteOut s o st d).reqs.out } := by
  cases hc : o.req.srcCtx with
  | none => rw [noteOut_of_none s st d hc, slotStops_reqs]
  | some id =>
    rw [noteOut_of_cmd s st d hc]
    split
    · simp [stopTug, dropHeldOf, slotStops_reqs]
    · simp [slotStops_reqs]

theorem requestsEnd_readBack (s : State) (o : OutReq) (data : List Byte) : RequestsEnd s (readBack s o data) := by
  unfold readBack
  split
  · exact requestsEnd_updCmd _ _ (by simp) (by simp)
  · exact .refl s

theorem requestsEnd_untrack (s : State) (n : Nat) : RequestsEnd s (untrack s n) := .of_reqs rfl List.filter_sublist

theorem requestsEnd_leaveFlow (s : State) (o : OutReq) : RequestsEnd s (leaveFlow s o) := by
  refine .of_reqs ?_ ?_
  · rw [leaveFlow_frame]
  · rw [leaveFlow_frame]

theorem requestsEnd_settleFlow (s : State) (o : OutReq) (e : Bool) : RequestsEnd s (settleFlow s o e) := by
  refine .of_reqs ?_ ?_
  · rw [settleFlow_frame]
  · rw [settleFlow_frame]

theorem requestsEnd_dropResponse (s : State) (c : Option Nat) : RequestsEnd s (dropResponse s c) := by
  have h : RequestsEnd s { s with reqs := { s.reqs with dropped := s.reqs.dropped + 1 } } := .of_reqs rfl (.refl _)
  unfold dropResponse
  cases c with
  | none => exact h
  | some c => exact h.trans (requestsEnd_updCtx _ c (by simp))

theorem requestsEnd_requestLate (s : State) (o : OutReq) : RequestsEnd s (requestLate s o) := by
  unfold requestLate latencyBroken guaranteeBroken
  split
  · split
    · exact requestsEnd_raiseAt _ _
    · exact .refl s
  · exact .refl s

theorem requestsEnd_answered (s : State) (o : OutReq) (st : Nat) : RequestsEnd s (answered s o st) := by
  unfold answered
  split
  · split
    · exact requestsEnd_noteOut _ _ _ _
    · exact (requestsEnd_raiseAt _ _).trans (requestsEnd_noteOut _ _ _ _)
  · split
    · exact requestsEnd_noteOut _ _ _ _
    · split
      · exact (requestsEnd_requestLate _ _).trans (requestsEnd_noteOut _ _ _ _)
      · exact requestsEnd_noteOut _ _ _ _

theorem requestsEnd_takeResponse (s : State) (r : WireResp) : RequestsEnd s (takeResponse s r) := by
  unfold takeResponse
  split
  · exact .trans (.of_reqs rfl (.refl _)) (requestsEnd_dropResponse _ _)
  · next o _ =>
    have h := (requestsEnd_untrack s o.req.tag).trans (requestsEnd_readBack _ o r.data)
    dsimp only
    split
    · split
      · exact h.trans ((requestsEnd_leaveFlow _ o).trans (requestsEnd_dropResponse _ _))
      · exact h.trans ((requestsEnd_settleFlow _ o _).trans (requestsEnd_answered _ _ _))
    · exact h.trans (requestsEnd_answered _ _ _)

/-- The responses whose turn has come end their requests one after another. -/
theorem requestsEnd_settleEarly (n : Nat) (s : State) : RequestsEnd s (settleEarly n s) := by
  induction n generalizing s with
  | zero => exact .refl s
  | succ n ih =>
    unfold settleEarly
    split
    · refine .trans (.trans ?_ (requestsEnd_takeResponse _ _)) (ih _)
      exact .of_reqs rfl (.refl _)
    · exact .refl s

/-! ## The bound of a request -/

/-- A request that its source ends has left the tracking, and its TAG is set aside while an answer may still come. -/
def endedState (s : State) (o : OutReq) : State := leaveFlow (readBack (spend (untrack s o.req.tag) o) o []) o

theorem requestsEnd_spend (s : State) (o : OutReq) : RequestsEnd s (spend s o) := by
  unfold spend
  split
  · exact .refl s
  · exact .of_reqs rfl (.refl _)

theorem requestsEnd_endedState (s : State) (o : OutReq) :
    RequestsEnd (untrack s o.req.tag) (endedState s o) :=
  (requestsEnd_spend _ o).trans ((requestsEnd_readBack _ o []).trans (requestsEnd_leaveFlow _ o))

theorem endedState_reqs (s : State) (o : OutReq) :
    (endedState s o).reqs.early = s.reqs.early ∧ (o.held = false → wireTag o.req.tag ∈ (endedState s o).reqs.spent) := by
  unfold endedState
  rw [leaveFlow_frame, readBack_frame]
  constructor
  · show (spend _ _).reqs.early = _
    unfold spend
    split <;> rfl
  · intro h
    show _ ∈ (spend _ _).reqs.spent
    simp only [spend, h, addNew]
    by_cases hm : wireTag o.req.tag ∈ (untrack s o.req.tag).reqs.spent <;> simp [hm]

theorem endedState_faults (s : State) (o : OutReq) : (endedState s o).faults = s.faults := by
  unfold endedState
  rw [leaveFlow_frame, readBack_frame]
  show (spend _ _).faults = _
  unfold spend
  split <;> rfl

theorem endRequest_eq (s : State) (o : OutReq) : endRequest s o =
    settleEarly (noteOut (endedState s o) o S_TARGET_DEAD (endDetail s o)).reqs.early.length
      (noteOut (endedState s o) o S_TARGET_DEAD (endDetail s o)) := rfl

theorem requestsEnd_endRequest (s : State) (o : OutReq) : RequestsEnd (untrack s o.req.tag) (endRequest s o) := by
  rw [endRequest_eq]
  exact (requestsEnd_endedState s o).trans ((requestsEnd_noteOut _ _ _ _).trans (requestsEnd_settleEarly _ _))

/-- With no response waiting, the end of a request is what its command takes. -/
theorem endRequest_of_early_nil {o : OutReq} (he : s.reqs.early = []) :
    endRequest s o = noteOut (endedState s o) o S_TARGET_DEAD (endDetail s o) := by
  rw [endRequest_eq, noteOut_reqs]
  simp [(endedState_reqs s o).1, he, settleEarly]

theorem findCmd_endRequest {o : OutReq} {id : CmdId} {c : Cmd} (hc : o.req.srcCtx = some id) (hf : findCmd s id = some c) :
    ∃ d, findCmd (endRequest s o) id = some d ∧ statusRank S_TARGET_DEAD ≤ statusRank d.status := by
  obtain ⟨-, -, -, -, -, k⟩ := requestsEnd_endedState s o
  obtain ⟨x, hx, -⟩ := k id c hf
  obtain ⟨y, hy, hr⟩ := findCmd_noteOut S_TARGET_DEAD (endDetail s o) hc hx
  rw [endRequest_eq]
  obtain ⟨-, -, -, -, -, k⟩ := requestsEnd_settleEarly
    (noteOut (endedState s o) o S_TARGET_DEAD (endDetail s o)).reqs.early.length
    (noteOut (endedState s o) o S_TARGET_DEAD (endDetail s o))
  obtain ⟨z, hz, hr'⟩ := k id y hy
  exact ⟨z, hz, hr.trans hr'⟩

/-- A probe of a site changes that site, the probes of other modules and the messages. -/
theorem probe_frame (m : State) (p k : Nat) :
    probe m p k = { m with sites := (probe m p k).sites, sent := (probe m p k).sent,
                           harbour := { m.harbour with probes := (probe m p k).harbour.probes } } := by
  unfold probe probeAway
  split
  · split
    · split <;> rfl
    · rfl
  · split <;> rfl

/-- A live own site is being probed after a probe. -/
theorem getSite_probe_probing {m : State} {p k : Nat} (hp : p = ownPos m) (hd : (getSite m k).dead = false) :
    (getSite (probe m p k) k).probing = true := by
  simp only [probe, hp, ne_eq, not_true, if_false, hd, Bool.or_false]
  split
  · assumption
  · exact congrArg Site.probing (getSite_upd_self m k (fun x => { x with probing := true }))

/-- A request of the tag is ended and its target probed from its bound on, and left alone before. -/
theorem exec_requestDeadBound {tag : Nat} {o : OutReq} (hf : s.reqs.out.find? (fun o => o.req.tag == tag) = some o) :
    exec (.requestDeadBound tag) s = .next (if now s < o.issued + deadBound s o then s
      else probe (raiseAt (endRequest s o) (boundEvent o)) o.dstPos o.dstSite) := by
  show execRequestDeadBound tag s = _
  simp only [execRequestDeadBound, hf]

/-! ## Probes -/

theorem siteEvent_raises (m : State) (k out : Nat) :
    Raises m (siteEvent m k out) (fun e => e.code = 0x0301 ∧ e.outcome = out ∧ e.site = k ∧
      e.arg = (getSite m k).epoch.toNat) := by
  obtain ⟨e, h1, h2, h3, -, h5, h6, -⟩ := raise_unlogged m
    { code := 0x0301, outcome := out, site := k, part := (sitePart m k).getD 0xF, arg := (getSite m k).epoch.toNat }
  exact ⟨raise_frame _ _, e, h1, h2, h6, h3, h5⟩

/-- A change of one site. -/
theorem siteBecomes_updSite (s : State) (k : Nat) (f : Site → Site) : SiteBecomes s (updSite s k f) k (f (getSite s k)) :=
  ⟨rfl, fun _ hj => getSite_upd_other _ _ hj, getSite_upd_self _ _ _⟩

theorem siteBecomes_trans {s m t : State} {k : Nat} {x y : Site} (h : SiteBecomes s m k x) (g : SiteBecomes m t k y) :
    SiteBecomes s t k y := by
  obtain ⟨h1, h2, -⟩ := h
  obtain ⟨g1, g2, g3⟩ := g
  exact ⟨by rw [g1, h1], fun j hj => (g2 j hj).trans (h2 j hj), g3⟩

/-! ## What a partition reset leaves of the sites -/

theorem blockReset_sites (s : State) (p : Nat → Bool) : (blockReset s p).sites = s.sites := rfl
theorem noteRung_sites (s : State) (a b c : Nat) : (noteRung s a b c).sites = s.sites := by unfold noteRung; split <;> rfl

theorem parkDomain_sites (s : State) (d : Nat) : (parkDomain s d).sites = s.sites :=
  foldl_keeps State.sites (fun t n => by split <;> rfl) _ _

theorem pushDomain_sites (s : State) (d : Nat) (st : DomState) (w : Option Route) : (pushDomain s d st w).sites = s.sites := by
  unfold pushDomain
  dsimp only
  split
  · exact parkDomain_sites _ _
  · rfl

theorem pushVia_sites (s : State) (d : Nat) (st : DomState) (w : Option Route) : (pushVia s d st w).sites = s.sites := by
  unfold pushVia; split <;> simp [pushDomain_sites]

theorem wakeDomain_sites (s : State) (d : Nat) : (wakeDomain s d).sites = s.sites := by
  unfold wakeDomain; split <;> simp [pushDomain_sites]

theorem beginSet_sites (s : State) (d : Nat) (st : DomState) (r : Route) : (beginSet s d st r).sites = s.sites := by
  unfold beginSet
  split
  · dsimp only
    rw [pushVia_sites]
    split
    · exact pushVia_sites _ _ _ _
    · rfl
  · dsimp only
    rw [pushVia_sites]
    split
    · exact wakeDomain_sites _ _
    · rfl
  · exact pushVia_sites _ _ _ _

theorem releaseWaiting_sites (s : State) : (releaseWaiting s).sites = s.sites := by
  refine foldl_keeps State.sites (fun t d => ?_) _ _
  split
  · split
    · rfl
    · exact beginSet_sites _ _ _ _
  · rfl

theorem abortCtx_sites (s : State) (c : Nat) : (abortCtx s c).sites = s.sites := by
  unfold abortCtx endCtx
  rw [releaseWaiting_sites]
  rfl

/-- The reset of a berth leaves every declaration of a dead site. -/
theorem getSite_resetBerth_dead (s : State) (dram : Bool) (b k : Nat) :
    (getSite (resetBerth s dram b) k).dead = (getSite s k).dead := by
  have h1 : ((List.range 8).foldl (fun t i => abortCtx t (8 * b + i)) s).sites = s.sites :=
    foldl_keeps State.sites (f := fun t i => abortCtx t (8 * b + i)) (fun t i => abortCtx_sites t _) (List.range 8) s
  have h2 : ∀ m : State, ((List.range 16).foldl
      (fun t e => updEngine t b e (fun x => { x.clear (· + 1) with resetting := false })) m).sites = m.sites :=
    fun m => foldl_keeps State.sites (f := fun t e => updEngine t b e (fun x => { x.clear (· + 1) with resetting := false }))
      (fun _ _ => rfl) (List.range 16) m
  unfold resetBerth
  dsimp only
  by_cases hk : k = b
  · subst hk
    rw [getSite_upd_self]
    simp only [getSite, blockReset_sites, zeroBerth, h2, takeOver, h1]
  · rw [getSite_upd_other _ _ hk]
    simp only [getSite, blockReset_sites, zeroBerth, h2, takeOver, h1]

theorem getSite_closeRanges (s : State) (b k : Nat) : getSite (closeRanges s b) k = getSite s k := rfl

/-- The berths of a partition are reset one after another. -/
def berthsReset (s : State) (p : Nat) : State := (partBerths s p).foldl (fun t b => closeRanges (resetBerth t true b) b) s

theorem getSite_berthsReset_dead (s : State) (p k : Nat) : (getSite (berthsReset s p) k).dead = (getSite s k).dead := by
  refine foldl_keeps (fun t => (getSite t k).dead) (fun t b => ?_) (partBerths s p) s
  rw [getSite_closeRanges]
  exact getSite_resetBerth_dead t true b k

/-- A partition reset that begins: its berths, its graphs, its rung, its record. -/
theorem beginPartitionReset_begins {s : State} {p : Nat} (c : Nat) (hr : s.rst.ready = true)
    (hp : (getPart s p).resetting = false) :
    ∃ g, beginPartitionReset s p c = updPart (noteRung { berthsReset s p with graphs := g } 3 p p) p
      (fun x => { x with gen := x.gen + 1, key := x.key + 1, resetting := true, cause := c }) := by
  refine ⟨{ (berthsReset s p).graphs with slots := tabClear (fun k => k / 16 == p) (berthsReset s p).graphs.slots }, ?_⟩
  unfold beginPartitionReset
  rw [if_neg (by simp [hr]), if_neg (by simp [hp])]
  rfl

/-- A site that does not answer its probe is dead, with its event, and the harbour is told. -/
def declaredDead (s : State) (k : Nat) : State :=
  send (siteEvent (updSite s k (fun x => { x with probing := false, dead := true })) k 0) (.dead (ownPos s) (some k))

theorem probeTimeout_eq {k : Nat} (h : (getSite s k).probing = true) : probeTimeout s k =
    match siteKind k with
    | .berth b => if (getBerth (declaredDead s k) b).hold then declaredDead s k
      else resetBerthRung (takeRung (declaredDead s k) 3 ((berthPart (declaredDead s k) b).getD (8 + b)) b b) b 2
    | _ => declaredDead s k := by
  unfold probeTimeout
  rw [if_neg (by simp [h])]
  rfl

theorem getSite_declaredDead (s : State) (k : Nat) : (getSite (declaredDead s k) k).dead = true :=
  congrArg Site.dead (getSite_upd_self s k (fun x => { x with probing := false, dead := true }))

/-- A berth of a partition that does not answer brings the reset of its partition. -/
theorem probeTimeout_berth {k b p : Nat} (h : (getSite s k).probing = true) (hk : siteKind k = .berth b)
    (hp : berthPart s b = some p) (hh : (getBerth s b).hold = false) :
    probeTimeout s k = beginPartitionReset (takeRung (declaredDead s k) 3 p b b) p 2 := by
  have hp' : berthPart (declaredDead s k) b = some p := hp
  have hp2 : berthPart (takeRung (declaredDead s k) 3 p b b) b = some p := hp
  have hh' : (getBerth (declaredDead s k) b).hold = false := hh
  simp only [probeTimeout_eq h, hk, hh', hp', Option.getD_some, resetBerthRung, hp2]
  rfl

/-! ## The epoch table -/

/-- The answer of a role change that waited for the epoch table changes its site's record and a mailbox. -/
theorem roleReply_frame (s : State) (k : Nat) :
    roleReply s k = { s with sites := (roleReply s k).sites, mbx := (roleReply s k).mbx } := by
  unfold roleReply answer
  split
  · rfl
  · split
    · rfl
    · dsimp only
      split <;> rfl

theorem getSite_roleReply_epoch (s : State) (k : Nat) : (getSite (roleReply s k) k).epoch = (getSite s k).epoch := by
  have h : (getSite (updSite s k (fun x => { x with replyTo := none })) k).epoch = (getSite s k).epoch := by simp
  unfold roleReply answer
  split
  · rfl
  · split
    · rfl
    · dsimp only
      split <;> exact h

theorem roleReply_none {k : Nat} (h : (getSite s k).replyTo = none) : roleReply s k = s := by simp [roleReply, h]

/-- The PART of another member that comes with an epoch is learned before the epoch is put into the table (R531). -/
def partLearned (s : State) (p : Nat) (e : EpochSeen) : State :=
  match e.part with
  | some q => if p = ownPos s then s else updMember s p (fun x => { x with part := q })
  | none => s

theorem partLearned_frame (s : State) (p : Nat) (e : EpochSeen) :
    partLearned s p e = { s with harbour := { s.harbour with memberTab := (partLearned s p e).harbour.memberTab } } := by
  unfold partLearned
  split
  · split <;> rfl
  · rfl

/-- The epoch table with a new epoch of a site. -/
def epochLearned (s : State) (p k : Nat) (e : EpochSeen) : State :=
  { partLearned s p e with harbour := { (partLearned s p e).harbour with
      epochs := tabSet 0 (partLearned s p e).harbour.epochs (epochKey s p k) e.epoch } }

/-- A site of another module whose epoch has changed is live again. -/
def liveAgain (s : State) (p k : Nat) : State :=
  updMember { s with harbour := { s.harbour with deadSites := tabSet false s.harbour.deadSites (p * 64 + k) false } } p
    (fun m => { m with dead := false })

theorem epochUpdate_eq (s : State) (p k : Nat) (e : EpochSeen) : epochUpdate s p k e =
    if p = ownPos s then roleReply (updSite (epochLearned s p k e) k (fun x => { x with epoch := e.epoch })) k
    else if e.epoch = tableEpoch s p k then epochLearned s p k e
    else liveAgain (epochLearned s p k e) p k := rfl

/-- A site and its partition after a reset that a silent berth has brought. -/
theorem beginPartitionReset_after {s : State} {p k : Nat} (c : Nat) (hr : s.rst.ready = true)
    (hp : (getPart s p).resetting = false) (hd : (getSite s k).dead = true) :
    (getSite (beginPartitionReset s p c) k).dead = true ∧ (getPart (beginPartitionReset s p c) p).resetting = true ∧
      (getPart (beginPartitionReset s p c) p).cause = c := by
  obtain ⟨g, e⟩ := beginPartitionReset_begins c hr hp
  have hs : (beginPartitionReset s p c).sites = (berthsReset s p).sites := by rw [e, updPart_sites, noteRung_sites]
  refine ⟨?_, ?_⟩
  · rw [show getSite (beginPartitionReset s p c) k = getSite (berthsReset s p) k by unfold getSite; rw [hs],
      getSite_berthsReset_dead, hd]
  · rw [e, getPart_upd_self]
    exact ⟨rfl, rfl⟩

theorem tableEpoch_epochLearned (s : State) (p k q j : Nat) (e : EpochSeen) :
    tableEpoch (epochLearned s p k e) q j = if epochKey s q j = epochKey s p k then e.epoch else tableEpoch s q j := by
  have h : (epochLearned s p k e).harbour.epochs = tabSet 0 s.harbour.epochs (epochKey s p k) e.epoch := by
    unfold epochLearned; rw [partLearned_frame]
  have hk : epochKey (epochLearned s p k e) q j = epochKey s q j := by
    unfold epochLearned; rw [partLearned_frame]; rfl
  unfold tableEpoch
  rw [h, hk, tabGet_set]

theorem getMember_epochLearned {p : Nat} (k : Nat) (e : EpochSeen) (hp : p ≠ ownPos s) :
    (getMember (epochLearned s p k e) p).part = e.part.getD (getMember s p).part := by
  have h : getMember (epochLearned s p k e) p = getMember (partLearned s p e) p := rfl
  rw [h]
  unfold partLearned
  cases e.part with
  | none => rfl
  | some q => simp [hp]

theorem epochLearned_frame (s : State) (p k : Nat) (e : EpochSeen) :
    epochLearned s p k e = { s with harbour := { s.harbour with
      memberTab := (epochLearned s p k e).harbour.memberTab, epochs := (epochLearned s p k e).harbour.epochs } } := by
  unfold epochLearned; rw [partLearned_frame]

/-- What an epoch update changes, whichever site it is about. -/
theorem epochUpdate_frame (s : State) (p k : Nat) (e : EpochSeen) : epochUpdate s p k e = { s with
    sites := (epochUpdate s p k e).sites, mbx := (epochUpdate s p k e).mbx, harbour := { s.harbour with
      epochs := (epochUpdate s p k e).harbour.epochs, deadSites := (epochUpdate s p k e).harbour.deadSites,
      memberTab := (epochUpdate s p k e).harbour.memberTab } } := by
  rw [epochUpdate_eq]
  split
  · rw [roleReply_frame, epochLearned_frame]
    rfl
  · split
    · rw [epochLearned_frame]
    · rw [epochLearned_frame]
      rfl

/-- The epoch table after an update is that with the new epoch, whichever site it is about. -/
theorem epochUpdate_epochs (s : State) (p k : Nat) (e : EpochSeen) :
    (epochUpdate s p k e).harbour.epochs = (epochLearned s p k e).harbour.epochs := by
  rw [epochUpdate_eq]
  split
  · rw [roleReply_frame]; rfl
  · split <;> rfl

theorem tableEpoch_epochUpdate (s : State) (p k q j : Nat) (e : EpochSeen) :
    tableEpoch (epochUpdate s p k e) q j = if epochKey s q j = epochKey s p k then e.epoch else tableEpoch s q j := by
  rw [← tableEpoch_epochLearned]
  have hp : ∀ t : State, epochKey t q j = if q = ownPos t then j else (1 + q) * 64 + j := fun _ => rfl
  unfold tableEpoch
  rw [epochUpdate_epochs, hp, hp]
  rw [show ownPos (epochUpdate s p k e) = ownPos s by rw [epochUpdate_frame]; rfl,
    show ownPos (epochLearned s p k e) = ownPos s by rw [epochLearned_frame]; rfl]

/-- Settles O37: the bound of a request, the two ends of a probe, and the epoch table. -/
theorem deadTargetsAndProbes : Obligations.DeadTargetsAndProbes := by
  unfold Obligations.DeadTargetsAndProbes
  refine ⟨fun s tag o hf => ⟨fun hb => ?_, fun hb => ?_⟩, fun s k x hk hx hp => ⟨?_, fun hb => ?_, fun b p hb hbp hr hh hq => ?_⟩,
    fun s k hk hp => ⟨?_, ?_⟩, fun s p k e => ⟨_, rfl, epochUpdate_frame s p k e, fun h => ?_, ?_, fun q j h => ?_,
      fun h => ?_, fun h => ?_, fun h he => ?_⟩⟩
  · have ht : o.req.tag = tag := by simpa using List.find?_some hf
    obtain ⟨h1, h2, h3, h4, ⟨l, h5⟩, -⟩ := requestsEnd_endRequest s o
    obtain ⟨e, e1, e2, e3, -, -, e6, e7, -⟩ := raiseAt_unlogged (endRequest s o) (boundEvent o)
    have hx : exec (.requestDeadBound tag) s =
        .next (probe (raiseAt (endRequest s o) (boundEvent o)) o.dstPos o.dstSite) :=
      (exec_requestDeadBound hf).trans (congrArg _ (if_neg (Nat.not_lt.2 hb)))
    have hq : (probe (raiseAt (endRequest s o) (boundEvent o)) o.dstPos o.dstSite).reqs = (endRequest s o).reqs := by
      rw [probe_frame]; rfl
    refine ⟨_, e, hx, fun x hm => ?_, ?_, ⟨l, ?_, fun he hs => ?_⟩, fun he hh => ?_, e2, e3, e7, e6, fun hp hd => ?_,
      fun id c hc hfc => ?_⟩
    · rw [hq] at hm
      have := (h1.subset hm : x ∈ s.reqs.out.filter (fun x => x.req.tag != o.req.tag))
      simpa [ht] using (List.mem_filter.1 this).2
    · rw [probe_frame]; exact h2
    · rw [probe_frame]
      exact e1.trans (by rw [h5]; rfl)
    · have hq : (endRequest s o).faults = s.faults := by
        rw [endRequest_of_early_nil he, noteOut_faults _ _ _ hs, endedState_faults]
      rw [hq] at h5
      exact List.append_cancel_left (h5.symm.trans (List.append_nil _).symm)
    · rw [hq, endRequest_of_early_nil he, noteOut_reqs]
      exact (endedState_reqs s o).2 hh
    · refine getSite_probe_probing ?_ ?_
      · show o.dstPos = (endRequest s o).harbour.pos
        rw [h4]; exact hp
      · show (tabGet _ (endRequest s o).sites _).dead = false
        rw [h3]; exact hd
    · obtain ⟨d, hd, hr⟩ := findCmd_endRequest hc hfc
      refine ⟨d, ?_, hr⟩
      rw [probe_frame]
      exact hd
  · exact (exec_requestDeadBound hf).trans (congrArg _ (if_pos hb))
  · subst hx
    refine ⟨countTransient (updSite s k (fun x => { x with probing := false })) k,
      siteEvent (countTransient (updSite s k (fun x => { x with probing := false })) k) k 1, ?_, ?_, ?_⟩
    · show guarded _ _ = _
      simp [guarded, hk, hp]
    · have h := siteBecomes_trans (siteBecomes_updSite s k (fun x => { x with probing := false }))
        (siteBecomes_updSite _ k (fun x => { x with transients := x.transients + 1 }))
      simpa [countTransient] using h
    · have h := siteEvent_raises (countTransient (updSite s k (fun x => { x with probing := false })) k) k 1
      simpa [countTransient] using h
  · subst hx
    refine ⟨updSite s k (fun x => { x with probing := false, dead := true }),
      siteEvent (updSite s k (fun x => { x with probing := false, dead := true })) k 0, ?_, siteBecomes_updSite _ _ _, ?_⟩
    · show guarded _ (probeTimeout s k) = _
      rw [probeTimeout_eq hp, hk]
      split
      · exact absurd ‹_› (hb _)
      · rfl
    · have h := siteEvent_raises (updSite s k (fun x => { x with probing := false, dead := true })) k 0
      simpa using h
  · subst hx
    refine ⟨beginPartitionReset (takeRung (declaredDead s k) 3 p b b) p 2, ?_, beginPartitionReset_after 2 hr hq
      (getSite_declaredDead s k)⟩
    show guarded _ (probeTimeout s k) = _
    rw [probeTimeout_berth hp hb hbp hh, hk]
    rfl
  · show guarded _ _ = _
    simp [guarded, hk, hp]
  · show guarded _ (probeTimeout s k) = _
    simp [guarded, hk, probeTimeout, hp]
  · by_cases hp : p = ownPos s
    · have hn := h.resolve_left (not_not_intro hp)
      have hn' : (getSite (updSite (epochLearned s p k e) k (fun x => { x with epoch := e.epoch })) k).replyTo = none := by
        rw [getSite_upd_self, epochLearned_frame]
        exact hn
      rw [epochUpdate_eq, if_pos hp, roleReply_none hn', updSite_mbx, epochLearned_frame]
    · rw [epochUpdate_eq, if_neg hp]
      split
      · rw [epochLearned_frame]
      · show (epochLearned s p k e).mbx = _
        rw [epochLearned_frame]
  · rw [tableEpoch_epochUpdate, if_pos rfl]
  · rw [tableEpoch_epochUpdate, if_neg h]
  · rw [epochUpdate_eq, if_pos h, getSite_roleReply_epoch, getSite_upd_self]
  · rw [epochUpdate_eq, if_neg h]
    split
    · exact getMember_epochLearned k e h
    · simp only [liveAgain, getMember_upd_self]
      exact getMember_epochLearned k e h
  · rw [epochUpdate_eq, if_neg h, if_neg he]
    constructor
    · simp only [liveAgain, getMember_upd_self]
    · show tabGet false (tabSet false _ _ false) _ = false
      rw [tabGet_set_self]

end Sys2Proof.Machine
end

section
/-! SUPPORT. Lighthouse pairs: what a fault of a Lighthouse changes, an engine that leaves service, the light of a port's lanes,
and the links of a quay that fails. -/

namespace Sys2Proof.Machine

variable (s : State)

/-! ## The record of a Lighthouse -/

theorem updLh_frame (lh : LighthouseId) (f : Lighthouse → Lighthouse) : updLh s lh f = { s with
    engines := (updLh s lh f).engines, ports := (updLh s lh f).ports,
    harbour := { s.harbour with quayLh := (updLh s lh f).harbour.quayLh } } := by
  cases lh <;> rfl

theorem retireLh_frame (lh : LighthouseId) : retireLh s lh = { s with
    engines := (retireLh s lh).engines, ports := (retireLh s lh).ports, sites := (retireLh s lh).sites,
    recovery := (retireLh s lh).recovery, faults := (retireLh s lh).faults,
    harbour := { s.harbour with quayLh := (retireLh s lh).harbour.quayLh } } := by
  unfold retireLh
  split
  · rfl
  · rw [updLh_frame]; rfl

/-- A fault of a Lighthouse changes its record, its site, the tests and the events. -/
theorem faultLh_frame (lh : LighthouseId) : faultLh s lh = { s with
    engines := (faultLh s lh).engines, ports := (faultLh s lh).ports, sites := (faultLh s lh).sites,
    recovery := (faultLh s lh).recovery, faults := (faultLh s lh).faults,
    harbour := { s.harbour with quayLh := (faultLh s lh).harbour.quayLh } } := by
  unfold faultLh
  dsimp only
  split
  · rw [retireLh_frame, updLh_frame]
  · rw [updLh_frame s, updLh_frame (raise _ _)]
    rfl

/-- Two engines differ in the records of their Lighthouses only. -/
def SameButLh (x y : Engine) : Prop := y = { x with lh0 := y.lh0, lh1 := y.lh1 }

theorem SameButLh.trans {x y z : Engine} (h : SameButLh x y) (k : SameButLh y z) : SameButLh x z := by
  unfold SameButLh at *
  rw [k, h]

theorem sameButLh_updLh (b e k : Nat) (f : Lighthouse → Lighthouse) :
    SameButLh (getEngine s b e) (getEngine (updLh s (.engine b e k) f) b e) := by
  simp only [updLh, getEngine_upd_self]
  split <;> rfl

theorem getEngine_retire (site : Nat) (r : Retirement) (b e : Nat) : getEngine (retire s site r) b e = getEngine s b e := rfl
theorem getEngine_raise (ev : FaultEv) (b e : Nat) : getEngine (raise s ev) b e = getEngine s b e := rfl

theorem sameButLh_retireLh (b e k : Nat) :
    SameButLh (getEngine s b e) (getEngine (retireLh s (.engine b e k)) b e) := by
  unfold retireLh
  split
  · rfl
  · rw [getEngine_raise, getEngine_retire]
    exact sameButLh_updLh s b e k _

theorem getEngine_orderTest (el : Element) (n : Nat) (id : Option CmdId) (b e : Nat) :
    getEngine (orderTest s el n id) b e = getEngine s b e := rfl

theorem sameButLh_faultLh (b e k : Nat) :
    SameButLh (getEngine s b e) (getEngine (faultLh s (.engine b e k)) b e) := by
  unfold faultLh
  dsimp only
  split
  · exact (sameButLh_updLh s b e k _).trans (sameButLh_retireLh _ b e k)
  · rw [getEngine_orderTest]
    refine SameButLh.trans ?_ (sameButLh_updLh (raise _ _) b e k _)
    rw [getEngine_raise]
    exact sameButLh_updLh s b e k _

variable {s}

/-- A first fault in 24 h raises one event 0x0401 with OUTCOME 2 at the Lighthouse's site. -/
theorem faultLh_first {lh : LighthouseId} (h : within dayNs (now s) (getLh s lh).faults = []) :
    ∃ v, (faultLh s lh).faults.unlogged = s.faults.unlogged ++ [v] ∧ v.code = 0x0401 ∧ v.outcome = 2 ∧ v.site = LhSite lh := by
  have hf : ∀ f, (updLh s lh f).faults = s.faults := fun f => by rw [updLh_frame]
  obtain ⟨v, v1, v2, v3, -, -, v6, -⟩ := raise_unlogged (updLh s lh (fun x => { x with faults := [now s] }))
    { code := 0x0401, outcome := 2, part := LhPart s lh, site := LhSite lh, unit := LhNumber lh, arg := LhDomain lh }
  refine ⟨v, ?_, v2, v6, v3⟩
  rw [hf] at v1
  unfold faultLh
  simp only [h, List.nil_append, List.length_singleton, Nat.reduceLeDiff, if_false]
  show (updLh _ _ _).faults.unlogged = _
  rw [updLh_frame]
  exact v1

/-! ## Engines: the run that a fault discards -/

/-- The outputs of a run are dropped, and its staging when no other run is being finished. -/
def Engine.dropRun (x : Engine) (r : Run) : Engine :=
  { x with
    outputs := x.outputs.filter (fun o => !(decide (o.id = r.id) && decide (o.block = r.block)))
    staging := if x.finishing.isSome then x.staging else [] }

/-- The sampling register of a run on an engine is set back to where the run began. -/
def Cmd.rewound (c : Cmd) (e : Nat) (r : Run) : Cmd :=
  { c with opt := { c.opt with lfsr := tabSet 0#16 c.opt.lfsr (r.block.product * 16 + e) r.lfsr0 } }

theorem discardRun_none {b e : Nat} (h : (getEngine s b e).run = none) : discardRun s b e = s := by
  unfold discardRun
  dsimp only
  rw [h]

theorem discardRun_some {b e : Nat} {r : Run} (h : (getEngine s b e).run = some r) :
    discardRun s b e = if r.arrived = 0 then updEngine s b e (fun x => x.dropRun r)
      else updCmd (updEngine s b e (fun x => x.dropRun r)) r.id (fun c => c.rewound e r) := by
  unfold discardRun
  dsimp only
  rw [h]
  rfl

theorem discardRun_engine {b e : Nat} {r : Run} (h : (getEngine s b e).run = some r) :
    getEngine (discardRun s b e) b e = (getEngine s b e).dropRun r := by
  rw [discardRun_some h]
  split
  · exact getEngine_upd_self s b e (fun x => x.dropRun r)
  · exact getEngine_upd_self s b e (fun x => x.dropRun r)

/-- What is dropped with a run leaves the tally of its command alone. -/
theorem discardRun_cmd {b e : Nat} {r : Run} {c : Cmd} (h : (getEngine s b e).run = some r) (hc : findCmd s r.id = some c) :
    ∃ d, findCmd (discardRun s b e) r.id = some d ∧ d.tally = c.tally := by
  rw [discardRun_some h]
  split
  · exact ⟨c, hc, rfl⟩
  · exact ⟨c.rewound e r, (findCmd_updCmd_self (f := fun c => c.rewound e r) (fun _ => rfl)).trans (congrArg _ hc), rfl⟩

theorem discardRun_frame (b e : Nat) :
    discardRun s b e = { s with engines := (discardRun s b e).engines, ctxs := (discardRun s b e).ctxs } := by
  cases h : (getEngine s b e).run with
  | none => rw [discardRun_none h]
  | some r =>
    rw [discardRun_some h]
    split <;> rfl

/-- A run that is repeated goes back to its first vector, and its command counts a repeat. -/
theorem repeatRun_eq {b e : Nat} {r : Run} (n : Nat) (h : (getEngine s b e).run = some r) :
    ∃ sg, repeatRun s b e n = flagCmd (updEngine (discardRun s b e) b e (fun y => { y with run := some (r.again n sg) })) r.id
      (fun t => { t with repeats := t.repeats + 1 }) := by
  have hr : (getEngine (discardRun s b e) b e).run = some r := by rw [discardRun_engine h]; exact h
  refine ⟨(getEngine (discardRun s b e) b e).sigmaNow (classOf (discardRun s b e) r.id), ?_⟩
  unfold repeatRun
  dsimp only
  rw [hr]

theorem flagCmd_self {id : CmdId} {c : Cmd} (f : TallyAcc → TallyAcc) (h : findCmd s id = some c) :
    findCmd (flagCmd s id f) id = some { c with tally := f c.tally } := by
  rw [flagCmd, findCmd_updCmd_self (f := fun c => { c with tally := f c.tally }) (fun _ => rfl), h]
  rfl

/-- The switch-over of an engine: its block goes back to vector 0, and its command carries the flag (R99). -/
def switchRun (s : State) (b e : Nat) (x : Engine) : State :=
  match x.run with
  | some r => flagCmd (repeatRun s b e r.number) r.id (fun t => { t with lhSwitch := true })
  | none => s

theorem switchRun_frame (b e : Nat) {x : Engine} (h : (getEngine s b e).run = x.run) :
    switchRun s b e x = { s with engines := (switchRun s b e x).engines, ctxs := (switchRun s b e x).ctxs } := by
  unfold switchRun
  split
  · next r hr =>
    obtain ⟨sg, hs⟩ := repeatRun_eq r.number (h.trans hr)
    rw [hs, discardRun_frame]
    rfl
  · rfl

theorem switchRun_engine {b e : Nat} {x : Engine} {r : Run} (h : (getEngine s b e).run = some r) (hx : x.run = some r) :
    ∃ sg, getEngine (switchRun s b e x) b e = { (getEngine s b e).dropRun r with run := some (r.again r.number sg) } := by
  obtain ⟨sg, hs⟩ := repeatRun_eq r.number h
  refine ⟨sg, ?_⟩
  simp only [switchRun, hx, hs]
  exact (getEngine_upd_self (discardRun s b e) b e (fun y => { y with run := some (r.again r.number sg) })).trans
    (by rw [discardRun_engine h])

theorem switchRun_cmd {b e : Nat} {x : Engine} {r : Run} {c : Cmd} (h : (getEngine s b e).run = some r) (hx : x.run = some r)
    (hc : findCmd s r.id = some c) : ∃ d, findCmd (switchRun s b e x) r.id = some d ∧
      d.tally = { c.tally with repeats := c.tally.repeats + 1, lhSwitch := true } := by
  obtain ⟨sg, hs⟩ := repeatRun_eq r.number h
  obtain ⟨d, hd, ht⟩ := discardRun_cmd h hc
  have hu : findCmd (updEngine (discardRun s b e) b e (fun y => { y with run := some (r.again r.number sg) })) r.id = some d := hd
  simp only [switchRun, hx, hs]
  exact ⟨_, flagCmd_self _ (flagCmd_self _ hu), by simp [ht]⟩

theorem lighthouseFault_switches {b e : Nat} {x : Engine} (hx : x = getEngine s b e) (hr : x.rotation ≠ .left)
    (hs : x.lhSwitching = false) (ho : lhReady s (LhOther (.engine b e x.lhActive)) = true) :
    lighthouseFault s b e = updEngine (switchRun (faultLh s (.engine b e x.lhActive)) b e x) b e
      (fun y => { y with lhActive := 1 - y.lhActive, lhSwitching := true }) := by
  subst hx
  unfold lighthouseFault
  dsimp only
  rw [if_neg hr, hs, ho]
  rfl

/-! ## An engine that leaves service -/

theorem answer_engines (r : Route) (x : MbxResult) : (answer s r x).engines = s.engines := by
  unfold answer
  split
  · split <;> rfl
  · split
    · split
      · rw [issueFrame_issueResults]; rfl
      · rfl
    · rfl

theorem gatherResult_engines (code : Nat) (fail : Bool) (enob us : Nat) (r : Route) :
    (gatherResult code fail enob us s r).engines = s.engines := by
  unfold gatherResult
  dsimp only
  split
  · rfl
  · rw [answer_engines]; rfl

theorem dropTests_engines (el : Element) : (dropTests s el).engines = s.engines := by
  refine foldl_keeps State.engines (fun t x => ?_) _ _
  exact (foldl_keeps State.engines (fun u r => gatherResult_engines _ _ _ _ r) _ _).trans rfl

/-- A change of contexts leaves the engines. -/
theorem foldCtxs_engines (s : State) (g : Nat → Context → Context) (l : List Nat) :
    (l.foldl (fun t k => updCtx t k (g k)) s).engines = s.engines :=
  foldl_keeps State.engines (f := fun t k => updCtx t k (g k)) (fun _ _ => rfl) l s

theorem endWithoutEngines_engines (b : Nat) : (endWithoutEngines s b).engines = s.engines := by
  unfold endWithoutEngines
  exact foldCtxs_engines s _ _
theorem redealEngine_engines (b e : Nat) : (redealEngine s b e).engines = s.engines := by
  unfold redealEngine
  exact foldCtxs_engines s _ _
theorem lendBlocks_engines (b e : Nat) : (lendBlocks s b e).engines = s.engines := by
  unfold lendBlocks
  exact foldCtxs_engines s _ _

/-- An engine that leaves service has left, for its reason. -/
theorem getEngine_leaveService {b e : Nat} (n : Nat) (h : (getEngine s b e).rotation ≠ .left) :
    (getEngine (leaveService s b e n) b e).rotation = .left ∧ (getEngine (leaveService s b e n) b e).reason = n := by
  have he : (leaveService s b e n).engines =
      (updEngine s b e (fun x => { x.discard with rotation := .left, reason := n, rotationList := [] })).engines := by
    unfold leaveService
    rw [if_neg h, dropTests_engines, endWithoutEngines_engines, redealEngine_engines]
    rfl
  have hg : getEngine (leaveService s b e n) b e =
      { (getEngine s b e).discard with rotation := .left, reason := n, rotationList := [] } := by
    unfold getEngine
    rw [he]
    exact getEngine_upd_self s b e _
  rw [hg]
  exact ⟨rfl, rfl⟩

/-- The boundary of an engine leaves one that is out of service as it is. -/
theorem getEngine_engineBoundary_left {b e : Nat} (k : Nat) (h : (getEngine s b e).rotation = .left) :
    getEngine (engineBoundary s b k) b e = getEngine s b e := by
  unfold engineBoundary
  dsimp only
  split
  · rfl
  · split
    · rfl
    · next t _ hb =>
      by_cases hk : engKey b k = engKey b e
      · have : getEngine s b k = getEngine s b e := by unfold getEngine; rw [hk]
        simp [this, h] at hb
      · unfold getEngine
        rw [lendBlocks_engines]
        exact getEngine_upd_other (startTest s t) _ (fun x => hk x.symm)

theorem getEngine_berthBoundaries_left {b e : Nat} (h : (getEngine s b e).rotation = .left) :
    getEngine (berthBoundaries s b) b e = getEngine s b e :=
  foldl_rel (R := fun u t => (getEngine u b e).rotation = .left → getEngine t b e = getEngine u b e)
    (fun _ _ => rfl) (fun h1 h2 h => (h2 (by rw [h1 h]; exact h)).trans (h1 h))
    (fun t k h => getEngine_engineBoundary_left k h) _ s h

theorem lighthouseFault_leaves {b e : Nat} {x : Engine} (hx : x = getEngine s b e) (hr : x.rotation ≠ .left)
    (ho : lhReady s (LhOther (.engine b e x.lhActive)) = false) :
    lighthouseFault s b e = berthBoundaries (leaveService (faultLh s (.engine b e x.lhActive)) b e 4) b := by
  subst hx
  simp only [lighthouseFault, if_neg hr, ho]
  simp

/-! ## The end of a switch-over -/

theorem standbyLit_fields (x : Engine) : x.standbyLit.run = x.run ∧ x.standbyLit.rowPend = x.rowPend ∧
    x.standbyLit.active = x.active ∧ x.standbyLit.lhSwitching = false ∧ x.standbyLit.guard = x.guard ∧
    x.standbyLit.paused = x.paused := ⟨rfl, rfl, rfl, rfl, rfl, rfl⟩

theorem sigmaNow_standbyLit (x : Engine) (k : Nat) : x.standbyLit.sigmaNow k = x.sigmaNow k := rfl

theorem classOf_updEngine (b e : Nat) (f : Engine → Engine) (id : CmdId) :
    classOf (updEngine s b e f) id = classOf s id := rfl
theorem engineWorks_updEngine (b e : Nat) {f : Engine → Engine} (hr : (f (getEngine s b e)).rotation = (getEngine s b e).rotation)
    (hs : (f (getEngine s b e)).resetting = (getEngine s b e).resetting) :
    engineWorks (updEngine s b e f) b e = engineWorks s b e := by
  simp only [engineWorks, getEngine_upd_self, hr, hs]
  rfl

theorem engineBecomes_updEngine (s : State) (b e : Nat) (f : Engine → Engine) :
    EngineBecomes s (updEngine s b e f) b e (f (getEngine s b e)) :=
  ⟨rfl, fun _ _ h => getEngine_upd_other _ _ h, getEngine_upd_self _ _ _ _⟩

theorem engineBecomes_trans {s m t : State} {b e : Nat} {x y : Engine} (h : EngineBecomes s m b e x)
    (g : EngineBecomes m t b e y) : EngineBecomes s t b e y := by
  obtain ⟨h1, h2, -⟩ := h
  obtain ⟨g1, g2, g3⟩ := g
  exact ⟨by rw [g1, h1], fun i j hj => (g2 i j hj).trans (h2 i j hj), g3⟩

/-- With no checksum row waiting, nothing is unloaded. -/
theorem unloadStale_id {x : Engine} (h : x.rowPend.any (fun p => p.1 == 128) = false) : x.unloadStale = x := by
  simp [Engine.unloadStale, h]

/-- A live run goes on when the windows of its engine start. -/
theorem startRun_live {b e : Nat} {r : Run} (hx : (getEngine s b e).rowPend.any (fun p => p.1 == 128) = false)
    (hr : (getEngine s b e).run = some r) (hl : r.live = true) :
    EngineBecomes s (startRun s b e) b e (getEngine s b e) := by
  have hu : getEngine (updEngine s b e Engine.unloadStale) b e = getEngine s b e := by
    rw [getEngine_upd_self, unloadStale_id hx]
  have h := engineBecomes_updEngine s b e Engine.unloadStale
  rw [unloadStale_id hx] at h
  unfold startRun
  simp only [hu, hr, hl, if_true]
  split <;> exact h

/-- A discarded run starts again when nothing stands against it. -/
theorem startRun_again {b e : Nat} {r : Run} {x : Engine} (hx : x = getEngine s b e)
    (hp : x.rowPend.any (fun p => p.1 == 128) = false) (hr : x.run = some r) (hl : r.live = false)
    (hw : engineWorks s b e = true) (hg : x.guard = false) (hq : x.paused = false) (hs : x.lhSwitching = false)
    (ha : x.active.loaded = true) :
    EngineBecomes s (startRun s b e) b e { x.applyHeat with
      run := some { r with live := true, sigma2 := x.sigmaNow (classOf s r.id) } } := by
  subst hx
  have hu : getEngine (updEngine s b e Engine.unloadStale) b e = getEngine s b e := by
    rw [getEngine_upd_self, unloadStale_id hp]
  have hw' : engineWorks (updEngine s b e Engine.unloadStale) b e = true := by
    rw [engineWorks_updEngine, hw] <;> rw [unloadStale_id hp]
  have h := engineBecomes_trans (engineBecomes_updEngine s b e Engine.unloadStale)
    (engineBecomes_updEngine _ b e (fun y => { y.applyHeat with
      run := some { r with live := true, sigma2 := (getEngine s b e).sigmaNow (classOf s r.id) } }))
  rw [hu] at h
  unfold startRun
  simp only [hu, hw', hg, hq, hs, ha, hr, hl, classOf_updEngine]
  exact h

/-! ## Folds over the states of a row -/

/-- What one step of a fold establishes and every step keeps holds at its end, when that step is among them. -/
theorem foldl_reaches {α : Type} {I P : State → Prop} {f : State → α → State} {x : α} (hI : ∀ t y, I t → I (f t y))
    (hP : ∀ t y, P t → P (f t y)) (hx : ∀ t, I t → P (f t x)) {l : List α} (h : x ∈ l) {t : State} (ht : I t) :
    P (l.foldl f t) := by
  have keep : ∀ (l : List α) (t : State), P t → P (l.foldl f t) := by
    intro l
    induction l with
    | nil => exact fun _ h => h
    | cons y l ih => exact fun t h => ih _ (hP t y h)
  induction l generalizing t with
  | nil => exact absurd h (List.not_mem_nil)
  | cons y l ih =>
    by_cases hy : x = y
    · subst hy
      exact keep l _ (hx t ht)
    · exact ih (List.mem_of_ne_of_mem hy h) (hI t y ht)

/-- A property of a pair direction that a change of any pair direction keeps. -/
theorem getPair_upd_keeps {P : PairDir → Prop} {f : PairDir → PairDir} (hf : ∀ p, P p → P (f p)) (a b : Nat) {c d : Nat}
    (h : P (getPair s c d)) : P (getPair (updPair s a b f) c d) := by
  by_cases hk : c * 64 + d = a * 64 + b
  · have hg : ∀ t, getPair t c d = getPair t a b := fun t => by unfold getPair; rw [hk]
    rw [hg] at h ⊢
    rw [getPair_upd_self]
    exact hf _ h
  · rwa [getPair_upd_other _ _ hk]

/-! ## The light of a port's lanes -/

theorem darken_frame (s : State) (k : Nat) : darken s k = { s with pairs := (darken s k).pairs } := by
  unfold darken
  exact foldl_rel (R := fun u t => t = { u with pairs := t.pairs }) (fun _ => rfl)
    (fun h1 h2 => by rw [h2, h1]) (fun _ _ => rfl) _ s

theorem darken_dark {k o : Nat} (h : o ∈ othersOf s k) : (getPair (darken s k) k o).darkSince = some (now s) := by
  unfold darken
  exact foldl_reaches (I := fun _ => True) (P := fun t => (getPair t k o).darkSince = some (now s))
    (fun _ _ h => h) (fun _ y h => getPair_upd_keeps (P := fun p => p.darkSince = some (now s)) (fun _ _ => rfl) k y h)
    (fun t _ => by rw [getPair_upd_self]) h trivial

/-- What the lane monitors change: pair directions but not their light, events and requests. -/
def MonitorsOnly (s t : State) : Prop :=
  t = { s with pairs := t.pairs, faults := t.faults, reqs := t.reqs } ∧
    ∀ a b, (getPair t a b).darkSince = (getPair s a b).darkSince

theorem MonitorsOnly.refl (s : State) : MonitorsOnly s s := ⟨rfl, fun _ _ => rfl⟩
theorem MonitorsOnly.trans {s t u : State} (h : MonitorsOnly s t) (g : MonitorsOnly t u) : MonitorsOnly s u := by
  obtain ⟨h1, h2⟩ := h
  obtain ⟨g1, g2⟩ := g
  exact ⟨by rw [g1, h1], fun a b => (g2 a b).trans (h2 a b)⟩

theorem monitorsOnly_updPair (s : State) (a b : Nat) {f : PairDir → PairDir} (hf : ∀ p, (f p).darkSince = p.darkSince) :
    MonitorsOnly s (updPair s a b f) :=
  ⟨rfl, fun c d => getPair_upd_keeps (P := fun p => p.darkSince = (getPair s c d).darkSince) (fun p h => (hf p).trans h) a b rfl⟩

theorem monitorsOnly_fabricLaneBer (s : State) (a b plane : Nat) : MonitorsOnly s (fabricLaneBer s a b plane) := by
  unfold fabricLaneBer
  dsimp only
  split
  · exact .refl s
  · split
    · exact monitorsOnly_updPair s a b (fun _ => rfl)
    · refine .trans (monitorsOnly_updPair s a b (f := fun p =>
        { p with evt := addNew (1, plane) p.evt, testing := insertNat plane p.testing }) (fun _ => rfl)) ?_
      exact ⟨rfl, fun _ _ => rfl⟩

theorem monitorsOnly_examineAgain (s : State) (a b : Nat) : MonitorsOnly s (examineAgain s a b) := by
  unfold examineAgain
  exact (monitorsOnly_updPair s a b (f := fun p => { p with again := [] }) (fun _ => rfl)).trans
    (foldl_rel MonitorsOnly.refl MonitorsOnly.trans (fun t x => monitorsOnly_fabricLaneBer t a b x) _ _)

theorem examineAgain_nil {a b : Nat} (h : (getPair s a b).again = []) :
    examineAgain s a b = updPair s a b (fun p => { p with again := [] }) := by
  unfold examineAgain
  rw [h]
  rfl

/-- One pair direction gets its light back. -/
def PairDir.relit (until_ : Nat) (p : PairDir) : PairDir :=
  { p.eachRing (fun r => if r.state = .frozen then { r with state := .locked } else r) with
    darkSince := none, quietUntil := until_ }

def relightOne (s : State) (k : Nat) (t : State) (o : Nat) : State :=
  examineAgain (updPair t k o (fun p => p.relit (intervalEnd s p))) k o

theorem relight_eq (s : State) (k : Nat) : relight s k = (othersOf s k).foldl (relightOne s k) s := rfl

theorem relight_ports (s : State) (k : Nat) : (relight s k).ports = s.ports := by
  rw [relight_eq]
  refine foldl_keeps State.ports (f := relightOne s k) (fun t o => ?_) _ s
  obtain ⟨h, -⟩ := monitorsOnly_examineAgain (updPair t k o (fun p => p.relit (intervalEnd s p))) k o
  exact (congrArg State.ports h).trans rfl

theorem relightOne_lit {k o : Nat} {t : State} (y : Nat) (h : y = o ∨ (getPair t k o).darkSince = none) :
    (getPair (relightOne s k t y) k o).darkSince = none := by
  obtain ⟨-, hd⟩ := monitorsOnly_examineAgain (updPair t k y (fun p => p.relit (intervalEnd s p))) k y
  rw [relightOne, hd]
  rcases h with rfl | h
  · rw [getPair_upd_self]; rfl
  · exact getPair_upd_keeps (P := fun p => p.darkSince = none) (fun _ _ => rfl) k y h

theorem relight_lit {k o : Nat} (h : o ∈ othersOf s k) : (getPair (relight s k) k o).darkSince = none :=
  foldl_reaches (I := fun _ => True) (P := fun t => (getPair t k o).darkSince = none) (fun _ _ h => h)
    (fun _ y h => relightOne_lit y (.inr h)) (fun _ _ => relightOne_lit o (.inl rfl)) h trivial

/-- Nothing waits to be examined again on the pair directions of a site. -/
def NothingWaits (k : Nat) (s : State) : Prop := ∀ o, (getPair s k o).again = [] ∧ (getPair s o k).again = []

/-- The site has nothing waiting still, and only pair directions change. -/
def PairsOnly (k : Nat) (s t : State) : Prop := NothingWaits k s → NothingWaits k t ∧ t = { s with pairs := t.pairs }

theorem PairsOnly.refl (k : Nat) (s : State) : PairsOnly k s s := fun h => ⟨h, rfl⟩
theorem PairsOnly.trans {k : Nat} {s t u : State} (h : PairsOnly k s t) (g : PairsOnly k t u) : PairsOnly k s u := by
  intro hs
  obtain ⟨ht, h1⟩ := h hs
  obtain ⟨hu, g1⟩ := g ht
  exact ⟨hu, by rw [g1, h1]⟩

theorem pairsOnly_updPair (k : Nat) (s : State) (a b : Nat) {f : PairDir → PairDir} (hf : ∀ p, p.again = [] → (f p).again = []) :
    PairsOnly k s (updPair s a b f) :=
  fun h => ⟨fun o => ⟨getPair_upd_keeps hf a b (h o).1, getPair_upd_keeps hf a b (h o).2⟩, rfl⟩

theorem pairsOnly_examineAgain_from (k : Nat) (s : State) (o : Nat) : PairsOnly k s (examineAgain s k o) := by
  intro h
  rw [examineAgain_nil (h o).1]
  exact pairsOnly_updPair k s k o (fun _ _ => rfl) h

theorem pairsOnly_examineAgain_to (k : Nat) (s : State) (o : Nat) : PairsOnly k s (examineAgain s o k) := by
  intro h
  rw [examineAgain_nil (h o).2]
  exact pairsOnly_updPair k s o k (fun _ _ => rfl) h

theorem pairsOnly_relight (k : Nat) (s : State) : PairsOnly k s (relight s k) := by
  rw [relight_eq]
  exact foldl_rel (PairsOnly.refl k) PairsOnly.trans (fun t o =>
    (pairsOnly_updPair k t k o (f := fun p => p.relit (intervalEnd s p)) (fun _ h => h)).trans
      (pairsOnly_examineAgain_from k _ o)) _ s

theorem fabricLhResume_eq {k : Nat} (hp : (getPort s k).paused = true)
    (ho : lhReady s (.fabric k (1 - (getPort s k).lhActive)) = true) :
    fabricLhResume s k = (othersOf s k).foldl (fun t o => examineAgain t o k)
      (relight (updPort s k (fun p => { p with paused := false, lhActive := 1 - p.lhActive })) k) := by
  unfold fabricLhResume
  dsimp only
  rw [hp, ho]
  rfl

theorem fabricLhResume_not {k : Nat}
    (h : (getPort s k).paused = false ∨ lhReady s (.fabric k (1 - (getPort s k).lhActive)) = false) : fabricLhResume s k = s := by
  unfold fabricLhResume
  rcases h with h | h <;> simp [h]

theorem monitorsOnly_examineAll (k : Nat) (l : List Nat) (s : State) :
    MonitorsOnly s (l.foldl (fun t o => examineAgain t o k) s) :=
  foldl_rel MonitorsOnly.refl MonitorsOnly.trans (fun t o => monitorsOnly_examineAgain t o k) l s

/-- The port's fault with a standby: paused, its lanes dark, and what it delays marked. -/
theorem fabricLighthouseFault_pauses {k : Nat} (h4 : released s 4 = true) (hp : (getPort s k).paused = false)
    (hl : (getSite s k).fabricLost = false) (ho : lhReady s (.fabric k (1 - (getPort s k).lhActive)) = true) :
    fabricLighthouseFault s k = delaySite (darken (updPort (faultLh s (.fabric k (getPort s k).lhActive)) k
      (fun p => { p with paused := true })) k) k := by
  unfold fabricLighthouseFault
  dsimp only
  rw [hl, h4, hp, ho]
  rfl

/-! ## The links of a quay -/

/-- Requests that end with a status leave the harbour. -/
theorem endAll_harbour (st d : Nat) (l : List OutReq) (s : State) :
    (l.foldl (fun t o => noteOut (untrack t o.req.tag) o st d) s).harbour = s.harbour := by
  induction l generalizing s with
  | nil => rfl
  | cons o l ih =>
    obtain ⟨-, -, -, h, -⟩ := requestsEnd_noteOut (untrack s o.req.tag) o st d
    exact (ih _).trans h

theorem endRelayed_harbour (s : State) (r : Nat) : (endRelayed s r).harbour = s.harbour := by
  unfold endRelayed
  dsimp only
  split
  · exact endAll_harbour _ _ _ s
  · exact endAll_harbour _ _ _ s

theorem linkLost_state (s : State) (k j : Nat) : (getLink (linkLost s k) j).state = (getLink s j).state := by
  have hl : ∀ u : State, getLink (endRelayed u (partnerOf (ownPos s) k)) j = getLink u j := fun u => by
    unfold getLink; rw [endRelayed_harbour]
  rw [linkLost, hl]
  show (getLink (updLink s k _) j).state = _
  by_cases hj : j = k
  · subst hj
    rw [getLink_upd_self]
  · rw [getLink_upd_other _ _ hj]

theorem linkDown_state (s : State) (k j : Nat) (st : LinkState) (n : Nat) :
    (getLink (linkDown s k st n) j).state = if j = k then st else (getLink s j).state := by
  show (getLink (updLink s k _) j).state = _
  split
  · next h => subst h; rw [getLink_upd_self]
  · next h => rw [getLink_upd_other _ _ h]

/-- One link of a quay that fails. -/
def failQuayLink (q : Nat) (t : State) (i : Nat) : State :=
  if (getLink t (3 * q + i)).state = .disabled then t else linkLost (linkDown t (3 * q + i) .failed 3) (3 * q + i)

theorem failQuayLink_state (q i j : Nat) (t : State) : (getLink (failQuayLink q t i) j).state =
    if j = 3 * q + i ∧ (getLink t j).state ≠ .disabled then .failed else (getLink t j).state := by
  unfold failQuayLink
  split
  · next h =>
    rw [if_neg]
    rintro ⟨rfl, hn⟩
    exact hn h
  · next h =>
    rw [linkLost_state, linkDown_state]
    split
    · next hj =>
      subst hj
      rw [if_pos ⟨rfl, h⟩]
    · next hj => rw [if_neg (fun hc => hj hc.1)]

theorem failQuayLinks_failed {q i : Nat} (hi : i < 3) (h : (getLink s (3 * q + i)).state ≠ .disabled) :
    (getLink (failQuayLinks s q) (3 * q + i)).state = .failed := by
  have he : failQuayLinks s q = (List.range 3).foldl (failQuayLink q) s := rfl
  rw [he]
  refine foldl_reaches (I := fun t => (getLink t (3 * q + i)).state ≠ .disabled)
    (P := fun t => (getLink t (3 * q + i)).state = .failed) (x := i) ?_ ?_ ?_ (List.mem_range.mpr hi) h
  · intro t y ht
    rw [failQuayLink_state]
    split
    · decide
    · exact ht
  · intro t y ht
    rw [failQuayLink_state, ht]
    exact ite_self _
  · intro t ht
    rw [failQuayLink_state, if_pos ⟨rfl, ht⟩]

theorem getQuayLh_updQuayLh (q : Nat) (f : FabricPort → FabricPort) :
    getQuayLh (updQuayLh s q f) q = f (getQuayLh s q) := tabGet_upd_self _ _ _ _

theorem updLh_link_active (s : State) (q k : Nat) (f : Lighthouse → Lighthouse) :
    (getQuayLh (updLh s (.link q k) f) q).lhActive = (getQuayLh s q).lhActive := by
  rw [updLh, getQuayLh_updQuayLh]
  split <;> rfl

theorem retireLh_link_active (s : State) (q k : Nat) :
    (getQuayLh (retireLh s (.link q k)) q).lhActive = (getQuayLh s q).lhActive := by
  unfold retireLh
  split
  · rfl
  · exact updLh_link_active s q k (fun l => { l with retired := true, testing := false })

/-- A fault leaves which Lighthouse of a quay is active. -/
theorem faultLh_link_active (s : State) (q k : Nat) :
    (getQuayLh (faultLh s (.link q k)) q).lhActive = (getQuayLh s q).lhActive := by
  unfold faultLh
  dsimp only
  split
  · rw [retireLh_link_active, updLh_link_active]
  · have h : ∀ (u : State) (el : Element), getQuayLh (orderTest u el 0 none) q = getQuayLh u q := fun _ _ => rfl
    have hr : ∀ (u : State) (ev : FaultEv), getQuayLh (raise u ev) q = getQuayLh u q := fun _ _ => rfl
    rw [h, updLh_link_active, hr, updLh_link_active]

theorem faultLh_links (s : State) (lh : LighthouseId) (k : Nat) : getLink (faultLh s lh) k = getLink s k := by
  rw [faultLh_frame]
  rfl

/-! ## The retirement of a standby -/

theorem getLh_updLh_retired (lh : LighthouseId) {f : Lighthouse → Lighthouse} (hf : ∀ l, (f l).retired = true) :
    (getLh (updLh s lh f) lh).retired = true := by
  cases lh with
  | engine b e k => simp only [updLh, getLh, getEngine_upd_self]; split <;> exact hf _
  | fabric n k => simp only [updLh, getLh, getPort_upd_self]; split <;> exact hf _
  | link q k => simp only [updLh, getLh, getQuayLh_updQuayLh]; split <;> exact hf _

/-- The state before the event of a retirement. -/
def retiring (s : State) (lh : LighthouseId) : State :=
  retire (updLh s lh (fun l => { l with retired := true, testing := false })) (LhSite lh) ⟨3, 0x0401, LhDomain lh, 0, 0⟩

theorem getLh_congr {t : State} (lh : LighthouseId) (he : t.engines = s.engines) (hp : t.ports = s.ports)
    (hh : t.harbour = s.harbour) : getLh t lh = getLh s lh := by
  cases lh <;> simp [getLh, getEngine, getPort, getQuayLh, he, hp, hh]

/-- A Lighthouse that retires is retired, with event 0x0401, and memory stays. -/
theorem retireLh_retires {lh : LighthouseId} (h : (getLh s lh).retired = false) :
    (getLh (retireLh s lh) lh).retired = true ∧ (retireLh s lh).mem = s.mem ∧
      ∃ v, (retireLh s lh).faults.unlogged = s.faults.unlogged ++ [v] ∧ v.code = 0x0401 := by
  refine ⟨?_, by rw [retireLh_frame], ?_⟩
  · unfold retireLh
    rw [h]
    exact (congrArg Lighthouse.retired (getLh_congr (s := updLh s lh (fun l => { l with retired := true, testing := false }))
      lh rfl rfl rfl)).trans (getLh_updLh_retired lh (fun _ => rfl))
  · obtain ⟨v, v1, v2, -⟩ := raise_unlogged (retiring s lh)
      { code := 0x0401, outcome := if (getLh s (LhOther lh)).retired then 3 else 2, part := LhPart s lh, site := LhSite lh,
        unit := LhNumber lh, arg := LhDomain lh }
    have hf : (retiring s lh).faults = s.faults := by
      show (updLh s lh _).faults = _
      rw [updLh_frame]
    rw [hf] at v1
    refine ⟨v, ?_, v2⟩
    unfold retireLh
    rw [h]
    exact v1

/-! ## The rows -/

/-- A fault of an engine's Lighthouse with a standby (R99). -/
theorem lighthouseFault_row {b e : Nat} {x : Engine} (hx : x = getEngine s b e) (hr : x.rotation ≠ .left)
    (hs : x.lhSwitching = false) (ho : lhReady s (LhOther (.engine b e x.lhActive)) = true)
    (hf : within dayNs (now s) (getLh s (.engine b e x.lhActive)).faults = []) :
    ∃ t v, t = lighthouseFault s b e ∧ (getEngine t b e).lhActive = 1 - x.lhActive ∧
      (getEngine t b e).lhSwitching = true ∧ (getEngine t b e).rotation = x.rotation ∧ t.mem = s.mem ∧
      t.faults.unlogged = s.faults.unlogged ++ [v] ∧ v.code = 0x0401 ∧ v.outcome = 2 ∧ v.site = b ∧
      (∀ r c, x.run = some r → findCmd s r.id = some c →
        ∃ r' d, (getEngine t b e).run = some r' ∧ r'.id = r.id ∧ r'.block = r.block ∧ r'.next = 0 ∧ r'.number = r.number ∧
          findCmd t r.id = some d ∧ d.tally.lhSwitch = true ∧ d.tally.mismatches = c.tally.mismatches ∧
          d.tally.repeats = c.tally.repeats + 1) := by
  obtain ⟨v, v1, v2, v3, v4⟩ := faultLh_first hf
  have hb := sameButLh_faultLh s b e x.lhActive
  have hc : (faultLh s (.engine b e x.lhActive)).ctxs = s.ctxs := by rw [faultLh_frame]
  have hm : (faultLh s (.engine b e x.lhActive)).mem = s.mem := by rw [faultLh_frame]
  rw [← hx, SameButLh] at hb
  refine ⟨_, v, rfl, ?_⟩
  rw [lighthouseFault_switches hx hr hs ho]
  generalize hu : faultLh s (.engine b e x.lhActive) = u at v1 hb hc hm
  have hrun : (getEngine u b e).run = x.run := by rw [hb]
  have hsw := switchRun_frame b e hrun
  have hk : ∃ y, getEngine (switchRun u b e x) b e = y ∧ y.lhActive = x.lhActive ∧ y.rotation = x.rotation ∧
      ∀ r, x.run = some r → ∃ sg, y.run = some (r.again r.number sg) := by
    cases hxr : x.run with
    | none =>
      refine ⟨_, rfl, ?_, ?_, fun r h => by cases h⟩ <;> simp only [switchRun, hxr] <;> rw [hb]
    | some r =>
      obtain ⟨sg, hg⟩ := switchRun_engine (x := x) (hrun.trans hxr) hxr
      refine ⟨_, hg, ?_, ?_, fun r' h => ?_⟩
      · show (getEngine u b e).lhActive = _
        rw [hb]
      · show (getEngine u b e).rotation = _
        rw [hb]
      · cases h
        exact ⟨sg, rfl⟩
  obtain ⟨y, hy, ha, hro, hyr⟩ := hk
  rw [getEngine_upd_self, hy]
  refine ⟨by rw [ha], rfl, hro, ?_, ?_, v2, v3, v4, ?_⟩
  · show (switchRun u b e x).mem = _
    rw [hsw]; exact hm
  · show (switchRun u b e x).faults.unlogged = _
    rw [hsw]; exact v1
  · intro r c hxr hcmd
    obtain ⟨sg, hsg⟩ := hyr r hxr
    have hcu : findCmd u r.id = some c := by simpa [findCmd, getCtx, hc] using hcmd
    obtain ⟨d, hd, ht⟩ := switchRun_cmd (x := x) (hrun.trans hxr) hxr hcu
    exact ⟨_, d, hsg, rfl, rfl, rfl, rfl, hd, by rw [ht], by rw [ht], by rw [ht]⟩

/-- A fault of an engine's last Lighthouse takes the engine out of service (R480). -/
theorem lighthouseFault_last {b e : Nat} {x : Engine} (hx : x = getEngine s b e) (hr : x.rotation ≠ .left)
    (ho : lhReady s (LhOther (.engine b e x.lhActive)) = false) :
    (getEngine (lighthouseFault s b e) b e).rotation = .left ∧ (getEngine (lighthouseFault s b e) b e).reason = 4 := by
  have hb := sameButLh_faultLh s b e x.lhActive
  rw [← hx, SameButLh] at hb
  have hl := getEngine_leaveService (s := faultLh s (.engine b e x.lhActive)) 4 (by rw [hb]; exact hr)
  rw [lighthouseFault_leaves hx hr ho, getEngine_berthBoundaries_left hl.1]
  exact hl

/-- The end of a switch-over keeps a live run, on the standby. -/
theorem switchoverDone_live {b e : Nat} {x : Engine} {r : Run} (hx : x = getEngine s b e) (hr : x.run = some r)
    (hp : x.rowPend.any (fun p => p.1 == 128) = false) (hl : r.live = true) :
    EngineBecomes s (startRun (updEngine s b e Engine.standbyLit) b e) b e x.standbyLit := by
  subst hx
  have hg := getEngine_upd_self s b e Engine.standbyLit
  refine engineBecomes_trans (engineBecomes_updEngine s b e Engine.standbyLit) ?_
  have h := startRun_live (s := updEngine s b e Engine.standbyLit) (b := b) (e := e) (r := r) (by rw [hg]; exact hp)
    (by rw [hg]; exact hr) hl
  rwa [hg] at h

/-- The end of a switch-over starts a discarded block again, on the standby. -/
theorem switchoverDone_again {b e : Nat} {x : Engine} {r : Run} (hx : x = getEngine s b e) (hr : x.run = some r)
    (hp : x.rowPend.any (fun p => p.1 == 128) = false) (hl : r.live = false) (hw : engineWorks s b e = true)
    (hg : x.guard = false) (hq : x.paused = false) (ha : x.active.loaded = true) :
    EngineBecomes s (startRun (updEngine s b e Engine.standbyLit) b e) b e { x.standbyLit.applyHeat with
      run := some { r with live := true, sigma2 := x.sigmaNow (classOf s r.id) } } := by
  subst hx
  have h := startRun_again (s := updEngine s b e Engine.standbyLit) (b := b) (e := e)
    (getEngine_upd_self s b e Engine.standbyLit).symm hp hr hl
    (by rw [engineWorks_updEngine b e (f := Engine.standbyLit) rfl rfl]; exact hw) hg hq rfl ha
  exact engineBecomes_trans (engineBecomes_updEngine s b e Engine.standbyLit) h

/-- The first fault of a port's Lighthouse (R290, R299). -/
theorem fabricLighthouseFault_row {k : Nat} {p : FabricPort} (hp : p = getPort s k) (h4 : released s 4 = true)
    (hq : p.paused = false) (hl : (getSite s k).fabricLost = false) (ho : lhReady s (.fabric k (1 - p.lhActive)) = true)
    (hf : within dayNs (now s) (getLh s (.fabric k p.lhActive)).faults = []) :
    ∃ t v, t = fabricLighthouseFault s k ∧ (getPort t k).paused = true ∧ t.mem = s.mem ∧
      (∀ o ∈ othersOf s k, (getPair t k o).darkSince = some (now s)) ∧
      t.faults.unlogged = s.faults.unlogged ++ [v] ∧ v.code = 0x0401 ∧ v.outcome = 2 ∧ v.site = k := by
  subst hp
  obtain ⟨v, v1, v2, v3, v4⟩ := faultLh_first hf
  have hfr := faultLh_frame s (.fabric k (getPort s k).lhActive)
  refine ⟨_, v, rfl, ?_⟩
  rw [fabricLighthouseFault_pauses h4 hq hl ho]
  generalize hu : faultLh s (.fabric k (getPort s k).lhActive) = u at v1 hfr
  have hd := darken_frame (updPort u k (fun p => { p with paused := true })) k
  refine ⟨?_, ?_, fun o ho => ?_, ?_, v2, v3, v4⟩
  · show (getPort (darken (updPort u k _) k) k).paused = true
    rw [hd]
    exact congrArg FabricPort.paused (getPort_upd_self u k (fun p => { p with paused := true }))
  · show (darken (updPort u k _) k).mem = s.mem
    rw [hd]
    show u.mem = s.mem
    rw [hfr]
  · have hn : now u = now s := by rw [hfr]; rfl
    have hoo : othersOf u k = othersOf s k := by rw [hfr]; rfl
    show (getPair (darken (updPort u k _) k) k o).darkSince = _
    rw [darken_dark (s := updPort u k _) (by rw [← hoo] at ho; exact ho)]
    exact congrArg some hn
  · show (darken (updPort u k _) k).faults.unlogged = _
    rw [hd]
    exact v1

/-- The port sends again, on its other Lighthouse. -/
theorem fabricLhResume_row {k : Nat} {p : FabricPort} (hp : p = getPort s k) (hq : p.paused = true)
    (ho : lhReady s (.fabric k (1 - p.lhActive)) = true) :
    ∃ t, t = fabricLhResume s k ∧
      ((∀ o, (getPair s k o).again = [] ∧ (getPair s o k).again = []) → t = { s with ports := t.ports, pairs := t.pairs }) ∧
      getPort t k = { p with paused := false, lhActive := 1 - p.lhActive } ∧
      (∀ o ∈ othersOf s k, (getPair t k o).darkSince = none) := by
  subst hp
  refine ⟨_, rfl, ?_⟩
  rw [fabricLhResume_eq hq ho]
  obtain ⟨hm, hd⟩ := monitorsOnly_examineAll k (othersOf s k)
    (relight (updPort s k (fun p => { p with paused := false, lhActive := 1 - p.lhActive })) k)
  refine ⟨fun hn => ?_, ?_, fun o ho => ?_⟩
  · obtain ⟨-, h⟩ := ((pairsOnly_relight k (updPort s k (fun p => { p with paused := false, lhActive := 1 - p.lhActive }))).trans
      (foldl_rel (PairsOnly.refl k) PairsOnly.trans (fun t o => pairsOnly_examineAgain_to k t o) (othersOf s k) _)) hn
    rw [h]
    rfl
  · have hr := relight_ports (updPort s k (fun p => { p with paused := false, lhActive := 1 - p.lhActive })) k
    rw [hm]
    unfold getPort
    rw [hr]
    exact getPort_upd_self s k (fun p => { p with paused := false, lhActive := 1 - p.lhActive })
  · rw [hd]
    exact relight_lit (s := updPort s k (fun p => { p with paused := false, lhActive := 1 - p.lhActive })) ho

/-- The standby of a quay is active at once. -/
theorem linkLighthouseFault_switches {q a : Nat} (ha : a = (getQuayLh s q).lhActive) (ho : lhReady s (.link q (1 - a)) = true)
    (hf : within dayNs (now s) (getLh s (.link q a)).faults = []) :
    ∃ t v, t = linkLighthouseFault s q ∧ (getQuayLh t q).lhActive = 1 - a ∧ t.mem = s.mem ∧
      t.harbour.links = s.harbour.links ∧ t.faults.unlogged = s.faults.unlogged ++ [v] ∧ v.code = 0x0401 ∧
      v.site = quaySite q := by
  obtain ⟨v, v1, v2, -, v4⟩ := faultLh_first hf
  have hfr := faultLh_frame s (.link q a)
  have hact := faultLh_link_active s q a
  refine ⟨_, v, rfl, ?_⟩
  have he : linkLighthouseFault s q =
      delayQuay (updQuayLh (faultLh s (.link q a)) q (fun p => { p with lhActive := 1 - p.lhActive })) q := by
    unfold linkLighthouseFault
    dsimp only
    rw [← ha, ho]
    rfl
  rw [he]
  generalize faultLh s (.link q a) = u at v1 hfr hact
  refine ⟨?_, ?_, ?_, v1, v2, v4⟩
  · show (getQuayLh (updQuayLh u q _) q).lhActive = _
    rw [getQuayLh_updQuayLh, ha, ← hact]
  · show u.mem = s.mem
    rw [hfr]
  · show u.harbour.links = s.harbour.links
    rw [hfr]

theorem linkLighthouseFault_fails {q a : Nat} (ha : a = (getQuayLh s q).lhActive) (ho : lhReady s (.link q (1 - a)) = false)
    {i : Nat} (hi : i < 3) (h : (getLink s (3 * q + i)).state ≠ .disabled) :
    (getLink (linkLighthouseFault s q) (3 * q + i)).state = .failed := by
  have he : linkLighthouseFault s q = failQuayLinks (faultLh s (.link q a)) q := by
    unfold linkLighthouseFault
    dsimp only
    rw [← ha, ho]
    rfl
  rw [he]
  exact failQuayLinks_failed hi (by rw [faultLh_links]; exact h)

/-- Settles O41: each pair's fault, the end of its switch-over and the check of its standby. -/
theorem lighthousePairsSwitchOver : Obligations.LighthousePairsSwitchOver := by
  unfold Obligations.LighthousePairsSwitchOver
  refine ⟨fun s b e x he hx => ⟨?_, ?_, ?_, ?_, ⟨rfl, rfl, rfl⟩, ?_⟩, fun s k p hk hp => ⟨?_, ?_, ?_⟩,
    fun s q a hq ha => ⟨?_, ?_⟩, ?_, ?_⟩
  · intro h4 hr hs ho hf
    obtain ⟨t, v, ht, h⟩ := lighthouseFault_row hx hr hs ho hf
    exact ⟨t, v, guarded_next.mpr ⟨he, (onceReleased_of h4).trans ht.symm⟩, h⟩
  · intro h4 hr ho
    exact ⟨_, guarded_next.mpr ⟨he, onceReleased_of h4⟩, lighthouseFault_last hx hr ho⟩
  · intro r hs hr hp
    have hi : (getEngine s b e).lhSwitching = true := by rw [← hx]; exact hs
    exact ⟨fun hl => ⟨_, guarded_next.mpr ⟨he, if_pos hi⟩, switchoverDone_live hx hr hp hl⟩,
      fun hl hw hg hq ha => ⟨_, guarded_next.mpr ⟨he, if_pos hi⟩, switchoverDone_again hx hr hp hl hw hg hq ha⟩⟩
  · intro h4
    exact guarded_next.mpr ⟨he, onceReleased_not h4⟩
  · intro hs
    exact guarded_next.mpr ⟨he, if_neg (by rw [← hx, hs]; decide)⟩
  · intro h4 hq hl ho hf
    obtain ⟨t, v, ht, h⟩ := fabricLighthouseFault_row hp h4 hq hl ho hf
    exact ⟨t, v, guarded_next.mpr ⟨hk, ht.symm⟩, h⟩
  · intro hq ho
    obtain ⟨t, ht, h⟩ := fabricLhResume_row hp hq ho
    exact ⟨t, guarded_next.mpr ⟨hk, ht.symm⟩, h⟩
  · intro h
    rw [hp] at h
    exact guarded_next.mpr ⟨hk, fabricLhResume_not h⟩
  · intro ho hf
    obtain ⟨t, v, ht, h⟩ := linkLighthouseFault_switches ha ho hf
    exact ⟨t, v, guarded_next.mpr ⟨decide_eq_true hq, ht.symm⟩, h⟩
  · intro ho
    exact ⟨_, guarded_next.mpr ⟨decide_eq_true hq, rfl⟩, fun i hi h => linkLighthouseFault_fails ha ho hi h⟩
  · intro s k n hk hn ha hr
    have hel : hasElement s (.lighthouse (.fabric k n)) = true := by simp [hasElement, hk, hn]
    have hret : (getLh s (.fabric k n)).retired = false := by
      simp only [lhReady, Bool.and_eq_true, Bool.not_eq_true'] at hr
      exact hr.1
    obtain ⟨h1, h2, v, h3, h4⟩ := retireLh_retires hret
    exact ⟨guarded_next.mpr ⟨hel, by simp [standbyCheck]⟩, _, v,
      guarded_next.mpr ⟨hel, by simp [standbyCheck, ha, hr]⟩, h1, h2, h3, h4⟩
  · intro s b e n pass he hn
    exact guarded_next.mpr ⟨by simp [hasElement, he, hn], by simp [standbyCheck]⟩

end Sys2Proof.Machine
end

section
/-! SUPPORT. Frames in order: the arithmetic of lane frames and frame bodies, what a frame on a pair direction changes, and what a
bundle frame of a near link changes. -/

namespace Sys2Proof.Machine

/-! ## Lane frames and bodies (R283, Table 09-2) -/

theorem sumNat_concat (l : List Nat) (x : Nat) : sumNat (l ++ [x]) = sumNat l + x := by
  simp [sumNat]

/-- A lane frame carries its 110 bits of the body. -/
theorem laneBits_laneFrame (h : Bool) (b j : Nat) : laneBits (laneFrame h b j) = fld b (110 * j) 110 := by
  have hb : fld b (110 * j) 110 < 2 ^ 110 := Nat.mod_lt _ (by decide)
  have hs : ∀ c : Nat, c < 4 → (fld b (110 * j) 110 * 4 + c) % 2 ^ 112 / 4 = fld b (110 * j) 110 := by
    intro c hc
    rw [Nat.mod_eq_of_lt (by omega)]
    omega
  rw [laneBits, laneFrame, BitVec.toNat_ofNat, Nat.shiftLeft_eq]
  exact hs _ (by split <;> decide)

/-- The first n lane frames of a body carry its low 110 n bits. -/
theorem bodyOf_laneFrames (h : Bool) (b n : Nat) : bodyOf ((List.range n).map (laneFrame h b)) = b % 2 ^ (110 * n) := by
  induction n with
  | zero => simp [bodyOf, sumNat, Nat.mod_one]
  | succ n ih =>
    have hz : bodyOf ((List.range (n + 1)).map (laneFrame h b)) =
        bodyOf ((List.range n).map (laneFrame h b)) + laneBits (laneFrame h b n) <<< (110 * n) := by
      simp only [bodyOf, List.range_succ, List.map_append, List.map_cons, List.map_nil, List.zipIdx_append, List.zipIdx_singleton,
        List.length_map, List.length_range, Nat.zero_add]
      exact sumNat_concat _ _
    rw [hz, ih, laneBits_laneFrame, fld, Nat.shiftLeft_eq, Nat.shiftRight_eq_div_pow, Nat.mul_add, Nat.pow_add, Nat.mul_one,
      Nat.mod_mul, Nat.mul_comm (2 ^ (110 * n))]

theorem bodyOf_whole (h : Bool) {b n w : Nat} (hw : 110 * n = w) (hb : b < 2 ^ w) :
    bodyOf ((List.range n).map (laneFrame h b)) = b := by
  rw [bodyOf_laneFrames, hw]
  exact Nat.mod_eq_of_lt hb

/-- The header of a frame fills the 128 bits below its payload. -/
theorem frameBits_split (f : FabricFrame) : ∃ h, h < 2 ^ 128 ∧ frameBits f = h + 2 ^ 128 * f.payload.toNat := by
  have ha := f.ackSeq.isLt
  have hq := f.seq.isLt
  have hf := f.first.isLt
  have hc := f.credits.isLt
  have hbit : ∀ x : Bool, bit x ≤ 1 := by decide
  have h1 := hbit f.nak
  have h2 := hbit f.idreq
  have h3 := hbit f.idle
  have h4 := hbit f.stripe
  refine ⟨f.ackSeq.toNat * 2 ^ 96 + f.seq.toNat * 2 ^ 64 + f.evt % 8 * 2 ^ 53 + f.evtPlane % 32 * 2 ^ 48 + f.first.toNat * 2 ^ 40 +
    bit f.nak * 2 ^ 39 + bit f.idreq * 2 ^ 38 + bit f.idle * 2 ^ 37 + bit f.stripe * 2 ^ 36 + f.credits.toNat, by omega, ?_⟩
  simp only [frameBits, Nat.shiftLeft_eq]
  omega

/-- Two fields side by side fill their widths together. -/
theorem add_mul_two_pow_lt {x k n w : Nat} (v : BitVec n) (hw : k + n = w) (hx : x < 2 ^ k) : x + 2 ^ k * v.toNat < 2 ^ w := by
  rw [← hw, Nat.pow_add]
  calc x + 2 ^ k * v.toNat < 2 ^ k * (v.toNat + 1) := by
        rw [Nat.mul_add, Nat.mul_one, Nat.add_comm]; exact Nat.add_lt_add_left hx _
    _ ≤ 2 ^ k * 2 ^ n := Nat.mul_le_mul_left _ v.isLt

theorem add_shiftLeft_mod (x c w : Nat) : (x + c <<< w) % 2 ^ w = x % 2 ^ w := by
  rw [Nat.shiftLeft_eq, Nat.add_mul_mod_self_right]
theorem add_shiftLeft_div {x w : Nat} (c : Nat) (h : x < 2 ^ w) : (x + c <<< w) / 2 ^ w = c := by
  rw [Nat.shiftLeft_eq, Nat.add_mul_div_right _ _ (Nat.two_pow_pos _), Nat.div_eq_of_lt h, Nat.zero_add]

theorem frameBits_lt (f : FabricFrame) : frameBits f < 2 ^ 1696 := by
  obtain ⟨h, hl, he⟩ := frameBits_split f
  rw [he]
  exact add_mul_two_pow_lt f.payload (w := 1696) rfl hl

/-- A body closed with its CRC passes the check. -/
theorem bodyGood_frameBody (a b : Nat) (f : FabricFrame) : bodyGood a b (frameBody a b f) = true := by
  have hm : bodyCrc a b (frameBody a b f) = bodyCrc a b (frameBits f) :=
    congrArg (crc64 ((a % 64) <<< 8 + b % 64) 1696) (add_shiftLeft_mod (frameBits f) (bodyCrc a b (frameBits f)) 1696)
  exact beq_iff_eq.mpr ((add_shiftLeft_div _ (frameBits_lt f)).trans hm.symm)

variable {s : State}

/-! ## Operations on one pair direction -/

/-- One pair direction changes, and requests are marked as delayed. -/
def PairTouched (a b : Nat) (s t : State) : Prop :=
  t = { s with pairs := t.pairs, reqs := t.reqs } ∧ ∀ i j, i * 64 + j ≠ a * 64 + b → getPair t i j = getPair s i j

theorem PairTouched.refl (a b : Nat) (s : State) : PairTouched a b s s := ⟨rfl, fun _ _ _ => rfl⟩
theorem PairTouched.trans {a b : Nat} {s t u : State} (h : PairTouched a b s t) (g : PairTouched a b t u) : PairTouched a b s u := by
  obtain ⟨h1, h2⟩ := h
  obtain ⟨g1, g2⟩ := g
  exact ⟨by rw [g1, h1], fun i j hk => (g2 i j hk).trans (h2 i j hk)⟩

theorem pairTouched_updPair (s : State) (a b : Nat) (f : PairDir → PairDir) : PairTouched a b s (updPair s a b f) :=
  ⟨rfl, fun _ _ h => getPair_upd_other s f h⟩
theorem pairTouched_delayPair (s : State) (a b c d : Nat) : PairTouched a b s (delayPair s c d) := ⟨rfl, fun _ _ _ => rfl⟩
theorem pairTouched_relockRing (s : State) (a b : Nat) (rx : Bool) (x : Nat) : PairTouched a b s (relockRing s a b rx x) :=
  pairTouched_updPair s a b _

theorem getPair_relockRing (s : State) (a b : Nat) (rx : Bool) (x : Nat) :
    getPair (relockRing s a b rx x) a b = (getPair s a b).setRing rx x (startRing s a b rx x) :=
  getPair_upd_self s a b (fun p => p.setRing rx x (startRing s a b rx x))

theorem setRing_frame (p : PairDir) (rx : Bool) (x : Nat) (r : Ring) :
    p.setRing rx x r = { p with rings := (p.setRing rx x r).rings, modRings := (p.setRing rx x r).modRings } := by
  unfold PairDir.setRing
  split <;> rfl

theorem askEvent_touches (s : State) (a b evt plane : Nat) : PairTouched a b s (askEvent s a b evt plane) := by
  unfold askEvent
  dsimp only
  split
  · exact (pairTouched_updPair s a b _).trans (pairTouched_relockRing _ a b false plane)
  · exact pairTouched_updPair s a b _

/-- An event asked of a sender stands among its changes, and the acknowledgement stays. -/
theorem getPair_askEvent (s : State) (a b evt plane : Nat) :
    (evt, plane) ∈ (getPair (askEvent s a b evt plane) a b).change ∧
      (getPair (askEvent s a b evt plane) a b).txAcked = (getPair s a b).txAcked := by
  have hm : (evt, plane) ∈ addNew (evt, plane) (getPair s a b).change := by
    unfold addNew
    split
    · assumption
    · exact List.mem_append_right _ (List.mem_singleton_self _)
  unfold askEvent
  dsimp only
  split
  · rw [getPair_relockRing, setRing_frame, getPair_upd_self]
    exact ⟨hm, rfl⟩
  · rw [getPair_upd_self]
    exact ⟨hm, rfl⟩

/-! ## Frames that are sent -/

theorem countSent_nil (a b : Nat) (seq : W32) : countSent s a b seq [] = s := rfl

/-- A frame with packets takes room in the receive buffers when it is sent for the first time. -/
def PairDir.sends (p : PairDir) (seq : W32) (units : List Nat) : PairDir :=
  { p with owed := if p.inReplay seq then p.owed else addUnits p.owed units }

/-- A port that has sent a frame with packets to a site. -/
def FabricPort.sends (p : FabricPort) (s : State) (b : Nat) : FabricPort :=
  { p with sentAt := sentMicro s p.sentAt ++ [(now s, b)], served := b }

theorem countSent_some {units : List Nat} (a b : Nat) (seq : W32) (h : units ≠ []) : countSent s a b seq units =
    updPort (updPair s a b (fun p => p.sends seq units)) a (fun p => p.sends s b) := by
  unfold countSent
  rw [if_neg (by simpa using h)]
  rfl

/-- What is counted when a frame is sent: room in the pair direction, and the sender's port. -/
theorem countSent_counts (s : State) (a b : Nat) (seq : W32) (units : List Nat) :
    countSent s a b seq units = { s with pairs := (countSent s a b seq units).pairs, ports := (countSent s a b seq units).ports } ∧
    (∀ k, k ≠ a → getPort (countSent s a b seq units) k = getPort s k) ∧
    (∀ k, (getPort (countSent s a b seq units) k).trimWait = (getPort s k).trimWait) ∧
    (∀ i j, i * 64 + j ≠ a * 64 + b → getPair (countSent s a b seq units) i j = getPair s i j) ∧
    getPair (countSent s a b seq units) a b =
      { getPair s a b with owed := (getPair (countSent s a b seq units) a b).owed } := by
  by_cases hu : units = []
  · subst hu
    exact ⟨rfl, fun _ _ => rfl, fun _ => rfl, fun _ _ _ => rfl, rfl⟩
  · rw [countSent_some a b seq hu]
    refine ⟨rfl, fun k hk => getPort_upd_other (updPair s a b _) _ hk, fun k => ?_, fun i j h => getPair_upd_other s (fun p => p.sends seq units) h, ?_⟩
    · by_cases hk : k = a
      · subst hk
        rw [getPort_upd_self]
        rfl
      · exact congrArg FabricPort.trimWait (getPort_upd_other (updPair s a b _) _ hk)
    · have hp : getPair (updPort (updPair s a b (fun p => p.sends seq units)) a (fun p => p.sends s b)) a b =
          (getPair s a b).sends seq units := getPair_upd_self s a b (fun p => p.sends seq units)
      rw [hp]
      rfl

/-! ## Frames that fail (R285, R294, R298) -/

/-- A pair direction whose frame has failed. -/
def PairDir.failed (p : PairDir) (n : Nat) : PairDir :=
  { p.put p.sending none with nak := true, fails := n, idreq := p.idreq || (decide (p.fails < 4) && decide (4 ≤ n)) }

theorem frameFailed_eq {a b n : Nat} {p : PairDir} (hp : p = getPair s a b)
    (hn : n = if p.sending = p.rxSeq then p.fails + 1 else p.fails) : frameFailed s a b =
      if 16 ≤ n then beginRetraining (delayPair (updPair s a b (fun p => p.failed n)) a b) a b
      else delayPair (updPair s a b (fun p => p.failed n)) a b := by
  subst hp hn
  rfl

/-- While a pair direction begins to retrain. -/
def Retrains (n : Nat) (p : PairDir) : Prop := p.retraining = true ∧ p.retrains = n ∧ p.fails = 0

theorem retrains_setRing {n : Nat} {p : PairDir} (h : Retrains n p) (rx : Bool) (x : Nat) (r : Ring) : Retrains n (p.setRing rx x r) := by
  rw [setRing_frame]
  exact h

theorem beginRetraining_row (s : State) (a b : Nat) : PairTouched a b s (beginRetraining s a b) ∧
    Retrains ((getPair s a b).retrains + 1) (getPair (beginRetraining s a b) a b) := by
  have step : ∀ (l : List Nat) (t : State), Retrains ((getPair s a b).retrains + 1) (getPair t a b) →
      PairTouched a b t (l.foldl (fun t x => if (getPair s a b).retired.contains x then t
        else relockRing (relockRing t a b true x) a b false x) t) ∧
      Retrains ((getPair s a b).retrains + 1) (getPair (l.foldl (fun t x => if (getPair s a b).retired.contains x then t
        else relockRing (relockRing t a b true x) a b false x) t) a b) := by
    intro l
    induction l with
    | nil => exact fun t h => ⟨.refl a b t, h⟩
    | cons x l ih =>
      intro t h
      rw [List.foldl_cons]
      split
      · exact ih t h
      · obtain ⟨h1, h2⟩ := ih (relockRing (relockRing t a b true x) a b false x)
          (by rw [getPair_relockRing, getPair_relockRing]; exact retrains_setRing (retrains_setRing h _ _ _) _ _ _)
        exact ⟨((pairTouched_relockRing t a b true x).trans (pairTouched_relockRing _ a b false x)).trans h1, h2⟩
  obtain ⟨h1, h2⟩ := step (List.range 18) (updPair s a b (fun p =>
    { p with retraining := true, deskewed := false, retrains := p.retrains + 1, fails := 0, idreq := false }))
    (by rw [getPair_upd_self]; exact ⟨rfl, rfl, rfl⟩)
  exact ⟨((pairTouched_updPair s a b _).trans h1).trans (pairTouched_delayPair _ a b a b), h2⟩

/-! ## Frames that are accepted (R285) -/

/-- A pair direction that accepts a frame at some Tide. -/
def PairDir.accepts (p : PairDir) (f : FabricFrame) (body tide : Nat) : PairDir :=
  { p.put f.seq (some body) with
    rxSeq := p.rxSeq + 1
    replayFrom := if p.replayFrom = some f.seq then none else p.replayFrom
    nak := false
    fails := 0
    idreq := false
    asleep := false
    lastPacket := if f.idle then p.lastPacket else tide
    delivered := if f.idle then p.delivered else p.delivered + 1 }

/-- What a frame of the other direction says to a pair direction. -/
def PairDir.hears (q : PairDir) (f : FabricFrame) : PairDir :=
  { q with
    txAcked := f.ackSeq
    replay := q.replay.filter (fun e => decide ((e.1 - f.ackSeq).toNat - 1 < 128) && decide (e.1 ≠ f.ackSeq))
    replayFrom := if f.nak then some (f.ackSeq + 1) else q.replayFrom
    sending := if f.nak then f.ackSeq + 1 else q.sending
    nak := q.nak && !f.nak
    idFrame := q.idFrame || f.idreq
    owed := takeCredits q.owed f.credits }

theorem reverseFields_eq (s : State) (a b : Nat) {f : FabricFrame} (h : f.stripe = false) : reverseFields s a b f =
    (let u := if f.nak then delayPair (updPair s b a (fun q => q.hears f)) a b else updPair s b a (fun q => q.hears f)
    if f.evt = 0 then u else askEvent u b a f.evt f.evtPlane) := by
  unfold reverseFields
  simp only [h, Bool.or_false, decide_eq_true_eq]
  rfl

theorem reverseFields_row (s : State) (a b : Nat) {f : FabricFrame} (h : f.stripe = false) :
    PairTouched b a s (reverseFields s a b f) ∧ (getPair (reverseFields s a b f) b a).txAcked = f.ackSeq ∧
      (f.evt ≠ 0 → (f.evt, f.evtPlane) ∈ (getPair (reverseFields s a b f) b a).change) := by
  rw [reverseFields_eq s a b h]
  dsimp only
  have hu : ∀ u, (u = if f.nak then delayPair (updPair s b a (fun q => q.hears f)) a b else updPair s b a (fun q => q.hears f)) →
      PairTouched b a s u ∧ (getPair u b a).txAcked = f.ackSeq := by
    rintro u rfl
    have hg : (getPair (updPair s b a (fun q => q.hears f)) b a).txAcked = f.ackSeq := by
      rw [getPair_upd_self]
      rfl
    split
    · exact ⟨(pairTouched_updPair s b a _).trans (pairTouched_delayPair _ b a a b), hg⟩
    · exact ⟨pairTouched_updPair s b a _, hg⟩
  generalize (if f.nak = true then delayPair (updPair s b a (fun q => q.hears f)) a b
    else updPair s b a (fun q => q.hears f)) = u at hu
  obtain ⟨h1, h2⟩ := hu u rfl
  split
  · next h0 => exact ⟨h1, h2, fun hn => absurd h0 hn⟩
  · obtain ⟨g1, g2⟩ := getPair_askEvent u b a f.evt f.evtPlane
    exact ⟨h1.trans (askEvent_touches u b a _ _), g2.trans h2, fun _ => g1⟩

theorem trimPair_idle {idle : Bool} {a b : Nat} (h : (getPair s a b).trimTodo = []) : trimPair idle a s b = s := by
  unfold trimPair
  dsimp only
  rw [if_pos (.inl h)]

theorem endTrims_idle {k : Nat} (h : (getPort s k).trimWait = none) : endTrims s k = s := by
  unfold endTrims
  rw [h]

theorem countTaken_ports (s : State) (b : Nat) (units : List Nat) :
    countTaken s b units = { s with ports := (countTaken s b units).ports } ∧
    (∀ k, k ≠ b → getPort (countTaken s b units) k = getPort s k) ∧
    (∀ k, (getPort (countTaken s b units) k).trimWait = (getPort s k).trimWait) ∧
    (getPort (countTaken s b units) b).takenAt =
      if units = [] then (getPort s b).takenAt else lastMicro s (getPort s b).takenAt ++ [now s] := by
  cases units with
  | nil => exact ⟨rfl, fun _ _ => rfl, fun _ => rfl, rfl⟩
  | cons x l =>
    have he : countTaken s b (x :: l) = updPort s b (fun p => { p with takenAt := lastMicro s p.takenAt ++ [now s] }) := rfl
    rw [he]
    refine ⟨rfl, fun k hk => getPort_upd_other s _ hk, fun k => ?_, ?_⟩
    · by_cases hk : k = b
      · subst hk
        rw [getPort_upd_self]
      · rw [getPort_upd_other s _ hk]
    · rw [getPort_upd_self]
      rfl

/-- An unmarked frame is accepted on a pair direction that no trim concerns. -/
theorem acceptFrame_eq {a b : Nat} {f : FabricFrame} (body : Nat) (units : List Nat) (hab : a * 64 + b ≠ b * 64 + a)
    (hs : f.stripe = false) (hp : (getPair s a b).trimTodo = []) (ha : (getPort s a).trimWait = none)
    (hb : (getPort s b).trimWait = none) : acceptFrame s a b f body units =
      reverseFields (countTaken (updPair s a b (fun p => p.accepts f body (now s))) b units) a b f := by
  have hu : acceptFrame s a b f body units = endTrims (endTrims (trimPair f.idle a
      (reverseFields (countTaken (updPair s a b (fun p => p.accepts f body (now s))) b units) a b f) b) a) b := by
    unfold acceptFrame
    dsimp only
    rw [hs]
    rfl
  obtain ⟨c1, -, c3, -⟩ := countTaken_ports (updPair s a b (fun p => p.accepts f body (now s))) b units
  generalize countTaken (updPair s a b (fun p => p.accepts f body (now s))) b units = u at hu c1 c3
  obtain ⟨⟨r1, r2⟩, -⟩ := reverseFields_row u a b hs
  have ht : (getPair (reverseFields u a b f) a b).trimTodo = [] := by
    have hc : getPair u a b = (getPair s a b).accepts f body (now s) := by
      rw [c1]
      exact getPair_upd_self s a b (fun p => p.accepts f body (now s))
    rw [r2 a b hab, hc]
    exact hp
  have hw : ∀ k, (getPort (reverseFields u a b f) k).trimWait = (getPort s k).trimWait := fun k => by
    rw [r1]
    exact c3 k
  rw [hu, trimPair_idle ht, endTrims_idle (k := a) ((hw a).trans ha), endTrims_idle (k := b) ((hw b).trans hb)]

/-! ## A striped frame -/

theorem lt_of_hasSite {k : Nat} (h : hasSite s k = true) : k < 64 := by
  by_contra hk
  have hr : siteKind k = .reserved := by
    unfold siteKind
    rw [if_neg (by omega), if_neg (by omega), if_neg (by omega), if_neg (by omega)]
  simp [hasSite, sitePresent, hr] at h

theorem hasPair_keys {a b : Nat} (h : hasPair s a b = true) : a ≠ b ∧ a * 64 + b ≠ b * 64 + a := by
  simp only [hasPair, Bool.and_eq_true, bne_iff_ne] at h
  obtain ⟨⟨ha, hb⟩, hn⟩ := h
  have := lt_of_hasSite ha
  have := lt_of_hasSite hb
  exact ⟨hn, by omega⟩

theorem stripedFrame_arrives {a b : Nat} {lanes : List (BitVec 112)} {units waiting : List Nat}
    (h5 : released s 5 = true) (hl : (getPair s a b).lost = false) (hr : (getPair s a b).retraining = false)
    (hm : maySend s a b (if bodyGood a b (bodyOf lanes) then (parseFrame (bodyOf lanes)).seq else (getPair s a b).sending)
      units waiting = true) : stripedFrame s a b lanes units waiting =
    (let f := parseFrame (bodyOf lanes)
    let u := countSent s a b (if bodyGood a b (bodyOf lanes) then f.seq else (getPair s a b).sending) units
    if bodyGood a b (bodyOf lanes) = false then frameFailed u a b
    else if f.seq = (getPair s a b).rxSeq then acceptFrame u a b f (bodyOf lanes) units
    else if (f.seq - (getPair s a b).rxSeq).toNat < 2 ^ 31 then
      updPair u a b (fun p => { p.put f.seq (some (bodyOf lanes)) with nak := true })
    else updPair u a b (fun p => p.put f.seq (some (bodyOf lanes)))) := by
  unfold stripedFrame
  simp only [pairWorks, h5, hl, hr, hm, Bool.not_eq_true']
  rfl

theorem stripedFrame_stays {a b : Nat} {lanes : List (BitVec 112)} {units waiting : List Nat}
    (h : released s 5 = false ∨ (getPair s a b).lost = true ∨ (getPair s a b).retraining = true ∨
      maySend s a b (if bodyGood a b (bodyOf lanes) then (parseFrame (bodyOf lanes)).seq else (getPair s a b).sending)
        units waiting = false) : stripedFrame s a b lanes units waiting = s := by
  unfold stripedFrame
  dsimp only
  rw [if_pos]
  rcases h with h | h | h | h <;> simp [pairWorks, h]

theorem maySend_paused {a b : Nat} (seq : W32) (units waiting : List Nat) (h : (getPort s a).paused = true) :
    maySend s a b seq units waiting = false := by
  simp [maySend, h]

/-- A pair direction that differs in the room its frames have taken only. -/
def SameButOwed (p q : PairDir) : Prop := q = { p with owed := q.owed }

/-- A frame that fails, but not often enough for a retraining. -/
theorem frameFailed_row {a b : Nat} {p : PairDir} (hg : SameButOwed p (getPair s a b)) (hr : p.retraining = false)
    (hf : p.fails < 15) : PairTouched a b s (frameFailed s a b) ∧
      ∃ y, getPair (frameFailed s a b) a b = y ∧ y.nak = true ∧ y.rxSeq = p.rxSeq ∧
      y.owed = (getPair s a b).owed ∧ y.stripe = p.stripe ∧ y.delivered = p.delivered ∧ y.retraining = false ∧
      y.fails = (if p.sending = p.rxSeq then p.fails + 1 else p.fails) ∧
      y.idreq = (p.idreq || decide (p.sending = p.rxSeq ∧ p.fails = 3)) := by
  generalize hq : getPair s a b = q at hg
  obtain ⟨n, hn⟩ : ∃ n, n = if p.sending = p.rxSeq then p.fails + 1 else p.fails := ⟨_, rfl⟩
  have hn' : n = if q.sending = q.rxSeq then q.fails + 1 else q.fails := by rw [hg]; exact hn
  have hlt : ¬ 16 ≤ n := by split at hn <;> omega
  have hi : (p.idreq || (decide (p.fails < 4) && decide (4 ≤ n))) = (p.idreq || decide (p.sending = p.rxSeq ∧ p.fails = 3)) := by
    congr 1
    rw [← Bool.decide_and]
    refine decide_eq_decide.mpr ?_
    by_cases hs : p.sending = p.rxSeq
    · rw [if_pos hs] at hn
      simp only [hs, true_and, hn]
      omega
    · rw [if_neg hs] at hn
      simp only [hs, false_and, hn, iff_false]
      omega
  rw [frameFailed_eq hq.symm hn', if_neg hlt]
  have hy : getPair (delayPair (updPair s a b (fun p => p.failed n)) a b) a b = q.failed n := by
    rw [← hq]
    exact getPair_upd_self s a b (fun p => p.failed n)
  refine ⟨(pairTouched_updPair s a b _).trans (pairTouched_delayPair _ a b a b), _, hy, rfl, ?_, rfl, ?_, ?_, ?_, hn, ?_⟩
  · show q.rxSeq = _; rw [hg]
  · show q.stripe = _; rw [hg]
  · show q.delivered = _; rw [hg]
  · show q.retraining = _; rw [hg]; exact hr
  · show (q.idreq || (decide (q.fails < 4) && decide (4 ≤ n))) = _; rw [hg]; exact hi

/-- The 16th failure in a row starts a retraining. -/
theorem frameFailed_retrains {a b : Nat} {p : PairDir} (hg : SameButOwed p (getPair s a b)) (hs : p.sending = p.rxSeq)
    (hf : 15 ≤ p.fails) : PairTouched a b s (frameFailed s a b) ∧ Retrains (p.retrains + 1) (getPair (frameFailed s a b) a b) := by
  generalize hq : getPair s a b = q at hg
  have hn : p.fails + 1 = if q.sending = q.rxSeq then q.fails + 1 else q.fails := by rw [hg]; exact (if_pos hs).symm
  rw [frameFailed_eq hq.symm hn, if_pos (by omega)]
  obtain ⟨h1, h2⟩ := beginRetraining_row (delayPair (updPair s a b (fun q => q.failed (p.fails + 1))) a b) a b
  have hy : getPair (delayPair (updPair s a b (fun q => q.failed (p.fails + 1))) a b) a b = q.failed (p.fails + 1) := by
    rw [← hq]
    exact getPair_upd_self s a b (fun q => q.failed (p.fails + 1))
  rw [hy] at h2
  have hrt : (q.failed (p.fails + 1)).retrains = p.retrains := by
    show q.retrains = _
    rw [hg]
  rw [hrt] at h2
  exact ⟨((pairTouched_updPair s a b _).trans (pairTouched_delayPair _ a b a b)).trans h1, h2⟩

/-- A good frame with the expected SEQ. -/
theorem acceptFrame_row {a b : Nat} {p : PairDir} {f : FabricFrame} (body : Nat) (units : List Nat) (hab : a ≠ b)
    (hk : a * 64 + b ≠ b * 64 + a) (hg : SameButOwed p (getPair s a b)) (hs : f.stripe = false) (hp : p.trimTodo = [])
    (ha : (getPort s a).trimWait = none) (hb : (getPort s b).trimWait = none) :
    ∃ t y, t = acceptFrame s a b f body units ∧ t = { s with pairs := t.pairs, reqs := t.reqs, ports := t.ports } ∧
      getPort t a = getPort s a ∧
      (getPort t b).takenAt = (if units = [] then (getPort s b).takenAt else lastMicro s (getPort s b).takenAt ++ [now s]) ∧
      getPair t a b = y ∧ y.owed = (getPair s a b).owed ∧ y.rxSeq = p.rxSeq + 1 ∧ y.nak = false ∧ y.fails = 0 ∧
      y.stripe = p.stripe ∧ y.delivered = (if f.idle then p.delivered else p.delivered + 1) ∧
      (getPair t b a).txAcked = f.ackSeq ∧ (f.evt ≠ 0 → (f.evt, f.evtPlane) ∈ (getPair t b a).change) ∧
      (∀ i j, i * 64 + j ≠ a * 64 + b → i * 64 + j ≠ b * 64 + a → getPair t i j = getPair s i j) := by
  have hq : (getPair s a b).trimTodo = [] := by rw [hg]; exact hp
  refine ⟨_, (getPair s a b).accepts f body (now s), rfl, ?_⟩
  rw [acceptFrame_eq body units hk hs hq ha hb]
  obtain ⟨c1, c2, -, c4⟩ := countTaken_ports (updPair s a b (fun p => p.accepts f body (now s))) b units
  generalize countTaken (updPair s a b (fun p => p.accepts f body (now s))) b units = u at c1 c2 c4
  obtain ⟨⟨r1, r2⟩, r3, r4⟩ := reverseFields_row u a b hs
  have hpair : ∀ i j, getPair u i j = getPair (updPair s a b (fun p => p.accepts f body (now s))) i j := fun i j => by rw [c1]; rfl
  have hport : ∀ k, getPort (reverseFields u a b f) k = getPort u k := fun k => by rw [r1]; rfl
  refine ⟨by rw [r1, c1]; rfl, ?_, ?_, ?_, rfl, ?_, rfl, rfl, ?_, ?_, r3, r4, fun i j h1 h2 => ?_⟩
  · rw [hport, c2 a hab]
    rfl
  · rw [hport, c4]
    rfl
  · rw [r2 a b hk, hpair, getPair_upd_self]
  · show (getPair s a b).rxSeq + 1 = _; rw [hg]
  · show (getPair s a b).stripe = _; rw [hg]
  · show (if f.idle then (getPair s a b).delivered else (getPair s a b).delivered + 1) = _; rw [hg]
  · rw [r2 i j h2, hpair, getPair_upd_other s _ h1]

theorem pairBecomes_updPair (s : State) (a b : Nat) (f : PairDir → PairDir) :
    PairBecomes s (updPair s a b f) a b (f (getPair s a b)) :=
  ⟨rfl, fun _ _ h => getPair_upd_other s f h, getPair_upd_self s a b f⟩

/-! ## Near links (R304 to R306) -/

theorem mem_insertNat {x y : Nat} {l : List Nat} : y ∈ insertNat x l ↔ y = x ∨ y ∈ l := by
  induction l with
  | nil => simp [insertNat]
  | cons z l ih =>
    simp only [insertNat]
    split
    · simp
    · split
      · next h => subst h; simp
      · simp only [List.mem_cons, ih]
        tauto

/-- The lanes of some that a bundle's stripe holds join those that are to leave. -/
theorem mem_leaving {act lanes acc : List Nat} {l : Nat} (ha : l ∈ act) (h : l ∈ lanes ∨ l ∈ acc) :
    l ∈ lanes.foldl (fun q x => if act.contains x then insertNat x q else q) acc := by
  induction lanes generalizing acc with
  | nil => exact h.resolve_left List.not_mem_nil
  | cons y lanes ih =>
    rw [List.foldl_cons]
    refine ih ?_
    rcases h with h | h
    · rcases List.mem_cons.mp h with rfl | h
      · rw [if_pos (List.contains_iff_mem.mpr ha)]
        exact .inr (mem_insertNat.mpr (.inl rfl))
      · exact .inl h
    · split
      · exact .inr (mem_insertNat.mpr (.inr h))
      · exact .inr h

/-- What the failing lanes of a bundle frame leave: the record of their bundle may name lanes that are to leave. -/
def noteFailing (s : State) (n d k : Nat) (failing : List Nat) : State :=
  if (getBundle s n k).active.all (fun l => (frameLanes s n d k failing).contains l) then s
  else leaveBundle s n k (frameLanes s n d k failing)

/-- Lanes of a bundle's stripe that are to leave it. -/
def Bundle.leave (b : Bundle) (lanes : List Nat) : Bundle :=
  { b with leaving := lanes.foldl (fun l x => if b.active.contains x then insertNat x l else l) b.leaving }

theorem getBundle_leaveBundle (s : State) (n k : Nat) (lanes : List Nat) :
    getBundle (leaveBundle s n k lanes) n k = (getBundle s n k).leave lanes := by
  have h : leaveBundle s n k lanes = updStack s n (fun x => { x with bundles := tabUpd {} x.bundles k (fun b => b.leave lanes) }) := rfl
  rw [h]
  unfold getBundle
  rw [getStack_upd_self]
  exact tabGet_upd_self {} (getStack s n).bundles k (fun b => b.leave lanes)

theorem noteFailing_frame (s : State) (n d k : Nat) (failing : List Nat) :
    noteFailing s n d k failing = { s with stackTab := (noteFailing s n d k failing).stackTab } ∧
    (∀ j, j ≠ n → getStack (noteFailing s n d k failing) j = getStack s j) ∧
    getStack (noteFailing s n d k failing) n =
      { getStack s n with bundles := (getStack (noteFailing s n d k failing) n).bundles } ∧
    (getBundle (noteFailing s n d k failing) n k).active = (getBundle s n k).active := by
  unfold noteFailing
  split
  · exact ⟨rfl, fun _ _ => rfl, rfl, rfl⟩
  · refine ⟨rfl, fun j hj => getStack_upd_other s _ hj, ?_, by rw [getBundle_leaveBundle]; rfl⟩
    unfold leaveBundle updBundle
    rw [getStack_upd_self]

/-- A lane that failed while another lane of the bundle passed is to leave. -/
theorem noteFailing_leaving {n d k l m : Nat} {failing : List Nat} (hl : l ∈ frameLanes s n d k failing)
    (ha : l ∈ (getBundle s n k).active) (hm : m ∈ (getBundle s n k).active) (hn : m ∉ frameLanes s n d k failing) :
    l ∈ (getBundle (noteFailing s n d k failing) n k).leaving := by
  have hall : ¬ (getBundle s n k).active.all (fun l => (frameLanes s n d k failing).contains l) = true := by
    intro h
    exact hn (List.contains_iff_mem.mp (List.all_eq_true.mp h m hm))
  rw [noteFailing, if_neg hall, getBundle_leaveBundle]
  exact mem_leaving ha (.inl hl)

theorem bundleEnd_noteFailing (s : State) (n d k : Nat) (failing : List Nat) :
    bundleEnd (noteFailing s n d k failing) n d k = bundleEnd s n d k := by
  obtain ⟨h1, -, h3, h4⟩ := noteFailing_frame s n d k failing
  have hn : now (noteFailing s n d k failing) = now s := by rw [h1]; rfl
  unfold bundleEnd bundleTime
  rw [h4, h3, hn]

/-- A stack whose bundle is occupied until some Tide by 32 lane frames. -/
def Stack.occupied (x : Stack) (i until_ : Nat) : Stack :=
  { x with nearFree := tabSet 0 x.nearFree i until_, nearLaneNo := tabUpd 0 x.nearLaneNo i (· + 32) }

theorem occupy_eq (s : State) (n d k : Nat) :
    occupy s n d k = updStack s n (fun x => x.occupied (16 * d + k) (bundleEnd s n d k)) := rfl

theorem nearBundleFrame_fails {n k : Nat} {up : Bool} {f : BundleFrame} (h6 : released s 6 = true)
    (hl : (getStack s n).nearLost = false) (ha : (getBundle s n k).active ≠ []) (hb : firstBundle s n (bit up) k = true)
    (hc : f.crcGood = false) : nearBundleFrame s n k up f =
      delayNear (updStack (occupy (noteFailing s n (bit up) k f.failing) n (bit up) k) n
        (fun x => { x with nearNak := tabSet false x.nearNak (bit up) true })) n := by
  have he : (getBundle s n k).active.isEmpty = false := List.isEmpty_eq_false_iff.mpr ha
  unfold nearBundleFrame
  simp only [h6, hl, he, hb, hc]
  rfl

theorem nearBundleFrame_fails_row {n k : Nat} {up : Bool} {f : BundleFrame} {x : Stack} (hx : x = getStack s n)
    (h6 : released s 6 = true) (hl : x.nearLost = false) (ha : (getBundle s n k).active ≠ [])
    (hb : firstBundle s n (bit up) k = true) (hc : f.crcGood = false) :
    ∃ t, t = nearBundleFrame s n k up f ∧ t = { s with stackTab := t.stackTab, reqs := t.reqs } ∧
      tabGet false (getStack t n).nearNak (bit up) = true ∧
      tabGet 0 (getStack t n).nearFree (16 * bit up + k) = bundleEnd s n (bit up) k ∧
      tabGet 0 (getStack t n).nearLaneNo (16 * bit up + k) = tabGet 0 x.nearLaneNo (16 * bit up + k) + 32 ∧
      (getStack t n).nearSeq = x.nearSeq ∧ (∀ j, j ≠ n → getStack t j = getStack s j) ∧
      (∀ l m, l ∈ frameLanes s n (bit up) k f.failing → l ∈ (getBundle s n k).active → m ∈ (getBundle s n k).active →
        m ∉ frameLanes s n (bit up) k f.failing → l ∈ (getBundle t n k).leaving) := by
  subst hx
  refine ⟨_, rfl, ?_⟩
  rw [nearBundleFrame_fails h6 hl ha hb hc]
  have hle : ∀ l m, l ∈ frameLanes s n (bit up) k f.failing → l ∈ (getBundle s n k).active → m ∈ (getBundle s n k).active →
      m ∉ frameLanes s n (bit up) k f.failing → l ∈ (getBundle (noteFailing s n (bit up) k f.failing) n k).leaving :=
    fun _ _ => noteFailing_leaving
  have hend := bundleEnd_noteFailing s n (bit up) k f.failing
  obtain ⟨h1, h2, h3, -⟩ := noteFailing_frame s n (bit up) k f.failing
  generalize noteFailing s n (bit up) k f.failing = u at hle hend h1 h2 h3
  rw [occupy_eq, hend]
  generalize hg : (fun x : Stack => { x with nearNak := tabSet false x.nearNak (bit up) true }) = g
  have ht : getStack (delayNear (updStack (updStack u n (fun x => x.occupied (16 * bit up + k) (bundleEnd s n (bit up) k))) n g) n) n
      = g ((getStack u n).occupied (16 * bit up + k) (bundleEnd s n (bit up) k)) := by
    refine (getStack_upd_self (updStack u n _) n g).trans ?_
    rw [getStack_upd_self]
  have hbu : getBundle (delayNear (updStack (updStack u n (fun x => x.occupied (16 * bit up + k) (bundleEnd s n (bit up) k)))
      n g) n) n k = getBundle u n k := by
    unfold getBundle
    rw [ht, ← hg]
    rfl
  refine ⟨by rw [h1]; rfl, ?_, ?_, ?_, ?_, fun j hj => ?_, fun l m hl ha hm hn => ?_⟩
  · rw [ht, ← hg]
    exact tabGet_set_self false true (getStack u n).nearNak (bit up)
  · rw [ht, ← hg]
    exact tabGet_set_self 0 (bundleEnd s n (bit up) k) (getStack u n).nearFree (16 * bit up + k)
  · rw [ht, ← hg]
    refine (tabGet_upd_self 0 (getStack u n).nearLaneNo (16 * bit up + k) (· + 32)).trans ?_
    rw [h3]
  · rw [ht, ← hg]
    show (getStack u n).nearSeq = _
    rw [h3]
  · exact ((getStack_upd_other (updStack u n _) g hj).trans (getStack_upd_other u _ hj)).trans (h2 j hj)
  · rw [hbu]
    exact hle l m hl ha hm hn

theorem nearBundleFrame_stays {n k : Nat} {up : Bool} (f : BundleFrame) (hb : firstBundle s n (bit up) k = false) :
    nearBundleFrame s n k up f = s := by
  unfold nearBundleFrame
  dsimp only
  rw [if_pos (by simp [hb])]

/-- The credits of a bundle frame are events of crossings, which no stack's record concerns. -/
theorem nearCredits_stackTab (s : State) (z : Tab Stack) (n : Nat) (up : Bool) (c : W32) :
    nearCredits { s with stackTab := z } n up c = { nearCredits s n up c with stackTab := z } := by
  have h : ∀ a b m, countEvents { s with stackTab := z } a b m = { countEvents s a b m with stackTab := z } := by
    intro a b m
    unfold countEvents
    dsimp only
    by_cases hc : getCrossing s a b ≠ .active
    · rw [if_pos hc, if_pos (by exact hc)]
    · rw [if_neg hc, if_neg (by exact hc)]
      rfl
  unfold nearCredits
  dsimp only
  split
  · rfl
  · split <;> exact h _ _ _

theorem nearCredits_stacks (s : State) (n : Nat) (up : Bool) (c : W32) : (nearCredits s n up c).stackTab = s.stackTab := by
  have h : ∀ a b m, (countEvents s a b m).stackTab = s.stackTab := by
    intro a b m
    unfold countEvents
    dsimp only
    split <;> rfl
  unfold nearCredits
  dsimp only
  split
  · rfl
  · split <;> exact h _ _ _

/-- A stack to which a bundle frame of a direction is delivered. -/
def Stack.delivers (x : Stack) (d : Nat) (f : BundleFrame) : Stack := nearReverse (nearAccept (nearSend x d f) d f.seq) d f

/-- The frame expected next, with none waiting ahead of it, is delivered alone. -/
theorem delivers_fields {x : Stack} {d : Nat} {f : BundleFrame} (hs : f.seq = tabGet 0 x.nearSeq d)
    (ha : ∀ e ∈ x.nearAhead, e.1 ≠ d) : tabGet 0 (x.delivers d f).nearSeq d = f.seq + 1 ∧
      (x.delivers d f).nearFree = x.nearFree ∧ (x.delivers d f).nearLaneNo = x.nearLaneNo ∧
      tabGet 0 (x.delivers d f).nearDelivered d = tabGet 0 x.nearDelivered d + 1 ∧
      tabGet false (x.delivers d f).nearNak d = false ∧ tabGet 0 (x.delivers d f).nearAcked (1 - d) = f.ackSeq := by
  have hf : (nearSend x d f).nearAhead.filter (fun e => e.1 == d) = [] := by
    refine List.filter_eq_nil_iff.mpr (fun e he => ?_)
    simpa using ha e he
  have hw : tabGet 0 (nearSend x d f).nearSeq d = f.seq := hs.symm
  have hacc : nearAccept (nearSend x d f) d f.seq = { nearSend x d f with
      nearSeq := tabSet 0 (nearSend x d f).nearSeq d (f.seq + 1)
      nearAhead := (nearSend x d f).nearAhead.filter (fun e => e.1 != d)
      nearDelivered := tabUpd 0 (nearSend x d f).nearDelivered d (· + 1)
      nearNak := tabSet false (nearSend x d f).nearNak d false } := by
    unfold nearAccept
    simp only [hw, hf, BitVec.sub_self]
    simp [nearDrain, addNew]
  unfold Stack.delivers
  rw [hacc]
  exact ⟨tabGet_set_self 0 (f.seq + 1) x.nearSeq d, rfl, rfl, tabGet_upd_self 0 x.nearDelivered d (· + 1),
    tabGet_set_self false false x.nearNak d, tabGet_set_self 0 f.ackSeq x.nearAcked (1 - d)⟩

theorem nearBundleFrame_delivers {n k : Nat} {up : Bool} {f : BundleFrame} (h6 : released s 6 = true)
    (hl : (getStack s n).nearLost = false) (ha : (getBundle s n k).active ≠ []) (hb : firstBundle s n (bit up) k = true)
    (hc : f.crcGood = true) (he : f.stripe = false ∨ f.evt ≠ 1)
    (hu : f.units = [] ∨ hasCredit (tabGet [] (getStack s n).nearOwed (bit up)) f.units = true)
    (hr : ((getStack s n).nearSent.filter (fun e => e.1 == bit up)).length < 128) : nearBundleFrame s n k up f =
      nearCredits (updStack (occupy s n (bit up) k) n (fun x => x.delivers (bit up) f)) n up f.credits := by
  have hact : (getBundle s n k).active.isEmpty = false := List.isEmpty_eq_false_iff.mpr ha
  have hev : (f.stripe && f.evt == 1) = false := by
    rcases he with h | h <;> simp [h]
  have hcr : (f.units.isEmpty || (getStack s n).nearSent.contains (bit up, f.seq) ||
      hasCredit (tabGet [] (getStack s n).nearOwed (bit up)) f.units) = true := by
    rcases hu with h | h <;> simp [h]
  have hroom : (decide (128 ≤ ((getStack s n).nearSent.filter (fun e => e.1 == bit up)).length)) = false :=
    decide_eq_false (by omega)
  unfold nearBundleFrame
  simp only [h6, hl, hact, hb, hc, hev, hcr, hroom]
  rfl

theorem nearBundleFrame_delivers_row {n k : Nat} {up : Bool} {f : BundleFrame} {x : Stack} (hx : x = getStack s n)
    (h6 : released s 6 = true) (hl : x.nearLost = false) (ha : (getBundle s n k).active ≠ [])
    (hb : firstBundle s n (bit up) k = true) (hc : f.crcGood = true) (he : f.stripe = false ∨ f.evt ≠ 1)
    (hs : f.seq = tabGet 0 x.nearSeq (bit up)) (hn : ∀ e ∈ x.nearAhead, e.1 ≠ bit up)
    (hu : f.units = [] ∨ hasCredit (tabGet [] x.nearOwed (bit up)) f.units = true)
    (hr : (x.nearSent.filter (fun e => e.1 == bit up)).length < 128) :
    ∃ t y, t = nearBundleFrame s n k up f ∧ StackBecomes (nearCredits s n up f.credits) t n y ∧
      tabGet 0 y.nearSeq (bit up) = f.seq + 1 ∧ tabGet 0 y.nearFree (16 * bit up + k) = bundleEnd s n (bit up) k ∧
      tabGet 0 y.nearLaneNo (16 * bit up + k) = tabGet 0 x.nearLaneNo (16 * bit up + k) + 32 ∧
      tabGet 0 y.nearDelivered (bit up) = tabGet 0 x.nearDelivered (bit up) + 1 ∧ tabGet false y.nearNak (bit up) = false ∧
      tabGet 0 y.nearAcked (1 - bit up) = f.ackSeq := by
  subst hx
  generalize hy : ((getStack s n).occupied (16 * bit up + k) (bundleEnd s n (bit up) k)).delivers (bit up) f = y
  obtain ⟨y1, y2, y3, y4, y5, y6⟩ := delivers_fields
    (x := (getStack s n).occupied (16 * bit up + k) (bundleEnd s n (bit up) k)) hs hn
  rw [hy] at y1 y2 y3 y4 y5 y6
  refine ⟨_, y, rfl, ?_, y1, ?_, ?_, y4, y5, y6⟩
  · rw [nearBundleFrame_delivers h6 hl ha hb hc he hu hr, occupy_eq]
    have hv : ∀ j, j ≠ n → getStack (updStack (updStack s n (fun x => x.occupied (16 * bit up + k) (bundleEnd s n (bit up) k))) n
        (fun x => x.delivers (bit up) f)) j = getStack s j :=
      fun j hj => (getStack_upd_other _ _ hj).trans (getStack_upd_other s _ hj)
    have hself : getStack (updStack (updStack s n (fun x => x.occupied (16 * bit up + k) (bundleEnd s n (bit up) k))) n
        (fun x => x.delivers (bit up) f)) n = y := by
      refine (getStack_upd_self (updStack s n _) n (fun x => x.delivers (bit up) f)).trans ?_
      rw [getStack_upd_self, hy]
    have hz : updStack (updStack s n (fun x => x.occupied (16 * bit up + k) (bundleEnd s n (bit up) k))) n
        (fun x => x.delivers (bit up) f) = { s with stackTab := (updStack (updStack s n
          (fun x => x.occupied (16 * bit up + k) (bundleEnd s n (bit up) k))) n (fun x => x.delivers (bit up) f)).stackTab } := rfl
    generalize updStack (updStack s n (fun x => x.occupied (16 * bit up + k) (bundleEnd s n (bit up) k))) n
      (fun x => x.delivers (bit up) f) = v at hv hself hz
    rw [(congrArg (fun u => nearCredits u n up f.credits) hz).trans (nearCredits_stackTab s v.stackTab n up f.credits)]
    refine ⟨rfl, fun j hj => ?_, hself⟩
    have hc : getStack (nearCredits s n up f.credits) j = getStack s j := by
      unfold getStack
      rw [nearCredits_stacks]
    rw [hc]
    exact hv j hj
  · rw [y2]
    exact tabGet_set_self 0 (bundleEnd s n (bit up) k) (getStack s n).nearFree (16 * bit up + k)
  · rw [y3]
    exact tabGet_upd_self 0 (getStack s n).nearLaneNo (16 * bit up + k) (· + 32)

/-- The four credit counts of a bundle frame. -/
theorem sum_credits (c : W32) : sumNat ((List.range 4).map (fun i => fld c.toNat (8 * i) 8)) =
    fld c.toNat 0 8 + fld c.toNat 8 8 + fld c.toNat 16 8 + fld c.toNat 24 8 := by
  simp [sumNat, List.range_succ]

/-- Settles O44: the arithmetic of lane frames and bodies, then a frame's arrival on a pair direction and on a near link, each
read off the rows above. -/
theorem framesArriveInOrder : Obligations.FramesArriveInOrder := by
  unfold Obligations.FramesArriveInOrder
  refine ⟨fun h b hb => bodyOf_whole h (n := 16) (w := 1760) rfl hb, bodyGood_frameBody, ?_, ?_, ?_, ?_, ?_⟩
  · rintro s a b seq units m hp rfl
    refine ⟨fun h => by rw [h]; rfl, fun h => ?_⟩
    rw [countSent_some a b seq h]
    have hport := getPort_upd_self (updPair s a b (fun p => p.sends seq units)) a (fun p => p.sends s b)
    exact ⟨rfl, congrArg FabricPort.sentAt hport, congrArg FabricPort.served hport,
      getPair_upd_self s a b (fun p => p.sends seq units)⟩
  · intro s a b lanes units waiting f p m hp hpp h5 hl hr hq hf
    subst hpp hf
    obtain ⟨hab, hk⟩ := hasPair_keys hp
    have row : ∀ {t}, stripedFrame s a b lanes units waiting = t → exec (.stripedFrame a b ⟨lanes, units, waiting⟩) s = .next t :=
      fun h => guarded_next.mpr ⟨hp, h⟩
    refine ⟨fun hg hn hm hc => ?_, fun hg hs hn hm hc => ?_, fun hg hm hc => ⟨fun hs hst ht hta htb => ?_, fun hs hd => ?_,
      fun hd => ?_⟩, fun hm => row (stripedFrame_stays (.inr (.inr (.inr hm))))⟩
    · subst hc
      obtain ⟨c1, -, -, c4, c5⟩ := countSent_counts s a b (getPair s a b).sending units
      have he := stripedFrame_arrives (lanes := lanes) (waiting := waiting) h5 hl hr (by simpa [hg] using hm)
      simp only [hg, if_true, Bool.false_eq_true, if_false] at he
      generalize countSent s a b (getPair s a b).sending units = m at c1 c4 c5 he
      obtain ⟨⟨f1, -⟩, y, f2, f3⟩ := frameFailed_row (p := getPair s a b) c5 hr hn
      exact ⟨_, y, row he, by rw [f1, c1], f2, f3⟩
    · subst hc
      obtain ⟨c1, -, -, c4, c5⟩ := countSent_counts s a b (getPair s a b).sending units
      have he := stripedFrame_arrives (lanes := lanes) (waiting := waiting) h5 hl hr (by simpa [hg] using hm)
      simp only [hg, if_true, Bool.false_eq_true, if_false] at he
      generalize countSent s a b (getPair s a b).sending units = m at c1 c4 c5 he
      obtain ⟨⟨f1, -⟩, f2⟩ := frameFailed_retrains (p := getPair s a b) c5 hs hn
      exact ⟨_, row he, by rw [f1, c1], f2⟩
    all_goals
      subst hc
      obtain ⟨c1, c2, c3, c4, c5⟩ := countSent_counts s a b (parseFrame (bodyOf lanes)).seq units
      have he := stripedFrame_arrives (lanes := lanes) (waiting := waiting) h5 hl hr (by simpa [hg] using hm)
      simp only [hg, if_true, Bool.true_eq_false, if_false] at he
      generalize countSent s a b (parseFrame (bodyOf lanes)).seq units = m at c1 c2 c3 c4 c5 he
    · rw [if_pos hs] at he
      obtain ⟨t, y, r1, r2, r3, r4, r5, r6, r7, r8, r9, r10, r11, r12, r13, r14⟩ := acceptFrame_row (p := getPair s a b)
        (bodyOf lanes) units hab hk c5 hst ht (by rw [c3]; exact hta) (by rw [c3]; exact htb)
      have hnow : now m = now s := by rw [c1]; rfl
      have hlm : ∀ l, lastMicro m l = lastMicro s l := fun l => by unfold lastMicro; rw [hnow]
      refine ⟨t, y, row (he.trans r1.symm), by rw [r2, c1], r3, ?_, r5, r6, r7, r8, r9, r10, r11, r12, r13,
        fun i j h1 h2 => (r14 i j h1 h2).trans (c4 i j h1)⟩
      rw [r4, c2 b (Ne.symm hab), hlm, hnow]
    · rw [if_neg hs, if_pos hd] at he
      exact ⟨_, row he, pairBecomes_updPair m a b _⟩
    · have hs : (parseFrame (bodyOf lanes)).seq ≠ (getPair s a b).rxSeq := by
        intro h
        rw [h, BitVec.sub_self] at hd
        exact absurd hd (by decide)
      rw [if_neg hs, if_neg (by omega)] at he
      exact ⟨_, row he, pairBecomes_updPair m a b _⟩
  · intro s a b lanes units waiting hp h
    refine guarded_next.mpr ⟨hp, stripedFrame_stays ?_⟩
    rcases h with h | h | h | h
    · exact .inl h
    · exact .inr (.inl h)
    · exact .inr (.inr (.inl h))
    · exact .inr (.inr (.inr (maySend_paused _ _ _ h)))
  · intro s n k up f x d hn hk h6 hx hd hl ha
    subst hd
    have row : ∀ {t}, nearBundleFrame s n k up f = t → exec (.nearBundleFrame n k up f) s = .next t :=
      fun h => guarded_next.mpr ⟨by simp [hn, hk], h⟩
    refine ⟨fun hb => row (nearBundleFrame_stays f hb), fun hb hc => ?_, fun hb hc he hs hna hu hr => ?_⟩
    · obtain ⟨t, h1, h2⟩ := nearBundleFrame_fails_row hx h6 hl ha hb hc
      exact ⟨t, row h1.symm, h2⟩
    · obtain ⟨t, y, h1, h2⟩ := nearBundleFrame_delivers_row hx h6 hl ha hb hc he hs hna hu hr
      exact ⟨t, y, row h1.symm, h2⟩
  · intro s n up c k hk
    rw [← sum_credits] at hk
    unfold nearCredits
    dsimp only
    rw [← hk]
    exact ⟨fun h => if_pos h, fun h => if_neg h⟩

end Sys2Proof.Machine
end

section
/-! SUPPORT. Harbour Tide: what relaxing guarantee 4 changes, the master that a module learns, and the servo. -/

namespace Sys2Proof.Machine

variable {s : State}

/-! ## Relaxing guarantee 4 -/

/-- A reason that stands as wanted changes nothing. -/
theorem relax_same {w : Nat} {h : Bool} (ns : Int) (hw : w ∈ s.tide.relaxed ↔ h = true) : relax s w h ns = s := by
  have he : (h == s.tide.relaxed.contains w) = true := by
    rw [beq_iff_eq, Bool.eq_iff_iff, List.contains_iff_mem]
    exact hw.symm
  unfold relax
  rw [if_pos he]

theorem relax_changes {w : Nat} {h : Bool} (ns : Int) (hw : ¬(w ∈ s.tide.relaxed ↔ h = true)) :
    ∃ since past, relax s w h ns = tideEvent { s with tide := { s.tide with
        relaxed := if h then insertNat w s.tide.relaxed else s.tide.relaxed.filter (· != w)
        relaxedSince := since
        relaxedPast := past } } (if h then 6 else 0) 4 ns := by
  have he : ¬ (h == s.tide.relaxed.contains w) = true := by
    rw [beq_iff_eq, Bool.eq_iff_iff, List.contains_iff_mem]
    exact fun k => hw k.symm
  unfold relax
  rw [if_neg he]
  dsimp only
  generalize (if h = true then insertNat w s.tide.relaxed else s.tide.relaxed.filter (· != w)) = l
  cases hs : s.tide.relaxedSince with
  | none => exact ⟨_, _, rfl⟩
  | some a =>
    by_cases hl : l = []
    · exact ⟨none, s.tide.relaxedPast ++ [(a, now s)], by simp only [if_pos hl]⟩
    · exact ⟨some a, s.tide.relaxedPast, by simp only [if_neg hl]⟩

theorem relax_frame (s : State) (w : Nat) (h : Bool) (ns : Int) : relax s w h ns = { s with
    tide := { s.tide with
      relaxed := (relax s w h ns).tide.relaxed
      relaxedSince := (relax s w h ns).tide.relaxedSince
      relaxedPast := (relax s w h ns).tide.relaxedPast }
    faults := (relax s w h ns).faults } := by
  by_cases hw : w ∈ s.tide.relaxed ↔ h = true
  · rw [relax_same ns hw]
  · obtain ⟨a, l, he⟩ := relax_changes ns hw
    rw [he]
    rfl

/-- A reason relaxes exactly while it holds, and the others stay. -/
theorem mem_relaxed_relax (s : State) (w x : Nat) (h : Bool) (ns : Int) :
    x ∈ (relax s w h ns).tide.relaxed ↔ if x = w then h = true else x ∈ s.tide.relaxed := by
  by_cases hw : w ∈ s.tide.relaxed ↔ h = true
  · rw [relax_same ns hw]
    split
    · next hx => rw [hx]; exact hw
    · rfl
  · obtain ⟨a, l, he⟩ := relax_changes ns hw
    rw [he]
    show x ∈ (if h then insertNat w s.tide.relaxed else s.tide.relaxed.filter (· != w)) ↔ _
    cases h with
    | true =>
      simp only [if_true, mem_insertNat]
      split <;> simp [*]
    | false =>
      simp only [Bool.false_eq_true, if_false, List.mem_filter, bne_iff_ne]
      split <;> simp [*]

/-- A reason that comes or goes raises one event 0x0502 that names guarantee 4. -/
theorem relax_raises {w : Nat} {h : Bool} (ns : Int) (hw : ¬(w ∈ s.tide.relaxed ↔ h = true)) :
    ∃ e, (relax s w h ns).faults.unlogged = s.faults.unlogged ++ [e] ∧ e.code = 0x0502 ∧ e.guarantee = 4 := by
  obtain ⟨a, l, he⟩ := relax_changes ns hw
  obtain ⟨v, v1, v2, -, -, -, -, -, v8, -⟩ := raise_unlogged (s := { s with tide := { s.tide with
      relaxed := if h then insertNat w s.tide.relaxed else s.tide.relaxed.filter (· != w)
      relaxedSince := a
      relaxedPast := l } }) { code := 0x0502, outcome := if h then 6 else 0, guarantee := 4, arg := ofSigned 64 ns }
  rw [he]
  exact ⟨v, v1, v2, v8⟩

/-! ## What relaxing leaves -/

/-- Two states whose difference is why guarantee 4 is relaxed. -/
def RelaxedOnly (s t : State) : Prop := t = { s with
  tide := { s.tide with
    relaxed := t.tide.relaxed
    relaxedSince := t.tide.relaxedSince
    relaxedPast := t.tide.relaxedPast }
  faults := t.faults }

theorem RelaxedOnly.refl (s : State) : RelaxedOnly s s := rfl
theorem RelaxedOnly.trans {s t u : State} (h : RelaxedOnly s t) (g : RelaxedOnly t u) : RelaxedOnly s u := by
  unfold RelaxedOnly at *
  rw [g, h]
theorem relaxedOnly_relax (s : State) (w : Nat) (h : Bool) (ns : Int) : RelaxedOnly s (relax s w h ns) := relax_frame s w h ns

theorem offsetBound_congr {t : State} (h : t.harbour.routes = s.harbour.routes) (hm : t.harbour.master = s.harbour.master)
    (hp : t.harbour.pos = s.harbour.pos) : offsetBound t = offsetBound s := by
  unfold offsetBound firstHop
  rw [h, hm, hp]

theorem judgeOffset_row (s : State) : RelaxedOnly s (judgeOffset s) ∧
    (1 ∈ (judgeOffset s).tide.relaxed ↔ offsetBound s < s.tide.offset16.natAbs) := by
  unfold judgeOffset
  dsimp only
  have h1 := mem_relaxed_relax s 1 1 (decide (offsetBound s < s.tide.offset16.natAbs)) (s.tide.offset16 / 16)
  rw [if_pos rfl, decide_eq_true_eq] at h1
  have hf := relaxedOnly_relax s 1 (decide (offsetBound s < s.tide.offset16.natAbs)) (s.tide.offset16 / 16)
  split
  · exact ⟨hf, h1⟩
  · refine ⟨hf.trans (relaxedOnly_relax _ _ _ _), ?_⟩
    rw [mem_relaxed_relax, if_neg (by decide)]
    exact h1

/-! ## Synchronisation messages that are sent -/

/-- What a link's send changes: its own record, and one message. -/
theorem linkSend_row (s : State) (k : Nat) (m : OutMsg) :
    linkSend s k m = { s with sent := s.sent ++ [m], harbour := { s.harbour with links := (linkSend s k m).harbour.links } } ∧
    (getLink (linkSend s k m) k).stamps = (getLink s k).stamps ∧ ∀ j, j ≠ k → getLink (linkSend s k m) j = getLink s j := by
  refine ⟨rfl, ?_, fun j hj => getLink_upd_other s _ hj⟩
  show (getLink (updLink s k _) k).stamps = _
  rw [getLink_upd_self]

/-- One synchronisation message goes out, from the state `s` at whose Tide it is due. -/
def syncSendOne (s : State) (t : State) (k : Nat) : State :=
  linkSend (updLink t k (fun l => { l with stamps := none })) k
    (.tideSync k (now16 s - (quayDelay s k).1) (getLink s k).stamps)

theorem tideSyncSend_eq (s : State) : tideSyncSend s = ((List.range 24).filter (feeds s)).foldl (syncSendOne s) s := rfl

theorem syncSendOne_row (s t : State) (k : Nat) :
    syncSendOne s t k = { t with
      sent := t.sent ++ [.tideSync k (now16 s - (quayDelay s k).1) (getLink s k).stamps]
      harbour := { t.harbour with links := (syncSendOne s t k).harbour.links } } ∧
    (getLink (syncSendOne s t k) k).stamps = none ∧ ∀ j, j ≠ k → getLink (syncSendOne s t k) j = getLink t j := by
  obtain ⟨h1, h2, h3⟩ := linkSend_row (updLink t k (fun l => { l with stamps := none })) k
    (.tideSync k (now16 s - (quayDelay s k).1) (getLink s k).stamps)
  refine ⟨h1, h2.trans ?_, fun j hj => (h3 j hj).trans (getLink_upd_other t _ hj)⟩
  rw [getLink_upd_self]

/-- The messages on a list of links: each has gone out, its stamps are spent, and the other links stay. -/
theorem syncSend_fold (s : State) (l : List Nat) (t : State) :
    l.foldl (syncSendOne s) t = { t with
      sent := (l.foldl (syncSendOne s) t).sent
      harbour := { t.harbour with links := (l.foldl (syncSendOne s) t).harbour.links } } ∧
    (∀ m, m ∈ t.sent → m ∈ (l.foldl (syncSendOne s) t).sent) ∧
    (∀ k, k ∈ l → .tideSync k (now16 s - (quayDelay s k).1) (getLink s k).stamps ∈ (l.foldl (syncSendOne s) t).sent) ∧
    (∀ k, k ∈ l ∨ (getLink t k).stamps = none → (getLink (l.foldl (syncSendOne s) t) k).stamps = none) ∧
    (∀ k, k ∉ l → getLink (l.foldl (syncSendOne s) t) k = getLink t k) := by
  induction l generalizing t with
  | nil => exact ⟨rfl, fun _ h => h, fun _ h => absurd h List.not_mem_nil, fun _ h => h.resolve_left List.not_mem_nil, fun _ _ => rfl⟩
  | cons x l ih =>
    obtain ⟨o1, o2, o3⟩ := syncSendOne_row s t x
    obtain ⟨i1, i2, i3, i4, i5⟩ := ih (syncSendOne s t x)
    have hsent : (syncSendOne s t x).sent = t.sent ++ [.tideSync x (now16 s - (quayDelay s x).1) (getLink s x).stamps] := by rw [o1]
    rw [List.foldl_cons]
    refine ⟨by rw [i1, o1], fun m hm => i2 m ?_, fun k hk => ?_, fun k hk => i4 k ?_, fun k hk => ?_⟩
    · rw [hsent]
      exact List.mem_append_left _ hm
    · rcases List.mem_cons.mp hk with rfl | hk
      · exact i2 _ (by rw [hsent]; exact List.mem_append_right _ (List.mem_singleton_self _))
      · exact i3 k hk
    · by_cases hx : k = x
      · rw [hx]
        exact .inr o2
      · rcases hk with hk | hk
        · exact .inl ((List.mem_cons.mp hk).resolve_left hx)
        · rw [o3 k hx]
          exact .inr hk
    · rw [List.mem_cons, not_or] at hk
      rw [i5 k hk.2, o3 k hk.1]

theorem tideSyncSend_row (s : State) : ∃ t, t = tideSyncSend s ∧
    t = { s with sent := t.sent, harbour := { s.harbour with links := t.harbour.links } } ∧
    ∀ k, k < 24 → (feeds s k = true →
        .tideSync k (s.tide.count / 2 ^ 28 - (quayDelay s k).1) (getLink s k).stamps ∈ t.sent ∧ (getLink t k).stamps = none) ∧
      (feeds s k = false → getLink t k = getLink s k) := by
  obtain ⟨h1, -, h3, h4, h5⟩ := syncSend_fold s ((List.range 24).filter (feeds s)) s
  refine ⟨_, rfl, h1, fun k hk => ⟨fun hf => ?_, fun hf => h5 k ?_⟩⟩
  · have hm : k ∈ (List.range 24).filter (feeds s) := List.mem_filter.mpr ⟨List.mem_range.mpr hk, hf⟩
    exact ⟨h3 k hm, h4 k (.inl hm)⟩
  · intro hm
    rw [(List.mem_filter.mp hm).2] at hf
    exact Bool.noConfusion hf

theorem tideSyncSend_none (h : ∀ k, k < 24 → feeds s k = false) : tideSyncSend s = s := by
  have hl : (List.range 24).filter (feeds s) = [] :=
    List.filter_eq_nil_iff.mpr (fun k hk => by rw [h k (List.mem_range.mp hk)]; decide)
  rw [tideSyncSend_eq, hl]
  rfl

theorem feeds_master {k : Nat} (h : isMaster s = true) : feeds s k = true ↔ (getLink s k).state = .up := by
  have hn : s.harbour.noMaster = false := by
    simp only [isMaster, Bool.and_eq_true, Bool.not_eq_true'] at h
    exact h.2
  simp [feeds, h, hn]

theorem feeds_off_route {k : Nat} (h : isMaster s = false)
    (hr : getRoute s s.harbour.master (partnerOf (ownPos s) k) ≠ .relay (ownPos s)) : feeds s k = false := by
  simp [feeds, h, hr]

/-! ## The master that a module learns (log entry 92) -/

theorem learnMaster_stays {k : Nat} (h : (getLink s k).state ≠ .up ∨ (s.harbour.noMaster = false ∧
    (s.tide.firstLock = true ∨ partnerOf (ownPos s) k = firstHop s s.harbour.master))) : learnMaster s k = s := by
  unfold learnMaster
  dsimp only
  rw [if_neg]
  rcases h with h | ⟨hn, h | h⟩ <;> simp [*]

/-- The harbour of a module that learns its master from a link. -/
def HarbourGroup.learns (x : HarbourGroup) (p : Nat) (was : Bool) : HarbourGroup :=
  { x with master := p, noMaster := false, rejoining := x.rejoining || was }

theorem learnMaster_first {k : Nat} (hu : (getLink s k).state = .up) (hn : s.harbour.noMaster = true) :
    learnMaster s k = memberEvent (relax { s with harbour := s.harbour.learns (partnerOf (ownPos s) k) (isMaster s) } 3 false
      (s.tide.offset16 / 16)) (partnerOf (ownPos s) k) 0 := by
  unfold learnMaster
  simp only [hu, hn]
  rfl

theorem learnMaster_other {k : Nat} (hu : (getLink s k).state = .up) (hn : s.harbour.noMaster = false)
    (hf : s.tide.firstLock = false) (hp : partnerOf (ownPos s) k ≠ firstHop s s.harbour.master) :
    learnMaster s k = { s with harbour := s.harbour.learns (partnerOf (ownPos s) k) (isMaster s) } := by
  unfold learnMaster
  dsimp only
  rw [if_pos (by simp [hu, hf, hp]), if_neg (by rw [hn]; decide)]
  rfl

theorem learnMaster_cases (s : State) (k : Nat) : learnMaster s k = s ∨
    ∃ t, learnMaster s k = t ∧ RelaxedOnly { s with harbour := s.harbour.learns (partnerOf (ownPos s) k) (isMaster s) } t := by
  by_cases hu : (getLink s k).state = .up
  · cases hn : s.harbour.noMaster with
    | true =>
      refine .inr ⟨_, learnMaster_first hu hn, ?_⟩
      exact (relaxedOnly_relax _ 3 false (s.tide.offset16 / 16)).trans rfl
    | false =>
      by_cases hc : s.tide.firstLock = true ∨ partnerOf (ownPos s) k = firstHop s s.harbour.master
      · exact .inl (learnMaster_stays (.inr ⟨hn, hc⟩))
      · rw [not_or, Bool.not_eq_true] at hc
        exact .inr ⟨_, learnMaster_other hu hn hc.1 hc.2, .refl _⟩
  · exact .inl (learnMaster_stays (.inl hu))

/-- Learning a master leaves Tide, its frequency term, the links and the delays of the quays. -/
theorem learnMaster_keeps (s : State) (k : Nat) : (learnMaster s k).tide.count = s.tide.count ∧
    (learnMaster s k).tide.freq = s.tide.freq ∧ (learnMaster s k).harbour.links = s.harbour.links ∧
    (learnMaster s k).ident = s.ident := by
  rcases learnMaster_cases s k with h | ⟨t, h, ht⟩
  · rw [h]
    exact ⟨rfl, rfl, rfl, rfl⟩
  · rw [h, ht]
    exact ⟨rfl, rfl, rfl, rfl⟩

theorem learnMaster_first_row {k : Nat} (hu : (getLink s k).state = .up) (hn : s.harbour.noMaster = true) :
    (learnMaster s k).harbour.master = partnerOf (ownPos s) k ∧ (learnMaster s k).harbour.noMaster = false ∧
      3 ∉ (learnMaster s k).tide.relaxed ∧ ∃ e ∈ (learnMaster s k).faults.unlogged, e.code = 0x0501 := by
  rw [learnMaster_first hu hn]
  have hr := relax_frame { s with harbour := s.harbour.learns (partnerOf (ownPos s) k) (isMaster s) } 3 false
    (s.tide.offset16 / 16)
  have hm := mem_relaxed_relax { s with harbour := s.harbour.learns (partnerOf (ownPos s) k) (isMaster s) } 3 3 false
    (s.tide.offset16 / 16)
  generalize relax { s with harbour := s.harbour.learns (partnerOf (ownPos s) k) (isMaster s) } 3 false
    (s.tide.offset16 / 16) = u at hr hm
  obtain ⟨v, v1, v2, -⟩ := raiseAt_unlogged u
    { code := 0x0501, outcome := 0, pos := partnerOf (ownPos s) k, unit := partnerOf (ownPos s) k }
  refine ⟨?_, ?_, ?_, v, ?_, v2⟩
  · show u.harbour.master = _
    rw [hr]
    rfl
  · show u.harbour.noMaster = _
    rw [hr]
    rfl
  · rw [if_pos rfl] at hm
    exact fun h => Bool.noConfusion (hm.mp h)
  · show v ∈ (raiseAt u _).faults.unlogged
    rw [v1]
    exact List.mem_append_right _ (List.mem_singleton_self _)

/-! ## A synchronisation message -/

theorem clampInt_bounds {lo hi : Int} (h : lo ≤ hi) (x : Int) : lo ≤ clampInt lo hi x ∧ clampInt lo hi x ≤ hi := by
  unfold clampInt
  split
  · omega
  · split <;> omega

theorem clampInt_inside {lo hi x : Int} (h1 : lo ≤ x) (h2 : x ≤ hi) : clampInt lo hi x = x := by
  unfold clampInt
  rw [if_neg (by omega), if_neg (by omega)]

theorem syncTide_other {k m a : Nat} (h : tideSource s k = false) : syncTide s k m a = s := by
  simp [syncTide, h]

theorem syncTide_unlocked {k m a : Nat} (h : tideSource s k = true) (hf : s.tide.firstLock = false) :
    syncTide s k m a = { s with harbour := { s.harbour with lastSync := now s, claimAt := none } } := by
  simp [syncTide, h, hf]

/-- A slave that has measured its offset, before it is judged. -/
def synced (s : State) (off : Int) : State := { s with
  harbour := { s.harbour with lastSync := now s, claimAt := none }
  tide := { s.tide with offset16 := off, rate := servoRate s.tide.freq off, holdover := none } }

theorem syncTide_locked {k m a : Nat} (h : tideSource s k = true) (hf : s.tide.firstLock = true) : syncTide s k m a =
    (let off : Int := m + (getLink s k).delay16 - ((a : Int) - (quayDelay s k).2)
    judgeOffset (relax (synced s off) 2 false (off / 16))) := by
  unfold syncTide
  rw [if_neg (by simp [h])]
  dsimp only
  rw [if_neg (by simp [hf])]
  rfl

theorem syncTide_locked_row {k m a : Nat} (h : tideSource s k = true) (hf : s.tide.firstLock = true) :
    ∃ t, t = syncTide s k m a ∧ t = { s with tide := t.tide, harbour := t.harbour, faults := t.faults } ∧
      t.harbour = { s.harbour with lastSync := now s, claimAt := none } ∧
      t.tide.offset16 = (m : Int) + (getLink s k).delay16 - ((a : Int) - (quayDelay s k).2) ∧ t.tide.count = s.tide.count ∧
      t.tide.holdover = none ∧ t.tide.rate = servoRate s.tide.freq t.tide.offset16 ∧
      (1 ∈ t.tide.relaxed ↔ offsetBound s < t.tide.offset16.natAbs) := by
  refine ⟨_, rfl, ?_⟩
  rw [syncTide_locked h hf]
  dsimp only
  generalize (m : Int) + (getLink s k).delay16 - ((a : Int) - (quayDelay s k).2) = off
  have hr := relaxedOnly_relax (synced s off) 2 false (off / 16)
  generalize relax (synced s off) 2 false (off / 16) = u at hr
  obtain ⟨hj, h1⟩ := judgeOffset_row u
  have hu : u.harbour = (synced s off).harbour := by rw [hr]
  have ho : u.tide.offset16 = off := by rw [hr]; rfl
  have hb : offsetBound u = offsetBound s := offsetBound_congr (by rw [hu]; rfl) (by rw [hu]; rfl) (by rw [hu]; rfl)
  have ht := hr.trans hj
  generalize judgeOffset u = t at ht h1
  have hoff : t.tide.offset16 = off := by rw [ht]; rfl
  refine ⟨by rw [ht]; rfl, by rw [ht]; rfl, hoff, by rw [ht]; rfl, by rw [ht]; rfl, ?_, ?_⟩
  · rw [hoff, ht]
    rfl
  · rw [h1, hb, ho, hoff]

/-! ## A delay exchange -/

theorem tideDelayExchange_fed {k t1 t2 t3 t4 : Nat} (h : feeds s k = true) : tideDelayExchange s k t1 t2 t3 t4 =
    updLink s k (fun l => { l with stamps := some ((t2 : Int) - (quayDelay s k).2, (t3 : Int) - (quayDelay s k).1) }) := by
  unfold tideDelayExchange
  dsimp only
  rw [if_pos h]

theorem tideDelayExchange_other {k t1 t2 t3 t4 : Nat} (h : feeds s k = false) (hs : tideSource s k = false) :
    tideDelayExchange s k t1 t2 t3 t4 = s := by
  simp [tideDelayExchange, h, hs]

/-- A slave that has exchanged delays: the delay of its link, the offset, and the free frequency term. -/
def exchanged (s : State) (k : Nat) (delay off : Int) : State :=
  let s1 := updLink s k (fun l => { l with delay16 := delay })
  nextFresh { s1 with tide := { s1.tide with
    offset16 := off
    offsetPrev16 := off
    freq := (Config.freqFilter s.fresh (off - s.tide.offsetPrev16)).toInt } }

theorem tideDelayExchange_slave {k t1 t2 t3 t4 : Nat} (h : feeds s k = false) (hs : tideSource s k = true) :
    tideDelayExchange s k t1 t2 t3 t4 =
    (let a : Int := (t1 : Int) - (quayDelay s k).1
    let b : Int := (t4 : Int) - (quayDelay s k).2
    let u := exchanged s k (((b - a) - ((t3 : Int) - t2)) / 2) ((((t2 : Int) - a) - (b - t3)) / 2)
    if s.tide.firstLock then judgeOffset u else u) := by
  unfold tideDelayExchange
  dsimp only
  rw [if_neg (by simp [h]), if_neg (by simp [hs])]
  rfl

theorem tideDelayExchange_slave_row {k t1 t2 t3 t4 : Nat} {a b : Int} (ha : a = (t1 : Int) - (quayDelay s k).1)
    (hb : b = (t4 : Int) - (quayDelay s k).2) (h : feeds s k = false) (hs : tideSource s k = true) :
    ∃ t, t = tideDelayExchange s k t1 t2 t3 t4 ∧ t.mem = s.mem ∧
      (getLink t k).delay16 = ((b - a) - ((t3 : Int) - t2)) / 2 ∧
      t.tide.offset16 = (((t2 : Int) - a) - (b - t3)) / 2 ∧ t.tide.count = s.tide.count ∧
      t.tide.rate = s.tide.rate ∧ (∀ j, j ≠ k → getLink t j = getLink s j) ∧
      (s.tide.firstLock = false → t.faults = s.faults) := by
  subst ha hb
  refine ⟨_, rfl, ?_⟩
  rw [tideDelayExchange_slave h hs]
  dsimp only
  generalize (((t4 : Int) - (quayDelay s k).2 - ((t1 : Int) - (quayDelay s k).1)) - ((t3 : Int) - t2)) / 2 = delay
  generalize (((t2 : Int) - ((t1 : Int) - (quayDelay s k).1)) - ((t4 : Int) - (quayDelay s k).2 - t3)) / 2 = off
  have hl : (getLink (exchanged s k delay off) k).delay16 = delay :=
    congrArg Link.delay16 (getLink_upd_self s k (fun l => { l with delay16 := delay }))
  have ho : ∀ j, j ≠ k → getLink (exchanged s k delay off) j = getLink s j := fun j hj => getLink_upd_other s _ hj
  cases hf : s.tide.firstLock with
  | false => exact ⟨rfl, hl, rfl, rfl, rfl, ho, fun _ => rfl⟩
  | true =>
    obtain ⟨hj, -⟩ := judgeOffset_row (exchanged s k delay off)
    rw [if_pos rfl]
    have hlink : ∀ j, getLink (judgeOffset (exchanged s k delay off)) j = getLink (exchanged s k delay off) j := fun j => by
      unfold getLink
      rw [hj]
    refine ⟨by rw [hj]; rfl, (congrArg Link.delay16 (hlink k)).trans hl, by rw [hj]; rfl, by rw [hj]; rfl, by rw [hj]; rfl,
      fun j h => (hlink j).trans (ho j h), fun h => Bool.noConfusion h⟩

/-! ## First lock, holdover and loss of synchronisation -/

theorem tideFirstLock_stays {x : Nat} (h : isMaster s = true ∨ s.harbour.noMaster = true ∨ s.tide.firstLock = true ∨
    s.tide.mode = .alwaysOn) : tideFirstLock s x = s := by
  unfold tideFirstLock
  rw [if_pos]
  rcases h with h | h | h | h <;> simp [h]

/-- A slave whose Tide is stepped to harbour Tide. -/
def stepped (s : State) (x : Nat) : State := { s with
  tide := { s.tide with
    count := x * 2 ^ 32
    latchAo := x * 2 ^ 32
    aoPhase := 0
    firstLock := true
    offset16 := 0
    holdover := none }
  harbour := { s.harbour with
    lastSync := x
    returnedAt := if s.harbour.pos = 0 then some x else s.harbour.returnedAt } }

/-- The step is reported, and what holdover relaxed ends. -/
def steppedEvents (s : State) (x : Nat) : State :=
  relax (relax (tideEvent (stepped s x) 0 0 ((x : Int) - now s)) 2 false 0) 4 false 0

theorem tideFirstLock_steps {x : Nat} (h1 : isMaster s = false) (h2 : s.harbour.noMaster = false)
    (h3 : s.tide.firstLock = false) (h4 : s.tide.mode = .reference) : tideFirstLock s x =
      if s.harbour.rejoining then linkSend (steppedEvents s x) (linkTo s (firstHop s s.harbour.master))
        (.rejoin (linkTo s (firstHop s s.harbour.master)) s.ident.part)
      else steppedEvents s x := by
  unfold tideFirstLock
  rw [if_neg (by simp [h1, h2, h3, h4])]
  rfl

theorem steppedEvents_row (s : State) (x : Nat) : RelaxedOnly (stepped s x) (steppedEvents s x) ∧
    2 ∉ (steppedEvents s x).tide.relaxed ∧ 4 ∉ (steppedEvents s x).tide.relaxed ∧
    (2 ∉ s.tide.relaxed → 4 ∉ s.tide.relaxed → ∃ e, (steppedEvents s x).faults.unlogged = s.faults.unlogged ++ [e] ∧
      e.code = 0x0502 ∧ e.arg = ofSigned 64 ((x : Int) - now s)) := by
  have he : RelaxedOnly (stepped s x) (tideEvent (stepped s x) 0 0 ((x : Int) - now s)) := rfl
  refine ⟨(he.trans (relaxedOnly_relax _ 2 false 0)).trans (relaxedOnly_relax _ 4 false 0), ?_, ?_, fun h2 h4 => ?_⟩
  · unfold steppedEvents
    rw [mem_relaxed_relax, if_neg (by decide), mem_relaxed_relax, if_pos rfl]
    decide
  · unfold steppedEvents
    rw [mem_relaxed_relax, if_pos rfl]
    decide
  · obtain ⟨v, v1, v2, -, -, v5, -⟩ := raise_unlogged (stepped s x)
      { code := 0x0502, outcome := 0, guarantee := 0, arg := ofSigned 64 ((x : Int) - now s) }
    have r2 : relax (tideEvent (stepped s x) 0 0 ((x : Int) - now s)) 2 false 0 = tideEvent (stepped s x) 0 0 ((x : Int) - now s) :=
      relax_same 0 (iff_of_false h2 (by decide))
    have r4 : steppedEvents s x = tideEvent (stepped s x) 0 0 ((x : Int) - now s) := by
      unfold steppedEvents
      rw [r2]
      exact relax_same 0 (iff_of_false h4 (by decide))
    exact ⟨v, by rw [r4]; exact v1, v2, v5⟩

theorem tideFirstLock_row {x : Nat} (h1 : isMaster s = false) (h2 : s.harbour.noMaster = false)
    (h3 : s.tide.firstLock = false) (h4 : s.tide.mode = .reference) : ∃ t, t = tideFirstLock s x ∧ now t = x ∧
      t.tide.firstLock = true ∧ t.tide.offset16 = 0 ∧ t.tide.holdover = none ∧ t.harbour.lastSync = x ∧
      (2 ∉ s.tide.relaxed → 4 ∉ s.tide.relaxed → ∃ e, t.faults.unlogged = s.faults.unlogged ++ [e] ∧ e.code = 0x0502 ∧
        e.arg = ofSigned 64 ((x : Int) - now s)) ∧
      2 ∉ t.tide.relaxed ∧ 4 ∉ t.tide.relaxed ∧
      t.sent = (if s.harbour.rejoining = true then
        s.sent ++ [.rejoin (linkTo s (firstHop s s.harbour.master)) s.ident.part] else s.sent) := by
  obtain ⟨hr, e2, e4, ev⟩ := steppedEvents_row s x
  have hn : now (stepped s x) = x := Nat.mul_div_cancel x (Nat.two_pow_pos 32)
  have hcount : (steppedEvents s x).tide.count = (stepped s x).tide.count := by rw [hr]
  have hnow : now (steppedEvents s x) = x := by
    unfold now at hn ⊢
    rw [hcount]
    exact hn
  have hl : (steppedEvents s x).tide.firstLock = true ∧ (steppedEvents s x).tide.offset16 = 0 ∧
      (steppedEvents s x).tide.holdover = none := by
    rw [hr]
    exact ⟨rfl, rfl, rfl⟩
  have hh : (steppedEvents s x).harbour.lastSync = x := by rw [hr]; rfl
  have hs : (steppedEvents s x).sent = s.sent := by rw [hr]; rfl
  obtain ⟨hl1, hl2, hl3⟩ := hl
  refine ⟨_, rfl, ?_⟩
  rw [tideFirstLock_steps h1 h2 h3 h4]
  cases hj : s.harbour.rejoining with
  | false => exact ⟨hnow, hl1, hl2, hl3, hh, ev, e2, e4, hs⟩
  | true =>
    obtain ⟨hk, -⟩ := linkSend_row (steppedEvents s x) (linkTo s (firstHop s s.harbour.master))
      (.rejoin (linkTo s (firstHop s s.harbour.master)) s.ident.part)
    rw [if_pos rfl, if_pos rfl, hk]
    exact ⟨hnow, hl1, hl2, hl3, hh, ev, e2, e4, congrArg (· ++ [_]) hs⟩

theorem holdoverDrift_relaxed {h : Nat} (hh : s.tide.holdover = some h) :
    RelaxedOnly s (holdoverDrift s) ∧ (s.harbour.noMaster = true → h + 2500000 ≤ now s → 3 ∈ (holdoverDrift s).tide.relaxed) ∧
    (s.harbour.noMaster = false ∨ now s < h + 2500000 ∨ 3 ∈ s.tide.relaxed → holdoverDrift s = s) := by
  unfold holdoverDrift
  rw [hh]
  dsimp only
  split
  · next hc =>
    refine ⟨relaxedOnly_relax _ _ _ _, fun _ _ => ?_, fun hn => ?_⟩
    · rw [mem_relaxed_relax, if_pos rfl]
    · rcases hn with hn | hn | hn
      · rw [hn] at hc
        exact absurd hc.1 (by decide)
      · omega
      · exact relax_same _ (iff_of_true hn rfl)
  · next hc => exact ⟨.refl s, fun h1 h2 => absurd ⟨h1, h2⟩ hc, fun _ => rfl⟩

theorem holdoverExpiry_none (hh : s.tide.holdover = none) : holdoverExpiry s = s := by
  simp [holdoverExpiry, holdoverDrift, hh]

theorem holdoverExpiry_some {h : Nat} (hh : s.tide.holdover = some h) : holdoverExpiry s =
    if h + 1000000000 ≤ now s then relax (holdoverDrift s) 2 true (s.tide.offset16 / 16) else holdoverDrift s := by
  unfold holdoverExpiry
  rw [hh]

theorem holdoverExpiry_row {h : Nat} (hh : s.tide.holdover = some h) : ∃ t, t = holdoverExpiry s ∧
    t = { s with tide := t.tide, faults := t.faults } ∧ t.tide.count = s.tide.count ∧
    (h + 1000000000 ≤ now s → 2 ∈ t.tide.relaxed) ∧
    (s.harbour.noMaster = true → h + 2500000 ≤ now s → 3 ∈ t.tide.relaxed) ∧
    (s.harbour.noMaster = false ∨ now s < h + 2500000 ∨ 3 ∈ s.tide.relaxed →
      (now s < h + 1000000000 ∨ 2 ∈ s.tide.relaxed → t = s) ∧
      (h + 1000000000 ≤ now s → 2 ∉ s.tide.relaxed → ∃ e, t.faults.unlogged = s.faults.unlogged ++ [e] ∧
        e.code = 0x0502 ∧ e.guarantee = 4)) := by
  obtain ⟨d1, d2, d3⟩ := holdoverDrift_relaxed hh
  refine ⟨_, rfl, ?_⟩
  rw [holdoverExpiry_some hh]
  split
  · next hc =>
    have ht := d1.trans (relaxedOnly_relax (holdoverDrift s) 2 true (s.tide.offset16 / 16))
    refine ⟨by rw [ht], by rw [ht], fun _ => ?_, fun h1 h2 => ?_, fun hn => ⟨fun h1 => ?_, fun _ h2 => ?_⟩⟩
    · rw [mem_relaxed_relax, if_pos rfl]
    · rw [mem_relaxed_relax, if_neg (by decide)]
      exact d2 h1 h2
    · rw [d3 hn]
      exact relax_same _ (iff_of_true (h1.resolve_left (by omega)) rfl)
    · rw [d3 hn]
      exact relax_raises _ (fun hw => h2 (hw.mpr rfl))
  · next hc =>
    exact ⟨by rw [d1], by rw [d1], fun h1 => absurd h1 hc, d2, fun hn => ⟨fun _ => d3 hn, fun h1 => absurd h1 hc⟩⟩

theorem masterSyncLoss_stays (h : isMaster s = true ∨ harbourSize s < 2 ∨ s.harbour.claimAt ≠ none ∨
    now s < s.harbour.lastSync + 1000000) : masterSyncLoss s = s := by
  unfold masterSyncLoss
  rw [if_pos]
  rcases h with h | h | h | h
  · simp [h]
  · simp [h]
  · simp [Option.isSome_iff_ne_none.mpr h]
  · simp [h]

/-- A slave without synchronisation, in holdover since the last one, with a claim. -/
def claiming (s : State) : State := { s with
  tide := { s.tide with
    holdover := some (s.tide.holdover.getD s.harbour.lastSync)
    rate := clampInt (-rateLimit) rateLimit s.tide.freq }
  harbour := { s.harbour with claimAt := some (now s) } }

theorem masterSyncLoss_claims (h1 : isMaster s = false) (h2 : 2 ≤ harbourSize s) (h3 : s.harbour.claimAt = none)
    (h4 : s.harbour.lastSync + 1000000 ≤ now s) :
    masterSyncLoss s = send (relax (claiming s) 4 true (s.tide.offset16 / 16)) (.claim (reaches s)) := by
  unfold masterSyncLoss claiming
  rw [if_neg (by simp [h1, h3]; omega)]
  cases s.tide.holdover <;> rfl

theorem masterSyncLoss_row (h1 : isMaster s = false) (h2 : 2 ≤ harbourSize s) (h3 : s.harbour.claimAt = none)
    (h4 : s.harbour.lastSync + 1000000 ≤ now s) : ∃ t, t = masterSyncLoss s ∧
      t.harbour = { s.harbour with claimAt := some (now s) } ∧
      t.sent = s.sent ++ [.claim (reaches s)] ∧ 4 ∈ t.tide.relaxed ∧ t.tide.count = s.tide.count ∧
      (s.tide.holdover = none → t.tide.holdover = some s.harbour.lastSync) ∧
      (∀ h, s.tide.holdover = some h → t.tide.holdover = some h) ∧ t.mem = s.mem := by
  refine ⟨_, rfl, ?_⟩
  rw [masterSyncLoss_claims h1 h2 h3 h4]
  have hr := relax_frame (claiming s) 4 true (s.tide.offset16 / 16)
  have hm := mem_relaxed_relax (claiming s) 4 4 true (s.tide.offset16 / 16)
  rw [if_pos rfl] at hm
  generalize relax (claiming s) 4 true (s.tide.offset16 / 16) = u at hr hm
  have hh : u.tide.holdover = some (s.tide.holdover.getD s.harbour.lastSync) := by rw [hr]; rfl
  refine ⟨?_, ?_, hm.mpr rfl, ?_, fun h => ?_, fun h hs => ?_, ?_⟩
  · show u.harbour = _
    rw [hr]
    rfl
  · show u.sent ++ _ = _
    rw [hr]
    rfl
  · show u.tide.count = _
    rw [hr]
    rfl
  · show u.tide.holdover = _
    rw [hh, h]
    rfl
  · show u.tide.holdover = _
    rw [hh, hs]
    rfl
  · show u.mem = _
    rw [hr]
    rfl

/-- Settles O57: each row of harbour Tide, from what relaxing guarantee 4 and learning a master change. -/
theorem harbourTideIsServoed : Obligations.HarbourTideIsServoed := by
  unfold Obligations.HarbourTideIsServoed
  refine ⟨fun s => ⟨?_, fun k h => feeds_master h, fun k h hr => feeds_off_route h hr,
      fun h => congrArg Host.Outcome.next (tideSyncSend_none h)⟩, ?_, ?_, ?_, fun s x => ⟨?_, ?_⟩, fun s => ⟨?_, ?_⟩,
    fun s => ⟨?_, ?_⟩⟩
  · obtain ⟨t, ht, h⟩ := tideSyncSend_row s
    exact ⟨t, congrArg Host.Outcome.next ht.symm, h⟩
  · rintro s k h rfl
    exact ⟨learnMaster_stays, learnMaster_first_row, fun hu hn hf hp => by
      rw [learnMaster_other hu hn hf hp, HarbourGroup.learns, ← hn]⟩
  · intro s k m a h hk hh
    obtain ⟨c1, c2, c3, c4⟩ := learnMaster_keeps s k
    have row : ∀ {t}, syncTide h k m a = t → exec (.tideSyncMessage k m a) s = .next t := fun ht =>
      guarded_next.mpr ⟨hk, (congrArg (fun u => syncTide u k m a) hh.symm).trans ht⟩
    have hnow : now h = now s := by unfold now; rw [hh, c1]
    have hl : getLink h k = getLink s k := by unfold getLink; rw [hh, c3]
    have hq : quayDelay h k = quayDelay s k := by unfold quayDelay; rw [hh, c4]
    refine ⟨fun hs => row (syncTide_other hs), fun hs hf => row (by rw [syncTide_unlocked hs hf, hnow]), fun hs hf => ?_⟩
    obtain ⟨t, r1, r2, r3, r4, r5, r6, r7, r8⟩ := syncTide_locked_row (m := m) (a := a) hs hf
    rw [hl, hq] at r4
    rw [hnow] at r3
    have hb := clampInt_bounds (lo := -rateLimit) (hi := rateLimit) (by decide) (h.tide.freq + t.tide.offset16 * 4294967296 / 16000000)
    refine ⟨t, row r1.symm, r2, r3, r4, by rw [r5, hh, c1], r6, by rw [r7]; exact hb.1, by rw [r7]; exact hb.2,
      fun x hx h1 h2 => ?_, r8⟩
    rw [r7, servoRate, hh, c2, ← hx]
    exact clampInt_inside h1 h2
  · intro s k t1 t2 t3 t4 a b hk ha hb
    refine ⟨fun hf => ⟨_, guarded_next.mpr ⟨hk, tideDelayExchange_fed hf⟩, rfl, fun j hj => getLink_upd_other s _ hj,
      getLink_upd_self s k _⟩, fun hf hs => guarded_next.mpr ⟨hk, tideDelayExchange_other hf hs⟩, fun hf hs => ?_⟩
    obtain ⟨t, ht, h⟩ := tideDelayExchange_slave_row (t2 := t2) (t3 := t3) ha hb hf hs
    exact ⟨t, guarded_next.mpr ⟨hk, ht.symm⟩, h⟩
  · intro h1 h2 h3 h4
    obtain ⟨t, ht, h⟩ := tideFirstLock_row (x := x) h1 h2 h3 h4
    exact ⟨t, congrArg Host.Outcome.next ht.symm, h⟩
  · exact fun h => congrArg Host.Outcome.next (tideFirstLock_stays h)
  · intro h hh
    obtain ⟨t, ht, hr⟩ := holdoverExpiry_row hh
    exact ⟨t, congrArg Host.Outcome.next ht.symm, hr⟩
  · exact fun hh => congrArg Host.Outcome.next (holdoverExpiry_none hh)
  · intro h1 h2 h3 h4
    obtain ⟨t, ht, h⟩ := masterSyncLoss_row h1 h2 h3 h4
    exact ⟨t, congrArg Host.Outcome.next ht.symm, h⟩
  · exact fun h => congrArg Host.Outcome.next (masterSyncLoss_stays h)

end Sys2Proof.Machine
end

section
/-! SUPPORT. COMMAND_FETCH: what waking domains and taking row buffers leave alone, the request for a slot that gets no answer, and
the command that is taken. -/

namespace Sys2Proof.Machine

variable {s : State}

/-! ## Waking, row buffers and counts of refusals -/

/-- Only domains change. -/
def DomainsOnly (s t : State) : Prop := t = { s with domains := t.domains }

theorem domainsOnly_wakeDomain (s : State) (d : Nat) : DomainsOnly s (wakeDomain s d) := by
  unfold wakeDomain
  split
  · rfl
  · unfold pushDomain
    dsimp only
    rw [if_neg (fun h => h.2 rfl)]
    rfl

theorem domainsOnly_wakeAll (l : List Nat) (s : State) : DomainsOnly s (l.foldl wakeDomain s) :=
  foldl_rel (R := DomainsOnly) (fun _ => rfl) (fun h g => by unfold DomainsOnly at *; rw [g, h]) domainsOnly_wakeDomain l s

/-- Only stacks change. -/
def StacksOnly (s t : State) : Prop := t = { s with stackTab := t.stackTab }

theorem StacksOnly.refl (s : State) : StacksOnly s s := rfl
theorem StacksOnly.trans {s t u : State} (h : StacksOnly s t) (g : StacksOnly t u) : StacksOnly s u := by
  unfold StacksOnly at *
  rw [g, h]

theorem stacksOnly_touchDram (s : State) (loc : Nat) (w : Bool) : StacksOnly s (touchDram s loc w) := by
  unfold touchDram
  split <;> rfl

theorem stacksOnly_touchRange (s : State) (a n : Nat) (w : Bool) : StacksOnly s (touchRange s a n w) := by
  unfold touchRange
  split
  · exact .refl s
  · refine foldl_rel StacksOnly.refl StacksOnly.trans (fun t i => ?_) _ _
    dsimp only
    split
    · exact .refl t
    · exact stacksOnly_touchDram _ _ _

theorem stacksOnly_touchSlots (host : Bool) (slot : Nat → Nat) (l : List Nat) (s : State) :
    StacksOnly s (l.foldl (fun t k => touchSlot t host (slot k)) s) := by
  refine foldl_rel StacksOnly.refl StacksOnly.trans (fun t k => ?_) l s
  unfold touchSlot
  split
  · exact .refl t
  · exact stacksOnly_touchRange _ _ _ _

/-- Slots in host memory take no row buffer. -/
theorem touchSlots_host (slot : Nat → Nat) (l : List Nat) (s : State) :
    l.foldl (fun t k => touchSlot t true (slot k)) s = s := by
  induction l with
  | nil => rfl
  | cons k l ih => exact ih

theorem countStale_frame (s : State) (src a n : Nat) : countStale s src a n = { s with sites := (countStale s src a n).sites } :=
  foldl_rel (R := fun u t => t = { u with sites := t.sites }) (fun _ => rfl) (fun h g => by rw [g, h]) (fun _ _ => rfl) _ s

/-! ## A request for a slot -/

/-- No command in flight changes, and no context takes one. -/
def FlightsKept (s t : State) : Prop :=
  ∀ k, (getCtx t k).flight = (getCtx s k).flight ∧ (getCtx t k).fetchCount = (getCtx s k).fetchCount

theorem FlightsKept.of_ctxs {t : State} (h : t.ctxs = s.ctxs) : FlightsKept s t := fun k => by
  unfold getCtx
  rw [h]
  exact ⟨rfl, rfl⟩

theorem flightsKept_updCtx (s : State) (c : Nat) {f : Context → Context}
    (hf : ∀ x, (f x).flight = x.flight ∧ (f x).fetchCount = x.fetchCount) : FlightsKept s (updCtx s c f) := fun k => by
  by_cases hk : k = c
  · subst hk
    rw [getCtx_upd_self]
    exact hf _
  · rw [getCtx_upd_other s _ hk]
    exact ⟨rfl, rfl⟩

theorem flightsKept_stopContext (s : State) (c a : Nat) : FlightsKept s (stopContext s c a) := by
  unfold stopContext
  split
  · exact flightsKept_updCtx s c (f := fun x => { x with state := .stopped }) (fun _ => ⟨rfl, rfl⟩)
  · exact fun _ => ⟨rfl, rfl⟩

theorem flightsKept_noteOut {o : OutReq} (s : State) (st d : Nat) (h : o.req.srcCtx = none) : FlightsKept s (noteOut s o st d) := by
  rw [noteOut_of_none s st d h, slotStops]
  split
  · split
    · exact fun _ => ⟨rfl, rfl⟩
    · exact flightsKept_stopContext _ _ _
  · exact fun _ => ⟨rfl, rfl⟩

theorem flightsKept_issueTracked {r : WireReq} (s : State) (p : Purpose) (h : r.srcCtx = none) :
    FlightsKept s (issueTracked s r p) := by
  unfold issueTracked
  dsimp only
  split
  · exact flightsKept_noteOut s _ _ h
  · split
    · exact .of_ctxs rfl
    · exact .of_ctxs (by rw [sendReq_frame])

/-- A request for a slot that no command makes leaves the commands in flight, and memory. -/
theorem issueSlot_keeps (s : State) (c : Nat) (k : ReqKind) (a n : Nat) :
    FlightsKept s (issueSlot s c none k a n) ∧ (issueSlot s c none k a n).mem = s.mem := by
  unfold issueSlot
  split
  · exact ⟨.of_ctxs rfl, rfl⟩
  · exact ⟨fun j => flightsKept_issueTracked (useTag s _) _ rfl j, (issueFrame_issueWork _ _ _).work.mem⟩

/-! ## The command that is taken -/

theorem planResources_frame (s : State) (c : Cmd) : planResources s c = { c with
    engines := (planResources s c).engines, regions := (planResources s c).regions, opt := (planResources s c).opt,
    holdsTug := (planResources s c).holdsTug } := by
  unfold planResources
  dsimp only
  split
  · rfl
  · split
    · rfl
    · split <;> rfl

theorem fetchedCmd_refused {c : Nat} {x : Context} {p : Nat} {e : Nat × Nat}
    (h : checkCommand s (askedRing s c x.cmdCount.toNat p) = some e) :
    (fetchedCmd s c x p).phase = .finished ∧ (fetchedCmd s c x p).status = e.1 ∧ (fetchedCmd s c x p).detail = e.2 ∧
      (fetchedCmd s c x p).tideStart = now s ∧ (fetchedCmd s c x p).tideEnd = now s := by
  unfold fetchedCmd
  dsimp only
  rw [h]
  exact ⟨rfl, rfl, rfl, rfl, rfl⟩

theorem fetchedCmd_waits {c : Nat} {x : Context} {p : Nat} (h : checkCommand s (askedRing s c x.cmdCount.toNat p) = none) :
    (fetchedCmd s c x p).phase = .waiting ∧
      (fetchedCmd s c x p).deadline = max (now s) (if hTstart p then hTstartNs p else 0) + timeoutNs (hTimeout p) := by
  unfold fetchedCmd
  dsimp only
  rw [h]
  dsimp only
  rw [planResources_frame]
  exact ⟨rfl, rfl⟩

theorem fetchedCmd_fields (s : State) (c : Nat) (x : Context) (p : Nat) :
    (fetchedCmd s c x p).id = { ctx := c, seq := x.cmdCount.toNat } ∧ (fetchedCmd s c x p).packet = p ∧
      (fetchedCmd s c x p).opcode = hOpcode p ∧ (fetchedCmd s c x p).gen = x.gen ∧ (fetchedCmd s c x p).fetched = now s ∧
      (fetchedCmd s c x p).blockedAt = none := by
  unfold fetchedCmd
  dsimp only
  split
  · exact ⟨rfl, rfl, rfl, rfl, rfl, rfl⟩
  · rw [planResources_frame]
    exact ⟨rfl, rfl, rfl, rfl, rfl, rfl⟩

/-- What the limit of 64 started commands does to a command: its timeout stops or runs on. -/
def TimesOnly (f : Cmd → Cmd) : Prop :=
  ∀ m, f m = { m with blockedAt := (f m).blockedAt, deadline := (f m).deadline } ∧
    (m.blockedAt = none → (f m).deadline = m.deadline)

theorem timesOnly_unblock (t : Nat) : TimesOnly (fun m => m.unblock t) := by
  intro m
  dsimp only
  unfold Cmd.unblock
  split
  · next b h => exact ⟨rfl, fun hn => by rw [h] at hn; cases hn⟩
  · exact ⟨rfl, fun _ => rfl⟩

/-- A context whose limit of started commands has been settled. -/
def Context.settled (x : Context) (t : Nat) : Context :=
  if startedCount x < 64 then { x with flight := x.flight.map (fun m => m.unblock t) }
  else match x.flight.find? (fun m => decide (m.phase = .waiting)) with
    | some w =>
      if w.blockedAt.isSome then x
      else { x with flight := mapIf (fun m => decide (m.id = w.id)) (fun m => { m with blockedAt := some t }) x.flight }
    | none => x

theorem settleLimit_eq (s : State) (c : Nat) : settleLimit s c = updCtx s c (fun x => x.settled (now s)) := rfl

theorem settled_flight (x : Context) (t : Nat) : ∃ f, TimesOnly f ∧ x.settled t = { x with flight := x.flight.map f } := by
  have hid : ∃ f, TimesOnly f ∧ x = { x with flight := x.flight.map f } :=
    ⟨id, fun _ => ⟨rfl, fun _ => rfl⟩, by rw [List.map_id]⟩
  unfold Context.settled
  split
  · exact ⟨_, timesOnly_unblock t, rfl⟩
  · split
    · next w _ =>
      split
      · exact hid
      · refine ⟨fun m => if decide (m.id = w.id) then { m with blockedAt := some t } else m, fun m => ?_, rfl⟩
        dsimp only
        split
        · exact ⟨rfl, fun _ => rfl⟩
        · exact ⟨rfl, fun _ => rfl⟩
    · exact hid

/-- A context with one more command, before its limit is settled. -/
def Context.takes (x : Context) (s : State) (c p n : Nat) : Context :=
  { x with
    fetchCount := x.fetchCount + BitVec.ofNat 32 (1 + n)
    cmdCount := x.cmdCount + 1
    flight := x.flight ++ [fetchedCmd s c x p] }

theorem takeCommand_row (s : State) (c p n : Nat) {x : Context} (hx : x = getCtx s c) :
    ∃ y d, CtxBecomes s (takeCommand s c p n) c { x with
        fetchCount := x.fetchCount + BitVec.ofNat 32 (1 + n)
        cmdCount := x.cmdCount + 1
        flight := y } ∧
      y.length = x.flight.length + 1 ∧ y.getLast? = some d ∧ d.id = { ctx := c, seq := x.cmdCount.toNat } ∧
      d.packet = p ∧ d.opcode = hOpcode p ∧ d.gen = x.gen ∧ d.fetched = now s ∧
      (∀ e, checkCommand s (askedRing s c x.cmdCount.toNat p) = some e →
        d.phase = .finished ∧ d.status = e.1 ∧ d.detail = e.2 ∧ d.tideStart = now s ∧ d.tideEnd = now s) ∧
      (checkCommand s (askedRing s c x.cmdCount.toNat p) = none → d.phase = .waiting ∧
        d.deadline = max (now s) (if hTstart p then hTstartNs p else 0) + timeoutNs (hTimeout p)) := by
  subst hx
  obtain ⟨f, hf, hs⟩ := settled_flight ((getCtx s c).takes s c p n) (now s)
  have ht : takeCommand s c p n = updCtx (updCtx s c (fun x => x.takes s c p n)) c (fun x => x.settled (now s)) := rfl
  obtain ⟨hd, hdl⟩ := hf (fetchedCmd s c (getCtx s c) p)
  obtain ⟨f1, f2, f3, f4, f5, f6⟩ := fetchedCmd_fields s c (getCtx s c) p
  refine ⟨((getCtx s c).flight ++ [fetchedCmd s c (getCtx s c) p]).map f, f (fetchedCmd s c (getCtx s c) p),
    ⟨rfl, fun k hk => ?_, ?_⟩, by simp, by simp, ?_⟩
  · rw [ht]
    exact (getCtx_upd_other _ _ hk).trans (getCtx_upd_other s _ hk)
  · rw [ht, getCtx_upd_self, getCtx_upd_self, hs]
    rfl
  · refine ⟨by rw [hd]; exact f1, by rw [hd]; exact f2, by rw [hd]; exact f3, by rw [hd]; exact f4, by rw [hd]; exact f5,
      fun e he => ?_, fun he => ?_⟩
    · rw [hd]
      exact fetchedCmd_refused he
    · obtain ⟨w1, w2⟩ := fetchedCmd_waits he
      exact ⟨by rw [hd]; exact w1, (hdl f6).trans w2⟩

/-! ## A context that stops -/

theorem stopContext_open {c : Nat} {x : Context} (a : Nat) (hx : x = getCtx s c) (ho : x.state = .opened) :
    ∃ m, CtxBecomes s m c { x with state := .stopped } ∧
      Raises m (stopContext s c a) (fun e => e.code = 0x0308 ∧ e.unit = c ∧ e.arg = a) := by
  subst hx
  obtain ⟨v, v1, v2, -, v4, v5, -⟩ := raise_unlogged (updCtx s c (fun x => { x with state := .stopped }))
    { code := 0x0308, site := ctxBerth c, unit := c, part := partField s (ctxBerth c), arg := a }
  refine ⟨updCtx s c (fun x => { x with state := .stopped }), ⟨rfl, fun k hk => getCtx_upd_other s _ hk, getCtx_upd_self s c _⟩, ?_⟩
  unfold stopContext
  rw [if_pos ho]
  exact ⟨rfl, v, v1, v2, v4, v5⟩

/-! ## The fetch -/

/-- The header of the next command, and the slots it stands in. -/
def headSlot (s : State) (c k : Nat) : Nat := sqSlot (getCtx s c) ((getCtx s c).fetchCount + BitVec.ofNat 32 k)

theorem headSlot_zero (s : State) (c : Nat) : headSlot s c 0 = sqSlot (getCtx s c) (getCtx s c).fetchCount :=
  congrArg (sqSlot (getCtx s c)) (BitVec.add_zero _)

/-- What a slot that cannot be read starts: its request, or the stop of its context. -/
def missingSlot (s : State) (c a : Nat) : State :=
  if slotSilent s (bitAt (getCtx s c).place 0) a then issueSlot s c none .load a 64
  else stopContext (if bitAt (getCtx s c).place 0 then s else countStale s (ctxBerth c) a 64) c a

/-- The number of continuations of the next command, and its bytes. -/
def nextConts (s : State) (c : Nat) : Nat := hNcont (leNat (readSlot s (bitAt (getCtx s c).place 0) (headSlot s c 0) 64))
def nextPacket (s : State) (c n : Nat) : Nat :=
  leNat ((List.range (n + 1)).flatMap (fun k => readSlot s (bitAt (getCtx s c).place 0) (headSlot s c k) 64))

theorem fetchCommand_eq (s : State) (c : Nat) : fetchCommand s c =
    (let host := bitAt (getCtx s c).place 0
    if !mayFetch (getCtx s c) then s
    else if slotWaits s c host (headSlot s c 0) 64 then (sleepersOf s (headSlot s c 0) 64).foldl wakeDomain s
    else if !slotOk s c host .load (headSlot s c 0) 64 then missingSlot s c (headSlot s c 0)
    else if ((getCtx s c).sqTail - (getCtx s c).fetchCount).toNat < 1 + nextConts s c then s
    else match (List.range (nextConts s c)).find? (fun k => slotWaits s c host (headSlot s c (k + 1)) 64) with
      | some k => (sleepersOf s (headSlot s c (k + 1)) 64).foldl wakeDomain s
      | none => match (List.range (nextConts s c)).find? (fun k => !slotOk s c host .load (headSlot s c (k + 1)) 64) with
        | some k => missingSlot s c (headSlot s c (k + 1))
        | none => (List.range (nextConts s c + 1)).foldl (fun t k => touchSlot t host (headSlot s c k))
            (takeCommand s c (nextPacket s c (nextConts s c)) (nextConts s c))) := rfl

theorem mayFetch_iff (x : Context) : mayFetch x = true ↔
    x.state = .opened ∧ (x.cmdCount - x.cqHead).toNat < 2 ^ x.log2S ∧ x.sqTail ≠ x.fetchCount := by
  simp [mayFetch, and_assoc]

theorem fetchCommand_none {c : Nat} (h : mayFetch (getCtx s c) = false) : fetchCommand s c = s := by
  rw [fetchCommand_eq]
  simp [h]

section
variable {c : Nat} (hm : mayFetch (getCtx s c) = true)
include hm

theorem fetchCommand_waits (h : slotWaits s c (bitAt (getCtx s c).place 0) (headSlot s c 0) 64 = true) :
    fetchCommand s c = (sleepersOf s (headSlot s c 0) 64).foldl wakeDomain s := by
  rw [fetchCommand_eq]
  simp only [hm, h]
  rfl

theorem fetchCommand_missing (h : slotWaits s c (bitAt (getCtx s c).place 0) (headSlot s c 0) 64 = false)
    (hk : slotOk s c (bitAt (getCtx s c).place 0) .load (headSlot s c 0) 64 = false) :
    fetchCommand s c = missingSlot s c (headSlot s c 0) := by
  rw [fetchCommand_eq]
  simp only [hm, h, hk]
  rfl

theorem fetchCommand_short (h : slotWaits s c (bitAt (getCtx s c).place 0) (headSlot s c 0) 64 = false)
    (hk : slotOk s c (bitAt (getCtx s c).place 0) .load (headSlot s c 0) 64 = true)
    (hn : ((getCtx s c).sqTail - (getCtx s c).fetchCount).toNat < 1 + nextConts s c) : fetchCommand s c = s := by
  rw [fetchCommand_eq]
  simp only [hm, h, hk, if_pos hn]
  rfl

theorem fetchCommand_takes (hall : ∀ k, k ≤ nextConts s c →
      slotWaits s c (bitAt (getCtx s c).place 0) (headSlot s c k) 64 = false ∧
      slotOk s c (bitAt (getCtx s c).place 0) .load (headSlot s c k) 64 = true)
    (hn : 1 + nextConts s c ≤ ((getCtx s c).sqTail - (getCtx s c).fetchCount).toNat) : fetchCommand s c =
      (List.range (nextConts s c + 1)).foldl (fun t k => touchSlot t (bitAt (getCtx s c).place 0) (headSlot s c k))
        (takeCommand s c (nextPacket s c (nextConts s c)) (nextConts s c)) := by
  obtain ⟨h, hk⟩ := hall 0 (Nat.zero_le _)
  have hw : (List.range (nextConts s c)).find? (fun k => slotWaits s c (bitAt (getCtx s c).place 0) (headSlot s c (k + 1)) 64) =
      none := List.find?_eq_none.mpr (fun k hk => by rw [(hall (k + 1) (List.mem_range.mp hk)).1]; decide)
  have hb : (List.range (nextConts s c)).find?
      (fun k => !slotOk s c (bitAt (getCtx s c).place 0) .load (headSlot s c (k + 1)) 64) = none :=
    List.find?_eq_none.mpr (fun k hk => by rw [(hall (k + 1) (List.mem_range.mp hk)).2]; decide)
  rw [fetchCommand_eq]
  simp only [hm, h, hk, hw, hb, if_neg (Nat.not_lt.mpr hn)]
  rfl
end

/-- Settles O30: a case for each way in which the next command's slots can stand. -/
theorem commandsAreFetched : Obligations.CommandsAreFetched := by
  unfold Obligations.CommandsAreFetched
  refine ⟨?_, ?_⟩
  · intro s c x n p hc hx ho hroom htail hn hp
    subst hx
    have hm : mayFetch (getCtx s c) = true := (mayFetch_iff _).mpr ⟨ho, hroom, htail⟩
    have h0 := headSlot_zero s c
    have hn' : n = nextConts s c := by rw [hn, nextConts, h0]
    have row : ∀ {t}, fetchCommand s c = t → exec (.commandFetch c) s = .next t := fun h => guarded_next.mpr ⟨hc, h⟩
    rw [← h0]
    subst hn' hp
    refine ⟨fun hw => ⟨_, row (fetchCommand_waits hm hw), domainsOnly_wakeAll _ _⟩, fun hw hk hs => ?_,
      fun hw hk hl => row (fetchCommand_short hm hw hk hl), fun hall hl => ?_, fun hw hk hs => ?_⟩
    · obtain ⟨hf, hmem⟩ := issueSlot_keeps s c .load (headSlot s c 0) 64
      refine ⟨_, row ((fetchCommand_missing hm hw hk).trans (if_pos hs)), hmem, (hf c).2, (hf c).1⟩
    · obtain ⟨y, d, hy⟩ := takeCommand_row s c (nextPacket s c (nextConts s c)) (nextConts s c) rfl
      refine ⟨_, _, y, d, row (fetchCommand_takes hm hall hl), stacksOnly_touchSlots _ _ _ _, fun hh => ?_, hy⟩
      rw [hh]
      exact touchSlots_host _ _ _
    · have hg : ∀ {u}, u = (if bitAt (getCtx s c).place 0 then s else countStale s (ctxBerth c) (headSlot s c 0) 64) →
          u = { s with sites := u.sites } ∧ (bitAt (getCtx s c).place 0 = true → u = s) := by
        rintro u rfl
        split
        · exact ⟨rfl, fun _ => rfl⟩
        · next h => exact ⟨countStale_frame _ _ _ _, fun h' => absurd h' h⟩
      obtain ⟨g1, g2⟩ := hg rfl
      have he : fetchCommand s c = stopContext (if bitAt (getCtx s c).place 0 then s
          else countStale s (ctxBerth c) (headSlot s c 0) 64) c (headSlot s c 0) :=
        (fetchCommand_missing hm hw hk).trans (if_neg (by rw [hs]; decide))
      generalize (if bitAt (getCtx s c).place 0 then s else countStale s (ctxBerth c) (headSlot s c 0) 64) = u at g1 g2 he
      have hu : getCtx s c = getCtx u c := by rw [g1]; rfl
      obtain ⟨m, hm1, hm2⟩ := stopContext_open (headSlot s c 0) hu ho
      exact ⟨u, m, _, row he, g1, g2, hm1, hm2⟩
  · intro s c x hc hx h
    subst hx
    refine guarded_next.mpr ⟨hc, fetchCommand_none ?_⟩
    rw [← Bool.not_eq_true, mayFetch_iff]
    rintro ⟨h1, h2, h3⟩
    rcases h with h | h | h
    · exact h h1
    · omega
    · exact h3 h

end Sys2Proof.Machine
end

section
/-! SUPPORT. Completions: what the end of a command leaves of the contexts and of memory, and the entry of a ring. -/

namespace Sys2Proof.Machine

variable {s : State}

/-! ## Contexts that keep their rings and commands -/

/-- A context keeps its state, its rings and the identity of its commands in flight. -/
def RingStays (x y : Context) : Prop :=
  y.state = x.state ∧ y.place = x.place ∧ y.cqBase = x.cqBase ∧ y.log2S = x.log2S ∧
    y.flight.map (·.id) = x.flight.map (·.id)

theorem RingStays.refl (x : Context) : RingStays x x := ⟨rfl, rfl, rfl, rfl, rfl⟩
theorem RingStays.trans {x y z : Context} (h : RingStays x y) (g : RingStays y z) : RingStays x z := by
  obtain ⟨h1, h2, h3, h4, h5⟩ := h
  obtain ⟨g1, g2, g3, g4, g5⟩ := g
  exact ⟨g1.trans h1, g2.trans h2, g3.trans h3, g4.trans h4, g5.trans h5⟩

/-- Every context keeps its state, its rings and the identity of its commands. -/
def RingsStay (s t : State) : Prop := ∀ k, RingStays (getCtx s k) (getCtx t k)

theorem RingsStay.refl (s : State) : RingsStay s s := fun _ => .refl _
theorem RingsStay.trans {s t u : State} (h : RingsStay s t) (g : RingsStay t u) : RingsStay s u := fun k => (h k).trans (g k)

theorem RingsStay.of_ctxs {t : State} (h : t.ctxs = s.ctxs) : RingsStay s t := fun k => by
  unfold getCtx
  rw [h]
  exact .refl _

theorem ringsStay_updCtx (s : State) (k : Nat) {f : Context → Context} (hf : ∀ x, RingStays x (f x)) :
    RingsStay s (updCtx s k f) := fun j => by
  by_cases hj : j = k
  · subst hj
    rw [getCtx_upd_self]
    exact hf _
  · rw [getCtx_upd_other s _ hj]
    exact .refl _

theorem ringStays_flight (x : Context) {f : Cmd → Cmd} (hf : ∀ c, (f c).id = c.id) :
    RingStays x { x with flight := x.flight.map f } :=
  ⟨rfl, rfl, rfl, rfl, by simp [Function.comp_def, hf]⟩

theorem mapIf_id {p : Cmd → Bool} {f : Cmd → Cmd} (hf : ∀ c, (f c).id = c.id) (c : Cmd) : (if p c then f c else c).id = c.id := by
  split
  · exact hf c
  · rfl

theorem ringsStay_updCmd (s : State) (id : CmdId) {f : Cmd → Cmd} (hf : ∀ c, (f c).id = c.id) : RingsStay s (updCmd s id f) :=
  ringsStay_updCtx s id.ctx (fun x => ringStays_flight x (mapIf_id hf))

/-- A command is in flight exactly when its identity stands in its context. -/
theorem findCmd_none_iff (s : State) (id : CmdId) : findCmd s id = none ↔ id ∉ (getCtx s id.ctx).flight.map (·.id) := by
  simp [findCmd, List.find?_eq_none]

theorem RingsStay.findCmd_none {t : State} {id : CmdId} (h : RingsStay s t) (hn : findCmd s id = none) : findCmd t id = none := by
  obtain ⟨-, -, -, -, h5⟩ := h id.ctx
  rw [findCmd_none_iff] at hn ⊢
  rwa [h5]

theorem RingsStay.nodesInFlight {t : State} {id : CmdId} (h : RingsStay s t) : nodesInFlight t id = nodesInFlight s id := by
  obtain ⟨-, -, -, -, h5⟩ := h id.ctx
  have hm : ∀ l : List Cmd, l.any (fun c => c.id.seq == id.seq && c.id.node.isSome) =
      (l.map (·.id)).any (fun i => i.seq == id.seq && i.node.isSome) := fun l => by rw [List.any_map]; rfl
  unfold Machine.nodesInFlight
  rw [hm, hm, h5]

/-! ## Requests of a command's work -/

theorem ringsStay_noteOut (s : State) {o : OutReq} (st d : Nat) (h : o.slot = none) : RingsStay s (noteOut s o st d) := by
  have hs : slotStops s o st = s := by simp [slotStops, h]
  cases hc : o.req.srcCtx with
  | none => rw [noteOut_of_none s st d hc, hs]; exact .refl s
  | some id =>
    have hu := ringsStay_updCmd s id (f := fun c => c.noted o st d (now s)) (by simp)
    rw [noteOut_of_cmd s st d hc, hs]
    split
    · exact hu.trans ((ringsStay_updCmd _ id (by simp)).trans (.of_ctxs rfl))
    · exact hu

theorem ringsStay_issueTracked (s : State) {r : WireReq} {p : Purpose} (h : p.slot = none) : RingsStay s (issueTracked s r p) := by
  unfold issueTracked
  dsimp only
  split
  · exact ringsStay_noteOut s _ _ h
  · split
    · exact .of_ctxs rfl
    · exact .of_ctxs (by rw [sendReq_frame])

theorem ringsStay_issueWork (s : State) {r : WireReq} {p : Purpose} (h : p.slot = none) : RingsStay s (issueWork s r p) :=
  ringsStay_issueTracked (useTag s r.tag) h

theorem ringsStay_issueStores (s : State) (c : Cmd) {p : Purpose} (h : p.slot = none) (a : Nat) (l : List Byte) :
    RingsStay s (issueStores s c p a l) := by
  unfold issueStores
  refine foldl_rel RingsStay.refl RingsStay.trans (fun t x => ?_) _ _
  split
  · split
    · exact ringsStay_issueWork _ h
    · exact foldl_rel RingsStay.refl RingsStay.trans (fun u q => ringsStay_issueWork _ h) _ _
  · exact .refl t

theorem ringsStay_issueResults (s : State) (c : Cmd) (l : List (Nat × Byte)) : RingsStay s (issueResults s c l) := by
  unfold issueResults
  generalize gather l = g
  exact foldl_rel RingsStay.refl RingsStay.trans (fun t r => ringsStay_issueStores t c rfl _ _) _ _

/-! ## Stores -/

/-- A context whose doorbells have been written. -/
def Rung (x y : Context) : Prop :=
  y = { x with ignored := y.ignored, rejected := y.rejected, cqHead := y.cqHead, sqTail := y.sqTail }

/-- A store may ring doorbells, and no more changes in the contexts. -/
def DoorbellsOnly (s t : State) : Prop := ∀ k, Rung (getCtx s k) (getCtx t k)

theorem DoorbellsOnly.refl (s : State) : DoorbellsOnly s s := fun _ => rfl
theorem DoorbellsOnly.trans {s t u : State} (h : DoorbellsOnly s t) (g : DoorbellsOnly t u) : DoorbellsOnly s u := fun k => by
  have h := h k
  have g := g k
  unfold Rung at *
  rw [g, h]
theorem DoorbellsOnly.of_ctxs {t : State} (h : t.ctxs = s.ctxs) : DoorbellsOnly s t := fun k => by
  unfold getCtx
  rw [h]
  rfl

theorem doorbellsOnly_updCtx (s : State) (k : Nat) {f : Context → Context} (hf : ∀ x, Rung x (f x)) :
    DoorbellsOnly s (updCtx s k f) := fun j => by
  by_cases hj : j = k
  · subst hj
    rw [getCtx_upd_self]
    exact hf _
  · rw [getCtx_upd_other s _ hj]
    rfl

theorem DoorbellsOnly.rings {t : State} (h : DoorbellsOnly s t) : RingsStay s t := fun k => by
  have h := h k
  unfold Rung at h
  rw [h]
  exact ⟨rfl, rfl, rfl, rfl, rfl⟩

theorem DoorbellsOnly.findCmd {t : State} (h : DoorbellsOnly s t) (id : CmdId) : findCmd t id = findCmd s id := by
  have h := h id.ctx
  unfold Rung at h
  unfold Machine.findCmd
  rw [h]

theorem doorbellsOnly_doorbellHalf (s : State) (c : Nat) (cq : Bool) (v : W32) : DoorbellsOnly s (doorbellHalf s c cq v) := by
  unfold doorbellHalf
  dsimp only
  split
  · exact doorbellsOnly_updCtx s c (fun _ => rfl)
  · split
    · exact doorbellsOnly_updCtx s c (f := fun y => { y with rejected := y.rejected + 1 }) (fun _ => rfl)
    · split
      · exact doorbellsOnly_updCtx s c (fun _ => rfl)
      · exact doorbellsOnly_updCtx s c (fun _ => rfl)

theorem doorbellsOnly_mirrorWrite (s : State) (off : Nat) (bs : List Byte) : DoorbellsOnly s (mirrorWrite s off bs) := by
  unfold mirrorWrite
  refine foldl_rel DoorbellsOnly.refl DoorbellsOnly.trans (fun t i => ?_) _ _
  split
  · exact doorbellsOnly_doorbellHalf _ _ _ _
  · exact .refl t

theorem storeCounters_ctxs (s : State) (loc : Nat) (bs : List Byte) : (storeCounters s loc bs).ctxs = s.ctxs := by
  unfold storeCounters
  generalize List.range (bs.length / 8) = l
  induction l generalizing s with
  | nil => rfl
  | cons i l ih =>
    rw [List.foldl_cons, ih]
    split <;> rfl

theorem doorbellsOnly_storeBytes (s : State) (a : Nat) (bs : List Byte) : DoorbellsOnly s (storeBytes s a bs) := by
  unfold storeBytes
  split
  · exact .refl s
  · dsimp only
    split
    · split
      · exact .refl s
      · exact .of_ctxs (storeCounters_ctxs _ _ _)
    · exact .of_ctxs rfl
    · exact .of_ctxs rfl
    · exact doorbellsOnly_mirrorWrite _ _ _
    · exact .refl s

theorem doorbellsOnly_storeFrom (s : State) (src : Nat) (l : List (Nat × Byte)) : DoorbellsOnly s (storeFrom s src l) := by
  unfold storeFrom storeRuns
  generalize gather _ = g
  induction g generalizing s with
  | nil => exact .refl s
  | cons r g ih => exact (doorbellsOnly_storeBytes s r.1 r.2).trans (ih _)

theorem doorbellsOnly_writeSlot (s : State) (host : Bool) (a : Nat) (bs : List Byte) : DoorbellsOnly s (writeSlot s host a bs) := by
  unfold writeSlot
  split
  · exact .of_ctxs rfl
  · have h := stacksOnly_touchRange (storeBytes s a bs) a bs.length true
    refine (doorbellsOnly_storeBytes s a bs).trans (.of_ctxs ?_)
    unfold StacksOnly at h
    rw [h]

/-! ## Results that become visible -/

/-- A command whose staged results have been stored, with what the stores met. -/
def Cmd.stored (m : Cmd) (st : Option (Nat × Nat)) (t : Nat) (k : TallyAcc) : Cmd :=
  { (match st with
     | some e => m.note e.1 e.2
     | none => m) with
    tideEnd := t
    results := []
    tally := k
    opt := { m.opt with outs := [] } }

theorem stored_fields (m : Cmd) (st : Option (Nat × Nat)) (t : Nat) (k : TallyAcc) :
    (m.stored st t k).id = m.id ∧ (m.stored st t k).phase = m.phase ∧ (m.stored st t k).results = [] := by
  unfold Cmd.stored
  cases st with
  | none => exact ⟨rfl, rfl, rfl⟩
  | some e => exact ⟨by simp, by simp, rfl⟩

theorem storeResults_eq (s : State) (c : Cmd) : storeResults s c =
    (let s1 := updCmd s c.id (fun m => m.stored (touchStatus s c.berth (resultStores c)) (now s) (talliedOuts s c))
    let s2 := (resultStores c).foldl (fun t x => touchRange (countStale t c.berth x.addr x.len) x.addr x.len true) s1
    issueResults (storeFrom s2 c.berth (c.results.filter (fun e => !goesOut s e.1))) c
      (c.results.filter (fun e => goesOut s e.1))) := rfl

theorem storeResults_row {c : Cmd} (hf : findCmd s c.id = some c) : RingsStay s (storeResults s c) ∧
    ∃ e, findCmd (storeResults s c) c.id = some e ∧ e.phase = c.phase ∧ e.results = [] := by
  rw [storeResults_eq]
  dsimp only
  generalize hg : (fun m : Cmd => m.stored (touchStatus s c.berth (resultStores c)) (now s) (talliedOuts s c)) = g
  have hgf : ∀ m, (g m).id = m.id ∧ (g m).phase = m.phase ∧ (g m).results = [] := by
    subst hg
    exact fun m => stored_fields m _ _ _
  have h1 := ringsStay_updCmd s c.id (fun m => (hgf m).1)
  have c1 : findCmd (updCmd s c.id g) c.id = some (g c) := by
    rw [findCmd_updCmd_self (fun m => (hgf m).1), hf]
    rfl
  generalize updCmd s c.id g = s1 at h1 c1
  have h2 : DoorbellsOnly s1 ((resultStores c).foldl
      (fun t x => touchRange (countStale t c.berth x.addr x.len) x.addr x.len true) s1) := by
    refine foldl_rel DoorbellsOnly.refl DoorbellsOnly.trans (fun t x => ?_) _ _
    have hr := stacksOnly_touchRange (countStale t c.berth x.addr x.len) x.addr x.len true
    refine .of_ctxs ?_
    unfold StacksOnly at hr
    rw [hr, countStale_frame]
  have h3 := h2.trans (doorbellsOnly_storeFrom _ c.berth (c.results.filter (fun e => !goesOut s e.1)))
  obtain ⟨-, -, -, h4⟩ := requestsLeave_issueResults (storeFrom ((resultStores c).foldl
      (fun t x => touchRange (countStale t c.berth x.addr x.len) x.addr x.len true) s1) c.berth
      (c.results.filter (fun e => !goesOut s e.1))) c (c.results.filter (fun e => goesOut s e.1))
  obtain ⟨y, hy, p1, p2, -⟩ := h4 (g c) (by rw [h3.findCmd]; exact c1)
  exact ⟨h1.trans (h3.rings.trans (ringsStay_issueResults _ _ _)), y, hy, p1.trans (hgf c).2.1, p2.trans (hgf c).2.2⟩

/-! ## What follows an entry -/

/-- Memory stays, and every context keeps its state, its rings and the identity of its commands. -/
def Aftermath (s t : State) : Prop := t.mem = s.mem ∧ RingsStay s t

theorem Aftermath.refl (s : State) : Aftermath s s := ⟨rfl, .refl s⟩
theorem Aftermath.trans {s t u : State} (h : Aftermath s t) (g : Aftermath t u) : Aftermath s u := by
  obtain ⟨h1, h2⟩ := h
  obtain ⟨g1, g2⟩ := g
  exact ⟨g1.trans h1, h2.trans g2⟩
theorem Aftermath.of_ctxs {t : State} (hm : t.mem = s.mem) (hc : t.ctxs = s.ctxs) : Aftermath s t := ⟨hm, .of_ctxs hc⟩

/-- Only domains and their crossings change. -/
def DomainsMove (s t : State) : Prop := t = { s with domains := t.domains, crossings := t.crossings }

theorem DomainsMove.refl (s : State) : DomainsMove s s := rfl
theorem DomainsMove.trans {s t u : State} (h : DomainsMove s t) (g : DomainsMove t u) : DomainsMove s u := by
  unfold DomainsMove at *
  rw [g, h]

theorem domainsMove_parkDomain (s : State) (d : Nat) : DomainsMove s (parkDomain s d) := by
  unfold parkDomain
  refine foldl_rel DomainsMove.refl DomainsMove.trans (fun t n => ?_) _ s
  split <;> rfl

theorem domainsMove_pushDomain (s : State) (d : Nat) (st : DomState) (w : Option Route) : DomainsMove s (pushDomain s d st w) := by
  unfold pushDomain
  dsimp only
  split
  · exact .trans (t := updDomain s d (fun x => x.push st w)) rfl (domainsMove_parkDomain _ d)
  · rfl

theorem domainsMove_pushVia (s : State) (d : Nat) (st : DomState) (w : Option Route) : DomainsMove s (pushVia s d st w) := by
  unfold pushVia
  split
  · exact (domainsMove_pushDomain _ _ _ _).trans (domainsMove_pushDomain _ _ _ _)
  · exact domainsMove_pushDomain _ _ _ _

theorem domainsMove_wakeDomain (s : State) (d : Nat) : DomainsMove s (wakeDomain s d) := by
  unfold wakeDomain
  split
  · exact .refl s
  · exact domainsMove_pushDomain _ _ _ _

theorem domainsMove_beginSet (s : State) (d : Nat) (st : DomState) (r : Route) : DomainsMove s (beginSet s d st r) := by
  unfold beginSet
  split
  · dsimp only
    split
    · exact (domainsMove_pushVia _ _ _ _).trans (domainsMove_pushVia _ _ _ _)
    · exact domainsMove_pushVia _ _ _ _
  · dsimp only
    split
    · exact (domainsMove_wakeDomain _ _).trans (domainsMove_pushVia _ _ _ _)
    · exact domainsMove_pushVia _ _ _ _
  · exact domainsMove_pushVia _ _ _ _

theorem domainsMove_releaseWaiting (s : State) : DomainsMove s (releaseWaiting s) := by
  unfold releaseWaiting
  refine foldl_rel DomainsMove.refl DomainsMove.trans (fun t d => ?_) _ s
  split
  · next w _ =>
    split
    · exact .refl t
    · exact .trans (t := updDomain t d (fun x => { x with waiting := none })) rfl (domainsMove_beginSet _ _ _ _)
  · exact .refl t

/-- Only tiles, regions and tests change. -/
def TilesMove (s t : State) : Prop := t = { s with tiles := t.tiles, regions := t.regions, recovery := t.recovery }

theorem tilesMove_tileBoundary (s : State) (b v : Nat) : TilesMove s (tileBoundary s b v) := by
  unfold tileBoundary
  dsimp only
  split
  · rfl
  · split
    · rfl
    · split <;> rfl

theorem tilesMove_tileBoundaries (s : State) (b : Nat) : TilesMove s (tileBoundaries s b) := by
  unfold tileBoundaries
  refine foldl_rel (R := TilesMove) (fun _ => rfl) (fun h g => by unfold TilesMove at *; rw [g, h]) (fun t q => ?_) _ s
  split
  · split
    · exact tilesMove_tileBoundary _ _ _
    · rfl
  · rfl

theorem ringsStay_settleLimit (s : State) (c : Nat) : RingsStay s (settleLimit s c) := by
  rw [settleLimit_eq]
  refine ringsStay_updCtx s c (fun x => ?_)
  obtain ⟨f, hf, hx⟩ := settled_flight x (now s)
  rw [hx]
  exact ringStays_flight x (fun m => by rw [(hf m).1])

theorem aftermath_releaseAfter (s : State) (c : Cmd) : Aftermath s (releaseAfter s c) := by
  have h1 := domainsMove_releaseWaiting s
  have h2 := tilesMove_tileBoundaries (releaseWaiting s) c.berth
  unfold DomainsMove at h1
  unfold TilesMove at h2
  have a1 : Aftermath s (releaseWaiting s) := .of_ctxs (by rw [h1]) (by rw [h1])
  have a2 : Aftermath (releaseWaiting s) (tileBoundaries (releaseWaiting s) c.berth) := .of_ctxs (by rw [h2]) (by rw [h2])
  exact (a1.trans a2).trans ⟨rfl, ringsStay_settleLimit _ _⟩

theorem lendOf_id (s : State) (e : Nat) (c : Cmd) : (lendOf s e c).id = c.id := by
  unfold lendOf
  dsimp only
  split <;> rfl

theorem aftermath_lendBlocks (s : State) (b e : Nat) : Aftermath s (lendBlocks s b e) := by
  unfold lendBlocks
  generalize List.range 64 = l
  dsimp only
  refine foldl_rel Aftermath.refl Aftermath.trans (fun t k => ?_) l s
  exact ⟨rfl, ringsStay_updCtx t k (fun x => ringStays_flight x (mapIf_id (fun c => lendOf_id s e c)))⟩

theorem aftermath_engineBoundary (s : State) (b e : Nat) : Aftermath s (engineBoundary s b e) := by
  unfold engineBoundary
  dsimp only
  split
  · exact .refl s
  · next t _ =>
    split
    · exact .refl s
    · exact .trans (.of_ctxs (t := updEngine (startTest s t) b e (fun y => { y with rotation := .outOfRotation })) rfl rfl)
        (aftermath_lendBlocks _ b e)

theorem aftermath_residualCalibrations (s : State) (c : Cmd) : Aftermath s (residualCalibrations s c) := by
  unfold residualCalibrations
  split
  · refine foldl_rel Aftermath.refl Aftermath.trans (fun t e => ?_) _ s
    split
    · exact .trans (.of_ctxs (t := queueTest t { el := .engine c.berth e, code := 0x10, rank := 3 }) rfl rfl)
        (aftermath_engineBoundary _ _ _)
    · exact .refl t
  · exact .refl s

theorem aftermath_afterAll (s : State) (c : Cmd) : Aftermath s (settleColls (releaseAfter (residualCalibrations s c) c)) :=
  ((aftermath_residualCalibrations s c).trans (aftermath_releaseAfter _ c)).trans (.of_ctxs rfl rfl)

/-- A context whose last command has left may close. -/
theorem settleClosing_row (s : State) (k : Nat) : (settleClosing s k).mem = s.mem ∧
    (∀ id, findCmd (settleClosing s k) id = findCmd s id) ∧
    ((getCtx s k).state ≠ .closing → (getCtx (settleClosing s k) k).state = (getCtx s k).state) := by
  unfold settleClosing
  refine ⟨rfl, fun id => ?_, fun h => ?_⟩
  · unfold findCmd
    by_cases hk : id.ctx = k
    · rw [hk, getCtx_upd_self]
      split <;> rfl
    · rw [getCtx_upd_other s _ hk]
  · rw [getCtx_upd_self, if_neg (fun hc => h hc.1)]

/-! ## The entry of a ring -/

/-- Changes of engines leave memory and the contexts. -/
theorem foldEngines_keeps (b : Nat) (g : Engine → Engine) (l : List Nat) (s : State) :
    (l.foldl (fun t e => updEngine t b e g) s).mem = s.mem ∧ (l.foldl (fun t e => updEngine t b e g) s).ctxs = s.ctxs := by
  induction l generalizing s with
  | nil => exact ⟨rfl, rfl⟩
  | cons e l ih => exact ih (updEngine s b e g)

theorem dropCmd_frame (s : State) (c : Cmd) : (dropCmd s c).mem = s.mem ∧ (dropCmd s c).ctxs =
    (updCtx s c.id.ctx (fun x => { x with flight := x.flight.filter (fun m => decide (m.id ≠ c.id)) })).ctxs := by
  unfold dropCmd
  exact foldEngines_keeps c.berth _ c.engines _

theorem getCtx_dropCmd (s : State) (c : Cmd) : getCtx (dropCmd s c) c.id.ctx =
    { getCtx s c.id.ctx with flight := (getCtx s c.id.ctx).flight.filter (fun m => decide (m.id ≠ c.id)) } := by
  obtain ⟨-, h⟩ := dropCmd_frame s c
  unfold getCtx
  rw [h]
  exact getCtx_upd_self s c.id.ctx (fun x => { x with flight := x.flight.filter (fun m => decide (m.id ≠ c.id)) })

theorem dropCmd_gone (s : State) (c : Cmd) : findCmd (dropCmd s c) c.id = none := by
  rw [findCmd_none_iff, getCtx_dropCmd]
  simp

theorem completed_frame (s : State) {c : Cmd} (h : writesTally c.tally = false) :
    completed s c = { c with tideEnd := (completed s c).tideEnd } := by
  have ht : c.tallied = c := by simp [Cmd.tallied, h]
  unfold completed
  dsimp only
  rw [ht]
  split <;> rfl

/-- The command's own entry, in its slot. -/
def entryStore (s : State) (c : Cmd) : State :=
  writeSlot s (bitAt (getCtx s c.id.ctx).place 1) (cqSlot (getCtx s c.id.ctx) c.id.seq)
    (bytesLE 32 (completionEntry c (2 ^ (getCtx s c.id.ctx).log2S)))

theorem writeEntry_writes {c : Cmd} (hl : c.slotLost = false) (ht : writesTally c.tally = false)
    (hk : slotOk s c.id.ctx (bitAt (getCtx s c.id.ctx).place 1) .store (cqSlot (getCtx s c.id.ctx) c.id.seq) 32 = true) :
    writeEntry s c = afterEntry (updCtx (entryStore s c) c.id.ctx (fun y => y.wrote c.id.seq)) c := by
  unfold writeEntry
  simp only [hl, ht, hk]
  rfl

theorem writeEntry_stops {c : Cmd} (hl : c.slotLost = false) (ht : writesTally c.tally = false)
    (hk : slotOk s c.id.ctx (bitAt (getCtx s c.id.ctx).place 1) .store (cqSlot (getCtx s c.id.ctx) c.id.seq) 32 = false) :
    writeEntry s c = stopContext s c.id.ctx (cqSlot (getCtx s c.id.ctx) c.id.seq) := by
  unfold writeEntry
  simp only [hl, ht, hk]
  rfl

theorem statusWritten_iff (st : Nat) : statusWritten st = true ↔ st ∈ [S_OK, S_OK_FLAGGED, S_BUDGET, S_DEGRADED] := by
  simp [statusWritten, or_assoc]

/-- After an entry the counter of DONE_INC rises when the status says that the data is written, and an interrupt may go out. -/
theorem afterEntry_row (s : State) (c : Cmd) : (afterEntry s c).mem.cells = s.mem.cells ∧ (afterEntry s c).mem.host = s.mem.host ∧
    (afterEntry s c).ctxs = s.ctxs ∧ ∀ b i, getCounter (afterEntry s c) b i = getCounter s b i +
      (if hDoneInc c.packet = true ∧ c.status ∈ [S_OK, S_OK_FLAGGED, S_BUDGET, S_DEGRADED] ∧
        counterKey b i = counterKey c.berth (hDoneCnt c.packet) then 1 else 0) := by
  have hd : ∀ u, u = (if hDoneInc c.packet && statusWritten c.status then updCounter s c.berth (hDoneCnt c.packet) (· + 1) else s) →
      u.mem.cells = s.mem.cells ∧ u.mem.host = s.mem.host ∧ u.ctxs = s.ctxs ∧ ∀ b i, getCounter u b i = getCounter s b i +
        (if hDoneInc c.packet = true ∧ c.status ∈ [S_OK, S_OK_FLAGGED, S_BUDGET, S_DEGRADED] ∧
          counterKey b i = counterKey c.berth (hDoneCnt c.packet) then 1 else 0) := by
    rintro u rfl
    split
    · next h =>
      rw [Bool.and_eq_true, statusWritten_iff] at h
      refine ⟨rfl, rfl, rfl, fun b i => ?_⟩
      rw [getCounter_updCounter]
      by_cases hk : counterKey b i = counterKey c.berth (hDoneCnt c.packet)
      · rw [if_pos hk, if_pos ⟨h.1, h.2, hk⟩]
        unfold getCounter
        rw [hk]
      · rw [if_neg hk, if_neg (fun hc => hk hc.2.2)]
        exact (BitVec.add_zero _).symm
    · next h =>
      rw [Bool.and_eq_true, statusWritten_iff] at h
      refine ⟨rfl, rfl, rfl, fun b i => ?_⟩
      rw [if_neg (fun hc => h ⟨hc.1, hc.2.1⟩)]
      exact (BitVec.add_zero _).symm
  obtain ⟨d1, d2, d3, d4⟩ := hd _ rfl
  unfold afterEntry
  dsimp only
  split
  · rw [msix_frame]
    exact ⟨d1, d2, d3, d4⟩
  · exact ⟨d1, d2, d3, d4⟩

theorem completeCmd_ring {c d : Cmd} (hd : d = completed s c) (hn : d.id.node = none) : completeCmd s c =
    settleClosing (settleColls (releaseAfter (residualCalibrations (writeEntry (dropCmd s d) d) d) d)) d.id.ctx := by
  subst hd
  unfold completeCmd
  dsimp only
  rw [hn]

/-- The context of a command that leaves keeps its completion ring. -/
theorem dropCmd_slot {d : Cmd} : bitAt (getCtx (dropCmd s d) d.id.ctx).place 1 = bitAt (getCtx s d.id.ctx).place 1 ∧
    cqSlot (getCtx (dropCmd s d) d.id.ctx) d.id.seq = cqSlot (getCtx s d.id.ctx) d.id.seq ∧
    (getCtx (dropCmd s d) d.id.ctx).log2S = (getCtx s d.id.ctx).log2S := by
  rw [getCtx_dropCmd]
  exact ⟨rfl, rfl, rfl⟩

/-- A command whose slot can be written: its entry, the counter of DONE_INC, and it has left. -/
theorem completeCmd_writes {c d : Cmd} {w : State} (hd : d = completed s c) (hn : d.id.node = none) (hl : d.slotLost = false)
    (ht : writesTally d.tally = false)
    (hk : slotOk (dropCmd s d) d.id.ctx (bitAt (getCtx s d.id.ctx).place 1) .store (cqSlot (getCtx s d.id.ctx) d.id.seq) 32 = true)
    (hw : w = writeSlot (dropCmd s d) (bitAt (getCtx s d.id.ctx).place 1) (cqSlot (getCtx s d.id.ctx) d.id.seq)
      (bytesLE 32 (completionEntry d (2 ^ (getCtx s d.id.ctx).log2S)))) :
    findCmd (completeCmd s c) d.id = none ∧ (completeCmd s c).mem.cells = w.mem.cells ∧
      (completeCmd s c).mem.host = w.mem.host ∧ ∀ b i, getCounter (completeCmd s c) b i = getCounter w b i +
        (if hDoneInc d.packet = true ∧ d.status ∈ [S_OK, S_OK_FLAGGED, S_BUDGET, S_DEGRADED] ∧
          counterKey b i = counterKey d.berth (hDoneCnt d.packet) then 1 else 0) := by
  obtain ⟨p1, p2, p3⟩ := dropCmd_slot (s := s) (d := d)
  have hes : entryStore (dropCmd s d) d = w := by rw [hw, entryStore, p1, p2, p3]
  have hwe := writeEntry_writes hl ht (s := dropCmd s d) (by rw [p1, p2]; exact hk)
  rw [hes] at hwe
  obtain ⟨a1, a2, a3, a4⟩ := afterEntry_row (updCtx w d.id.ctx (fun y => y.wrote d.id.seq)) d
  have hr : RingsStay (dropCmd s d) (writeEntry (dropCmd s d) d) := by
    rw [hwe]
    have hb : RingsStay (dropCmd s d) w := by rw [hw]; exact (doorbellsOnly_writeSlot _ _ _ _).rings
    exact (hb.trans (ringsStay_updCtx w d.id.ctx (f := fun y => y.wrote d.id.seq) (fun _ => ⟨rfl, rfl, rfl, rfl, rfl⟩))).trans (.of_ctxs a3)
  obtain ⟨m1, m2⟩ := aftermath_afterAll (writeEntry (dropCmd s d) d) d
  obtain ⟨s1, s2, -⟩ := settleClosing_row
    (settleColls (releaseAfter (residualCalibrations (writeEntry (dropCmd s d) d) d) d)) d.id.ctx
  rw [← completeCmd_ring hd hn] at s1 s2
  have hmem : (completeCmd s c).mem = (afterEntry (updCtx w d.id.ctx (fun y => y.wrote d.id.seq)) d).mem := by
    rw [s1, m1, hwe]
  refine ⟨?_, by rw [hmem]; exact a1, by rw [hmem]; exact a2, fun b i => ?_⟩
  · rw [s2]
    exact (hr.trans m2).findCmd_none (dropCmd_gone s d)
  · have := a4 b i
    unfold getCounter at this ⊢
    rw [hmem]
    exact this

/-- A command whose slot cannot be written: its context stops, and it has left. -/
theorem completeCmd_stops {c d : Cmd} (hd : d = completed s c) (hn : d.id.node = none) (hl : d.slotLost = false)
    (ht : writesTally d.tally = false) (ho : (getCtx s d.id.ctx).state = .opened)
    (hk : slotOk (dropCmd s d) d.id.ctx (bitAt (getCtx s d.id.ctx).place 1) .store (cqSlot (getCtx s d.id.ctx) d.id.seq) 32 = false) :
    findCmd (completeCmd s c) d.id = none ∧ (getCtx (completeCmd s c) d.id.ctx).state = .stopped ∧
      (completeCmd s c).mem = s.mem := by
  obtain ⟨p1, p2, -⟩ := dropCmd_slot (s := s) (d := d)
  have hwe := writeEntry_stops hl ht (s := dropCmd s d) (by rw [p1, p2]; exact hk)
  have hop : (getCtx (dropCmd s d) d.id.ctx).state = .opened := by rw [getCtx_dropCmd]; exact ho
  obtain ⟨v, ⟨v1, -, v3⟩, hv4, -⟩ := stopContext_open (cqSlot (getCtx (dropCmd s d) d.id.ctx) d.id.seq) rfl hop
  rw [← hwe] at hv4
  have hcx : getCtx (writeEntry (dropCmd s d) d) d.id.ctx = { getCtx (dropCmd s d) d.id.ctx with state := .stopped } := by
    rw [hv4]
    exact v3
  have hgone : findCmd (writeEntry (dropCmd s d) d) d.id = none := by
    have := dropCmd_gone s d
    unfold findCmd at this ⊢
    rw [hcx]
    exact this
  obtain ⟨m1, m2⟩ := aftermath_afterAll (writeEntry (dropCmd s d) d) d
  obtain ⟨s1, s2, s3⟩ := settleClosing_row
    (settleColls (releaseAfter (residualCalibrations (writeEntry (dropCmd s d) d) d) d)) d.id.ctx
  rw [← completeCmd_ring hd hn] at s1 s2 s3
  obtain ⟨hst, -⟩ := m2 d.id.ctx
  rw [hcx] at hst
  refine ⟨?_, ?_, ?_⟩
  · rw [s2]
    exact m2.findCmd_none hgone
  · rw [s3 (fun h => CtxState.noConfusion (hst.symm.trans h))]
    exact hst
  · rw [s1, m1, hv4, v1]
    exact (dropCmd_frame s d).1

/-! ## The row -/

theorem readyToComplete_open {c : Cmd} (h : requestsOpen s c.id = true) : readyToComplete s c = false := by
  simp [readyToComplete, h]

theorem readyToComplete_finished {c : Cmd} (hp : c.phase = .finished) (hr : requestsOpen s c.id = false)
    (hn : nodesInFlight s c.id = false) (ht : c.tug.begun.any (chunkAcked s c) = false) : readyToComplete s c = true := by
  simp [readyToComplete, hp, hr, hn, ht]

/-- The row of a ring's command, through the state in which its results are visible. -/
theorem commandCompletion_ring {id : CmdId} {c e : Cmd} {u : State} (hc : hasCtx s id.ctx = true) (hf : findCmd s id = some c)
    (hr : readyToComplete s c = true) (hu : landResults s c = u) (he : findCmd u id = some e) (hl : landed e = true)
    (hre : readyToComplete u e = true) (hw : entryWaits u (completed u e) = false) :
    exec (.commandCompletion (.ring id)) s = .next (completeCmd u e) := by
  refine guarded_next.mpr ⟨hc, ?_⟩
  simp only [hf, hr, hu, he, hl, hre, hw]
  rfl

theorem commandCompletion_waits {id : CmdId} {c : Cmd} (hc : hasCtx s id.ctx = true) (hf : findCmd s id = some c)
    (hr : readyToComplete s c = false) : exec (.commandCompletion (.ring id)) s = .next s := by
  refine guarded_next.mpr ⟨hc, ?_⟩
  simp only [hf, hr]
  rfl

/-- A mailbox whose request has been answered. -/
def Mailbox.replied (m : Mailbox) (r : MbxResult) : Mailbox :=
  { m with
    pending := false
    replyValid := true
    replyTag := m.goTag
    detail := r.detail
    status := r.status
    data := padTo 40 r.data
    accepted := false
    result := none
    journal := 0 }

theorem completeMailbox_eq {fn : Nat} {m : Mailbox} {r : MbxResult} (hm : m = getMbx s fn) (hr : m.result = some r)
    (hp : m.pending = true) : completeMailbox s fn =
      if m.goIrq = true ∧ m.goVector < vectorCount fn then msix (updMbx s fn (fun x => x.replied r)) fn m.goVector
      else updMbx s fn (fun x => x.replied r) := by
  subst hm
  unfold completeMailbox
  dsimp only
  rw [hr]
  simp only [hp, Bool.and_eq_true, decide_eq_true_eq]
  rfl

/-- Settles O33: the mailbox's reply, then the entry of a ring from the state in which the results are visible. -/
theorem completionsAreWritten : Obligations.CompletionsAreWritten := by
  unfold Obligations.CompletionsAreWritten
  refine ⟨fun s fn m r hfn hm hr hp => ?_, fun s id c x d hc hf hn hp hx hd => ⟨fun ho => ?_, ?_, ?_⟩⟩
  · refine ⟨updMbx s fn (fun x => x.replied r), guarded_next.mpr ⟨hfn, completeMailbox_eq hm hr hp⟩, rfl,
      fun k hk => getMbx_upd_other s _ hk, ?_⟩
    rw [getMbx_upd_self, ← hm]
    rfl
  · have hid := findCmd_id hf
    exact commandCompletion_waits hc hf (readyToComplete_open (by rw [hid]; exact ho))
  · intro ho hnf hres htl hsl htug hw
    have hid := findCmd_id hf
    have hfr := completed_frame s htl
    rw [← hd] at hfr
    have hdid : d.id = id := by rw [hfr]; exact hid
    have hdn : d.id.node = none := by rw [hdid]; exact hn
    have hdl : d.slotLost = false := by rw [hfr]; exact hsl
    have hdt : writesTally d.tally = false := by rw [hfr]; exact htl
    have hready : readyToComplete s c = true :=
      readyToComplete_finished hp (by rw [hid]; exact ho) (by rw [hid]; exact hnf) htug
    have hland : landResults s c = s := by simp [landResults, hres]
    have row := commandCompletion_ring hc hf hready hland hf (by simp [landed, hres]) hready (by rw [← hd]; exact hw)
    subst hx
    refine ⟨fun w hk hww => ?_, fun hk hop => ?_⟩
    · have h := completeCmd_writes (w := w) hd hdn hdl hdt (by rw [hdid]; exact hk) (by rw [hdid]; exact hww)
      rw [hdid] at h
      have hpk : d.packet = c.packet ∧ d.berth = c.berth := by rw [hfr]; exact ⟨rfl, rfl⟩
      rw [hpk.1, hpk.2] at h
      exact ⟨_, row, h⟩
    · have h := completeCmd_stops hd hdn hdl hdt (by rw [hdid]; exact hop) (by rw [hdid]; exact hk)
      rw [hdid] at h
      exact ⟨_, row, h⟩
  · intro u e w ho hnf hres htug hreach hu he hou hue hte hse hwe hk hww
    have hid := findCmd_id hf
    have hide := findCmd_id he
    obtain ⟨hrings, e', hfe, hph, hre⟩ := storeResults_row (s := s) (c := c) (by rw [hid]; exact hf)
    rw [hid, ← hu, he] at hfe
    obtain rfl : e = e' := Option.some.inj hfe
    rw [← hu] at hrings
    have hready : readyToComplete s c = true :=
      readyToComplete_finished hp (by rw [hid]; exact ho) (by rw [hid]; exact hnf) htug
    have hreadyU : readyToComplete u e = true :=
      readyToComplete_finished (hph.trans hp) (by rw [hide]; exact hou)
        (by rw [hide, hrings.nodesInFlight]; exact hnf) hue
    have hland : landResults s c = u := by
      rw [landResults, if_pos ⟨hp, hres⟩, awake_of_reachable hreach, hu]
    have row := commandCompletion_ring hc hf hready hland he (by simp [landed, hre]) hreadyU hwe
    have hfr := completed_frame u hte
    have hdid : (completed u e).id = id := by rw [hfr]; exact hide
    obtain ⟨-, hpl, hcq, hls, -⟩ := hrings id.ctx
    have hslot : cqSlot (getCtx u id.ctx) id.seq = cqSlot x id.seq := by rw [hx]; unfold cqSlot; rw [hcq, hls]
    have h := completeCmd_writes (s := u) (c := e) (w := w) rfl (by rw [hdid]; exact hn) (by rw [hfr]; exact hse)
      (by rw [hfr]; exact hte) (by rw [hdid, hslot, hpl, ← hx]; exact hk) (by rw [hdid, hslot, hpl, hls, ← hx]; exact hww)
    rw [hdid] at h
    obtain ⟨h1, h2, h3, -⟩ := h
    exact ⟨_, row, h1, h2, h3⟩

end Sys2Proof.Machine
end

section
/-! SUPPORT. Requests at their target: what lets one go on, the answer that leaves, and what a store or an atomic writes. -/

namespace Sys2Proof.Machine

variable {s : State}

/-! ## Bytes -/

theorem bytesLE_length (n x : Nat) : (bytesLE n x).length = n := by
  induction n generalizing x with
  | zero => rfl
  | succ n ih => rw [bytesLE, List.length_cons, ih]

/-- The bytes of the number that bytes spell are those bytes (R10). -/
theorem bytesLE_leNat (l : List Byte) : bytesLE l.length (leNat l) = l := by
  induction l with
  | nil => rfl
  | cons b l ih =>
    have hb : b.toNat < 256 := b.isLt
    have hhead : BitVec.ofNat 8 (b.toNat + 256 * leNat l) = b := by
      apply BitVec.eq_of_toNat_eq
      rw [BitVec.toNat_ofNat]
      omega
    have htail : (b.toNat + 256 * leNat l) / 256 = leNat l := by omega
    rw [List.length_cons, leNat, bytesLE, hhead, htail, ih]

theorem sliceBytes_length (l : List Byte) (off n : Nat) : (sliceBytes l off n).length = n := by
  simp only [sliceBytes, List.length_append, List.length_replicate, List.length_take]
  omega

theorem sliceBytes_whole {l : List Byte} {n : Nat} (h : l.length = n) : sliceBytes l 0 n = l := by
  simp [sliceBytes, ← h]

theorem placeBytes_length (s : State) (a n : Nat) : (placeBytes s a n).length = n := by simp [placeBytes]

theorem layAt_cons (a : Nat) (b : Byte) (bs : List Byte) : layAt a (b :: bs) = (a, b) :: layAt (a + 1) bs := by
  simp [layAt, List.zipIdx_succ, Nat.add_assoc, Nat.add_comm 1]

/-- A table after some of a run of bytes were written. -/
theorem tabGet_layAt_filter (p : Nat → Bool) (t : List Host.Cell) (a x : Nat) (bs : List Byte) :
    tabGet 0#8 (((layAt a bs).filter (fun e => p e.1)).foldl (fun t c => tabSet 0#8 t c.1 c.2) t) x =
      if a ≤ x ∧ x < a + bs.length ∧ p x = true then bs.getD (x - a) 0#8 else tabGet 0#8 t x := by
  induction bs generalizing t a with
  | nil => simp [layAt]; omega
  | cons b bs ih =>
    rw [layAt_cons, List.filter_cons, List.length_cons]
    by_cases hx : x = a
    · subst hx
      have hout : ¬(x + 1 ≤ x ∧ x < x + 1 + bs.length ∧ p x = true) := by omega
      by_cases hp : p x = true
      · rw [if_pos hp, List.foldl_cons, ih, if_neg hout, tabGet_set_self, if_pos ⟨le_refl _, by omega, hp⟩, Nat.sub_self,
          List.getD_cons_zero]
      · rw [if_neg hp, ih, if_neg hout, if_neg (fun h => hp h.2.2)]
    · have hput : tabGet 0#8 (tabSet 0#8 t a b) x = tabGet 0#8 t x := tabGet_set_other b t hx
      have hstep (l : List (Nat × Byte)) : l.foldl (fun t c => tabSet 0#8 t c.1 c.2) (if p a = true then tabSet 0#8 t a b else t) =
          (if p a = true then (a, b) :: l else l).foldl (fun t c => tabSet 0#8 t c.1 c.2) t := by
        split <;> rfl
      have hold : tabGet 0#8 (if p a = true then tabSet 0#8 t a b else t) x = tabGet 0#8 t x := by
        split
        · exact hput
        · rfl
      rw [← hstep, ih, hold]
      by_cases hin : a + 1 ≤ x ∧ x < a + 1 + bs.length ∧ p x = true
      · have hsub : x - a = (x - (a + 1)) + 1 := by omega
        rw [if_pos hin, if_pos ⟨by omega, by omega, hin.2.2⟩, hsub, List.getD_cons_succ]
      · rw [if_neg hin, if_neg (fun h => hin ⟨by omega, by omega, h.2.2⟩)]

/-- Memory after a masked store (R323). -/
theorem readByte_maskedBytes (s : State) (r : WireReq) (x : Nat) : readByte (writeCells s (maskedBytes r)) x =
    if addrLocal r.addr ≤ x ∧ x < addrLocal r.addr + r.data.length ∧ r.mask.getLsbD (x - addrLocal r.addr) = true then
      r.data.getD (x - addrLocal r.addr) 0#8 else readByte s x :=
  tabGet_layAt_filter (fun k => r.mask.getLsbD (k - addrLocal r.addr)) s.mem.cells (addrLocal r.addr) x r.data

/-! ## A request that goes on -/

/-- The state that a request finds once it has left the queue: only waiting requests, counts of router outputs and the rows last
served are others. -/
def Passed (s u : State) : Prop := (∃ q k, u = { s with reqs := q, stackTab := k }) ∧
  ∀ n, (getStack u n).stoppedHeat = (getStack s n).stoppedHeat ∧ (getStack u n).stoppedRail = (getStack s n).stoppedRail

theorem passed_unpark (s : State) (r : WireReq) : Passed s (unpark s r) := ⟨⟨_, _, rfl⟩, fun _ => ⟨rfl, rfl⟩⟩

theorem Passed.countPri {u : State} (h : Passed s u) (r : WireReq) : Passed s (countPri u r) := by
  obtain ⟨⟨q, k, rfl⟩, hk⟩ := h
  unfold Machine.countPri
  split
  · exact ⟨⟨_, _, rfl⟩, hk⟩
  · exact ⟨⟨_, _, rfl⟩, hk⟩

theorem Passed.updStack {u : State} (h : Passed s u) (n : Nat) {f : Stack → Stack}
    (hf : ∀ x, (f x).stoppedHeat = x.stoppedHeat ∧ (f x).stoppedRail = x.stoppedRail) : Passed s (updStack u n f) := by
  obtain ⟨⟨q, k, hu⟩, hk⟩ := h
  refine ⟨⟨q, (Machine.updStack u n f).stackTab, by rw [hu]; rfl⟩, fun j => ?_⟩
  by_cases hj : j = n
  · subst hj
    rw [getStack_upd_self]
    exact ⟨(hf _).1.trans (hk j).1, (hf _).2.trans (hk j).2⟩
  · rw [getStack_upd_other _ _ hj]
    exact hk j

theorem Passed.countRow {u : State} (h : Passed s u) (r : WireReq) : Passed s (countRow u r) := by
  unfold Machine.countRow
  split
  · exact h.updStack _ (fun x => by split <;> exact ⟨rfl, rfl⟩)
  · exact h

/-- A request whose turn it is finds this state. -/
theorem passed_countSlot (s : State) (r : WireReq) : Passed s (countSlot (unpark s r) r) :=
  ((passed_unpark s r).countPri r).countRow r

theorem Passed.siteDown {u : State} (h : Passed s u) (k : Nat) : siteDown u k = siteDown s k := by
  obtain ⟨⟨q, l, rfl⟩, hk⟩ := h
  have hsilent : siteSilent { s with reqs := q, stackTab := l } k = siteSilent s k := by
    unfold siteSilent
    split
    next n _ => rw [(hk n).1, (hk n).2]
    next => rfl
  unfold Machine.siteDown
  rw [hsilent]
  rfl

/-- What an access meets at its place is the same for a request that goes on. -/
theorem Passed.accessStatus {u : State} (h : Passed s u) (k : AccessKind) (loc : Nat) :
    accessStatus u k loc = accessStatus s k loc := by
  have hd := h.siteDown
  obtain ⟨⟨q, l, rfl⟩, -⟩ := h
  unfold Machine.accessStatus
  dsimp only
  rw [hd]
  rfl

theorem Passed.ingressAdmits {u : State} (h : Passed s u) (r : WireReq) : ingressAdmits u r = ingressAdmits s r := by
  obtain ⟨⟨q, l, rfl⟩, -⟩ := h; rfl
theorem Passed.getSite {u : State} (h : Passed s u) (k : Nat) : getSite u k = getSite s k := by
  obtain ⟨⟨q, l, rfl⟩, -⟩ := h; rfl
theorem Passed.servingSite {u : State} (h : Passed s u) (loc : Nat) : servingSite u loc = servingSite s loc := by
  obtain ⟨⟨q, l, rfl⟩, -⟩ := h; rfl
theorem Passed.maskPoison {u : State} (h : Passed s u) (r : WireReq) : maskPoison u r = maskPoison s r := by
  obtain ⟨⟨q, l, rfl⟩, -⟩ := h; rfl
theorem Passed.poisonMet {u : State} (h : Passed s u) (k : AccessKind) (lo n : Nat) : poisonMet u k lo n = poisonMet s k lo n := by
  obtain ⟨⟨q, l, rfl⟩, -⟩ := h; rfl
theorem Passed.placeBytes {u : State} (h : Passed s u) (a n : Nat) : placeBytes u a n = placeBytes s a n := by
  obtain ⟨⟨q, l, rfl⟩, -⟩ := h; rfl
theorem Passed.ownPos {u : State} (h : Passed s u) : ownPos u = ownPos s := by
  obtain ⟨⟨q, l, rfl⟩, -⟩ := h; rfl

/-! ## Status -/

/-- An own or admitted request with an old epoch is refused (R25). -/
theorem targetStatus_stale {r : WireReq} (hi : r.srcPos = ownPos s ∨ ingressAdmits s r = true) (hb : r.bar2 = none)
    (he : r.epoch ≠ (getSite s (servingSite s (addrLocal r.addr))).epoch) : targetStatus s r = some S_STALE_ROLE := by
  unfold targetStatus
  dsimp only
  rw [if_neg (by rintro ⟨h1, -, h2⟩; rcases hi with h | h <;> simp_all), if_pos ⟨hb, he⟩]

/-- One with the current epoch that meets nothing at its place and no poison is performed. -/
theorem targetStatus_none {r : WireReq} (hi : r.srcPos = ownPos s ∨ ingressAdmits s r = true)
    (he : r.epoch = (getSite s (servingSite s (addrLocal r.addr))).epoch)
    (ha : accessStatus s (reqAccess r.kind) (addrLocal r.addr) = none) (hp : r.kind = .store → maskPoison s r = false)
    (hq : r.kind ≠ .store → poisonMet s (reqAccess r.kind) (addrLocal r.addr) r.size = false) : targetStatus s r = none := by
  unfold targetStatus
  dsimp only
  rw [if_neg (by rintro ⟨h1, -, h2⟩; rcases hi with h | h <;> simp_all), if_neg (fun h => h.2 he), ha]
  refine if_neg ?_
  rw [Bool.not_eq_true]
  split
  next hk => exact hp hk
  next hk => exact hq hk

/-! ## The answer -/

/-- The answer to a request (R331, R339, Table 05-4). -/
def answerOf (r : WireReq) (o : ServeObs) (st : Nat) (data : List Byte) : OutMsg :=
  .response ⟨wireTag r.tag, r.gen, st, swelled r o, data, r.srcPos, r.srcSite, r.pri⟩

theorem wakeLanes_pairs (s : State) (a b : Nat) : wakeLanes s a b = { s with pairs := (wakeLanes s a b).pairs } := by
  unfold wakeLanes; split <;> rfl

theorem markAnswered_reqs (s : State) (r : WireReq) : markAnswered s r = { s with reqs := (markAnswered s r).reqs } := by
  unfold markAnswered; split <;> rfl

theorem answerBy_sends (s : State) (r : WireReq) (m : OutMsg) :
    answerBy r s m = { s with sent := s.sent ++ [m], harbour := (answerBy r s m).harbour } := by
  unfold answerBy; split <;> rfl

/-- An answer is one more message; tracked requests, lanes and links besides. -/
theorem respond_sends (s : State) (r : WireReq) (o : ServeObs) (st : Nat) (data : List Byte) :
    ∃ q p h, respond s r o st data =
      { s with reqs := q, pairs := p, harbour := h, sent := s.sent ++ [answerOf r o st data] } := by
  have hsends : ∀ a b, ∃ q p h, answerBy r (markAnswered (wakeLanes s a b) r) (answerOf r o st data) =
      { s with reqs := q, pairs := p, harbour := h, sent := s.sent ++ [answerOf r o st data] } := fun a b => by
    rw [answerBy_sends, markAnswered_reqs, wakeLanes_pairs]
    exact ⟨_, _, _, rfl⟩
  unfold respond
  dsimp only
  split
  · exact hsends _ _
  · exact hsends _ _

/-- What the state after an answer shows of the state before it. -/
theorem respond_row (s : State) (r : WireReq) (o : ServeObs) (st : Nat) (data : List Byte) :
    (respond s r o st data).sent = s.sent ++ [answerOf r o st data] ∧ (respond s r o st data).mem = s.mem ∧
    (respond s r o st data).faults = s.faults ∧ (respond s r o st data).sites = s.sites ∧
    (respond s r o st data).ctxs = s.ctxs := by
  obtain ⟨q, p, h, e⟩ := respond_sends s r o st data
  rw [e]
  exact ⟨rfl, rfl, rfl, rfl, rfl⟩

/-! ## What a store or an atomic writes -/

theorem doorbellHalf_quiet (s : State) (c : Nat) (cq : Bool) (v : W32) :
    (doorbellHalf s c cq v).mem = s.mem ∧ (doorbellHalf s c cq v).sent = s.sent := by
  unfold doorbellHalf
  dsimp only
  (repeat' split) <;> exact ⟨rfl, rfl⟩

/-- A write to the mirror changes no memory and sends nothing (R504). -/
theorem mirrorWrite_quiet (s : State) (off : Nat) (bs : List Byte) :
    (mirrorWrite s off bs).mem = s.mem ∧ (mirrorWrite s off bs).sent = s.sent := by
  unfold mirrorWrite
  refine foldl_rel (R := fun a b => b.mem = a.mem ∧ b.sent = a.sent) (fun _ => ⟨rfl, rfl⟩)
    (fun h g => ⟨g.1.trans h.1, g.2.trans h.2⟩) (fun t i => ?_) _ s
  split
  · exact doorbellHalf_quiet _ _ _ _
  · exact ⟨rfl, rfl⟩

/-- Only counters change. -/
def CountersOnly (s t : State) : Prop := t = { s with mem := { s.mem with counters := t.mem.counters } }

theorem countersOnly_storeCounters (s : State) (loc : Nat) (bs : List Byte) : CountersOnly s (storeCounters s loc bs) := by
  unfold storeCounters
  refine foldl_rel (R := CountersOnly) (fun _ => rfl) (fun h g => ?_) (fun t i => ?_) _ s
  · unfold CountersOnly at *
    rw [g, h]
  · split <;> rfl

/-- The 8 bytes of one counter (R336). -/
theorem storeCounters_one {loc b j : Nat} {bs : List Byte} (hl : bs.length = 8) (hp : placeOf s.ident.part loc = .counter b j) :
    storeCounters s loc bs = updCounter s b j (fun _ => BitVec.ofNat 64 (leNat bs)) := by
  unfold storeCounters
  rw [hl, show List.range (8 / 8) = [0] from rfl, List.foldl_cons, List.foldl_nil, Nat.mul_zero, Nat.add_zero, hp,
    sliceBytes_whole hl]

/-- Only the poison of words and sectors changes. -/
def PoisonOnly (s t : State) : Prop :=
  t = { s with mem := { s.mem with poison := t.mem.poison, poisonWord := t.mem.poisonWord } }

theorem PoisonOnly.trans {s t u : State} (h : PoisonOnly s t) (g : PoisonOnly t u) : PoisonOnly s u := by
  unfold PoisonOnly at *; rw [g, h]

/-- A store to DRAM or a tile writes its masked bytes; poison and row buffers besides (R145, R248, R253). -/
theorem performStore_memory {r : WireReq} (hp : (∃ b, placeOf s.ident.part (addrLocal r.addr) = .dram b) ∨
      ∃ b v f, placeOf s.ident.part (addrLocal r.addr) = .tile b v f) :
    ∃ k, PoisonOnly { writeCells s (maskedBytes r) with stackTab := k } (performStore s r) := by
  rcases hp with ⟨b, hp⟩ | ⟨b, v, f, hp⟩
  · have ht := stacksOnly_touchDram (writeCells s (maskedBytes r)) (addrLocal r.addr) true
    refine ⟨(touchDram (writeCells s (maskedBytes r)) (addrLocal r.addr) true).stackTab, ?_⟩
    rw [← show _ = _ from ht]
    unfold performStore
    simp only [hp]
    split <;> rfl
  · refine ⟨s.stackTab, ?_⟩
    unfold performStore
    simp only [hp]
    refine foldl_rel (R := PoisonOnly) (fun _ => rfl) PoisonOnly.trans (fun t i => ?_) _ _
    split <;> rfl

theorem performStore_counter {r : WireReq} {b i g n : Nat} (hp : placeOf s.ident.part (addrLocal r.addr) = .counter b i)
    (hm : maskGroup r.mask = some (g, n)) :
    performStore s r = storeCounters s (addrLocal r.addr + g) (sliceBytes r.data g n) := by
  simp [performStore, hp, hm]

/-- A store sends nothing, writes nothing to the host, and outside the mirror raises no fault. -/
theorem performStore_quiet (s : State) (r : WireReq) :
    (performStore s r).sent = s.sent ∧ (performStore s r).mem.host = s.mem.host ∧
    ((∀ off, placeOf s.ident.part (addrLocal r.addr) ≠ .mirror off) →
      (performStore s r).faults = s.faults ∧ (performStore s r).sites = s.sites ∧ (performStore s r).ctxs = s.ctxs) := by
  cases hp : placeOf s.ident.part (addrLocal r.addr) with
  | dram b =>
    obtain ⟨k, h⟩ := performStore_memory (s := s) (r := r) (.inl ⟨b, hp⟩)
    rw [h]; exact ⟨rfl, rfl, fun _ => ⟨rfl, rfl, rfl⟩⟩
  | tile b v f =>
    obtain ⟨k, h⟩ := performStore_memory (s := s) (r := r) (.inr ⟨b, v, f, hp⟩)
    rw [h]; exact ⟨rfl, rfl, fun _ => ⟨rfl, rfl, rfl⟩⟩
  | counter b i =>
    cases hm : maskGroup r.mask with
    | none => simp [performStore, hp, hm]
    | some g =>
      rw [performStore_counter hp hm, countersOnly_storeCounters]
      exact ⟨rfl, rfl, fun _ => ⟨rfl, rfl, rfl⟩⟩
  | mirror off =>
    cases hm : maskGroup r.mask with
    | none => simp [performStore, hp, hm]
    | some g =>
      obtain ⟨h1, h2⟩ := mirrorWrite_quiet s (off + g.1) (sliceBytes r.data g.1 g.2)
      have he : performStore s r = mirrorWrite s (off + g.1) (sliceBytes r.data g.1 g.2) := by simp [performStore, hp, hm]
      rw [he, h1]
      exact ⟨h2, rfl, fun h => absurd rfl (h off)⟩
  | _ => simp [performStore, hp]

/-- The value that an atomic leaves (R325, Table 10-7). -/
def atomicValue (s : State) (r : WireReq) : Nat := atomicNew r.aop r.size (atomicOld s r) r.opP.toNat r.opQ.toNat

theorem performAtomic_counter {r : WireReq} {b i : Nat} (hp : placeOf s.ident.part (addrLocal r.addr) = .counter b i) :
    performAtomic s r = updCounter s b i (fun _ => BitVec.ofNat 64 (atomicValue s r)) := by
  simp only [performAtomic, hp, atomicValue]

theorem performAtomic_memory {r : WireReq} (hp : ∀ b i, placeOf s.ident.part (addrLocal r.addr) ≠ .counter b i) :
    StacksOnly (writeBytes s (addrLocal r.addr) (bytesLE r.size (atomicValue s r))) (performAtomic s r) := by
  unfold performAtomic
  dsimp only
  split
  next b i h => exact absurd h (hp b i)
  next => exact stacksOnly_touchDram _ _ _

/-- An atomic sends nothing, writes nothing to the host and raises no fault. -/
theorem performAtomic_quiet (s : State) (r : WireReq) :
    (performAtomic s r).sent = s.sent ∧ (performAtomic s r).mem.host = s.mem.host ∧
    (performAtomic s r).faults = s.faults ∧ (performAtomic s r).sites = s.sites ∧ (performAtomic s r).ctxs = s.ctxs := by
  by_cases hp : ∃ b i, placeOf s.ident.part (addrLocal r.addr) = .counter b i
  · obtain ⟨b, i, hp⟩ := hp
    rw [performAtomic_counter hp]
    exact ⟨rfl, rfl, rfl, rfl, rfl⟩
  · rw [performAtomic_memory (fun b i h => hp ⟨b, i, h⟩)]
    exact ⟨rfl, rfl, rfl, rfl, rfl⟩

/-! ## A request is performed -/

theorem touchDram_row (s : State) (loc : Nat) (w : Bool) : (touchDram s loc w).sent = s.sent ∧
    (touchDram s loc w).mem = s.mem ∧ (touchDram s loc w).faults = s.faults ∧ (touchDram s loc w).sites = s.sites ∧
    (touchDram s loc w).ctxs = s.ctxs := by
  rw [stacksOnly_touchDram s]
  exact ⟨rfl, rfl, rfl, rfl, rfl⟩

theorem perform_mem_load {r : WireReq} (h : r.kind = .load) (o : ServeObs) : (perform s r o).mem = s.mem := by
  obtain ⟨-, hm, -⟩ := respond_row (touchDram s (addrLocal r.addr) false) r o S_OK (placeBytes s r.addr r.size)
  obtain ⟨-, hd, -⟩ := touchDram_row s (addrLocal r.addr) false
  simp only [perform, h]
  exact hm.trans hd

theorem perform_mem_store {r : WireReq} (h : r.kind = .store) (o : ServeObs) :
    (perform s r o).mem = (performStore s r).mem := by
  obtain ⟨-, hm, -⟩ := respond_row (performStore s r) r o S_OK []
  simpa only [perform, h] using hm

theorem perform_mem_atomic {r : WireReq} (h : r.kind = .atomic) (o : ServeObs) :
    (perform s r o).mem = (performAtomic s r).mem := by
  obtain ⟨-, hm, -⟩ := respond_row (performAtomic s r) r o S_OK (bytesLE r.size (atomicOld s r))
  simpa only [perform, h] using hm

/-- A performed request is answered S_OK with its bytes; nothing goes to the host, and outside the mirror no fault arises. -/
theorem perform_row (s : State) (r : WireReq) (o : ServeObs) :
    (perform s r o).sent = s.sent ++ [answerOf r o S_OK (if r.kind = .store then [] else placeBytes s r.addr r.size)] ∧
    (perform s r o).mem.host = s.mem.host ∧
    ((∀ off, placeOf s.ident.part (addrLocal r.addr) ≠ .mirror off) →
      (perform s r o).faults = s.faults ∧ (perform s r o).sites = s.sites ∧ (perform s r o).ctxs = s.ctxs) := by
  cases hk : r.kind with
  | load =>
    obtain ⟨h1, h2, h3, h4, h5⟩ := respond_row (touchDram s (addrLocal r.addr) false) r o S_OK (placeBytes s r.addr r.size)
    obtain ⟨g1, g2, g3, g4, g5⟩ := touchDram_row s (addrLocal r.addr) false
    simp only [perform, hk]
    exact ⟨h1.trans (congrArg (· ++ _) g1), congrArg MemGroup.host (h2.trans g2), fun _ => ⟨h3.trans g3, h4.trans g4, h5.trans g5⟩⟩
  | store =>
    obtain ⟨h1, h2, h3, h4, h5⟩ := respond_row (performStore s r) r o S_OK []
    obtain ⟨g1, g2, g3⟩ := performStore_quiet s r
    simp only [perform, hk]
    exact ⟨h1.trans (congrArg (· ++ _) g1), (congrArg MemGroup.host h2).trans g2, fun hn =>
      ⟨h3.trans (g3 hn).1, h4.trans (g3 hn).2.1, h5.trans (g3 hn).2.2⟩⟩
  | atomic =>
    obtain ⟨h1, h2, h3, h4, h5⟩ := respond_row (performAtomic s r) r o S_OK (bytesLE r.size (atomicOld s r))
    obtain ⟨g1, g2, g3, g4, g5⟩ := performAtomic_quiet s r
    have hold : bytesLE r.size (atomicOld s r) = placeBytes s r.addr r.size := by
      have h := bytesLE_leNat (placeBytes s r.addr r.size)
      rwa [placeBytes_length] at h
    simp only [perform, hk]
    rw [if_neg (by decide), ← hold]
    exact ⟨h1.trans (congrArg (· ++ _) g1), (congrArg MemGroup.host h2).trans g2, fun _ => ⟨h3.trans g3, h4.trans g4, h5.trans g5⟩⟩

/-- A store to DRAM or a tile changes exactly the bytes of its mask (R323). -/
theorem perform_store_bytes {r : WireReq} (hk : r.kind = .store) (o : ServeObs)
    (hp : (∃ b, placeOf s.ident.part (addrLocal r.addr) = .dram b) ∨
      ∃ b v f, placeOf s.ident.part (addrLocal r.addr) = .tile b v f) :
    (perform s r o).mem.counters = s.mem.counters ∧
    ∀ a, readByte (perform s r o) a = readByte (writeCells s (maskedBytes r)) a := by
  obtain ⟨k, h⟩ := performStore_memory hp
  unfold readByte
  rw [perform_mem_store hk, h]
  exact ⟨rfl, fun _ => rfl⟩

/-- A store to a counter writes exactly that counter (R336). -/
theorem perform_store_counter {r : WireReq} {c d g b j : Nat} (hk : r.kind = .store) (o : ServeObs)
    (hp : placeOf s.ident.part (addrLocal r.addr) = .counter c d) (hm : maskGroup r.mask = some (g, 8))
    (hj : placeOf s.ident.part (addrLocal r.addr + g) = .counter b j) :
    (perform s r o).mem = (updCounter s b j (fun _ => BitVec.ofNat 64 (leNat (sliceBytes r.data g 8)))).mem := by
  rw [perform_mem_store hk, performStore_counter hp hm, storeCounters_one (sliceBytes_length _ _ _) hj]

/-- An atomic on memory changes exactly its bytes (R325). -/
theorem perform_atomic_bytes {r : WireReq} (hk : r.kind = .atomic) (o : ServeObs)
    (hp : ∀ b j, placeOf s.ident.part (addrLocal r.addr) ≠ .counter b j) :
    (perform s r o).mem.counters = s.mem.counters ∧
    ∀ a, readByte (perform s r o) a = readByte (writeBytes s (addrLocal r.addr) (bytesLE r.size (atomicValue s r))) a := by
  unfold readByte
  rw [perform_mem_atomic hk, performAtomic_memory hp]
  exact ⟨rfl, fun _ => rfl⟩

/-- What a change of one counter leaves, seen in any state with the same memory. -/
theorem counter_written {t : State} {b j : Nat} {v : W64} (h : t.mem = (updCounter s b j (fun _ => v)).mem) :
    t.mem.cells = s.mem.cells ∧ getCounter t b j = v ∧
    ∀ b' j', counterKey b' j' ≠ counterKey b j → getCounter t b' j' = getCounter s b' j' := by
  have hget : ∀ b' j', getCounter t b' j' = getCounter (updCounter s b j (fun _ => v)) b' j' := fun b' j' => by
    unfold getCounter; rw [h]
  refine ⟨by rw [h]; rfl, ?_, fun b' j' hne => ?_⟩
  · rw [hget, getCounter_updCounter, if_pos rfl]
  · rw [hget, getCounter_updCounter, if_neg hne]

/-! ## Arrival -/

/-- A request for a place of this READY module that answers; no addition to a berth in a partition reset. -/
def Arrives (s : State) (r : WireReq) : Prop :=
  addrPos r.addr = ownPos s ∧ s.rst.ready = true ∧ admitted s r = true ∧ dropsAddition s r = false ∧
  accessStatus s (reqAccess r.kind) (addrLocal r.addr) = none

theorem exec_serve {r : WireReq} {o : ServeObs} {i : Instr}
    (h : r.kind = .load ∧ i = .load r o ∨ r.kind = .store ∧ i = .store r o ∨ r.kind = .atomic ∧ i = .atomic r o)
    (hb : r.bar2 = none) : exec i s = .next (arrive s r o) := by
  have hs : serve s r o = arrive s r o := by simp only [serve, hb]
  rcases h with ⟨hk, rfl⟩ | ⟨hk, rfl⟩ | ⟨hk, rfl⟩
  · exact congrArg Host.Outcome.next ((if_pos hk).trans hs)
  · exact congrArg Host.Outcome.next ((if_pos hk).trans hs)
  · exact congrArg Host.Outcome.next ((if_pos hk).trans hs)

theorem arrive_eq {r : WireReq} (h : Arrives s r) (o : ServeObs) : arrive s r o =
    if waitsAtTarget s r || outOfOrder s r || yields s r then park s r else serveHere (countSlot (unpark s r) r) r o := by
  obtain ⟨h1, h2, h3, h4, h5⟩ := h
  simp [arrive, h1, h2, h3, h4, h5]

theorem mem_addNew {α : Type} [DecidableEq α] (x : α) (l : List α) : x ∈ addNew x l := by
  unfold addNew
  split
  · assumption
  · simp

/-- A request whose turn has not come waits: at most a domain is woken. -/
theorem park_row (s : State) (r : WireReq) : (park s r).mem = s.mem ∧ (park s r).sent = s.sent ∧
    (servingSite s (addrLocal r.addr), r) ∈ (park s r).reqs.ingress := by
  have h := domainsOnly_wakeAll (sleeperAt s (addrLocal r.addr)).toList s
  unfold park
  dsimp only
  rw [h]
  exact ⟨rfl, rfl, mem_addNew _ _⟩

/-- A request with a stale epoch is counted at its site and answered S_STALE_ROLE (R25). -/
theorem serveHere_stale {r : WireReq} (h : targetStatus s r = some S_STALE_ROLE) (o : ServeObs) : serveHere s r o =
    respond (updSite s (servingSite s (addrLocal r.addr)) (fun x => { x with stale := x.stale + 1 })) r o S_STALE_ROLE
      (errorValue r) := by
  simp [serveHere, h]

/-- A request that meets nothing and reads a clean array is performed. -/
theorem serveHere_performs {r : WireReq} {o : ServeObs} (h : targetStatus s r = none) (hw : o.wrong = 0) :
    serveHere s r o = perform s r o := by
  simp [serveHere, h, readArray, hw]

theorem admitted_store {r : WireReq} (h : admitted s r = true) (hk : r.kind = .store) : r.data.length = 64 := by
  simp only [admitted, hk, Bool.and_eq_true, beq_iff_eq] at h
  exact h.1.2

/-! ## The two inputs of a stack (R16) -/

theorem yields_of_row {r : WireReq} {b : Nat} (hp : placeOf s.ident.part (addrLocal r.addr) = .dram b)
    (hi : inputWaits s r = true) (hl : (getStack s (servingStack s (addrLocal r.addr))).lastRow ≠ some (rowOf s r))
    (hn : nearInput s r = decide (2 ≤ (getStack s (servingStack s (addrLocal r.addr))).nearRun)) : yields s r = true := by
  have h : yieldsRow s r = true := by simp [yieldsRow, hp, hi, hl, hn]
  simp [yields, h]

/-! ## O35 -/

/-- Settles O35: a request that goes on finds a state that its place cannot tell from the one it came to; the answer is sent on
what the store or the atomic wrote there. -/
theorem requestsAreServed : Obligations.RequestsAreServed := by
  unfold Obligations.RequestsAreServed
  refine ⟨fun s r o i loc k hi hb hp hr ha hd hloc hk hs => ?_, fun s r b hp hi hl => ⟨fun hn h2 => ?_, fun hn h2 => ?_⟩⟩
  · subst hloc hk
    have hexec : exec i s = .next (arrive s r o) := exec_serve hi hb
    rw [arrive_eq ⟨hp, hr, ha, hd, hs⟩] at hexec
    have hu : Passed s (countSlot (unpark s r) r) := passed_countSlot s r
    refine ⟨fun hw => ?_, fun hw ho hy hin => ?_⟩
    · obtain ⟨h1, h2, h3⟩ := park_row s r
      rw [if_pos (by rcases hw with h | h | h <;> simp [h])] at hexec
      exact ⟨_, hexec, h1, h2, h3⟩
    rw [if_neg (by simp [hw, ho, hy])] at hexec
    generalize countSlot (unpark s r) r = u at hu hexec
    have hin' : r.srcPos = ownPos u ∨ ingressAdmits u r = true := by rwa [hu.ownPos, hu.ingressAdmits]
    obtain ⟨⟨q, l, hframe⟩, -⟩ := id hu
    refine ⟨fun he => ?_, fun he hw0 hm hq => ?_⟩
    · have hst := targetStatus_stale hin' hb (by rwa [hu.servingSite, hu.getSite])
      rw [serveHere_stale hst, hu.servingSite] at hexec
      obtain ⟨h1, h2, -, h4, -⟩ := respond_row
        (updSite u (servingSite s (addrLocal r.addr)) (fun x => { x with stale := x.stale + 1 })) r o S_STALE_ROLE (errorValue r)
      refine ⟨_, hexec, h2.trans (by rw [hframe]; rfl), ?_, h1.trans (by rw [hframe]; rfl)⟩
      unfold getSite
      rw [h4]
      show (getSite (updSite u _ _) _).stale = (getSite s _).stale + 1
      rw [getSite_upd_self, hu.getSite]
    · have hst : targetStatus u r = none := targetStatus_none hin' (by rwa [hu.servingSite, hu.getSite])
        (by rwa [hu.accessStatus]) (fun h => by rw [hu.maskPoison]; exact hm h) (fun h => by rw [hu.poisonMet]; exact hq h)
      rw [serveHere_performs hst hw0] at hexec
      obtain ⟨h1, h2, h3⟩ := perform_row u r o
      have hpart : u.ident.part = s.ident.part := by rw [hframe]
      have hmem : u.mem = s.mem := by rw [hframe]
      have hcount : ∀ b j, getCounter u b j = getCounter s b j := fun b j => by unfold getCounter; rw [hmem]
      have hread : ∀ a, readByte u a = readByte s a := fun a => by unfold readByte; rw [hmem]
      rw [hpart] at h3
      refine ⟨_, hexec, h2.trans (by rw [hmem]), ?_, fun hn => ?_, fun hk => (perform_mem_load hk o).trans hmem,
        fun hk hpl => ?_, fun g b j c d hk hc hg hj => ?_, fun v hk hv => ⟨fun b j hc => ?_, fun hc => ?_⟩⟩
      · rw [h1, hu.placeBytes, hframe]; rfl
      · obtain ⟨f1, f2, f3⟩ := h3 hn
        exact ⟨f1.trans (by rw [hframe]), f2.trans (by rw [hframe]), f3.trans (by rw [hframe])⟩
      · obtain ⟨c1, c2⟩ := perform_store_bytes hk o (by rwa [hpart])
        refine ⟨c1.trans (by rw [hmem]), fun a => ?_⟩
        rw [c2, readByte_maskedBytes, admitted_store ha hk, hread]
        rfl
      · obtain ⟨c1, c2, c3⟩ := counter_written (perform_store_counter hk o (by rwa [hpart]) hg (by rwa [hpart]))
        exact ⟨c1.trans (by rw [hmem]), c2, fun b' j' hne => (c3 b' j' hne).trans (hcount _ _)⟩
      · have hv' : v = atomicValue u r := by rw [hv, atomicValue, atomicOld, hu.placeBytes]
        have hw := (perform_mem_atomic hk o).trans (congrArg State.mem (performAtomic_counter (by rwa [hpart])))
        obtain ⟨c1, c2, c3⟩ := counter_written hw
        rw [hv']
        exact ⟨c1.trans (by rw [hmem]), c2, fun b' j' hne => (c3 b' j' hne).trans (hcount _ _)⟩
      · have hv' : v = atomicValue u r := by rw [hv, atomicValue, atomicOld, hu.placeBytes]
        obtain ⟨c1, c2⟩ := perform_atomic_bytes hk o (by rwa [hpart])
        refine ⟨c1.trans (by rw [hmem]), fun a => ?_⟩
        rw [c2, readByte_writeBytes, bytesLE_length, hv', hread]
        rfl
  · exact yields_of_row hp hi hl (by simp [hn, h2])
  · exact yields_of_row hp hi hl (by simp [hn, h2])

end Sys2Proof.Machine
end

section
/-! SUPPORT. Number formats: a value converted to an integer saturates, and what a sum and a product are of a NaN and of
opposite values. -/

namespace Sys2Proof.Machine

/-! ## Conversions to integers (R45) -/

theorem clampInt_above {lo hi x : Int} (h : lo ≤ hi) (hx : hi < x) : clampInt lo hi x = hi := by
  rw [clampInt, if_neg (by omega), if_pos hx]

theorem clampInt_below {lo hi x : Int} (hx : x < lo) : clampInt lo hi x = lo := if_pos hx

/-- The integer that a finite value rounds to, before it saturates. -/
def roundedInt (r : Rnd) (neg : Bool) (m : Nat) (e : Int) : Int :=
  if neg then -(roundMag r neg m e : Int) else (roundMag r neg m e : Int)

theorem encodeInt_fin (w : Nat) (r : Rnd) (neg : Bool) (m : Nat) (e : Int) :
    encodeInt w r (.fin neg m e) = clampInt (-(2 ^ (w - 1))) (2 ^ (w - 1) - 1) (roundedInt r neg m e) := by
  rw [← Nat.cast_two, ← Nat.cast_pow]
  rfl

theorem encodeInt_inf (w : Nat) (r : Rnd) (neg : Bool) :
    encodeInt w r (.inf neg) = if neg then -(2 ^ (w - 1)) else 2 ^ (w - 1) - 1 := by
  rw [← Nat.cast_two, ← Nat.cast_pow]
  rfl

/-- Settles O22: a finite value is clamped between the smallest and the largest integer. -/
theorem integerConversionsSaturate : Obligations.IntegerConversionsSaturate := by
  unfold Obligations.IntegerConversionsSaturate
  refine ⟨fun w r neg m e _ => ?_, fun w r _ => ⟨encodeInt_inf w r false, encodeInt_inf w r true, rfl⟩,
    fun _ _ _ => ⟨rfl, rfl, rfl⟩⟩
  have hpos : (0 : Int) < 2 ^ (w - 1) := by positivity
  rw [encodeInt_fin]
  exact ⟨clampInt_above (by omega), clampInt_below, clampInt_inside⟩

/-! ## Zeros and NaNs (R42, R43) -/

theorem add_nan_left (r : Rnd) (x : Num) : Num.add r .nan x = .nan := rfl

theorem add_nan_right (r : Rnd) (x : Num) : Num.add r x .nan = .nan := by cases x <;> rfl

theorem mul_nan_left (x : Num) : Num.mul .nan x = .nan := rfl

theorem mul_nan_right (x : Num) : Num.mul x .nan = .nan := by cases x <;> rfl

/-- A finite value and its negation have the exact sum 0. -/
theorem addDy_opposite (neg : Bool) (m : Nat) (e : Int) : addDy neg m e (!neg) m e = (0, e) := by
  cases neg <;> simp [addDy]

/-- Opposite values add to a zero whose sign the rounding mode gives. -/
theorem add_opposite (r : Rnd) (neg : Bool) (m : Nat) (e : Int) :
    Num.add r (.fin neg m e) (.fin (!neg) m e) = .fin (decide (r = .rdn)) 0 0 := by
  by_cases hm : m = 0
  · simp [Num.add, hm]
  · simp [Num.add, hm, addDy_opposite]

/-- The NaN of each format of Table 02-3 that has one leaves the sign bit clear. -/
theorem nan_sign_clear {f : FloatFmt} (h : f ∈ [fmtFP32, fmtFP16, fmtBF16, fmtE4M3, fmtE5M2]) :
    f.nan < 2 ^ (f.ebits + f.fbits) := by
  revert f
  decide

/-- Settles O23, by one lemma for each rule. -/
theorem signOfZeroAndNan : Obligations.SignOfZeroAndNan := by
  unfold Obligations.SignOfZeroAndNan
  exact ⟨fun r x => ⟨add_nan_left r x, add_nan_right r x, mul_nan_left x, mul_nan_right x⟩,
    fun r neg m e => .inr ⟨0, add_opposite r neg m e⟩, fun _ _ _ h => ⟨rfl, nan_sign_clear h⟩⟩

end Sys2Proof.Machine
end

section
/-! SUPPORT. Digital operators: what the marks of a command's reads leave alone, how the work of a command that reads ends, and the
row of each operator. -/

namespace Sys2Proof.Machine

variable {s t u : State}

/-! ## Marks on the own module: counts of refusals and row buffers -/

/-- Only sites and stacks change, and none of them begins or ceases to answer. -/
def MarksOnly (s t : State) : Prop :=
  t = { s with sites := t.sites, stackTab := t.stackTab } ∧ (∀ k, (getSite t k).dead = (getSite s k).dead) ∧
  ∀ n, (getStack t n).stoppedHeat = (getStack s n).stoppedHeat ∧ (getStack t n).stoppedRail = (getStack s n).stoppedRail

theorem MarksOnly.refl (s : State) : MarksOnly s s := ⟨rfl, fun _ => rfl, fun _ => ⟨rfl, rfl⟩⟩

theorem MarksOnly.trans (h : MarksOnly s t) (g : MarksOnly t u) : MarksOnly s u := by
  obtain ⟨h1, h2, h3⟩ := h
  obtain ⟨g1, g2, g3⟩ := g
  exact ⟨by rw [g1, h1], fun k => (g2 k).trans (h2 k),
    fun n => ⟨(g3 n).1.trans (h3 n).1, (g3 n).2.trans (h3 n).2⟩⟩

theorem marksOnly_updSite (s : State) (k : Nat) {f : Site → Site} (hf : ∀ x, (f x).dead = x.dead) :
    MarksOnly s (updSite s k f) := by
  refine ⟨rfl, fun j => ?_, fun _ => ⟨rfl, rfl⟩⟩
  by_cases hj : j = k
  · rw [hj, getSite_upd_self, hf]
  · rw [getSite_upd_other s f hj]

theorem marksOnly_updChannel (s : State) (n c : Nat) (f : StackChannel → StackChannel) : MarksOnly s (updChannel s n c f) := by
  refine ⟨rfl, fun _ => rfl, fun j => ?_⟩
  unfold updChannel
  by_cases hj : j = n
  · rw [hj, getStack_upd_self]
    exact ⟨rfl, rfl⟩
  · rw [getStack_upd_other s _ hj]
    exact ⟨rfl, rfl⟩

theorem marksOnly_countStale (s : State) (src a n : Nat) : MarksOnly s (countStale s src a n) :=
  foldl_rel .refl .trans (fun u k => marksOnly_updSite u k (f := fun x => { x with stale := x.stale + 1 }) (fun _ => rfl)) _ s

theorem marksOnly_touchDram (s : State) (loc : Nat) (w : Bool) : MarksOnly s (touchDram s loc w) := by
  unfold touchDram
  split
  · exact marksOnly_updChannel _ _ _ _
  · exact .refl s

theorem marksOnly_touchRange (s : State) (a n : Nat) (w : Bool) : MarksOnly s (touchRange s a n w) := by
  unfold touchRange
  split
  · exact .refl s
  · refine foldl_rel .refl .trans (fun t i => ?_) _ _
    dsimp only
    split
    · exact .refl t
    · exact marksOnly_touchDram _ _ _

theorem MarksOnly.siteHeld (h : MarksOnly s t) (k : Nat) : siteHeld t k = siteHeld s k := by
  obtain ⟨h1, h2, -⟩ := h
  unfold Machine.siteHeld
  rw [h2, h1]
  rfl

theorem MarksOnly.siteSilent (h : MarksOnly s t) (k : Nat) : siteSilent t k = siteSilent s k := by
  obtain ⟨-, -, h3⟩ := h
  unfold Machine.siteSilent
  simp only [h3]

/-- Marks change nothing in which addresses the work of a command reaches by requests. -/
theorem MarksOnly.goesOut (h : MarksOnly s t) (a : Nat) : goesOut t a = goesOut s a := by
  unfold Machine.goesOut addrSilent
  rw [h.siteHeld, h.siteSilent, h.1]
  rfl

theorem MarksOnly.ctxs (h : MarksOnly s t) : t.ctxs = s.ctxs := by rw [h.1]

/-! ## What the work of a command leaves alone -/

/-- `t` is `s` save for what the work of command `id` may change, and of the commands only `id` changes, which keeps its
phase, results and plan. -/
def WorkKeeps (id : CmdId) (s t : State) : Prop :=
  Sys2Proof.WorkFrame s t ∧ (∀ k, k ≠ id.ctx → getCtx t k = getCtx s k) ∧ (∀ i, i ≠ id → findCmd t i = findCmd s i) ∧
  ∀ x, findCmd s id = some x → ∃ y, findCmd t id = some y ∧ y.phase = x.phase ∧ y.results = x.results ∧ y.opt = x.opt

theorem WorkKeeps.refl (id : CmdId) (s : State) : WorkKeeps id s s :=
  ⟨rfl, fun _ _ => rfl, fun _ _ => rfl, fun x hx => ⟨x, hx, rfl, rfl, rfl⟩⟩

theorem WorkKeeps.trans {id : CmdId} (h : WorkKeeps id s t) (g : WorkKeeps id t u) : WorkKeeps id s u := by
  obtain ⟨h1, h2, h3, h4⟩ := h
  obtain ⟨g1, g2, g3, g4⟩ := g
  refine ⟨by unfold Sys2Proof.WorkFrame at *; rw [g1, h1], fun k hk => (g2 k hk).trans (h2 k hk),
    fun i hi => (g3 i hi).trans (h3 i hi), fun x hx => ?_⟩
  obtain ⟨y, hy, p1, p2, p3⟩ := h4 x hx
  obtain ⟨z, hz, q1, q2, q3⟩ := g4 y hy
  exact ⟨z, hz, q1.trans p1, q2.trans p2, q3.trans p3⟩

theorem RequestsLeave.workKeeps {id : CmdId} (h : RequestsLeave id s t) : WorkKeeps id s t := by
  obtain ⟨h1, h2⟩ := h
  exact ⟨by unfold Sys2Proof.WorkFrame; rw [h1], h2⟩

theorem MarksOnly.findCmd (h : MarksOnly s t) (i : CmdId) : findCmd t i = findCmd s i := by
  simp [Machine.findCmd, getCtx, h.ctxs]

theorem MarksOnly.workKeeps (h : MarksOnly s t) (id : CmdId) : WorkKeeps id s t :=
  ⟨by unfold Sys2Proof.WorkFrame; rw [h.1], fun _ _ => by simp [getCtx, h.ctxs], fun i _ => h.findCmd i,
    fun x hx => ⟨x, (h.findCmd id).trans hx, rfl, rfl, rfl⟩⟩

/-! ## The reads of a command -/

theorem requestsLeave_issueLoads (s : State) (c : Cmd) {p : Purpose} (hs : p.slot = none) (hk : p.chunk = none) (a n : Nat) :
    RequestsLeave c.id s (issueLoads s c p a n) := by
  unfold issueLoads
  refine foldl_rel (RequestsLeave.refl c.id) RequestsLeave.trans (fun t x => ?_) _ _
  split
  · refine foldl_rel (RequestsLeave.refl c.id) RequestsLeave.trans (fun u q => ?_) _ _
    exact requestsLeave_issueWork u hs hk rfl
  · exact .refl _ t

/-- A range that answers on the own module makes no request. -/
theorem issueLoads_of_here {a n : Nat} (h : ∀ x ∈ sectorParts a n, goesOut s x.1 = false) (c : Cmd) (p : Purpose) :
    issueLoads s c p a n = s := by
  unfold issueLoads
  refine List.foldlRecOn (motive := fun u => u = s) _ _ rfl (fun u hu x hx => ?_)
  rw [hu, h x hx]
  rfl

theorem workKeeps_readMarks (s : State) (c : Cmd) (x : Touch) : WorkKeeps c.id s (readMarks s c {} x) := by
  unfold readMarks
  dsimp only
  have hc := (marksOnly_countStale s c.berth x.addr x.len).workKeeps c.id
  split
  · exact hc.trans ((requestsLeave_issueLoads _ c rfl rfl _ _).workKeeps.trans ((marksOnly_touchRange _ _ _ _).workKeeps c.id))
  · exact hc

theorem marksOnly_readMarks {x : Touch} (h : ∀ p ∈ sectorParts x.addr x.len, goesOut s p.1 = false) (c : Cmd) :
    MarksOnly s (readMarks s c {} x) := by
  unfold readMarks
  dsimp only
  have hc := marksOnly_countStale s c.berth x.addr x.len
  split
  · rw [issueLoads_of_here (fun p hp => (hc.goesOut p.1).trans (h p hp))]
    exact hc.trans (marksOnly_touchRange _ _ _ _)
  · exact hc

theorem workKeeps_reads (s : State) (c : Cmd) (ts : List Touch) :
    WorkKeeps c.id s (ts.foldl (fun u x => readMarks u c {} x) s) :=
  foldl_rel (.refl c.id) .trans (fun u x => workKeeps_readMarks u c x) ts s

theorem asksOut_eq_false {ts : List Touch} :
    asksOut s ts = false ↔ ∀ x ∈ ts, ∀ p ∈ sectorParts x.addr x.len, goesOut s p.1 = false := by
  simp [asksOut]

/-- Reads that all answer on the own module leave marks, and make no request. -/
theorem marksOnly_reads {ts : List Touch} (h : asksOut s ts = false) (c : Cmd) :
    MarksOnly s (ts.foldl (fun u x => readMarks u c {} x) s) := by
  rw [asksOut_eq_false] at h
  exact List.foldlRecOn (motive := MarksOnly s) _ _ (.refl s)
    (fun u hu x hx => hu.trans (marksOnly_readMarks (fun p hp => (hu.goesOut p.1).trans (h x hx p hp)) c))

/-! ## The end of the work -/

/-- A command that has become `d` leaves the marks of its reads and issues the results that go out. -/
theorem workLeaves_of_cmdBecomes {m : State} {c d : Cmd} {ts rs : List Touch} (h : CmdBecomes s m c.id d) (hrs : rs ⊆ ts)
    (l : List (Nat × Byte)) :
    WorkLeaves s (issueResults (rs.foldl (fun u x => readMarks u c {} x) m) c (l.filter (fun e => goesOut s e.1))) c d ts l := by
  obtain ⟨hm, hctx, -, hother, hd⟩ := h
  obtain ⟨k1, k2, k3, k4⟩ := (workKeeps_reads m c rs).trans
    (requestsLeave_issueResults _ c (l.filter (fun e => goesOut s e.1))).workKeeps
  obtain ⟨y, hy, y1, y2, y3⟩ := k4 d hd
  refine ⟨?_, fun k hk => (k2 k hk).trans (hctx k hk), fun i hi => (k3 i hi).trans (hother i hi), y, hy, y1, y2, y3,
    fun hts hl => ?_⟩
  · unfold Sys2Proof.WorkFrame at *
    rw [k1, hm]
  · have hgoes : ∀ a, goesOut m a = goesOut s a := fun a => by rw [hm]; rfl
    have hask : asksOut m rs = false :=
      asksOut_eq_false.mpr (fun x hx p hp => (hgoes p.1).trans (asksOut_eq_false.mp hts x (hrs hx) p hp))
    have hmarks := marksOnly_reads hask c
    have hnone : l.filter (fun e => goesOut s e.1) = [] := by simpa using hl
    rw [hnone, issueResults_nil] at hy ⊢
    refine ⟨Option.some.inj (hy.symm.trans ((hmarks.findCmd c.id).trans hd)), ?_, ?_, ?_⟩ <;> rw [hmarks.1, hm]

/-- The work of a command that reads and stores ends with its results staged, or on their way. -/
theorem workEnds_finishWork_reads {c : Cmd} (hf : findCmd s c.id = some c) (ts : List Touch) (st : Option (Nat × Nat))
    (l : List (Nat × Byte)) : WorkEnds s (finishWork s c ts st l) c ts st l :=
  workLeaves_of_cmdBecomes (cmdBecomes_finishCmd hf) (List.filter_subset_self _) l

/-! ## The digital operators -/

theorem runDigital_noTiles {c : Cmd} (h : noTiles s c = true) (ts : List Touch) (work : State → Product) :
    runDigital s c ts work = finishCmd s c.id (some (S_RESOURCE_RETIRED, c.berth)) [] := if_pos h

theorem runDigital_reachable {c : Cmd} {ts : List Touch} (h : noTiles s c = false) (hr : Reachable s c ts)
    (work : State → Product) : runDigital s c ts work = finishProduct s c ts (work (seenFrom s c.berth)) := by
  rw [runDigital, if_neg (by simp [h]), awake_of_reachable hr]

/-- The product of a digital command reaches the end of its work with the next index of free values. -/
theorem workEnds_finishProduct {c : Cmd} (hf : findCmd s c.id = some c) (ts : List Touch) (w : Product) :
    WorkEnds { s with fresh := s.fresh + 1 } (finishProduct s c ts w) c ts
      (budgetStatus (budgetCount w.dst.format (hTreq c.packet) w.srcs w.outs)) (w.outs.flatMap (placeBlock w.dst)) :=
  workEnds_finishWork_reads (s := nextFresh s) hf ts _ _

theorem execAttention_digital {id : CmdId} {c : Cmd} (h : Started s id 0x0510 c) (ho : isOptical c.opcode c.params = false) :
    exec (.attention id) s = .next (runDigital s c (attentionTouches c) (fun t => attentionProduct t c)) := by
  refine (onStarted_next h).trans ?_
  rw [ho]
  rfl

/-- Settles O21: each operator is `runDigital` of its product, which ends its work or finds no tile. -/
theorem digitalOperatorsFinish : Obligations.DigitalOperatorsFinish := by
  unfold Obligations.DigitalOperatorsFinish
  intro s id c op i ts w hrow h ho
  obtain ⟨work, hexec, rfl⟩ : ∃ work, exec i s = .next (runDigital s c ts work) ∧ work (seenFrom s c.berth) = w := by
    simp only [List.mem_cons, Prod.mk.injEq, List.not_mem_nil, or_false] at hrow
    rcases hrow with ⟨rfl, rfl, rfl, rfl⟩ | ⟨rfl, rfl, rfl, rfl⟩ | ⟨rfl, rfl, rfl, rfl⟩ | ⟨rfl, rfl, rfl, rfl⟩ |
      ⟨rfl, rfl, rfl, rfl⟩ | ⟨rfl, rfl, rfl, rfl⟩ | ⟨rfl, rfl, rfl, rfl⟩ | ⟨rfl, rfl, rfl, rfl⟩
    rotate_right
    · exact ⟨_, execAttention_digital h ho, rfl⟩
    all_goals exact ⟨_, onStarted_next h, rfl⟩
  obtain ⟨-, hf, -⟩ := h
  obtain rfl := findCmd_id hf
  rw [hexec]
  refine ⟨fun hn hr => ⟨_, rfl, ?_⟩, fun hn => ⟨_, rfl, ?_⟩⟩
  · rw [runDigital_reachable hn hr]
    exact workEnds_finishProduct hf ts _
  · rw [runDigital_noTiles hn]
    exact cmdBecomes_finishCmd hf

end Sys2Proof.Machine
end

section
/-! SUPPORT. The optical engines between their windows: what a start of windows may change, the boundary of an engine with no
test waiting, and the four ticks of temperature and power. -/

namespace Sys2Proof.Machine

variable {s : State}

/-! ## A start of windows -/

/-- What a start of windows may change of an engine: banks that are unloaded, waiting heater codes, and its run, one that was
there going on with the same block, vector and number. -/
def StartsFrom (x y : Engine) : Prop :=
  y = { x with bankA := y.bankA, bankB := y.bankB, heatIn := y.heatIn, heatWait := y.heatWait, run := y.run } ∧
  ∀ r, x.run = some r → ∃ l sg, y.run = some { r with live := l, sigma2 := sg }

theorem StartsFrom.trans {x y z : Engine} (h : StartsFrom x y) (g : StartsFrom y z) : StartsFrom x z := by
  obtain ⟨h1, h2⟩ := h
  obtain ⟨g1, g2⟩ := g
  refine ⟨by rw [g1, h1], fun r hr => ?_⟩
  obtain ⟨l, sg, hy⟩ := h2 r hr
  obtain ⟨l', sg', hz⟩ := g2 _ hy
  exact ⟨l', sg', hz⟩

theorem startsFrom_setActive (x : Engine) (k : Bank) : StartsFrom x (x.setActive k) := by
  unfold Engine.setActive
  split <;> exact ⟨rfl, fun r hr => ⟨r.live, r.sigma2, hr⟩⟩

theorem startsFrom_setIdle (x : Engine) (k : Bank) : StartsFrom x (x.setIdle k) := by
  unfold Engine.setIdle
  split <;> exact ⟨rfl, fun r hr => ⟨r.live, r.sigma2, hr⟩⟩

theorem startsFrom_refl (x : Engine) : StartsFrom x x := ⟨rfl, fun r hr => ⟨r.live, r.sigma2, hr⟩⟩

theorem startsFrom_unloadStale (x : Engine) : StartsFrom x x.unloadStale := by
  unfold Engine.unloadStale
  split
  · split <;> exact (startsFrom_setActive x _).trans (startsFrom_setIdle _ _)
  · exact startsFrom_refl x

theorem startsFrom_applyHeat_run (x : Engine) (o : Option Run)
    (h : ∀ r, x.run = some r → ∃ l sg, o = some { r with live := l, sigma2 := sg }) :
    StartsFrom x { x.applyHeat with run := o } := ⟨rfl, h⟩

/-- A start of windows changes its engine, and of that what `StartsFrom` names. -/
theorem startRun_engine (s : State) (b e : Nat) :
    ∃ y, EngineBecomes s (startRun s b e) b e y ∧ StartsFrom (getEngine s b e) y := by
  let u := updEngine s b e Engine.unloadStale
  have hu : EngineBecomes s u b e (getEngine s b e).unloadStale := engineBecomes_updEngine s b e Engine.unloadStale
  have hx : getEngine u b e = (getEngine s b e).unloadStale := getEngine_upd_self s b e Engine.unloadStale
  have hs := startsFrom_unloadStale (getEngine s b e)
  have goes : ∀ f : Engine → Engine, StartsFrom (getEngine u b e) (f (getEngine u b e)) →
      ∃ y, EngineBecomes s (updEngine u b e f) b e y ∧ StartsFrom (getEngine s b e) y := fun f hf =>
    ⟨_, engineBecomes_trans hu (engineBecomes_updEngine u b e f), hs.trans (hx ▸ hf)⟩
  unfold startRun
  dsimp only
  split
  · exact ⟨_, hu, hs⟩
  · split
    · next r hr =>
      split
      · exact ⟨_, hu, hs⟩
      · refine goes _ (startsFrom_applyHeat_run _ _ (fun r' hr' => ?_))
        obtain rfl : r = r' := Option.some.inj (hr.symm.trans hr')
        exact ⟨_, _, rfl⟩
    · next hr _ =>
      split
      · exact goes _ (startsFrom_applyHeat_run _ _ (fun r' hr' => absurd (hr.symm.trans hr') (by simp)))
      · exact goes _ (startsFrom_setActive _ _)
    · exact ⟨_, hu, hs⟩

/-- The windows of an engine whose active bank is empty do not start; a bank that was loaded before the checksum row failed is
unloaded. -/
theorem startRun_unloaded {b e : Nat} (h : (getEngine s b e).unloadStale.active.loaded = false) :
    EngineBecomes s (startRun s b e) b e (getEngine s b e).unloadStale := by
  have hx : getEngine (updEngine s b e Engine.unloadStale) b e = (getEngine s b e).unloadStale := getEngine_upd_self s b e _
  unfold startRun
  simp only [hx, h, Bool.not_false, Bool.or_true, if_true]
  exact engineBecomes_updEngine s b e Engine.unloadStale

/-- The first run of a block. -/
def newRun (s : State) (x : Engine) (id : CmdId) (k : OptBlock) : Run :=
  { id := id, block := k, count := blockVectors s id k, sigma2 := x.sigmaNow (classOf s id) }

/-- A change of an engine leaves what commands want. -/
theorem wantsBlock_updEngine (s : State) (b e : Nat) (f : Engine → Engine) (e' : Nat) (id : CmdId) (k : OptBlock) :
    wantsBlock (updEngine s b e f) e' id k = wantsBlock s e' id k := rfl

/-- The windows of a block that its command wants start, when nothing stands against it. -/
theorem startRun_begins {b e : Nat} {x : Engine} {id : CmdId} {k : OptBlock} (hx : x = getEngine s b e)
    (hp : x.rowPend.any (fun p => p.1 == 128) = false) (hr : x.run = none) (hw : engineWorks s b e = true)
    (hg : x.guard = false) (hq : x.paused = false) (hs : x.lhSwitching = false) (ha : x.active.loaded = true)
    (hk : x.active.block = some (id, k)) (hwant : wantsBlock s e id k = true) :
    EngineBecomes s (startRun s b e) b e { x.applyHeat with run := some (newRun s x id k) } := by
  subst hx
  have hu : getEngine (updEngine s b e Engine.unloadStale) b e = getEngine s b e := by
    rw [getEngine_upd_self, unloadStale_id hp]
  have hw' : engineWorks (updEngine s b e Engine.unloadStale) b e = true := by
    rw [engineWorks_updEngine, hw] <;> rw [unloadStale_id hp]
  have h := engineBecomes_trans (engineBecomes_updEngine s b e Engine.unloadStale)
    (engineBecomes_updEngine _ b e (fun y => { y.applyHeat with run := some (newRun s (getEngine s b e) id k) }))
  rw [hu] at h
  unfold startRun
  simp only [hu, hw', hg, hq, hs, ha, hr, hk, wantsBlock_updEngine, hwant, classOf_updEngine]
  exact h

/-! ## The boundary of an engine -/

/-- An engine with no test next stays as it is at its boundary. -/
theorem engineBoundary_of_none {b e : Nat} (h : nextTest s (.engine b e) = none) : engineBoundary s b e = s := by
  unfold engineBoundary
  rw [h]

/-- A change of an engine leaves the tests. -/
theorem nextTest_updEngine (s : State) (b e : Nat) (f : Engine → Engine) (el : Element) :
    nextTest (updEngine s b e f) el = nextTest s el := rfl

/-! ## HEATER_TICK -/

/-- Without a window under way the heater codes for an estimate are in effect at once, with one they wait (R79). -/
theorem heaterTick_cases (x : Engine) (t : Int) (c : Nat) :
    (x.windowing = true ∧ x.heaterTick t c =
      { x with temp := t, comb := c, stale := decide (4000 < (t - x.calTemp).natAbs), heatWait := some t }) ∨
    (x.windowing = false ∧ x.heaterTick t c = { x with
      temp := t, comb := c, stale := decide (4000 < (t - x.calTemp).natAbs), heatIn := t, heatWait := none }) := by
  unfold Engine.heaterTick
  cases x.windowing
  · exact .inr ⟨rfl, rfl⟩
  · exact .inl ⟨rfl, rfl⟩

theorem heaterTick_row (s : State) (b e : Nat) (t : Int) (c : Nat) {x : Engine} (hx : x = getEngine s b e) :
    ∃ y, EngineBecomes s (updEngine s b e (fun x => (x.heaterTick t c).evaluate (now s) (classOf s))) b e y ∧
      y.temp = t ∧ y.comb = c ∧ (y.stale = true ↔ 4000 < (t - x.calTemp).natAbs) ∧
      y.widen2 = widening2 (t - x.calTemp) (now s - x.calTide) x.slope ∧ y.calTemp = x.calTemp ∧ y.slope = x.slope ∧
      (x.windowing = true → y.heatWait = some t ∧ y.heatIn = x.heatIn) ∧
      (x.windowing = false → y.heatWait = none ∧ y.heatIn = t) := by
  subst hx
  refine ⟨_, engineBecomes_updEngine s b e _, ?_⟩
  obtain ⟨hw, h⟩ | ⟨hw, h⟩ := heaterTick_cases (getEngine s b e) t c <;>
    simp [h, hw, Engine.evaluate, Engine.widening]

/-! ## TAP_MONITOR_TICK -/

theorem mem_linesOff {x : Engine} {ppm : List Nat} {j : Nat} : j ∈ linesOff x ppm ↔
    j < 132 ∧ x.normOf j < 100 * ((ppm.getD j (x.normOf j) : Nat) - (x.normOf j : Int)).natAbs := by
  simp [linesOff]

theorem linesOff_eq_nil {x : Engine} {ppm : List Nat} : linesOff x ppm = [] ↔
    ∀ j, j < 132 → 100 * ((ppm.getD j (x.normOf j) : Nat) - (x.normOf j : Int)).natAbs ≤ x.normOf j := by
  simp only [List.eq_nil_iff_forall_not_mem, mem_linesOff, not_and, Nat.not_lt]

/-- A flag on one command leaves every command in flight, and a flag that it has set. -/
theorem findCmd_flagCmd_keeps {P : TallyAcc → Prop} {f : TallyAcc → TallyAcc} (hf : ∀ t, P t → P (f t)) {id i : CmdId}
    (h : ∃ c, findCmd s i = some c ∧ P c.tally) : ∃ c, findCmd (flagCmd s id f) i = some c ∧ P c.tally := by
  obtain ⟨c, hc, hp⟩ := h
  by_cases hi : i = id
  · subst hi
    exact ⟨_, flagCmd_self f hc, hf _ hp⟩
  · exact ⟨c, (findCmd_updCmd_other (f := fun c => { c with tally := f c.tally }) (fun _ => rfl) hi).trans hc, hp⟩

/-- The commands of a list carry the calibration-stale flag (R82). -/
def flagStale (s : State) (l : List CmdId) : State :=
  l.foldl (fun t id => flagCmd t id (fun a => { a with calStale := true })) s

theorem flagStale_frame (s : State) (l : List CmdId) : flagStale s l = { s with ctxs := (flagStale s l).ctxs } :=
  foldl_rel (R := fun u t => t = { u with ctxs := t.ctxs }) (fun _ => rfl) (fun h g => by rw [g, h]) (fun _ _ => rfl) l s

theorem getEngine_flagStale (l : List CmdId) (b e : Nat) : getEngine (flagStale s l) b e = getEngine s b e := by
  rw [flagStale_frame]
  rfl

theorem flagStale_cmd {l : List CmdId} {id : CmdId} {c : Cmd} (hid : id ∈ l) (hc : findCmd s id = some c) :
    ∃ d, findCmd (flagStale s l) id = some d ∧ d.tally.calStale = true :=
  foldl_reaches (f := fun t i => flagCmd t i (fun a => { a with calStale := true }))
    (I := fun t => ∃ c, findCmd t id = some c ∧ True)
    (P := fun t => ∃ d, findCmd t id = some d ∧ d.tally.calStale = true)
    (fun _ _ => findCmd_flagCmd_keeps (P := fun _ => True) (fun _ _ => trivial))
    (fun _ _ => findCmd_flagCmd_keeps (P := fun a => a.calStale = true) (fun _ _ => rfl))
    (fun _ ⟨_, h, _⟩ => ⟨_, flagCmd_self _ h, rfl⟩) hid ⟨c, hc, trivial⟩

/-- The lines that a reading found off wait for their renormalisation (R82). -/
def Engine.tapsOff (x : Engine) (ppm off : List Nat) : Engine :=
  { x with tapOff := x.tapOff.filter (fun p => !off.contains p.1) ++ off.map (fun k => (k, ppm.getD k 0)) }

theorem tapTick_off {b e : Nat} {ppm : List Nat} (h : linesOff (getEngine s b e) ppm ≠ []) :
    tapTick s b e ppm = flagStale (updEngine s b e (fun y => y.tapsOff ppm (linesOff (getEngine s b e) ppm)))
      (getEngine s b e).ranSince := if_neg h

theorem tapTick_clears {b e : Nat} {ppm : List Nat} (h : linesOff (getEngine s b e) ppm = []) :
    tapTick s b e ppm = updEngine s b e (fun y => { y with ranSince := [] }) := if_pos h

theorem tapTick_off_row {b e j : Nat} {ppm : List Nat} (h : j ∈ linesOff (getEngine s b e) ppm) :
    tapTick s b e ppm = { s with engines := (tapTick s b e ppm).engines, ctxs := (tapTick s b e ppm).ctxs } ∧
      (j, ppm.getD j 0) ∈ (getEngine (tapTick s b e ppm) b e).tapOff ∧
      (∀ id c, id ∈ (getEngine s b e).ranSince → findCmd s id = some c →
        ∃ d, findCmd (tapTick s b e ppm) id = some d ∧ d.tally.calStale = true) := by
  rw [tapTick_off (List.ne_nil_of_mem h)]
  refine ⟨by rw [flagStale_frame]; rfl, ?_, fun id c hid hc => flagStale_cmd hid hc⟩
  rw [getEngine_flagStale, getEngine_upd_self]
  exact List.mem_append_right _ (List.mem_map_of_mem h)

/-! ## RATE_DETECTOR_TICK -/

/-- What a slope leaves of an engine: the thermal-step mark, and a pause that begins at once when no block runs (R100, R101). -/
def Engine.rateTick (x : Engine) (v : Int) : Engine :=
  { x with
    slope := v
    thermalStep := decide (10000 < v.natAbs)
    pauseWanted := if x.run.isSome then x.pauseWanted || decide (25000 < v.natAbs) else false
    paused := x.paused || (x.run.isNone && (decide (25000 < v.natAbs) || x.pauseWanted)) }

theorem rateTick_fields (x : Engine) (v : Int) : (x.rateTick v).slope = v ∧
    ((x.rateTick v).thermalStep = true ↔ 10000 < v.natAbs) ∧
    (25000 < v.natAbs → x.run.isSome = true → (x.rateTick v).pauseWanted = true ∧ (x.rateTick v).paused = x.paused) ∧
    (25000 < v.natAbs → x.run = none → (x.rateTick v).paused = true) ∧
    (v.natAbs ≤ 25000 → x.pauseWanted = false →
      (x.rateTick v).pauseWanted = false ∧ (x.rateTick v).paused = x.paused) := by
  refine ⟨rfl, decide_eq_true_iff, fun hv hr => ?_, fun hv hr => ?_, fun hv hp => ?_⟩
  · obtain ⟨r, hr⟩ := Option.isSome_iff_exists.mp hr
    simp [Engine.rateTick, hr, hv]
  · simp [Engine.rateTick, hr, hv]
  · simp [Engine.rateTick, hp, Nat.not_lt.mpr hv]

theorem rateDetectorTick_of_none {b e : Nat} (v : Int) (he : hasEngine s b e = true) (h7 : released s 7 = true)
    (hn : nextTest s (.engine b e) = none) :
    exec (.rateDetectorTick b e v) s = .next (updEngine s b e (fun x => x.rateTick v)) :=
  guarded_next.mpr ⟨he, (onceReleased_of h7).trans (engineBoundary_of_none ((nextTest_updEngine s b e _ _).trans hn))⟩

/-! ## THERMAL_RESUME -/

theorem thermalResume_ends {b e : Nat} {x : Engine} (he : hasEngine s b e = true) (hx : x = getEngine s b e)
    (hp : x.paused = true) (hs : x.slope.natAbs ≤ 10000) (hw : x.heatWait = none) :
    exec (.thermalResume b e true) s = .next (startRun (updEngine s b e (fun y => { y with paused := false })) b e) := by
  subst hx
  exact guarded_next.mpr ⟨he, if_pos (by simp [hp, hs, hw])⟩

theorem thermalResume_not {b e : Nat} {x : Engine} {settled : Bool} (he : hasEngine s b e = true) (hx : x = getEngine s b e)
    (h : settled = false ∨ x.paused = false ∨ 10000 < x.slope.natAbs ∨ x.heatWait ≠ none) :
    exec (.thermalResume b e settled) s = .next s := by
  subst hx
  refine guarded_next.mpr ⟨he, if_neg ?_⟩
  simp only [Bool.and_eq_true, decide_eq_true_eq, Option.isNone_iff_eq_none]
  rintro ⟨⟨⟨h1, h2⟩, h3⟩, h4⟩
  rcases h with h | h | h | h
  · simp [h] at h2
  · simp [h] at h1
  · omega
  · exact h h3

theorem thermalResume_row {b e : Nat} {x : Engine} (hx : x = getEngine s b e) :
    ∃ t, t = startRun (updEngine s b e (fun y => { y with paused := false })) b e ∧
      t = { s with engines := t.engines } ∧ (getEngine t b e).paused = false ∧
      (∀ r, x.run = some r → r.live = true → x.rowPend.any (fun p => p.1 == 128) = false →
        EngineBecomes s t b e { x with paused := false }) := by
  subst hx
  have hu := engineBecomes_updEngine s b e (fun y => { y with paused := false })
  have hg := hu.2.2
  obtain ⟨y, hy, hs, -⟩ := startRun_engine (updEngine s b e (fun y => { y with paused := false })) b e
  obtain ⟨ht, -, hty⟩ := hy
  refine ⟨_, rfl, ht, ?_, fun r hr hl hp => ?_⟩
  · rw [hty, hs, hg]
  · have h := startRun_live (b := b) (e := e) (r := r) (s := updEngine s b e (fun y => { y with paused := false }))
      (by rw [hg]; exact hp) (by rw [hg]; exact hr) hl
    rw [hg] at h
    exact engineBecomes_trans hu h

/-- Settles O40: each tick is a change of its engine, and of the flags of its commands. -/
theorem engineTicksFollowTemperature : Obligations.EngineTicksFollowTemperature := by
  unfold Obligations.EngineTicksFollowTemperature
  refine ⟨fun s b e x t c he h7 hx => ?_, fun s b e x ppm he h7 hx => ⟨fun h => ?_, fun j hj h => ?_⟩,
    fun s b e x v he h7 hx hn => ?_, fun s b e t c v l he h7 => ?_, fun s b e x he hx => ⟨fun hp hs hw => ?_, fun h => ?_, ?_⟩⟩
  · obtain ⟨y, hy, h⟩ := heaterTick_row s b e t c hx
    exact ⟨_, y, guarded_next.mpr ⟨he, onceReleased_of h7⟩, hy, h⟩
  · subst hx
    exact ⟨_, guarded_next.mpr ⟨he, (onceReleased_of h7).trans (tapTick_clears (linesOff_eq_nil.mpr h))⟩,
      engineBecomes_updEngine s b e _⟩
  · subst hx
    exact ⟨_, guarded_next.mpr ⟨he, onceReleased_of h7⟩, tapTick_off_row (mem_linesOff.mpr ⟨hj, h⟩)⟩
  · subst hx
    exact ⟨_, _, rateDetectorTick_of_none v he h7 hn, engineBecomes_updEngine s b e _, rateTick_fields _ v⟩
  · have not : ∀ t, guarded (hasEngine s b e) (onceReleased s 7 t) = .next s := fun t =>
      guarded_next.mpr ⟨he, onceReleased_not h7⟩
    exact ⟨not _, not _, not _⟩
  · obtain ⟨t, ht, h⟩ := thermalResume_row hx
    exact ⟨t, (thermalResume_ends he hx hp hs hw).trans (congrArg _ ht.symm), h⟩
  · exact thermalResume_not he hx (.inr h)
  · exact thermalResume_not he hx (.inl rfl)

end Sys2Proof.Machine
end

section
/-! SUPPORT. Banks: what a load, a switch and the end of the guard leave of an engine. -/

namespace Sys2Proof.Machine

variable {s : State}

/-! ## The two banks -/

@[simp] theorem active_setActive (x : Engine) (k : Bank) : (x.setActive k).active = k := by
  unfold Engine.setActive Engine.active
  cases x.activeB <;> simp

@[simp] theorem active_setIdle (x : Engine) (k : Bank) : (x.setIdle k).active = x.active := by
  unfold Engine.setIdle Engine.active
  cases x.activeB <;> simp

@[simp] theorem idle_setIdle (x : Engine) (k : Bank) : (x.setIdle k).idle = k := by
  unfold Engine.setIdle Engine.idle
  cases x.activeB <;> simp

/-- A bank that is written is all that changes of an engine. -/
theorem setActive_frame (x : Engine) (k : Bank) :
    x.setActive k = { x with bankA := (x.setActive k).bankA, bankB := (x.setActive k).bankB } := by
  unfold Engine.setActive
  split <;> rfl

theorem setIdle_frame (x : Engine) (k : Bank) :
    x.setIdle k = { x with bankA := (x.setIdle k).bankA, bankB := (x.setIdle k).bankB } := by
  unfold Engine.setIdle
  split <;> rfl

/-- A run that starts leaves the active bank. -/
theorem active_applyHeat_run (x : Engine) (r : Option Run) : ({ x.applyHeat with run := r } : Engine).active = x.active := rfl

/-- Both banks emptied, whichever is active. -/
theorem setIdle_setActive_empty (x : Engine) : (x.setActive {}).setIdle {} = { x with bankA := {}, bankB := {} } := by
  unfold Engine.setActive Engine.setIdle
  cases x.activeB <;> simp

/-! ## BANK_LOAD_DONE -/

/-- A block goes into a bank with the waiting moves, and its command to the end of the rotation (R71, R213). -/
def Engine.takeBlock (x : Engine) (toActive : Bool) (k : Bank) (id : CmdId) : Engine :=
  { x.load toActive k with rotationList := x.rotationList.filter (fun i => decide (i ≠ id)) ++ [id] }

/-- A load changes the banks, the maps of lines and rows, and the rotation. -/
theorem takeBlock_frame (x : Engine) (toActive : Bool) (k : Bank) (id : CmdId) : x.takeBlock toActive k id =
    { x.applyMoves with
      bankA := (x.takeBlock toActive k id).bankA
      bankB := (x.takeBlock toActive k id).bankB
      rotationList := x.rotationList.filter (fun i => decide (i ≠ id)) ++ [id] } := by
  unfold Engine.takeBlock Engine.load
  cases toActive
  · rw [if_neg (by decide), setIdle_frame]
  · rw [if_pos rfl, setActive_frame]

theorem takeBlock_active (x : Engine) (k : Bank) (id : CmdId) : (x.takeBlock true k id).active = k :=
  active_setActive x.applyMoves k

theorem takeBlock_idle (x : Engine) (k : Bank) (id : CmdId) :
    (x.takeBlock false k id).idle = k ∧ (x.takeBlock false k id).active = x.active :=
  ⟨idle_setIdle x.applyMoves k, active_setIdle x.applyMoves k⟩

/-- The block that is next on an engine is one that its command, started, still wants. -/
theorem nextBlock_wanted {b e : Nat} {c : Cmd} {k : OptBlock} (h : nextBlock s b e = some (c, k)) :
    wantsBlock s e c.id k = true := by
  obtain ⟨id, -, hid⟩ := List.exists_of_findSome?_eq_some h
  split at hid
  · next m hm =>
    split at hid
    · next hp =>
      obtain ⟨t, ht, hck⟩ := Option.map_eq_some_iff.mp hid
      obtain ⟨rfl, rfl⟩ := Prod.mk.inj hck
      have he := List.find?_some ht
      simp only [Bool.and_eq_true, beq_iff_eq] at he
      have hmem : (e, t.2) ∈ m.opt.todo := by
        rw [← he.1]
        exact List.mem_of_find?_eq_some ht
      unfold wantsBlock
      rw [findCmd_id hm, hm]
      simp [hp, hmem]
    · cases hid
  · cases hid

/-- The next block is loaded when a bank is free for it. -/
theorem bankLoadDone_takes {b e : Nat} {x : Engine} {c : Cmd} {k : OptBlock} (hx : x = getEngine s b e)
    (hw : engineWorks s b e = true) (hg : x.guard = false) (hn : nextBlock s b e = some (c, k))
    (hi : x.idle.loaded = false) (hr : x.run = none ∨ x.active.loaded = true) :
    bankLoadDone s b e = startRun (updEngine s b e (fun y => y.takeBlock
      (decide (x.run = none) && !x.active.loaded && firstBlock x e c) (loadBank (seenFrom s b) c k) c.id)) b e := by
  subst hx
  unfold bankLoadDone
  dsimp only
  rw [if_neg (by simp [hw, hg])]
  split
  · next r h1 h2 => simp [h1, h2] at hr
  · rw [if_neg (by simp [hi]), hn]
    simp only [Engine.takeBlock]

/-- The first block of a command starts at once on an engine that runs nothing and holds nothing (R85). -/
theorem bankLoadDone_first {b e : Nat} {x : Engine} {c : Cmd} {k : OptBlock} (hx : x = getEngine s b e)
    (hw : engineWorks s b e = true) (hg : x.guard = false) (hn : nextBlock s b e = some (c, k)) (hr : x.run = none)
    (ha : x.active.loaded = false) (hi : x.idle.loaded = false) (hf : firstBlock x e c = true) (hp : x.paused = false)
    (hl : x.lhSwitching = false) :
    EngineBecomes s (bankLoadDone s b e) b e { (x.takeBlock true (loadBank (seenFrom s b) c k) c.id).applyHeat with
      run := some (newRun s (x.takeBlock true (loadBank (seenFrom s b) c k) c.id) c.id k) } := by
  have hb := bankLoadDone_takes hx hw hg hn hi (.inl hr)
  subst hx
  simp only [hr, ha, hf, decide_true, Bool.not_false, Bool.and_self] at hb
  rw [hb]
  have hload : (loadBank (seenFrom s b) c k).loaded = true ∧ (loadBank (seenFrom s b) c k).block = some (c.id, k) := ⟨rfl, rfl⟩
  generalize loadBank (seenFrom s b) c k = bank at hload
  obtain ⟨hloaded, hblock⟩ := hload
  have hu := engineBecomes_updEngine s b e (fun y => y.takeBlock true bank c.id)
  have hact := takeBlock_active (getEngine s b e) bank c.id
  have hfr := takeBlock_frame (getEngine s b e) true bank c.id
  exact engineBecomes_trans hu (startRun_begins (s := updEngine s b e (fun y => y.takeBlock true bank c.id)) hu.2.2.symm
    (by rw [hfr]; rfl) (by rw [hfr]; exact hr) ((engineWorks_updEngine b e (by rw [hfr]; rfl) (by rw [hfr]; rfl)).trans hw)
    (by rw [hfr]; exact hg) (by rw [hfr]; exact hp) (by rw [hfr]; exact hl) (by rw [hact]; exact hloaded)
    (by rw [hact]; exact hblock) ((wantsBlock_updEngine s b e _ e c.id k).trans (nextBlock_wanted hn)))

/-- A block that goes to the idle bank waits for the switch: no windows start where none were under way. -/
theorem bankLoadDone_waits {b e : Nat} {x : Engine} {c : Cmd} {k : OptBlock} (hx : x = getEngine s b e)
    (hw : engineWorks s b e = true) (hg : x.guard = false) (hn : nextBlock s b e = some (c, k))
    (hi : x.idle.loaded = false) (hr : x.active.loaded = false ∧ x.run = none ∧ firstBlock x e c = false ∨
      x.active.loaded = true ∧ ∃ r, x.run = some r ∧ r.live = true) :
    EngineBecomes s (bankLoadDone s b e) b e (x.takeBlock false (loadBank (seenFrom s b) c k) c.id) := by
  have hb := bankLoadDone_takes hx hw hg hn hi (hr.imp (fun h => h.2.1) (fun h => h.1))
  have hto : (decide (x.run = none) && !x.active.loaded && firstBlock x e c) = false := by
    rcases hr with ⟨-, -, hf⟩ | ⟨ha, -⟩
    · rw [hf, Bool.and_false]
    · rw [ha, Bool.not_true, Bool.and_false, Bool.false_and]
  rw [hto] at hb
  subst hx
  let f : Engine → Engine := fun y => y.takeBlock false (loadBank (seenFrom s b) c k) c.id
  have hu := engineBecomes_updEngine s b e f
  have hact : (f (getEngine s b e)).active = (getEngine s b e).active := (takeBlock_idle _ _ _).2
  have hfr : f (getEngine s b e) = _ := takeBlock_frame (getEngine s b e) false (loadBank (seenFrom s b) c k) c.id
  have hp : (f (getEngine s b e)).rowPend.any (fun p => p.1 == 128) = false := by rw [hfr]; rfl
  rw [hb]
  refine engineBecomes_trans hu ?_
  rcases hr with ⟨ha, -⟩ | ⟨-, r, hr, hl⟩
  · have h := startRun_unloaded (s := updEngine s b e f) (b := b) (e := e)
      (by rw [hu.2.2, unloadStale_id hp, hact]; exact ha)
    rwa [hu.2.2, unloadStale_id hp] at h
  · have h := startRun_live (s := updEngine s b e f) (b := b) (e := e) (r := r) (by rw [hu.2.2]; exact hp)
      (by rw [hu.2.2, hfr]; exact hr) hl
    rwa [hu.2.2] at h

/-! ## BANK_SWITCH -/

/-- The banks change places: the one switched away is empty, and its run waits for its last outputs (R85, R86). -/
def Engine.swapBanks (x : Engine) : Engine :=
  { x.setActive {} with activeB := !x.activeB, guard := true, finishing := x.run, run := none }

theorem swapBanks_banks (x : Engine) : x.swapBanks.active = x.idle ∧ x.swapBanks.idle = {} := by
  unfold Engine.swapBanks Engine.setActive Engine.active Engine.idle
  cases x.activeB <;> simp

/-- An engine after a switch at Tide `t`: with the pause, the renormalisation and the tables that waited for it. -/
def Engine.switched (x : Engine) (t : Nat) (cls : CmdId → Nat) : Engine :=
  ((x.swapBanks.atBoundary.renormalise.applyTables t).evaluate t cls)

/-- What waited for a switch is settled before the tables, which measured the lines anew, take effect. -/
theorem switched_cases (x : Engine) (t : Nat) (cls : CmdId → Nat) :
    (x.newTables = none ∧ x.switched t cls =
      { x.swapBanks.atBoundary.renormalise with widen2 := (x.switched t cls).widen2 }) ∨
    (∃ m, x.newTables = some m ∧ x.switched t cls =
      { x.swapBanks.atBoundary with
        newTables := none, tables := m, calTemp := x.temp, calTide := t, lineNorm := [], tapOff := [], standbyNorm := []
        stale := false, widen2 := (x.switched t cls).widen2 }) := by
  have hn : x.swapBanks.atBoundary.renormalise.newTables = x.newTables := by
    unfold Engine.swapBanks
    rw [setActive_frame]
    rfl
  have ht : x.swapBanks.temp = x.temp := by
    unfold Engine.swapBanks
    rw [setActive_frame]
  unfold Engine.switched Engine.applyTables
  rw [hn]
  cases x.newTables with
  | none => exact .inl ⟨rfl, rfl⟩
  | some m => exact .inr ⟨m, rfl, by rw [← ht]; rfl⟩

theorem switched_fields (x : Engine) (t : Nat) (cls : CmdId → Nat) {y : Engine} (hy : y = x.switched t cls) :
    y.active = x.idle ∧ y.idle = {} ∧ y.guard = true ∧ y.finishing = x.run ∧ y.run = none ∧
    y.paused = (x.paused || x.pauseWanted) ∧ y.pauseWanted = false ∧ y.tapOff = [] ∧ y.newTables = none ∧
    (∀ m, x.newTables = some m → y.tables = m ∧ y.calTemp = x.temp ∧ y.calTide = t ∧ y.stale = false ∧ y.lineNorm = [] ∧
      y.standbyNorm = []) ∧
    (x.newTables = none → y.tables = x.tables ∧ y.calTemp = x.calTemp ∧ y.lineNorm = x.renormalise.lineNorm) := by
  obtain ⟨ha, hi⟩ := swapBanks_banks x
  have hfr : x.swapBanks = { x with
      bankA := (x.setActive {}).bankA, bankB := (x.setActive {}).bankB
      activeB := !x.activeB, guard := true, finishing := x.run, run := none } := by
    unfold Engine.swapBanks
    rw [setActive_frame]
  obtain ⟨hn, h⟩ | ⟨m, hn, h⟩ := switched_cases x t cls <;> rw [← hy] at h <;> rw [h, hn]
  · refine ⟨ha, hi, rfl, rfl, rfl, by rw [hfr]; rfl, rfl, rfl, by rw [hfr]; exact hn, fun m hm => (by cases hm), fun _ => ?_⟩
    rw [hfr]
    exact ⟨rfl, rfl, rfl⟩
  · refine ⟨ha, hi, rfl, rfl, rfl, by rw [hfr]; rfl, rfl, rfl, rfl, fun m' hm => ?_, fun hm => (by cases hm)⟩
    obtain rfl := Option.some.inj hm
    exact ⟨rfl, rfl, rfl, rfl, rfl, rfl⟩

theorem bankSwitch_switches {b e : Nat} {x : Engine} (hx : x = getEngine s b e) (hw : engineWorks s b e = true)
    (hg : x.guard = false) (hl : x.lhSwitching = false) (hf : x.finishing = none) (he : x.atEnd = true)
    (hi : x.idle.loaded = true) (hn : nextTest s (.engine b e) = none) :
    bankSwitch s b e = updEngine s b e (fun _ => x.switched (now s) (classOf s)) := by
  subst hx
  unfold bankSwitch
  simp only [hw, hg, hl, hf, he, hi]
  exact engineBoundary_of_none ((nextTest_updEngine s b e _ _).trans hn)

theorem bankSwitch_not {b e : Nat} {x : Engine} (hx : x = getEngine s b e)
    (h : x.idle.loaded = false ∨ x.atEnd = false ∨ x.guard = true ∨ x.finishing.isSome = true) : bankSwitch s b e = s := by
  subst hx
  unfold bankSwitch
  refine if_pos ?_
  rcases h with h | h | h | h <;> simp [h]

/-! ## GUARD_END -/

theorem guardEnd_ends {b e : Nat} (he : hasEngine s b e = true) (hg : (getEngine s b e).guard = true) :
    exec (.guardEnd b e) s = .next (startRun (updEngine s b e (fun x => { x with guard := false })) b e) :=
  guarded_next.mpr ⟨he, if_pos hg⟩

/-- The windows of the block in the active bank start at the end of the guard. -/
theorem guardEnd_begins {b e : Nat} {x : Engine} {id : CmdId} {k : OptBlock} (hx : x = getEngine s b e)
    (hw : engineWorks s b e = true) (hq : x.paused = false) (hs : x.lhSwitching = false) (hr : x.run = none)
    (ha : x.active.loaded = true) (hk : x.active.block = some (id, k)) (hwant : wantsBlock s e id k = true)
    (hp : x.rowPend.any (fun p => p.1 == 128) = false) :
    EngineBecomes s (startRun (updEngine s b e (fun x => { x with guard := false })) b e) b e
      { x.applyHeat with guard := false, run := some (newRun s x id k) } := by
  subst hx
  have hu := engineBecomes_updEngine s b e (fun x => { x with guard := false })
  exact engineBecomes_trans hu (startRun_begins (s := updEngine s b e (fun x => { x with guard := false })) hu.2.2.symm hp hr
    ((engineWorks_updEngine b e (f := fun x => { x with guard := false }) rfl rfl).trans hw) rfl hq hs ha hk
    ((wantsBlock_updEngine s b e _ e id k).trans hwant))

/-- With a checksum row that waits for a spare the banks are unloaded instead (R72). -/
theorem guardEnd_unloads {b e : Nat} {x : Engine} (hx : x = getEngine s b e) (hr : x.run = none)
    (hp : x.rowPend.any (fun p => p.1 == 128) = true) :
    EngineBecomes s (startRun (updEngine s b e (fun x => { x with guard := false })) b e) b e
      { x with guard := false, bankA := {}, bankB := {} } := by
  subst hx
  have hu := engineBecomes_updEngine s b e (fun x => { x with guard := false })
  have hun : ({ getEngine s b e with guard := false } : Engine).unloadStale =
      { getEngine s b e with guard := false, bankA := {}, bankB := {} } := by
    unfold Engine.unloadStale
    simp only [hp, hr, if_true]
    exact setIdle_setActive_empty _
  have h := startRun_unloaded (s := updEngine s b e (fun x => { x with guard := false })) (b := b) (e := e)
    (by rw [hu.2.2, hun]; simp [Engine.active])
  rw [hu.2.2, hun] at h
  exact engineBecomes_trans hu h

/-- Settles O38: a load goes to the active or to the idle bank, then the switch, then the end of the guard. -/
theorem banksLoadAndSwitch : Obligations.BanksLoadAndSwitch := by
  unfold Obligations.BanksLoadAndSwitch
  refine ⟨fun s b e x c k he hx hw hg hn => ⟨?_, ?_, ?_⟩, fun s b e x he hx => ⟨?_, ?_⟩, fun s b e x he hx => ⟨?_, ?_, ?_⟩⟩
  · intro hr ha hi hf hp hl
    have hfr := takeBlock_frame x true (loadBank (seenFrom s b) c k) c.id
    refine ⟨_, _, _, guarded_next.mpr ⟨he, rfl⟩, bankLoadDone_first hx hw hg hn hr ha hi hf hp hl,
      (active_applyHeat_run _ _).trans (takeBlock_active x _ c.id), ?_, ?_, ?_, rfl, rfl, rfl, rfl, rfl, rfl, rfl⟩
    all_goals
      rw [hfr]
      rfl
  · intro hr ha hi hf
    obtain ⟨h1, h2⟩ := takeBlock_idle x (loadBank (seenFrom s b) c k) c.id
    refine ⟨_, _, guarded_next.mpr ⟨he, rfl⟩, bankLoadDone_waits hx hw hg hn hi (.inl ⟨ha, hr, hf⟩), h1, h2, ?_⟩
    rw [takeBlock_frame]
    exact hr
  · intro r hr hl ha hi
    obtain ⟨h1, h2⟩ := takeBlock_idle x (loadBank (seenFrom s b) c k) c.id
    refine ⟨_, _, guarded_next.mpr ⟨he, rfl⟩, bankLoadDone_waits hx hw hg hn hi (.inr ⟨ha, r, hr, hl⟩), h1, h2, ?_⟩
    rw [takeBlock_frame]
    exact ⟨rfl, rfl, rfl⟩
  · intro hw hg hl hf ha hi hn
    exact ⟨_, _, guarded_next.mpr ⟨he, bankSwitch_switches hx hw hg hl hf ha hi hn⟩, engineBecomes_updEngine s b e _,
      switched_fields x (now s) (classOf s) rfl⟩
  · exact fun h => guarded_next.mpr ⟨he, bankSwitch_not hx h⟩
  · intro id k hg hw hq hs hr ha hk hwant hp
    exact ⟨_, _, guardEnd_ends he (hx ▸ hg), guardEnd_begins hx hw hq hs hr ha hk hwant hp, rfl, rfl, rfl, rfl, rfl⟩
  · exact fun hg hr hp => ⟨_, guardEnd_ends he (hx ▸ hg), guardEnd_unloads hx hr hp⟩
  · exact fun hg => guarded_next.mpr ⟨he, if_neg (by rw [← hx, hg]; decide)⟩

end Sys2Proof.Machine
end

section
/-! SUPPORT. Windows and outputs: a change of the commands of every context, what a window counts, repeats or ends, and how an
output joins its run and a block its command. -/

namespace Sys2Proof.Machine

variable {s : State}

/-! ## A change of the commands of every context -/

theorem findCmd_congr {t : State} {id : CmdId} (h : t.ctxs = s.ctxs) : findCmd t id = findCmd s id := by
  unfold findCmd getCtx
  rw [h]

/-- Some commands in flight, of whatever context, change. -/
def mapCmds (s : State) (hit : Cmd → Bool) (f : Cmd → Cmd) (n : Nat) : State :=
  (List.range n).foldl (fun t k => updCtx t k (fun x => { x with flight := mapIf hit f x.flight })) s

theorem mapCmds_frame (s : State) (hit : Cmd → Bool) (f : Cmd → Cmd) (n : Nat) :
    mapCmds s hit f n = { s with ctxs := (mapCmds s hit f n).ctxs } :=
  foldl_rel (R := fun u t => t = { u with ctxs := t.ctxs }) (fun _ => rfl) (fun h g => by rw [g, h]) (fun _ _ => rfl) _ s

theorem mapCmds_succ (s : State) (hit : Cmd → Bool) (f : Cmd → Cmd) (n : Nat) : mapCmds s hit f (n + 1) =
    updCtx (mapCmds s hit f n) n (fun x => { x with flight := mapIf hit f x.flight }) := by
  unfold mapCmds
  rw [List.range_succ, List.foldl_append]
  rfl

theorem getCtx_mapCmds (s : State) (hit : Cmd → Bool) (f : Cmd → Cmd) (n k : Nat) : getCtx (mapCmds s hit f n) k =
    if k < n then { getCtx s k with flight := mapIf hit f (getCtx s k).flight } else getCtx s k := by
  induction n with
  | zero => rfl
  | succ n ih =>
    rw [mapCmds_succ]
    by_cases hk : k = n
    · subst hk
      rw [getCtx_upd_self, ih, if_neg (Nat.lt_irrefl k), if_pos (Nat.lt_succ_self k)]
    · rw [getCtx_upd_other _ _ hk, ih]
      simp only [show k < n + 1 ↔ k < n by omega]

/-- A command among them is found changed when it is one of those that change. -/
theorem findCmd_mapCmds {hit : Cmd → Bool} {f : Cmd → Cmd} (hf : ∀ c, (f c).id = c.id) {n : Nat} {id : CmdId} {c : Cmd}
    (h : findCmd s id = some c) :
    findCmd (mapCmds s hit f n) id = some (if id.ctx < n then (if hit c then f c else c) else c) := by
  unfold findCmd
  rw [getCtx_mapCmds]
  split
  · have hfind : ∀ l : List Cmd, (mapIf hit f l).find? (fun c => decide (c.id = id)) =
        (l.find? (fun c => decide (c.id = id))).map (fun c => if hit c then f c else c) := fun l => by
      unfold mapIf
      rw [List.find?_map]
      simp only [Function.comp_def, mapIf_id hf]
    exact (hfind _).trans (by rw [show List.find? _ _ = some c from h]; rfl)
  · exact h

theorem lendBlocks_eq (s : State) (b e : Nat) :
    lendBlocks s b e = mapCmds s (fun c => decide (c.phase = .started) && onEngine b e c) (lendOf s e) 64 := rfl

/-- A command that lends its blocks keeps everything but the list of those to be run. -/
theorem lendOf_frame (s : State) (e : Nat) (c : Cmd) :
    lendOf s e c = { c with opt := { c.opt with todo := (lendOf s e c).opt.todo } } := by
  unfold lendOf
  dsimp only
  split <;> rfl

theorem lendBlocks_frame (s : State) (b e : Nat) : lendBlocks s b e = { s with ctxs := (lendBlocks s b e).ctxs } := by
  rw [lendBlocks_eq]
  exact mapCmds_frame s _ _ 64

theorem lendBlocks_cmd {id : CmdId} {c : Cmd} (b e : Nat) (h : findCmd s id = some c) :
    ∃ d, findCmd (lendBlocks s b e) id = some d ∧ d.opt.committed = c.opt.committed := by
  rw [lendBlocks_eq, findCmd_mapCmds (lendOf_id s e) h]
  refine ⟨_, rfl, ?_⟩
  split
  · split
    · rw [lendOf_frame]
    · rfl
  · rfl

/-- A test that begins at a boundary leaves the committed blocks of every command. -/
theorem engineBoundary_cmd {id : CmdId} {c : Cmd} (b e : Nat) (h : findCmd s id = some c) :
    ∃ d, findCmd (engineBoundary s b e) id = some d ∧ d.opt.committed = c.opt.committed := by
  unfold engineBoundary
  dsimp only
  split
  · exact ⟨c, h, rfl⟩
  · split
    · exact ⟨c, h, rfl⟩
    · exact lendBlocks_cmd b e h

/-! ## Runs that are repeated -/

/-- A run that is repeated changes its engine and its command. -/
theorem repeatRun_frame {b e : Nat} {r : Run} (n : Nat) (h : (getEngine s b e).run = some r) :
    repeatRun s b e n = { s with engines := (repeatRun s b e n).engines, ctxs := (repeatRun s b e n).ctxs } := by
  obtain ⟨sg, hs⟩ := repeatRun_eq n h
  rw [hs, discardRun_frame]
  rfl

theorem repeatRun_mem_faults {b e : Nat} {r : Run} (n : Nat) (h : (getEngine s b e).run = some r) :
    (repeatRun s b e n).mem = s.mem ∧ (repeatRun s b e n).faults = s.faults := by
  rw [repeatRun_frame n h]
  exact ⟨rfl, rfl⟩

theorem repeatRun_engine {b e : Nat} {r : Run} (n : Nat) (h : (getEngine s b e).run = some r) :
    ∃ sg, getEngine (repeatRun s b e n) b e = { (getEngine s b e).dropRun r with run := some (r.again n sg) } := by
  obtain ⟨sg, hs⟩ := repeatRun_eq n h
  refine ⟨sg, ?_⟩
  rw [hs]
  exact (getEngine_upd_self (discardRun s b e) b e (fun y => { y with run := some (r.again n sg) })).trans
    (by rw [discardRun_engine h])

theorem repeatRun_cmd {b e : Nat} {r : Run} {c : Cmd} (n : Nat) (h : (getEngine s b e).run = some r)
    (hc : findCmd s r.id = some c) : ∃ d, findCmd (repeatRun s b e n) r.id = some d ∧
      d.tally = { c.tally with repeats := c.tally.repeats + 1 } := by
  obtain ⟨sg, hs⟩ := repeatRun_eq n h
  obtain ⟨d, hd, ht⟩ := discardRun_cmd h hc
  have hu : findCmd (updEngine (discardRun s b e) b e (fun y => { y with run := some (r.again n sg) })) r.id = some d := hd
  rw [hs]
  exact ⟨_, flagCmd_self _ hu, by rw [ht]⟩

/-! ## INTEGRATION_WINDOW_END -/

/-- A window of run `r` ends on engine `x`: nothing stands against its windows, and its block is not at its end. -/
structure WindowEnds (s : State) (b e : Nat) (x : Engine) (r : Run) : Prop where
  engine : x = getEngine s b e
  run : x.run = some r
  works : engineWorks s b e = true
  guard : x.guard = false
  switching : x.lhSwitching = false
  ended : r.ended = false
  loaded : x.active.loaded = true

variable {b e : Nat} {x : Engine} {r : Run} {rows : List Int} {check : Int}

/-- In a run whose windows have not started, nothing happens. -/
theorem windowEnd_not_live (h : WindowEnds s b e x r) (hl : r.live = false) (o : WindowSeen) :
    windowEnd s b e rows check o = s := by
  obtain ⟨rfl, hr, -, -, -, -, -⟩ := h
  unfold windowEnd
  simp [hr, hl]

/-- A Lighthouse fault in a window is that fault (R106). -/
theorem windowEnd_lighthouse (h : WindowEnds s b e x r) (hl : r.live = true) (fed : Bool) :
    windowEnd s b e rows check ⟨fed, true⟩ = lighthouseFault s b e := by
  obtain ⟨rfl, hr, hw, hg, hs, he, ha⟩ := h
  unfold windowEnd
  simp [hr, hw, hg, hs, he, ha, hl]

/-- A window that could not be fed, or that the region or the throttle leaves out, is idle (R89, R161, R409). -/
theorem windowEnd_idle (h : WindowEnds s b e x r) (hl : r.live = true) {fed : Bool}
    (hi : fed = false ∨ (getRegion s b e).holding = true ∨ throttleIdle s b r.slot = true) :
    windowEnd s b e rows check ⟨fed, false⟩ = windowIdle s b e r := by
  obtain ⟨rfl, hr, hw, hg, hs, he, ha⟩ := h
  have hi' : (!fed || (getRegion s b e).holding || throttleIdle s b r.slot) = true := by
    rcases hi with hi | hi | hi <;> simp [hi]
  unfold windowEnd
  simp [hr, hw, hg, hs, he, ha, hl, hi']

/-- A window joins a tally, with the flags of its engine (R83, R100). -/
def Engine.tallied (x : Engine) (t : TallyAcc) : TallyAcc :=
  { t with
    windows := t.windows + 1
    thermalStep := t.thermalStep || x.thermalStep
    calStale := t.calStale || x.stale }

/-- What a window counts: one window for the command, with the flags of the engine, and a boundary for the engine (R79). -/
def countWindow (s : State) (b e : Nat) (x : Engine) (id : CmdId) : State :=
  updEngine (flagCmd s id (fun t => x.tallied t)) b e (fun y => { y.applyHeat with ranSince := addNew id y.ranSince })

theorem countWindow_engine (s : State) (b e : Nat) (x : Engine) (id : CmdId) : getEngine (countWindow s b e x id) b e =
    { (getEngine s b e).applyHeat with ranSince := addNew id (getEngine s b e).ranSince } := getEngine_upd_self _ _ _ _

theorem countWindow_cmd {id : CmdId} {c : Cmd} (b e : Nat) (x : Engine) (h : findCmd s id = some c) :
    ∃ d, findCmd (countWindow s b e x id) id = some d ∧ d.tally.windows = c.tally.windows + 1 ∧
      d.tally.mismatches = c.tally.mismatches ∧ d.tally.repeats = c.tally.repeats :=
  ⟨_, flagCmd_self x.tallied h, rfl, rfl, rfl⟩

/-- The segment that a window of run `r` is fed with. -/
def windowSegment (s : State) (b : Nat) (c : Cmd) (r : Run) : Segment :=
  inputSegment (seenFrom s b) c r.block.product (r.block.pass * (optDims c r.block.product).pass + r.next) r.block.c

/-- A window that was fed, of a block that its command wants, is counted and compared with its checksum (R93). -/
theorem windowEnd_compares {c : Cmd} (h : WindowEnds s b e x r) (hl : r.live = true) (hh : (getRegion s b e).holding = false)
    (ht : throttleIdle s b r.slot = false) (hw : wantsBlock s e r.id r.block = true) (hc : findCmd s r.id = some c) :
    windowEnd s b e rows check ⟨true, false⟩ =
      if mismatches x.active (windowSegment s b c r).codes rows check (x.sigmaNow c.tally.cls) then
        windowMismatch (countWindow s b e x r.id) b e r
      else windowClean (countWindow s b e x r.id) b e { r with slot := r.slot + 1 } (windowSegment s b c r) rows := by
  obtain ⟨rfl, hr, hwk, hg, hs, he, ha⟩ := h
  unfold windowEnd
  dsimp only
  rw [hr]
  dsimp only
  rw [if_neg (by simp [hwk, hg, hs, he, ha, hl]), if_neg (by decide), if_neg (by simp [hh, ht]), if_neg (by simp [hw]), hc]
  rfl

/-- A clean window puts its output on its way, and the run goes on to its next vector. -/
theorem windowClean_row {c : Cmd} (seg : Segment) (h : WindowEnds s b e x r) (hc : findCmd s r.id = some c) :
    ∃ t o m, t = windowClean (countWindow s b e x r.id) b e { r with slot := r.slot + 1 } seg rows ∧
      t = { s with engines := t.engines, ctxs := t.ctxs } ∧ (getEngine t b e).outputs = x.outputs ++ [o] ∧
      o.id = r.id ∧ o.block = r.block ∧ o.vector = r.next ∧ o.gen = x.gen ∧
      (getEngine t b e).run = some { r with slot := r.slot + 1, next := r.next + 1, ended := r.next + 1 == r.count } ∧
      findCmd t r.id = some m ∧ m.tally.windows = c.tally.windows + 1 ∧ m.tally.mismatches = c.tally.mismatches := by
  obtain ⟨m, hm, hw, hmm, -⟩ := countWindow_cmd b e x hc
  have hg : getEngine (windowClean (countWindow s b e x r.id) b e { r with slot := r.slot + 1 } seg rows) b e = _ :=
    getEngine_upd_self (countWindow s b e x r.id) b e _
  rw [countWindow_engine, ← h.engine] at hg
  exact ⟨_, _, m, rfl, rfl, by rw [hg]; rfl, rfl, rfl, rfl, rfl, by rw [hg], hm, hw, hmm⟩

/-- A window that mismatches counts, and its mismatch. -/
def countMismatch (s : State) (b e : Nat) (x : Engine) (id : CmdId) : State :=
  flagCmd (countWindow s b e x id) id (fun t => { t with mismatches := t.mismatches + 1 })

theorem windowMismatch_cases (s : State) (b e : Nat) (x : Engine) (r : Run) :
    windowMismatch (countWindow s b e x r.id) b e r =
      if r.number = 1 then startRun (repeatRun (countMismatch s b e x r.id) b e 2) b e
      else if r.number = 2 then sweepForRun (countMismatch s b e x r.id) b e r
      else retriesSpent (countMismatch s b e x r.id) b e r := rfl

/-- What a mismatch counts changes its engine and its command. -/
theorem countMismatch_frame (s : State) (b e : Nat) (x : Engine) (id : CmdId) : countMismatch s b e x id =
    { s with engines := (countMismatch s b e x id).engines, ctxs := (countMismatch s b e x id).ctxs } := rfl

theorem countMismatch_engine (s : State) (b e : Nat) (x : Engine) (id : CmdId) : getEngine (countMismatch s b e x id) b e =
    { (getEngine s b e).applyHeat with ranSince := addNew id (getEngine s b e).ranSince } := countWindow_engine s b e x id

theorem countMismatch_run (h : WindowEnds s b e x r) : (getEngine (countMismatch s b e x r.id) b e).run = some r := by
  rw [countMismatch_engine, ← h.engine]
  exact h.run

theorem countMismatch_cmd {id : CmdId} {c : Cmd} (b e : Nat) (x : Engine) (h : findCmd s id = some c) :
    ∃ d, findCmd (countMismatch s b e x id) id = some d ∧ d.tally.windows = c.tally.windows + 1 ∧
      d.tally.mismatches = c.tally.mismatches + 1 ∧ d.tally.repeats = c.tally.repeats := by
  obtain ⟨d, hd, hw, hm, hr⟩ := countWindow_cmd b e x h
  exact ⟨_, flagCmd_self (fun t => { t with mismatches := t.mismatches + 1 }) hd, hw, congrArg (· + 1) hm, hr⟩

/-- A block that is run again from its first vector: its windows may start at once. -/
theorem startRun_repeatRun {c : Cmd} (n : Nat) (hr : (getEngine s b e).run = some r) (hc : findCmd s r.id = some c) :
    ∃ t m d, t = startRun (repeatRun s b e n) b e ∧ t = { s with engines := t.engines, ctxs := t.ctxs } ∧
      (getEngine t b e).run = some m ∧ m.id = r.id ∧ m.block = r.block ∧ m.next = 0 ∧ m.number = n ∧
      findCmd t r.id = some d ∧ d.tally = { c.tally with repeats := c.tally.repeats + 1 } := by
  obtain ⟨d, hd, htal⟩ := repeatRun_cmd n hr hc
  obtain ⟨sg, hg⟩ := repeatRun_engine n hr
  have hframe := repeatRun_frame n hr
  generalize repeatRun s b e n = u at hd hg hframe ⊢
  obtain ⟨y, ⟨ht, -, hy⟩, -, hruns⟩ := startRun_engine u b e
  obtain ⟨l, sg', hyr⟩ := hruns _ (by rw [hg])
  have hctxs : (startRun u b e).ctxs = u.ctxs := by rw [ht]
  exact ⟨_, { r.again n sg with live := l, sigma2 := sg' }, d, rfl, by rw [ht, hframe], by rw [hy]; exact hyr, rfl, rfl, rfl,
    rfl, (findCmd_congr hctxs).trans hd, htal⟩

/-- A first mismatch sets the run back to vector 0 as run 2 (R94). -/
theorem firstMismatch_row {c : Cmd} (h : WindowEnds s b e x r) (hc : findCmd s r.id = some c) :
    ∃ t n m, t = startRun (repeatRun (countMismatch s b e x r.id) b e 2) b e ∧
      t = { s with engines := t.engines, ctxs := t.ctxs } ∧ (getEngine t b e).run = some n ∧ n.id = r.id ∧
      n.block = r.block ∧ n.next = 0 ∧ n.number = 2 ∧ findCmd t r.id = some m ∧
      m.tally.windows = c.tally.windows + 1 ∧ m.tally.mismatches = c.tally.mismatches + 1 ∧
      m.tally.repeats = c.tally.repeats + 1 := by
  obtain ⟨d, hd, hw, hm, hrep⟩ := countMismatch_cmd b e x hc
  have hframe := countMismatch_frame s b e x r.id
  have hrun := countMismatch_run h
  generalize countMismatch s b e x r.id = u at hd hframe hrun ⊢
  obtain ⟨t, n, m, ht, htu, hn, h1, h2, h3, h4, hfind, htal⟩ := startRun_repeatRun 2 hrun hd
  refine ⟨t, n, m, ht, by rw [htu, hframe], hn, h1, h2, h3, h4, hfind, ?_⟩
  rw [htal]
  exact ⟨hw, hm, congrArg (· + 1) hrep⟩

/-- The engine of a run that mismatched twice leaves rotation for its test, with fault event 0x0201 (R94, R461). -/
theorem sweepForRun_row (hr : (getEngine s b e).run = some r) :
    ∃ t v, t = sweepForRun s b e r ∧ (getEngine t b e).rotation = .outOfRotation ∧ t.mem = s.mem ∧
      t.faults.unlogged = s.faults.unlogged ++ [v] ∧ v.code = 0x0201 ∧ v.site = b ∧ v.unit = e := by
  obtain ⟨hm, hf⟩ := repeatRun_mem_faults 3 hr
  obtain ⟨v, v1, v2, v3, v4, -⟩ := raise_unlogged (repeatRun s b e 3)
    { code := 0x0201, site := b, unit := e, part := partField s b, arg := blockNumber s r.id r.block }
  rw [hf] at v1
  refine ⟨_, v, rfl, ?_⟩
  unfold sweepForRun
  generalize repeatRun s b e 3 = u at hm v1 ⊢
  refine ⟨?_, ?_, ?_, v2, v3, v4⟩
  · unfold getEngine
    rw [lendBlocks_engines]
    exact congrArg Engine.rotation (getEngine_upd_self _ b e (fun x => { x with rotation := .outOfRotation }))
  · rw [lendBlocks_frame]
    exact hm
  · rw [lendBlocks_frame]
    exact v1

theorem secondMismatch_row (h : WindowEnds s b e x r) :
    ∃ t v, t = sweepForRun (countMismatch s b e x r.id) b e r ∧
      (getEngine t b e).rotation = .outOfRotation ∧ t.mem = s.mem ∧
      t.faults.unlogged = s.faults.unlogged ++ [v] ∧ v.code = 0x0201 ∧ v.site = b ∧ v.unit = e := by
  have hframe := countMismatch_frame s b e x r.id
  have hrun := countMismatch_run h
  generalize countMismatch s b e x r.id = u at hframe hrun ⊢
  have hm : u.mem = s.mem := by rw [hframe]
  have hf : u.faults = s.faults := by rw [hframe]
  rw [← hm, ← hf]
  exact sweepForRun_row hrun

theorem rotation_of_engineWorks (h : engineWorks s b e = true) : (getEngine s b e).rotation = .inRotation := by
  simp only [engineWorks, Bool.and_eq_true, decide_eq_true_eq] at h
  exact h.1.1

/-- The last permitted retry takes the engine out of service (R462). -/
theorem retriesSpent_leaves (r : Run) (h : (getEngine s b e).rotation ≠ .left) :
    (getEngine (retriesSpent s b e r) b e).rotation = .left ∧ (getEngine (retriesSpent s b e r) b e).reason = 8 :=
  getEngine_leaveService 8 h

theorem countMismatch_in_service (h : WindowEnds s b e x r) :
    (getEngine (countMismatch s b e x r.id) b e).rotation ≠ .left := by
  have hrot : (getEngine (countMismatch s b e x r.id) b e).rotation = .inRotation := by
    rw [countMismatch_engine]
    exact rotation_of_engineWorks h.works
  rw [hrot]
  decide

/-! ## WINDOW_OUTPUT -/

/-- An output that carries an old tag is dropped and counted (R105). -/
theorem windowOutput_drops {o : WindowOut} {l : List WindowOut} (hx : x = getEngine s b e) (ho : x.outputs = o :: l)
    (hg : o.gen ≠ x.gen) :
    EngineBecomes s (windowOutput s b e) b e { x with outputs := l, droppedOutputs := x.droppedOutputs + 1 } := by
  subst hx
  have hu := engineBecomes_updEngine s b e (fun y => { y with outputs := l })
  have h := engineBecomes_trans hu (engineBecomes_updEngine _ b e (fun y => { y with droppedOutputs := y.droppedOutputs + 1 }))
  rw [hu.2.2] at h
  unfold windowOutput
  simp only [ho, hg, if_false]
  exact h

/-- The partial products of the live rows of an output go to staging. -/
def stageRows (t : Tab W32) (o : WindowOut) (n : Nat) : Tab W32 :=
  (List.range n).foldl (fun t i => tabSet 0#32 t (o.vector * 128 + i) (o.parts.getD i 0)) t

theorem tabGet_stageRows (t : Tab W32) (o : WindowOut) {n i : Nat} (hi : i < n) :
    tabGet 0#32 (stageRows t o n) (o.vector * 128 + i) = o.parts.getD i 0 := by
  induction n with
  | zero => exact absurd hi (Nat.not_lt_zero i)
  | succ n ih =>
    have hstep : stageRows t o (n + 1) = tabSet 0#32 (stageRows t o n) (o.vector * 128 + n) (o.parts.getD n 0) := by
      unfold stageRows
      rw [List.range_succ, List.foldl_append]
      rfl
    rw [hstep]
    by_cases hin : i = n
    · rw [hin, tabGet_set_self]
    · rw [tabGet_set_other _ _ (by omega), ih (by omega)]

/-- The rows of an output's block that its product has. -/
def liveRows (c : Cmd) (o : WindowOut) : Nat := min 128 ((optDims c o.block.product).rows - 128 * o.block.g)

/-- The sampling register of a command's product on an engine moves on. -/
def Cmd.sampled (c : Cmd) (product e : Nat) (v : W16) : Cmd :=
  { c with opt := { c.opt with lfsr := tabSet 0#16 c.opt.lfsr (product * 16 + e) v } }

/-- An output joins the run in progress. -/
def Engine.staged (x : Engine) (c : Cmd) (o : WindowOut) (r : Run) : Engine :=
  { x with staging := stageRows x.staging o (liveRows c o), run := some r }

def joinOutput (s : State) (b e : Nat) (c : Cmd) (o : WindowOut) (v : W16) (r : Run) : State :=
  updEngine (updCmd s o.id (fun m => m.sampled o.block.product e v)) b e (fun y => y.staged c o r)

/-- An output of the run in progress joins it; the last one commits the block. -/
theorem stageOutput_joins {o : WindowOut} {c : Cmd} (hc : findCmd s o.id = some c) (b e : Nat) (r : Run) :
    ∃ v r', stageOutput s b e o r false =
        (if o.last then commitRun (joinOutput s b e c o v r') b e r' false else joinOutput s b e c o v r') ∧
      r'.arrived = r.arrived + 1 ∧ r'.id = r.id ∧ r'.block = r.block ∧ r'.sigma2 = r.sigma2 := by
  unfold stageOutput
  rw [hc]
  exact ⟨_, _, rfl, rfl, rfl, rfl, rfl⟩

/-- The oldest output, when it is one of the run in progress, leaves the list and joins it. -/
theorem windowOutput_stages {o : WindowOut} {l : List WindowOut} (hx : x = getEngine s b e) (ho : x.outputs = o :: l)
    (hg : o.gen = x.gen) (hf : x.finishing = none) (hr : x.run = some r) (hid : r.id = o.id) (hk : r.block = o.block) :
    windowOutput s b e = stageOutput (updEngine s b e (fun y => { y with outputs := l })) b e o r false := by
  subst hx
  have hof : (getEngine s b e).runOf o = some (r, false) := by
    unfold Engine.runOf
    simp [hf, hr, hid, hk]
  unfold windowOutput
  simp only [ho, hg, if_true, hof]

theorem joinOutput_frame (s : State) (b e : Nat) (c : Cmd) (o : WindowOut) (v : W16) (r : Run) : joinOutput s b e c o v r =
    { s with engines := (joinOutput s b e c o v r).engines, ctxs := (joinOutput s b e c o v r).ctxs } := rfl

theorem joinOutput_engine (s : State) (b e : Nat) (c : Cmd) (o : WindowOut) (v : W16) (r : Run) :
    getEngine (joinOutput s b e c o v r) b e = (getEngine s b e).staged c o r :=
  getEngine_upd_self (updCmd s o.id (fun m => m.sampled o.block.product e v)) b e _

theorem joinOutput_cmd {o : WindowOut} {c : Cmd} (hc : findCmd s o.id = some c) (b e : Nat) (v : W16) (r : Run) :
    findCmd (joinOutput s b e c o v r) o.id = some (c.sampled o.block.product e v) :=
  (findCmd_updCmd_self (s := s) (f := fun m => m.sampled o.block.product e v) (fun _ => rfl)).trans (by rw [hc]; rfl)

/-- A command that has started takes the block of a run. -/
def Cmd.commits (c : Cmd) (e : Nat) (r : Run) (staging : Tab W32) : Cmd :=
  if c.phase = .started then commitCmd c e r staging else c

theorem commits_id (c : Cmd) (e : Nat) (r : Run) (staging : Tab W32) : (c.commits e r staging).id = c.id := by
  unfold Cmd.commits
  split <;> rfl

/-- An engine whose run has been committed, with no bank switched in after it, stands at a boundary with its bank empty. -/
def Engine.runDone (x : Engine) : Engine := { (x.setActive {}).renormalise.atBoundary with run := none, staging := [] }

/-- The state in which a run has joined its command. -/
def runJoined (s : State) (b e : Nat) (r : Run) : State :=
  updEngine (updCmd s r.id (fun c => c.commits e r (getEngine s b e).staging)) b e Engine.runDone

theorem runJoined_cmd {c : Cmd} (b e : Nat) (hc : findCmd s r.id = some c) (hp : c.phase = .started) :
    findCmd (runJoined s b e r) r.id = some (commitCmd c e r (getEngine s b e).staging) := by
  refine (findCmd_updCmd_self (s := s) (f := fun c => c.commits e r (getEngine s b e).staging)
    (fun c => commits_id c e r _)).trans ?_
  rw [hc]
  exact congrArg some (if_pos hp)

/-- With blocks left to run, a commit ends with the boundary of its engine. -/
theorem commitRun_goesOn {c : Cmd} (b : Nat) (hc : findCmd s r.id = some c) (hp : c.phase = .started)
    (hn : c.opt.todo.filter (fun t => !(t.1 == e && decide (t.2 = r.block))) ≠ []) :
    commitRun s b e r false = engineBoundary (runJoined s b e r) b e := by
  have hrun : commitRun s b e r false = engineBoundary (match findCmd (runJoined s b e r) r.id with
    | some c => if c.phase = .started then productDone (runJoined s b e r) c else runJoined s b e r
    | none => runJoined s b e r) b e := rfl
  have hdone : productDone (runJoined s b e r) (commitCmd c e r (getEngine s b e).staging) = runJoined s b e r := if_pos hn
  rw [hrun, runJoined_cmd b e hc hp]
  dsimp only
  rw [hdone, ite_self]

/-- The last output of a block commits it with the σ² of its run (R86, R113). -/
theorem commitRun_row {c : Cmd} (b : Nat) (hc : findCmd s r.id = some c) (hp : c.phase = .started)
    (hn : c.opt.todo.filter (fun t => !(t.1 == e && decide (t.2 = r.block))) ≠ []) :
    (commitRun s b e r false).mem = s.mem ∧ ∃ m, findCmd (commitRun s b e r false) r.id = some m ∧
      m.opt.committed = c.opt.committed ++ [(r.block, r.sigma2)] := by
  rw [commitRun_goesOn b hc hp hn]
  exact ⟨(aftermath_engineBoundary (runJoined s b e r) b e).1, engineBoundary_cmd b e (runJoined_cmd b e hc hp)⟩

/-- Settles O39: the kinds of window in the order of the model's branches, then the output that is dropped, staged or
committed. -/
theorem windowsAreCheckedAndCommitted : Obligations.WindowsAreCheckedAndCommitted := by
  unfold Obligations.WindowsAreCheckedAndCommitted
  refine ⟨fun s b e rows check x r he hx hr hw hg hs hend ha => ?_, fun s b e x o l he hx ho => ⟨?_, ?_⟩, ?_⟩
  · have h : WindowEnds s b e x r := ⟨hx, hr, hw, hg, hs, hend, ha⟩
    refine ⟨fun hl seen => guarded_next.mpr ⟨he, windowEnd_not_live h hl seen⟩, fun fed hl hidle => ?_, fun fed hl h4 => ?_,
      fun c d q hl hh ht hwant hc hd hq => ?_⟩
    · rw [hx] at hr ⊢
      exact ⟨_, guarded_next.mpr ⟨he, windowEnd_idle h hl hidle⟩, engineBecomes_updEngine s b e _⟩
    · exact (guarded_next.mpr ⟨he, windowEnd_lighthouse h hl fed⟩).trans (guarded_next.mpr ⟨he, onceReleased_of h4⟩).symm
    · subst hd hq
      have hcmp := windowEnd_compares (rows := rows) (check := check) h hl hh ht hwant hc
      refine ⟨fun hm => ?_, fun hm => ?_⟩
      · rw [windowSegment, hm] at hcmp
        obtain ⟨t, o, m, ht, hrow⟩ := windowClean_row (rows := rows) (windowSegment s b c r) h hc
        exact ⟨t, o, m, guarded_next.mpr ⟨he, hcmp.trans ht.symm⟩, hrow⟩
      · rw [windowSegment, hm, if_pos rfl, windowMismatch_cases] at hcmp
        refine ⟨fun h1 => ?_, fun h2 => ?_, fun h1 h2 => ?_⟩
        · rw [if_pos h1] at hcmp
          obtain ⟨t, n, m, ht, hrow⟩ := firstMismatch_row h hc
          exact ⟨t, n, m, guarded_next.mpr ⟨he, hcmp.trans ht.symm⟩, hrow⟩
        · rw [if_neg (by omega), if_pos h2] at hcmp
          obtain ⟨t, v, ht, hrow⟩ := secondMismatch_row h
          exact ⟨t, v, guarded_next.mpr ⟨he, hcmp.trans ht.symm⟩, hrow⟩
        · rw [if_neg h1, if_neg h2] at hcmp
          exact ⟨_, guarded_next.mpr ⟨he, hcmp⟩, retriesSpent_leaves r (countMismatch_in_service h)⟩
  · exact fun hgen => ⟨_, guarded_next.mpr ⟨he, rfl⟩, windowOutput_drops hx ho hgen⟩
  · intro r c hgen hf hr hid hk hc
    have hstage := windowOutput_stages hx ho hgen hf hr hid hk
    obtain ⟨v, r', hjoin, harr, hid', hk', hsg⟩ := stageOutput_joins
      (s := updEngine s b e (fun y => { y with outputs := l })) hc b e r
    rw [hjoin] at hstage
    have hcmd := joinOutput_cmd (s := updEngine s b e (fun y => { y with outputs := l })) hc b e v r'
    refine ⟨fun hlast => ?_, fun hlast hp hn => ?_⟩
    · rw [hlast, if_neg (by decide)] at hstage
      have heng := joinOutput_engine (updEngine s b e (fun y => { y with outputs := l })) b e c o v r'
      rw [getEngine_upd_self] at heng
      refine ⟨_, r', _, guarded_next.mpr ⟨he, hstage⟩, (joinOutput_frame _ b e c o v r').trans rfl, by rw [heng]; rfl,
        by rw [heng]; rfl, harr, hcmd, rfl, rfl, fun i hi => ?_⟩
      rw [heng]
      exact tabGet_stageRows _ o hi
    · rw [hlast, if_pos rfl] at hstage
      rw [← hid, ← hid'] at hcmd
      obtain ⟨hmem, m, hm, hcom⟩ := commitRun_row b hcmd hp (by rw [hk']; exact hn)
      refine ⟨_, m, guarded_next.mpr ⟨he, hstage⟩, hmem, by rw [← hid, ← hid']; exact hm, ?_⟩
      rw [hcom, hk', hsg, hk]
      rfl
  · intro s b e he ho
    refine guarded_next.mpr ⟨he, ?_⟩
    unfold windowOutput
    simp only [ho]

end Sys2Proof.Machine
end

section
/-! SUPPORT. Engine resets, targeted tests and calibrations: what a reset ends, the test queue of one request, how an engine
returns to rotation, and the triggers of a calibration. -/

namespace Sys2Proof.Machine

variable {s : State}

/-- A change of one engine leaves the rest of the state. -/
theorem engineBecomes_rest {t : State} {b e : Nat} {y : Engine} (h : EngineBecomes s t b e y) :
    t.recovery = s.recovery ∧ t.sites = s.sites ∧ t.mem = s.mem ∧ t.faults = s.faults := by
  obtain ⟨h, -, -⟩ := h
  rw [h]
  exact ⟨rfl, rfl, rfl, rfl⟩

/-! ## ENGINE_RESET and ENGINE_RESET_DONE -/

/-- A reset that is timed like a rung changes the rungs in progress alone (R469). -/
theorem noteRung_frame (s : State) (rung reach unit : Nat) : noteRung s rung reach unit =
    { s with recovery := { s.recovery with rungs := (noteRung s rung reach unit).recovery.rungs } } := by
  unfold noteRung
  split <;> rfl

/-- A command that an engine reset ends (R105). -/
def Cmd.aborted (c : Cmd) (t : Nat) : Cmd := { c.note S_ABORTED 0 with phase := .finished, tideEnd := t }

/-- A command in progress on an engine that no timeout is stopping. -/
def endsOnEngine (b e : Nat) (c : Cmd) : Bool :=
  onEngine b e c && decide (c.phase ≠ .finished) && decide (c.phase ≠ .stopping)

theorem abortOnEngine_eq (s : State) (b e : Nat) :
    abortOnEngine s b e = mapCmds s (endsOnEngine b e) (fun c => c.aborted (now s)) 64 := rfl

theorem abortOnEngine_cmd {id : CmdId} {c : Cmd} (b e : Nat) (hid : id.ctx < 64) (h : findCmd s id = some c) :
    findCmd (abortOnEngine s b e) id = some (if endsOnEngine b e c then c.aborted (now s) else c) := by
  rw [abortOnEngine_eq, findCmd_mapCmds (f := fun c => c.aborted (now s)) (fun c => Cmd.note_id c S_ABORTED 0) h, if_pos hid]

theorem statusRank_note (c : Cmd) (st d : Nat) : statusRank st ≤ statusRank (c.note st d).status := by
  unfold Cmd.note
  split
  · exact Nat.le_refl _
  · next h => exact Nat.le_of_not_lt h

/-- The state of an engine reset: its commands are ended, its engine is cleared. -/
theorem beginEngineReset_row (s : State) (b e : Nat) :
    beginEngineReset s b e = { s with engines := (beginEngineReset s b e).engines, ctxs := (abortOnEngine s b e).ctxs } ∧
    getEngine (beginEngineReset s b e) b e = { (getEngine s b e).clear (fun g => g) with resetting := true } := by
  have hframe := mapCmds_frame s (endsOnEngine b e) (fun c => c.aborted (now s)) 64
  rw [← abortOnEngine_eq] at hframe
  unfold beginEngineReset
  generalize abortOnEngine s b e = u at hframe ⊢
  have hg : getEngine u b e = getEngine s b e := by rw [hframe]; rfl
  refine ⟨?_, ?_⟩
  · rw [hframe]
    rfl
  · rw [getEngine_upd_self, hg]

theorem engineReset_row {b e : Nat} {x : Engine} (hx : x = getEngine s b e) :
    ∃ t y, t = beginEngineReset (noteRung s 2 (engKey b e) e) b e ∧ getEngine t b e = y ∧
      y.resetting = true ∧ y.gen = x.gen ∧ y.bankA = {} ∧ y.bankB = {} ∧ y.run = none ∧ y.finishing = none ∧
      y.staging = [] ∧ t.mem = s.mem ∧ t.faults = s.faults ∧
      (∀ id c, id.ctx < 64 → findCmd s id = some c → onEngine b e c = true → c.phase ≠ .finished →
        (c.phase ≠ .stopping → ∃ d, findCmd t id = some d ∧ d.phase = .finished ∧
          statusRank S_ABORTED ≤ statusRank d.status) ∧ (c.phase = .stopping → findCmd t id = some c)) := by
  subst hx
  have hnote := noteRung_frame s 2 (engKey b e) e
  generalize noteRung s 2 (engKey b e) e = u at hnote ⊢
  obtain ⟨ht, hg⟩ := beginEngineReset_row u b e
  have hug : getEngine u b e = getEngine s b e := by rw [hnote]; rfl
  have huc : u.ctxs = s.ctxs := by rw [hnote]
  have htc : (beginEngineReset u b e).ctxs = (abortOnEngine u b e).ctxs := by rw [ht]
  rw [hug] at hg
  refine ⟨_, _, rfl, hg, rfl, rfl, rfl, rfl, rfl, rfl, rfl, by rw [ht, hnote], by rw [ht, hnote], fun id c hid hc hon hp => ?_⟩
  have hfind := (findCmd_congr htc).trans (abortOnEngine_cmd b e hid ((findCmd_congr huc).trans hc))
  refine ⟨fun hs => ⟨_, hfind, ?_⟩, fun hs => hfind.trans ?_⟩
  · rw [if_pos (by simp [endsOnEngine, hon, hp, hs])]
    exact ⟨rfl, statusRank_note c S_ABORTED 0⟩
  · rw [if_neg (by simp [endsOnEngine, hs])]

/-- The tag of an engine whose reset ends rises, and one in service goes to its test (R105, Table 15-6). -/
def Engine.resetEnds (x : Engine) : Engine :=
  { x with resetting := false, gen := x.gen + 1, rotation := if x.rotation = .left then .left else .outOfRotation }

/-- The state in which an engine's reset has ended, before its test. -/
def resetEnded (s : State) (b e : Nat) : State :=
  updEngine (blockReset (endRung s 2 (engKey b e)) (· == engineDom b e)) b e Engine.resetEnds

theorem engineResetDone_eq {b e : Nat} (h : (getEngine s b e).resetting = true) : engineResetDone s b e =
    if (getEngine s b e).rotation = .left then resetEnded s b e
    else lendBlocks (orderTest (requeueTests (resetEnded s b e) (.engine b e)) (.engine b e) 0 none) b e := if_pos h

theorem resetEnded_engine (s : State) (b e : Nat) : getEngine (resetEnded s b e) b e = (getEngine s b e).resetEnds :=
  getEngine_upd_self _ _ _ _

theorem engineResetDone_row {b e : Nat} {x : Engine} (hx : x = getEngine s b e) (hr : x.resetting = true) :
    ∃ t y, t = engineResetDone s b e ∧ getEngine t b e = y ∧ y.resetting = false ∧
      y.gen = x.gen + 1 ∧ t.mem = s.mem ∧ (x.rotation = .left → y.rotation = .left) ∧
      (x.rotation ≠ .left → y.rotation = .outOfRotation ∧
        ∃ q ∈ t.recovery.tests, q.el = .engine b e ∧ q.rank = 1 ∧ q.running = true) := by
  subst hx
  have hg := resetEnded_engine s b e
  have hm : (resetEnded s b e).mem = s.mem := rfl
  rw [engineResetDone_eq hr]
  generalize resetEnded s b e = u at hg hm ⊢
  split
  · next hl => exact ⟨_, (getEngine s b e).resetEnds, rfl, hg, rfl, rfl, hm, fun _ => if_pos hl, fun h => absurd hl h⟩
  · next hl =>
    refine ⟨_, (getEngine s b e).resetEnds, rfl, ?_, rfl, rfl, ?_, fun h => absurd h hl, fun _ => ⟨if_neg hl, ?_⟩⟩
    · unfold getEngine
      rw [lendBlocks_engines]
      exact hg
    · rw [lendBlocks_frame]
      exact hm
    · rw [lendBlocks_frame]
      exact ⟨_, List.mem_append_right _ (List.mem_singleton_self _), rfl, rfl, rfl⟩

/-! ## The queue with one test -/

/-- The state with the queue of tests empty. -/
def noTests (s : State) : State := { s with recovery := { s.recovery with tests := [] } }

theorem nextTest_of_noTests (h : s.recovery.tests = []) (el : Element) : nextTest s el = none := by
  simp [nextTest, runningTest, h]

theorem runningTest_lone {q : TestReq} {el : Element} (h : s.recovery.tests = [q]) (he : q.el = el) (hr : q.running = true) :
    runningTest s el = some q := by
  simp [runningTest, h, he, hr]

/-- The only test, which no request asked for, leaves the queue empty. -/
theorem closeTest_lone {q : TestReq} (h : s.recovery.tests = [q]) (hw : q.who = []) (fail : Bool) (enob us : Nat) :
    closeTest fail enob us s q = noTests s := by
  unfold closeTest noTests
  rw [hw, h]
  simp

theorem queueTest_first (h : s.recovery.tests = []) (q : TestReq) :
    queueTest s q = { s with recovery := { s.recovery with tests := [q] } } := by
  simp [queueTest, h]

/-- With no test queued, the boundaries of a berth change nothing. -/
theorem berthBoundaries_of_noTests (h : s.recovery.tests = []) (b : Nat) : berthBoundaries s b = s :=
  List.foldl_fixed' (fun _ => engineBoundary_of_none (nextTest_of_noTests h _)) _

/-- An engine that runs a block is at no boundary. -/
theorem engineBoundary_of_run {b e : Nat} (h : (getEngine s b e).run.isSome = true) : engineBoundary s b e = s := by
  unfold engineBoundary
  dsimp only
  split
  · rfl
  · exact if_pos (by simp [h])

/-! ## The return to rotation -/

/-- An engine that was out of rotation is in it. -/
def Engine.returned (x : Engine) : Engine := if x.rotation = .outOfRotation then { x with rotation := .inRotation } else x

/-- An engine that its test took out of rotation is back in it, and its windows may start. -/
theorem returnEngine_row {b e : Nat} (hn : s.recovery.tests = []) (hr : (getEngine s b e).rotation = .outOfRotation) :
    ∃ y, EngineBecomes s (returnEngine s b e) b e y ∧ StartsFrom { getEngine s b e with rotation := .inRotation } y := by
  have hu := engineBecomes_updEngine s b e Engine.returned
  have hf : (getEngine s b e).returned = { getEngine s b e with rotation := .inRotation } := if_pos hr
  obtain ⟨y, hy, hs⟩ := startRun_engine (updEngine s b e Engine.returned) b e
  rw [hu.2.2, hf] at hs
  have htests : (startRun (updEngine s b e Engine.returned) b e).recovery.tests = [] := by rw [hy.1]; exact hn
  refine ⟨y, ?_, hs⟩
  show EngineBecomes s (engineBoundary (startRun (updEngine s b e Engine.returned) b e) b e) b e y
  rw [engineBoundary_of_none (nextTest_of_noTests htests _)]
  exact engineBecomes_trans hu hy

/-! ## TARGETED_TEST_DONE -/

theorem targetedTestDone_engine {b e : Nat} {q : TestReq} {res : TestResult} (he : hasEngine s b e = true)
    (hq : runningTest s (.engine b e) = some q) (hc : q.code ≠ 0x10) :
    exec (.targetedTestDone (.engine b e) res) s = .next (engineTested s b e q res) := by
  refine guarded_next.mpr ⟨he, ?_⟩
  unfold testDone
  simp only [hq, hc, if_false]

/-- An engine that passes a targeted test, with fewer than 8 transients in the hour, counts one and returns (R461). -/
theorem engineTested_passes {b e : Nat} {q : TestReq} {res : TestResult} (ht : s.recovery.tests = [q]) (hw : q.who = [])
    (hrank : q.rank = 1) (hp : res.pass = true) (hr : (getEngine s b e).rotation = .outOfRotation)
    (hl : (within hourNs (now s) (getEngine s b e).transients).length < 7) :
    ∃ t, t = engineTested s b e q res ∧ (getEngine t b e).rotation = .inRotation ∧
      t.recovery.tests = [] ∧ (getSite t b).transients = (getSite s b).transients + 1 ∧ t.mem = s.mem ∧
      t.faults = s.faults := by
  have hcount : (engineTransient (noTests s) b e).2 = false :=
    decide_eq_false (by rw [List.length_append]; exact Nat.not_le.mpr (Nat.add_lt_add_right hl 1))
  have heq : engineTested s b e q res = returnEngine (engineTransient (noTests s) b e).1 b e := by
    unfold engineTested
    simp only [closeTest_lone ht hw, hp, hrank, hcount, if_true, Bool.false_eq_true, if_false]
  have hg : getEngine (engineTransient (noTests s) b e).1 b e =
      { getEngine s b e with transients := within hourNs (now s) (getEngine s b e).transients ++ [now s] } :=
    getEngine_upd_self (noTests s) b e
      (fun y => { y with transients := within hourNs (now s) (getEngine s b e).transients ++ [now s] })
  have hsite : (getSite (engineTransient (noTests s) b e).1 b).transients = (getSite s b).transients + 1 :=
    congrArg Site.transients (getSite_upd_self (updEngine (noTests s) b e
      (fun y => { y with transients := within hourNs (now s) (getEngine s b e).transients ++ [now s] })) b
      (fun k => { k with transients := k.transients + 1 }))
  have hrest : (engineTransient (noTests s) b e).1.recovery.tests = [] ∧ (engineTransient (noTests s) b e).1.mem = s.mem ∧
      (engineTransient (noTests s) b e).1.faults = s.faults := ⟨rfl, rfl, rfl⟩
  refine ⟨_, rfl, ?_⟩
  rw [heq]
  generalize (engineTransient (noTests s) b e).1 = u at hg hsite hrest ⊢
  obtain ⟨h1, h2, h3⟩ := hrest
  obtain ⟨y, hy, hs, -⟩ := returnEngine_row (b := b) (e := e) h1 (by rw [hg]; exact hr)
  obtain ⟨k1, k2, k3, k4⟩ := engineBecomes_rest hy
  have hsites : getSite (returnEngine u b e) b = getSite u b := by unfold getSite; rw [k2]
  refine ⟨by rw [hy.2.2, hs], ?_, ?_, k3.trans h2, k4.trans h3⟩
  · rw [k1]; exact h1
  · rw [hsites]; exact hsite

/-- An engine that fails its targeted test leaves service (R461). -/
theorem engineTested_fails {b e : Nat} {q : TestReq} {res : TestResult} (ht : s.recovery.tests = [q]) (hw : q.who = [])
    (hc : q.code = 0) (hp : res.pass = false) (hr : (getEngine s b e).rotation ≠ .left) :
    (getEngine (engineTested s b e q res) b e).rotation = .left ∧ (getEngine (engineTested s b e q res) b e).reason = 7 := by
  have heq : engineTested s b e q res = leaveService (noTests s) b e 7 := by
    unfold engineTested
    simp only [closeTest_lone ht hw, hp, hc, Bool.false_eq_true, if_false, true_or, if_true]
  rw [heq]
  exact getEngine_leaveService 7 hr

/-! ## CALIBRATION_DONE -/

/-- What a calibration that passes leaves of its engine: its tables wait for a bank switch (R453). -/
def Engine.calibrated (x : Engine) (tables : Nat) (enob : List Nat) : Engine :=
  { x with newTables := some tables, enob := enob, calRepeat := false }

/-- The tables of a calibration that passed are stored (R81, R452). -/
def tablesStored (s : State) (b e : Nat) (enob : List Nat) : State :=
  let s1 := nextFresh (updEngine s b e (fun y => y.calibrated (s.fresh + 1) enob))
  { s1 with recovery := { s1.recovery with nvCal := tabSet 0 s1.recovery.nvCal (engKey b e) (getEngine s b e).temp } }

theorem calibrationDone_passes {b e : Nat} {q : TestReq} {enob : List Nat} (res : TestResult) (ht : s.recovery.tests = [q])
    (he : q.el = .engine b e) (hr : q.running = true) (hw : q.who = []) (hc : q.code = 0x10)
    (hp : measurementPasses (classCount s) enob = true) : calibrationDone s b e enob res =
      berthBoundaries (returnEngine (noTests (tablesStored s b e enob)) b e) b := by
  have hstored : (tablesStored s b e enob).recovery.tests = [q] := ht
  unfold calibrationDone
  simp only [runningTest_lone ht he hr, hc, hp, if_true, ne_eq, not_true, if_false]
  show berthBoundaries (returnEngine (closeTest false _ _ (tablesStored s b e enob) q) b e) b = _
  rw [closeTest_lone hstored hw]

theorem calibrationPassed_row {b e : Nat} {enob : List Nat} {x : Engine} (hx : x = getEngine s b e)
    (hr : x.rotation = .outOfRotation) :
    ∃ t, t = berthBoundaries (returnEngine (noTests (tablesStored s b e enob)) b e) b ∧
      (getEngine t b e).rotation = .inRotation ∧ (getEngine t b e).newTables = some (s.fresh + 1) ∧
      (getEngine t b e).enob = enob ∧ t.recovery.tests = [] ∧
      tabGet 0 t.recovery.nvCal (engKey b e) = x.temp ∧ t.mem = s.mem ∧ t.faults = s.faults := by
  subst hx
  have hg : getEngine (noTests (tablesStored s b e enob)) b e = (getEngine s b e).calibrated (s.fresh + 1) enob := by
    unfold tablesStored
    exact getEngine_upd_self s b e (fun y => y.calibrated (s.fresh + 1) enob)
  have hcal : tabGet 0 (noTests (tablesStored s b e enob)).recovery.nvCal (engKey b e) = (getEngine s b e).temp :=
    tabGet_set_self 0 _ _ _
  have hrest : (noTests (tablesStored s b e enob)).recovery.tests = [] ∧ (noTests (tablesStored s b e enob)).mem = s.mem ∧
      (noTests (tablesStored s b e enob)).faults = s.faults := by simp [noTests, tablesStored]
  generalize noTests (tablesStored s b e enob) = u at hg hcal hrest ⊢
  obtain ⟨h1, h2, h3⟩ := hrest
  obtain ⟨y, hy, hs, -⟩ := returnEngine_row (b := b) (e := e) h1 (by rw [hg]; exact hr)
  obtain ⟨k1, -, k3, k4⟩ := engineBecomes_rest hy
  rw [hg] at hs
  have htests : (returnEngine u b e).recovery.tests = [] := by rw [k1]; exact h1
  refine ⟨_, rfl, ?_⟩
  rw [berthBoundaries_of_noTests htests, hy.2.2]
  refine ⟨by rw [hs], by rw [hs]; rfl, by rw [hs]; rfl, htests, ?_, k3.trans h2, k4.trans h3⟩
  rw [k1]
  exact hcal

/-- A first failure that found nothing to spare repeats the calibration (R453). -/
theorem calibrationDone_repeats {b e : Nat} {q : TestReq} {enob : List Nat} {res : TestResult}
    (hq : runningTest s (.engine b e) = some q) (hc : q.code = 0x10) (hp : measurementPasses (classCount s) enob = false)
    (hr : (getEngine s b e).calRepeat = false) (hl : res.lines = []) (hrow : res.rows = []) :
    calibrationDone s b e enob res = updEngine s b e (fun y => { y with calRepeat := true, enob := enob }) := by
  unfold calibrationDone
  simp only [hq, hc, hp, hr, hl, hrow, ne_eq, not_true, Bool.false_eq_true, if_false]
  simp [spareAll]

/-- A second failure takes the engine out of service (R453). -/
theorem calibrationDone_leaves {b e : Nat} {q : TestReq} {enob : List Nat} (res : TestResult) (ht : s.recovery.tests = [q])
    (he : q.el = .engine b e) (hrun : q.running = true) (hw : q.who = []) (hc : q.code = 0x10)
    (hp : measurementPasses (classCount s) enob = false) (hr : (getEngine s b e).calRepeat = true)
    (hl : (getEngine s b e).rotation ≠ .left) :
    (getEngine (calibrationDone s b e enob res) b e).rotation = .left ∧
    (getEngine (calibrationDone s b e enob res) b e).reason = 6 := by
  have hset : (updEngine s b e (fun y => { y with enob := enob })).recovery.tests = [q] := ht
  have heq : calibrationDone s b e enob res =
      berthBoundaries (leaveService (noTests (updEngine s b e (fun y => { y with enob := enob }))) b e 6) b := by
    unfold calibrationDone
    simp only [runningTest_lone ht he hrun, hc, hp, hr, ne_eq, not_true, Bool.false_eq_true, if_false, if_true]
    rw [closeTest_lone hset hw]
  have hg : getEngine (noTests (updEngine s b e (fun y => { y with enob := enob }))) b e = { getEngine s b e with enob := enob } :=
    getEngine_upd_self s b e (fun y => { y with enob := enob })
  have h := getEngine_leaveService (s := noTests (updEngine s b e (fun y => { y with enob := enob }))) (b := b) (e := e) 6
    (by rw [hg]; exact hl)
  rw [heq, getEngine_berthBoundaries_left h.1]
  exact h

/-! ## Lighthouse tests and the temperature trigger -/

theorem getLh_updLh_self (lh : LighthouseId) (f : Lighthouse → Lighthouse) : getLh (updLh s lh f) lh = f (getLh s lh) := by
  cases lh with
  | engine b e k => simp only [updLh, getLh, getEngine_upd_self]; split <;> rfl
  | fabric n k => simp only [updLh, getLh, getPort_upd_self]; split <;> rfl
  | link q k => simp only [updLh, getLh, getQuayLh_updQuayLh]; split <;> rfl

/-- A Lighthouse that passes its test can take over again, and its site counts a transient (R480). -/
theorem lhTested_passes {lh : LighthouseId} (h : (getLh s lh).testing = true) :
    ∃ t, t = lhTested s lh true ∧ (getLh t lh).testing = false ∧ (getLh t lh).retired = (getLh s lh).retired ∧
      (getSite t (LhSite lh)).transients = (getSite s (LhSite lh)).transients + 1 ∧ t.faults = s.faults ∧ t.mem = s.mem := by
  have heq : lhTested s lh true = countTransient (updLh s lh (fun l => { l with testing := false })) (LhSite lh) := by
    simp [lhTested, h]
  have hl := getLh_updLh_self (s := s) lh (fun l => { l with testing := false })
  have hframe := updLh_frame s lh (fun l => { l with testing := false })
  refine ⟨_, rfl, ?_⟩
  rw [heq]
  generalize updLh s lh (fun l => { l with testing := false }) = u at hl hframe ⊢
  have hg : getLh (countTransient u (LhSite lh)) lh = getLh u lh := getLh_congr lh rfl rfl rfl
  rw [hg, hl]
  refine ⟨rfl, rfl, ?_, by rw [hframe]; rfl, by rw [hframe]; rfl⟩
  refine (congrArg Site.transients (getSite_upd_self u (LhSite lh) (fun k => { k with transients := k.transients + 1 }))).trans ?_
  rw [hframe]
  rfl

theorem engineTrigger_due {b e : Nat} {v : Int} (h : 4000 < (v - (getEngine s b e).calTemp).natAbs)
    (hr : (getEngine s b e).rotation ≠ .left) (hrun : (getEngine s b e).run.isSome = true) (ht : s.recovery.tests = []) :
    engineTrigger s b e (.temperature v) =
      { s with recovery := { s.recovery with tests := [{ el := .engine b e, code := 0x10, rank := 3 }] } } := by
  unfold engineTrigger
  simp only [movedBy, h, hr, ne_eq, not_false_eq_true, decide_true, Bool.and_self, if_true]
  rw [queueTest_first ht]
  exact engineBoundary_of_run hrun

theorem engineTrigger_not {b e : Nat} {v : Int} (h : (v - (getEngine s b e).calTemp).natAbs ≤ 4000) :
    engineTrigger s b e (.temperature v) = s := by
  unfold engineTrigger
  simp [movedBy, Nat.not_lt.mpr h]

/-- Settles O42: the reset and its end, then the ends of tests and calibrations with one test queued, then the trigger. -/
theorem engineResetsTestsCalibrations : Obligations.EngineResetsTestsCalibrations := by
  unfold Obligations.EngineResetsTestsCalibrations
  refine ⟨fun s b e x he hx => ⟨?_, ?_, ?_, ?_⟩, fun s b e x q res he hx ht hel hrun hwho => ?_, fun s lh res he ht hp => ?_,
    fun s b e x v he hx => ⟨?_, ?_⟩⟩
  · intro hr hl
    obtain ⟨t, y, hrow, h⟩ := engineReset_row hx
    subst hx
    exact ⟨t, y, guarded_next.mpr ⟨he, (if_neg (by simp [hr, hl])).trans hrow.symm⟩, h⟩
  · intro h
    subst hx
    exact guarded_next.mpr ⟨he, if_pos (by simpa using h)⟩
  · intro hr
    obtain ⟨t, y, hrow, h⟩ := engineResetDone_row hx hr
    exact ⟨t, y, guarded_next.mpr ⟨he, hrow.symm⟩, h⟩
  · intro hr
    subst hx
    exact guarded_next.mpr ⟨he, if_neg (by simp [hr])⟩
  · have hq := runningTest_lone ht hel hrun
    subst hx
    refine ⟨fun hrank hc hp hr hl => ?_, fun hc hp hl => ?_, fun enob hc hp hr => ?_, fun enob hc hp hr hl hrow => ?_,
      fun enob hc hp hr hl => ?_⟩
    · obtain ⟨t, hrow, h⟩ := engineTested_passes ht hwho hrank hp hr hl
      exact ⟨t, (targetedTestDone_engine he hq hc).trans (congrArg _ hrow.symm), h⟩
    · exact ⟨_, targetedTestDone_engine he hq (by rw [hc]; decide), engineTested_fails ht hwho hc hp hl⟩
    · obtain ⟨t, hrow, h⟩ := calibrationPassed_row (enob := enob) rfl hr
      exact ⟨t, guarded_next.mpr ⟨he, (calibrationDone_passes res ht hel hrun hwho hc hp).trans hrow.symm⟩, h⟩
    · exact ⟨_, guarded_next.mpr ⟨he, calibrationDone_repeats hq hc hp hr hl hrow⟩, engineBecomes_updEngine s b e _⟩
    · exact ⟨_, guarded_next.mpr ⟨he, rfl⟩, calibrationDone_leaves res ht hel hrun hwho hc hp hr hl⟩
  · obtain ⟨t, hrow, h⟩ := lhTested_passes (s := endTest s (.lighthouse lh)) ht
    refine ⟨t, guarded_next.mpr ⟨he, ?_⟩, h⟩
    rw [hrow, ← hp]
    rfl
  · intro h hr hrun ht
    subst hx
    exact guarded_next.mpr ⟨he, engineTrigger_due h hr hrun ht⟩
  · intro h
    subst hx
    exact guarded_next.mpr ⟨he, engineTrigger_not h⟩

end Sys2Proof.Machine
end

section
/-! SUPPORT. Clock regions and cores: what a stretch, a step-down and a step up ask of a region, a copy with words that could not
be read, and the ends of a substitution. -/

namespace Sys2Proof.Machine

variable {s : State}

/-! ## A change of one region, tile or berth -/

theorem regionBecomes_updRegion (s : State) (b e : Nat) (f : Region → Region) :
    RegionBecomes s (updRegion s b e f) b e (f (getRegion s b e)) :=
  ⟨rfl, fun _ _ h => getRegion_upd_other _ _ h, getRegion_upd_self _ _ _ _⟩

theorem tileBecomes_updTile (s : State) (b v : Nat) (f : Tile → Tile) :
    TileBecomes s (updTile s b v f) b v (f (getTile s b v)) :=
  ⟨rfl, fun _ _ h => getTile_upd_other _ _ h, getTile_upd_self _ _ _ _⟩

theorem berthBecomes_updBerth (s : State) (b : Nat) (f : Berth → Berth) :
    BerthBecomes s (updBerth s b f) b (f (getBerth s b)) :=
  ⟨rfl, fun _ h => getBerth_upd_other _ _ h, getBerth_upd_self _ _ _⟩

/-- A command that is one change of a region. -/
theorem region_row {b e : Nat} {f : Region → Region} {x : Region} (he : hasEngine s b e = true)
    (hx : f (getRegion s b e) = x) :
    ∃ t, guarded (hasEngine s b e) (updRegion s b e f) = .next t ∧ RegionBecomes s t b e x :=
  ⟨_, guarded_next.mpr ⟨he, rfl⟩, hx ▸ regionBecomes_updRegion s b e f⟩

/-- A command that is one change of a region once boot has released the berths. -/
theorem releasedRegion_row {b e : Nat} {f : Region → Region} {x : Region} (he : hasEngine s b e = true)
    (h7 : released s 7 = true) (hx : f (getRegion s b e) = x) :
    ∃ t, guarded (hasEngine s b e) (onceReleased s 7 (updRegion s b e f)) = .next t ∧ RegionBecomes s t b e x := by
  rw [onceReleased_of h7]
  exact region_row he hx

/-! ## REPLICA_WARNING and STRETCH_RECOVERY_END -/

theorem replicaWarning_extends {b e y c : Nat} {r : Region} (he : hasEngine s b e = true) (h7 : released s 7 = true)
    (hr : r = getRegion s b e) (hc : r.recoverAt = some c) :
    ∃ t, exec (.replicaWarning b e y) s = .next t ∧ RegionBecomes s t b e { r with recoverAt := some (c + 1) } := by
  subst hr
  exact releasedRegion_row he h7 (by simp only [hc])

/-- Outside a recovery the region stretches when its last stretch lies more than 64 cycles back (R163). -/
theorem replicaWarning_stretches {b e y : Nat} {r : Region} (he : hasEngine s b e = true) (h7 : released s 7 = true)
    (hr : r = getRegion s b e) (hc : r.recoverAt = none) (hl : ∀ l, r.lastStretch = some l → l + 64 < y) :
    ∃ t, exec (.replicaWarning b e y) s = .next t ∧ RegionBecomes s t b e (r.stretch y (now s)) := by
  subst hr
  refine releasedRegion_row he h7 ?_
  simp only [hc]
  refine if_neg ?_
  split
  · next l h => exact ne_true_of_eq_false (decide_eq_false (Nat.not_le.mpr (hl l h)))
  · exact Bool.false_ne_true

theorem replicaWarning_stretchedLately {b e y l : Nat} {r : Region} (he : hasEngine s b e = true)
    (h7 : released s 7 = true) (hr : r = getRegion s b e) (hc : r.recoverAt = none) (hl : r.lastStretch = some l)
    (hy : y ≤ l + 64) : ∃ t, exec (.replicaWarning b e y) s = .next t ∧ RegionBecomes s t b e r := by
  subst hr
  refine releasedRegion_row he h7 ?_
  simp only [hc, hl]
  exact if_pos (decide_eq_true hy)

theorem stretch_fields (r : Region) (y t : Nat) :
    (r.stretch y t).lastStretch = some (y + 1) ∧ (r.stretch y t).recoverAt = some (y + 65) ∧
    (r.stretch y t).step = r.step ∧ t ∈ (r.stretch y t).stretches := by
  unfold Region.stretch
  dsimp only
  split <;> simp

theorem stretchRecoveryEnd_row {b e y c : Nat} {r : Region} (he : hasEngine s b e = true) (hr : r = getRegion s b e)
    (hc : r.recoverAt = some c) :
    ∃ t, exec (.stretchRecoveryEnd b e y) s = .next t ∧
      RegionBecomes s t b e (if c ≤ y then { r with recoverAt := none, recoveryStepped := false } else r) := by
  subst hr
  exact region_row he (by simp only [hc])

/-! ## Step-downs and steps up -/

theorem limit_le (r : Region) : r.limit ≤ r.stretchStep ∧ r.limit ≤ r.powerStep ∧ r.limit ≤ bandCap r.band := by
  unfold Region.limit
  omega

/-- A step that the region asks for is its limit, and its core voltage is high enough for it (R399). -/
theorem request_wanted {r : Region} {w : Nat} (h : r.request.wanted = some w) : w = r.limit ∧ w ≤ r.request.voltStep := by
  unfold Region.request at h ⊢
  dsimp only at h ⊢
  split at h
  · cases h
  · cases h
    exact ⟨rfl, Nat.le_max_right _ _⟩

theorem request_asks {r : Region} (h : r.limit ≠ r.step) :
    r.request.wanted = some r.limit ∧ r.request.urgent = r.urgent := by
  simp [Region.request, h]

/-- A step-down before its request: the stretch limit lies below the step in force (R166, R167). -/
def Region.lowered (r : Region) (t : Nat) : Region :=
  { r with stretchStep := min r.stretchStep (r.step - 1), stepdowns := r.stepdowns + 1, quietFrom := t }

theorem stepDown_eq {r : Region} (h : r.step ≠ 0) (t : Nat) : r.stepDown t = (r.lowered t).request := if_neg h

theorem lowered_limit {r : Region} (h : r.step ≠ 0) (t : Nat) : (r.lowered t).limit < r.step := by
  have hlimit := (limit_le (r.lowered t)).1
  have hstretch : (r.lowered t).stretchStep ≤ r.step - 1 := Nat.min_le_right _ _
  omega

/-- A step-down above step 0 asks for a lower step, and leaves the step in force and the urgency as they are. -/
theorem stepDown_fields {r : Region} (h : r.step ≠ 0) (t : Nat) :
    ∃ w, (r.stepDown t).wanted = some w ∧ w < r.step ∧ (r.stepDown t).step = r.step ∧ (r.stepDown t).urgent = r.urgent ∧
      (r.stepDown t).stepdowns = r.stepdowns + 1 := by
  rw [stepDown_eq h]
  obtain ⟨hw, hu⟩ := request_asks (r := r.lowered t) (Nat.ne_of_lt (lowered_limit h t))
  exact ⟨_, hw, lowered_limit h t, rfl, hu, rfl⟩

/-- A region that its recovery steps down: the step change does not wait for the recovery (R166). -/
def Region.recoveryStep (r : Region) (t : Nat) : Region :=
  { r.stepDown t with urgent := (r.stepDown t).wanted.isSome, recoveryStepped := true }

theorem recoveryStepdown_steps {b e y c l : Nat} {r : Region} (he : hasEngine s b e = true) (hr : r = getRegion s b e)
    (hc : r.recoverAt = some c) (hl : r.lastStretch = some l) (h0 : r.step ≠ 0) (hy : l + 256 ≤ y)
    (hd : r.recoveryStepped = false) :
    ∃ t, exec (.recoveryStepdown b e y) s = .next t ∧ RegionBecomes s t b e (r.recoveryStep (now s)) := by
  subst hr
  exact region_row he (by simp only [hc, hl, hy, hd, h0, and_self, if_true, if_false]; rfl)

/-- A recovery steps its region down once (R166). -/
theorem recoveryStepdown_again {b e y : Nat} {r : Region} (he : hasEngine s b e = true) (hr : r = getRegion s b e)
    (hd : r.recoveryStepped = true) :
    ∃ t, exec (.recoveryStepdown b e y) s = .next t ∧ RegionBecomes s t b e r := by
  subst hr
  refine region_row he ?_
  split
  · rw [if_neg (by simp [hd])]
  · rfl

theorem stretchLimit_row {b e : Nat} {r : Region} (he : hasEngine s b e = true) (h7 : released s 7 = true)
    (hr : r = getRegion s b e) : ∃ t, exec (.stretchLimit b e) s = .next t ∧
      RegionBecomes s t b e (if 64 < r.recent (now s) then r.stepDown (now s) else r) := by
  subst hr
  exact releasedRegion_row he h7 rfl

/-- A region that has been quiet for 100 ms may run one step higher (R168). -/
def Region.stepUp (r : Region) (t : Nat) : Region := { r with stretchStep := r.stretchStep + 1, quietFrom := t }

theorem stepUpTimer_steps {b e : Nat} {r : Region} (he : hasEngine s b e = true) (h7 : released s 7 = true)
    (hr : r = getRegion s b e) (h9 : r.stretchStep < 9) (hq : r.quietFrom + 100000000 ≤ now s) :
    ∃ t, exec (.stepUpTimer b e) s = .next t ∧ RegionBecomes s t b e (r.stepUp (now s)).request := by
  subst hr
  exact releasedRegion_row he h7 (if_pos ⟨h9, hq⟩)

/-- The limits of R159 bound the step that the region asks for. -/
theorem stepUp_wanted {r : Region} {t w : Nat} (h : (r.stepUp t).request.wanted = some w) :
    w ≤ r.stretchStep + 1 ∧ w ≤ r.powerStep ∧ w ≤ bandCap r.band ∧ w ≤ (r.stepUp t).request.voltStep := by
  obtain ⟨rfl, hv⟩ := request_wanted h
  obtain ⟨h1, h2, h3⟩ := limit_le (r.stepUp t)
  exact ⟨h1, h2, h3, hv⟩

/-! ## STEP_CHANGE -/

/-- The clock of the new step and its core voltage are set in one row (log entry 66). -/
theorem stepChange_takes {b e w : Nat} {r : Region} (he : hasEngine s b e = true) (h7 : released s 7 = true)
    (hr : r = getRegion s b e) (hw : r.wanted = some w) (hv : w ≤ r.voltStep) (hh : r.holding = false)
    (hc : r.recoverAt = none ∨ r.urgent = true) :
    ∃ t, exec (.stepChange b e) s = .next t ∧ RegionBecomes s t b e
      { r with step := w, wanted := none, holding := true, urgent := false, voltStep := w } := by
  subst hr
  refine releasedRegion_row he h7 ?_
  simp only [hw]
  exact if_neg (by rcases hc with hc | hc <;> simp [hh, hc, hv])

/-- A step change waits for the core voltage, for the last step hold, and for a recovery unless it is urgent (R161, R166,
R399). -/
theorem stepChange_waits {b e : Nat} {r : Region} (he : hasEngine s b e = true) (h7 : released s 7 = true)
    (hr : r = getRegion s b e) (h : r.wanted = none ∨ (∃ w, r.wanted = some w ∧ r.voltStep < w) ∨ r.holding = true ∨
      (r.recoverAt ≠ none ∧ r.urgent = false)) :
    ∃ t, exec (.stepChange b e) s = .next t ∧ RegionBecomes s t b e r := by
  subst hr
  refine releasedRegion_row he h7 ?_
  split
  · next w hw =>
    refine if_pos ?_
    rcases h with h | ⟨u, hu, h⟩ | h | ⟨h1, h2⟩
    · rw [hw] at h; cases h
    · rw [hw] at hu; cases hu; simp [h]
    · simp [h]
    · simp [Option.isSome_iff_ne_none.mpr h1, h2]
  · rfl

/-! ## The copy of a core -/

/-- The words of a tile that could not be copied are poisoned (R144, R145). -/
def poisonWords (s : State) (b v : Nat) (bad : List Nat) : State := bad.foldl (fun u w => poisonCopy u b v w) s

theorem poisonWords_frame (s : State) (b v : Nat) (bad : List Nat) :
    poisonWords s b v bad = { s with mem := (poisonWords s b v bad).mem } :=
  foldl_rel (R := fun u t => t = { u with mem := t.mem }) (fun _ => rfl) (fun h g => by rw [g, h]) (fun _ _ => rfl) bad s

theorem poisonWords_faults (b v : Nat) (bad : List Nat) : (poisonWords s b v bad).faults = s.faults := by
  rw [poisonWords_frame]
theorem partField_poisonWords (b v : Nat) (bad : List Nat) (c : Nat) :
    partField (poisonWords s b v bad) c = partField s c := by
  rw [poisonWords_frame]
  rfl
theorem getTile_poisonWords (b v : Nat) (bad : List Nat) (c w : Nat) :
    getTile (poisonWords s b v bad) c w = getTile s c w := by
  rw [poisonWords_frame]
  rfl
theorem nextTest_poisonWords (b v : Nat) (bad : List Nat) (el : Element) :
    nextTest (poisonWords s b v bad) el = nextTest s el := by
  rw [poisonWords_frame]
  rfl

theorem readByte_poisonCopy (s : State) (b v w a : Nat) : readByte (poisonCopy s b v w) a =
    if tileWindow b v + 8 * w ≤ a ∧ a < tileWindow b v + 8 * w + 8 then 0xFF#8 else readByte s a := by
  show readByte (writeBytes s (tileWindow b v + 8 * w) (List.replicate 8 0xFF#8)) a = _
  rw [readByte_writeBytes, List.length_replicate]
  split
  · rw [List.getD_replicate _ (by omega)]
  · rfl

theorem readByte_poisonWords_bad {b v w i : Nat} {bad : List Nat} (hw : w ∈ bad) (hi : i < 8) :
    readByte (poisonWords s b v bad) (tileWindow b v + 8 * w + i) = 0xFF#8 :=
  foldl_reaches (I := fun _ => True) (P := fun t => readByte t (tileWindow b v + 8 * w + i) = 0xFF#8)
    (fun _ _ _ => trivial) (fun t u h => by rw [readByte_poisonCopy, h, ite_self])
    (fun t _ => by rw [readByte_poisonCopy, if_pos (by omega)]) hw trivial

theorem readByte_poisonWords_other {b v a : Nat} {bad : List Nat}
    (h : ∀ w ∈ bad, a < tileWindow b v + 8 * w ∨ tileWindow b v + 8 * w + 8 ≤ a) :
    readByte (poisonWords s b v bad) a = readByte s a := by
  unfold poisonWords
  induction bad generalizing s with
  | nil => rfl
  | cons w bad ih =>
    have hw := h w List.mem_cons_self
    rw [List.foldl_cons, ih (fun u hu => h u (List.mem_cons_of_mem _ hu)), readByte_poisonCopy, if_neg (by omega)]

/-- The memory with exactly the words that could not be copied poisoned. -/
theorem copied_reads {t : State} {b v : Nat} {bad : List Nat} (h : t.mem = (poisonWords s b v bad).mem) :
    (∀ w ∈ bad, ∀ i, i < 8 → readByte t (tileWindow b v + 8 * w + i) = 0xFF#8) ∧
    (∀ a, (∀ w ∈ bad, a < tileWindow b v + 8 * w ∨ tileWindow b v + 8 * w + 8 ≤ a) → readByte t a = readByte s a) := by
  have hread : ∀ a, readByte t a = readByte (poisonWords s b v bad) a := fun a => by unfold readByte; rw [h]
  exact ⟨fun w hw i hi => (hread _).trans (readByte_poisonWords_bad hw hi),
    fun a ha => (hread a).trans (readByte_poisonWords_other ha)⟩

/-! ## CORE_SUBSTITUTION and its end -/

theorem coreSubstitution_holds {b v : Nat} (hv : (getRegion s b (regionOf v)).substituting = some v)
    (h : (getRegion s b (regionOf v)).forTest = true ∨
      (regionInUse s b (regionOf v) = false ∧ engineInUse s b (regionOf v) = false)) :
    coreSubstitution s b v = updTile s b v (fun x => { x with held := true }) :=
  if_pos ⟨hv, by simpa using h⟩

theorem coreSubstitution_not {b v : Nat} (h : (getRegion s b (regionOf v)).substituting ≠ some v ∨
    ((getRegion s b (regionOf v)).forTest = false ∧
      (regionInUse s b (regionOf v) = true ∨ engineInUse s b (regionOf v) = true))) :
    coreSubstitution s b v = s := by
  refine if_neg ?_
  rintro ⟨h1, h2⟩
  rcases h with h | ⟨hf, h | h⟩
  · exact h h1
  · simp [hf, h] at h2
  · simp [hf, h] at h2

theorem getTile_updRegion (b e : Nat) (f : Region → Region) (c v : Nat) :
    getTile (updRegion s b e f) c v = getTile s c v := rfl
theorem getRegion_updTile (b v : Nat) (f : Tile → Tile) (c e : Nat) :
    getRegion (updTile s b v f) c e = getRegion s c e := rfl

/-- The spare serves the tile of a failed core: the retirement is recorded and raised (R144, R463). -/
def spareServes (s : State) (b v : Nat) : State :=
  raise (updTile (updRegion (retire s b ⟨2, 0x0204, b, v, 1⟩) b (regionOf v)
      (fun x => { x with substituting := none, substituted := some v })) b v (fun x => { x with held := false }))
    { code := 0x0204
      outcome := 2
      site := b
      unit := v
      part := partField s b
      arg := regionOf v }

theorem coreSubstitutionDone_withdraws {b v : Nat} (bad : List Nat) (hh : (getTile s b v).held = true)
    (hw : (getRegion s b (regionOf v)).withdrawing = some v) :
    coreSubstitutionDone s b v bad = detachSpare (poisonWords s b v bad) b v := by
  simp [coreSubstitutionDone, poisonWords, hh, hw]

theorem coreSubstitutionDone_attaches {b v : Nat} (bad : List Nat) (hh : (getTile s b v).held = true)
    (hw : (getRegion s b (regionOf v)).withdrawing ≠ some v) (hv : (getRegion s b (regionOf v)).substituting = some v)
    (hf : (getRegion s b (regionOf v)).forTest = true) :
    coreSubstitutionDone s b v bad = attachForTest (poisonWords s b v bad) b v := by
  simp [coreSubstitutionDone, poisonWords, hh, hw, hv, hf]

theorem coreSubstitutionDone_serves {b v : Nat} (bad : List Nat) (hh : (getTile s b v).held = true)
    (hw : (getRegion s b (regionOf v)).withdrawing ≠ some v) (hv : (getRegion s b (regionOf v)).substituting = some v)
    (hf : (getRegion s b (regionOf v)).forTest = false) :
    coreSubstitutionDone s b v bad = spareServes (poisonWords s b v bad) b v := by
  unfold spareServes
  rw [partField_poisonWords]
  simp [coreSubstitutionDone, poisonWords, hh, hw, hv, hf]

theorem detachSpare_row (m : State) (b v : Nat) : ∃ t, t = detachSpare m b v ∧ t.mem = m.mem ∧ t.faults = m.faults ∧
    (getTile t b v).retired = (getTile m b v).retired ∧ (getTile t b v).held = false ∧
    (getRegion t b (regionOf v)).spare = .free ∧ (getRegion t b (regionOf v)).substituted = none ∧
    (getRegion t b (regionOf v)).withdrawing = none := by
  refine ⟨_, rfl, rfl, rfl, ?_⟩
  simp only [detachSpare, getTile_upd_self, getTile_updRegion, getRegion_updTile, getRegion_upd_self, and_self]

theorem getTile_retire (site : Nat) (r : Retirement) (b v : Nat) : getTile (retire s site r) b v = getTile s b v := rfl
theorem getTile_raise (ev : FaultEv) (b v : Nat) : getTile (raise s ev) b v = getTile s b v := rfl
theorem getRegion_raise (ev : FaultEv) (b e : Nat) : getRegion (raise s ev) b e = getRegion s b e := rfl

theorem spareServes_row (m : State) (b v : Nat) : ∃ t, t = spareServes m b v ∧ t.mem = m.mem ∧
    (getTile t b v).retired = (getTile m b v).retired ∧ (getTile t b v).held = false ∧
    (getRegion t b (regionOf v)).substituting = none ∧ (getRegion t b (regionOf v)).substituted = some v ∧
    ∃ f, t.faults.unlogged = m.faults.unlogged ++ [f] ∧ f.code = 0x0204 ∧ f.outcome = 2 ∧ f.site = b ∧ f.unit = v := by
  refine ⟨_, rfl, rfl, ?_, ?_, ?_, ?_, _, rfl, rfl, rfl, rfl, rfl⟩
  all_goals
    simp only [spareServes, getTile_raise, getRegion_raise, getTile_upd_self, getTile_updRegion, getTile_retire,
      getRegion_updTile, getRegion_upd_self]

/-! ## A spare attached for a test (R459) -/

/-- A test that is next on an element is queued for it. -/
theorem mem_of_nextTest {el : Element} {q : TestReq} (h : nextTest s el = some q) : q ∈ s.recovery.tests ∧ q.el = el := by
  have of_find : ∀ p : TestReq → Bool, (s.recovery.tests.filter (fun t => decide (t.el = el))).find? p = some q →
      q ∈ s.recovery.tests ∧ q.el = el := fun p hp => by
    simpa using List.mem_filter.mp (List.mem_of_find?_eq_some hp)
  unfold nextTest at h
  dsimp only [List.foldl] at h
  split at h
  · cases h
  · split at h
    · next h12 =>
      cases h
      split at h12
      · next h1 =>
        cases h12
        exact of_find _ h1
      · exact of_find _ h12
    · exact of_find _ h

theorem startTest_running {q : TestReq} (h : q ∈ s.recovery.tests) :
    { q with running := true } ∈ (startTest s q).recovery.tests :=
  List.mem_map.mpr ⟨q, h, if_pos (decide_eq_true rfl)⟩

theorem getTile_startTest (q : TestReq) (b v : Nat) : getTile (startTest s q) b v = getTile s b v := rfl
theorem getRegion_startTest (q : TestReq) (b e : Nat) : getRegion (startTest s q) b e = getRegion s b e := rfl

theorem attachForTest_row (m : State) (b v : Nat) : ∃ t, t = attachForTest m b v ∧ t.mem = m.mem ∧ t.faults = m.faults ∧
    (getTile t b v).retired = (getTile m b v).retired ∧
    (getRegion t b (regionOf v)).substituting = none ∧ (getRegion t b (regionOf v)).substituted = some v ∧
    (∀ q, nextTest m (.tile b v) = some q → (getTile t b v).held = false ∧
      ∃ x ∈ t.recovery.tests, x.el = .tile b v ∧ x.running = true) := by
  refine ⟨_, rfl, ?_⟩
  unfold attachForTest
  dsimp only
  split
  · next q hq =>
    obtain ⟨hmem, hel⟩ := mem_of_nextTest hq
    simp only [getTile_upd_self, getTile_startTest, getTile_updRegion, getRegion_updTile, getRegion_startTest,
      getRegion_upd_self, true_and]
    exact ⟨rfl, rfl, fun _ _ => ⟨_, startTest_running (s := updRegion m b (regionOf v) _) hmem, hel, rfl⟩⟩
  · next hq =>
    simp only [getTile_updRegion, getRegion_upd_self, hq, true_and]
    exact ⟨rfl, rfl, fun _ h => by cases h⟩

/-- Settles O43: each row of a region is one change of its record; a copy that ends has poisoned its bad words, and then serves,
is tested or withdraws. -/
theorem regionsStepStretchAndSubstitute : Obligations.RegionsStepStretchAndSubstitute := by
  unfold Obligations.RegionsStepStretchAndSubstitute
  refine ⟨fun s b e r y he h7 hr => ⟨?_, ?_, ?_, ?_, ?_, ?_, ?_, ?_, ?_, ?_, ?_, ?_⟩, fun s b n hb => ⟨?_, ?_⟩,
    fun s b v e r hv he hr => ⟨?_, ?_, ?_, ?_⟩⟩
  · exact fun c hc => replicaWarning_extends he h7 hr hc
  · intro hc hl
    obtain ⟨t, ht, hx⟩ := replicaWarning_stretches he h7 hr hc hl
    exact ⟨t, _, ht, hx, stretch_fields r y (now s)⟩
  · exact fun l hc hl hy => replicaWarning_stretchedLately he h7 hr hc hl hy
  · exact fun c hc => stretchRecoveryEnd_row he hr hc
  · intro c l hc hl h0 hy hd
    obtain ⟨t, ht, hx⟩ := recoveryStepdown_steps he hr hc hl h0 hy hd
    obtain ⟨w, hw, hlt, hs, -, hn⟩ := stepDown_fields h0 (now s)
    exact ⟨t, _, w, ht, hx, hw, hlt, Option.isSome_iff_exists.mpr ⟨w, hw⟩, hs, hn, rfl⟩
  · exact fun hd => recoveryStepdown_again he hr hd
  · intro h0 hl
    obtain ⟨t, ht, hx⟩ := stretchLimit_row he h7 hr
    obtain ⟨w, h⟩ := stepDown_fields h0 (now s)
    exact ⟨t, _, w, ht, (if_pos hl : _ = r.stepDown (now s)) ▸ hx, h⟩
  · intro hl
    obtain ⟨t, ht, hx⟩ := stretchLimit_row he h7 hr
    exact ⟨t, ht, (if_neg (Nat.not_lt.mpr hl) : _ = r) ▸ hx⟩
  · intro h9 hq
    obtain ⟨t, ht, hx⟩ := stepUpTimer_steps he h7 hr h9 hq
    exact ⟨t, _, ht, hx, rfl, rfl, rfl, fun w hw => stepUp_wanted hw⟩
  · exact fun w hw hv hh hc => stepChange_takes he h7 hr hw hv hh hc
  · exact fun h => stepChange_waits he h7 hr h
  · subst hr
    exact region_row he rfl
  · intro hn h7
    exact ⟨_, guarded_next.mpr ⟨hb, (onceReleased_of h7).trans (if_pos hn)⟩, berthBecomes_updBerth s b _⟩
  · rintro (hn | h7)
    · refine guarded_next.mpr ⟨hb, ?_⟩
      rw [if_neg (Nat.not_lt.mpr hn)]
      exact ite_self s
    · exact guarded_next.mpr ⟨hb, onceReleased_not h7⟩
  · intro h1 h2
    subst he hr
    exact ⟨_, guarded_next.mpr ⟨hv, coreSubstitution_holds h1 h2⟩, tileBecomes_updTile s b v _⟩
  · intro h
    subst he hr
    exact guarded_next.mpr ⟨hv, coreSubstitution_not h⟩
  · intro bad hh hwv
    subst he hr
    by_cases hw : (getRegion s b (regionOf v)).withdrawing = some v
    · obtain ⟨t, ht, hrow⟩ := detachSpare_row (poisonWords s b v bad) b v
      simp only [poisonWords_faults, getTile_poisonWords] at hrow
      obtain ⟨hmem, hfaults, hretired, hheld, hspare, hsub, hwd⟩ := hrow
      exact ⟨t, guarded_next.mpr ⟨hv, (coreSubstitutionDone_withdraws bad hh hw).trans ht.symm⟩, fun h => absurd hw h,
        hretired, fun h => absurd hw h, fun h => absurd hw h, fun _ => ⟨hheld, hfaults, hspare, hsub, hwd⟩,
        copied_reads hmem⟩
    have hsv := hwv.resolve_left hw
    cases hf : (getRegion s b (regionOf v)).forTest with
    | false =>
      obtain ⟨t, ht, hrow⟩ := spareServes_row (poisonWords s b v bad) b v
      simp only [poisonWords_faults, getTile_poisonWords] at hrow
      obtain ⟨hmem, hretired, hheld, hing, hsub, hev⟩ := hrow
      exact ⟨t, guarded_next.mpr ⟨hv, (coreSubstitutionDone_serves bad hh hw hsv hf).trans ht.symm⟩,
        fun _ => ⟨hing, hsub⟩, hretired, fun _ _ => ⟨hheld, hev⟩, fun _ h => absurd h Bool.false_ne_true,
        fun h => absurd h hw, copied_reads hmem⟩
    | true =>
      obtain ⟨t, ht, hrow⟩ := attachForTest_row (poisonWords s b v bad) b v
      simp only [poisonWords_faults, getTile_poisonWords, nextTest_poisonWords] at hrow
      obtain ⟨hmem, hfaults, hretired, hing, hsub, hnext⟩ := hrow
      exact ⟨t, guarded_next.mpr ⟨hv, (coreSubstitutionDone_attaches bad hh hw hsv hf).trans ht.symm⟩,
        fun _ => ⟨hing, hsub⟩, hretired, fun _ h => absurd h.symm Bool.false_ne_true,
        fun _ _ => ⟨hfaults, hnext⟩, fun h => absurd h hw, copied_reads hmem⟩
  · intro hh bad
    exact guarded_next.mpr ⟨hv, if_pos hh⟩

end Sys2Proof.Machine
end

section
/-! SUPPORT. Contexts: what the end of a context leaves, a request that waits, and the requests and doorbells of a context. -/

namespace Sys2Proof.Machine

variable {s : State}

/-! ## The end of a context (R199, R201) -/

/-- A context that CTX_ABORT has ended. -/
def Context.aborted (x : Context) : Context := { x with state := .closed, gen := x.gen + 1, flight := [] }

/-- The end of a context changes the context, what it had outstanding, and the domains that waited for its commands. -/
theorem abortCtx_frame (s : State) (c : Nat) : abortCtx s c = { updCtx s c Context.aborted with
    reqs := (abortCtx s c).reqs
    graphs := (abortCtx s c).graphs
    recovery := (abortCtx s c).recovery
    domains := (abortCtx s c).domains
    crossings := (abortCtx s c).crossings } := by
  unfold abortCtx endCtx
  dsimp only
  generalize hu : ({ updCtx s c _ with reqs := _, graphs := _, recovery := _, domains := _ } : State) = u
  rw [show releaseWaiting u = _ from domainsMove_releaseWaiting u, ← hu]
  rfl

theorem getCtx_abortCtx_self (s : State) (c : Nat) : getCtx (abortCtx s c) c = (getCtx s c).aborted := by
  rw [abortCtx_frame]
  exact getCtx_upd_self s c _

theorem getCtx_abortCtx_other {c k : Nat} (h : k ≠ c) : getCtx (abortCtx s c) k = getCtx s k := by
  rw [abortCtx_frame]
  exact getCtx_upd_other s _ h

/-! ## Requests of a context (Tables 06-9, 06-10) -/

/-- A request that Blunen cannot end yet leaves what its service so far has changed. -/
theorem blunen_waits {r : Route} {op : Nat} {a : Asked} {m : State} {w : Asked → State × Option MbxResult}
    (h : Asks s r op a) (hw : w a = (m, none)) : blunen s r op w = .next m := by
  obtain ⟨h1, h2⟩ := h
  simp [blunen, guarded, h1, h2, hw]

/-- A mailbox request that is refused changes nothing but its mailbox. -/
theorem blunen_refuses {fn op st b : Nat} {a : Asked} {w : Asked → State × Option MbxResult} (h : Asks s (.mailbox fn) op a)
    (hw : w a = (s, failAt a st b)) :
    ∃ t, blunen s (.mailbox fn) op w = .next t ∧ Replied s t (.mailbox fn) st (a.off b) [] :=
  blunen_replied (res := ⟨st, a.off b, []⟩) h hw rfl (fun _ _ => rfl)

/-- A mailbox request that ends at once is answered S_OK. -/
theorem blunen_okReply {fn op : Nat} {a : Asked} {m : State} {data : List Byte} {w : Asked → State × Option MbxResult}
    (h : Asks s (.mailbox fn) op a) (hw : w a = (m, okReply data)) (hm : m.mbx = s.mbx) :
    ∃ t, blunen s (.mailbox fn) op w = .next t ∧ Replied m t (.mailbox fn) S_OK 0 data :=
  blunen_replied (res := ⟨S_OK, 0, data⟩) h hw hm (fun _ hr => nomatch hr)

/-- The opening of context `c` has to wait (R358, R416, R472). -/
def opensLater (s : State) (c : Nat) : Bool :=
  oldOutstanding s c || (getBerth s (ctxBerth c)).hold || berthResetting s (ctxBerth c) || lockWaits s

/-- The state in which CTX_OPEN has opened context `c` with parameters `q`. -/
def ctxOpened (s : State) (c q : Nat) : State := endRung (updCtx (noStep s) c (fun x => openedCtx x q)) 1 c

theorem getCtx_ctxOpened_self (s : State) (c q : Nat) : getCtx (ctxOpened s c q) c = openedCtx (getCtx s c) q :=
  getCtx_upd_self (noStep s) c (fun x => openedCtx x q)

theorem getCtx_ctxOpened_other {c q k : Nat} (h : k ≠ c) : getCtx (ctxOpened s c q) k = getCtx s k :=
  getCtx_upd_other (noStep s) (fun x => openedCtx x q) h

theorem ctxOpen_opens {fn c : Nat} {a : Asked} (h : Asks s (.mailbox fn) 0x0001 a) (hc : c = fld a.params 0 6)
    (hx : (getCtx s c).state = .closed) (ho : opensLater s c = false) (hr : (getSite s (ctxBerth c)).retired = false) :
    ∃ t, exec (.ctxOpen fn) s = .next t ∧
      Replied (ctxOpened s c a.params) t (.mailbox fn) S_OK 0 [BitVec.ofNat 8 (getCtx s c).gen.toNat] := by
  show ∃ t, execCtxOpen fn s = .next t ∧ _
  unfold execCtxOpen
  refine blunen_okReply h ?_ rfl
  dsimp only
  unfold opensLater at ho
  rw [← hc, if_neg (by simp [hx]), if_neg (Bool.eq_false_iff.mp ho), if_neg (by simp [hr])]
  rfl

theorem ctxOpen_waits {fn c : Nat} {a : Asked} (h : Asks s (.mailbox fn) 0x0001 a) (hc : c = fld a.params 0 6)
    (hx : (getCtx s c).state = .closed) (ho : opensLater s c = true) : exec (.ctxOpen fn) s = .next s := by
  show execCtxOpen fn s = .next s
  unfold execCtxOpen
  refine blunen_waits h ?_
  dsimp only
  unfold opensLater at ho
  rw [← hc, if_neg (by simp [hx]), if_pos ho]

theorem ctxOpen_refuses {fn c : Nat} {a : Asked} (h : Asks s (.mailbox fn) 0x0001 a) (hc : c = fld a.params 0 6)
    (hx : (getCtx s c).state ≠ .closed ∨ opensLater s c = false ∧ (getSite s (ctxBerth c)).retired = true) :
    ∃ t, exec (.ctxOpen fn) s = .next t ∧ Replied s t (.mailbox fn) S_BAD_PARAM (a.off 0) [] := by
  show ∃ t, execCtxOpen fn s = .next t ∧ _
  unfold execCtxOpen
  refine blunen_refuses h ?_
  dsimp only
  rw [← hc]
  by_cases hs : (getCtx s c).state = .closed
  · obtain hx | ⟨ho, hr⟩ := hx
    · exact absurd hs hx
    · unfold opensLater at ho
      rw [if_neg (by simp [hs]), if_neg (Bool.eq_false_iff.mp ho), if_pos hr]
  · rw [if_pos hs]

/-- Settles O8: a CLOSED context opens, waits or is refused. -/
theorem contextOpensOnlyClosed : Obligations.ContextOpensOnlyClosed := by
  unfold Obligations.ContextOpensOnlyClosed
  refine ⟨fun s fn a c h hc hx h1 h2 h3 h4 hr => ?_, fun s fn a h hx => ctxOpen_refuses h rfl (.inl hx),
    fun s fn a c h hc hx hw => ctxOpen_waits h hc hx ?_,
    fun s fn a c h hc hx h1 h2 h3 h4 hr => ctxOpen_refuses h hc (.inr ⟨by simp [opensLater, h1, h2, h3, h4], hr⟩)⟩
  · obtain ⟨t, ht, hp⟩ := ctxOpen_opens h hc hx (by simp [opensLater, h1, h2, h3, h4]) hr
    refine ⟨ctxOpened s c a.params, t, ht, hp, rfl, fun k hk => getCtx_ctxOpened_other hk, ?_⟩
    rw [getCtx_ctxOpened_self]
    exact ⟨rfl, rfl, rfl, rfl, rfl, rfl, rfl, rfl, rfl, rfl, rfl, rfl, rfl⟩
  · simpa [opensLater, or_assoc] using hw

theorem ctxClose_closes {fn c : Nat} {a : Asked} (h : Asks s (.mailbox fn) 0x0002 a) (hc : c = fld a.params 0 8)
    (hx : (getCtx s c).state = .opened) : ∃ t, exec (.ctxClose fn) s = .next t ∧
      Replied (updCtx s c (fun y => { y with state := if y.flight = [] then .closed else .closing })) t (.mailbox fn) S_OK 0
        (bytesLE 4 (getCtx s c).fetchCount.toNat ++ bytesLE 4 (getCtx s c).cmdCount.toNat ++
          bytesLE 4 (getCtx s c).sqTail.toNat) := by
  show ∃ t, execCtxClose fn s = .next t ∧ _
  unfold execCtxClose
  refine blunen_okReply h ?_ rfl
  dsimp only
  rw [← hc, if_neg (by simp [hx])]

theorem ctxAbort_aborts {fn c : Nat} {a : Asked} (h : Asks s (.mailbox fn) 0x0003 a) (hc : c = fld a.params 0 8)
    (hx : (getCtx s c).state ≠ .closed) : ∃ t, exec (.ctxAbort fn) s = .next t ∧
      Replied (abortCtx s c) t (.mailbox fn) S_OK 0
        (bytesLE 4 (getCtx s c).fetchCount.toNat ++ bytesLE 4 (getCtx s c).cmdCount.toNat ++
          bytesLE 4 (getCtx s c).inOrder.toNat ++ bytesLE 1 ((getCtx s c).gen + 1).toNat) := by
  show ∃ t, execCtxAbort fn s = .next t ∧ _
  unfold execCtxAbort
  refine blunen_okReply h ?_ (by rw [abortCtx_frame]; rfl)
  dsimp only
  rw [← hc, if_neg hx]

/-- Settles O9: each request changes its context alone, or ends it, or is refused. -/
theorem contextClosesAndAborts : Obligations.ContextClosesAndAborts := by
  unfold Obligations.ContextClosesAndAborts
  refine ⟨fun s fn a c h hc hx => ?_, fun s fn a c h hc hx => ?_, fun s fn a h hx => blunen_refuses h (if_pos hx),
    fun s fn a h hx => blunen_refuses h (if_pos hx)⟩
  · obtain ⟨t, ht, hp⟩ := ctxClose_closes h hc hx
    exact ⟨_, t, ht, hp, rfl, fun k hk => getCtx_upd_other s _ hk, getCtx_upd_self s c _⟩
  · obtain ⟨t, ht, hp⟩ := ctxAbort_aborts h hc hx
    refine ⟨_, t, ht, hp, ?_, ?_, ?_, ?_, ?_, fun k hk => getCtx_abortCtx_other hk, getCtx_abortCtx_self s _⟩ <;>
      (rw [abortCtx_frame]; rfl)

/-! ## Doorbells (R177, R179, R428, R492) -/

theorem ctxBecomes_updCtx (s : State) (c : Nat) (f : Context → Context) : CtxBecomes s (updCtx s c f) c (f (getCtx s c)) :=
  ⟨rfl, fun _ hk => getCtx_upd_other s _ hk, getCtx_upd_self s c f⟩

/-- A doorbell of a context whose page is closed to the path does nothing; of one whose page is open, it writes its half. -/
theorem doorbell_shut {path : DoorbellPath} {c : Nat} {v : W32} {i : Instr} (hi : i ∈ [Instr.sqTail path c v, Instr.cqHead path c v])
    (h : doorbellOpen s path c = false) : exec i s = .next s := by
  simp only [List.mem_cons, List.not_mem_nil, or_false] at hi
  obtain rfl | rfl := hi
  · exact congrArg _ (if_neg (by simp [h]))
  · exact congrArg _ (if_neg (by simp [h]))

theorem sqTail_open {path : DoorbellPath} {c : Nat} (v : W32) (h : doorbellOpen s path c = true) :
    exec (.sqTail path c v) s = .next (doorbellHalf s c false v) := congrArg _ (if_pos h)

theorem cqHead_open {path : DoorbellPath} {c : Nat} (v : W32) (h : doorbellOpen s path c = true) :
    exec (.cqHead path c v) s = .next (doorbellHalf s c true v) := congrArg _ (if_pos h)

/-- A write that the doorbell ignores is counted (R428). -/
theorem doorbellHalf_ignored {c : Nat} (h : s.rst.ready = false ∨ (getCtx s c).state ≠ .opened) (cq : Bool) (v : W32) :
    CtxBecomes s (doorbellHalf s c cq v) c { getCtx s c with ignored := (getCtx s c).ignored + 1 } := by
  unfold doorbellHalf
  dsimp only
  rw [if_pos (by simpa using h)]
  exact ctxBecomes_updCtx s c _

section
variable {c : Nat} {x : Context} {cq : Bool} {v : W32} (hr : s.rst.ready = true) (hx : x = getCtx s c) (ho : x.state = .opened)
include hr hx ho

/-- An accepted half takes the value (R177). -/
theorem doorbellHalf_accepted (h : doorbellRejects x cq v = false) : CtxBecomes s (doorbellHalf s c cq v) c
    (if cq then { x with cqHead := v } else { x with sqTail := v }) := by
  subst hx
  unfold doorbellHalf
  dsimp only
  rw [if_neg (by simp [hr, ho]), if_neg (by simp [h])]
  cases cq
  · exact ctxBecomes_updCtx s c _
  · exact ctxBecomes_updCtx s c _

/-- A rejected half keeps its value; the rejection is counted and raises its event (R177). -/
theorem doorbellHalf_rejected (h : doorbellRejects x cq v = true) :
    ∃ m, CtxBecomes s m c { x with rejected := x.rejected + 1 } ∧
      Raises m (doorbellHalf s c cq v) (fun e => e.code = 0x0306 ∧ e.site = c / 8 ∧ e.unit = c) := by
  subst hx
  obtain ⟨e, he, e1, e2, e3, -⟩ := raise_unlogged (updCtx s c (fun y => { y with rejected := y.rejected + 1 }))
    { code := 0x0306, site := ctxBerth c, unit := c, part := partField s (ctxBerth c), arg := doorbellOffset c + bit cq <<< 18 }
  refine ⟨_, ctxBecomes_updCtx s c (fun y => { y with rejected := y.rejected + 1 }), ?_⟩
  unfold doorbellHalf
  dsimp only
  rw [if_neg (by simp [hr, ho]), if_pos h]
  exact ⟨rfl, e, he, e1, e2, e3⟩

end

/-- The mirror shows both halves at the doorbell's own offset. -/
theorem doorbellAt_offset {c : Nat} (h : hasCtx s c = true) (hp : s.ident.part ≤ 8) :
    doorbellAt s (doorbellOffset c) = some (c, false) := by
  have hc : c / 8 < s.ident.part := by simp [hasCtx] at h; omega
  unfold doorbellAt doorbellOffset
  rw [if_pos ⟨by omega, by omega, by omega, by omega⟩]
  have h1 : 8 * ((0x10000 + 0x1000 * (c / 8) + 8 * (c % 8)) / 0x1000 - 0x10) +
      (0x10000 + 0x1000 * (c / 8) + 8 * (c % 8)) % 0x1000 / 8 = c := by omega
  have h2 : (0x10000 + 0x1000 * (c / 8) + 8 * (c % 8)) % 8 = 0 := by omega
  rw [h1, h2]
  rfl

theorem mirrorWord_doorbell {c : Nat} (h : hasCtx s c = true) (hp : s.ident.part ≤ 8) :
    mirrorWord s (doorbellOffset c) = (getCtx s c).sqTail.toNat + (getCtx s c).cqHead.toNat * 2 ^ 32 := by
  have h8 : doorbellOffset c / 8 * 8 = doorbellOffset c := by unfold doorbellOffset; omega
  have hl : 0x10000 ≤ doorbellOffset c := by unfold doorbellOffset; omega
  unfold mirrorWord
  rw [if_neg (by omega), if_neg (by omega), if_neg (by omega), h8, doorbellAt_offset h hp]
  dsimp only
  rw [Nat.shiftLeft_eq]

/-- Settles O29: a half is accepted, rejected or ignored, or its page is closed; the mirror shows both. -/
theorem doorbellHalvesAcceptedOrRejected : Obligations.DoorbellHalvesAcceptedOrRejected := by
  unfold Obligations.DoorbellHalvesAcceptedOrRejected
  refine ⟨fun s path c v x hd hr hx ho => ⟨fun h1 h2 => ⟨_, sqTail_open v hd, ?_⟩, fun h => ?_, fun h1 h2 => ⟨_, cqHead_open v hd, ?_⟩,
    fun h => ?_⟩, fun s path c v i hi => ⟨fun hd h => ?_, doorbell_shut hi⟩, fun s c h hp => mirrorWord_doorbell h hp⟩
  · exact doorbellHalf_accepted hr hx ho (by simpa [doorbellRejects] using ⟨h1, h2⟩)
  · obtain ⟨m, hm, hf⟩ := doorbellHalf_rejected (cq := false) (v := v) hr hx ho (by simpa [doorbellRejects] using h)
    exact ⟨m, _, sqTail_open v hd, hm, hf⟩
  · exact doorbellHalf_accepted hr hx ho (by simpa [doorbellRejects] using ⟨h1, h2⟩)
  · obtain ⟨m, hm, hf⟩ := doorbellHalf_rejected (cq := true) (v := v) hr hx ho (by simpa [doorbellRejects] using h)
    exact ⟨m, _, cqHead_open v hd, hm, hf⟩
  · simp only [List.mem_cons, List.not_mem_nil, or_false] at hi
    obtain rfl | rfl := hi
    · exact ⟨_, sqTail_open v hd, doorbellHalf_ignored h _ _⟩
    · exact ⟨_, cqHead_open v hd, doorbellHalf_ignored h _ _⟩

end Sys2Proof.Machine
end

section
/-! SUPPORT. COMMAND_START: what a started command is, its places in the rotation of its engines, and the limit of 64. -/

namespace Sys2Proof.Machine

variable {s : State}

/-! ## Changes of the commands of one context -/

/-- Some commands in flight of one context change: a command of the context is found changed when it is one of those. -/
theorem findCmd_mapFlight {hit : Cmd → Bool} {f : Cmd → Cmd} (hf : ∀ c, (f c).id = c.id) {id : CmdId} {c : Cmd}
    (h : findCmd s id = some c) :
    findCmd (updCtx s id.ctx (fun x => { x with flight := mapIf hit f x.flight })) id = some (if hit c then f c else c) := by
  have hfind : ∀ l : List Cmd, (mapIf hit f l).find? (fun c => decide (c.id = id)) =
      (l.find? (fun c => decide (c.id = id))).map (fun c => if hit c then f c else c) := fun l => by
    unfold mapIf
    rw [List.find?_map]
    simp only [Function.comp_def, mapIf_id hf]
  unfold findCmd
  rw [getCtx_upd_self]
  exact (hfind _).trans (by rw [show List.find? _ _ = some c from h]; rfl)

theorem TimesOnly.id_eq {f : Cmd → Cmd} (h : TimesOnly f) (m : Cmd) : (f m).id = m.id := by rw [(h m).1]

/-- The limit of 64 leaves a command alone whose timeout runs and that waits no longer. -/
theorem find_settled {x : Context} {id : CmdId} {d : Cmd} (t : Nat) (hf : x.flight.find? (fun c => decide (c.id = id)) = some d)
    (hb : d.blockedAt = none) (hw : ∀ m ∈ x.flight, m.id = id → m.phase ≠ .waiting) :
    (x.settled t).flight.find? (fun c => decide (c.id = id)) = some d := by
  unfold Context.settled
  split
  · have hid : ∀ m : Cmd, (m.unblock t).id = m.id := (timesOnly_unblock t).id_eq
    have hd : d.unblock t = d := by unfold Cmd.unblock; rw [hb]
    rw [List.find?_map]
    simp only [Function.comp_def, hid]
    rw [hf, Option.map_some, hd]
  · split
    · next w hfw =>
      split
      · exact hf
      · have hwp : w.phase = .waiting := by simpa using List.find?_some hfw
        have hne : id ≠ w.id := fun he => hw w (List.mem_of_find?_eq_some hfw) he.symm hwp
        exact (find_mapIf_other (f := fun m => { m with blockedAt := some t }) (fun _ => rfl) hne).trans hf
    · exact hf

theorem findCmd_settleLimit {id : CmdId} {d : Cmd} (hf : findCmd s id = some d) (hb : d.blockedAt = none)
    (hw : ∀ m ∈ (getCtx s id.ctx).flight, m.id = id → m.phase ≠ .waiting) : findCmd (settleLimit s id.ctx) id = some d := by
  rw [settleLimit_eq]
  unfold findCmd
  rw [getCtx_upd_self]
  exact find_settled (now s) hf hb hw

/-- A change of one command to a phase other than waiting leaves none of its identity waiting. -/
theorem updCmd_not_waiting {id : CmdId} {f : Cmd → Cmd} (hp : ∀ c, (f c).phase ≠ .waiting) :
    ∀ m ∈ (getCtx (updCmd s id f) id.ctx).flight, m.id = id → m.phase ≠ .waiting := by
  intro m hm hi
  simp only [updCmd, getCtx_upd_self, mapIf, List.mem_map] at hm
  obtain ⟨c, -, rfl⟩ := hm
  by_cases hc : c.id = id
  · rw [if_pos (decide_eq_true hc)]
    exact hp c
  · rw [if_neg (by simpa using hc)] at hi
    exact absurd hi hc

/-! ## The command that starts -/

/-- What a command's start leaves of its record. -/
def StartedAs (s : State) (c d : Cmd) : Prop :=
  d.phase = .started ∧ d.began = true ∧ d.tideStart = now s ∧ d.deadline = now s + timeoutNs (hTimeout c.packet) ∧
    d.blockedAt = none ∧ d.id = c.id ∧ d.engines = c.engines ∧ d.berth = c.berth

/-- A started command keeps the marks of its start whatever status it takes. -/
theorem StartedAs.note {c d : Cmd} (h : StartedAs s c d) (st n : Nat) : StartedAs s c (d.note st n) := by
  unfold Cmd.note
  split
  · exact h
  · exact h

theorem StartedAs.ite {c d e : Cmd} {p : Prop} [Decidable p] (hd : StartedAs s c d) (he : StartedAs s c e) :
    StartedAs s c (if p then d else e) := by
  split
  · exact hd
  · exact he

theorem startedAs_planTally {c d : Cmd} (h : StartedAs s c d) (bound : Bool) (n : Nat) : StartedAs s c (planTally s d bound n) := h

theorem startCmd_row (s : State) (c : Cmd) :
    ∃ d, StartedAs s c d ∧ startCmd s c = joinRotation (updCmd s c.id (fun _ => d)) d := by
  have h : StartedAs s c { c with
      phase := .started
      began := true
      tideStart := now s
      blockedAt := none
      deadline := now s + timeoutNs (hTimeout c.packet) } := ⟨rfl, rfl, rfl, rfl, rfl, rfl, rfl, rfl⟩
  have h2 := StartedAs.ite (p := (hTstart c.packet && relaxedAt s (hTstartNs c.packet)) = true) (h.note S_DEGRADED 4) h
  exact ⟨_, StartedAs.ite (startedAs_planTally h2 (hBound c.packet) (hTreq c.packet)) h2, rfl⟩

/-! ## Places in the rotation (R212, R213) -/

theorem joinRotation_frame (s : State) (c : Cmd) : joinRotation s c = { s with engines := (joinRotation s c).engines } :=
  foldl_rel (R := fun u t => t = { u with engines := t.engines }) (fun _ => rfl) (fun h g => by rw [g, h]) (fun _ _ => rfl) _ s

/-- A command that stands in a rotation keeps its place when others join. -/
theorem rotationList_join {id : CmdId} {b e k : Nat} (h : id ∈ (getEngine s b e).rotationList) (c : CmdId) :
    id ∈ (getEngine (updEngine s b k (fun x => { x with rotationList := addNew c x.rotationList })) b e).rotationList := by
  by_cases hk : engKey b e = engKey b k
  · have hg : getEngine s b k = getEngine s b e := by unfold getEngine; rw [hk]
    have hu : ∀ u : State, getEngine u b e = getEngine u b k := fun u => by unfold getEngine; rw [hk]
    rw [hu, getEngine_upd_self, hg]
    dsimp only
    unfold addNew
    split
    · exact h
    · exact List.mem_append_left _ h
  · rw [getEngine_upd_other s _ hk]
    exact h

theorem joinRotation_member (s : State) {c : Cmd} {e : Nat} (he : e ∈ c.engines) :
    c.id ∈ (getEngine (joinRotation s c) c.berth e).rotationList := by
  unfold joinRotation
  have keeps : ∀ (l : List Nat) (u : State), c.id ∈ (getEngine u c.berth e).rotationList →
      c.id ∈ (getEngine (l.foldl (fun t k => updEngine t c.berth k (fun x =>
        { x with rotationList := addNew c.id x.rotationList })) u) c.berth e).rotationList := fun l => by
    induction l with
    | nil => exact fun _ h => h
    | cons k l ih => exact fun u h => ih _ (rotationList_join h c.id)
  generalize c.engines = l at he
  induction l generalizing s with
  | nil => exact absurd he List.not_mem_nil
  | cons k l ih =>
    obtain rfl | hl := List.mem_cons.mp he
    · refine keeps l _ ?_
      rw [getEngine_upd_self]
      exact mem_addNew _ _
    · exact ih _ hl

/-! ## COMMAND_START -/

/-- The turn of a waiting command has come (R184, R185). -/
def mayStart (s : State) (id : CmdId) (c : Cmd) : Bool :=
  !heldByEarlier (getCtx s id.ctx) id && decide (startedCount (getCtx s id.ctx) < 64) && eligible s c

theorem eligible_iff (s : State) (c : Cmd) : eligible s c = true ↔
    (hDep0 c.packet = true → hDep0Value c.packet ≤ (getCounter s c.berth (hDep0Idx c.packet)).toNat) ∧
    (hDep1 c.packet = true → hDep1Value c.packet ≤ (getCounter s c.berth (hDep1Idx c.packet)).toNat) ∧
    (hTstart c.packet = true → hTstartNs c.packet ≤ now s) := by
  simp only [eligible, Bool.and_eq_true, Bool.or_eq_true, Bool.not_eq_true', decide_eq_true_eq, ← Bool.not_eq_true,
    ← imp_iff_not_or, and_assoc]

theorem exec_commandStart {id : CmdId} (hc : hasCtx s id.ctx = true) : exec (.commandStart id) s = .next (startCommand s id) :=
  guarded_next.mpr ⟨hc, rfl⟩

theorem startCommand_of_not {id : CmdId} (h : ∀ c, findCmd s id = some c → c.phase ≠ .waiting ∨ mayStart s id c = false) :
    startCommand s id = s := by
  unfold startCommand
  dsimp only
  split
  · rfl
  · next c hc =>
    refine if_neg fun hs => ?_
    simp only [Bool.and_eq_true, decide_eq_true_eq] at hs
    obtain ⟨⟨⟨⟨h1, -⟩, h2⟩, h3⟩, h4⟩ := hs
    obtain hw | hm := h c hc
    · exact hw h1
    · simp [mayStart, h2, h3, h4] at hm

theorem startCommand_starts {id : CmdId} {c : Cmd} (hf : findCmd s id = some c) (hn : id.node = none) (hp : c.phase = .waiting)
    (hm : mayStart s id c = true) (hd : domainsReady s c.berth c = true) (hr : resourcesFree s c = true)
    (ho : isOptical c.opcode c.params = true → c.engines.any (engInService s c.berth) = true) :
    startCommand s id = settleLimit (startCmd s c) id.ctx := by
  have ht : tryStart s c = settleLimit (startCmd s c) c.id.ctx := by
    unfold tryStart
    dsimp only
    rw [if_neg (by simp [hd]), if_neg (by simpa using ho), if_pos hr]
  unfold startCommand
  dsimp only
  rw [hf]
  dsimp only
  rw [if_pos, ht, findCmd_id hf]
  simpa [hn, hp, mayStart, and_assoc] using hm

/-- What is left of the state when a command of a ring has started. -/
theorem settled_start_row {id : CmdId} {c : Cmd} (hf : findCmd s id = some c) :
    ∃ t d, t = settleLimit (startCmd s c) id.ctx ∧ t = { s with ctxs := t.ctxs, engines := t.engines } ∧
      (∀ k, k ≠ id.ctx → getCtx t k = getCtx s k) ∧ findCmd t id = some d ∧ StartedAs s c d ∧
      ∀ e ∈ c.engines, id ∈ (getEngine t c.berth e).rotationList := by
  have hid := findCmd_id hf
  obtain ⟨d, hd, hs⟩ := startCmd_row s c
  have ⟨hph, _, _, _, hb, hdi, hde, hdb⟩ := hd
  rw [hid] at hs hdi
  have hj := joinRotation_frame (updCmd s id (fun _ => d)) d
  have hc : (startCmd s c).ctxs = (updCmd s id (fun _ => d)).ctxs := by rw [hs, hj]
  have hg : ∀ k, getCtx (startCmd s c) k = getCtx (updCmd s id (fun _ => d)) k := fun k => by unfold getCtx; rw [hc]
  have hfd : findCmd (startCmd s c) id = some d := by
    have hl : (getCtx s id.ctx).flight.find? (fun c => decide (c.id = id)) = some c := hf
    unfold findCmd
    rw [hg]
    simp only [updCmd, getCtx_upd_self, mapIf, List.find?_map]
    have hi : ∀ m : Cmd, (if decide (m.id = id) = true then d else m).id = m.id := fun m => by
      split
      · next h => rw [hdi, of_decide_eq_true h]
      · rfl
    simp only [Function.comp_def, hi]
    rw [hl]
    simp [hid]
  refine ⟨_, d, rfl, ?_, fun k hk => ?_, findCmd_settleLimit hfd hb ?_, hd, fun e he => ?_⟩
  · rw [settleLimit_eq, hs, hj]
    rfl
  · rw [settleLimit_eq, getCtx_upd_other _ _ hk, hg, getCtx_updCmd_other hk]
  · rw [hg]
    exact updCmd_not_waiting (fun _ => by rw [hph]; decide)
  · have hm := joinRotation_member (updCmd s id (fun _ => d)) (c := d) (e := e) (hde ▸ he)
    rw [← hs, hdb, hdi] at hm
    exact hm

/-- Settles O31: a command whose turn it is starts; any other stays as it is. -/
theorem commandsStartInOrder : Obligations.CommandsStartInOrder := by
  unfold Obligations.CommandsStartInOrder
  refine ⟨fun s id c x hc hx hf hn hp => ⟨fun h1 h2 h3 h4 h5 hd hr ho => ?_, fun hno => ?_⟩, fun s id hc h => ?_⟩
  · rw [hx] at h1 h2
    have hm : mayStart s id c = true := by simp [mayStart, h1, h2, (eligible_iff s c).mpr ⟨h3, h4, h5⟩]
    obtain ⟨t, d, ht, hframe, hctx, hfd, ⟨d1, d2, d3, d4, -⟩, heng⟩ := settled_start_row hf
    refine ⟨t, d, ?_, hframe, hctx, hfd, d1, d2, d3, d4, heng⟩
    rw [exec_commandStart hc, startCommand_starts hf hn hp hm hd hr ho, ht]
  · rw [exec_commandStart hc, startCommand_of_not fun c' hc' => .inr ?_]
    rw [hf] at hc'
    obtain rfl := Option.some.inj hc'
    subst hx
    refine Bool.eq_false_iff.mpr fun hm => ?_
    simp only [mayStart, Bool.and_eq_true, Bool.not_eq_true', decide_eq_true_eq, eligible_iff] at hm
    obtain ⟨⟨m1, m2⟩, m3, m4, m5⟩ := hm
    obtain h | h | ⟨hb, h⟩ | ⟨hb, h⟩ | ⟨hb, h⟩ := hno
    · rw [m1] at h
      cases h
    · omega
    · exact absurd (m3 hb) (by omega)
    · exact absurd (m4 hb) (by omega)
    · exact absurd (m5 hb) (by omega)
  · rw [exec_commandStart hc, startCommand_of_not fun c hc => .inl (h c hc)]

end Sys2Proof.Machine
end

section
/-! SUPPORT. Timeouts: a request not begun, a command that waits, a command whose work is stopped, with and without a run of a graph,
and the rungs that a stop takes. -/

namespace Sys2Proof.Machine

variable {s : State}

/-! ## A request that Blunen has not begun (R501) -/

theorem mailboxTimeout_early {fn : Nat} (h : now s < (getMbx s fn).submitted + timeoutNs (hTimeout (getMbx s fn).req)) :
    mailboxTimeout s fn = s := by
  unfold mailboxTimeout
  exact if_pos (by simp [h])

theorem mailboxTimeout_answers {fn : Nat} {m : Mailbox} (hm : m = getMbx s fn) (hp : m.pending = true) (ha : m.accepted = true)
    (hr : m.result = none) (hj : m.journal = 0) (ht : m.submitted + timeoutNs (hTimeout m.req) ≤ now s) :
    MbxBecomes s (mailboxTimeout s fn) fn { m with result := some ⟨S_TIMEOUT, 0, []⟩, journal := 2 } := by
  subst hm
  have he : mailboxTimeout s fn = updMbx s fn (fun m => { m with result := some ⟨S_TIMEOUT, 0, []⟩, journal := 2 }) := by
    unfold mailboxTimeout
    dsimp only
    rw [if_neg (by simp [hp, ha, hr]; omega), if_pos hj]
    exact if_pos (by simp [hp, ha, hr])
  rw [he]
  exact ⟨rfl, fun k hk => getMbx_upd_other s _ hk, getMbx_upd_self s fn _⟩

/-! ## A command that waits (R186) -/

theorem exec_ringTimeout {id : CmdId} (hc : hasCtx s id.ctx = true) :
    exec (.commandTimeout (.ring id)) s = .next (ringTimeout s id) := guarded_next.mpr ⟨hc, rfl⟩

theorem ringTimeout_early {id : CmdId} {c : Cmd} (hf : findCmd s id = some c) (h : now s < c.deadline) : ringTimeout s id = s := by
  unfold ringTimeout
  rw [hf]
  exact if_pos (by simp [h])

/-- At its timeout a command is judged by its phase. -/
theorem ringTimeout_due {id : CmdId} {c : Cmd} (hf : findCmd s id = some c) (hn : id.node = none) (hb : c.blockedAt = none)
    (h : c.deadline ≤ now s) : ringTimeout s id = match c.phase with
      | .waiting => if startsNow s c then s else settleLimit (updCmd s id (fun m => m.endUnstarted (now s) S_TIMEOUT 0)) id.ctx
      | .started => if c.served then servedTimeout s (.ring id) c.opcode c.params else stopCmd s id
      | .finished => if atWork s c then stopCmd s id else s
      | .stopping => s := by
  unfold ringTimeout
  rw [hf]
  dsimp only
  exact (if_neg (by simp [hb, findCmd_id hf, hn]; omega)).trans rfl

theorem endUnstarted_row {id : CmdId} {c : Cmd} (hf : findCmd s id = some c) (hb : c.blockedAt = none) (st d : Nat) :
    ∃ t, t = settleLimit (updCmd s id (fun m => m.endUnstarted (now s) st d)) id.ctx ∧ t = { s with ctxs := t.ctxs } ∧
      (∀ k, k ≠ id.ctx → getCtx t k = getCtx s k) ∧ findCmd t id = some (c.endUnstarted (now s) st d) := by
  have hu : findCmd (updCmd s id (fun m => m.endUnstarted (now s) st d)) id = some (c.endUnstarted (now s) st d) := by
    refine (findCmd_updCmd_self (f := fun m => m.endUnstarted (now s) st d) (fun _ => rfl)).trans ?_
    rw [hf]
    rfl
  refine ⟨_, rfl, rfl, fun k hk => ?_, findCmd_settleLimit hu hb (updCmd_not_waiting fun _ => ?_)⟩
  · rw [settleLimit_eq, getCtx_upd_other _ _ hk, getCtx_updCmd_other hk]
  · exact CmdPhase.noConfusion

/-! ## A command that is stopped (R188) -/

/-- No chunk of a Tug of the command or its nodes waits to be counted. -/
def NoneAcked (s : State) (id : CmdId) : Prop :=
  ∀ m ∈ (getCtx s id.ctx).flight, ownerOf m.id = id → m.tug.begun.any (chunkAcked s m) = false

theorem settleTugs_of_noneAcked {id : CmdId} (h : NoneAcked s id) : settleTugs s id = s := by
  have he : ∀ m ∈ (getCtx s id.ctx).flight.filter (fun m => decide (ownerOf m.id = id)), endAcked s m = s := by
    intro m hm
    obtain ⟨hm, ho⟩ := List.mem_filter.mp hm
    have hn : m.tug.begun.filter (chunkAcked s m) = [] := by
      simpa [List.filter_eq_nil_iff] using h m hm (of_decide_eq_true ho)
    unfold endAcked
    rw [hn]
    rfl
  unfold settleTugs
  generalize List.filter _ _ = l at he
  induction l with
  | nil => rfl
  | cons m l ih =>
    rw [List.foldl_cons, he m List.mem_cons_self]
    exact ih fun x hx => he x (List.mem_cons_of_mem m hx)

/-- The commands in flight that a stop of `id` stops: its own and those of its nodes that are at work. -/
def stoppedWith (s : State) (id : CmdId) (m : Cmd) : Bool := decide (ownerOf m.id = id) && atWork s m

/-- The state in which the work of a command and its nodes is stopped, before its run is settled. -/
def workStopped (s : State) (id : CmdId) : State :=
  updRun (dropHeld (updCtx s id.ctx (fun x => { x with flight := mapIf (stoppedWith s id) (fun m => m.stop (now s)) x.flight })) id)
    id (fun r => { r with stopped := true })

theorem stopCmd_eq {id : CmdId} (h : NoneAcked s id) : stopCmd s id = settleRun (workStopped s id) id := by
  unfold stopCmd
  rw [settleTugs_of_noneAcked h]
  rfl

theorem getCtx_workStopped_other {id : CmdId} {k : Nat} (h : k ≠ id.ctx) : getCtx (workStopped s id) k = getCtx s k :=
  getCtx_upd_other s (fun x => { x with flight := mapIf (stoppedWith s id) (fun m => m.stop (now s)) x.flight }) h

@[simp] theorem Cmd.stop_id (c : Cmd) (t : Nat) : (c.stop t).id = c.id := Cmd.note_id c S_TIMEOUT 0

theorem findCmd_workStopped {id : CmdId} {c : Cmd} (hf : findCmd s id = some c) (hn : id.node = none) (hw : atWork s c = true) :
    findCmd (workStopped s id) id = some (c.stop (now s)) := by
  have ho : ownerOf c.id = id := by
    rw [findCmd_id hf]
    unfold ownerOf
    rw [← hn]
  have h := findCmd_mapFlight (hit := stoppedWith s id) (f := fun m => m.stop (now s)) (fun c => Cmd.stop_id c (now s)) hf
  rw [if_pos (by simp [stoppedWith, ho, hw])] at h
  exact h

/-- The run of a command is stopped with it. -/
theorem runOf_workStopped (s : State) (id : CmdId) :
    runOf (workStopped s id) id = (runOf s id).map (fun r => { r with stopped := true }) := by
  show (mapIf _ _ s.graphs.runs).find? _ = _
  unfold runOf mapIf
  rw [List.find?_map]
  have hi : ∀ r : GraphRunState, (fun r : GraphRunState => r.id.ctx == id.ctx && r.id.seq == id.seq)
      (if (r.id.ctx == id.ctx && r.id.seq == id.seq) = true then { r with stopped := true } else r) =
      (r.id.ctx == id.ctx && r.id.seq == id.seq) := fun r => by split <;> rfl
  simp only [Function.comp_def, hi]
  cases hr : s.graphs.runs.find? (fun r => r.id.ctx == id.ctx && r.id.seq == id.seq) with
  | none => rfl
  | some r =>
    have h := List.find?_some hr
    rw [Option.map_some, Option.map_some, if_pos h]

theorem nodesInFlight_workStopped (s : State) (id : CmdId) : nodesInFlight (workStopped s id) id = nodesInFlight s id := by
  have hg : getCtx (workStopped s id) id.ctx = { getCtx s id.ctx with
      flight := mapIf (stoppedWith s id) (fun m => m.stop (now s)) (getCtx s id.ctx).flight } :=
    getCtx_upd_self s id.ctx (fun x => { x with flight := mapIf (stoppedWith s id) (fun m => m.stop (now s)) x.flight })
  unfold nodesInFlight
  rw [hg]
  have hi := mapIf_id (p := stoppedWith s id) (f := fun m => m.stop (now s)) (fun c => Cmd.stop_id c (now s))
  simp only [mapIf, List.any_map, Function.comp_def, hi]

/-- A command at work that has no run is stopped, and nothing else than its nodes, its held requests and its run changes. -/
theorem stopCmd_row {id : CmdId} {c : Cmd} (hf : findCmd s id = some c) (hn : id.node = none) (hw : atWork s c = true)
    (ha : NoneAcked s id) (hr : runOf s id = none) :
    ∃ t d, t = stopCmd s id ∧ findCmd t id = some d ∧ d.phase = .stopping ∧ d.opt.todo = [] ∧ d.tug.stopped = true ∧
      statusRank S_TIMEOUT ≤ statusRank d.status ∧ t.mem = s.mem ∧ t.sent = s.sent ∧ t.engines = s.engines ∧
      ∀ k, k ≠ id.ctx → getCtx t k = getCtx s k := by
  have hs : stopCmd s id = workStopped s id := by
    rw [stopCmd_eq ha]
    unfold settleRun
    rw [runOf_workStopped, hr]
    rfl
  exact ⟨_, c.stop (now s), rfl, by rw [hs]; exact findCmd_workStopped hf hn hw, rfl, rfl, rfl, statusRank_note c S_TIMEOUT 0, by rw [hs]; rfl,
    by rw [hs]; rfl, by rw [hs]; rfl, fun k hk => by rw [hs]; exact getCtx_workStopped_other hk⟩

/-! ## A run that ends with its command (R241, R243) -/

/-- No command loses rank. -/
def RankStays (s t : State) : Prop :=
  ∀ id c, findCmd s id = some c → ∃ d, findCmd t id = some d ∧ statusRank c.status ≤ statusRank d.status

theorem RankStays.refl (s : State) : RankStays s s := fun _ c h => ⟨c, h, le_refl _⟩
theorem RankStays.trans {s t u : State} (h : RankStays s t) (k : RankStays t u) : RankStays s u := by
  intro id c hc
  obtain ⟨d, hd, r1⟩ := h id c hc
  obtain ⟨e, he, r2⟩ := k id d hd
  exact ⟨e, he, r1.trans r2⟩
theorem RankStays.of_ctxs {t : State} (h : t.ctxs = s.ctxs) : RankStays s t := fun _ c hc =>
  ⟨c, (findCmd_congr h).trans hc, le_refl _⟩

theorem rankStays_issueWork (s : State) (r : WireReq) (p : Purpose) : RankStays s (issueWork s r p) := by
  refine .trans (t := useTag s r.tag) (.of_ctxs rfl) ?_
  unfold issueWork issueTracked
  dsimp only
  split
  · obtain ⟨-, -, -, -, -, h⟩ := requestsEnd_noteOut (useTag s r.tag) _ _ _
    exact h
  · split
    · exact .of_ctxs rfl
    · exact .of_ctxs (by rw [sendReq_frame])

theorem rankStays_issueStores (s : State) (c : Cmd) (p : Purpose) (a : Nat) (l : List Byte) :
    RankStays s (issueStores s c p a l) := by
  unfold issueStores
  refine foldl_rel RankStays.refl RankStays.trans (fun t x => ?_) _ _
  split
  · split
    · exact rankStays_issueWork _ _ _
    · exact foldl_rel RankStays.refl RankStays.trans (fun u q => rankStays_issueWork _ _ _) _ _
  · exact .refl t

theorem rankStays_issueResults (s : State) (c : Cmd) (l : List (Nat × Byte)) : RankStays s (issueResults s c l) := by
  unfold issueResults
  generalize gather l = g
  exact foldl_rel RankStays.refl RankStays.trans (fun t r => rankStays_issueStores t c _ _ _) _ _

/-- A command that takes several statuses keeps its identity and loses no rank. -/
theorem foldl_note {α : Type} (g : α → Nat × Nat) (l : List α) (c : Cmd) :
    (l.foldl (fun m x => m.note (g x).1 (g x).2) c).id = c.id ∧
      statusRank c.status ≤ statusRank (l.foldl (fun m x => m.note (g x).1 (g x).2) c).status := by
  induction l generalizing c with
  | nil => exact ⟨rfl, le_refl _⟩
  | cons x l ih =>
    obtain ⟨h1, h2⟩ := ih (c.note (g x).1 (g x).2)
    exact ⟨h1.trans (Cmd.note_id c _ _), (Cmd.rank_le_note c _ _).1.trans h2⟩

/-- The end of a command that only stores: it has finished, and loses no rank. -/
theorem finishWork_row {c x : Cmd} {ts : List Touch} {l : List (Nat × Byte)} (hr : readsOf ts = [])
    (hx : findCmd s c.id = some x) : ∃ d, findCmd (finishWork s c ts none l) c.id = some d ∧ d.phase = .finished ∧
      statusRank x.status ≤ statusRank d.status := by
  have e : finishWork s c ts none l = issueResults (finishCmd s c.id none (l.filter (fun e => !goesOut s e.1))) c
      (l.filter (fun e => goesOut s e.1)) := by
    unfold finishWork
    rw [hr]
    rfl
  obtain ⟨-, -, -, -, h5⟩ := cmdBecomes_finishCmd (st := none) (l := l.filter (fun e => !goesOut s e.1)) hx
  obtain ⟨-, -, -, k⟩ := requestsLeave_issueResults (finishCmd s c.id none (l.filter (fun e => !goesOut s e.1))) c
    (l.filter (fun e => goesOut s e.1))
  obtain ⟨d, hd, hp, -⟩ := k _ h5
  obtain ⟨d', hd', hrank⟩ := rankStays_issueResults _ c (l.filter (fun e => goesOut s e.1)) _ _ h5
  obtain rfl := Option.some.inj (hd.symm.trans hd')
  exact ⟨d, by rw [e]; exact hd, hp, hrank⟩

/-- The run of a command ends: the command has finished and loses no rank, memory stays, and the run is gone. -/
theorem finishRun_row {r : GraphRunState} {c : Cmd} (hf : findCmd s r.id = some c) :
    ∃ d, findCmd (finishRun s r) r.id = some d ∧ d.phase = .finished ∧ statusRank c.status ≤ statusRank d.status ∧
      (finishRun s r).mem = s.mem ∧ ∀ x ∈ (finishRun s r).graphs.runs, x.id ≠ r.id := by
  have hid := findCmd_id hf
  have hnote := foldl_note (fun n : Nat × Nat => ((tabGet ({} : NodeStat) r.nodes n.2).status,
    (tabGet ({} : NodeStat) r.nodes n.2).detail)) (runNodes s r)
  unfold finishRun
  rw [hf]
  dsimp only at hnote ⊢
  generalize hu : ({ updCmd s r.id _ with graphs := _ } : State) = u
  have hx : findCmd u c.id = some ((runNodes s r).foldl (fun m n =>
      m.note (tabGet {} r.nodes n.2).status (tabGet {} r.nodes n.2).detail) c) := by
    rw [hid, ← hu]
    refine (findCmd_updCmd_self (fun m => (hnote m).1)).trans ?_
    rw [hf]
    rfl
  have hw := workFrame_finishWork u c [⟨.store, fld c.params 80 48, 8 * (runNodes s r).length⟩] none
    (layAt (fld c.params 80 48) ((runNodes s r).flatMap (fun n => bytesLE 8 (nodeEntry (ownNode s n.1) (tabGet {} r.nodes n.2)))))
  obtain ⟨d, hd, hp, hk⟩ := finishWork_row (ts := [⟨.store, fld c.params 80 48, 8 * (runNodes s r).length⟩])
    (l := layAt (fld c.params 80 48) ((runNodes s r).flatMap (fun n => bytesLE 8 (nodeEntry (ownNode s n.1) (tabGet {} r.nodes n.2)))))
    rfl hx
  rw [hid] at hd
  refine ⟨d, hd, hp, (hnote c).2.trans hk, by rw [hw.mem, ← hu]; rfl, fun x hx => ?_⟩
  rw [show State.graphs _ = u.graphs from by rw [hw], ← hu] at hx
  exact of_decide_eq_true (List.mem_filter.mp hx).2

/-- A GRAPH_RUN with no node in flight ends its run as it is stopped. -/
theorem stopCmd_run_row {id : CmdId} {c : Cmd} {r : GraphRunState} (hf : findCmd s id = some c) (hn : id.node = none)
    (hw : atWork s c = true) (ha : NoneAcked s id) (hr : runOf s id = some r) (hi : r.id = id) (hno : nodesInFlight s id = false) :
    ∃ t d, t = stopCmd s id ∧ findCmd t id = some d ∧ d.phase = .finished ∧ statusRank S_TIMEOUT ≤ statusRank d.status ∧
      t.mem = s.mem ∧ ∀ x ∈ t.graphs.runs, x.id ≠ id := by
  have hs : stopCmd s id = finishRun (workStopped s id) { r with stopped := true } := by
    rw [stopCmd_eq ha]
    unfold settleRun
    rw [runOf_workStopped, hr]
    refine if_pos ?_
    unfold runOver
    dsimp only
    rw [hi, nodesInFlight_workStopped, hno]
    rfl
  obtain ⟨d, hd, hp, hk, hm, hg⟩ := finishRun_row (s := workStopped s id) (r := { r with stopped := true }) (c := c.stop (now s))
    (by rw [← findCmd_workStopped hf hn hw]; exact congrArg _ hi)
  rw [← hs] at hd hm hg
  rw [show ({ r with stopped := true } : GraphRunState).id = id from hi] at hd hg
  exact ⟨_, d, rfl, hd, hp, (statusRank_note c S_TIMEOUT 0).trans hk, hm, hg⟩

/-! ## The rungs of a stop (R467) -/

/-- A rung that is taken changes the rungs in progress and the events, and its event names it. -/
theorem takeRung_row (s : State) (rung reach unit site : Nat) : ∃ u e, u = takeRung s rung reach unit site ∧
    u = { s with recovery := u.recovery, faults := u.faults } ∧ u.faults.unlogged = s.faults.unlogged ++ [e] ∧
    e.code = 0x0403 ∧ e.unit = rung := by
  obtain ⟨e, he, h1, -, h3, -⟩ := raise_unlogged
    { s with recovery := { s.recovery with rungs := s.recovery.rungs ++ [(rung, reach, unit, now s)] } }
    { code := 0x0403, outcome := 4, site := site, unit := rung, arg := unit }
  exact ⟨_, e, rfl, rfl, he, h1, h3⟩

theorem escalateStop_early {id : CmdId} {c : Cmd} (hf : findCmd s id = some c) (h : now s < c.stopTide + 1000000) (u : StuckUnit) :
    escalateStop s id u = s := by
  unfold escalateStop
  rw [hf]
  exact if_pos (by simp [h])

section
variable {id : CmdId} {c : Cmd} (hf : findCmd s id = some c) (hp : c.phase = .stopping) (h : c.stopTide + 1000000 ≤ now s)
include hf hp h

theorem escalateStop_sequencer :
    escalateStop s id .sequencer = abortCtx (takeRung s 1 id.ctx id.ctx c.berth) id.ctx := by
  unfold escalateStop
  rw [hf]
  exact if_neg (by simp [hp]; omega)

theorem escalateStop_engine {g : Nat} (hg : c.engines.contains g = true) :
    escalateStop s id (.engine c.berth g) = beginEngineReset (takeRung s 2 (engKey c.berth g) g c.berth) c.berth g := by
  unfold escalateStop
  rw [hf]
  exact (if_neg (by simp [hp]; omega)).trans (if_pos ⟨rfl, hg⟩)

/-- A sequencer that does not answer costs its context (rung 1). -/
theorem escalateStop_sequencer_row : ∃ t e, t = escalateStop s id .sequencer ∧ (getCtx t id.ctx).state = .closed ∧
    (getCtx t id.ctx).gen = (getCtx s id.ctx).gen + 1 ∧ (getCtx t id.ctx).flight = [] ∧ t.mem = s.mem ∧
    t.faults.unlogged = s.faults.unlogged ++ [e] ∧ e.code = 0x0403 ∧ e.unit = 1 := by
  obtain ⟨u, e, hu, hframe, he, h1, h2⟩ := takeRung_row s 1 id.ctx id.ctx c.berth
  have hg : getCtx u id.ctx = getCtx s id.ctx := by rw [hframe]; rfl
  have ha := abortCtx_frame u id.ctx
  rw [escalateStop_sequencer hf hp h, ← hu]
  refine ⟨_, e, rfl, ?_, ?_, ?_, by rw [ha, hframe]; rfl, by rw [ha]; exact he, h1, h2⟩ <;>
    (rw [getCtx_abortCtx_self, hg]; rfl)

/-- An engine that does not answer is reset (rung 2). -/
theorem escalateStop_engine_row {g : Nat} (hg : c.engines.contains g = true) :
    ∃ t e, t = escalateStop s id (.engine c.berth g) ∧ (getEngine t c.berth g).resetting = true ∧
      (getEngine t c.berth g).run = none ∧ t.mem = s.mem ∧ t.faults.unlogged = s.faults.unlogged ++ [e] ∧
      e.code = 0x0403 ∧ e.unit = 2 := by
  obtain ⟨u, e, hu, hframe, he, h1, h2⟩ := takeRung_row s 2 (engKey c.berth g) g c.berth
  obtain ⟨hb, hbe⟩ := beginEngineReset_row u c.berth g
  rw [escalateStop_engine hf hp h hg, ← hu]
  exact ⟨_, e, rfl, by rw [hbe], by rw [hbe]; rfl, by rw [hb, hframe], by rw [hb]; exact he, h1, h2⟩

end

/-- Settles O32: what has not begun ends, what is at work is stopped, and a stop that does not end takes its rung. -/
theorem timeoutsStopCommands : Obligations.TimeoutsStopCommands := by
  unfold Obligations.TimeoutsStopCommands
  refine ⟨fun s fn m hh hm hp ha hr hj => ⟨fun ht => ?_, fun ht => ?_⟩,
    fun s id c hc hf hn hb => ⟨fun hp hd hs => ?_, fun hp hr hd ha => ?_, fun r hp hsv hr hi hno hd ha => ?_, fun hd => ?_⟩,
    fun s id c hc hf hp => ⟨fun ht => ⟨?_, fun g he hg => ?_⟩, fun ht => ?_⟩⟩
  · exact ⟨_, guarded_next.mpr ⟨hh, rfl⟩, mailboxTimeout_answers hm hp ha hr hj ht⟩
  · subst hm
    exact guarded_next.mpr ⟨hh, mailboxTimeout_early ht⟩
  · obtain ⟨t, ht, hframe, hctx, hfind⟩ := endUnstarted_row hf hb S_TIMEOUT 0
    refine ⟨t, ?_, hframe, hctx, hfind⟩
    rw [exec_ringTimeout hc, ringTimeout_due hf hn hb hd, hp, ht]
    exact congrArg _ (if_neg (by simp [hs]))
  · have hw : atWork s c = true := by
      obtain ⟨h1, -⟩ | ⟨h1, h2, h3⟩ := hp
      · simp [atWork, h1]
      · simp [atWork, h1, h2, findCmd_id hf, h3]
    obtain ⟨t, d, ht, hrow⟩ := stopCmd_row hf hn hw ha hr
    refine ⟨t, d, ?_, hrow⟩
    rw [exec_ringTimeout hc, ringTimeout_due hf hn hb hd, ht]
    obtain ⟨h1, h2⟩ | ⟨h1, -⟩ := hp
    · rw [h1]
      exact congrArg _ (if_neg (by simp [h2]))
    · rw [h1]
      exact congrArg _ (if_pos hw)
  · obtain ⟨t, d, ht, hrow⟩ := stopCmd_run_row hf hn (by simp [atWork, hp]) ha hr hi hno
    refine ⟨t, d, ?_, hrow⟩
    rw [exec_ringTimeout hc, ringTimeout_due hf hn hb hd, ht, hp]
    exact congrArg _ (if_neg (by simp [hsv]))
  · rw [exec_ringTimeout hc, ringTimeout_early hf hd]
  · obtain ⟨t, e, ht, hrow⟩ := escalateStop_sequencer_row hf hp ht
    exact ⟨t, e, guarded_next.mpr ⟨by simp [hc], ht.symm⟩, hrow⟩
  · obtain ⟨t, e, ht, hrow⟩ := escalateStop_engine_row hf hp ht hg
    exact ⟨t, e, guarded_next.mpr ⟨by simp [hc, he], ht.symm⟩, hrow⟩
  · exact guarded_next.mpr ⟨by simp [hc], escalateStop_early hf ht _⟩

end Sys2Proof.Machine
end

section
/-! SUPPORT. Tide commands, sleep and wake: the alarm, a module that wakes, a module that goes to sleep, and the presence button. -/

namespace Sys2Proof.Machine

variable {s : State}

/-! ## A module that wakes (R406, R407, R495) -/

theorem domainsMove_countEvents (s : State) (a b n : Nat) : DomainsMove s (countEvents s a b n) := by
  unfold countEvents
  dsimp only
  split <;> rfl

theorem wakeModule_awake (h : s.io.asleep = false) (code : Nat) (same returns : List Nat) :
    wakeModule s code same returns = s := by
  unfold wakeModule
  exact if_pos (by simp [h])

/-- A sleeping module whose wake by source `code` alone has been recorded. -/
def wakeNoted (s : State) (code : Nat) : State :=
  { s with
    io := { s.io with
      asleep := false
      wakeTide := now s
      wakeCode := min code code
      wakeMask := BitVec.ofNat 7 (ofBits [code - 1])
      wakeCount := s.io.wakeCount + 1 }
    tide := { s.tide with refRunning := true, refTries := 0 } }

/-- A wake by one source is recorded, and domains and crossings come back. -/
theorem wakeModule_asleep (h : s.io.asleep = true) (code : Nat) (returns : List Nat) :
    DomainsMove (wakeNoted s code) (wakeModule s code [] returns) := by
  unfold wakeModule
  rw [if_neg (by simp [h])]
  have h1 := foldl_rel DomainsMove.refl DomainsMove.trans (fun t d => domainsMove_countEvents t 0 d 1) [1, 2, 3] (wakeNoted s code)
  exact h1.trans (foldl_rel DomainsMove.refl DomainsMove.trans domainsMove_wakeDomain ([1, 2, 3] ++ returns) _)

/-- What a wake by one source leaves. -/
theorem wakeModule_row (h : s.io.asleep = true) (code : Nat) (returns : List Nat) :
    ∃ t, t = wakeModule s code [] returns ∧ t.io.asleep = false ∧ t.io.wakeCode = code ∧ t.io.wakeTide = now s ∧
      t.io.wakeMask = BitVec.ofNat 7 (ofBits [code - 1]) ∧ t.io.wakeCount = s.io.wakeCount + 1 ∧
      t.tide.alarm = s.tide.alarm ∧ t.sec = s.sec ∧ t.mem = s.mem ∧ t.ctxs = s.ctxs ∧ t.faults = s.faults := by
  have hw := wakeModule_asleep h code returns
  generalize wakeModule s code [] returns = t at hw
  refine ⟨t, rfl, ?_⟩
  rw [hw]
  exact ⟨rfl, Nat.min_self code, rfl, rfl, rfl, rfl, rfl, rfl, rfl, rfl⟩

theorem wakeModule_sec (s : State) (code : Nat) (returns : List Nat) : (wakeModule s code [] returns).sec = s.sec := by
  cases hw : s.io.asleep with
  | false => rw [wakeModule_awake hw]
  | true =>
    obtain ⟨t, ht, -, -, -, -, -, -, hs, -⟩ := wakeModule_row hw code returns
    rw [← ht, hs]

/-- The presence button is pressed now. -/
def pressed (s : State) : State := { s with sec := { s.sec with buttonSince := some (now s) } }

/-- An always active source wakes. -/
theorem wakeBy_always {code q : Nat} (hc : code = 1 ∨ code = 6 ∨ code = 7) :
    ∃ l, wakeBy s code [] q = wakeModule s code [] l := by
  obtain rfl | rfl | rfl := hc <;> exact ⟨_, rfl⟩

/-- The alarm is disarmed. -/
def alarmOff (s : State) : State := { s with tide := { s.tide with alarm := none } }

theorem wakeBy_alarm_due {v q : Nat} (ha : s.tide.alarm = some v) (hv : v ≤ now s) :
    ∃ l, wakeBy s 5 [] q = wakeModule (alarmOff s) 5 [] l := by
  refine ⟨[], ?_⟩
  unfold wakeBy
  dsimp only
  rw [if_pos (by simp [ha, hv])]
  rfl

theorem wakeBy_alarm_early {v q : Nat} (ha : s.tide.alarm = some v) (hv : now s < v) : wakeBy s 5 [] q = s := by
  unfold wakeBy
  dsimp only
  rw [if_neg (by simp [ha]; omega)]

/-! ## The alarm (R385) -/

/-- The alarm is armed at a value; 0, or a value already reached, disarms it. -/
def alarmSet (s : State) (v : Nat) : State :=
  { s with tide := { s.tide with alarm := if v = 0 ∨ v ≤ now s then none else some v } }

theorem alarmSet_mbx (s : State) (v : Nat) : (alarmSet s v).mbx = s.mbx := rfl
theorem alarmSet_ctxs (s : State) (v : Nat) : (alarmSet s v).ctxs = s.ctxs := rfl

theorem tideAlarm_arms {r : Route} {a : Asked} (h : Asks s r 0x0031 a) : ∃ t, exec (.tideAlarm r) s = .next t ∧
    Replied (alarmSet s (fld a.params 0 64)) t r S_OK 0 [] := by
  show ∃ t, execTideAlarm r s = .next t ∧ _
  unfold execTideAlarm
  exact blunen_replied (m := alarmSet s (fld a.params 0 64)) (res := ⟨S_OK, 0, []⟩) h rfl (alarmSet_mbx s _)
    (fun _ _ => alarmSet_ctxs s _)

theorem exec_tideAlarmFire_due {v : Nat} (ha : s.tide.alarm = some v) (hv : v ≤ now s) :
    exec .tideAlarmFire s = .next (wakeModule (alarmOff s) 5 [] []) := by
  show execTideAlarmFire s = _
  unfold execTideAlarmFire
  rw [ha]
  exact congrArg _ (if_pos hv)

theorem exec_tideAlarmFire_early {v : Nat} (ha : s.tide.alarm = some v) (hv : now s < v) : exec .tideAlarmFire s = .next s := by
  show execTideAlarmFire s = _
  unfold execTideAlarmFire
  rw [ha]
  exact congrArg _ (if_neg (by omega))

/-! ## A module that sleeps (R378, R384) -/

/-- Only crossings change. -/
def CrossingsOnly (s t : State) : Prop := t = { s with crossings := t.crossings }

theorem CrossingsOnly.refl (s : State) : CrossingsOnly s s := rfl
theorem CrossingsOnly.trans {s t u : State} (h : CrossingsOnly s t) (g : CrossingsOnly t u) : CrossingsOnly s u := by
  unfold CrossingsOnly at *
  rw [g, h]

theorem crossingsOnly_parkDomain (s : State) (d : Nat) : CrossingsOnly s (parkDomain s d) := by
  unfold parkDomain
  refine foldl_rel CrossingsOnly.refl CrossingsOnly.trans (fun t n => ?_) _ s
  split <;> rfl

theorem crossingsOnly_finishPark (s : State) (d : Nat) : CrossingsOnly s (finishPark s d) := by
  unfold finishPark
  refine foldl_rel CrossingsOnly.refl CrossingsOnly.trans (fun t n => ?_) _ s
  split <;> rfl

theorem getDomain_congr {t : State} (h : t.domains = s.domains) (d : Nat) : getDomain t d = getDomain s d := by
  unfold getDomain
  rw [h]

/-- A domain that goes into retention with the module. -/
def domainSleeps (t : State) (d : Nat) : State :=
  loadReplicas (updDomain (finishPark t d) d (fun x => { x with state := .retention })) d .retention

theorem getDomain_domainSleeps_self (t : State) (d : Nat) : (getDomain (domainSleeps t d) d).state = .retention := by
  have h : getDomain (domainSleeps t d) d = { getDomain (finishPark t d) d with state := .retention } :=
    getDomain_upd_self (finishPark t d) d (fun x => { x with state := .retention })
  rw [h]

theorem getDomain_domainSleeps_other {t : State} {d k : Nat} (h : k ≠ d) : getDomain (domainSleeps t d) k = getDomain t k := by
  have h1 : getDomain (domainSleeps t d) k = getDomain (finishPark t d) k :=
    getDomain_upd_other (finishPark t d) (fun x => { x with state := .retention }) h
  rw [h1, show finishPark t d = _ from crossingsOnly_finishPark t d]
  rfl

theorem domainSleeps_mem (t : State) (d : Nat) : (domainSleeps t d).mem = t.mem := by
  show (finishPark t d).mem = t.mem
  rw [show finishPark t d = _ from crossingsOnly_finishPark t d]

theorem maySleep_of (hp : (getDomain s 4).state = .retention) (hb : (getDomain s 4).busy = none)
    (hc : ∀ d ∈ controlled s, (getDomain s d).state ≠ .on ∧ (getDomain s d).busy = none) : maySleep s = true := by
  simp only [maySleep, Bool.and_eq_true, List.all_eq_true, decide_eq_true_eq]
  exact ⟨⟨hc, hp⟩, hb⟩

/-- The base fabric and both Harbourmasters in retention. -/
def baseSleeps (u : State) : State := [1, 2, 3].foldl domainSleeps u

theorem getDomain_baseSleeps (u : State) : (getDomain (baseSleeps u) 1).state = .retention := by
  simp only [baseSleeps, List.foldl_cons, List.foldl_nil]
  rw [getDomain_domainSleeps_other (by decide), getDomain_domainSleeps_other (by decide), getDomain_domainSleeps_self]

theorem baseSleeps_mem (u : State) : (baseSleeps u).mem = u.mem := by
  simp only [baseSleeps, List.foldl_cons, List.foldl_nil]
  rw [domainSleeps_mem, domainSleeps_mem, domainSleeps_mem]

theorem moduleSleep_row (hr : s.rst.ready = true) (ha : s.io.asleep = false) (hm : maySleep s = true)
    (hp : ∀ d ∈ [1, 2, 3], parkable ([1, 2, 3].foldl parkDomain s) d = true) :
    ∃ t, t = moduleSleep s ∧ t.io.asleep = true ∧ (getDomain t 1).state = .retention ∧ t.mem = s.mem := by
  have hk : ([1, 2, 3].foldl parkDomain s).mem = s.mem := by
    rw [show [1, 2, 3].foldl parkDomain s = _ from
      foldl_rel CrossingsOnly.refl CrossingsOnly.trans crossingsOnly_parkDomain [1, 2, 3] s]
  unfold moduleSleep
  dsimp only
  rw [if_pos (by simp only [hr, ha, hm, Bool.and_eq_true, List.all_eq_true]; exact ⟨by decide, hp⟩)]
  generalize [1, 2, 3].foldl parkDomain s = u at hk
  generalize hv : List.foldl _ u [1, 2, 3] = v
  have hb : v = baseSleeps u := hv.symm
  have h1 : (getDomain v 1).state = .retention := by rw [hb, getDomain_baseSleeps]
  have h2 : v.mem = s.mem := by rw [hb, baseSleeps_mem, hk]
  exact ⟨_, rfl, rfl, (congrArg Domain.state (getDomain_congr rfl 1)).trans h1, h2⟩

/-! ## Started Tide commands -/

theorem findCmd_of_started {id : CmdId} {op : Nat} {c : Cmd} (h : Started s id op c) : findCmd s id = some c := by
  obtain ⟨-, hf, -, -⟩ := h
  exact hf

theorem earlierDone_iff (x : Context) (id : CmdId) : earlierDone x id = true ↔
    ∀ m ∈ x.flight.takeWhile (fun m => decide (m.id ≠ id)), m.id.node ≠ none := by
  simp only [earlierDone, List.all_eq_true, decide_eq_true_eq]

/-- Settles O18: the alarm and the requests and commands of Tide, then sleep, wake and the presence button. -/
theorem tideCommandsAndAlarm : Obligations.TideCommandsAndAlarm := by
  unfold Obligations.TideCommandsAndAlarm
  refine ⟨fun s r a h => ?_, fun s v ha hv hw => ?_, fun s v ha hv hw => ?_, fun s v ha hv => exec_tideAlarmFire_early ha hv,
    fun s id c h => ⟨fun hv => ?_, fun hv => ?_⟩, fun s id c h hR => ?_, fun s id c h => ⟨fun hm => ?_, fun hm => ?_⟩,
    fun s hr ha hp hb hc hk => ?_, fun s code q hq hw hc => ?_, fun s v q hq hw ha => ⟨fun hv => ?_, fun hv => ?_⟩,
    fun s off ho hw => ?_, fun s => ?_, fun s b hb hr h1 h2 => ?_, fun s w hw hn => ?_⟩
  · obtain ⟨t, ht, hp⟩ := tideAlarm_arms h
    exact ⟨alarmSet s (fld a.params 0 64), t, ht, hp, rfl⟩
  · rw [exec_tideAlarmFire_due ha hv, wakeModule_awake (s := alarmOff s) hw]
    rfl
  · obtain ⟨t, ht, w1, w2, w3, w4, w5, w6, -, w7, w8, w9⟩ :=
      wakeModule_row (s := alarmOff s) hw 5 []
    exact ⟨t, by rw [exec_tideAlarmFire_due ha hv, ht], w6, w1, w2, w4, w3, w5, w7, w8, w9⟩
  · refine ⟨_, onStarted_next h, ?_⟩
    rw [if_pos hv]
    exact cmdBecomes_finishCmd (findCmd_of_started h)
  · show onStarted _ _ _ _ = _
    rw [onStarted_next h, if_neg (by omega)]
  · refine ⟨_, onStarted_next h, ?_⟩
    rw [awake_of_reachable hR]
    exact workEnds_finishWork (findCmd_id (findCmd_of_started h) ▸ findCmd_of_started h) rfl
  · refine ⟨_, onStarted_next h, ?_⟩
    rw [if_pos ((earlierDone_iff _ _).mpr hm)]
    exact cmdBecomes_finishCmd (findCmd_of_started h)
  · obtain ⟨m, hm, hn⟩ := hm
    show onStarted _ _ _ _ = _
    rw [onStarted_next h, if_neg fun he => (earlierDone_iff _ _).mp he m hm hn]
  · obtain ⟨t, ht, h1, h2, h3⟩ := moduleSleep_row hr ha (maySleep_of hp hb hc) hk
    exact ⟨t, congrArg Host.Outcome.next ht.symm, h1, h2, h3⟩
  · obtain ⟨l, hl⟩ := wakeBy_always (s := s) (q := q) hc
    obtain ⟨t, ht, w1, w2, w3, -⟩ := wakeModule_row hw code l
    exact ⟨t, guarded_next.mpr ⟨by simpa using hq, hl.trans ht.symm⟩, w1, w2, w3⟩
  · obtain ⟨l, hl⟩ := wakeBy_alarm_due (q := q) ha hv
    obtain ⟨t, ht, w1, w2, -, -, -, w6, -⟩ := wakeModule_row (s := alarmOff s) hw 5 l
    exact ⟨t, guarded_next.mpr ⟨by simpa using hq, hl.trans ht.symm⟩, w6, w1, w2⟩
  · exact guarded_next.mpr ⟨by simpa using hq, wakeBy_alarm_early ha hv⟩
  · obtain ⟨t, ht, w1, w2, -⟩ := wakeModule_row hw 1 []
    exact ⟨t, congrArg Host.Outcome.next ((if_pos ho).trans ht.symm), w1, w2⟩
  · exact ⟨_, rfl, wakeModule_sec (pressed s) 7 []⟩
  · have hl : heldLong s = true := by
      simp only [heldLong, hb, hr, Bool.true_and, decide_eq_true_eq]
      omega
    exact ⟨_, congrArg Host.Outcome.next (if_pos hl), rfl⟩
  · refine ⟨{ s with sec := { s.sec with window := none } }, ?_, rfl⟩
    show execPresenceWindowExpiry s = _
    unfold execPresenceWindowExpiry
    rw [hw]
    exact congrArg _ (if_pos hn)

end Sys2Proof.Machine
end

section
/-! SUPPORT. Reset sources: what a module reset leaves, a reset that is planned, a PCI Express reset, and the berths, the bytes and the
record of a partition reset and its end. -/

namespace Sys2Proof.Machine

variable {s : State}

/-! ## Module resets (Tables 14-1, 14-2) -/

theorem getCtx_moduleReset {code c : Nat} (hcode : code ≠ 1) (hc : c < 64) :
    getCtx (moduleReset s code) c = { gen := (getCtx s c).gen + 1 } := by
  have h : getCtx (moduleReset s code) c = _ :=
    tabGet_build (d := ({} : Context)) (fun _ => {})
      (fun c => { gen := if decide (code = 1) = true then 0 else (getCtx s c).gen + 1 }) 64 c rfl
  rw [h, if_pos hc, if_neg (by simp [hcode])]

theorem tideCount_keep {t : TideGroup} {code : Nat} (hcode : code ≠ 1) : (t.keep code).count = t.count := by
  unfold TideGroup.keep
  rw [if_neg hcode]
  dsimp only
  split <;> rfl

theorem tideCount_unsynced (t : TideGroup) (l : Option Nat) : (t.unsynced l).count = t.count := by
  unfold TideGroup.unsynced
  split <;> rfl

/-- A module reset that is no power-on reset leaves what Table 14-2 says. -/
theorem afterReset_moduleReset {code : Nat} (hcode : code ≠ 1) : AfterReset s (moduleReset s code) code := by
  have hd : decide (code = 1) = false := decide_eq_false hcode
  have hb : (code == 1) = false := by simpa using hcode
  refine ⟨rfl, rfl, rfl, rfl, ?_, ?_, ?_, fun c hc => ?_, fun _ => rfl, fun _ _ => rfl, rfl, rfl, rfl, rfl, rfl, rfl, ?_,
    (tideCount_unsynced _ _).trans (tideCount_keep hcode), rfl, rfl, rfl⟩
  · simp [moduleReset, ResetGroup.keep, hd]
  · simp [moduleReset, ResetGroup.keep, hb]
  · simp [moduleReset, ResetGroup.keep, hcode]
  · rw [getCtx_moduleReset hcode hc]
    exact ⟨rfl, rfl, rfl⟩
  · simp [moduleReset, SecGroup.keep, hd]

/-- A crash dump changes none of what a reset is judged by. -/
theorem afterReset_dumpReset {code : Nat} (hcode : code ≠ 1) : AfterReset s (dumpReset s code) code ∧
    (dumpReset s code).recovery.dumpCount = s.recovery.dumpCount + 1 := by
  have h := afterReset_moduleReset (s := writeDump s) hcode
  exact ⟨h, rfl⟩

/-- The module is reset and held by its pin. -/
def pinReset (s : State) : State :=
  { moduleReset s 3 with rst := { (moduleReset s 3).rst with heldByPin := true } }

theorem afterReset_pinReset (s : State) : AfterReset s (pinReset s) 3 := afterReset_moduleReset (s := s) (by decide : 3 ≠ 1)

theorem resetPin_low {n : Nat} (hn : 1000 ≤ n) (hp : s.rst.heldByPin = false) (ha : s.power.alwaysOn = true) :
    resetPin s false n = pinReset s := by
  unfold resetPin
  rw [if_neg (by decide), if_neg (by simp [hp, ha]; omega)]
  rfl

theorem resetPin_low_not {n : Nat} (h : n < 1000 ∨ s.rst.heldByPin = true ∨ s.power.alwaysOn = false) :
    resetPin s false n = s := by
  unfold resetPin
  rw [if_neg (by decide), if_pos h]

theorem resetPin_high (s : State) (n : Nat) : resetPin s true n =
    if s.rst.heldByPin then { s with rst := { s.rst with heldByPin := false, time0 := now s } } else s := by
  unfold resetPin
  exact if_pos rfl

/-! ## RESET_REQ (R368, R494) -/

/-- RESET_REQ is written by the physical function, with REQ and its key, while PCIe is up. -/
def resetAsked (s : State) (fn : Nat) (v : W64) : Bool :=
  powered s && s.rst.pcieUp && fn == 0 && v.getLsbD 63 && v.toNat % 0x10000 == 0x5253

theorem exec_resetReq (fn : Nat) (v : W64) : exec (.resetReq fn v) s = .next (if resetAsked s fn v then
      if harbourSize s ≤ 4 ∨ s.harbour.noMaster = true then moduleReset s 5
      else if s.harbour.resetAt.isSome then s
      else planReset s
    else s) := rfl

theorem resetAsked_not {fn : Nat} {v : W64}
    (h : fn ≠ 0 ∨ v.getLsbD 63 = false ∨ v.toNat % 0x10000 ≠ 0x5253 ∨ s.rst.pcieUp = false) : resetAsked s fn v = false := by
  refine Bool.eq_false_iff.mpr fun hr => ?_
  simp only [resetAsked, Bool.and_eq_true, beq_iff_eq] at hr
  obtain ⟨⟨⟨⟨-, hup⟩, hfn⟩, hreq⟩, hkey⟩ := hr
  obtain h | h | h | h := h
  · exact h hfn
  · exact Bool.false_ne_true (h.symm.trans hreq)
  · exact h hkey
  · exact Bool.false_ne_true (h.symm.trans hup)

/-- Only the drains of routes and the messages about them change. -/
def RoutesMove (s t : State) : Prop :=
  t = { s with harbour := { s.harbour with drains := t.harbour.drains }, sent := t.sent } ∧ s.sent <+: t.sent

theorem RoutesMove.refl (s : State) : RoutesMove s s := ⟨rfl, List.prefix_rfl⟩
theorem RoutesMove.trans {s t u : State} (h : RoutesMove s t) (g : RoutesMove t u) : RoutesMove s u := by
  obtain ⟨h1, h2⟩ := h
  obtain ⟨g1, g2⟩ := g
  exact ⟨by rw [g1, h1], h2.trans g2⟩

theorem routesMove_beginDrain (s : State) (p q : Nat) (r : Route2) : RoutesMove s (beginDrain s p q r) := by
  unfold beginDrain
  dsimp only
  split
  · exact ⟨rfl, List.prefix_append _ _⟩
  · exact ⟨rfl, List.prefix_rfl⟩

theorem routesMove_movePairs (s : State) (l : List (Nat × Nat)) : RoutesMove s (movePairs s l) := by
  unfold movePairs
  split
  · exact foldl_rel RoutesMove.refl RoutesMove.trans (fun t x => routesMove_beginDrain t _ _ _) l s
  · exact .refl s

/-- The instant of a planned reset, at least 1 ms ahead. -/
def resetInstant (s : State) : Nat := now s + 1000000 + (Config.releaseSlack s.fresh).toNat

/-- The own reset and the entries of the links stand at the instant, and nothing is announced yet. -/
def resetSet (s : State) : State :=
  nextFresh { s with harbour := { s.harbour with
    resetAt := some (resetInstant s)
    links := tabMap {} (fun _ l => if l.state = .disabled then l else { l with entryAt := some (resetInstant s) })
      s.harbour.links } }

/-- The entries that the master announces to the other members. -/
def resetEntries (s : State) : List OutMsg :=
  ((memberList s).filter (· != ownPos s)).map (fun m => .entry m (linkOf m (ownPos s)) (resetInstant s))

theorem planReset_eq (s : State) : planReset s =
    if isMaster s then movePairs (sendAll (resetSet s) (resetEntries s)) (relayedPairs s (ownPos s))
    else send (resetSet s) (.planned (ownPos s) (resetInstant s)) := rfl

theorem getLink_resetSet {k : Nat} (h : (getLink s k).state ≠ .disabled) :
    getLink (resetSet s) k = { getLink s k with entryAt := some (resetInstant s) } := by
  have hm : getLink (resetSet s) k = _ := tabGet_map (d := ({} : Link))
    (f := fun _ l => if l.state = .disabled then l else { l with entryAt := some (resetInstant s) }) (fun _ => rfl) s.harbour.links k
  rw [hm]
  exact if_neg h

/-- What a planned reset leaves: the routes move, and the messages tell the master or the members. -/
theorem planReset_row (s : State) : ∃ t, t = planReset s ∧
    t = { resetSet s with harbour := { (resetSet s).harbour with drains := t.harbour.drains }, sent := t.sent } ∧
    (isMaster s = true → (s.sent ++ resetEntries s) <+: t.sent) ∧
    (isMaster s = false → t.sent = s.sent ++ [.planned (ownPos s) (resetInstant s)]) := by
  refine ⟨_, rfl, ?_⟩
  rw [planReset_eq]
  cases hm : isMaster s with
  | true =>
    obtain ⟨h1, h2⟩ := routesMove_movePairs (sendAll (resetSet s) (resetEntries s)) (relayedPairs s (ownPos s))
    refine ⟨?_, fun _ => h2, fun h => nomatch h⟩
    rw [if_pos rfl]
    exact h1
  | false =>
    rw [if_neg (by decide)]
    exact ⟨rfl, fun h => (nomatch h), fun _ => rfl⟩

/-! ## PCIe resets (R424) -/

/-- What an end of contexts may change beside them. -/
def AbortFrame (s t : State) : Prop := t = { s with
  ctxs := t.ctxs, reqs := t.reqs, graphs := t.graphs, recovery := t.recovery, domains := t.domains, crossings := t.crossings }

theorem AbortFrame.refl (s : State) : AbortFrame s s := rfl
theorem AbortFrame.trans {s t u : State} (h : AbortFrame s t) (g : AbortFrame t u) : AbortFrame s u := by
  unfold AbortFrame at *
  rw [g, h]

theorem abortFrame_abortCtx (s : State) (c : Nat) : AbortFrame s (abortCtx s c) := by
  unfold AbortFrame
  rw [abortCtx_frame]
  rfl

theorem abortFrame_foldl (l : List Nat) (s : State) : AbortFrame s (l.foldl abortCtx s) :=
  foldl_rel AbortFrame.refl AbortFrame.trans abortFrame_abortCtx l s

/-- A fold that changes a reading at one number alone changes it once, if that number is met. -/
theorem foldl_once {β : Type} (p : State → β) {step : State → Nat → State} (f : β → β) (x : Nat)
    (h : ∀ t y, p (step t y) = if y = x then f (p t) else p t) {l : List Nat} (hl : l.Nodup) (s : State) :
    p (l.foldl step s) = if x ∈ l then f (p s) else p s := by
  induction l generalizing s with
  | nil => rfl
  | cons y l ih =>
    obtain ⟨hy, hl⟩ := List.nodup_cons.mp hl
    rw [List.foldl_cons, ih hl, h]
    by_cases hx : y = x
    · subst hx
      simp [hy]
    · have hx' : ¬ x = y := fun e => hx e.symm
      simp [hx, hx']

theorem getCtx_abortAll {l : List Nat} (hl : l.Nodup) (s : State) (c : Nat) :
    getCtx (l.foldl abortCtx s) c = if c ∈ l then (getCtx s c).aborted else getCtx s c := by
  refine foldl_once (fun t => getCtx t c) Context.aborted c (fun t y => ?_) hl s
  split
  · next h => rw [h, getCtx_abortCtx_self]
  · next h => rw [getCtx_abortCtx_other fun e => h e.symm]

/-- The contexts that a PCI Express reset ends: those with a ring in host memory. -/
def hostCtxs (s : State) : List Nat :=
  (List.range 64).filter (fun c => decide ((getCtx s c).state ≠ .closed) && decide ((getCtx s c).place ≠ 0))

theorem mem_hostCtxs {c : Nat} (hc : c < 64) : c ∈ hostCtxs s ↔ (getCtx s c).state ≠ .closed ∧ (getCtx s c).place ≠ 0 := by
  simp [hostCtxs, hc]

theorem pcieReset_eq (s : State) :
    pcieReset s = (hostCtxs s).foldl abortCtx { s with io := { s.io with msix := [], numVFs := 0 } } := rfl

theorem pcieReset_frame (s : State) : (pcieReset s).mem = s.mem ∧ (pcieReset s).rst = s.rst ∧ (pcieReset s).io.msix = [] ∧
    (pcieReset s).io.numVFs = 0 := by
  have h := abortFrame_foldl (hostCtxs s) { s with io := { s.io with msix := [], numVFs := 0 } }
  rw [← pcieReset_eq] at h
  rw [h]
  exact ⟨rfl, rfl, rfl, rfl⟩

theorem getCtx_pcieReset (s : State) (c : Nat) :
    getCtx (pcieReset s) c = if c ∈ hostCtxs s then (getCtx s c).aborted else getCtx s c := by
  rw [pcieReset_eq]
  exact getCtx_abortAll (List.nodup_range.filter _) _ c

end Sys2Proof.Machine
end

section
/-! SUPPORT. Partition resets: what the reset of a berth changes, once for each berth of the partition, and the end of the reset. -/

namespace Sys2Proof.Machine

variable {s : State}

/-! ## The reset of one berth -/

/-- A berth is reset with its memory, and its retired ranges close. -/
def berthReset (t : State) (b : Nat) : State := closeRanges (resetBerth t true b) b

/-- The contexts of a berth are ended. -/
def berthAborted (s : State) (b : Nat) : State := (List.range 8).foldl (fun t k => abortCtx t (8 * b + k)) s

/-- The engines of a berth are cleared. -/
def enginesCleared (s : State) (b : Nat) : State :=
  (List.range 16).foldl (fun t e => updEngine t b e (fun x => { x.clear (· + 1) with resetting := false })) s

/-- The memory of a berth is zero, its blocks serve again, and its epoch rises. -/
def berthCleaned (u : State) (b : Nat) : State :=
  let s3 := blockReset (zeroBerth u true b) (domOfBerth b)
  updSite { s3 with reqs := { s3.reqs with ingress := s3.reqs.ingress.filter (fun r => r.1 != b) } } b
    (fun k => { k with epoch := k.epoch + 1, drain := none })

theorem resetBerth_eq (s : State) (b : Nat) :
    resetBerth s true b = berthCleaned (enginesCleared (takeOver (berthAborted s b) b) b) b := by
  unfold resetBerth berthCleaned enginesCleared berthAborted
  rfl

theorem berthAborted_frame (s : State) (b : Nat) : AbortFrame s (berthAborted s b) :=
  foldl_rel AbortFrame.refl AbortFrame.trans (fun t _ => abortFrame_abortCtx t _) _ s

theorem enginesCleared_frame (s : State) (b : Nat) : enginesCleared s b = { s with engines := (enginesCleared s b).engines } :=
  foldl_rel (R := fun u t => t = { u with engines := t.engines }) (fun _ => rfl) (fun h g => by rw [g, h]) (fun _ _ => rfl) _ s

/-- What the reset of a berth may change. -/
def BerthFrame (s t : State) : Prop := t = { s with
  ctxs := t.ctxs, reqs := t.reqs, graphs := t.graphs, recovery := t.recovery, domains := t.domains, crossings := t.crossings,
  engines := t.engines, mem := t.mem, tide := t.tide, sites := t.sites, pool := t.pool, stackTab := t.stackTab }

theorem BerthFrame.refl (s : State) : BerthFrame s s := rfl
theorem BerthFrame.trans {s t u : State} (h : BerthFrame s t) (g : BerthFrame t u) : BerthFrame s u := by
  unfold BerthFrame at *
  rw [g, h]

theorem AbortFrame.berth {t : State} (h : AbortFrame s t) : BerthFrame s t := by
  unfold AbortFrame at h
  unfold BerthFrame
  rw [h]

theorem berthFrame_takeOver (s : State) (b : Nat) : BerthFrame s (takeOver s b) := rfl
theorem berthFrame_enginesCleared (s : State) (b : Nat) : BerthFrame s (enginesCleared s b) := by
  unfold BerthFrame
  rw [enginesCleared_frame]
theorem berthFrame_berthCleaned (u : State) (b : Nat) : BerthFrame u (berthCleaned u b) := rfl
theorem berthFrame_closeRanges (u : State) (b : Nat) : BerthFrame u (closeRanges u b) := rfl

theorem berthReset_eq (s : State) (b : Nat) :
    berthReset s b = closeRanges (berthCleaned (enginesCleared (takeOver (berthAborted s b) b) b) b) b := by
  unfold berthReset
  rw [resetBerth_eq]

theorem berthFrame_berthReset (s : State) (b : Nat) : BerthFrame s (berthReset s b) := by
  rw [berthReset_eq]
  exact (berthAborted_frame s b).berth.trans <| (berthFrame_takeOver _ b).trans <| (berthFrame_enginesCleared _ b).trans <|
    (berthFrame_berthCleaned _ b).trans (berthFrame_closeRanges _ b)

theorem enginesCleared_ctxs (u : State) (b : Nat) : (enginesCleared u b).ctxs = u.ctxs := by rw [enginesCleared_frame]
theorem enginesCleared_mem (u : State) (b : Nat) : (enginesCleared u b).mem = u.mem := by rw [enginesCleared_frame]
theorem enginesCleared_sites (u : State) (b : Nat) : (enginesCleared u b).sites = u.sites := by rw [enginesCleared_frame]
theorem enginesCleared_ident (u : State) (b : Nat) : (enginesCleared u b).ident = u.ident := by rw [enginesCleared_frame]

theorem takeOver_mem (u : State) (b : Nat) : (takeOver u b).mem = u.mem := rfl
theorem takeOver_sites (u : State) (b : Nat) : (takeOver u b).sites = u.sites := rfl
theorem takeOver_ident (u : State) (b : Nat) : (takeOver u b).ident = u.ident := rfl
theorem takeOver_engines (u : State) (b : Nat) : (takeOver u b).engines = u.engines := rfl

theorem AbortFrame.keeps {t : State} (h : AbortFrame s t) :
    t.mem = s.mem ∧ t.sites = s.sites ∧ t.ident = s.ident ∧ t.engines = s.engines := by
  unfold AbortFrame at h
  rw [h]
  exact ⟨rfl, rfl, rfl, rfl⟩

/-- Until its memory is cleaned, the reset of a berth leaves memory, sites and PART alone. -/
theorem enginesCleared_keeps (s : State) (b : Nat) :
    (enginesCleared (takeOver (berthAborted s b) b) b).mem = s.mem ∧
      (enginesCleared (takeOver (berthAborted s b) b) b).sites = s.sites ∧
      (enginesCleared (takeOver (berthAborted s b) b) b).ident = s.ident := by
  obtain ⟨hm, hs, hi, -⟩ := (berthAborted_frame s b).keeps
  rw [enginesCleared_mem, enginesCleared_sites, enginesCleared_ident, takeOver_mem, takeOver_sites, takeOver_ident]
  exact ⟨hm, hs, hi⟩

theorem getCtx_closeRanges (u : State) (b c : Nat) : getCtx (closeRanges u b) c = getCtx u c := rfl
theorem getCtx_berthCleaned (u : State) (b c : Nat) : getCtx (berthCleaned u b) c = getCtx u c := rfl
theorem getCtx_enginesCleared (u : State) (b c : Nat) : getCtx (enginesCleared u b) c = getCtx u c := by
  unfold getCtx
  rw [enginesCleared_ctxs]
theorem getCtx_takeOver (u : State) (b c : Nat) : getCtx (takeOver u b) c = getCtx u c := rfl

theorem getCtx_berthReset (s : State) (b c : Nat) :
    getCtx (berthReset s b) c = if b = c / 8 then (getCtx s c).aborted else getCtx s c := by
  have hf : berthAborted s b = ((List.range 8).map (8 * b + ·)).foldl abortCtx s := by
    rw [List.foldl_map]
    rfl
  have hn : ((List.range 8).map (8 * b + ·)).Nodup := List.nodup_range.map fun _ _ h => by simpa using h
  have hm : c ∈ (List.range 8).map (8 * b + ·) ↔ b = c / 8 := by
    simp only [List.mem_map, List.mem_range]
    exact ⟨fun ⟨k, _, _⟩ => by omega, fun h => ⟨c - 8 * b, by omega, by omega⟩⟩
  rw [berthReset_eq, getCtx_closeRanges, getCtx_berthCleaned, getCtx_enginesCleared, getCtx_takeOver, hf, getCtx_abortAll hn]
  simp only [hm]

theorem getSite_berthCleaned (u : State) (b k : Nat) : (getSite (berthCleaned u b) k).epoch =
    if b = k then (getSite u k).epoch + 1 else (getSite u k).epoch := by
  unfold berthCleaned
  dsimp only
  split
  · next h =>
    subst h
    rw [getSite_upd_self]
    rfl
  · next h =>
    rw [getSite_upd_other _ _ fun e => h e.symm]
    rfl

theorem epoch_berthReset (s : State) (b k : Nat) :
    (getSite (berthReset s b) k).epoch = if b = k then (getSite s k).epoch + 1 else (getSite s k).epoch := by
  obtain ⟨-, hs, -⟩ := enginesCleared_keeps s b
  have hk : getSite (enginesCleared (takeOver (berthAborted s b) b) b) k = getSite s k := by
    unfold getSite
    rw [hs]
  rw [berthReset_eq, getSite_closeRanges, getSite_berthCleaned, hk]

theorem getEngine_berthCleaned (u : State) (b c e : Nat) : getEngine (closeRanges (berthCleaned u b) b) c e = getEngine u c e := rfl

theorem gen_enginesCleared {e : Nat} (he : e < 16) (u : State) (b c : Nat) : (getEngine (enginesCleared u b) c e).gen =
    if b = c then (getEngine u c e).gen + 1 else (getEngine u c e).gen := by
  unfold enginesCleared
  by_cases hb : b = c
  · subst hb
    have hstep : ∀ (t : State) (k : Nat),
        (getEngine (updEngine t b k (fun x => { x.clear (· + 1) with resetting := false })) b e).gen =
          if k = e then (getEngine t b e).gen + 1 else (getEngine t b e).gen := fun t k => by
      by_cases hk : k = e
      · subst hk
        rw [if_pos rfl, getEngine_upd_self]
        rfl
      · rw [if_neg hk, getEngine_upd_other t _ (by unfold engKey; omega)]
    rw [if_pos rfl, foldl_once (fun t => (getEngine t b e).gen) (· + 1) e hstep List.nodup_range,
      if_pos (List.mem_range.mpr he)]
  · rw [if_neg hb]
    have hk : ∀ k ∈ List.range 16, engKey c e ≠ engKey b k := fun k hk => by
      have := List.mem_range.mp hk
      unfold engKey
      omega
    generalize List.range 16 = l at hk
    induction l generalizing u with
    | nil => rfl
    | cons k l ih =>
      rw [List.foldl_cons, ih _ (fun j hj => hk j (List.mem_cons_of_mem _ hj)), getEngine_upd_other u _ (hk k List.mem_cons_self)]

theorem gen_berthReset {e : Nat} (he : e < 16) (s : State) (b c : Nat) : (getEngine (berthReset s b) c e).gen =
    if b = c then (getEngine s c e).gen + 1 else (getEngine s c e).gen := by
  have hg : getEngine (takeOver (berthAborted s b) b) c e = getEngine s c e := by
    obtain ⟨-, -, -, he⟩ := (berthAborted_frame s b).keeps
    unfold getEngine
    rw [takeOver_engines, he]
  rw [berthReset_eq, getEngine_berthCleaned, gen_enginesCleared he, hg]

theorem berthCleaned_mem (u : State) (b : Nat) : (closeRanges (berthCleaned u b) b).mem = (zeroBerth u true b).mem := rfl

theorem zeroBerth_congr {u : State} (hm : u.mem = s.mem) (hi : u.ident = s.ident) (b : Nat) :
    (zeroBerth u true b).mem = (zeroBerth s true b).mem := by
  unfold zeroBerth
  dsimp only
  rw [hm, hi]

theorem berthReset_mem (s : State) (b : Nat) : (berthReset s b).mem = (zeroBerth s true b).mem := by
  obtain ⟨hm, -, hi⟩ := enginesCleared_keeps s b
  rw [berthReset_eq, berthCleaned_mem, zeroBerth_congr hm hi]

theorem readByte_berthReset (s : State) (b a : Nat) :
    readByte (berthReset s b) a = if inBerth s.ident.part b a = true then 0 else readByte s a := by
  unfold readByte
  rw [berthReset_mem]
  exact tabGet_clear (fun a => inBerth s.ident.part b a) s.mem.cells a

theorem getCounter_berthReset {i : Nat} (hi : i < 4096) (s : State) (b c : Nat) :
    getCounter (berthReset s b) c i = if b = c then 0 else getCounter s c i := by
  have h : getCounter (berthReset s b) c i = if (counterKey c i / 4096 == b) = true then 0 else getCounter s c i := by
    unfold getCounter
    rw [berthReset_mem]
    exact tabGet_clear (fun k => k / 4096 == b) s.mem.counters (counterKey c i)
  have hk : counterKey c i / 4096 = c := by unfold counterKey; omega
  rw [h, hk]
  simp only [beq_iff_eq, eq_comm (a := c)]

/-! ## The reset of a partition -/

theorem berthsReset_eq (s : State) (p : Nat) : berthsReset s p = (partBerths s p).foldl berthReset s := rfl

theorem nodup_partBerths (s : State) (p : Nat) : (partBerths s p).Nodup := List.nodup_range.filter _

theorem berthFrame_berthsReset (s : State) (p : Nat) : BerthFrame s (berthsReset s p) := by
  rw [berthsReset_eq]
  exact foldl_rel BerthFrame.refl BerthFrame.trans berthFrame_berthReset _ s

theorem getCtx_berthsReset (s : State) (p c : Nat) : getCtx (berthsReset s p) c =
    if c / 8 ∈ partBerths s p then (getCtx s c).aborted else getCtx s c := by
  rw [berthsReset_eq]
  exact foldl_once (fun t => getCtx t c) Context.aborted (c / 8) (fun t b => getCtx_berthReset t b c) (nodup_partBerths s p) s

theorem epoch_berthsReset (s : State) (p k : Nat) : (getSite (berthsReset s p) k).epoch =
    if k ∈ partBerths s p then (getSite s k).epoch + 1 else (getSite s k).epoch := by
  rw [berthsReset_eq]
  exact foldl_once (fun t => (getSite t k).epoch) (· + 1) k (fun t b => epoch_berthReset t b k) (nodup_partBerths s p) s

theorem gen_berthsReset {e : Nat} (he : e < 16) (s : State) (p b : Nat) : (getEngine (berthsReset s p) b e).gen =
    if b ∈ partBerths s p then (getEngine s b e).gen + 1 else (getEngine s b e).gen := by
  rw [berthsReset_eq]
  exact foldl_once (fun t => (getEngine t b e).gen) (· + 1) b (fun t c => gen_berthReset he t c b) (nodup_partBerths s p) s

theorem getCounter_berthsReset {i : Nat} (hi : i < 4096) (s : State) (p b : Nat) : getCounter (berthsReset s p) b i =
    if b ∈ partBerths s p then 0 else getCounter s b i := by
  rw [berthsReset_eq]
  exact foldl_once (fun t => getCounter t b i) (fun _ => 0) b (fun t c => getCounter_berthReset hi t c b) (nodup_partBerths s p) s

theorem readByte_berthsReset (s : State) (p a : Nat) : readByte (berthsReset s p) a =
    if (partBerths s p).any (fun b => inBerth s.ident.part b a) = true then 0 else readByte s a := by
  rw [berthsReset_eq]
  generalize partBerths s p = l
  induction l generalizing s with
  | nil => rfl
  | cons b l ih =>
    have hi : (berthReset s b).ident = s.ident := by
      have h := berthFrame_berthReset s b
      unfold BerthFrame at h
      rw [h]
    rw [List.foldl_cons, ih, hi, readByte_berthReset, List.any_cons]
    by_cases hb : inBerth s.ident.part b a = true <;> simp [hb]

/-- What the beginning of a partition reset changes beside its berths: the graphs and the rungs. -/
theorem partReset_begin {p : Nat} (cause : Nat) (hr : s.rst.ready = true) (hp : (getPart s p).resetting = false) :
    ∃ t, t = beginPartitionReset s p cause ∧ t = { berthsReset s p with graphs := t.graphs, recovery := t.recovery, sec := t.sec } ∧
      getPart t p = { gen := (getPart s p).gen + 1, key := (getPart s p).key + 1, resetting := true, cause := cause } ∧
      ∀ q, q ≠ p → getPart t q = getPart s q := by
  obtain ⟨g, hg⟩ := beginPartitionReset_begins (s := s) (p := p) cause hr hp
  have hf := berthFrame_berthsReset s p
  unfold BerthFrame at hf
  generalize berthsReset s p = u at hf hg
  have hn := noteRung_frame { u with graphs := g } 3 p p
  generalize noteRung { u with graphs := g } 3 p p = v at hn hg
  have hparts : ∀ q, getPart v q = getPart s q := fun q => by
    rw [hn, hf]
    rfl
  refine ⟨_, rfl, ?_, ?_, fun q hq => ?_⟩
  · rw [hg, hn]
    rfl
  · rw [hg, getPart_upd_self, hparts]
  · rw [hg, getPart_upd_other _ _ hq, hparts]

/-- A partition reset that begins leaves what Table 14-2 says. -/
theorem partReset_row {p : Nat} (cause : Nat) (hr : s.rst.ready = true) (hp : (getPart s p).resetting = false) :
    ∃ t, t = beginPartitionReset s p cause ∧ PartReset s t p cause ∧ t.io = s.io := by
  obtain ⟨t, ht, hframe, hself, hother⟩ := partReset_begin cause hr hp
  have hf := berthFrame_berthsReset s p
  unfold BerthFrame at hf
  have hctx : ∀ c, getCtx t c = getCtx (berthsReset s p) c := fun c => by rw [hframe]; rfl
  have hsite : ∀ k, getSite t k = getSite (berthsReset s p) k := fun k => by rw [hframe]; rfl
  have heng : ∀ b e, getEngine t b e = getEngine (berthsReset s p) b e := fun b e => by rw [hframe]; rfl
  have hbyte : ∀ a, readByte t a = readByte (berthsReset s p) a := fun a => by rw [hframe]; rfl
  have hcnt : ∀ b i, getCounter t b i = getCounter (berthsReset s p) b i := fun b i => by rw [hframe]; rfl
  have hdiv : ∀ b k : Nat, k < 8 → (8 * b + k) / 8 = b := fun b k hk => by omega
  refine ⟨t, ht, ⟨hself, hother, fun b hb => ⟨?_, fun k hk => ?_, fun e he => ?_, fun a ha => ?_, fun i hi => ?_⟩,
    fun b hb => ⟨?_, fun k hk => ?_⟩, fun a ha => ?_, by rw [hframe, hf], by rw [hframe, hf]⟩, by rw [hframe, hf]⟩
  · rw [hsite, epoch_berthsReset, if_pos hb]
  · rw [hctx, getCtx_berthsReset, if_pos (by rw [hdiv b k hk]; exact hb)]
    exact ⟨rfl, rfl, rfl⟩
  · rw [heng, gen_berthsReset he, if_pos hb]
  · rw [hbyte, readByte_berthsReset, if_pos (List.any_eq_true.mpr ⟨b, hb, ha⟩)]
  · rw [hcnt, getCounter_berthsReset hi, if_pos hb]
  · rw [hsite, epoch_berthsReset, if_neg hb]
  · rw [hctx, getCtx_berthsReset, if_neg (by rw [hdiv b k hk]; exact hb)]
  · rw [hbyte, readByte_berthsReset, if_neg fun h => ?_]
    obtain ⟨b, hb, hin⟩ := List.any_eq_true.mp h
    exact Bool.false_ne_true ((ha b hb).symm.trans hin)

end Sys2Proof.Machine
end

section
/-! SUPPORT. The end of a partition reset, and the sources that begin one. -/

namespace Sys2Proof.Machine

variable {s : State}

/-! ## What is sent when results leave -/

/-- Messages are only added to those sent. -/
def SentGrows (s t : State) : Prop := s.sent <+: t.sent

theorem SentGrows.refl (s : State) : SentGrows s s := List.prefix_rfl
theorem SentGrows.trans {s t u : State} (h : SentGrows s t) (g : SentGrows t u) : SentGrows s u := List.IsPrefix.trans h g
theorem SentGrows.of_eq {t : State} (h : t.sent = s.sent) : SentGrows s t := by
  unfold SentGrows
  rw [h]

theorem sentGrows_sendReq (s : State) (o : OutReq) : SentGrows s (sendReq s o) := by
  unfold SentGrows
  rw [sendReq_sent]
  split
  · exact List.prefix_rfl
  · exact List.prefix_append _ _

theorem noteOut_sent {o : OutReq} (hs : o.slot = none) (hk : o.chunk = none) (st d : Nat) : (noteOut s o st d).sent = s.sent := by
  unfold noteOut
  rw [hs, hk]
  cases o.req.srcCtx <;> rfl

theorem sentGrows_issueTracked {p : Purpose} (s : State) (r : WireReq) (hs : p.slot = none) (hk : p.chunk = none) :
    SentGrows s (issueTracked s r p) := by
  unfold issueTracked
  dsimp only
  split
  · exact .of_eq (noteOut_sent hs hk _ _)
  · split
    · exact .of_eq rfl
    · refine .trans ?_ (sentGrows_sendReq _ _)
      exact .of_eq rfl

theorem sentGrows_issueWork {p : Purpose} (s : State) (r : WireReq) (hs : p.slot = none) (hk : p.chunk = none) :
    SentGrows s (issueWork s r p) :=
  .trans (t := useTag s r.tag) (.of_eq rfl) (sentGrows_issueTracked _ _ hs hk)

theorem sentGrows_issueStores (s : State) (c : Cmd) (a : Nat) (l : List Byte) : SentGrows s (issueStores s c {} a l) := by
  unfold issueStores
  refine foldl_rel SentGrows.refl SentGrows.trans (fun t x => ?_) _ _
  split
  · split
    · exact sentGrows_issueWork _ _ rfl rfl
    · exact foldl_rel SentGrows.refl SentGrows.trans (fun u q => sentGrows_issueWork _ _ rfl rfl) _ _
  · exact .refl t

theorem sentGrows_issueResults (s : State) (c : Cmd) (l : List (Nat × Byte)) : SentGrows s (issueResults s c l) := by
  unfold issueResults
  generalize gather l = g
  exact foldl_rel SentGrows.refl SentGrows.trans (fun t r => sentGrows_issueStores t c _ _) _ _

/-! ## A request that is answered, and debug that settles -/

/-- Partitions, berths and the messages already sent stay. -/
def Releases (s t : State) : Prop := t.sec.parts = s.sec.parts ∧ t.berths = s.berths ∧ SentGrows s t

theorem Releases.refl (s : State) : Releases s s := ⟨rfl, rfl, .refl s⟩
theorem Releases.trans {s t u : State} (h : Releases s t) (g : Releases t u) : Releases s u := by
  obtain ⟨h1, h2, h3⟩ := h
  obtain ⟨g1, g2, g3⟩ := g
  exact ⟨g1.trans h1, g2.trans h2, h3.trans g3⟩

theorem releases_issueResults (s : State) (c : Cmd) (l : List (Nat × Byte)) : Releases s (issueResults s c l) := by
  have h := issueFrame_issueResults s c l
  have hs := sentGrows_issueResults s c l
  generalize issueResults s c l = t at h hs
  unfold IssueFrame at h
  exact ⟨by rw [h], by rw [h], hs⟩

theorem releases_answer (s : State) (r : Route) (res : MbxResult) : Releases s (answer s r res) := by
  unfold answer
  split
  · split
    · exact ⟨rfl, rfl, .of_eq rfl⟩
    · exact .refl s
  · split
    · split
      · exact .trans ⟨rfl, rfl, .of_eq rfl⟩ (releases_issueResults _ _ _)
      · exact .refl s
    · exact .refl s

theorem releases_debugSettles (s : State) : Releases s (debugSettles s) := by
  unfold debugSettles
  split
  · exact .refl s
  · split
    · exact .refl s
    · exact .trans ⟨rfl, rfl, .of_eq rfl⟩ (releases_answer _ _ _)

/-! ## Berths that come back -/

/-- A berth comes back, and its engines look for their boundaries. -/
def berthReturns (s : State) (b : Nat) : State := berthBoundaries (berthBack s b) b

/-- Only tests, engines and the blocks of commands change. -/
def TestsBegin (s t : State) : Prop := t = { s with recovery := t.recovery, engines := t.engines, ctxs := t.ctxs }

theorem TestsBegin.refl (s : State) : TestsBegin s s := rfl
theorem TestsBegin.trans {s t u : State} (h : TestsBegin s t) (g : TestsBegin t u) : TestsBegin s u := by
  unfold TestsBegin at *
  rw [g, h]

theorem testsBegin_lendBlocks (s : State) (b e : Nat) : TestsBegin s (lendBlocks s b e) := by
  have h := lendBlocks_frame s b e
  generalize lendBlocks s b e = t at h
  unfold TestsBegin
  rw [h]

theorem testsBegin_engineBoundary (s : State) (b e : Nat) : TestsBegin s (engineBoundary s b e) := by
  unfold engineBoundary
  dsimp only
  split
  · exact .refl s
  · split
    · exact .refl s
    · refine .trans ?_ (testsBegin_lendBlocks _ b e)
      rfl

theorem testsBegin_berthBoundaries (s : State) (b : Nat) : TestsBegin s (berthBoundaries s b) :=
  foldl_rel TestsBegin.refl TestsBegin.trans (fun t e => testsBegin_engineBoundary t b e) _ s

theorem TestsBegin.keeps {t : State} (h : TestsBegin s t) :
    t.sec = s.sec ∧ t.sites = s.sites ∧ t.berths = s.berths ∧ t.sent = s.sent := by
  unfold TestsBegin at h
  rw [h]
  exact ⟨rfl, rfl, rfl, rfl⟩

/-- A berth that was shut down for heat enters its hold. -/
def Berth.back (x : Berth) : Berth := if x.stopped then { x with hold := true } else x

theorem berthBack_keeps (s : State) (b : Nat) : (berthBack s b).sec = s.sec ∧ (berthBack s b).sites = s.sites ∧
    (berthBack s b).sent = s.sent ++ [.epoch b (getSite s b).epoch] := by
  unfold berthBack
  dsimp only
  split <;> exact ⟨rfl, rfl, rfl⟩

theorem getBerth_berthBack (s : State) (b k : Nat) :
    getBerth (berthBack s b) k = if b = k then (getBerth s k).back else getBerth s k := by
  have hb : ∀ j, getBerth (send s (.epoch b (getSite s b).epoch)) j = getBerth s j := fun _ => rfl
  unfold berthBack Berth.back
  dsimp only
  rw [hb]
  by_cases hk : b = k
  · subst hk
    by_cases hs : (getBerth s b).stopped = true
    · rw [if_pos hs, if_pos rfl, if_pos hs, getBerth_upd_self, hb]
    · rw [if_neg hs, if_pos rfl, if_neg hs, hb]
  · rw [if_neg hk]
    split
    · rw [getBerth_upd_other _ _ fun e => hk e.symm, hb]
    · exact hb k

theorem berthReturns_keeps (s : State) (b : Nat) :
    (berthReturns s b).sec = s.sec ∧ (berthReturns s b).sites = s.sites ∧
      (berthReturns s b).sent = s.sent ++ [.epoch b (getSite s b).epoch] := by
  obtain ⟨hsec, hsites, -, hsent⟩ := (testsBegin_berthBoundaries (berthBack s b) b).keeps
  obtain ⟨bsec, bsites, bsent⟩ := berthBack_keeps s b
  exact ⟨hsec.trans bsec, hsites.trans bsites, hsent.trans bsent⟩

theorem getBerth_berthReturns (s : State) (b k : Nat) :
    getBerth (berthReturns s b) k = if b = k then (getBerth s k).back else getBerth s k := by
  rw [← getBerth_berthBack]
  obtain ⟨-, -, hberths, -⟩ := (testsBegin_berthBoundaries (berthBack s b) b).keeps
  unfold berthReturns getBerth
  rw [hberths]

/-- The berths come back one by one, and each sends its epoch. -/
theorem berthsReturn_keeps (l : List Nat) (s : State) :
    (l.foldl berthReturns s).sec = s.sec ∧
      (l.foldl berthReturns s).sent = s.sent ++ l.map (fun b => .epoch b (getSite s b).epoch) := by
  induction l generalizing s with
  | nil => exact ⟨rfl, (List.append_nil _).symm⟩
  | cons b l ih =>
    obtain ⟨hsec, hsites, hsent⟩ := berthReturns_keeps s b
    obtain ⟨isec, isent⟩ := ih (berthReturns s b)
    have hk : ∀ k, getSite (berthReturns s b) k = getSite s k := fun k => by
      unfold getSite
      rw [hsites]
    simp only [hk] at isent
    rw [List.foldl_cons, isec, isent, hsent, List.map_cons, List.append_assoc]
    exact ⟨hsec, rfl⟩

theorem getBerth_berthsReturn {l : List Nat} (hl : l.Nodup) (s : State) (k : Nat) :
    getBerth (l.foldl berthReturns s) k = if k ∈ l then (getBerth s k).back else getBerth s k :=
  foldl_once (fun t => getBerth t k) Berth.back k (fun t b => getBerth_berthReturns t b k) hl s

/-! ## PARTITION_RESET_DONE -/

/-- A partition leaves its reset, and the FAILED crossings of its blocks are served again. -/
def partitionFreed (s : State) (p : Nat) : State :=
  blockReset (updPart (endRung s 3 p) p (fun x => { x with resetting := false }))
    (fun d => (partBerths s p).any (fun b => domOfBerth b d))

theorem getPart_partitionFreed_self (s : State) (p : Nat) :
    getPart (partitionFreed s p) p = { getPart s p with resetting := false } :=
  getPart_upd_self (s := endRung s 3 p) p (fun x => { x with resetting := false })

theorem getPart_partitionFreed_other {p q : Nat} (h : q ≠ p) : getPart (partitionFreed s p) q = getPart s q :=
  getPart_upd_other (s := endRung s 3 p) (fun x => { x with resetting := false }) h

theorem partitionResetDone_eq {p : Nat} (h : (getPart s p).resetting = true) :
    partitionResetDone s p = debugSettles ((partBerths s p).foldl berthReturns (partitionFreed s p)) := by
  unfold partitionResetDone
  rw [if_pos h]
  rfl

theorem partitionResetDone_row {p : Nat} (h : (getPart s p).resetting = true) : ∃ t, t = partitionResetDone s p ∧
    getPart t p = { getPart s p with resetting := false } ∧ (∀ q, q ≠ p → getPart t q = getPart s q) ∧
    (∀ b ∈ partBerths s p, .epoch b (getSite s b).epoch ∈ t.sent ∧ getBerth t b = (getBerth s b).back) := by
  obtain ⟨hsec, hsent⟩ := berthsReturn_keeps (partBerths s p) (partitionFreed s p)
  have hb := getBerth_berthsReturn (nodup_partBerths s p) (partitionFreed s p)
  rw [partitionResetDone_eq h]
  generalize (partBerths s p).foldl berthReturns (partitionFreed s p) = u at hsec hsent hb
  obtain ⟨hparts, hberths, hgrow⟩ := releases_debugSettles u
  have hpart : ∀ q, getPart (debugSettles u) q = getPart (partitionFreed s p) q := fun q => by
    unfold getPart
    rw [hparts, hsec]
  have hberth : ∀ b, getBerth (debugSettles u) b = getBerth u b := fun b => by
    unfold getBerth
    rw [hberths]
  refine ⟨_, rfl, ?_, fun q hq => ?_, fun b hm => ⟨hgrow.subset ?_, ?_⟩⟩
  · rw [hpart, getPart_partitionFreed_self]
  · rw [hpart, getPart_partitionFreed_other hq]
  · rw [hsent]
    exact List.mem_append_right _ (List.mem_map.mpr ⟨b, hm, rfl⟩)
  · rw [hberth, hb, if_pos hm]
    rfl

/-! ## The sources of a partition reset (R425) -/

theorem tabGet_clearMsix {fn v : Nat} (hv : v < 128) : tabGet {} (clearMsix s fn).io.msix (fn * 128 + v) = {} := by
  refine (tabGet_clear (fun k => k / 128 == fn) s.io.msix _).trans (if_pos ?_)
  simp only [beq_iff_eq]
  omega

theorem vfFlr_row {vf p : Nat} (hv : vfPart s vf = some p) (hf : fnPresent s vf = true) (h1 : 1 ≤ vf) (h8 : vf ≤ 8)
    (hp : powered s = true) (hup : s.rst.pcieUp = true) (hr : s.rst.ready = true) (hn : (getPart s p).resetting = false) :
    ∃ t, exec (.vfFlr vf) s = .next t ∧ PartReset s t p 3 ∧ ∀ v, v < 128 → tabGet {} t.io.msix (vf * 128 + v) = {} := by
  obtain ⟨t, ht, hpart, hio⟩ := partReset_row (s := clearMsix s vf) 3 hr hn
  refine ⟨t, guarded_next.mpr ⟨by simp [h1, h8], ?_⟩, hpart, fun v hv => ?_⟩
  · rw [hv]
    dsimp only
    rw [hp, hup, hf]
    exact ht.symm
  · rw [hio]
    exact tabGet_clearMsix hv

theorem vfFlr_none {vf : Nat} (h : vfPart s vf = none ∨ fnPresent s vf = false) (h1 : 1 ≤ vf) (h8 : vf ≤ 8) :
    exec (.vfFlr vf) s = .next s := by
  refine guarded_next.mpr ⟨by simp [h1, h8], ?_⟩
  cases hv : vfPart s vf with
  | none => rfl
  | some p =>
    have hf : fnPresent s vf = false := h.resolve_left (by simp [hv])
    simp [hf]

/-- PARTITION_RESET, where its code is of Table 14-1 and the module has its supplies. -/
theorem exec_partitionReset {p cause : Nat} (hp : p < 8) (hs : powered s = true) (h0 : 0x10 ≤ cause) (h2 : cause ≤ 0x12)
    (h : (partRecord s p).valid = true ∨ s.rst.ready = false) :
    exec (.partitionReset p cause) s = .next (beginPartitionReset s p (cause - 0xF)) := by
  refine guarded_next.mpr ⟨by simp [hp], if_pos ?_⟩
  simpa [hs, h0, h2] using h

theorem exec_partitionReset_invalid {p : Nat} (hp : p < 8) (cause : Nat) (hv : (partRecord s p).valid = false)
    (hr : s.rst.ready = true) : exec (.partitionReset p cause) s = .next s :=
  guarded_next.mpr ⟨by simp [hp], if_neg (by simp [hv, hr])⟩

theorem beginPartitionReset_dropped (h : s.rst.ready = false) (p cause : Nat) : beginPartitionReset s p cause =
    { s with sec := { s.sec with droppedSources := s.sec.droppedSources + 1 } } := by
  unfold beginPartitionReset
  rw [h]
  exact if_pos rfl

theorem beginPartitionReset_joins {p : Nat} (hr : s.rst.ready = true) (h : (getPart s p).resetting = true) (cause : Nat) :
    beginPartitionReset s p cause = s := by
  unfold beginPartitionReset
  rw [hr, h]
  rfl

/-! ## The parts of the statement -/

theorem resetN_rows (s : State) (n : Nat) : (s.rst.heldByPin = true → exec (.resetN true n) s =
      .next { s with rst := { s.rst with heldByPin := false, time0 := now s } }) ∧
    (s.rst.heldByPin = false → exec (.resetN true n) s = .next s) ∧
    (1000 ≤ n → s.rst.heldByPin = false → s.power.alwaysOn = true → ∃ t, exec (.resetN false n) s = .next t ∧
      AfterReset s t 3 ∧ t.rst.heldByPin = true) ∧
    (n < 1000 ∨ s.rst.heldByPin = true ∨ s.power.alwaysOn = false → exec (.resetN false n) s = .next s) := by
  refine ⟨fun h => congrArg Host.Outcome.next ?_, fun h => congrArg Host.Outcome.next ?_, fun hn hp ha => ?_,
    fun h => congrArg Host.Outcome.next (resetPin_low_not h)⟩
  · rw [resetPin_high, if_pos h]
  · rw [resetPin_high, if_neg (by simp [h])]
  · exact ⟨pinReset s, congrArg Host.Outcome.next (resetPin_low hn hp ha), afterReset_pinReset s, rfl⟩

/-- RESET_REQ in a harbour of up to four, or without a master, resets the module at once. -/
theorem resetReq_atOnce {v : W64} (ha : resetAsked s 0 v = true) (h : harbourSize s ≤ 4 ∨ s.harbour.noMaster = true) :
    ∃ t, exec (.resetReq 0 v) s = .next t ∧ AfterReset s t 5 ∧ t.recovery.dumpCount = s.recovery.dumpCount := by
  refine ⟨moduleReset s 5, ?_, afterReset_moduleReset (by decide), rfl⟩
  rw [exec_resetReq, if_pos ha, if_pos h]

/-- RESET_REQ in a larger harbour with a master announces a reset. -/
theorem resetReq_planned {v : W64} (ha : resetAsked s 0 v = true) (h5 : 5 ≤ harbourSize s) (hm : s.harbour.noMaster = false)
    (hr : s.harbour.resetAt = none) : ∃ t a, exec (.resetReq 0 v) s = .next t ∧ t.harbour.resetAt = some a ∧
      now s + 1000000 ≤ a ∧ t.rst = s.rst ∧ t.mem = s.mem ∧ t.ctxs = s.ctxs ∧
      (∀ k, (getLink s k).state ≠ .disabled → getLink t k = { getLink s k with entryAt := some a }) ∧
      (isMaster s = true → ∀ m ∈ memberList s, m ≠ ownPos s → .entry m (linkOf m (ownPos s)) a ∈ t.sent) ∧
      (isMaster s = false → t.sent = s.sent ++ [.planned (ownPos s) a]) := by
  obtain ⟨t, ht, hframe, hmaster, hmember⟩ := planReset_row s
  have hl : ∀ k, getLink t k = getLink (resetSet s) k := fun k => by rw [hframe]; rfl
  refine ⟨t, resetInstant s, ?_, by rw [hframe]; rfl, Nat.le_add_right _ _, by rw [hframe]; rfl, by rw [hframe]; rfl,
    by rw [hframe]; rfl, fun k hk => (hl k).trans (getLink_resetSet hk), fun h m hmem hown => ?_, hmember⟩
  · rw [exec_resetReq, if_pos ha, if_neg (by simp [hm]; omega), if_neg (by simp [hr]), ht]
  · refine (hmaster h).subset (List.mem_append_right _ (List.mem_map.mpr ⟨m, List.mem_filter.mpr ⟨hmem, ?_⟩, rfl⟩))
    simpa using hown

theorem resetReq_waits {v : W64} (ha : resetAsked s 0 v = true) (h5 : 5 ≤ harbourSize s) (hm : s.harbour.noMaster = false)
    (hr : s.harbour.resetAt.isSome = true) : exec (.resetReq 0 v) s = .next s := by
  rw [exec_resetReq, if_pos ha, if_neg (by simp [hm]; omega), if_pos hr]

theorem resetAsked_of {v : W64} (hs : powered s = true) (hup : s.rst.pcieUp = true) (hreq : v.getLsbD 63 = true)
    (hkey : v.toNat % 0x10000 = 0x5253) : resetAsked s 0 v = true := by
  simp [resetAsked, hs, hup, hreq, hkey]

theorem dumpReset_row {code : Nat} (hcode : code ≠ 1) (hs : powered s = true) :
    ∃ t, (Host.Outcome.next (if powered s then dumpReset s code else s) : Out) = .next t ∧ AfterReset s t code ∧
      t.recovery.dumpCount = s.recovery.dumpCount + 1 :=
  ⟨dumpReset s code, by rw [if_pos hs], afterReset_dumpReset hcode⟩

theorem jtagReset_row (hs : powered s = true) :
    (s.sec.debug = true → ∃ t, exec .jtagResetInstruction s = .next t ∧ AfterReset s t 6) ∧
    (s.sec.debug = false → exec .jtagResetInstruction s = .next s) := by
  refine ⟨fun h => ⟨moduleReset s 6, congrArg Host.Outcome.next ?_, afterReset_moduleReset (by decide)⟩,
    fun h => congrArg Host.Outcome.next ?_⟩
  · rw [if_pos (by simp [hs, h])]
  · rw [if_neg (by simp [h])]

theorem pcieReset_row (k : PcieReset) (hs : powered s = true) (hup : s.rst.pcieUp = true) :
    ∃ t, exec (.pcieHotReset k) s = .next t ∧ t.mem = s.mem ∧
    t.rst = s.rst ∧ t.io.msix = [] ∧ t.io.numVFs = 0 ∧ (∀ c, c < 64 →
      ((getCtx s c).state ≠ .closed → (getCtx s c).place ≠ 0 → (getCtx t c).state = .closed ∧ (getCtx t c).flight = [] ∧
        (getCtx t c).gen = (getCtx s c).gen + 1) ∧
      ((getCtx s c).state = .closed ∨ (getCtx s c).place = 0 → getCtx t c = getCtx s c)) := by
  obtain ⟨hmem, hrst, hmsix, hvfs⟩ := pcieReset_frame s
  refine ⟨pcieReset s, congrArg Host.Outcome.next (if_pos (by simp [hs, hup])), hmem, hrst, hmsix, hvfs,
    fun c hc => ⟨fun hst hpl => ?_, fun h => ?_⟩⟩
  · rw [getCtx_pcieReset, if_pos ((mem_hostCtxs hc).mpr ⟨hst, hpl⟩)]
    exact ⟨rfl, rfl, rfl⟩
  · rw [getCtx_pcieReset, if_neg fun hm => ?_]
    obtain ⟨hst, hpl⟩ := (mem_hostCtxs hc).mp hm
    exact h.elim hst hpl

theorem partitionReset_row {p cause : Nat} (hp : p < 8) (hs : powered s = true) (h0 : 0x10 ≤ cause) (h2 : cause ≤ 0x12) :
    ((partRecord s p).valid = true → s.rst.ready = true → (getPart s p).resetting = false →
      ∃ t, exec (.partitionReset p cause) s = .next t ∧ PartReset s t p (cause - 0xF)) ∧
    ((partRecord s p).valid = true → s.rst.ready = true → (getPart s p).resetting = true →
      exec (.partitionReset p cause) s = .next s) ∧
    (s.rst.ready = false → exec (.partitionReset p cause) s = .next { s with sec :=
      { s.sec with droppedSources := s.sec.droppedSources + 1 } }) := by
  refine ⟨fun hv hr hn => ?_, fun hv hr hn => ?_, fun hr => ?_⟩
  · obtain ⟨t, ht, hpart, -⟩ := partReset_row (cause - 0xF) hr hn
    exact ⟨t, by rw [exec_partitionReset hp hs h0 h2 (.inl hv), ht], hpart⟩
  · rw [exec_partitionReset hp hs h0 h2 (.inl hv), beginPartitionReset_joins hr hn]
  · rw [exec_partitionReset hp hs h0 h2 (.inr hr), beginPartitionReset_dropped hr]

theorem partitionDone_row {p : Nat} (hp : p < 8) :
    ((getPart s p).resetting = true → ∃ t, exec (.partitionResetDone p) s = .next t ∧
      getPart t p = { getPart s p with resetting := false } ∧ (∀ q, q ≠ p → getPart t q = getPart s q) ∧
      (∀ b ∈ partBerths s p, .epoch b (getSite s b).epoch ∈ t.sent ∧
        ((getBerth s b).stopped = true → (getBerth t b).hold = true) ∧
        ((getBerth s b).stopped = false → (getBerth t b).hold = (getBerth s b).hold))) ∧
    ((getPart s p).resetting = false → exec (.partitionResetDone p) s = .next s) := by
  refine ⟨fun h => ?_, fun h => guarded_next.mpr ⟨by simp [hp], ?_⟩⟩
  · obtain ⟨t, ht, hself, hother, hberth⟩ := partitionResetDone_row h
    refine ⟨t, guarded_next.mpr ⟨by simp [hp], ht.symm⟩, hself, hother, fun b hb => ?_⟩
    obtain ⟨hsent, hback⟩ := hberth b hb
    refine ⟨hsent, fun hs => ?_, fun hs => ?_⟩
    · simp [hback, Berth.back, hs]
    · simp [hback, Berth.back, hs]
  · unfold partitionResetDone
    exact if_neg (by simp [h])

/-- Settles O53: every source's arm is a module reset, an abort of the contexts with rings in host memory, or a partition
reset, and what each leaves is read off once per berth of the partition. -/
theorem resetSourcesReset : Obligations.ResetSourcesReset := by
  refine ⟨resetN_rows, fun s hs => ⟨dumpReset_row (by decide) hs, dumpReset_row (by decide) hs, fun v hup hreq hkey => ?_,
    jtagReset_row hs⟩, fun s fn v h => ?_, fun s k hs hup => pcieReset_row k hs hup, fun s p vf hs hp =>
      ⟨fun hv hf h1 h8 hup hr hn => vfFlr_row hv hf h1 h8 hs hup hr hn, vfFlr_none,
        fun cause h0 h2 => partitionReset_row hp hs h0 h2, fun cause hv hr => exec_partitionReset_invalid hp cause hv hr⟩,
    fun s p hp => partitionDone_row hp⟩
  · have ha := resetAsked_of hs hup hreq hkey
    exact ⟨resetReq_atOnce ha, resetReq_planned ha, resetReq_waits ha⟩
  · rw [exec_resetReq, resetAsked_not h]
    rfl

end Sys2Proof.Machine
end

section
/-! SUPPORT. Copies and fills: how a Tug counts the chunks of a command, and a copy whose source gives no answer over a path
that is lost. -/

namespace Sys2Proof.Machine

variable {s : State}

/-! ## Counting the chunks (R217, R218) -/

theorem tugChunks_copy {c : Cmd} (h : c.opcode = 0x0100) : tugChunks c =
    ceilDiv (fld c.params 128 32 * (fld c.params 160 16 + 1) * (fld c.params 176 16 + 1)) (4096 * 2 ^ fld c.params 432 4) := by
  simp [tugChunks, tugTotal, tugChunk, chunkSize, h]

theorem tugChunks_fill {c : Cmd} (h : c.opcode = 0x0101) : tugChunks c =
    ceilDiv (fld c.params 64 32 + 1) (4096 * 2 ^ fld c.params 240 4) := by
  simp [tugChunks, tugTotal, tugChunk, chunkSize, h]

theorem tugBegin_counts {id : CmdId} {c : Cmd} (hf : findCmd s id = some c) (h : c.tug.chunks = 0) :
    CmdBecomes s (tugBegin s c) id { c with tug := { c.tug with chunks := tugChunks c } } := by
  obtain rfl := findCmd_id hf
  rw [tugBegin, if_pos h]
  exact cmdBecomes_updCmd (f := fun m => { m with tug := { m.tug with chunks := tugChunks m } }) (fun _ => rfl) hf

theorem tugBegin_of_counted {c : Cmd} (h : c.tug.chunks ≠ 0) : tugBegin s c = s := if_neg h

/-- Settles O19: a Tug that takes a command counts its chunks, once. -/
theorem tugCountsItsChunks : Obligations.TugCountsItsChunks := by
  unfold Obligations.TugCountsItsChunks
  refine ⟨fun s id c h h0 => ⟨_, onStarted_next h, ?_⟩, fun s id c h h0 => ⟨_, onStarted_next h, ?_⟩,
    fun s id c h h0 => (onStarted_next h).trans (by rw [tugBegin_of_counted h0]),
    fun s id c h h0 => (onStarted_next h).trans (by rw [tugBegin_of_counted h0])⟩
  all_goals obtain ⟨-, hf, -, ho⟩ := h
  · rw [← tugChunks_copy ho]
    exact tugBegin_counts hf h0
  · rw [← tugChunks_fill ho]
    exact tugBegin_counts hf h0

/-! ## A source that gives no answer, over a lost path -/

theorem exec_tugChunkDone {id : CmdId} {c : Cmd} (hc : hasCtx s id.ctx = true) (hf : findCmd s id = some c)
    (hp : c.phase = .started) (ht : isTug c.opcode = true) (k : Nat) :
    exec (.tugChunkDone id k) s = .next (tugChunkDone s c k) :=
  guarded_next.mpr ⟨hc, by simp [hf, hp, ht]⟩

/-- A TUG_COPY of 2 bytes from 0x1000 (stack 1) to 0x3000 (stack 3), in one chunk. -/
def unansweredCopy : Cmd :=
  { id := ⟨0, 0, none⟩
    opcode := 0x0100
    params := 0x1000 + 0x3000 * 2 ^ 64 + 2 * 2 ^ 128
    phase := .started
    began := true
    tug := { chunks := 1 } }

/-- The module in which stack 1 has stopped for heat (R258) and its near link is lost (R307): a read of it goes out as a
request, as one to another module does, and its source ends it with S_RESOURCE_RETIRED (R309), a status that does not stop a
Tug (R218). -/
def unansweredState : State :=
  { ctxs := [(0, { state := .opened, log2S := 4, flight := [unansweredCopy] })]
    stackTab := [(1, { stoppedHeat := true, nearLost := true })] }

theorem reachable_unanswered :
    Reachable unansweredState unansweredCopy ((tugPieces unansweredCopy 0).flatMap TugPiece.touches) := by
  unfold Reachable
  decide +kernel

/-- The chunk writes 0xFF to its destination, though its only read went out as a request. -/
theorem unanswered_writes :
    readByte unansweredState 0x3000 = 0 ∧ readByte (tugChunkDone unansweredState unansweredCopy 0) 0x3000 = 0xFF := by
  decide +kernel

/-- Refutes O20: a chunk whose read goes out to a stopped stack of its own module, over a path that is lost, has no request to
wait for once its source ends the read with S_RESOURCE_RETIRED, and writes. -/
theorem not_tugChunkMovesItsBytes : ¬ Obligations.TugChunkMovesItsBytes := by
  unfold Obligations.TugChunkMovesItsBytes
  intro h
  have hc : hasCtx unansweredState 0 = true := by decide +kernel
  have hf : findCmd unansweredState ⟨0, 0, none⟩ = some unansweredCopy := by decide +kernel
  obtain ⟨-, hout, -⟩ := h.1 unansweredState ⟨0, 0, none⟩ unansweredCopy 0 hc hf rfl (.inl rfl) (by decide) (by decide)
    (by decide) rfl (by decide +kernel) reachable_unanswered
  obtain ⟨t, ht, hmem⟩ := hout (by decide +kernel) (by decide +kernel)
  obtain rfl := Host.Outcome.next.inj ((exec_tugChunkDone hc hf rfl rfl 0).symm.trans ht)
  obtain ⟨hbefore, hafter⟩ := unanswered_writes
  rw [readByte, hmem] at hafter
  exact absurd (hbefore.symm.trans hafter) (by decide)

end Sys2Proof.Machine
end

section
/-! SUPPORT. Optical commands: what the plan of a product changes of its command, and the deal over engines that all stand in
rotation. -/

namespace Sys2Proof.Machine

variable {s : State}

/-- Two commands differ in their list of blocks to be run only. -/
def SameButTodo (c d : Cmd) : Prop := d = { c with opt := { c.opt with todo := d.opt.todo } }

theorem sameButTodo_lendOut (s : State) (c : Cmd) : SameButTodo c (lendOut s c) :=
  List.foldlRecOn (motive := SameButTodo c) _ (fun m e => lendOf s e m) rfl (fun m hm e _ => by
    unfold SameButTodo at hm ⊢
    rw [lendOf_frame s e m, hm])

/-- No engine out of rotation, no block lent. -/
theorem lendOut_inRotation {c : Cmd} (h : ∀ e ∈ c.opt.engines, (getEngine s c.berth e).rotation = .inRotation) :
    lendOut s c = c := by
  have hn : c.opt.engines.filter (fun e => decide ((getEngine s c.berth e).rotation = .outOfRotation)) = [] :=
    List.filter_eq_nil_iff.mpr (fun e he => by simp [h e he])
  rw [lendOut, hn, List.foldl_nil]

/-- A command with the blocks of a product dealt out, those of engines that have left service among the others (R225). -/
def dealtProduct (s : State) (c : Cmd) (product : Nat) : Cmd :=
  { c with opt := { c.opt with
    todo := (c.opt.engines.filter (fun e => !engInService s c.berth e)).foldl
      (fun t e => redeal e (c.opt.engines.filter (engInService s c.berth)) t)
      (planBlocks c.opt.engines product (optDims c product))
    stage := product + 1
    seedValue := seedValue c.id } }

theorem planProduct_eq (s : State) (c : Cmd) (product : Nat) : planProduct s c product = lendOut s (dealtProduct s c product) := rfl

/-- The plan of a product changes the list of blocks to be run, the stage and the seed. -/
theorem planProduct_frame (s : State) (c : Cmd) (product : Nat) : planProduct s c product =
    { c with opt := { c.opt with
      todo := (planProduct s c product).opt.todo, stage := product + 1, seedValue := seedValue c.id } } :=
  sameButTodo_lendOut s (dealtProduct s c product)

theorem planProduct_id (s : State) (c : Cmd) (product : Nat) : (planProduct s c product).id = c.id := by
  rw [planProduct_frame]

/-- Over engines that are all in service and in rotation, the blocks are those of the deal. -/
theorem planProduct_todo {c : Cmd} (hs : c.opt.engines.all (engInService s c.berth) = true)
    (hr : ∀ e ∈ c.opt.engines, (getEngine s c.berth e).rotation = .inRotation) (product : Nat) :
    (planProduct s c product).opt.todo = planBlocks c.opt.engines product (optDims c product) := by
  have hg : c.opt.engines.filter (fun e => !engInService s c.berth e) = [] :=
    List.filter_eq_nil_iff.mpr (fun e he => by simp [List.all_eq_true.mp hs e he])
  rw [planProduct_eq, lendOut_inRotation (c := dealtProduct s c product) hr]
  simp [dealtProduct, hg]

theorem beginOptical_noEngine {c : Cmd} (h0 : c.opt.stage = 0) (he : c.engines.any (engInService s c.berth) = false)
    (ts : List Touch) : beginOptical s c ts = finishCmd s c.id (some (S_RESOURCE_RETIRED, c.berth)) [] := by
  rw [beginOptical, if_neg (by simp [h0]), if_pos (by simp [he])]

/-- An optical command whose reads meet no error plans its first product, and its reads leave their marks. -/
theorem beginOptical_plans {c : Cmd} {ts : List Touch} (h0 : c.opt.stage = 0)
    (he : c.engines.any (engInService s c.berth) = true) (hr : Reachable s c ts)
    (hm : touchStatus s c.berth (readsOf ts) = none) : beginOptical s c ts =
      (readsOf ts).foldl (fun u x => readMarks u c {} x) (updCmd s c.id (fun m => planProduct s m 0)) := by
  rw [beginOptical, if_neg (by simp [h0]), if_neg (by simp [he]), awake_of_reachable hr, hm]

theorem execAttention_optical {id : CmdId} {c : Cmd} (h : Started s id 0x0510 c) (ho : isOptical c.opcode c.params = true) :
    exec (.attention id) s = .next (beginOptical s c (attentionTouches c)) := by
  refine (onStarted_next h).trans ?_
  rw [ho]
  rfl

/-- Settles O24: the command plans its first product, or finds no engine in service. -/
theorem opticalCommandsAreDealtOut : Obligations.OpticalCommandsAreDealtOut := by
  unfold Obligations.OpticalCommandsAreDealtOut
  intro s id c op i ts hrow h ho h0
  have hexec : exec i s = .next (beginOptical s c ts) := by
    simp only [List.mem_cons, Prod.mk.injEq, List.not_mem_nil, or_false] at hrow
    obtain ⟨rfl, rfl, rfl⟩ | ⟨rfl, rfl, rfl⟩ := hrow
    · exact onStarted_next h
    · exact execAttention_optical h ho
  obtain ⟨-, hf, -⟩ := h
  obtain rfl := findCmd_id hf
  rw [hexec]
  refine ⟨fun he hr hm => ⟨_, planProduct s c 0, rfl, ?_, planProduct_frame s c 0, fun hs hi => planProduct_todo hs hi 0⟩,
    fun he => ⟨_, rfl, ?_⟩⟩
  · rw [beginOptical_plans h0 he hr hm]
    exact workLeaves_of_cmdBecomes (cmdBecomes_updCmd (fun m => planProduct_id s m 0) hf) (List.filter_subset_self _) []
  · rw [beginOptical_noEngine h0 he]
    exact cmdBecomes_finishCmd hf

end Sys2Proof.Machine
end

section
/-! SUPPORT. Collectives: the results that requests leave alone, the share of a member, the shares of all, how a command joins, and
the rendezvous. -/

namespace Sys2Proof.Machine

variable {s t u : State}

/-! ## The results that a command has staged -/

/-- Whether a command in flight has done its share, and the results it has staged. -/
def resultsAt (s : State) (i : CmdId) : Option (Bool × List (Nat × Byte)) := (findCmd s i).map (fun c => (c.served, c.results))

/-- Every command keeps its share and its results. -/
def ResultsStay (s t : State) : Prop := ∀ i, resultsAt t i = resultsAt s i

theorem ResultsStay.refl (s : State) : ResultsStay s s := fun _ => rfl
theorem ResultsStay.trans (h : ResultsStay s t) (k : ResultsStay t u) : ResultsStay s u := fun i => (k i).trans (h i)
theorem ResultsStay.of_ctxs (h : t.ctxs = s.ctxs) : ResultsStay s t := fun i => by unfold resultsAt; rw [findCmd_congr h]

theorem resultsAt_updCmd_self {id : CmdId} {f : Cmd → Cmd} (hf : ∀ c, (f c).id = c.id) :
    resultsAt (updCmd s id f) id = (findCmd s id).map (fun c => ((f c).served, (f c).results)) := by
  rw [resultsAt, findCmd_updCmd_self hf, Option.map_map]
  rfl

theorem resultsAt_updCmd_other {id i : CmdId} {f : Cmd → Cmd} (hf : ∀ c, (f c).id = c.id) (h : i ≠ id) :
    resultsAt (updCmd s id f) i = resultsAt s i := by rw [resultsAt, findCmd_updCmd_other hf h, resultsAt]

theorem resultsStay_updCmd (s : State) (id : CmdId) {f : Cmd → Cmd} (hf : ∀ c, (f c).id = c.id)
    (hs : ∀ c, (f c).served = c.served) (hr : ∀ c, (f c).results = c.results) : ResultsStay s (updCmd s id f) := fun i => by
  by_cases h : i = id
  · rw [h, resultsAt_updCmd_self hf]
    simp only [hs, hr]
    rfl
  · exact resultsAt_updCmd_other hf h

@[simp] theorem Cmd.note_served (c : Cmd) (st d : Nat) : (c.note st d).served = c.served := by unfold Cmd.note; split <;> rfl
@[simp] theorem Cmd.noted_served (c : Cmd) (o : OutReq) (st d t : Nat) : (c.noted o st d t).served = c.served := by
  unfold Cmd.noted; split <;> [skip; split] <;> simp

theorem resultsStay_noteOut (s : State) {o : OutReq} {id : CmdId} (st d : Nat) (hs : o.slot = none) (hk : o.chunk = none)
    (hc : o.req.srcCtx = some id) : ResultsStay s (noteOut s o st d) := by
  rw [noteOut_eq_updCmd st d hs hk hc]
  exact resultsStay_updCmd s id (by simp) (by simp) (by simp)

theorem resultsStay_issueWork (s : State) {r : WireReq} {p : Purpose} {id : CmdId} (hs : p.slot = none) (hk : p.chunk = none)
    (hc : r.srcCtx = some id) : ResultsStay s (issueWork s r p) := by
  refine .trans (t := useTag s r.tag) (.of_ctxs rfl) ?_
  unfold issueWork issueTracked
  dsimp only
  split
  · exact resultsStay_noteOut (id := id) _ _ _ hs hk (by simpa [stamped] using hc)
  · split
    · exact .of_ctxs rfl
    · exact .of_ctxs (by rw [sendReq_frame])

theorem resultsStay_issueLoads (s : State) (c : Cmd) (a n : Nat) : ResultsStay s (issueLoads s c {} a n) := by
  unfold issueLoads
  refine foldl_rel .refl .trans (fun t x => ?_) _ _
  split
  · exact foldl_rel .refl .trans (fun u q => resultsStay_issueWork u (id := c.id) rfl rfl rfl) _ _
  · exact .refl t

theorem resultsStay_issueStores (s : State) (c : Cmd) (a : Nat) (l : List Byte) : ResultsStay s (issueStores s c {} a l) := by
  unfold issueStores
  refine foldl_rel .refl .trans (fun t x => ?_) _ _
  split
  · split
    · exact resultsStay_issueWork t (id := c.id) rfl rfl rfl
    · exact foldl_rel .refl .trans (fun u q => resultsStay_issueWork u (id := c.id) rfl rfl rfl) _ _
  · exact .refl t

theorem resultsStay_issueResults (s : State) (c : Cmd) (l : List (Nat × Byte)) : ResultsStay s (issueResults s c l) := by
  unfold issueResults
  generalize gather l = g
  exact foldl_rel .refl .trans (fun t r => resultsStay_issueStores t c _ _) _ _

theorem resultsStay_readMarks (s : State) (c : Cmd) (x : Touch) : ResultsStay s (readMarks s c {} x) := by
  unfold readMarks
  dsimp only
  have hc : ResultsStay s (countStale s c.berth x.addr x.len) := .of_ctxs (marksOnly_countStale s c.berth x.addr x.len).ctxs
  split
  · exact hc.trans ((resultsStay_issueLoads _ c _ _).trans (.of_ctxs (marksOnly_touchRange _ _ _ _).ctxs))
  · exact hc

/-! ## The share of one member -/

/-- A command that has done its share: the status of highest rank is kept, and its results are staged. -/
def Cmd.staged (c : Cmd) (st : Option (Nat × Nat)) (l : List (Nat × Byte)) : Cmd :=
  { (match st with
     | some e => c.note e.1 e.2
     | none => c) with
    served := true
    results := c.results ++ l }

@[simp] theorem Cmd.staged_id (c : Cmd) (st : Option (Nat × Nat)) (l : List (Nat × Byte)) : (c.staged st l).id = c.id := by
  cases st <;> simp [Cmd.staged]

/-- The bytes of a member's destination, and the worst status that its exchange meets. -/
def memberBytes (v : State) (cmds : List Cmd) (c : Cmd) : List (Nat × Byte) :=
  (memberProduct v c (contributions v c cmds)).outs.flatMap (placeBlock (memberProduct v c (contributions v c cmds)).dst)
def memberStatus (v : State) (cmds : List Cmd) (c : Cmd) : Option (Nat × Nat) :=
  let w := memberProduct v c (contributions v c cmds)
  worse (collStatus v cmds) (budgetStatus (budgetCount w.dst.format (hTreq c.packet) w.srcs w.outs))

theorem stageMember_eq (v : State) (cmds : List Cmd) (s : State) (c : Cmd) : stageMember v cmds s c =
    issueResults ((collLoads v c).foldl (fun t x => readMarks t c {} x)
      (updCmd s c.id (fun m => m.staged (memberStatus v cmds c) ((memberBytes v cmds c).filter (fun e => !goesOut v e.1)))))
      c ((memberBytes v cmds c).filter (fun e => goesOut v e.1)) := rfl

theorem workFrame_stageMember (v : State) (cmds : List Cmd) (s : State) (c : Cmd) : WorkFrame s (stageMember v cmds s c) := by
  rw [stageMember_eq]
  refine .trans ?_ (issueFrame_issueResults _ _ _).work
  exact .trans (issueFrame_updCmd s c.id _).work
    (foldl_rel WorkFrame.refl WorkFrame.trans (fun u x => workFrame_readMarks u c {} x) _ _)

theorem resultsAt_stageMember_self (v : State) (cmds : List Cmd) (s : State) (c : Cmd) : resultsAt (stageMember v cmds s c) c.id =
    (resultsAt s c.id).map (fun e => (true, e.2 ++ (memberBytes v cmds c).filter (fun e => !goesOut v e.1))) := by
  rw [stageMember_eq, resultsStay_issueResults, foldl_rel ResultsStay.refl ResultsStay.trans
    (fun u x => resultsStay_readMarks u c x), resultsAt_updCmd_self (by simp), resultsAt, Option.map_map]
  rfl

theorem resultsAt_stageMember_other (v : State) (cmds : List Cmd) (s : State) {c : Cmd} {i : CmdId} (h : i ≠ c.id) :
    resultsAt (stageMember v cmds s c) i = resultsAt s i := by
  rw [stageMember_eq, resultsStay_issueResults, foldl_rel ResultsStay.refl ResultsStay.trans
    (fun u x => resultsStay_readMarks u c x), resultsAt_updCmd_other (by simp) h]

/-! ## The shares of all members -/

theorem resultsAt_stageAll_other (v : State) (cmds l : List Cmd) (s : State) {i : CmdId} (h : ∀ x ∈ l, i ≠ x.id) :
    resultsAt (l.foldl (stageMember v cmds) s) i = resultsAt s i := by
  induction l generalizing s with
  | nil => rfl
  | cons y l ih =>
    rw [List.foldl_cons, ih _ (fun x hx => h x (List.mem_cons_of_mem y hx)),
      resultsAt_stageMember_other v cmds s (h y List.mem_cons_self)]

/-- Each member of a list without repetition stages its own share, whatever the others do. -/
theorem resultsAt_stageAll (v : State) (cmds l : List Cmd) (s : State) (hn : (l.map (·.id)).Nodup) {x : Cmd} (hx : x ∈ l) :
    resultsAt (l.foldl (stageMember v cmds) s) x.id =
      (resultsAt s x.id).map (fun e => (true, e.2 ++ (memberBytes v cmds x).filter (fun e => !goesOut v e.1))) := by
  induction l generalizing s with
  | nil => exact absurd hx List.not_mem_nil
  | cons y l ih =>
    rw [List.map_cons, List.nodup_cons] at hn
    obtain ⟨hy, hn⟩ := hn
    have hne : ∀ z ∈ l, y.id ≠ z.id := fun z hz he => hy (he ▸ List.mem_map_of_mem hz)
    rw [List.foldl_cons]
    obtain rfl | hl := List.mem_cons.mp hx
    · rw [resultsAt_stageAll_other v cmds l _ hne, resultsAt_stageMember_self]
    · rw [ih _ hn hl, resultsAt_stageMember_other v cmds s (hne x hl).symm]

theorem runMembers_frame (s : State) (cmds : List Cmd) : WorkFrame { s with fresh := s.fresh + 1 } (runMembers s cmds) := by
  have h : WorkFrame s ((cmds.filter (fun c => decide (c.phase = .started))).foldl (stageMember s cmds) s) :=
    foldl_rel WorkFrame.refl WorkFrame.trans (fun u c => workFrame_stageMember s cmds u c) _ s
  unfold WorkFrame runMembers nextFresh at *
  rw [h]

/-- Every started member has done its share, from the contributions of all. -/
theorem resultsAt_runMembers {cmds : List Cmd} (hn : (cmds.map (·.id)).Nodup) {x : Cmd} (hx : x ∈ cmds) (hp : x.phase = .started)
    (hf : findCmd s x.id = some x) : resultsAt (runMembers s cmds) x.id =
      some (true, x.results ++ (memberBytes s cmds x).filter (fun e => !goesOut s e.1)) := by
  have hsub : ((cmds.filter (fun c => decide (c.phase = .started))).map (·.id)).Nodup :=
    hn.sublist (List.filter_sublist.map _)
  have h := resultsAt_stageAll s cmds _ s hsub (List.mem_filter.mpr ⟨hx, decide_eq_true hp⟩)
  rw [show resultsAt s x.id = some (x.served, x.results) by rw [resultsAt, hf]; rfl] at h
  exact h

theorem finishCmd_quietly (s : State) (id : CmdId) : finishCmd s id none [] =
    updCmd s id (fun c => { c with phase := .finished, tideEnd := now s, results := c.results ++ [] }) := rfl

theorem resultsStay_finishCmd (s : State) (id : CmdId) : ResultsStay s (finishCmd s id none []) := by
  rw [finishCmd_quietly]
  exact resultsStay_updCmd s id (fun _ => rfl) (fun _ => rfl) (fun c => List.append_nil c.results)

/-! ## A command that works alone -/

/-- What the work of a command leaves, with the command finished and the next free value. -/
theorem workLeaves_finish {c d : Cmd} {ts : List Touch} {l : List (Nat × Byte)} (h : WorkLeaves s t c d ts l) :
    WorkLeaves { s with fresh := s.fresh + 1 } (finishCmd (nextFresh t) c.id none []) c (d.done (now s) none []) ts l := by
  obtain ⟨hframe, hctx, hother, x, hx, hp, hr, ho, hhome⟩ := h
  have htide : now (nextFresh t) = now s := by unfold Sys2Proof.WorkFrame at hframe; rw [hframe]; rfl
  obtain ⟨-, k2, -, k4, k5⟩ := cmdBecomes_finishCmd (s := nextFresh t) (st := none) (l := []) hx
  rw [htide] at k5
  refine ⟨?_, fun k hk => (k2 k hk).trans (hctx k hk), fun i hi => (k4 i hi).trans (hother i hi), _, k5, rfl, ?_, ho,
    fun ha hl => ?_⟩
  · unfold Sys2Proof.WorkFrame at hframe ⊢
    rw [hframe]
    rfl
  · show x.results ++ [] = d.results ++ []
    rw [hr]
  · obtain ⟨h1, h2, h3, h4⟩ := hhome ha hl
    exact ⟨by rw [h1], h2, h3, h4⟩

theorem staged_done (c : Cmd) (t : Nat) (st : Option (Nat × Nat)) (l : List (Nat × Byte)) :
    (c.staged st l).done t none [] = { c.done t st l with served := true } := by
  cases st <;> simp [Cmd.staged, Cmd.done]

/-- The share of a command that works alone, from start to end. -/
theorem workLeaves_alone {c : Cmd} (hf : findCmd s c.id = some c) (hp : c.phase = .started) :
    WorkLeaves { s with fresh := s.fresh + 1 } (finishCmd (runMembers s [c]) c.id none []) c
      { c.done (now s) (memberStatus s [c] c) ((memberBytes s [c] c).filter (fun e => !goesOut s e.1)) with served := true }
      (collLoads s c ++ collStores c) (memberBytes s [c] c) := by
  have h : runMembers s [c] = nextFresh (stageMember s [c] s c) := by simp [runMembers, hp]
  rw [h, stageMember_eq, ← staged_done]
  exact workLeaves_finish (workLeaves_of_cmdBecomes (cmdBecomes_updCmd (by simp) hf) (List.subset_append_left _ _) _)

/-! ## Joining -/

/-- The collective that a command founds: it has arrived alone. -/
def newCollective (s : State) (c : Cmd) : Collective :=
  { collId := c.collId
    part := c.part s
    arrived := [c.id]
    berths := [c.berth]
    own := ((collMembers (ownPos s) c.params).filter (fun m => m.1 == ownPos s)).map (·.2) }

theorem collOf_mem {c : Cmd} {k : Collective} (h : collOf s c = some k) :
    k ∈ s.graphs.colls ∧ k.collId = c.collId ∧ k.part = c.part s := by
  have hp := List.find?_some h
  simp only [Bool.and_eq_true, beq_iff_eq] at hp
  exact ⟨List.mem_of_find?_eq_some h, hp.1⟩

/-- The first command of its COLL_ID founds a collective beside those there are. -/
theorem joinCollective_first {c : Cmd} (h : ∀ k ∈ s.graphs.colls, ¬ (k.collId = c.collId ∧ k.part = c.part s)) :
    joinCollective s c = setColls s (s.graphs.colls ++ [newCollective s c]) := by
  have hn : collOf s c = none := Option.eq_none_iff_forall_ne_some.mpr (fun k hk => h k (collOf_mem hk).1 (collOf_mem hk).2)
  have hall : s.graphs.colls.filter (fun k => !(k.collId == c.collId && k.part == c.part s)) = s.graphs.colls :=
    List.filter_eq_self.mpr (fun k hk => by simpa using not_and_or.mp (h k hk))
  rw [joinCollective, hn]
  show foundCollective s c = _
  rw [foundCollective, hall]
  rfl

theorem joinCollective_again {c : Cmd} {k : Collective} (hk : collOf s c = some k) (ha : k.arrived.contains c.id = false)
    (hb : (arrivedCmds s k).any (fun x => x.berth == c.berth) = true) :
    joinCollective s c = finishCmd s c.id mismatchStatus [] := by
  rw [joinCollective, hk]
  dsimp only
  rw [if_neg (by rw [ha]; decide), if_pos hb]

theorem joinCollective_arrived {c : Cmd} {k : Collective} (hk : collOf s c = some k) (ha : k.arrived.contains c.id = true) :
    joinCollective s c = s := by
  rw [joinCollective, hk]
  exact if_pos ha

/-! ## The work of a started collective -/

section
variable {c : Cmd} (hn : noTiles s c = false) (hs : c.served = false)
include hn hs

theorem collWork_alone (h0 : c.scope = 0) (hr : Reachable s c (collLoads s c ++ collStores c)) :
    collWork s c = finishCmd (runMembers s [c]) c.id none [] := by
  rw [collWork, if_neg (by simp [hn]), if_neg (by simp [hs]), if_pos h0, awake_of_reachable hr]

theorem collWork_of_notRunning (h0 : c.scope ≠ 0) (hd : deadMember s c = none)
    (hk : ∀ k, collOf (joinCollective s c) c = some k → k.running = false) : collWork s c = joinCollective s c := by
  rw [collWork, if_neg (by simp [hn]), if_neg (by simp [hs]), if_neg h0, hd]
  dsimp only
  split
  · rfl
  · next k h => rw [if_neg (by simp [hk k h])]

theorem collWork_running {k : Collective} (h0 : c.scope ≠ 0) (hd : deadMember s c = none) (hk : collOf s c = some k)
    (hr : k.running = true) (ha : k.arrived.contains c.id = true)
    (hreach : Reachable s c ((arrivedCmds s k).flatMap (fun x => collLoads s x ++ collStores x))) :
    collWork s c = finishCmd (runMembers s (arrivedCmds s k)) c.id none [] := by
  rw [collWork, if_neg (by simp [hn]), if_neg (by simp [hs]), if_neg h0, hd]
  dsimp only
  rw [joinCollective_arrived hk ha, hk]
  dsimp only
  rw [if_pos (by simp only [hr, ha, Bool.and_self]), awake_of_reachable hreach]

end

theorem collOf_first {c : Cmd} {k : Collective} (h : ∀ k ∈ s.graphs.colls, ¬ (k.collId = c.collId ∧ k.part = c.part s))
    (hk : collOf (setColls s (s.graphs.colls ++ [newCollective s c])) c = some k) : k = newCollective s c := by
  obtain ⟨hm, hc⟩ := collOf_mem hk
  obtain hm | hm := List.mem_append.mp hm
  · exact absurd hc (h k hm)
  · exact List.mem_singleton.mp hm

theorem mem_arrivedCmds {k : Collective} {x : Cmd} : x ∈ arrivedCmds s k ↔ x.id ∈ k.arrived ∧ findCmd s x.id = some x := by
  unfold arrivedCmds
  rw [List.mem_filterMap]
  refine ⟨fun ⟨i, hi, hx⟩ => ?_, fun ⟨hi, hx⟩ => ⟨_, hi, hx⟩⟩
  obtain rfl := findCmd_id hx
  exact ⟨hi, hx⟩

/-- The shares of all members are done, and the command finishes. -/
theorem runMembers_row {id : CmdId} {c : Cmd} {k : Collective} (hf : findCmd s id = some c) (hp : c.phase = .started)
    (ha : id ∈ k.arrived) (hn : ((arrivedCmds s k).map (·.id)).Nodup) :
    ∃ t, t = finishCmd (runMembers s (arrivedCmds s k)) id none [] ∧ t.mem = s.mem ∧ t.graphs = s.graphs ∧
      (∃ d, findCmd t id = some d ∧ d.phase = .finished ∧ d.tideEnd = now s) ∧
      ∀ x ∈ arrivedCmds s k, x.phase = .started → ∃ d, findCmd t x.id = some d ∧ d.served = true ∧
        d.results = x.results ++ (memberBytes s (arrivedCmds s k) x).filter (fun e => !goesOut s e.1) := by
  obtain rfl := findCmd_id hf
  have hframe := runMembers_frame s (arrivedCmds s k)
  have hres : ∀ x ∈ arrivedCmds s k, x.phase = .started → _ := fun x hx hpx =>
    resultsAt_runMembers hn hx hpx (mem_arrivedCmds.mp hx).2
  have hc := hres c (mem_arrivedCmds.mpr ⟨ha, hf⟩) hp
  generalize runMembers s (arrivedCmds s k) = u at hframe hres hc
  refine ⟨_, rfl, hframe.mem, ?_, ?_, fun x hx hpx => ?_⟩
  · show u.graphs = s.graphs
    rw [hframe]
  · obtain ⟨y, hy, -⟩ := Option.map_eq_some_iff.mp hc
    obtain ⟨-, -, -, -, h5⟩ := cmdBecomes_finishCmd (st := none) (l := []) hy
    exact ⟨_, h5, rfl, congrArg (fun t : TideGroup => t.count / 2 ^ 32) hframe.tide⟩
  · have h := (resultsStay_finishCmd u c.id x.id).trans (hres x hx hpx)
    obtain ⟨d, hd, he⟩ := Option.map_eq_some_iff.mp h
    obtain ⟨h1, h2⟩ := Prod.mk.inj he
    exact ⟨d, hd, h1, h2⟩

/-- Settles O25: a collective command works alone, founds a collective, is refused, or does the shares of all. -/
theorem collectivesJoinAndFinish : Obligations.CollectivesJoinAndFinish := by
  unfold Obligations.CollectivesJoinAndFinish
  intro s id c op i hrow h hn hs
  have hexec : exec i s = .next (collWork s c) := by
    simp only [List.mem_cons, Prod.mk.injEq, List.not_mem_nil, or_false] at hrow
    obtain ⟨rfl, rfl⟩ | ⟨rfl, rfl⟩ | ⟨rfl, rfl⟩ | ⟨rfl, rfl⟩ := hrow <;> exact onStarted_next h
  obtain ⟨-, hf, hp, -⟩ := h
  obtain rfl := findCmd_id hf
  rw [hexec]
  refine ⟨fun w st h0 hr hw hst => ⟨_, rfl, ?_⟩, fun h0 hd hfirst => ?_, fun k h0 hd hk hrun ha hb => ⟨_, rfl, ?_⟩,
    fun k cmds h0 hd hk hrun ha hcmds hnodup hr => ?_⟩
  · subst hw hst
    rw [collWork_alone hn hs h0 hr]
    exact workLeaves_alone hf hp
  · have hj := joinCollective_first hfirst
    rw [collWork_of_notRunning hn hs h0 hd (fun k hk => by rw [hj] at hk; rw [collOf_first hfirst hk]; rfl), hj]
    rfl
  · have hj := joinCollective_again hk ha hb
    have hk' : collOf (finishCmd s c.id mismatchStatus []) c = some k := hk
    rw [collWork_of_notRunning hn hs h0 hd (fun k' h' => by rw [hj, hk'] at h'; obtain rfl := Option.some.inj h'; exact hrun), hj]
    exact cmdBecomes_finishCmd hf
  · subst hcmds
    obtain ⟨t, rfl, hrow⟩ := runMembers_row hf hp (by simpa using ha) hnodup
    exact ⟨_, by rw [collWork_running hn hs h0 hd hk hrun ha hr], hrow⟩

/-! ## The rendezvous (R232, R235) -/

theorem exec_collectiveRendezvous (n : Nat) (ra : Bool) : exec (.collectiveRendezvous n ra) s =
    .next ((s.graphs.colls.filter (fun k => k.collId == n && !k.running && !k.failed)).foldl (meet ra) s) := rfl

section
variable {k : Collective} {first : Cmd} {rest : List Cmd} (ha : arrivedCmds s k = first :: rest)
include ha

/-- Members that agree and are complete begin to run. -/
theorem meet_runs {ra : Bool} (hsame : rest.all (sameDescriptor first) = true) (hall : allArrived s first (first :: rest) = true)
    (hr : hasRemote s first = true → ra = true) :
    meet ra s k = setColls s (otherColls s k ++ [{ k with running := true }]) := by
  rw [meet, ha]
  dsimp only
  rw [if_neg (by cases hh : hasRemote s first <;> simp_all), if_pos hall]

/-- A member whose descriptor differs ends all that have arrived. -/
theorem meet_fails (ra : Bool) (hdiff : rest.all (sameDescriptor first) = false) :
    meet ra s k = (first :: rest).foldl (fun t c => finishCmd t c.id mismatchStatus [])
      (setColls s (otherColls s k ++ [{ k with failed := true }])) := by
  rw [meet, ha]
  dsimp only
  rw [if_pos (by simp only [hdiff, Bool.not_false, Bool.true_or])]

end

/-- A command has ended as a member of a collective whose members do not match. -/
def EndedMismatched (s : State) (i : CmdId) : Prop :=
  ∃ d, findCmd s i = some d ∧ d.phase = .finished ∧ statusRank S_BAD_PARAM ≤ statusRank d.status

theorem endedMismatched_self {i : CmdId} {c : Cmd} (h : findCmd s i = some c) :
    EndedMismatched (finishCmd s i mismatchStatus []) i := by
  obtain ⟨-, -, -, -, h5⟩ := cmdBecomes_finishCmd (st := mismatchStatus) (l := []) h
  exact ⟨_, h5, rfl, statusRank_note c S_BAD_PARAM 0xFFFF⟩

theorem EndedMismatched.finishCmd {i : CmdId} (h : EndedMismatched s i) (j : CmdId) :
    EndedMismatched (finishCmd s j mismatchStatus []) i := by
  obtain ⟨d, hd, hrest⟩ := h
  by_cases hij : i = j
  · subst hij
    exact endedMismatched_self hd
  · exact ⟨d, (findCmd_updCmd_other (by simp [mismatchStatus]) hij).trans hd, hrest⟩

theorem finishAll_ended (l : List Cmd) {i : CmdId} (h : EndedMismatched s i) :
    EndedMismatched (l.foldl (fun t c => finishCmd t c.id mismatchStatus []) s) i := by
  induction l generalizing s with
  | nil => exact h
  | cons c l ih => exact ih (h.finishCmd c.id)

/-- Each of the commands that are ended in turn has ended. -/
theorem finishAll_ends {l : List Cmd} {x c : Cmd} (hx : x ∈ l) (h : findCmd s x.id = some c) :
    EndedMismatched (l.foldl (fun t c => finishCmd t c.id mismatchStatus []) s) x.id := by
  induction l generalizing s c with
  | nil => exact absurd hx List.not_mem_nil
  | cons y l ih =>
    by_cases hy : x.id = y.id
    · rw [List.foldl_cons, ← hy]
      exact finishAll_ended l (endedMismatched_self h)
    · obtain rfl | hl := List.mem_cons.mp hx
      · exact absurd rfl hy
      · exact ih hl ((findCmd_updCmd_other (by simp [mismatchStatus]) hy).trans h)

/-- Commands that end change the contexts alone. -/
theorem finishAll_frame (l : List Cmd) (s : State) : l.foldl (fun t c => finishCmd t c.id mismatchStatus []) s =
    { s with ctxs := (l.foldl (fun t c => finishCmd t c.id mismatchStatus []) s).ctxs } :=
  foldl_rel (R := fun u t => t = { u with ctxs := t.ctxs }) (fun _ => rfl) (fun h g => by rw [g, h]) (fun _ _ => rfl) l s

/-- Settles O26: the one waiting collective of the COLL_ID runs or fails, or there is none. -/
theorem rendezvousStartsCollective : Obligations.RendezvousStartsCollective := by
  unfold Obligations.RendezvousStartsCollective
  refine ⟨fun s n ra k first rest hk ha hsame hall hr => ?_, fun s n ra k first rest hk ha hdiff => ?_, fun s n ra hk => ?_⟩
  all_goals rw [exec_collectiveRendezvous, hk]
  · rw [List.foldl_cons, List.foldl_nil, meet_runs ha hsame hall hr]
    rfl
  · rw [List.foldl_cons, List.foldl_nil, meet_fails ha ra hdiff]
    have hframe := finishAll_frame (first :: rest) (setColls s (otherColls s k ++ [{ k with failed := true }]))
    refine ⟨_, rfl, by rw [hframe]; rfl, by rw [hframe]; rfl, fun x hx => finishAll_ends (c := x) hx ?_⟩
    exact (mem_arrivedCmds.mp (ha ▸ hx)).2
  · rfl

end Sys2Proof.Machine
end

section
/-! SUPPORT. SELFTEST and CALIBRATE of one engine: the test that a request queues, and the boundary at which
the only test begins. -/

namespace Sys2Proof.Machine

variable {s : State}

/-- The mark of a request in service changes the progress of its mailbox or command. -/
theorem markServed_frame (s : State) (r : Route) :
    markServed s r = { s with mbx := (markServed s r).mbx, ctxs := (markServed s r).ctxs } := by cases r <;> rfl

/-- The test of a request, of the rank of requests (R457). -/
def askedTest (r : Route) (code : Nat) (el : Element) : TestReq := { el := el, code := code, rank := 2, who := [r] }

theorem targetRetired_engine {b e : Nat} (he : (getEngine s b e).rotation = .inRotation) (hb : (getSite s b).retired = false) :
    targetRetired s (.engine b e) = false := by simp [targetRetired, he, hb]

theorem selftest_engine {r : Route} {a : Asked} {b e : Nat} (h : Asks s r 0x0E00 a) (hb : b = fld a.params 0 8)
    (he : e = fld a.params 8 16) (hc : fld a.params 24 8 = 3) (hn : targetRetired s (.engine b e) = false) :
    exec (.selftest r) s = .next (requestTest r 3 (markServed s r) (.engine b e)) := by
  refine blunen_waits h ?_
  dsimp only
  rw [if_pos hc, ← hb, ← he, hn, hc]
  rfl

theorem calibrate_engine {r : Route} {a : Asked} {b e : Nat} (h : Asks s r 0x0E01 a) (hb : b = fld a.params 0 8)
    (he : e = fld a.params 8 16) (hne : e ≠ 0xFFFF) (hn : targetRetired s (.engine b e) = false) :
    exec (.calibrate r) s = .next (requestTest r 0x10 (markServed s r) (.engine b e)) := by
  refine blunen_waits h ?_
  dsimp only
  rw [← hb, ← he, calibrateUnits, if_neg hne, List.map_singleton, List.filter_singleton, hn]
  rfl

/-- The state with one test queued. -/
def withTest (s : State) (q : TestReq) : State := { s with recovery := { s.recovery with tests := [q] } }

theorem requestTest_first (r : Route) (code b e : Nat) (ht : s.recovery.tests = []) :
    requestTest r code s (.engine b e) = engineBoundary (withTest s (askedTest r code (.engine b e))) b e :=
  congrArg (fun t => engineBoundary t b e) (queueTest_first ht (askedTest r code (.engine b e)))

/-- The test of an engine that runs a block joins the queue, and waits there. -/
theorem requestTest_queued {b e : Nat} (r : Route) (code : Nat) (hrun : (getEngine s b e).run.isSome = true)
    (ht : s.recovery.tests = []) : requestTest r code s (.engine b e) =
      withTest s (askedTest r code (.engine b e)) := by
  rw [requestTest_first r code b e ht]
  exact engineBoundary_of_run (s := withTest s _) hrun

/-- A test that waits in the queue in front of an engine that runs a block. -/
theorem requestTest_waits {b e : Nat} (r : Route) (code : Nat) (hrun : (getEngine s b e).run.isSome = true)
    (ht : s.recovery.tests = []) : ∃ t, t = requestTest r code (markServed s r) (.engine b e) ∧
      t = { s with recovery := t.recovery, mbx := t.mbx, ctxs := t.ctxs } ∧
      t.recovery = { s.recovery with tests := [askedTest r code (.engine b e)] } := by
  have hframe := markServed_frame s r
  generalize markServed s r = u at hframe ⊢
  have hr : u.recovery = s.recovery := by rw [hframe]
  have hg : getEngine u b e = getEngine s b e := by rw [hframe]; rfl
  rw [requestTest_queued r code (hg ▸ hrun) (hr ▸ ht), withTest, hr]
  refine ⟨_, rfl, ?_, rfl⟩
  dsimp only
  rw [hframe]

theorem nextTest_lone {q : TestReq} {el : Element} (h : s.recovery.tests = [q]) (he : q.el = el) (hr : q.running = false)
    (hk : q.rank = 2) : nextTest s el = some q := by
  simp [nextTest, runningTest, h, he, hr, hk]

/-- A calibration that waits on its own engine keeps no other engine of the berth out of rotation. -/
theorem berthCalibrates_lone {q : TestReq} {b e : Nat} (h : s.recovery.tests = [q]) (he : q.el = .engine b e) :
    berthCalibrates s b e = false := by
  refine List.any_eq_false.mpr fun k _ => ?_
  rw [h]
  by_cases hk : k = e
  · simp [hk]
  · simp [he, Ne.symm hk]

/-- The only test begins at the boundary of an engine in rotation. -/
theorem engineBoundary_begins {q : TestReq} {b e : Nat} (h : s.recovery.tests = [q]) (he : q.el = .engine b e)
    (hr : q.running = false) (hk : q.rank = 2) (hin : (getEngine s b e).rotation = .inRotation)
    (hrun : (getEngine s b e).run = none) (hreset : (getEngine s b e).resetting = false)
    (hstep : (getEngine s b e).thermalStep = false) : engineBoundary s b e =
      lendBlocks (updEngine (startTest s q) b e (fun y => { y with rotation := .outOfRotation })) b e := by
  unfold engineBoundary
  dsimp only
  rw [nextTest_lone h he hr hk]
  dsimp only
  rw [if_neg (by simp [hin, hrun, hreset, hstep, berthCalibrates_lone h he])]

/-- The test of an engine at a boundary begins at once. -/
theorem requestTest_begins {b e : Nat} (r : Route) (code : Nat) (hin : (getEngine s b e).rotation = .inRotation)
    (hrun : (getEngine s b e).run = none) (hreset : (getEngine s b e).resetting = false)
    (hstep : (getEngine s b e).thermalStep = false) (ht : s.recovery.tests = []) :
    (getEngine (requestTest r code s (.engine b e)) b e).rotation = .outOfRotation ∧
      (requestTest r code s (.engine b e)).recovery =
        { s.recovery with tests := [{ askedTest r code (.engine b e) with running := true }] } := by
  rw [requestTest_first r code b e ht, engineBoundary_begins (s := withTest s _) (q := askedTest r code (.engine b e)) rfl rfl rfl
    rfl hin hrun hreset hstep]
  refine ⟨?_, ?_⟩
  · unfold getEngine
    rw [lendBlocks_engines]
    exact congrArg Engine.rotation (getEngine_upd_self _ b e _)
  · rw [lendBlocks_frame]
    simp [startTest, withTest, mapIf]

/-- Settles O15: the request queues the test of its engine, which waits for a boundary or begins. -/
theorem testRequestsQueueOrAnswer : Obligations.TestRequestsQueueOrAnswer := by
  unfold Obligations.TestRequestsQueueOrAnswer
  refine ⟨fun s r a b e h hb he hc hin hsite hrun ht => ?_, fun s r a b e h hb he hne hin hsite hrun ht => ?_,
    fun s r a b e h hb he hne hin hsite hrun _ hreset hstep ht => ?_⟩
  all_goals have hn := targetRetired_engine hin hsite
  · obtain ⟨t, rfl, hrow⟩ := requestTest_waits r 3 hrun ht
    exact ⟨_, selftest_engine h hb he hc hn, hrow⟩
  · obtain ⟨t, rfl, hrow⟩ := requestTest_waits r 0x10 hrun ht
    exact ⟨_, calibrate_engine h hb he hne hn, hrow⟩
  · have hframe := markServed_frame s r
    have hr : (markServed s r).recovery = s.recovery := by rw [hframe]
    have hg : getEngine (markServed s r) b e = getEngine s b e := by
      rw [hframe]
      rfl
    rw [← hg] at hin hrun hreset hstep
    obtain ⟨h1, h2⟩ := requestTest_begins r 0x10 hin hrun hreset hstep (hr ▸ ht)
    exact ⟨_, calibrate_engine h hb he hne hn, h1, by rw [h2, hr]; rfl⟩

end Sys2Proof.Machine
end

section
/-! SUPPORT. Graphs: slots, the reads of a command that keep the commands in flight, the descriptor that is loaded, the
run that begins, and the slot that is freed. -/

namespace Sys2Proof.Machine

variable {s t : State}

/-! ## Slots (R237) -/

theorem getSlot_setSlot_self (s : State) (p k : Nat) (g : GraphSlot) : getSlot (setSlot s p k g) p k = g := tabGet_set_self _ _ _ _

theorem getSlot_setSlot_other (s : State) {p k q j : Nat} (g : GraphSlot) (h : slotKey q j ≠ slotKey p k) :
    getSlot (setSlot s p k g) q j = getSlot s q j := tabGet_set_other _ _ h

theorem setSlot_frame (s : State) (p k : Nat) (g : GraphSlot) :
    setSlot s p k g = { s with graphs := { s.graphs with slots := (setSlot s p k g).graphs.slots } } := rfl

/-! ## GRAPH_LOAD -/

theorem exec_graphLoad {id : CmdId} {c : Cmd} (h : Started s id 0x0700 c)
    (hr : Reachable s c [⟨.load, fld c.params 0 47, 64⟩]) : exec (.graphLoad id) s = .next (graphLoad s c) :=
  (onStarted_next h).trans (by rw [awake_of_reachable hr])

/-- A descriptor that can be read and passes every check is copied into its free slot. -/
theorem graphLoad_loads {c : Cmd} {h : Nat} {entries : List Nat}
    (hh : h = loadNat (seenFrom s c.berth) (fld c.params 0 47) 64)
    (he : entries = (List.range (fld h 32 8)).map
      (fun i => loadNat (seenFrom s c.berth) (fld c.params 0 47 + 64 + 256 * i) 256))
    (hfree : (getSlot s (graphPart s c) (fld c.params 64 8)).loaded = false)
    (hquiet : touchesSilent s [⟨.load, fld c.params 0 47, 64⟩] = false)
    (hread : touchStatus s c.berth [⟨.load, fld c.params 0 47, 64⟩] = none) (hhead : firstFault (headerFaults h) = none)
    (hreach : reachOk s (graphPart s c) .load (fld c.params 0 47) (64 + 256 * fld h 32 8) = true)
    (hquiet' : touchesSilent s [⟨.load, fld c.params 0 47, 64 + 256 * fld h 32 8⟩] = false)
    (hread' : touchStatus s c.berth [⟨.load, fld c.params 0 47, 64 + 256 * fld h 32 8⟩] = none)
    (hnodes : firstFault (entries.zipIdx.flatMap (fun e => nodeFaults s (graphPart s c) c.berth (fld h 40 8) e.2 e.1)) = none) :
    graphLoad s c = finishWork
      (setSlot s (graphPart s c) (fld c.params 64 8)
        { loaded := true, nodes := fld h 32 8, nargs := fld h 40 8, entries := entries })
      c [⟨.load, fld c.params 0 47, 64 + 256 * fld h 32 8⟩] none [] := by
  unfold graphLoad
  dsimp only
  rw [← hh, ← he, if_neg (by simp [hfree]), if_neg (by simp [hquiet]), hread, hhead]
  dsimp only
  rw [if_neg (by simp [hreach]), if_neg (by simp [hquiet']), hread', hnodes]

/-! ## GRAPH_RUN -/

/-- The marks of a command's read keep the commands in flight. -/
theorem ringsStay_readMarks (s : State) (c : Cmd) (x : Touch) : RingsStay s (readMarks s c {} x) := by
  have hloads : ∀ u : State, RingsStay u (issueLoads u c {} x.addr x.len) := fun u => by
    unfold issueLoads
    refine foldl_rel RingsStay.refl RingsStay.trans (fun t y => ?_) _ _
    split
    · exact foldl_rel RingsStay.refl RingsStay.trans (fun u q => ringsStay_issueWork u rfl) _ _
    · exact .refl t
  unfold readMarks
  dsimp only
  have hc : RingsStay s (countStale s c.berth x.addr x.len) := .of_ctxs (marksOnly_countStale s c.berth x.addr x.len).ctxs
  split
  · exact hc.trans ((hloads _).trans (.of_ctxs (marksOnly_touchRange _ _ _ _).ctxs))
  · exact hc

theorem exec_graphRun {id : CmdId} {c : Cmd} (h : Started s id 0x0701 c)
    (hr : Reachable s c [⟨.load, fld c.params 16 48, 1024⟩, ⟨.store, fld c.params 80 48, 512⟩]) :
    exec (.graphRun id) s = .next (graphRun s c) :=
  (onStarted_next h).trans (by rw [awake_of_reachable hr])

/-- The run that a GRAPH_RUN command begins, and the argument table that it reads. -/
def graphRunOf (s : State) (c : Cmd) : GraphRunState :=
  { id := c.id, part := graphPart s c, slot := fld c.params 0 8, iters := fld c.params 64 16 + 1 }
def argTable (s : State) (c : Cmd) : Touch :=
  ⟨.load, fld c.params 16 48, 16 * (getSlot s (graphPart s c) (fld c.params 0 8)).nargs⟩

/-- A command of a loaded slot whose argument table passes begins its run. -/
theorem graphRun_begins {c : Cmd} (hnew : runOf s c.id = none) (hquiet : touchesSilent s [argTable s c] = false)
    (hload : (getSlot s (graphPart s c) (fld c.params 0 8)).loaded = true)
    (hread : touchStatus s c.berth [argTable s c] = none)
    (hreach : reachOk s (graphPart s c) .load (fld c.params 16 48)
      (16 * (getSlot s (graphPart s c) (fld c.params 0 8)).nargs) = true)
    (hargs : firstFault (argFaults s c (graphPart s c) (fld c.params 64 16 + 1)
      (getSlot s (graphPart s c) (fld c.params 0 8)).entries) = none) :
    graphRun s c = beginRun (readMarks s c {} (argTable s c)) (graphRunOf s c) := by
  unfold argTable at hquiet hread
  unfold graphRun
  dsimp only
  rw [if_neg (by simp [hnew]), if_neg (by simp [hquiet]), if_neg (by simp [hload]), hread]
  dsimp only
  rw [if_neg (by simp [hreach]), hargs]
  rfl

theorem runOf_eq_none {id : CmdId} (h : ∀ x ∈ s.graphs.runs, ¬ (x.id.ctx = id.ctx ∧ x.id.seq = id.seq)) :
    runOf s id = none :=
  List.find?_eq_none.mpr (fun x hx => by simpa using not_and.mp (h x hx))

/-- The state with one more run. -/
def withRun (s : State) (r : GraphRunState) : State :=
  { s with graphs := { s.graphs with runs := s.graphs.runs ++ [r] } }

theorem runOf_withRun {r : GraphRunState} (h : runOf s r.id = none) : runOf (withRun s r) r.id = some r := by
  unfold runOf withRun at *
  rw [List.find?_append, h]
  simp

/-- Whether a run is over depends on its graph, the own position and the nodes in flight. -/
theorem runOver_congr {r : GraphRunState} (hs : t.graphs.slots = s.graphs.slots) (hp : t.harbour.pos = s.harbour.pos)
    (hn : nodesInFlight t r.id = nodesInFlight s r.id) : runOver t r = runOver s r := by
  simp only [runOver, runNodes, getSlot, ownNode, ownPos, hs, hp, hn]

theorem settleRun_of_notOver {id : CmdId} {r : GraphRunState} (hr : runOf s id = some r) (ho : runOver s r = false) :
    settleRun s id = s := by
  rw [settleRun, hr]
  exact if_neg (by simp [ho])

/-- A run that no edge waits for, and that is not over, is one more run. -/
theorem beginRun_of_noEdges {r : GraphRunState} (he : ∀ e ∈ s.graphs.edges, ownerOf e.1 ≠ r.id) (hr : runOf s r.id = none)
    (ho : runOver s r = false) : beginRun s r = withRun s r := by
  have hmine : s.graphs.edges.filter (fun e => decide (ownerOf e.1 = r.id)) = [] :=
    List.filter_eq_nil_iff.mpr (fun e h => by simp [he e h])
  have hothers : s.graphs.edges.filter (fun e => !decide (ownerOf e.1 = r.id)) = s.graphs.edges :=
    List.filter_eq_self.mpr (fun e h => by simp [he e h])
  unfold beginRun
  dsimp only
  rw [hmine, hothers]
  exact settleRun_of_notOver (s := withRun s r) (runOf_withRun hr) ((runOver_congr (s := s) rfl rfl rfl).trans ho)

/-- Reading the argument table leaves the graphs, and whether a run is over. -/
theorem graphs_readMarks (s : State) (c : Cmd) (x : Touch) : (readMarks s c {} x).graphs = s.graphs := by
  rw [workFrame_readMarks s c {} x]

theorem runOver_readMarks (s : State) (c : Cmd) (x : Touch) (r : GraphRunState) :
    runOver (readMarks s c {} x) r = runOver s r := by
  obtain ⟨hframe, -⟩ := workKeeps_readMarks s c x
  exact runOver_congr (by rw [graphs_readMarks]) (by rw [hframe]) (ringsStay_readMarks s c x).nodesInFlight

/-! ## GRAPH_UNLOAD -/

theorem graphUnload_frees {c : Cmd}
    (h : s.graphs.runs.any (fun r => r.part == graphPart s c && r.slot == fld c.params 0 8) = false) :
    graphUnload s c = finishCmd (setSlot s (graphPart s c) (fld c.params 0 8) {}) c.id none [] := if_neg (by simp only [h]; decide)

theorem graphUnload_refuses {c : Cmd}
    (h : s.graphs.runs.any (fun r => r.part == graphPart s c && r.slot == fld c.params 0 8) = true) :
    graphUnload s c = finishCmd s c.id (some (S_BAD_PARAM, paramOffset (hasSync c.packet) 0)) [] := if_pos h

/-- Settles O27: the slot takes the graph, the run begins, the slot is freed or stays. -/
theorem graphsLoadRunAndUnload : Obligations.GraphsLoadRunAndUnload := by
  unfold Obligations.GraphsLoadRunAndUnload
  refine ⟨fun s id c h entries hs hr hquiet hquiet' hh he hfree hread hhead hreach hread' hnodes => ?_,
    fun s id c r hs hr hquiet hedges hruns hload hread hreach hargs hrun hover => ?_,
    fun s id c hs => ⟨fun h => ?_, fun h => ?_⟩⟩
  all_goals
    have ⟨_, hf, _⟩ := hs
    obtain rfl := findCmd_id hf
  · refine ⟨_, _, exec_graphLoad hs hr, ?_, setSlot_frame _ _ _ _, getSlot_setSlot_self s _ _ _,
      fun p k hk => getSlot_setSlot_other s _ hk⟩
    rw [graphLoad_loads hh he hfree hquiet hread hhead hreach hquiet' hread' hnodes]
    exact workEnds_finishWork_reads (s := setSlot s _ _ _) hf _ _ _
  · have hnew := runOf_eq_none hruns
    have hr' : r = graphRunOf s c := hrun
    have hg := graphs_readMarks s c (argTable s c)
    rw [exec_graphRun hs hr, graphRun_begins hnew hquiet hload hread hreach hargs, ← hr', beginRun_of_noEdges, withRun, hg]
    · rfl
    · rw [hg, hr']
      exact hedges
    · rw [runOf, hg, hr']
      exact hnew
    · rw [runOver_readMarks]
      exact hover
  · refine ⟨_, _, onStarted_next hs, ?_, setSlot_frame _ _ _ _, getSlot_setSlot_self s _ _ _,
      fun p k hk => getSlot_setSlot_other s _ hk⟩
    rw [graphUnload_frees h]
    exact cmdBecomes_finishCmd hf
  · refine ⟨_, onStarted_next hs, ?_⟩
    rw [graphUnload_refuses h]
    exact cmdBecomes_finishCmd hf

end Sys2Proof.Machine
end

section
/-! SUPPORT. Nodes of a graph: a change of a run, a node whose turn it is, the command that a node starts, the node that ends at its
start, and the edges from other modules. -/

namespace Sys2Proof.Machine

variable {s t : State}

/-! ## Runs -/

theorem runOf_updRun {id : CmdId} {r : GraphRunState} {f : GraphRunState → GraphRunState} (hf : ∀ r, (f r).id = r.id)
    (h : runOf s id = some r) : runOf (updRun s id f) id = some (f r) := by
  have hi : ∀ r : GraphRunState, (fun r : GraphRunState => r.id.ctx == id.ctx && r.id.seq == id.seq)
      (if (r.id.ctx == id.ctx && r.id.seq == id.seq) = true then f r else r) =
      (r.id.ctx == id.ctx && r.id.seq == id.seq) := fun r => by split <;> simp [hf]
  unfold runOf at h
  show (mapIf _ _ s.graphs.runs).find? _ = _
  unfold mapIf
  rw [List.find?_map]
  simp only [Function.comp_def, hi]
  rw [h, Option.map_some, if_pos (List.find?_some h)]

/-- A run that counts one more start of node i, and one that hears an edge. -/
def GraphRunState.counts (r : GraphRunState) (i : Nat) : GraphRunState :=
  { r with nodes := tabUpd {} r.nodes i (fun x => { x with started := x.started + 1 }) }
def GraphRunState.hears (r : GraphRunState) (e : Nat × Nat × Nat) : GraphRunState := { r with remote := addNew e r.remote }

/-- A run that settles begins no run. -/
theorem runs_settleRun (s : State) (id : CmdId) : (settleRun s id).graphs.runs ⊆ s.graphs.runs := by
  unfold settleRun
  split
  · split
    · unfold finishRun
      split
      · exact List.Subset.refl _
      · dsimp only
        rw [workFrame_finishWork]
        exact List.filter_subset_self _
    · exact List.Subset.refl _
  · exact List.Subset.refl _

/-- The runs of an identity have all been stopped. -/
def RunsStopped (s : State) (id : CmdId) : Prop :=
  ∀ r ∈ s.graphs.runs, r.id.ctx = id.ctx → r.id.seq = id.seq → r.stopped = true

theorem RunsStopped.runOf {id : CmdId} {r : GraphRunState} (h : RunsStopped s id) (hr : runOf s id = some r) :
    r.stopped = true := by
  have hp := List.find?_some hr
  simp only [Bool.and_eq_true, beq_iff_eq] at hp
  exact h r (List.mem_of_find?_eq_some hr) hp.1 hp.2

theorem runsStopped_updRun {id : CmdId} {f : GraphRunState → GraphRunState} (hf : ∀ r, (f r).stopped = true) :
    RunsStopped (updRun s id f) id := by
  intro r hr h1 h2
  obtain ⟨x, -, rfl⟩ := List.mem_map.mp hr
  by_cases hx : (x.id.ctx == id.ctx && x.id.seq == id.seq) = true
  · rw [if_pos hx]
    exact hf x
  · rw [if_neg hx] at h1 h2
    exact absurd (by simp [h1, h2]) hx

/-- A node that ends at its start stops its run. -/
theorem runsStopped_endNode (s : State) (id : CmdId) (i j st d : Nat) : RunsStopped (endNode s id i j st d) id := by
  unfold endNode abortNode
  dsimp only
  exact fun r hr => runsStopped_updRun (fun _ => rfl) r (runs_settleRun _ id hr)

/-! ## The turn of a node (R240) -/

section
variable {id : CmdId} {i j n : Nat} {r : GraphRunState} {c : Cmd} (hr : runOf s id = some r)
  (hc : findCmd s (ownerOf id) = some c) (hn : (getSlot s r.part r.slot).entries[i]? = some n)
  (hturn : (r.stopped || !ownNode s n || decide (r.iters ≤ j) || (tabGet {} r.nodes i).started != j ||
    (tabGet {} r.nodes i).completed != j || decide (c.phase ≠ .started)) = false)
include hr hc hn hturn

theorem nodeStart_dead {p : Nat} (hd : deadPred s r n j = some p) :
    nodeStart s id i j = endNode s id i j S_TARGET_DEAD (0x100 * p) := by
  simp only [nodeStart, hr, hc, hn, hturn, hd, Bool.false_eq_true, if_false]

theorem nodeStart_waits (hd : deadPred s r n j = none) (hp : predsDone s r n j = false) : nodeStart s id i j = s := by
  simp only [nodeStart, hr, hc, hn, hturn, hd, hp, Bool.false_eq_true, if_false, Bool.not_false, if_true]

theorem nodeStart_begins {m : Cmd} (hd : deadPred s r n j = none) (hp : predsDone s r n j = true) (hm : m = nodeCmd s c n i j)
    (hdom : domainsReady s m.berth m = true)
    (hopt : isOptical m.opcode m.params = true → m.engines.any (engInService s m.berth) = true)
    (hres : resourcesFree s m = true)
    (hover : (overlapBad m.opcode m.params (collCount (ownPos s) m.params)).any (·.1) = false ∨
      argTDs (nOpcode n) (nParams n) = []) : nodeStart s id i j = beginNode s m i := by
  subst hm
  simp only [nodeStart, hr, hc, hn, hturn, hd, hp, hdom, hres, Bool.false_eq_true, if_false, if_true, Bool.not_true]
  rw [if_neg (by simpa using hopt), if_neg]
  obtain h | h := hover <;> simp [h]

end

theorem exec_graphNodeStart {id : CmdId} {i j : Nat} (hc : hasCtx s id.ctx = true) (hn : id.node = some (i, j)) :
    exec (.graphNodeStart id) s = .next (nodeStart s id i j) :=
  guarded_next.mpr ⟨hc, by rw [hn]⟩

/-! ## The command that a node starts -/

theorem planResources_id (s : State) (c : Cmd) : (planResources s c).id = c.id := by
  unfold planResources
  dsimp only
  (repeat' split) <;> rfl

theorem nodeCmd_id (s : State) (c : Cmd) (n i j : Nat) :
    (nodeCmd s c n i j).id = { ctx := c.id.ctx, seq := c.id.seq, node := some (i, j) } := planResources_id s _

/-- The identity of a node's command, told from its run's command. -/
theorem nodeCmd_id_of {id : CmdId} {c : Cmd} {i j : Nat} (n : Nat) (hn : id.node = some (i, j))
    (hc : findCmd s (ownerOf id) = some c) :
    (nodeCmd s c n i j).id = id := by
  rw [nodeCmd_id, findCmd_id hc, ← hn]
  rfl

/-- A command that takes the place of another in flight is found there. -/
theorem findCmd_replace {id : CmdId} {c d : Cmd} (h : findCmd s id = some c) (hd : d.id = id) :
    findCmd (updCmd s id (fun _ => d)) id = some d := by
  have hl : (getCtx s id.ctx).flight.find? (fun c => decide (c.id = id)) = some c := h
  have hi : ∀ m : Cmd, (if decide (m.id = id) = true then d else m).id = m.id := fun m => by
    split
    · next he => rw [hd, of_decide_eq_true he]
    · rfl
  unfold findCmd
  simp only [updCmd, getCtx_upd_self, mapIf, List.find?_map, Function.comp_def, hi]
  rw [hl]
  simp [findCmd_id h]

/-- A command that joins the commands in flight of its context is found there. -/
theorem findCmd_append {m : Cmd} (h : findCmd s m.id = none) :
    findCmd (updCtx s m.id.ctx (fun x => { x with flight := x.flight ++ [m] })) m.id = some m := by
  have hl : (getCtx s m.id.ctx).flight.find? (fun c => decide (c.id = m.id)) = none := h
  unfold findCmd
  rw [getCtx_upd_self]
  dsimp only
  rw [List.find?_append, hl]
  simp

/-- A command's start keeps its opcode and its parameters. -/
theorem startCmd_record (s : State) (c : Cmd) : ∃ d, StartedAs s c d ∧ d.opcode = c.opcode ∧ d.params = c.params ∧
    startCmd s c = joinRotation (updCmd s c.id (fun _ => d)) d := by
  have h : StartedAs s c { c with
      phase := .started
      began := true
      tideStart := now s
      blockedAt := none
      deadline := now s + timeoutNs (hTimeout c.packet) } := ⟨rfl, rfl, rfl, rfl, rfl, rfl, rfl, rfl⟩
  have h2 := StartedAs.ite (p := (hTstart c.packet && relaxedAt s (hTstartNs c.packet)) = true) (h.note S_DEGRADED 4) h
  refine ⟨_, StartedAs.ite (startedAs_planTally h2 (hBound c.packet) (hTreq c.packet)) h2, ?_, ?_, rfl⟩
  all_goals split <;> split <;> simp [planTally]

/-- The state in which a node's command has joined the commands in flight, and its run counts it as started. -/
def nodeJoined (s : State) (m : Cmd) (i : Nat) : State :=
  updCtx (updRun s m.id (fun r => r.counts i)) m.id.ctx (fun x => { x with flight := x.flight ++ [m] })

theorem beginNode_eq (s : State) (m : Cmd) (i : Nat) : beginNode s m i = startCmd (nodeJoined s m i) m := rfl

/-- A node that starts is a started command in flight, and its run counts it. -/
theorem beginNode_row {m : Cmd} {r : GraphRunState} (i : Nat) (hf : findCmd s m.id = none) (hr : runOf s m.id = some r) :
    ∃ d, findCmd (beginNode s m i) m.id = some d ∧ d.phase = .started ∧ d.began = true ∧ d.tideStart = now s ∧
      d.opcode = m.opcode ∧ d.params = m.params ∧
      (∃ r', runOf (beginNode s m i) m.id = some r' ∧ (tabGet {} r'.nodes i).started = (tabGet {} r.nodes i).started + 1) ∧
      (beginNode s m i).mem = s.mem := by
  obtain ⟨d, ⟨hph, hbg, hts, -, -, hid, -⟩, hop, hpar, hstart⟩ := startCmd_record (nodeJoined s m i) m
  have hframe := joinRotation_frame (updCmd (nodeJoined s m i) m.id (fun _ => d)) d
  rw [beginNode_eq, hstart]
  refine ⟨d, ?_, hph, hbg, hts, hop, hpar, ⟨r.counts i, ?_, ?_⟩, ?_⟩
  · rw [findCmd_congr (s := updCmd (nodeJoined s m i) m.id (fun _ => d)) (by rw [hframe])]
    exact findCmd_replace (findCmd_append (s := updRun s m.id _) hf) hid
  · rw [hframe]
    exact runOf_updRun (f := fun r => r.counts i) (fun _ => rfl) hr
  · rw [GraphRunState.counts, tabGet_upd_self]
  · rw [hframe]
    rfl

/-! ## GRAPH_EDGE_STATUS (R242) -/

theorem exec_graphEdgeStatus {id : CmdId} (hc : hasCtx s id.ctx = true) (p st : Nat) :
    exec (.graphEdgeStatus id p st) s = .next (edgeStatus s id p st) := guarded_next.mpr ⟨hc, rfl⟩

/-- The status of a remote predecessor whose data is written is recorded for its consumer. -/
theorem edgeStatus_written {id : CmdId} {p st i j n m : Nat} {r : GraphRunState} (hnode : id.node = some (i, j))
    (hr : runOf s id = some r) (hn : (getSlot s r.part r.slot).entries[i]? = some n)
    (hm : (getSlot s r.part r.slot).entries[p]? = some m) (ho : ownNode s n = true) (hf : ownNode s m = false)
    (hb : bitAt (nPred n) p = true) (hw : statusWritten st = true) :
    edgeStatus s id p st = updRun s id (fun r => r.hears (p, j, st)) := by
  have hcons : (getSlot s r.part r.slot).entries.getD i 0 = n := by rw [List.getD_eq_getElem?_getD, hn]; rfl
  simp only [edgeStatus, hr, hnode, hcons, hm, hf, ho, hb, hw, Bool.not_true, Bool.not_false, Bool.or_false, Bool.false_eq_true,
    if_false, if_true]
  rfl

theorem edgeStatus_early {id : CmdId} {n : Nat × Nat} (p st : Nat) (hnode : id.node = some n) (hr : runOf s id = none) :
    edgeStatus s id p st = { s with graphs := { s.graphs with
      edges := s.graphs.edges.filter (fun e => decide ((e.1, e.2.1) ≠ (id, p))) ++ [(id, p, st)] } } := by
  simp only [edgeStatus, hr, hnode]

/-- Settles O28: a node starts, waits or ends, and an edge is recorded or waits for its run. -/
theorem graphNodesStartAndHearEdges : Obligations.GraphNodesStartAndHearEdges := by
  unfold Obligations.GraphNodesStartAndHearEdges
  refine ⟨fun s id i j r c n m hnode hctx hr hc hph hn hstop hown hj hst hco => ?_,
    fun s id p st r i j n m hnode hctx hr hn hm ho hf hb hw => ?_, fun s id p st n hctx hnode hr => ?_⟩
  · have hturn : (r.stopped || !ownNode s n || decide (r.iters ≤ j) || (tabGet {} r.nodes i).started != j ||
        (tabGet {} r.nodes i).completed != j || decide (c.phase ≠ .started)) = false := by
      simp [hstop, hown, hst, hco, hph, hj]
    rw [exec_graphNodeStart hctx hnode]
    refine ⟨fun hd hp hm hdom hopt hres hover hnone => ?_, fun hd hp => ?_, fun hd => ?_⟩
    · have hid : m.id = id := hm ▸ nodeCmd_id_of n hnode hc
      have hid' : ({ id with ctx := c.id.ctx, seq := c.id.seq } : CmdId) = id := by rw [findCmd_id hc]; rfl
      obtain ⟨d, hrow⟩ := beginNode_row i hnone (hid ▸ hr)
      rw [hid, hst] at hrow
      rw [nodeStart_begins hr hc hn hturn hd hp hm hdom hopt hres hover, hid']
      exact ⟨_, d, rfl, hrow⟩
    · rw [nodeStart_waits hr hc hn hturn hd hp]
    · obtain ⟨p, hp⟩ := Option.ne_none_iff_exists'.mp hd
      rw [nodeStart_dead hr hc hn hturn hp]
      exact ⟨_, rfl, fun x hx => (runsStopped_endNode s id i j _ _).runOf hx⟩
  · rw [exec_graphEdgeStatus hctx, edgeStatus_written hnode hr hn hm ho hf hb hw]
    exact ⟨_, r.hears (p, j, st), rfl, rfl, runOf_updRun (f := fun r => r.hears (p, j, st)) (fun _ => rfl) hr, mem_addNew _ _⟩
  · rw [exec_graphEdgeStatus hctx, edgeStatus_early p st hnode hr]
    exact ⟨_, rfl, rfl, List.mem_append_right _ (List.mem_singleton_self _)⟩

end Sys2Proof.Machine
end

section
/-! SUPPORT. Stack temperatures: a table changed key by key, the layers of a stack after a tick and the events of those that pass
100 °C, a sensor that becomes suspect, and a rail that fails. -/

namespace Sys2Proof.Machine

variable {s : State}

/-! ## A table changed key by key -/

theorem tabGet_foldl_updIf {α : Type} [DecidableEq α] {d : α} (p : Nat → Prop) [DecidablePred p] (f : Nat → α → α) (t : Tab α)
    (j n : Nat) : tabGet d ((List.range n).foldl (fun t k => if p k then tabUpd d t k (f k) else t) t) j =
      if j < n ∧ p j then f j (tabGet d t j) else tabGet d t j := by
  induction n with
  | zero => simp
  | succ n ih =>
    rw [List.range_succ, List.foldl_append, List.foldl_cons, List.foldl_nil]
    by_cases hj : j = n
    · subst hj
      by_cases hp : p j <;> simp [hp, ih]
    · have hlt : j < n + 1 ↔ j < n := by omega
      by_cases hp : p n <;> simp [hp, ih, hlt, tabGet_upd_other _ _ hj]

theorem tabGet_foldl_upd {α : Type} [DecidableEq α] {d : α} (f : Nat → α → α) (t : Tab α) {j n : Nat} (h : j < n) :
    tabGet d ((List.range n).foldl (fun t k => tabUpd d t k (f k)) t) j = f j (tabGet d t j) := by
  simpa [h] using tabGet_foldl_updIf (d := d) (fun _ => True) f t j n

/-! ## The temperature of a layer (R275 to R277) -/

theorem le_maxInt {d x : Int} {l : List Int} (h : x ∈ l) : x ≤ maxInt d l := by
  fun_induction maxInt d l with
  | case1 => exact absurd h List.not_mem_nil
  | case2 y => exact (List.mem_singleton.mp h).le
  | case3 y l _ m hm ih =>
    rcases List.mem_cons.mp h with rfl | h
    · exact le_rfl
    · exact (ih h).trans hm
  | case4 y l _ m hm ih =>
    rcases List.mem_cons.mp h with rfl | h
    · exact (not_le.mp hm).le
    · exact ih h

theorem layerModel_le_layerTemp (s : State) (n : Nat) (r : StackReading) (l : Nat) :
    layerModel s n r l + guard15 s ≤ layerTemp s n r l := le_maxInt List.mem_cons_self

theorem neighbourEstimate_le_layerTemp {n l : Nat} {r : StackReading} {v : Int} (h : v ∈ neighbourEstimate s n r l) :
    15 * v ≤ layerTemp s n r l :=
  le_maxInt (List.mem_cons_of_mem _ (List.mem_map.mpr ⟨v, h, mul_comm v 15⟩))

/-! ## The stack after a tick (R258) -/

theorem updStack_congr {n : Nat} {f g : Stack → Stack} (h : f (getStack s n) = g (getStack s n)) :
    updStack s n f = updStack s n g :=
  congrArg (fun x => { s with stackTab := tabSet {} s.stackTab n x }) h

theorem stackBecomes_updStack (s : State) (n : Nat) (f : Stack → Stack) : StackBecomes s (updStack s n f) n (f (getStack s n)) :=
  ⟨rfl, fun _ hj => getStack_upd_other _ _ hj, getStack_upd_self _ _ _⟩

theorem stackBecomes_trans {s m t : State} {n : Nat} {x y : Stack} (h : StackBecomes s m n x) (g : StackBecomes m t n y) :
    StackBecomes s t n y := by
  obtain ⟨h1, h2, -⟩ := h
  obtain ⟨g1, g2, g3⟩ := g
  exact ⟨by rw [g1, h1], fun j hj => (g2 j hj).trans (h2 j hj), g3⟩

/-- A stack whose 16 layers have been evaluated. -/
def Stack.layersTicked (x : Stack) (s : State) (n : Nat) (r : StackReading) : Stack :=
  { x with layers := (List.range 16).foldl (fun t l => tabUpd {} t l (nextLayer s n r l)) x.layers }

/-- The alarm of a stack, and whether it is stopped for heat, by the temperatures of its layers. -/
def Stack.heatChecked (x : Stack) : Stack :=
  { x with
    alarm := !((List.range 16).filter (fun l => decide (1500000 < (tabGet {} x.layers l).temp15))).isEmpty
    stoppedHeat := (List.range 16).any (fun l => decide (1575000 ≤ (tabGet {} x.layers l).temp15)) ||
      (x.stoppedHeat && !(List.range 16).all (fun l => decide ((tabGet {} x.layers l).temp15 < 1425000))) }

/-- A stack after a tick. -/
def tickedStack (s : State) (n : Nat) (r : StackReading) : Stack := ((getStack s n).layersTicked s n r).heatChecked

/-- The state after a tick, its events not yet raised. -/
def stackTicked (s : State) (n : Nat) (r : StackReading) : State :=
  updStack (updStack s n (fun x => x.layersTicked s n r)) n Stack.heatChecked

theorem stackBecomes_stackTicked (s : State) (n : Nat) (r : StackReading) :
    StackBecomes s (stackTicked s n r) n (tickedStack s n r) := by
  have h := stackBecomes_trans (stackBecomes_updStack s n (fun x => x.layersTicked s n r))
    (stackBecomes_updStack _ n Stack.heatChecked)
  rwa [getStack_upd_self] at h

theorem layer_tickedStack (n : Nat) (r : StackReading) {l : Nat} (hl : l < 16) :
    tabGet {} (tickedStack s n r).layers l = nextLayer s n r l (tabGet {} (getStack s n).layers l) :=
  tabGet_foldl_upd _ _ hl

theorem heatChecked_alarm (x : Stack) :
    x.heatChecked.alarm = true ↔ ∃ l, l < 16 ∧ 1500000 < (tabGet {} x.layers l).temp15 := by
  simp only [Stack.heatChecked, Bool.not_eq_true', List.isEmpty_eq_false_iff_exists_mem, List.mem_filter, List.mem_range,
    decide_eq_true_eq]

theorem heatChecked_stops (x : Stack) (h : ∃ l, l < 16 ∧ 1575000 ≤ (tabGet {} x.layers l).temp15) :
    x.heatChecked.stoppedHeat = true := by
  simp only [Stack.heatChecked, Bool.or_eq_true, List.any_eq_true, List.mem_range, decide_eq_true_eq]
  exact .inl h

theorem heatChecked_serves (x : Stack) (h : ∀ l, l < 16 → (tabGet {} x.layers l).temp15 < 1425000) :
    x.heatChecked.stoppedHeat = false := by
  have hany : (List.range 16).any (fun l => decide (1575000 ≤ (tabGet {} x.layers l).temp15)) = false := by
    simp only [List.any_eq_false, List.mem_range, decide_eq_true_eq]
    intro l hl
    have := h l hl
    omega
  have hall : (List.range 16).all (fun l => decide ((tabGet {} x.layers l).temp15 < 1425000)) = true := by
    simpa only [List.all_eq_true, List.mem_range, decide_eq_true_eq]
  simp only [Stack.heatChecked, hany, hall, Bool.not_true, Bool.and_false, Bool.or_false]

/-! ## Layers that pass 100 °C (R258, R417) -/

/-- The layers that a tick finds above 100 °C and that were not. -/
def newlyHot (s : State) (n : Nat) (r : StackReading) : List Nat :=
  ((List.range 16).filter (fun l => decide (1500000 < (tabGet {} (tickedStack s n r).layers l).temp15))).filter
    (fun l => !(tabGet {} (getStack s n).layers l).alarm)

theorem mem_newlyHot {n l : Nat} {r : StackReading} : l ∈ newlyHot s n r ↔ l < 16 ∧
    (tabGet {} (tickedStack s n r).layers l).alarm = true ∧ (tabGet {} (getStack s n).layers l).alarm = false := by
  have halarm (hl : l < 16) : (tabGet {} (tickedStack s n r).layers l).alarm = true ↔
      1500000 < (tabGet {} (tickedStack s n r).layers l).temp15 := by
    rw [layer_tickedStack n r hl]
    exact decide_eq_true_iff
  simp only [newlyHot, List.mem_filter, List.mem_range, decide_eq_true_eq, Bool.not_eq_true', and_assoc]
  exact and_congr_right fun hl => and_congr_left fun _ => (halarm hl).symm

theorem layerTick_eq (s : State) (n : Nat) (r : StackReading) :
    layerTick s n r = (newlyHot s n r).foldl (layerAlarm n) (stackTicked s n r) := by
  have hlay : (getStack (updStack s n (fun x => x.layersTicked s n r)) n).layers = (tickedStack s n r).layers := by
    rw [getStack_upd_self]
    rfl
  unfold layerTick newlyHot
  rw [← hlay]
  exact congrArg (fun t => List.foldl (layerAlarm n) t _) (updStack_congr rfl)

/-- A wake by one source changes the wake record, the clock, domains and crossings. -/
theorem wakeModule_frame (s : State) (code : Nat) (returns : List Nat) : wakeModule s code [] returns =
    { s with
      io := (wakeModule s code [] returns).io
      tide := (wakeModule s code [] returns).tide
      domains := (wakeModule s code [] returns).domains
      crossings := (wakeModule s code [] returns).crossings } := by
  cases hw : s.io.asleep with
  | false => rw [wakeModule_awake hw]
  | true =>
    have h := wakeModule_asleep hw code returns
    generalize wakeModule s code [] returns = t at h ⊢
    rw [h]
    rfl

theorem layerAlarm_stackTab (n : Nat) (s : State) (l : Nat) : (layerAlarm n s l).stackTab = s.stackTab := by
  unfold layerAlarm
  rw [wakeModule_frame]
  rfl

theorem layerAlarm_mem (n : Nat) (s : State) (l : Nat) : (layerAlarm n s l).mem = s.mem := by
  unfold layerAlarm
  rw [wakeModule_frame]
  rfl

theorem layerAlarm_raises (n : Nat) (s : State) (l : Nat) : ∃ e, (layerAlarm n s l).faults.unlogged = s.faults.unlogged ++ [e] ∧
    e.code = 0x0602 ∧ e.site = stackSite n ∧ e.unit = l := by
  unfold layerAlarm
  rw [wakeModule_frame]
  obtain ⟨e, h1, h2, h3, h4, -⟩ := raise_unlogged s _
  exact ⟨e, h1, h2, h3, h4⟩

theorem layerAlarms_raise {n l : Nat} {ls : List Nat} (h : l ∈ ls) (s : State) :
    ∃ e ∈ (ls.foldl (layerAlarm n) s).faults.unlogged, e.code = 0x0602 ∧ e.site = stackSite n ∧ e.unit = l := by
  refine foldl_reaches (I := fun _ => True) (f := layerAlarm n) (x := l)
    (P := fun t => ∃ e ∈ t.faults.unlogged, e.code = 0x0602 ∧ e.site = stackSite n ∧ e.unit = l)
    (fun _ _ => id) (fun t y ⟨e, he, hp⟩ => ?_) (fun t _ => ?_) h trivial
  · obtain ⟨e', hu, -⟩ := layerAlarm_raises n t y
    exact ⟨e, by rw [hu]; exact List.mem_append_left _ he, hp⟩
  · obtain ⟨e, hu, hp⟩ := layerAlarm_raises n t l
    exact ⟨e, by rw [hu]; exact List.mem_append_right _ (List.mem_singleton_self e), hp⟩

theorem getStack_congr {t : State} (h : t.stackTab = s.stackTab) (n : Nat) : getStack t n = getStack s n := by
  unfold getStack
  rw [h]

theorem getStack_layerTick (s : State) (n : Nat) (r : StackReading) : getStack (layerTick s n r) n = tickedStack s n r := by
  obtain ⟨-, -, h⟩ := stackBecomes_stackTicked s n r
  rw [layerTick_eq, getStack_congr (foldl_keeps State.stackTab (layerAlarm_stackTab n) _ _), h]

theorem layerTick_mem (s : State) (n : Nat) (r : StackReading) : (layerTick s n r).mem = s.mem := by
  rw [layerTick_eq, foldl_keeps State.mem (layerAlarm_mem n)]
  rfl

theorem exec_layerModelTick {n : Nat} (r : StackReading) (hn : hasStack s n = true) :
    exec (.layerModelTick n r) s = .next (if released s 6 then layerTick s n r else s) := guarded_next.mpr ⟨hn, rfl⟩

/-! ## Suspect sensors (R277) -/

theorem exec_stackSensorSuspect {n : Nat} (x : Nat) (hn : hasStack s n = true) :
    exec (.stackSensorSuspect n x) s = .next (stackSensor s n x) := guarded_next.mpr ⟨hn, rfl⟩

/-- A stack whose layer sensor x has become suspect. -/
def Stack.suspects (k : Stack) (x : Nat) : Stack :=
  { k with layers := tabUpd {} k.layers (x / 4) (fun y => { y with suspect := insertNat (x % 4) y.suspect }) }

theorem mem_suspects (k : Stack) (x : Nat) : x % 4 ∈ (tabGet {} (k.suspects x).layers (x / 4)).suspect := by
  rw [Stack.suspects, tabGet_upd_self]
  exact mem_insertNat.mpr (.inl rfl)

theorem sensorEvent_raises (s : State) (site unit : Nat) (v : Int) :
    Raises s (sensorEvent s site unit v) (fun e => e.code = 0x0601 ∧ e.site = site ∧ e.unit = unit) := by
  obtain ⟨e, h1, h2, h3, h4, -⟩ := raise_unlogged s { code := 0x0601, site := site, unit := unit, arg := ofSigned 64 (v / 100) }
  exact ⟨raise_frame _ _, e, h1, h2, h3, h4⟩

theorem stackSensor_early {n x : Nat} {l : Layer} (hx : x < 64) (hl : l = tabGet {} (getStack s n).layers (x / 4))
    (h : tabGet 0 l.offSince (x % 4) = 0 ∨ now s + 1 < tabGet 0 l.offSince (x % 4) + 10000000) : stackSensor s n x = s := by
  subst hl
  unfold stackSensor
  rw [if_neg (by omega)]
  exact if_pos (or_assoc.mp (.inl h))

theorem stackSensor_suspects {n x : Nat} {l : Layer} (hx : x < 64) (hl : l = tabGet {} (getStack s n).layers (x / 4))
    (h0 : tabGet 0 l.offSince (x % 4) ≠ 0) (ht : tabGet 0 l.offSince (x % 4) + 10000000 ≤ now s + 1)
    (hs : l.suspect.contains (x % 4) = false) : Raises (updStack s n (fun k => k.suspects x)) (stackSensor s n x)
      (fun e => e.code = 0x0601 ∧ e.site = stackSite n ∧ e.unit = x) := by
  subst hl
  unfold stackSensor
  rw [if_neg (by omega)]
  dsimp only
  rw [if_neg (by rw [hs]; simp only [Bool.false_eq_true, or_false]; omega)]
  exact sensorEvent_raises (updStack s n (fun k => k.suspects x)) _ _ _

theorem stackSensor_base {n x : Nat} (h1 : 64 ≤ x) (h2 : x < 68) :
    stackSensor s n x = updStack s n (fun k => { k with baseSuspect := insertNat (x - 64) k.baseSuspect }) := by
  simp only [stackSensor, h1, h2, if_true]

theorem stackSensor_regulator {n x : Nat} (h : 68 ≤ x) :
    stackSensor s n x = updStack s n (fun k => { k with regSuspect := insertNat (x - 68) k.regSuspect }) := by
  simp only [stackSensor, show 64 ≤ x by omega, show ¬ x < 68 by omega, if_true, if_false]

/-! ## O48 -/

/-- The temperature, band, power and throttle of a layer after a tick (Table 08-3). -/
theorem layerTick_layer {n l : Nat} {r : StackReading} {z : Layer} (hl : l < 16)
    (hz : z = tabGet {} (tickedStack s n r).layers l) :
    layerModel s n r l + guard15 s ≤ z.temp15 ∧ (∀ v ∈ neighbourEstimate s n r l, 15 * v ≤ z.temp15) ∧
    z.band = refreshBand (tabGet {} (getStack s n).layers l).band z.temp15 ∧ z.power = r.powers.getD l 0 ∧
    z.throttle = (if 1500000 < z.temp15 then 25 else if z.band = 3 then 50 else 100) := by
  rw [layer_tickedStack n r hl] at hz
  subst hz
  exact ⟨layerModel_le_layerTemp s n r l, fun v hv => neighbourEstimate_le_layerTemp hv, rfl, rfl, rfl⟩

/-- The thresholds of Table 08-3. -/
theorem refreshBand_thresholds (b : Nat) (t : Int) : (1425000 < t → refreshBand b t = 3 ∨ 3 < b) ∧
    (t < 945000 → refreshBand b t = 0) ∧ (1395000 ≤ t → refreshBand 3 t = 3) ∧
    (t < 1395000 → 1245000 ≤ t → refreshBand 3 t = 2) := by
  unfold refreshBand
  refine ⟨fun h => .inl ?_, fun h => ?_, fun h => ?_, fun h1 h2 => ?_⟩ <;> dsimp only <;> split_ifs <;> omega

/-- A tick that no layer's alarm answers raises nothing. -/
theorem layerTick_quiet {n : Nat} {r : StackReading}
    (h : ∀ l, l < 16 → (tabGet {} (tickedStack s n r).layers l).alarm = true → (tabGet {} (getStack s n).layers l).alarm = true) :
    StackBecomes s (layerTick s n r) n (tickedStack s n r) := by
  have hnew : newlyHot s n r = [] := by
    refine List.eq_nil_iff_forall_not_mem.mpr fun l hl => ?_
    obtain ⟨hlt, hnow, hold⟩ := mem_newlyHot.mp hl
    rw [h l hlt hnow] at hold
    exact absurd hold (by decide)
  rw [layerTick_eq, hnew]
  exact stackBecomes_stackTicked s n r

/-- Settles O48: a tick is the evaluation of the layers, the check of their heat, and the alarms of those that pass 100 °C. -/
theorem stackTemperaturesAndStops : Obligations.StackTemperaturesAndStops := by
  unfold Obligations.StackTemperaturesAndStops
  refine ⟨fun s n r hn hr => ?_, fun s n r hn hr => ?_, refreshBand_thresholds, fun s n x l hn => ⟨fun hx hl => ⟨?_, ?_⟩, ?_, ?_⟩,
    fun s n k hn => ?_⟩
  · refine ⟨layerTick s n r, tickedStack s n r, by rw [exec_layerModelTick r hn, if_pos hr], getStack_layerTick s n r,
      layerTick_mem s n r, fun l z hl hz => layerTick_layer hl hz, heatChecked_alarm _,
      heatChecked_stops ((getStack s n).layersTicked s n r),
      heatChecked_serves ((getStack s n).layersTicked s n r),
      fun l hl => ?_, layerTick_quiet, fun l hl hnow hold => ?_⟩
    · rw [layer_tickedStack n r hl]
      exact decide_eq_true_iff
    · rw [layerTick_eq]
      exact layerAlarms_raise (mem_newlyHot.mpr ⟨hl, hnow, hold⟩) _
  · rw [exec_layerModelTick r hn, hr]
    rfl
  · intro h0 ht hs
    obtain ⟨hf, e, hu, he⟩ := stackSensor_suspects hx hl h0 ht hs
    have hk : (stackSensor s n x).stackTab = (updStack s n (fun k => k.suspects x)).stackTab := by rw [hf]
    refine ⟨_, e, exec_stackSensorSuspect x hn, by rw [hf]; rfl, ?_, hu, he⟩
    rw [getStack_congr hk, getStack_upd_self]
    exact mem_suspects _ x
  · intro h
    rw [exec_stackSensorSuspect x hn, stackSensor_early hx hl h]
  · intro h1 h2
    exact ⟨_, exec_stackSensorSuspect x hn, by rw [stackSensor_base h1 h2]; exact stackBecomes_updStack _ _ _⟩
  · intro h
    exact ⟨_, exec_stackSensorSuspect x hn, by rw [stackSensor_regulator h]; exact stackBecomes_updStack _ _ _⟩
  · obtain ⟨e, h1, h2, h3, h4, -⟩ := raise_unlogged (updStack s n (fun x => { x with stoppedRail := true }))
      { code := 0x0602, site := stackSite n, unit := k, part := partField s (nearBerth n) }
    exact ⟨_, _, guarded_next.mpr ⟨hn, rfl⟩, stackBecomes_updStack _ _ _, raise_frame _ _, e, h1, h2, h3, h4⟩

end Sys2Proof.Machine
end

section
/-! SUPPORT. Refresh, scrubbing and row buffers: what a change of one channel leaves, the corrections that a scrub and a copy count,
and what each part of a refresh gap keeps. -/

namespace Sys2Proof.Machine

variable {s : State}

/-! ## A change of one channel -/

theorem getChannel_congr {t : State} (h : t.stackTab = s.stackTab) (n c : Nat) : getChannel t n c = getChannel s n c := by
  unfold getChannel
  rw [getStack_congr h]

@[simp] theorem getChannel_upd_self (s : State) (n c : Nat) (f : StackChannel → StackChannel) :
    getChannel (updChannel s n c f) n c = f (getChannel s n c) := by
  unfold getChannel updChannel
  rw [getStack_upd_self]
  exact tabGet_upd_self _ _ _ _

theorem getChannel_upd_other {n c j : Nat} (f : StackChannel → StackChannel) (h : j ≠ c) :
    getChannel (updChannel s n c f) n j = getChannel s n j := by
  unfold getChannel updChannel
  rw [getStack_upd_self]
  exact tabGet_upd_other _ _ h

theorem getBundle_congr {t : State} (h : t.stackTab = s.stackTab) (n k : Nat) : getBundle t n k = getBundle s n k := by
  unfold getBundle
  rw [getStack_congr h]

/-- A change of a stack that keeps its channels. -/
theorem getChannel_updStack {n : Nat} {f : Stack → Stack} (hf : ∀ x, (f x).channels = x.channels) (i c : Nat) :
    getChannel (updStack s n f) i c = getChannel s i c := by
  unfold getChannel
  by_cases hi : i = n
  · subst hi
    rw [getStack_upd_self, hf]
  · rw [getStack_upd_other _ _ hi]

/-- A change of a stack that keeps its bundles. -/
theorem getBundle_updStack {n : Nat} {f : Stack → Stack} (hf : ∀ x, (f x).bundles = x.bundles) (k : Nat) :
    getBundle (updStack s n f) n k = getBundle s n k := by
  unfold getBundle
  rw [getStack_upd_self, hf]

theorem getBundle_updBundle (s : State) (n k j : Nat) (f : Bundle → Bundle) :
    getBundle (updBundle s n k f) n j = if j = k then f (getBundle s n k) else getBundle s n j := by
  unfold getBundle updBundle
  rw [getStack_upd_self]
  exact tabGet_upd {} (getStack s n).bundles j k f

/-- `t` is `s` with one channel changed to the given record. -/
def ChannelBecomes (s t : State) (n c : Nat) (x : StackChannel) : Prop :=
  t = { s with stackTab := t.stackTab } ∧ (∀ j, j ≠ n → getStack t j = getStack s j) ∧
  (∀ j, j ≠ c → getChannel t n j = getChannel s n j) ∧ getChannel t n c = x

theorem channelBecomes_updChannel (s : State) (n c : Nat) (f : StackChannel → StackChannel) :
    ChannelBecomes s (updChannel s n c f) n c (f (getChannel s n c)) :=
  ⟨rfl, fun _ hj => getStack_upd_other _ _ hj, fun _ hj => getChannel_upd_other f hj, getChannel_upd_self s n c f⟩

theorem getChannel_countTransient (s : State) (k n c : Nat) : getChannel (countTransient s k) n c = getChannel s n c := rfl
theorem getChannel_retire (s : State) (k : Nat) (r : Retirement) (n c : Nat) :
    getChannel (retire s k r) n c = getChannel s n c := rfl
theorem getChannel_raise (s : State) (e : FaultEv) (n c : Nat) : getChannel (raise s e) n c = getChannel s n c := rfl

/-! ## Commands of a channel -/

theorem exec_refreshOperation {n : Nat} (c k : Nat) (hn : hasStack s n = true) :
    exec (.refreshOperation n c k) s = .next (if channelWorks s n c then
      updChannel s n c (fun x => { x with
        refreshes := tabUpd 0 x.refreshes k (· + 1)
        bankBand := tabSet 0 x.bankBand k (tabGet {} (getStack s n).layers c).band })
      else s) := guarded_next.mpr ⟨hn, rfl⟩

theorem exec_refreshGap {n : Nat} (c : Nat) (l : List Nat) (o : GapSeen) (hn : hasStack s n = true) :
    exec (.refreshGap n c l o) s = .next (refreshGap s n c l o) := guarded_next.mpr ⟨hn, rfl⟩

theorem exec_scrub {n : Nat} (c k : Nat) (found : List ScrubFinding) (hn : hasStack s n = true) :
    exec (.scrub n c k found) s = .next (if channelWorks s n c && !stackQuiet s n then found.foldl (scrubOne n c k) s else s) :=
  guarded_next.mpr ⟨hn, rfl⟩

theorem exec_rowBufferWriteback {n : Nat} (c k r : Nat) (hn : hasStack s n = true) :
    exec (.rowBufferWriteback n c k r) s = .next (if stackQuiet s n then s else
      updChannel s n c (fun x => { x with buffers := mapIf (fun b => b.1 == k * 262144 + r) (fun b => (b.1, none)) x.buffers })) :=
  guarded_next.mpr ⟨hn, rfl⟩

/-- A refresh operation of a channel that serves (R255). -/
theorem refreshOperation_row {n : Nat} (c k : Nat) (hn : hasStack s n = true) (hw : channelWorks s n c = true) :
    ∃ t y, exec (.refreshOperation n c k) s = .next t ∧ t = { s with stackTab := t.stackTab } ∧
      (∀ j, j ≠ n → getStack t j = getStack s j) ∧ (∀ j, j ≠ c → getChannel t n j = getChannel s n j) ∧
      getChannel t n c = { getChannel s n c with refreshes := y, bankBand := (getChannel t n c).bankBand } ∧
      tabGet 0 y k = tabGet 0 (getChannel s n c).refreshes k + 1 ∧
      tabGet 0 (getChannel t n c).bankBand k = (tabGet {} (getStack s n).layers c).band ∧
      (∀ j, j ≠ k → tabGet 0 y j = tabGet 0 (getChannel s n c).refreshes j ∧
        tabGet 0 (getChannel t n c).bankBand j = tabGet 0 (getChannel s n c).bankBand j) := by
  obtain ⟨h1, h2, h3, h4⟩ := channelBecomes_updChannel s n c (fun x => { x with
    refreshes := tabUpd 0 x.refreshes k (· + 1)
    bankBand := tabSet 0 x.bankBand k (tabGet {} (getStack s n).layers c).band })
  refine ⟨_, tabUpd 0 (getChannel s n c).refreshes k (· + 1), by rw [exec_refreshOperation c k hn, if_pos hw], h1, h2, h3,
    by rw [h4], tabGet_upd_self _ _ _ _, by rw [h4]; exact tabGet_set_self _ _ _ _, fun j hj => ⟨tabGet_upd_other _ _ hj, ?_⟩⟩
  rw [h4]
  exact tabGet_set_other _ _ hj

/-! ## Corrections (R252, R260, R374) -/

/-- How often a step that counts some elements of a list counts along it. -/
theorem foldl_counts {α : Type} (p : State → Nat) (q : α → Bool) {f : State → α → State}
    (h : ∀ t x, p (f t x) = p t + if q x then 1 else 0) (l : List α) (t : State) :
    p (l.foldl f t) = p t + (l.filter q).length := by
  induction l generalizing t with
  | nil => rfl
  | cons x l ih =>
    rw [List.foldl_cons, ih, h]
    cases hx : q x <;> simp [hx]; omega

theorem crossingsOnly_countEvents (s : State) (a b n : Nat) : CrossingsOnly s (countEvents s a b n) := by
  unfold countEvents
  dsimp only
  split <;> rfl

/-- A channel but for its counts of corrections and what they make suspect. -/
def StackChannel.butCounts (x : StackChannel) : StackChannel :=
  { x with corrections := 0, connCorrections := [], recent := [], suspectConn := [] }

theorem correct_butCounts (x : StackChannel) (t conn row : Nat) : (x.correct t conn row).butCounts = x.butCounts := by
  unfold StackChannel.correct
  dsimp only
  split <;> rfl

theorem correct_corrections (x : StackChannel) (t conn row : Nat) : (x.correct t conn row).corrections = x.corrections + 1 := by
  unfold StackChannel.correct
  dsimp only
  split <;> rfl

theorem correct_repairWait (x : StackChannel) (t conn row : Nat) : (x.correct t conn row).repairWait = x.repairWait := by
  have h := congrArg StackChannel.repairWait (correct_butCounts x t conn row)
  exact h

theorem correct_cellMarks (x : StackChannel) (t conn row : Nat) : (x.correct t conn row).cellMarks = x.cellMarks := by
  have h := congrArg StackChannel.cellMarks (correct_butCounts x t conn row)
  exact h

theorem correctChannel_stackTab (s : State) (n c conn row : Nat) :
    (correctChannel s n c conn row).stackTab = (updChannel s n c (fun x => x.correct (now s) conn row)).stackTab := by
  unfold correctChannel
  rw [crossingsOnly_countEvents]

theorem getChannel_correctChannel (s : State) (n c conn row : Nat) :
    getChannel (correctChannel s n c conn row) n c = (getChannel s n c).correct (now s) conn row := by
  rw [getChannel_congr (correctChannel_stackTab s n c conn row), getChannel_upd_self]

/-- What scrubbing stack n changes: the stack, crossings and sites. -/
def ScrubFrame (n : Nat) (s t : State) : Prop :=
  t = { s with stackTab := t.stackTab, sites := t.sites, crossings := t.crossings } ∧ ∀ j, j ≠ n → getStack t j = getStack s j

theorem ScrubFrame.refl (n : Nat) (s : State) : ScrubFrame n s s := ⟨rfl, fun _ _ => rfl⟩
theorem ScrubFrame.trans {n : Nat} {s t u : State} (h : ScrubFrame n s t) (g : ScrubFrame n t u) : ScrubFrame n s u := by
  obtain ⟨h1, h2⟩ := h
  obtain ⟨g1, g2⟩ := g
  exact ⟨by rw [g1, h1], fun j hj => (g2 j hj).trans (h2 j hj)⟩

theorem scrubFrame_updChannel (s : State) (n c : Nat) (f : StackChannel → StackChannel) : ScrubFrame n s (updChannel s n c f) :=
  ⟨rfl, fun _ hj => getStack_upd_other _ _ hj⟩

theorem scrubFrame_correctChannel (s : State) (n c conn row : Nat) : ScrubFrame n s (correctChannel s n c conn row) := by
  refine (scrubFrame_updChannel s n c _).trans ⟨?_, fun j _ => getStack_congr (correctChannel_stackTab s n c conn row) j⟩
  unfold correctChannel
  rw [crossingsOnly_countEvents]

/-! ## SCRUB (R254) -/

/-- Where a finding lies: its connection, and its row in the channel. -/
def connFound (f : ScrubFinding) : Nat := connectionOf f.sector f.symbol f.bit
def rowFound (bank : Nat) (f : ScrubFinding) : Nat := bank * 262144 + f.row

theorem scrubOne_permanent {f : ScrubFinding} (h : f.permanent = true) (s : State) (n c k : Nat) : scrubOne n c k s f =
    correctChannel (updChannel s n c (fun x => { x with
      cellMarks := addNew (connFound f, rowFound k f) x.cellMarks
      repairWait := addNew (rowFound k f) x.repairWait })) n c (connFound f) (rowFound k f) := if_pos h

theorem scrubOne_transient {f : ScrubFinding} (h : f.permanent = false) (s : State) (n c k : Nat) : scrubOne n c k s f =
    countTransient (correctChannel s n c (connFound f) (rowFound k f)) (stackSite n) := if_neg (by simp [h])

theorem scrubFrame_scrubOne (n c k : Nat) (s : State) (f : ScrubFinding) : ScrubFrame n s (scrubOne n c k s f) := by
  cases h : f.permanent with
  | true =>
    rw [scrubOne_permanent h]
    exact (scrubFrame_updChannel s n c _).trans (scrubFrame_correctChannel _ n c _ _)
  | false =>
    rw [scrubOne_transient h]
    exact (scrubFrame_correctChannel s n c _ _).trans ⟨rfl, fun _ _ => rfl⟩

theorem scrubOne_corrections (n c k : Nat) (s : State) (f : ScrubFinding) :
    (getChannel (scrubOne n c k s f) n c).corrections = (getChannel s n c).corrections + 1 := by
  cases h : f.permanent with
  | true => rw [scrubOne_permanent h, getChannel_correctChannel, correct_corrections, getChannel_upd_self]
  | false =>
    rw [scrubOne_transient h, getChannel_countTransient, getChannel_correctChannel, correct_corrections]

theorem correctChannel_sites (s : State) (n c conn row : Nat) : (correctChannel s n c conn row).sites = s.sites := by
  unfold correctChannel
  rw [crossingsOnly_countEvents]
  rfl

theorem getSite_congr {t : State} (h : t.sites = s.sites) (k : Nat) : getSite t k = getSite s k := by
  unfold getSite
  rw [h]

theorem scrubOne_transients (n c k : Nat) (s : State) (f : ScrubFinding) :
    (getSite (scrubOne n c k s f) (stackSite n)).transients =
      (getSite s (stackSite n)).transients + if !f.permanent then 1 else 0 := by
  cases h : f.permanent with
  | true =>
    rw [scrubOne_permanent h, getSite_congr (correctChannel_sites _ n c _ _)]
    rfl
  | false =>
    rw [scrubOne_transient h, countTransient, getSite_upd_self, getSite_congr (correctChannel_sites s n c _ _)]
    rfl

/-- A finding is marked: its row waits for repair, and its connection has a cell error there. -/
def Marked (n c row conn : Nat) (t : State) : Prop :=
  row ∈ (getChannel t n c).repairWait ∧ (conn, row) ∈ (getChannel t n c).cellMarks

theorem mem_addNew_of_mem {α : Type} [DecidableEq α] {x y : α} {l : List α} (h : y ∈ l) : y ∈ addNew x l := by
  unfold addNew
  split
  · exact h
  · exact List.mem_append_left _ h

theorem marked_correctChannel {n c row conn : Nat} {t : State} (h : Marked n c row conn t) (a b : Nat) :
    Marked n c row conn (correctChannel t n c a b) := by
  unfold Marked
  rwa [getChannel_correctChannel, correct_repairWait, correct_cellMarks]

theorem marked_scrubOne_self {f : ScrubFinding} (h : f.permanent = true) (t : State) (n c k : Nat) :
    Marked n c (rowFound k f) (connFound f) (scrubOne n c k t f) := by
  rw [scrubOne_permanent h]
  refine marked_correctChannel ?_ _ _
  unfold Marked
  rw [getChannel_upd_self]
  exact ⟨mem_addNew _ _, mem_addNew _ _⟩

theorem marked_scrubOne {n c row conn : Nat} {t : State} (hm : Marked n c row conn t) (k : Nat) (f : ScrubFinding) :
    Marked n c row conn (scrubOne n c k t f) := by
  cases h : f.permanent with
  | true =>
    rw [scrubOne_permanent h]
    refine marked_correctChannel ?_ _ _
    unfold Marked at hm ⊢
    rw [getChannel_upd_self]
    exact ⟨mem_addNew_of_mem hm.1, mem_addNew_of_mem hm.2⟩
  | false =>
    rw [scrubOne_transient h]
    exact marked_correctChannel hm _ _

theorem marked_scrub {f : ScrubFinding} {found : List ScrubFinding} (h : f ∈ found) (hp : f.permanent = true) (s : State)
    (n c k : Nat) : Marked n c (rowFound k f) (connFound f) (found.foldl (scrubOne n c k) s) :=
  foldl_reaches (I := fun _ => True) (P := Marked n c (rowFound k f) (connFound f)) (fun _ _ => id)
    (fun _ y hm => marked_scrubOne hm k y) (fun t _ => marked_scrubOne_self hp t n c k) h trivial

/-- What a scrub leaves. -/
theorem scrub_row (s : State) (n c k : Nat) (found : List ScrubFinding) : ∃ t, t = found.foldl (scrubOne n c k) s ∧
    t = { s with stackTab := t.stackTab, sites := t.sites, crossings := t.crossings } ∧
    (getChannel t n c).corrections = (getChannel s n c).corrections + found.length ∧
    (getSite t (stackSite n)).transients = (getSite s (stackSite n)).transients +
      (found.filter (fun f => !f.permanent)).length ∧
    (∀ f ∈ found, f.permanent = true → k * 262144 + f.row ∈ (getChannel t n c).repairWait ∧
      (connectionOf f.sector f.symbol f.bit, k * 262144 + f.row) ∈ (getChannel t n c).cellMarks) ∧
    (∀ j, j ≠ n → getStack t j = getStack s j) := by
  obtain ⟨hf, ho⟩ := foldl_rel (R := ScrubFrame n) (.refl n) .trans (scrubFrame_scrubOne n c k) found s
  refine ⟨_, rfl, hf, ?_, ?_, fun f hf hp => marked_scrub hf hp s n c k, ho⟩
  · have h := foldl_counts (fun t => (getChannel t n c).corrections) (fun _ : ScrubFinding => true)
      (scrubOne_corrections n c k) found s
    rwa [List.filter_true] at h
  · exact foldl_counts (fun t => (getSite t (stackSite n)).transients) (fun f : ScrubFinding => !f.permanent)
      (scrubOne_transients n c k) found s

/-! ## Connection tests in a gap (R260, R261) -/

/-- A part of a refresh gap of a channel leaves memory, the lanes removed from the stack's bundles, and what `p` reads of the
channel. -/
def GapKeeps {β : Type} (n c : Nat) (p : StackChannel → β) (s t : State) : Prop :=
  t.mem = s.mem ∧ (∀ k, k < 10 → (getBundle t n k).removed = (getBundle s n k).removed) ∧
  p (getChannel t n c) = p (getChannel s n c)

variable {n c : Nat}

theorem GapKeeps.refl {β : Type} {p : StackChannel → β} (s : State) : GapKeeps n c p s s := ⟨rfl, fun _ _ => rfl, rfl⟩
theorem GapKeeps.trans {β : Type} {p : StackChannel → β} {s t u : State} (h : GapKeeps n c p s t) (g : GapKeeps n c p t u) :
    GapKeeps n c p s u := by
  obtain ⟨h1, h2, h3⟩ := h
  obtain ⟨g1, g2, g3⟩ := g
  exact ⟨g1.trans h1, fun k hk => (g2 k hk).trans (h2 k hk), g3.trans h3⟩

theorem GapKeeps.map {β γ : Type} {p : StackChannel → β} {t : State} (r : β → γ) (h : GapKeeps n c p s t) :
    GapKeeps n c (fun x => r (p x)) s t := by
  obtain ⟨h1, h2, h3⟩ := h
  exact ⟨h1, h2, congrArg r h3⟩

theorem gapKeeps_updChannel {β : Type} {p : StackChannel → β} {f : StackChannel → StackChannel} (hf : ∀ x, p (f x) = p x)
    (s : State) : GapKeeps n c p s (updChannel s n c f) := by
  refine ⟨rfl, fun k _ => ?_, ?_⟩
  · rw [updChannel, getBundle_updStack]
    exact fun _ => rfl
  · rw [getChannel_upd_self, hf]

theorem gapKeeps_updStack {β : Type} {p : StackChannel → β} {f : Stack → Stack} (hb : ∀ x, (f x).bundles = x.bundles)
    (hc : ∀ x, (f x).channels = x.channels) (s : State) : GapKeeps n c p s (updStack s n f) :=
  ⟨rfl, fun k _ => by rw [getBundle_updStack hb], by rw [getChannel_updStack hc]⟩

theorem gapKeeps_of_stackTab {β : Type} {p : StackChannel → β} {t : State} (hm : t.mem = s.mem) (h : t.stackTab = s.stackTab) :
    GapKeeps n c p s t :=
  ⟨hm, fun k _ => by rw [getBundle_congr h], by rw [getChannel_congr h]⟩

/-- A channel but for the state of its connections. -/
def StackChannel.butConns (x : StackChannel) : StackChannel :=
  { x with state := .inService, evacuating := false, freeConn := 0, spared := [], retiredConn := [] }

/-- A channel but for the spare rows it has used and its cell errors. -/
def StackChannel.butRows (x : StackChannel) : StackChannel := { x with rowsUsed := [], cellMarks := [] }

theorem gapKeeps_degradeChannel (s : State) : GapKeeps n c StackChannel.butConns s (degradeChannel s n c) := by
  unfold degradeChannel
  dsimp only
  split
  · refine (gapKeeps_updChannel (f := fun x => { x with state := .degraded, evacuating := true }) (fun _ => rfl) s).trans ?_
    refine (gapKeeps_updStack (f := fun k => { k with evac := addNew c k.evac }) (fun _ => rfl) (fun _ => rfl) _).trans ?_
    exact gapKeeps_of_stackTab rfl rfl
  · exact .refl s

/-- A connection of a channel with f free spares is retired. -/
def retireConn (s : State) (n c k : Nat) : State :=
  retire (updChannel s n c (fun x => { x with
      freeConn := (getChannel s n c).freeConn - 1
      spared := insertNat k x.spared
      retiredConn := insertNat k x.retiredConn })) (stackSite n) ⟨1, 0x0105, n, c, k⟩

theorem spareConnection_eq (s : State) (n c k : Nat) : spareConnection s n c k =
    if 0 < (getChannel s n c).freeConn then
      raise (retireConn s n c k) (channelEvent 0x0105 2 n c ((getChannel s n c).freeConn - 1) s)
    else degradeChannel (retireConn s n c k) n c := rfl

theorem gapKeeps_retireConn (s : State) (k : Nat) : GapKeeps n c StackChannel.butConns s (retireConn s n c k) :=
  (gapKeeps_updChannel (f := fun x => { x with
      freeConn := (getChannel s n c).freeConn - 1
      spared := insertNat k x.spared
      retiredConn := insertNat k x.retiredConn }) (fun _ => rfl) s).trans (gapKeeps_of_stackTab rfl rfl)

theorem gapKeeps_spareConnection (s : State) (k : Nat) : GapKeeps n c StackChannel.butConns s (spareConnection s n c k) := by
  rw [spareConnection_eq]
  refine (gapKeeps_retireConn s k).trans ?_
  split
  · exact gapKeeps_of_stackTab rfl rfl
  · exact gapKeeps_degradeChannel _

/-- A connection that fails its loopback while a spare is free (R260). -/
theorem spareConnection_row {k : Nat} (h : 0 < (getChannel s n c).freeConn) :
    (getChannel (spareConnection s n c k) n c).freeConn + 1 = (getChannel s n c).freeConn ∧
    k ∈ (getChannel (spareConnection s n c k) n c).spared ∧
    ∃ e, (spareConnection s n c k).faults.unlogged = s.faults.unlogged ++ [e] ∧ e.code = 0x0105 ∧ e.outcome = 2 ∧
      e.site = stackSite n ∧ e.unit = c ∧ e.arg = (getChannel s n c).freeConn - 1 := by
  rw [spareConnection_eq, if_pos h, getChannel_raise, retireConn, getChannel_retire, getChannel_upd_self]
  refine ⟨Nat.sub_add_cancel h, mem_insertNat.mpr (.inl rfl), ?_⟩
  obtain ⟨e, h1, h2, h3, h4, h5, h6, -⟩ := raise_unlogged (retireConn s n c k)
    (channelEvent 0x0105 2 n c ((getChannel s n c).freeConn - 1) s)
  exact ⟨e, h1, h2, h6, h3, h4, h5⟩

/-- A channel whose suspect connections are being tested. -/
def suspectsTaken (s : State) (n c : Nat) : State := updChannel s n c (fun x => { x with suspectConn := [] })

theorem gapKeeps_testConnections (s : State) (pass : List Nat) :
    GapKeeps n c StackChannel.butConns (suspectsTaken s n c) (testConnections s n c pass) := by
  unfold testConnections
  refine foldl_rel GapKeeps.refl GapKeeps.trans (fun t k => ?_) _ _
  split
  · exact gapKeeps_of_stackTab rfl rfl
  · exact gapKeeps_spareConnection t k

/-- A single suspect connection that fails its loopback while a spare is free. -/
theorem testConnections_one {k : Nat} {l : List Nat} {x : StackChannel} (hx : x = getChannel s n c) (hk : x.suspectConn = [k])
    (hl : l.contains k = false) (hfree : 0 < x.freeConn) :
    (getChannel (testConnections s n c l) n c).freeConn + 1 = x.freeConn ∧
    k ∈ (getChannel (testConnections s n c l) n c).spared ∧
    ∃ e, (testConnections s n c l).faults.unlogged = s.faults.unlogged ++ [e] ∧ e.code = 0x0105 ∧ e.outcome = 2 ∧
      e.site = stackSite n ∧ e.unit = c ∧ e.arg = x.freeConn - 1 := by
  have hone : testConnections s n c l = spareConnection (suspectsTaken s n c) n c k := by
    unfold testConnections
    rw [← hx, hk]
    exact if_neg (by rw [hl]; decide)
  have hf : (getChannel (suspectsTaken s n c) n c).freeConn = x.freeConn := by
    rw [suspectsTaken, getChannel_upd_self, hx]
  rw [hone, ← hf]
  exact spareConnection_row (hf ▸ hfree)

/-! ## Row repairs (R252, R263) -/

theorem gapKeeps_correctChannel (s : State) (a b : Nat) : GapKeeps n c StackChannel.butCounts s (correctChannel s n c a b) := by
  refine (gapKeeps_updChannel (fun x => correct_butCounts x (now s) a b) s).trans
    (gapKeeps_of_stackTab ?_ (correctChannel_stackTab s n c a b))
  unfold correctChannel
  rw [crossingsOnly_countEvents]

theorem gapKeeps_countFixes (s : State) (l : List CopyFix) : GapKeeps n c StackChannel.butCounts s (countFixes s n c l) :=
  foldl_rel GapKeeps.refl GapKeeps.trans (fun t _ => gapKeeps_correctChannel t _ _) l s

theorem countFixes_corrections (s : State) (n c : Nat) (l : List CopyFix) :
    (getChannel (countFixes s n c l) n c).corrections = (getChannel s n c).corrections + l.length := by
  have h := foldl_counts (fun t => (getChannel t n c).corrections) (fun _ : CopyFix => true)
    (f := fun t f => correctChannel t n c (connectionOf f.sector f.symbol f.bit) (f.bank * 262144 + f.row))
    (fun t f => by rw [getChannel_correctChannel, correct_corrections]; rfl) l s
  rwa [List.filter_true] at h

theorem correctChannel_faults (s : State) (n c a b : Nat) : (correctChannel s n c a b).faults = s.faults := by
  unfold correctChannel
  rw [crossingsOnly_countEvents]
  rfl

theorem countFixes_faults (s : State) (n c : Nat) (l : List CopyFix) : (countFixes s n c l).faults = s.faults :=
  foldl_keeps State.faults (fun t _ => correctChannel_faults t n c _ _) l s

theorem gapKeeps_repairRow (s : State) (r : Nat) : GapKeeps n c StackChannel.butRows s (repairRow s n c r) := by
  unfold repairRow
  dsimp only
  split
  · refine (gapKeeps_updChannel (f := fun x => { x with
      rowsUsed := tabUpd 0 x.rowsUsed (r / 262144) (· + 1)
      cellMarks := x.cellMarks.filter (fun m => m.2 != r) }) (fun _ => rfl) s).trans ?_
    exact gapKeeps_of_stackTab rfl rfl
  · split <;> exact gapKeeps_of_stackTab rfl rfl

theorem repairRow_faults (s : State) (n c r : Nat) : (repairRow s n c r).faults = s.faults := by
  unfold repairRow
  dsimp only
  split
  · rfl
  · split <;> rfl

theorem repairRow_uses {r : Nat} (h : tabGet 0 (getChannel s n c).rowsUsed (r / 262144) < 32) :
    tabGet 0 (getChannel (repairRow s n c r) n c).rowsUsed (r / 262144) =
      tabGet 0 (getChannel s n c).rowsUsed (r / 262144) + 1 := by
  unfold repairRow
  dsimp only
  rw [if_pos h, getChannel_retire, getChannel_upd_self]
  exact tabGet_upd_self 0 (getChannel s n c).rowsUsed (r / 262144) (· + 1)

/-- The corrections that the copies of the rows waiting for repair made. -/
def rowsCounted (s : State) (n c : Nat) (fixed : List CopyFix) : State :=
  countFixes s n c (fixed.filter (fun f => (getChannel s n c).repairWait.contains (f.bank * 262144 + f.row)))

/-- A channel whose rows are being repaired. -/
def rowsTaken (s : State) (n c : Nat) (fixed : List CopyFix) : State :=
  updChannel (rowsCounted s n c fixed) n c (fun x => { x with repairWait := [] })

theorem repairRows_eq (s : State) (n c : Nat) (fixed : List CopyFix) : repairRows s n c fixed =
    (getChannel s n c).repairWait.foldl (fun t r => repairRow t n c r) (rowsTaken s n c fixed) := rfl

theorem gapKeeps_repairRows (s : State) (fixed : List CopyFix) :
    GapKeeps n c StackChannel.butRows (rowsTaken s n c fixed) (repairRows s n c fixed) :=
  foldl_rel GapKeeps.refl GapKeeps.trans (fun t r => gapKeeps_repairRow t r) _ _

theorem repairRows_faults (s : State) (n c : Nat) (fixed : List CopyFix) : (repairRows s n c fixed).faults = s.faults := by
  rw [repairRows_eq, foldl_keeps State.faults (fun t r => repairRow_faults t n c r)]
  exact countFixes_faults s n c _

/-! ## Near lanes (R306, R450, R455) -/

/-- One bundle of a near link in a gap. -/
def gapLane (n : Nat) (pass : List Nat) (t : State) (k : Nat) : State :=
  updBundle ((getBundle t n k).testWait.foldl (fun u l =>
      if pass.contains (34 * k + l) then countTransient u (stackSite n)
      else retire u (stackSite n) ⟨1, 0x0104, n, k, l⟩) t) n k (fun b => b.gap (fun l => pass.contains (34 * k + l)))

theorem gapLanes_eq (s : State) (n : Nat) (pass : List Nat) : gapLanes s n pass = (List.range 10).foldl (gapLane n pass) s := rfl

/-- What a test of a lane may change: counts of its site, and the lifetime records. -/
def LaneTest (s t : State) : Prop := t = { s with sites := t.sites, recovery := t.recovery }

theorem LaneTest.refl (s : State) : LaneTest s s := rfl
theorem LaneTest.trans {s t u : State} (h : LaneTest s t) (g : LaneTest t u) : LaneTest s u := by
  unfold LaneTest at *
  rw [g, h]

/-- The lane tests of one bundle. -/
theorem gapLane_tested (n : Nat) (pass : List Nat) (t : State) (k : Nat) : ∃ u, LaneTest t u ∧
    gapLane n pass t k = updBundle u n k (fun b => b.gap (fun l => pass.contains (34 * k + l))) := by
  refine ⟨_, ?_, rfl⟩
  refine foldl_rel LaneTest.refl LaneTest.trans (fun u l => ?_) _ _
  split <;> rfl

theorem getBundle_gapLane (n : Nat) (pass : List Nat) (t : State) (k j : Nat) : getBundle (gapLane n pass t k) n j =
    if k = j then (getBundle t n j).gap (fun l => pass.contains (34 * j + l)) else getBundle t n j := by
  obtain ⟨u, hu, h⟩ := gapLane_tested n pass t k
  have hb (i : Nat) : getBundle u n i = getBundle t n i :=
    getBundle_congr (by rw [hu]) n i
  rw [h, getBundle_updBundle, hb, hb]
  split
  · next e => rw [if_pos e.symm, e]
  · next e => rw [if_neg fun e' => e e'.symm]

theorem gapLane_mem (n : Nat) (pass : List Nat) (t : State) (k : Nat) : (gapLane n pass t k).mem = t.mem := by
  obtain ⟨u, hu, h⟩ := gapLane_tested n pass t k
  rw [h, hu]
  rfl

theorem gapLane_faults (n : Nat) (pass : List Nat) (t : State) (k : Nat) : (gapLane n pass t k).faults = t.faults := by
  obtain ⟨u, hu, h⟩ := gapLane_tested n pass t k
  rw [h, hu]
  rfl

theorem getChannel_gapLane (n : Nat) (pass : List Nat) (t : State) (k c : Nat) :
    getChannel (gapLane n pass t k) n c = getChannel t n c := by
  obtain ⟨u, hu, h⟩ := gapLane_tested n pass t k
  rw [h, updBundle, getChannel_updStack]
  · exact getChannel_congr (by rw [hu]) n c
  · exact fun _ => rfl

/-- The lanes of a bundle in a gap (R306). -/
theorem getBundle_gapLanes (s : State) (n : Nat) (pass : List Nat) {j : Nat} (hj : j < 10) :
    getBundle (gapLanes s n pass) n j = (getBundle s n j).gap (fun l => pass.contains (34 * j + l)) := by
  rw [gapLanes_eq, foldl_once (fun t => getBundle t n j) (fun b => b.gap (fun l => pass.contains (34 * j + l))) j
    (fun t y => getBundle_gapLane n pass t y j) List.nodup_range s, if_pos (List.mem_range.mpr hj)]

theorem gapLanes_mem (s : State) (n : Nat) (pass : List Nat) : (gapLanes s n pass).mem = s.mem :=
  foldl_keeps State.mem (gapLane_mem n pass) _ s

theorem gapLanes_faults (s : State) (n : Nat) (pass : List Nat) : (gapLanes s n pass).faults = s.faults :=
  foldl_keeps State.faults (gapLane_faults n pass) _ s

theorem getChannel_gapLanes (s : State) (n c : Nat) (pass : List Nat) : getChannel (gapLanes s n pass) n c = getChannel s n c :=
  foldl_keeps (fun t => getChannel t n c) (fun t k => getChannel_gapLane n pass t k c) _ s

/-- A lane whose measured eye is below 0.25 UI. -/
def eyeNarrow (s : State) (k l : Nat) : Bool := decide ((Config.eyeWidth s.fresh (34 * k + l)).toNat < 64)

/-- A bundle with some lanes that are to leave it. -/
def Bundle.narrowed (b : Bundle) (p : Nat → Bool) : Bundle :=
  { b with leaving := (b.active.filter p).foldl (fun l x => insertNat x l) b.leaving }

/-- A stack whose trims have taken effect at a temperature: lanes whose eye is narrow are to leave its bundles. -/
def Stack.trimmed (x : Stack) (v : Int) (p : Nat → Nat → Bool) : Stack :=
  { x with
    trimTemp := v
    trimWait := none
    bundles := (List.range 10).foldl (fun m k => tabUpd {} m k (fun b => b.narrowed (p k))) x.bundles }

theorem trimmed_removed (x : Stack) (v : Int) (p : Nat → Nat → Bool) {k : Nat} (hk : k < 10) :
    (tabGet {} (x.trimmed v p).bundles k).removed = (tabGet {} x.bundles k).removed := by
  unfold Stack.trimmed
  rw [tabGet_foldl_upd (fun k (b : Bundle) => b.narrowed (p k)) x.bundles hk]
  rfl

theorem trimmed_channels (x : Stack) (v : Int) (p : Nat → Nat → Bool) : (x.trimmed v p).channels = x.channels := by
  simp only [Stack.trimmed]

theorem trimNear_none (h : (getStack s n).trimWait = none) : trimNear s n = s := by
  unfold trimNear
  rw [h]

theorem trimNear_some {v : Int} (h : (getStack s n).trimWait = some v) :
    trimNear s n = nextFresh (updStack s n (fun x => x.trimmed v (eyeNarrow s))) := by
  unfold trimNear
  rw [h]
  rfl

theorem getBundle_nextFresh (s : State) (n k : Nat) : getBundle (nextFresh s) n k = getBundle s n k := rfl
theorem getChannel_nextFresh (s : State) (n c : Nat) : getChannel (nextFresh s) n c = getChannel s n c := rfl

/-- Trims change no channel, and of the bundles only which lanes are to leave. -/
theorem gapKeeps_trimNear (s : State) : GapKeeps n c id s (trimNear s n) := by
  cases h : (getStack s n).trimWait with
  | none =>
    rw [trimNear_none h]
    exact .refl s
  | some v =>
    rw [trimNear_some h]
    refine ⟨rfl, fun k hk => ?_, ?_⟩
    · rw [getBundle_nextFresh]
      unfold getBundle
      rw [getStack_upd_self]
      exact trimmed_removed (getStack s n) v (eyeNarrow s) hk
    · rw [getChannel_nextFresh, getChannel_updStack fun x => trimmed_channels x v (eyeNarrow s)]

theorem trimNear_faults (s : State) (n : Nat) : (trimNear s n).faults = s.faults := by
  unfold trimNear
  split <;> rfl

/-! ## REFRESH_GAP -/

/-- A gap of a channel is counted, and the strobe setting that waited takes effect. -/
def StackChannel.beginGap (x : StackChannel) : StackChannel :=
  { x with gaps := x.gaps + 1, strobeTemp := x.strobeWait.getD x.strobeTemp, strobeWait := none }

theorem refreshGap_serves (hw : channelWorks s n c = true) (hq : stackQuiet s n = false) (l : List Nat) (o : GapSeen) :
    refreshGap s n c l o =
      gapLanes (repairRows (testConnections (trimNear (updChannel s n c StackChannel.beginGap) n) n c l) n c o.fixed) n
        o.lanesPass := by
  unfold refreshGap
  rw [if_neg (by simp [hq]), if_pos hw]
  rfl

theorem refreshGap_quiet (hw : channelWorks s n c = true) (hq : stackQuiet s n = true) (l : List Nat) (o : GapSeen) :
    refreshGap s n c l o = updChannel s n c (fun x => { x with gaps := x.gaps + 1 }) := by
  unfold refreshGap
  exact if_pos (by simp [hw, hq])

theorem refreshGap_off (hw : channelWorks s n c = false) (l : List Nat) (o : GapSeen) : refreshGap s n c l o = s := by
  unfold refreshGap
  rw [if_neg (by simp [hw]), if_neg (by simp [hw])]

/-- The channel after its connection tests. -/
theorem testConnections_channel (s : State) (l : List Nat) {x y : StackChannel} (hx : x = getChannel s n c)
    (hy : y = getChannel (testConnections s n c l) n c) :
    y.suspectConn = [] ∧ y.corrections = x.corrections ∧ y.repairWait = x.repairWait ∧ y.rowsUsed = x.rowsUsed := by
  obtain ⟨-, -, h⟩ := gapKeeps_testConnections (n := n) (c := c) s l
  rw [suspectsTaken, getChannel_upd_self, ← hx, ← hy] at h
  exact ⟨(congrArg StackChannel.suspectConn h :), (congrArg StackChannel.corrections h :),
    (congrArg StackChannel.repairWait h :), (congrArg StackChannel.rowsUsed h :)⟩

theorem gapKeeps_rowsCounted (s : State) (fixed : List CopyFix) :
    GapKeeps n c StackChannel.butCounts s (rowsCounted s n c fixed) := gapKeeps_countFixes s _

/-- The channel after its row repairs. -/
theorem repairRows_channel (s : State) (fixed : List CopyFix) {x y : StackChannel} (hx : x = getChannel s n c)
    (hy : y = getChannel (repairRows s n c fixed) n c) :
    y.repairWait = [] ∧ y.freeConn = x.freeConn ∧ y.spared = x.spared ∧ (fixed = [] → y.suspectConn = x.suspectConn) ∧
    y.corrections = x.corrections + (fixed.filter (fun f => x.repairWait.contains (f.bank * 262144 + f.row))).length := by
  obtain ⟨-, -, h⟩ := gapKeeps_repairRows (n := n) (c := c) s fixed
  obtain ⟨-, -, g⟩ := gapKeeps_rowsCounted (n := n) (c := c) s fixed
  have hcount : (getChannel (rowsCounted s n c fixed) n c).corrections = _ := countFixes_corrections s n c _
  rw [rowsTaken, getChannel_upd_self, ← hy] at h
  rw [← hx] at g hcount
  refine ⟨(congrArg StackChannel.repairWait h :), (congrArg StackChannel.freeConn h).trans (congrArg StackChannel.freeConn g :),
    (congrArg StackChannel.spared h).trans (congrArg StackChannel.spared g :), fun hn => ?_,
    (congrArg StackChannel.corrections h).trans hcount⟩
  have hs : rowsCounted s n c fixed = s := by rw [hn]; rfl
  rw [hs, ← hx] at h
  exact (congrArg StackChannel.suspectConn h :)

/-- A single row that waits takes a spare row of its bank. -/
theorem repairRows_one (fixed : List CopyFix) {r : Nat} (hr : (getChannel s n c).repairWait = [r])
    (h : tabGet 0 (getChannel s n c).rowsUsed (r / 262144) < 32) :
    tabGet 0 (getChannel (repairRows s n c fixed) n c).rowsUsed (r / 262144) =
      tabGet 0 (getChannel s n c).rowsUsed (r / 262144) + 1 := by
  obtain ⟨-, -, g⟩ := gapKeeps_rowsCounted (n := n) (c := c) s fixed
  have hu : (getChannel (rowsTaken s n c fixed) n c).rowsUsed = (getChannel s n c).rowsUsed := by
    rw [rowsTaken, getChannel_upd_self]
    exact (congrArg StackChannel.rowsUsed g :)
  rw [repairRows_eq, hr, List.foldl_cons, List.foldl_nil, repairRow_uses (by rwa [hu]), hu]

/-- What only the start of a gap changes. -/
def StackChannel.begun (x : StackChannel) : Nat × Option Int := (x.gaps, x.strobeWait)

theorem gapKeeps_tested (s : State) (l : List Nat) : GapKeeps n c StackChannel.begun s (testConnections s n c l) :=
  (gapKeeps_updChannel (f := fun x => { x with suspectConn := [] }) (fun _ => rfl) s).trans
    ((gapKeeps_testConnections s l).map StackChannel.begun)

theorem gapKeeps_repaired (s : State) (fixed : List CopyFix) : GapKeeps n c StackChannel.begun s (repairRows s n c fixed) :=
  ((gapKeeps_countFixes s _).map StackChannel.begun).trans
    ((gapKeeps_updChannel (f := fun x => { x with repairWait := [] }) (fun _ => rfl) _).trans
      ((gapKeeps_repairRows s fixed).map StackChannel.begun))

/-- A gap of a channel that serves: it begins (`g`), the trims take effect (`a`), then the connection tests (`b`) and the row repairs
(`d`); the lanes come last. -/
theorem refreshGap_row (l : List Nat) (o : GapSeen) (hw : channelWorks s n c = true) (hq : stackQuiet s n = false)
    {x : StackChannel} (hx : x = getChannel s n c) : ∃ t, t = refreshGap s n c l o ∧ t.mem = s.mem ∧
      (getChannel t n c).gaps = x.gaps + 1 ∧ (o.fixed = [] → (getChannel t n c).suspectConn = []) ∧
      (getChannel t n c).corrections = x.corrections +
        (o.fixed.filter (fun f => x.repairWait.contains (f.bank * 262144 + f.row))).length ∧ (getChannel t n c).repairWait = [] ∧
      (getChannel t n c).strobeWait = none ∧
      (∀ j, j < 10 → (getBundle t n j).testWait = (getBundle s n j).removed ∧ (getBundle t n j).removed = []) ∧
      (∀ k, x.suspectConn = [k] → l.contains k = false → 0 < x.freeConn →
        (getChannel t n c).freeConn + 1 = x.freeConn ∧ k ∈ (getChannel t n c).spared ∧
        ∃ e, t.faults.unlogged = s.faults.unlogged ++ [e] ∧ e.code = 0x0105 ∧ e.outcome = 2 ∧ e.site = stackSite n ∧
          e.unit = c ∧ e.arg = x.freeConn - 1) ∧
      (∀ r, x.repairWait = [r] → tabGet 0 x.rowsUsed (r / 262144) < 32 →
        tabGet 0 (getChannel t n c).rowsUsed (r / 262144) = tabGet 0 x.rowsUsed (r / 262144) + 1) := by
  obtain ⟨g, hg⟩ : ∃ g, g = updChannel s n c StackChannel.beginGap := ⟨_, rfl⟩
  obtain ⟨a, ha⟩ : ∃ a, a = trimNear g n := ⟨_, rfl⟩
  obtain ⟨b, hb⟩ : ∃ b, b = testConnections a n c l := ⟨_, rfl⟩
  obtain ⟨d, hd⟩ : ∃ d, d = repairRows b n c o.fixed := ⟨_, rfl⟩
  have hgc : getChannel g n c = x.beginGap := by rw [hg, getChannel_upd_self, hx]
  have htrim : GapKeeps n c id g a := ha ▸ gapKeeps_trimNear g
  have hkeep : GapKeeps n c StackChannel.begun g d := (htrim.map StackChannel.begun).trans
    (.trans (hb ▸ gapKeeps_tested a l) (hd ▸ gapKeeps_repaired b o.fixed))
  obtain ⟨-, -, hag⟩ := htrim
  have hac : getChannel a n c = x.beginGap := hag.trans hgc
  obtain ⟨hbs, hbc, hbw, hbu⟩ := testConnections_channel a l hac.symm (y := getChannel b n c) (by rw [hb])
  obtain ⟨hdw, hdf, hds, hdn, hdc⟩ := repairRows_channel b o.fixed rfl (y := getChannel d n c) (by rw [hd])
  obtain ⟨hm, hrem, hp⟩ := hkeep
  rw [hgc] at hp
  refine ⟨gapLanes d n o.lanesPass, by rw [refreshGap_serves hw hq, hd, hb, ha, hg], ?_⟩
  rw [gapLanes_mem, gapLanes_faults, getChannel_gapLanes]
  refine ⟨hm.trans (by rw [hg]; rfl), congrArg Prod.fst hp, fun ho => (hdn ho).trans hbs, ?_, hdw, congrArg Prod.snd hp,
    fun j hj => ?_, fun k hk hl hfree => ?_, fun r hr hu => ?_⟩
  · rw [hdc, hbc, hbw]
    rfl
  · rw [getBundle_gapLanes d n o.lanesPass hj]
    refine ⟨(hrem j hj).trans ?_, rfl⟩
    rw [hg, updChannel, getBundle_updStack]
    exact fun _ => rfl
  · obtain ⟨h1, h2, h3⟩ := testConnections_one hac.symm hk hl hfree
    have hd' : d.faults = b.faults := by rw [hd, repairRows_faults]
    have ha' : a.faults = s.faults := by rw [ha, trimNear_faults, hg, updChannel_faults]
    rw [hdf, hds, hd', hb, ← ha']
    exact ⟨h1, h2, h3⟩
  · rw [hd, repairRows_one o.fixed (hbw.trans hr) (by rw [hbu]; exact hu), hbu]
    rfl

/-! ## O46 -/

/-- Settles O46: each command is one change of its channel, a count along its findings, or the parts of a gap in turn. -/
theorem refreshScrubAndRowBuffers : Obligations.RefreshScrubAndRowBuffers := by
  unfold Obligations.RefreshScrubAndRowBuffers
  refine ⟨fun s n c x hn hx hw => ⟨fun k => ?_, fun hq => ⟨fun k found => ?_, fun k r => ?_, fun l o => ?_⟩, fun k found hq => ?_,
    fun l o hq => ?_⟩, fun s n c k r x hn hx hq => ?_, fun s n c k l o f hn hw => ⟨?_, ?_, ?_⟩⟩
  · rw [hx]
    exact refreshOperation_row c k hn hw
  · rw [exec_scrub c k found hn, if_neg (by simp [hq])]
  · rw [exec_rowBufferWriteback k c r hn, if_pos hq]
  · rw [exec_refreshGap c l o hn, refreshGap_quiet hw hq, hx]
    exact ⟨_, rfl, channelBecomes_updChannel s n c _⟩
  · obtain ⟨t, ht, hrow⟩ := scrub_row s n c k found
    rw [exec_scrub c k found hn, if_pos (by simp [hw, hq]), hx]
    exact ⟨t, congrArg _ ht.symm, hrow⟩
  · obtain ⟨t, ht, hrow⟩ := refreshGap_row l o hw hq hx
    exact ⟨t, by rw [exec_refreshGap c l o hn, ht], hrow⟩
  · rw [exec_rowBufferWriteback c k r hn, if_neg (by simp [hq]), hx]
    refine ⟨_, rfl, ?_⟩
    have h := channelBecomes_updChannel s n c (fun x => { x with
      buffers := mapIf (fun b => b.1 == k * 262144 + r) (fun b => (b.1, none)) x.buffers })
    simpa only [ChannelBecomes, mapIf, beq_iff_eq] using h
  · rw [exec_refreshOperation c k hn, if_neg (by simp [hw])]
  · rw [exec_scrub c k f hn, if_neg (by simp [hw])]
  · rw [exec_refreshGap c l o hn, refreshGap_off hw]

end Sys2Proof.Machine
end

section
/-! SUPPORT. Segments that move: layers that are switched off, what the end of an evacuation keeps, the copy of a segment and its
record, and a pool without a free slot. -/

namespace Sys2Proof.Machine

variable {s : State}

/-! ## Layers that are switched off (R261, R269, R271) -/

/-- A retired range of a channel still returns its data. -/
def rangeInUse (s : State) (n c : Nat) : Bool := s.pool.ranges.any (fun r => !r.closed && homeOfKey s r.key == (n, c))

theorem rangeInUse_false (n c : Nat) :
    rangeInUse s n c = false ↔ ∀ r ∈ s.pool.ranges, r.closed = false → homeOfKey s r.key ≠ (n, c) := by
  simp [rangeInUse]

/-- The layers of a stack, those of retired channels without a range in use switched off. -/
def Stack.layersSwitched (k : Stack) (s : State) (n : Nat) : Tab Layer :=
  (List.range 16).foldl (fun t c =>
    if (tabGet {} k.channels c).state = .retired ∧ rangeInUse s n c = false then tabUpd {} t c (fun l => { l with off := true })
    else t) k.layers

/-- A stack with these layers. -/
def Stack.switched (k : Stack) (s : State) (n : Nat) : Stack := { k with layers := k.layersSwitched s n }

theorem switched_default (s : State) (n : Nat) : Stack.switched {} s n = {} := by
  have h : ∀ c, (tabGet ({} : StackChannel) [] c).state ≠ .retired :=
    fun _ => (by decide : ChannelState.inService ≠ .retired)
  simp [Stack.switched, Stack.layersSwitched, h]

theorem getStack_switchLayers (s : State) (n : Nat) : getStack (switchLayers s) n = (getStack s n).switched s n :=
  tabGet_map (f := fun n k => Stack.switched k s n) (switched_default s) s.stackTab n

theorem switched_channels (k : Stack) (s : State) (n : Nat) : (k.switched s n).channels = k.channels := by
  simp only [Stack.switched]

theorem switched_move (k : Stack) (s : State) (n : Nat) : (k.switched s n).move = k.move := by
  simp only [Stack.switched]

theorem switched_off (k : Stack) (s : State) (n : Nat) {c : Nat} (hc : c < 16) :
    (tabGet {} (k.switched s n).layers c).off = true ↔ (tabGet {} k.layers c).off = true ∨
      ((tabGet {} k.channels c).state = .retired ∧ rangeInUse s n c = false) := by
  rw [Stack.switched, Stack.layersSwitched, tabGet_foldl_updIf
    (fun c => (tabGet {} k.channels c).state = .retired ∧ rangeInUse s n c = false) (fun _ (l : Layer) => { l with off := true })]
  by_cases h : (tabGet {} k.channels c).state = .retired ∧ rangeInUse s n c = false
  · rw [if_pos ⟨hc, h⟩]
    exact iff_of_true rfl (.inr h)
  · rw [if_neg fun e => h e.2]
    exact (or_iff_left h).symm

/-! ## What the end of an evacuation keeps (R261, R269, R465) -/

/-- Memory, moves, remap entries and keys stay; retired ranges, records and events are only added. -/
def Evacuates (s t : State) : Prop :=
  t.mem = s.mem ∧ t.pool = { s.pool with ranges := t.pool.ranges } ∧ (∀ i, (getStack t i).move = (getStack s i).move) ∧
  s.pool.ranges ⊆ t.pool.ranges ∧ s.recovery.lifetime ⊆ t.recovery.lifetime ∧ s.faults.unlogged ⊆ t.faults.unlogged

theorem Evacuates.refl (s : State) : Evacuates s s := ⟨rfl, rfl, fun _ => rfl, fun _ => id, fun _ => id, fun _ => id⟩
theorem Evacuates.trans {s t u : State} (h : Evacuates s t) (g : Evacuates t u) : Evacuates s u := by
  obtain ⟨h1, h2, h3, h4, h5, h6⟩ := h
  obtain ⟨g1, g2, g3, g4, g5, g6⟩ := g
  exact ⟨g1.trans h1, by rw [g2, h2], fun i => (g3 i).trans (h3 i), List.Subset.trans h4 g4, List.Subset.trans h5 g5,
    List.Subset.trans h6 g6⟩

theorem evacuates_updStack {f : Stack → Stack} (hf : ∀ x, (f x).move = x.move) (s : State) (n : Nat) :
    Evacuates s (updStack s n f) := by
  refine ⟨rfl, rfl, fun i => ?_, fun _ => id, fun _ => id, fun _ => id⟩
  by_cases hi : i = n
  · subst hi
    rw [getStack_upd_self, hf]
  · rw [getStack_upd_other _ _ hi]

theorem evacuates_updChannel (s : State) (n c : Nat) (f : StackChannel → StackChannel) : Evacuates s (updChannel s n c f) :=
  evacuates_updStack (f := fun k => { k with channels := tabUpd {} k.channels c f }) (fun _ => rfl) s n

theorem evacuates_switchLayers (s : State) : Evacuates s (switchLayers s) :=
  ⟨rfl, rfl, fun i => by rw [getStack_switchLayers, switched_move], fun _ => id, fun _ => id, fun _ => id⟩

theorem evacuates_retire (s : State) (k : Nat) (r : Retirement) : Evacuates s (retire s k r) :=
  ⟨rfl, rfl, fun _ => rfl, fun _ => id, List.subset_append_left _ _, fun _ => id⟩

theorem evacuates_raise (s : State) (e : FaultEv) : Evacuates s (raise s e) := by
  obtain ⟨x, hx, -⟩ := raise_unlogged s e
  exact ⟨rfl, rfl, fun _ => rfl, fun _ => id, fun _ => id, by rw [hx]; exact List.subset_append_left _ _⟩

theorem evacuates_retireRange (s : State) (k : SegKey) : Evacuates s (retireRange s k) := by
  unfold retireRange
  split
  · exact .refl s
  · refine .trans ?_ ((evacuates_retire _ _ _).trans (evacuates_raise _ _))
    exact ⟨rfl, rfl, fun _ => rfl, List.subset_append_left _ _, fun _ => id, fun _ => id⟩

theorem evacuates_retireChannel (s : State) (n c : Nat) : Evacuates s (retireChannel s n c) :=
  (evacuates_updChannel s n c (fun x => { x with state := .retired, evacuating := false })).trans
    ((evacuates_updStack (f := fun k => { k with evac := k.evac.filter (· != c) }) (fun _ => rfl) _ n).trans
      ((evacuates_switchLayers _).trans ((evacuates_retire _ _ _).trans (evacuates_raise _ _))))

theorem evacuates_retireRanges (l : List SegKey) (s : State) : Evacuates s (l.foldl retireRange s) :=
  foldl_rel Evacuates.refl Evacuates.trans evacuates_retireRange l s

theorem evacuates_settleLoss (s : State) (n : Nat) : Evacuates s (settleLoss s n) := by
  unfold settleLoss
  dsimp only
  split
  · exact evacuates_retireRanges _ s
  · exact .refl s

theorem evacuates_evacuationEnd (s : State) (n : Nat) : Evacuates s (evacuationEnd s n) := by
  unfold evacuationEnd
  refine .trans ?_ (evacuates_settleLoss _ n)
  split
  · split
    · exact evacuates_retireChannel s n _
    · exact .refl s
  · exact .refl s

/-! ## SEGMENT_MOVE_START (R264 to R269) -/

/-- A segment is a retired range. -/
def Ranged (k : SegKey) (t : State) : Prop := ∃ r ∈ t.pool.ranges, r.key = k

theorem Evacuates.ranged {s t : State} {k : SegKey} (h : Evacuates s t) (hk : Ranged k s) : Ranged k t := by
  obtain ⟨-, -, -, hr, -⟩ := h
  obtain ⟨r, hm, he⟩ := hk
  exact ⟨r, hr hm, he⟩

theorem ranged_retireRange (s : State) (k : SegKey) : Ranged k (retireRange s k) := by
  unfold retireRange
  split
  · next h =>
    obtain ⟨r, hr, hk⟩ := List.any_eq_true.mp h
    exact ⟨r, hr, of_decide_eq_true hk⟩
  · exact ⟨_, List.mem_append_right _ (List.mem_singleton_self _), rfl⟩

/-- The wants of the segments of a list are dropped. -/
def wantsDropped (s : State) (l : List SegKey) : State :=
  { s with pool := { s.pool with wanted := s.pool.wanted.filter (fun x => !l.contains x) } }

theorem poolExhausted_row (s : State) (k : SegKey) : ∃ t, t = poolExhausted s k ∧ t.mem = s.mem ∧
    (∀ j ∈ keysOfChannel s (homeOfKey s k).1 (homeOfKey s k).2,
      (∃ r ∈ t.pool.ranges, r.key = j) ∧ t.pool.wanted.contains j = false) := by
  obtain ⟨l, hl⟩ : ∃ l, l = keysOfChannel s (homeOfKey s k).1 (homeOfKey s k).2 := ⟨_, rfl⟩
  have hend := evacuates_evacuationEnd (l.foldl retireRange (wantsDropped s l)) (homeOfKey s k).1
  obtain ⟨hmem, hpool, -⟩ := (evacuates_retireRanges l (wantsDropped s l)).trans hend
  refine ⟨_, rfl, ?_⟩
  rw [show poolExhausted s k = evacuationEnd (l.foldl retireRange (wantsDropped s l)) (homeOfKey s k).1 by rw [hl]; rfl, ← hl]
  refine ⟨hmem, fun j hj => ⟨hend.ranged ?_, ?_⟩⟩
  · exact foldl_reaches (I := fun _ => True) (P := Ranged j) (fun _ _ => id) (fun t y => (evacuates_retireRange t y).ranged)
      (fun t _ => ranged_retireRange t j) hj trivial
  · rw [hpool]
    simp [wantsDropped, hj]

theorem segmentMoveStart_idle {k : SegKey} (h : mayMove s k = false ∨ (getStack s (stackOfKey s k)).move ≠ none) :
    segmentMoveStart s k = s := by
  unfold segmentMoveStart
  refine if_pos ?_
  rcases h with h | h
  · simp [h]
  · simp [Option.isSome_iff_ne_none.mpr h]

theorem segmentMoveStart_none {k : SegKey} (h : mayMove s k = true) (hm : (getStack s (stackOfKey s k)).move = none)
    (hc : chooseSlot s k.stack = none) : segmentMoveStart s k = poolExhausted s k := by
  simp [segmentMoveStart, h, hm, hc]

/-- The move of a segment to a slot has begun. -/
def moveBegun (s : State) (k : SegKey) (slot : Nat) : State :=
  updStack { s with pool := { s.pool with moving := addNew k s.pool.moving } } (stackOfKey s k)
    (fun x => { x with move := some { key := k, slot := slot, began := now s } })

theorem segmentMoveStart_some {k : SegKey} {slot : Nat} (h : mayMove s k = true)
    (hm : (getStack s (stackOfKey s k)).move = none) (hc : chooseSlot s k.stack = some slot) :
    segmentMoveStart s k = moveBegun s k slot := by
  simp [segmentMoveStart, h, hm, hc, moveBegun]

/-! ## SEGMENT_HOLD_ACK and SEGMENT_COPY_DONE (R265, R266) -/

theorem updMove_of_moveOf {k : SegKey} {m : Move} (h : moveOf s k = some m) (f : Move → Move) :
    updMove s k f = updStack s (stackOfKey s k) (fun x => { x with move := some (f m) }) := by
  unfold updMove
  rw [h]

theorem exec_segmentHoldAck {k : SegKey} {src : Nat} (hn : hasStack s k.stack = true) (hs : hasSite s src = true) :
    exec (.segmentHoldAck k src) s =
      .next (if openTo s k src then s else updMove s k (fun m => { m with acks := insertNat src m.acks })) :=
  guarded_next.mpr ⟨by rw [hn, hs]; rfl, rfl⟩

/-- A sector of a segment that could not be corrected is poisoned (R266). -/
def poisonSector (k : SegKey) (t : State) (i : Nat) : State :=
  setPoison (writeBytes t (sectorOfKey t k i) (List.replicate 64 0xFF#8)) (sectorOfKey t k i / 64) true

/-- The copy of a segment is done, its corrections counted. -/
def segmentCopied (s : State) (k : SegKey) (o : CopySeen) : State :=
  countFixes (updMove s k (fun x => { x with copied := true, bad := o.bad })) (stackOfKey s k) (homeOfKey s k).2 o.fixed

theorem segmentCopyDone_eq {k : SegKey} {m : Move} (h : moveOf s k = some m) (o : CopySeen) : segmentCopyDone s k o =
    if (remapSites s).all (fun x => m.acks.contains x) && !m.copied && !stackQuiet s (stackOfKey s k) &&
      !stackQuiet s (m.slot / 256) then o.bad.foldl (poisonSector k) (segmentCopied s k o) else s := by
  unfold segmentCopyDone
  rw [h]
  rfl

theorem segmentCopyDone_waits {k : SegKey} {m : Move} (h : moveOf s k = some m) (o : CopySeen)
    (hw : (∃ x ∈ remapSites s, x ∉ m.acks) ∨ stackQuiet s (stackOfKey s k) = true ∨ stackQuiet s (m.slot / 256) = true) :
    segmentCopyDone s k o = s := by
  rw [segmentCopyDone_eq h]
  refine if_neg ?_
  simp only [Bool.and_eq_true, List.all_eq_true, List.contains_iff_mem, Bool.not_eq_true']
  rintro ⟨⟨⟨hall, -⟩, hq⟩, hq'⟩
  rcases hw with ⟨x, hx, hn⟩ | hw | hw
  · exact hn (hall x hx)
  · rw [hw] at hq
    exact absurd hq (by decide)
  · rw [hw] at hq'
    exact absurd hq' (by decide)

theorem segmentCopyDone_copies {k : SegKey} {m : Move} (h : moveOf s k = some m) (o : CopySeen) (hc : m.copied = false)
    (hall : ∀ x ∈ remapSites s, x ∈ m.acks) (hq : stackQuiet s (stackOfKey s k) = false)
    (hq' : stackQuiet s (m.slot / 256) = false) :
    segmentCopyDone s k o = o.bad.foldl (poisonSector k) (segmentCopied s k o) := by
  rw [segmentCopyDone_eq h]
  exact if_pos (by simpa [hc, hq, hq'] using hall)

/-- Only memory changes. -/
def MemOnly (s t : State) : Prop := t = { s with mem := t.mem }

theorem MemOnly.refl (s : State) : MemOnly s s := rfl
theorem MemOnly.trans {s t u : State} (h : MemOnly s t) (g : MemOnly t u) : MemOnly s u := by
  unfold MemOnly at *
  rw [g, h]

theorem memOnly_writeBytes (s : State) (a : Nat) (bs : List Byte) : MemOnly s (writeBytes s a bs) := rfl
theorem memOnly_setPoison (s : State) (k : Nat) (v : Bool) : MemOnly s (setPoison s k v) := rfl

theorem memOnly_poisonSector (k : SegKey) (t : State) (i : Nat) : MemOnly t (poisonSector k t i) :=
  (memOnly_writeBytes t _ _).trans (memOnly_setPoison _ _ _)

theorem MemOnly.sectorOfKey {s t : State} (h : MemOnly s t) (k : SegKey) (i : Nat) : sectorOfKey t k i = sectorOfKey s k i := by
  rw [h]
  rfl

theorem sectorPoisoned_writeBytes (s : State) (a : Nat) (bs : List Byte) (j : Nat) :
    sectorPoisoned (writeBytes s a bs) j = sectorPoisoned s j := rfl

theorem sectorPoisoned_setPoison (s : State) (k : Nat) (v : Bool) (j : Nat) :
    sectorPoisoned (setPoison s k v) j = if j = k then v else sectorPoisoned s j := tabGet_set false v s.mem.poison j k

theorem sectorPoisoned_poisonSector (k : SegKey) (t : State) (i j : Nat) : sectorPoisoned (poisonSector k t i) j =
    if j = sectorOfKey t k i / 64 then true else sectorPoisoned t j := by
  rw [poisonSector, sectorPoisoned_setPoison, sectorPoisoned_writeBytes]

/-- Every sector that could not be corrected is poisoned. -/
theorem sectorPoisoned_poisonSectors {k : SegKey} {i : Nat} {bad : List Nat} (h : i ∈ bad) (u : State) :
    sectorPoisoned (bad.foldl (poisonSector k) u) (sectorOfKey u k i / 64) = true := by
  refine foldl_reaches (I := MemOnly u) (P := fun t => sectorPoisoned t (sectorOfKey u k i / 64) = true)
    (fun t y ht => ht.trans (memOnly_poisonSector k t y)) (fun t y ht => ?_) (fun t ht => ?_) h (.refl u)
  · rw [sectorPoisoned_poisonSector, ht, ite_self]
  · rw [sectorPoisoned_poisonSector, ht.sectorOfKey, if_pos rfl]

theorem correctChannel_move (s : State) (n c a b i : Nat) :
    (getStack (correctChannel s n c a b) i).move = (getStack s i).move := by
  obtain ⟨-, -, hm, -⟩ := evacuates_updChannel s n c (fun x => x.correct (now s) a b)
  rw [getStack_congr (correctChannel_stackTab s n c a b), hm]

theorem countFixes_move (s : State) (n c : Nat) (l : List CopyFix) (i : Nat) :
    (getStack (countFixes s n c l) i).move = (getStack s i).move :=
  foldl_keeps (fun t => (getStack t i).move) (fun t _ => correctChannel_move t n c _ _ i) l s

theorem scrubFrame_countFixes (s : State) (n c : Nat) (l : List CopyFix) : ScrubFrame n s (countFixes s n c l) :=
  foldl_rel (.refl n) .trans (fun t _ => scrubFrame_correctChannel t n c _ _) l s

/-- What is left of a state once a segment's copy is done. -/
theorem segmentCopied_row {k : SegKey} {m : Move} (h : moveOf s k = some m) (o : CopySeen) : ∃ u, u = segmentCopied s k o ∧
    u = { s with stackTab := u.stackTab, sites := u.sites, crossings := u.crossings } ∧
    (getStack u (stackOfKey s k)).move = some { m with copied := true, bad := o.bad } ∧
    (getChannel u (stackOfKey s k) (homeOfKey s k).2).corrections =
      (getChannel s (stackOfKey s k) (homeOfKey s k).2).corrections + o.fixed.length := by
  refine ⟨_, rfl, ?_, ?_, ?_⟩
  all_goals unfold segmentCopied; rw [updMove_of_moveOf h]
  · obtain ⟨hf, -⟩ := scrubFrame_countFixes (updStack s (stackOfKey s k)
      (fun x => { x with move := some { m with copied := true, bad := o.bad } })) (stackOfKey s k) (homeOfKey s k).2 o.fixed
    exact hf
  · rw [countFixes_move, getStack_upd_self]
  · rw [countFixes_corrections, getChannel_updStack]
    exact fun _ => rfl

/-! ## SEGMENT_RECORDED (R265, Table 08-4) -/

theorem exec_segmentRecorded {k : SegKey} (hn : hasStack s k.stack = true) :
    exec (.segmentRecorded k) s = .next (segmentRecorded s k) := guarded_next.mpr ⟨hn, rfl⟩

theorem segmentRecorded_waits {k : SegKey} {m : Move} (h : moveOf s k = some m) (hc : m.copied = false) :
    segmentRecorded s k = s := by
  simp [segmentRecorded, h, hc]

/-- A move has ended, and is in the lifetime records. -/
def moveEnded (s : State) (k : SegKey) (m : Move) : State :=
  retire (updStack s (stackOfKey s k) (fun x => { x with move := none })) (stackSite k.stack) ⟨1, 0x0304, keyNat k, m.slot, 0⟩

/-- The record of a move: its remap entry is in force, and its segment is marked no more. -/
def moveRecorded (s : State) (k : SegKey) (m : Move) : State :=
  { moveEnded s k m with
    pool := { (moveEnded s k m).pool with
      remap := tabSet none (moveEnded s k m).pool.remap (keyNat k) (some m.slot)
      moving := (moveEnded s k m).pool.moving.filter (fun x => decide (x ≠ k))
      wanted := (moveEnded s k m).pool.wanted.filter (fun x => decide (x ≠ k)) } }

theorem segmentRecorded_copied {k : SegKey} {m : Move} (h : moveOf s k = some m) (hc : m.copied = true) : segmentRecorded s k =
    evacuationEnd (raise (releaseSegment (moveRecorded s k m) k) (channelEvent 0x0304 2 k.stack k.channel m.slot s))
      (stackOfKey s k) := by
  unfold segmentRecorded
  rw [h]
  exact if_pos hc

theorem issueFrame_issueHeld (s : State) (o : OutReq) (swell : Bool) : IssueFrame s (issueHeld s o swell) := by
  unfold issueHeld
  extract_lets dst y x
  cases issueMeets s o.req dst with
  | some e => exact .trans (t := untrack s o.req.tag) rfl (issueFrame_noteOut _ o e.1 e.2)
  | none =>
    refine issueFrame_ite (.refl s) (.trans ?_ (issueFrame_sendReq _ _))
    rfl

theorem issueFrame_releaseSegment (s : State) (k : SegKey) : IssueFrame s (releaseSegment s k) := by
  unfold releaseSegment
  refine .trans ?_ (foldl_rel IssueFrame.refl IssueFrame.trans (fun t o => issueFrame_issueHeld t o o.req.swell) _ _)
  rfl

theorem segmentRecorded_row {k : SegKey} {m : Move} (h : moveOf s k = some m) (hc : m.copied = true) :
    ∃ t, t = segmentRecorded s k ∧ tabGet none t.pool.remap (keyNat k) = some m.slot ∧
    (∀ j, j ≠ keyNat k → tabGet none t.pool.remap j = tabGet none s.pool.remap j) ∧
    k ∉ t.pool.moving ∧ k ∉ t.pool.wanted ∧ (getStack t (stackOfKey s k)).move = none ∧ t.mem = s.mem ∧
    (⟨1, 0x0304, keyNat k, m.slot, 0⟩ : Retirement) ∈ t.recovery.lifetime ∧
    (∃ e ∈ t.faults.unlogged, e.code = 0x0304 ∧ e.outcome = 2 ∧ e.arg = m.slot) := by
  have hrel := issueFrame_releaseSegment (moveRecorded s k m) k
  obtain ⟨e, hu, hcode, -, -, harg, hout, -⟩ := raise_unlogged (releaseSegment (moveRecorded s k m) k)
    (channelEvent 0x0304 2 k.stack k.channel m.slot s)
  have hraise := raise_frame (releaseSegment (moveRecorded s k m) k) (channelEvent 0x0304 2 k.stack k.channel m.slot s)
  have hend := evacuates_evacuationEnd (raise (releaseSegment (moveRecorded s k m) k)
    (channelEvent 0x0304 2 k.stack k.channel m.slot s)) (stackOfKey s k)
  rw [← segmentRecorded_copied h hc] at hend
  generalize raise (releaseSegment (moveRecorded s k m) k) (channelEvent 0x0304 2 k.stack k.channel m.slot s) = v at *
  generalize releaseSegment (moveRecorded s k m) k = u at *
  obtain ⟨hmem, hpool, hmove, -, hlife, hev⟩ := hend
  have hvp : v.pool = (moveRecorded s k m).pool := by rw [hraise, hrel]
  have hvm : v.mem = s.mem := by rw [hraise, hrel]; rfl
  have hvr : v.recovery = (moveRecorded s k m).recovery := by rw [hraise, hrel]
  have hvs : v.stackTab = (updStack s (stackOfKey s k) (fun x => { x with move := none })).stackTab := by
    rw [hraise, hrel]
    rfl
  have hremap : (segmentRecorded s k).pool.remap = tabSet none s.pool.remap (keyNat k) (some m.slot) := by rw [hpool, hvp]; rfl
  have hmoving : (segmentRecorded s k).pool.moving = s.pool.moving.filter (fun x => decide (x ≠ k)) := by rw [hpool, hvp]; rfl
  have hwanted : (segmentRecorded s k).pool.wanted = s.pool.wanted.filter (fun x => decide (x ≠ k)) := by rw [hpool, hvp]; rfl
  refine ⟨_, rfl, ?_, fun j hj => ?_, ?_, ?_, ?_, hmem.trans hvm, hlife ?_, e, hev ?_, hcode, hout, harg⟩
  · rw [hremap, tabGet_set_self]
  · rw [hremap, tabGet_set_other _ _ hj]
  · simp [hmoving]
  · simp [hwanted]
  · rw [hmove, getStack_congr hvs, getStack_upd_self]
  · rw [hvr]
    exact List.mem_append_right _ (List.mem_singleton_self _)
  · rw [hu]
    exact List.mem_append_right _ (List.mem_singleton_self _)

/-! ## RETIRED_RANGE_EXPIRY (R269, R271) -/

/-- The pool once the range of a segment has been retired for 60 s. -/
def rangeExpired (s : State) (k : SegKey) : Pool :=
  { s.pool with ranges := s.pool.ranges.map (fun r =>
      if r.key = k ∧ r.since + 60000000000 ≤ now s then { r with closed := true } else r) }

theorem exec_retiredRangeExpiry {k : SegKey} (hn : hasStack s k.stack = true) :
    exec (.retiredRangeExpiry k) s = .next (switchLayers { s with pool := rangeExpired s k }) := by
  refine guarded_next.mpr ⟨hn, ?_⟩
  simp only [rangeExpired, mapIf, Bool.and_eq_true, decide_eq_true_eq]

/-! ## O47 -/

/-- Settles O47: each step of a move is one change of its stack and the pool; what follows a record or a full pool only adds
ranges, records and events. -/
theorem segmentsMoveThroughThePool : Obligations.SegmentsMoveThroughThePool := by
  unfold Obligations.SegmentsMoveThroughThePool
  intro s k n hn hk
  subst hk
  have hstart : exec (.segmentMoveStart k) s = .next (segmentMoveStart s k) := guarded_next.mpr ⟨hn, rfl⟩
  have hcopy (o : CopySeen) : exec (.segmentCopyDone k o) s = .next (segmentCopyDone s k o) := guarded_next.mpr ⟨hn, rfl⟩
  refine ⟨fun slot hmay hm hc => ?_, fun hmay hm hc => ?_, fun h => ?_, fun m src hm hs => ⟨fun ho => ?_, fun ho => ?_⟩,
    fun m o hm hc => ⟨fun hall hq hq' => ?_, fun hw => ?_, ?_⟩, fun m hm hc => ?_, ?_⟩
  · rw [hstart, segmentMoveStart_some hmay hm hc]
    refine ⟨_, rfl, rfl, rfl, mem_addNew _ _, ?_, fun j hj => ?_⟩
    · rw [moveBegun, getStack_upd_self]
    · rw [moveBegun, getStack_upd_other _ _ hj]
      rfl
  · obtain ⟨t, ht, hrow⟩ := poolExhausted_row s k
    exact ⟨t, by rw [hstart, segmentMoveStart_none hmay hm hc, ht], hrow⟩
  · rw [hstart, segmentMoveStart_idle h]
  · rw [exec_segmentHoldAck hn hs, ho, updMove_of_moveOf hm]
    exact ⟨_, rfl, stackBecomes_updStack _ _ _⟩
  · rw [exec_segmentHoldAck hn hs, if_pos ho]
  · obtain ⟨u, hu, hframe, hmove, hcount⟩ := segmentCopied_row hm o
    have hmem := foldl_rel MemOnly.refl MemOnly.trans (memOnly_poisonSector k) o.bad u
    have htab : (o.bad.foldl (poisonSector k) u).stackTab = u.stackTab := by rw [hmem]
    have hkey (i : Nat) : sectorOfKey u k i = sectorOfKey s k i := by
      rw [hframe]
      rfl
    refine ⟨_, by rw [hcopy, segmentCopyDone_copies hm o hc hall hq hq', ← hu], ?_, ?_, ?_, ?_, fun i hi => ?_, fun hb => ?_⟩
    · rw [getStack_congr htab, hmove]
    · rw [hmem, hframe]
    · rw [hmem, hframe]
    · rw [getChannel_congr htab, hcount]
    · rw [← hkey]
      exact sectorPoisoned_poisonSectors hi u
    · rw [hb, List.foldl_nil, hframe]
  · rw [hcopy, segmentCopyDone_waits hm o hw]
  · rw [exec_segmentRecorded hn, segmentRecorded_waits hm hc]
  · obtain ⟨t, ht, hrow⟩ := segmentRecorded_row hm hc
    exact ⟨t, by rw [exec_segmentRecorded hn, ht], hrow⟩
  · refine ⟨_, exec_retiredRangeExpiry hn, rfl, rfl, fun i c hc => ⟨?_, ?_⟩⟩
    · unfold getChannel
      rw [getStack_switchLayers, switched_channels]
      rfl
    · rw [getStack_switchLayers, switched_off _ _ _ hc, rangeInUse_false]
      exact Iff.rfl

end Sys2Proof.Machine
end

section
/-! SUPPORT. Lanes of the fabric and of near links: the rings of a lane, what an identity word of a lane does, the lane monitors,
and the lanes that leave and come back. -/

namespace Sys2Proof.Machine

variable {s : State}

/-! ## Rings of a lane (R289, R290) -/

theorem ring_setRing_self (p : PairDir) (rx : Bool) (k : Nat) (r : Ring) : (p.setRing rx k r).ring rx k = r := by
  cases rx
  · exact tabGet_set_self {} r p.modRings k
  · exact tabGet_set_self {} r p.rings k

theorem ring_setRing_other (p : PairDir) {rx rx' : Bool} {j k : Nat} (r : Ring) (h : ¬ (j = k ∧ rx' = rx)) :
    (p.setRing rx k r).ring rx' j = p.ring rx' j := by
  cases rx <;> cases rx'
  · exact tabGet_set_other r p.modRings (fun hj => h ⟨hj, rfl⟩)
  · rfl
  · rfl
  · exact tabGet_set_other r p.rings (fun hj => h ⟨hj, rfl⟩)

/-- GHz from where a ring looks, `offset` above line `own`, to a line. -/
def lineGap (own : Nat) (offset : Int) (l : Nat) : Nat := ((100 * (l : Int)) - (100 * (own : Int) + offset)).natAbs

/-- The nearer of the line found so far and the next one. -/
def nearer (own : Nat) (offset : Int) (b : Option Nat) (l : Nat) : Option Nat :=
  match b with
  | none => some l
  | some m => if lineGap own offset l < lineGap own offset m then some l else some m

theorem lockLine_eq (lines : List Nat) (own : Nat) (offset : Int) :
    lockLine lines own offset = lines.foldl (nearer own offset) none := rfl

/-- Lines lie 100 GHz apart, so a ring within 40 GHz of its own is nearer to no other. -/
theorem lineGap_own_lt {own l : Nat} {x : Int} (hx : x.natAbs ≤ 40) (h : l ≠ own) : lineGap own x own < lineGap own x l := by
  unfold lineGap
  omega

theorem nearer_to_own {own : Nat} {x : Int} (hx : x.natAbs ≤ 40) (b : Option Nat) : nearer own x b own = some own := by
  cases b with
  | none => rfl
  | some m =>
    by_cases hm : m = own
    · subst hm
      exact ite_self _
    · exact if_pos (lineGap_own_lt hx hm)

theorem nearer_from_own {own : Nat} {x : Int} (hx : x.natAbs ≤ 40) (l : Nat) : nearer own x (some own) l = some own := by
  by_cases hl : l = own
  · rw [hl, nearer_to_own hx]
  · exact if_neg (Nat.not_lt.mpr (lineGap_own_lt hx hl).le)

theorem foldl_nearer_own {own : Nat} {x : Int} (hx : x.natAbs ≤ 40) {lines : List Nat} {b : Option Nat}
    (h : own ∈ lines ∨ b = some own) : lines.foldl (nearer own x) b = some own := by
  induction lines generalizing b with
  | nil => exact h.resolve_left List.not_mem_nil
  | cons l lines ih =>
    refine ih ?_
    rcases h with h | rfl
    · rcases List.mem_cons.mp h with rfl | h
      · exact .inr (nearer_to_own hx b)
      · exact .inl h
    · exact .inr (nearer_from_own hx l)

theorem ringLock_locks {a b k : Nat} {rx : Bool} {x : Int} {l : Nat} (hr : ((getPair s a b).ring rx k).state = .relocking)
    (hd : (getPair s a b).darkSince = none) (hl : lockLine (litLines s b rx) ((b + 64 - a) % 64) x = some l) :
    ringLock s a b k rx x = updPair s a b (fun p => p.setRing rx k
      { state := .locked, line := if l = (b + 64 - a) % 64 then none else some l, code := (p.ring rx k).code }) := by
  unfold ringLock
  simp only [hr, hd, hl, and_self, if_true]

theorem ringLock_stays {a b k : Nat} {rx : Bool} (x : Int)
    (h : ((getPair s a b).ring rx k).state ≠ .relocking ∨ (getPair s a b).darkSince ≠ none) : ringLock s a b k rx x = s := by
  unfold ringLock
  exact if_neg (fun hc => h.elim (· hc.1) (· hc.2))

/-- A frozen ring that has been dark too long relocks. -/
def RingState.expired (r : RingState) : RingState := if r = .frozen then .relocking else r

/-- The dark ring of one end of a lane expires. -/
def expireRing (a b k : Nat) (t : State) (rx : Bool) : State :=
  if ((getPair t a b).ring rx k).state = .frozen then relockRing t a b rx k else t

theorem ringDarkExpiry_expires {a b d : Nat} (hd : (getPair s a b).darkSince = some d) (h : d + 100000 ≤ now s) :
    ringDarkExpiry s a b = (List.range 18).foldl (fun u k => expireRing a b k (expireRing a b k u true) false) s := by
  unfold ringDarkExpiry
  rw [hd]
  exact if_pos h

theorem ringDarkExpiry_lit {a b : Nat} (hd : (getPair s a b).darkSince = none) : ringDarkExpiry s a b = s := by
  unfold ringDarkExpiry
  rw [hd]

/-- Only pair directions change. -/
def PairsChange (s t : State) : Prop := t = { s with pairs := t.pairs }

theorem PairsChange.refl (s : State) : PairsChange s s := rfl
theorem PairsChange.trans {s t u : State} (h : PairsChange s t) (g : PairsChange t u) : PairsChange s u := by
  unfold PairsChange at *
  rw [g, h]

theorem pairsChange_expireRing (a b k : Nat) (t : State) (rx : Bool) : PairsChange t (expireRing a b k t rx) := by
  unfold expireRing
  split <;> rfl

theorem expireRing_state (a b k : Nat) (t : State) (rx rx' : Bool) (j : Nat) :
    ((getPair (expireRing a b k t rx) a b).ring rx' j).state =
      if j = k ∧ rx' = rx then ((getPair t a b).ring rx' j).state.expired else ((getPair t a b).ring rx' j).state := by
  unfold expireRing
  by_cases hf : ((getPair t a b).ring rx k).state = .frozen
  · rw [if_pos hf, getPair_relockRing]
    split
    · next hj =>
      obtain ⟨rfl, rfl⟩ := hj
      rw [ring_setRing_self, RingState.expired, if_pos hf]
      rfl
    · next hj => rw [ring_setRing_other _ _ hj]
  · rw [if_neg hf]
    split
    · next hj =>
      obtain ⟨rfl, rfl⟩ := hj
      rw [RingState.expired, if_neg hf]
    · rfl

theorem expireLane_state (a b k : Nat) (t : State) (rx : Bool) (j : Nat) :
    ((getPair (expireRing a b k (expireRing a b k t true) false) a b).ring rx j).state =
      if j = k then ((getPair t a b).ring rx j).state.expired else ((getPair t a b).ring rx j).state := by
  rw [expireRing_state, expireRing_state]
  cases rx <;> simp

theorem expireLanes_state (a b : Nat) (rx : Bool) (j n : Nat) :
    ((getPair ((List.range n).foldl (fun u k => expireRing a b k (expireRing a b k u true) false) s) a b).ring rx j).state =
      if j < n then ((getPair s a b).ring rx j).state.expired else ((getPair s a b).ring rx j).state := by
  induction n with
  | zero => rfl
  | succ n ih =>
    rw [List.range_succ, List.foldl_append, List.foldl_cons, List.foldl_nil, expireLane_state, ih]
    by_cases hj : j = n
    · simp [hj]
    · simp [hj, show j < n + 1 ↔ j < n by omega]

theorem ringDarkExpiry_row {a b d : Nat} (hd : (getPair s a b).darkSince = some d) (h : d + 100000 ≤ now s) :
    PairsChange s (ringDarkExpiry s a b) ∧ ∀ j rx, j < 18 → ((getPair (ringDarkExpiry s a b) a b).ring rx j).state =
      if ((getPair s a b).ring rx j).state = .frozen then .relocking else ((getPair s a b).ring rx j).state := by
  rw [ringDarkExpiry_expires hd h]
  refine ⟨foldl_rel PairsChange.refl PairsChange.trans (fun t k =>
    (pairsChange_expireRing a b k t true).trans (pairsChange_expireRing a b k _ false)) _ s, fun j rx hj => ?_⟩
  rw [expireLanes_state, if_pos hj, RingState.expired]

theorem setAgain_nil {p : PairDir} (h : p.again = []) : { p with again := [] } = p := by
  rw [← h]

theorem retrainingDone_row {a b : Nat} {p : PairDir} (hp : p = getPair s a b) (hr : p.retraining = true) (ha : p.again = []) :
    PairBecomes s (retrainingDone s a b) a b { p with
      retraining := false, deskewed := true, rings := [], modRings := [], trained := some (now s), laneNo := 0
      quietUntil := now s + 28672 } := by
  subst hp
  unfold retrainingDone
  rw [if_pos hr, examineAgain_nil (by rw [getPair_upd_self]; exact ha)]
  obtain ⟨h1, h2, h3⟩ := pairBecomes_updPair s a b (fun p => { p with
    retraining := false, deskewed := true, rings := [], modRings := [], trained := some (now s), laneNo := 0
    quietUntil := now s + markerNs })
  refine ⟨rfl, fun i j hij => (getPair_upd_other _ _ hij).trans (h2 i j hij), ?_⟩
  rw [getPair_upd_self, h3]
  exact setAgain_nil ha

theorem retrainingDone_stays {a b : Nat} (hr : (getPair s a b).retraining = false) : retrainingDone s a b = s := by
  unfold retrainingDone
  exact if_neg (by simp [hr])

/-! ## Identity words (R293 to R297) -/

/-- Identity words count on a pair direction: it serves, no retraining and no switch-over is in progress, and the interval after
one has passed (R297). -/
def WordsCount (s : State) (a b : Nat) : Prop :=
  released s 5 = true ∧ (getPair s a b).lost = false ∧ (getPair s a b).retraining = false ∧ (getPort s a).paused = false ∧
  (getPort s b).paused = false ∧ (getPair s a b).quietUntil ≤ now s

theorem identityWord_marker {a b : Nat} (h : WordsCount s a b) (k : Nat) (x : W64) :
    identityWord s a b k (.marker x) = compareWord a b s (k, x) := by
  obtain ⟨h5, hl, hr, ha, hb, hq⟩ := h
  unfold identityWord
  dsimp only
  exact if_neg (by simp [pairWorks, h5, hl, hr, ha, hb, hq])

/-- The words of an identity frame with the lanes that carry them. -/
def frameWords (p : PairDir) (ws : List W64) : List (Nat × W64) := ws.zipIdx.map (fun e => (laneOf p e.2, e.1))

/-- Some word of an identity frame is the one of its lane. -/
def someRight (a b : Nat) (l : List (Nat × W64)) : Bool := l.any (fun e => decide (e.2.toNat = idWord a b e.1))

theorem identityWord_frame {a b : Nat} (h : WordsCount s a b) (k : Nat) (ws : List W64) :
    identityWord s a b k (.frame ws) =
      (let s1 := updPair s a b (fun p => { p with laneNo := p.laneNo + 16, idFrame := false, idreq := false })
      if someRight a b (frameWords (getPair s a b) ws) then (frameWords (getPair s a b) ws).foldl (compareWord a b) s1
      else beginRetraining s1 a b) := by
  obtain ⟨h5, hl, hr, ha, hb, hq⟩ := h
  unfold identityWord
  dsimp only
  exact if_neg (by simp [pairWorks, h5, hl, hr, ha, hb, hq])

theorem someRight_eq_false {a b : Nat} {p : PairDir} {ws : List W64} :
    someRight a b (frameWords p ws) = false ↔ ∀ e ∈ ws.zipIdx, e.1.toNat ≠ idWord a b (laneOf p e.2) := by
  simp only [someRight, frameWords, List.any_eq_false, List.mem_map, decide_eq_true_eq, forall_exists_index, and_imp,
    forall_apply_eq_imp_iff₂, ne_eq]

theorem identityWord_quiet {a b : Nat} (k : Nat) (x : IdSeen) (h : (getPair s a b).retraining = true ∨
    (getPort s a).paused = true ∨ (getPort s b).paused = true ∨ now s < (getPair s a b).quietUntil) :
    identityWord s a b k x = s := by
  unfold identityWord
  refine if_pos ?_
  rcases h with h | h | h | h <;> simp [h]

/-- Both rings of a lane are locked, and a lane that is out of the stripe on its own account is reported (R295). -/
def PairDir.wordRight (p : PairDir) (k : Nat) : PairDir :=
  let q := (p.setRing true k {}).setRing false k {}
  if p.out.any (fun o => o.1 == k) && !p.testing.contains k && p.trimming != some k then { q with evt := addNew (2, k) q.evt }
  else q

theorem compareWord_right {a b k : Nat} {x : W64} (hn : (getPair s a b).retired.contains k = false)
    (hx : x.toNat = idWord a b k) : compareWord a b s (k, x) = updPair s a b (fun p => p.wordRight k) := by
  unfold compareWord
  dsimp only
  rw [if_neg (by simp only [hn, Bool.false_eq_true, not_false_iff]), if_pos hx]
  rfl

theorem compareWord_wrong {a b k : Nat} {x : W64} (hn : (getPair s a b).retired.contains k = false)
    (hx : x.toNat ≠ idWord a b k) : compareWord a b s (k, x) = identityMismatch s a b k := by
  unfold compareWord
  dsimp only
  rw [if_neg (by simp only [hn, Bool.false_eq_true, not_false_iff]), if_neg hx]

/-- What `wordRight` changes are the rings and the events for the next reverse frames. -/
theorem wordRight_frame (p : PairDir) (k : Nat) : p.wordRight k =
    { p with rings := (p.wordRight k).rings, modRings := (p.wordRight k).modRings, evt := (p.wordRight k).evt } := by
  unfold PairDir.wordRight
  dsimp only
  split <;> rfl

theorem laneLocked_wordRight (p : PairDir) (k : Nat) : (p.wordRight k).laneLocked k = true := by
  obtain ⟨q, hq⟩ : ∃ q, q = (p.setRing true k {}).setRing false k {} := ⟨_, rfl⟩
  have hr : ∀ rx, (p.wordRight k).ring rx k = q.ring rx k := fun rx => by
    unfold PairDir.wordRight
    dsimp only
    rw [← hq]
    split <;> rfl
  have hm : q.ring false k = {} := hq ▸ ring_setRing_self _ false k {}
  have hx : q.ring true k = {} := by
    rw [hq, ring_setRing_other _ _ (by simp), ring_setRing_self]
  simp [PairDir.laneLocked, hr, hm, hx]

theorem evt_wordRight {p : PairDir} {k : Nat} (ho : p.out.any (fun o => o.1 == k) = true) (ht : p.testing.contains k = false)
    (hm : p.trimming ≠ some k) : (2, k) ∈ (p.wordRight k).evt := by
  have hc : (p.out.any (fun o => o.1 == k) && !p.testing.contains k && p.trimming != some k) = true := by
    rw [ho, ht, bne_iff_ne.mpr hm]
    rfl
  unfold PairDir.wordRight
  dsimp only
  rw [if_pos hc]
  exact mem_addNew _ _

/-- The Tide stamps of a lane's mismatches of the last second. -/
def recentMismatches (s : State) (a b k : Nat) : List Nat := within 1000000000 (now s) (tabGet [] (getPair s a b).mismatch k)

/-- A pair direction in which a mismatch of a lane has been counted. -/
def PairDir.mismatched (p : PairDir) (k : Nat) (l : List Nat) : PairDir :=
  { p with mismatches := p.mismatches + 1, mismatch := tabSet [] p.mismatch k l }

/-- A mismatch of a lane is counted, and its event raised. -/
def mismatchNoted (s : State) (a b k : Nat) : State :=
  raise (updPair s a b (fun p => p.mismatched k (recentMismatches s a b k ++ [now s])))
    { code := 0x0101, site := b, unit := k, arg := a }

/-- A lane that has lost its line asks for EVT 1 when it is in the stripe, and gives up its change of pre-emphasis set. -/
def PairDir.mistaken (p : PairDir) (k : Nat) : PairDir :=
  { p with
    evt := if p.stripe.contains k then addNew (1, k) p.evt else p.evt
    trimming := if p.trimming = some k then none else p.trimming
    change := p.change.filter (fun e => p.trimming != some e.2) }

theorem getPair_mismatchNoted (s : State) (a b k : Nat) : getPair (mismatchNoted s a b k) a b =
    (getPair s a b).mismatched k (recentMismatches s a b k ++ [now s]) :=
  getPair_upd_self s a b (fun p => p.mismatched k (recentMismatches s a b k ++ [now s]))

theorem mismatchNoted_mem (s : State) (a b k : Nat) : (mismatchNoted s a b k).mem = s.mem := rfl

theorem identityMismatch_relocks {a b k : Nat} (h : (recentMismatches s a b k).length ≤ 1) : identityMismatch s a b k =
    relockRing (countTransient (updPair (mismatchNoted s a b k) a b (fun p => p.mistaken k)) b) a b true k := by
  unfold identityMismatch
  dsimp only
  refine if_neg ?_
  rw [List.length_append]
  exact Nat.not_le.mpr (Nat.succ_lt_succ (Nat.lt_succ_of_le h))

theorem identityMismatch_retires {a b k : Nat} (h : 2 ≤ (recentMismatches s a b k).length) :
    ∃ held, identityMismatch s a b k = retireLane (mismatchNoted s a b k) a b k held := by
  unfold identityMismatch
  refine ⟨_, if_pos ?_⟩
  rw [List.length_append]
  exact Nat.succ_le_succ h

/-- The first and the second mismatch of a lane in 1 s. -/
theorem identityMismatch_relocks_row {a b k : Nat} {p : PairDir} (hp : p = getPair s a b)
    (h : (recentMismatches s a b k).length ≤ 1) :
    ∃ t e, t = identityMismatch s a b k ∧ (getPair t a b).mismatches = p.mismatches + 1 ∧
      ((getPair t a b).ring true k).state = .relocking ∧ (p.stripe.contains k = true → (1, k) ∈ (getPair t a b).evt) ∧
      (getPair t a b).retraining = p.retraining ∧ (getSite t b).transients = (getSite s b).transients + 1 ∧
      t.faults.unlogged = s.faults.unlogged ++ [e] ∧ e.code = 0x0101 ∧ e.site = b ∧ e.unit = k ∧ e.arg = a ∧ t.mem = s.mem := by
  subst hp
  obtain ⟨e, he, h1, h2, h3, h4, -⟩ := raise_unlogged
    (updPair s a b (fun p => p.mismatched k (recentMismatches s a b k ++ [now s]))) { code := 0x0101, site := b, unit := k, arg := a }
  refine ⟨_, e, (identityMismatch_relocks h).symm, ?_⟩
  obtain ⟨u, hu⟩ : ∃ u, u = updPair (mismatchNoted s a b k) a b (fun p => p.mistaken k) := ⟨_, rfl⟩
  have hg : getPair (countTransient u b) a b =
      ((getPair s a b).mismatched k (recentMismatches s a b k ++ [now s])).mistaken k := by
    rw [← getPair_mismatchNoted, hu]
    exact getPair_upd_self _ a b (fun p => p.mistaken k)
  have hs : (getSite (countTransient u b) b).transients = (getSite s b).transients + 1 := by
    rw [countTransient, getSite_upd_self, hu]
    rfl
  rw [← hu, getPair_relockRing, ring_setRing_self, setRing_frame, hg]
  refine ⟨rfl, rfl, fun hc => ?_, rfl, hs, ?_, h1, h2, h3, h4, ?_⟩
  · show (1, k) ∈ if (getPair s a b).stripe.contains k then addNew (1, k) (getPair s a b).evt else (getPair s a b).evt
    rw [if_pos hc]
    exact mem_addNew _ _
  · show u.faults.unlogged = _
    rw [hu]
    exact he
  · show u.mem = _
    rw [hu]
    exact mismatchNoted_mem s a b k

/-- A pair direction whose receiver has retired a lane. -/
def PairDir.retires (p : PairDir) (k : Nat) : PairDir :=
  { p with retired := insertNat k p.retired, evt := addNew (3, k) p.evt, spares := p.spares.filter (· != k) }

theorem retireLane_row (s : State) (a b k : Nat) (held : Bool) :
    ∃ t e, t = retireLane s a b k held ∧ getPair t a b = (getPair s a b).retires k ∧
      (getSite t b).retirements = (getSite s b).retirements + 1 ∧ t.faults.unlogged = s.faults.unlogged ++ [e] ∧
      e.code = 0x0102 ∧ e.unit = k ∧ t.mem = s.mem := by
  obtain ⟨e, he, h1, -, h3, -⟩ := raise_unlogged
    (retire (updPair s a b (fun p => p.retires k)) b ⟨1, 0x0102, a, b, k⟩)
    { code := 0x0102, outcome := if held then 2 else 3, site := a, unit := k, arg := (getPair s a b).stripe.length }
  refine ⟨_, e, rfl, getPair_upd_self s a b (fun p => p.retires k), ?_, he, h1, h3, rfl⟩
  exact congrArg Site.retirements (getSite_upd_self _ b (fun x => { x with retirements := x.retirements + 1 }))

theorem mem_retires (p : PairDir) (k : Nat) : k ∈ (p.retires k).retired ∧ (3, k) ∈ (p.retires k).evt :=
  ⟨mem_insertNat.mpr (.inl rfl), mem_addNew _ _⟩

/-- The third mismatch of a lane in 1 s. -/
theorem identityMismatch_retires_row {a b k : Nat} (h : 2 ≤ (recentMismatches s a b k).length) :
    ∃ t, t = identityMismatch s a b k ∧ k ∈ (getPair t a b).retired ∧ (3, k) ∈ (getPair t a b).evt ∧
      (getPair t a b).retraining = (getPair s a b).retraining ∧
      (getSite t b).retirements = (getSite s b).retirements + 1 ∧ t.mem = s.mem := by
  obtain ⟨held, he⟩ := identityMismatch_retires h
  obtain ⟨t, -, ht, hg, hs, -, -, -, hm⟩ := retireLane_row (mismatchNoted s a b k) a b k held
  obtain ⟨h1, h2⟩ := mem_retires (getPair (mismatchNoted s a b k) a b) k
  refine ⟨t, ht.trans he.symm, by rw [hg]; exact h1, by rw [hg]; exact h2, ?_, hs, hm⟩
  rw [hg, getPair_mismatchNoted]
  rfl

/-- No single word starts a retraining, and none touches memory. -/
theorem compareWord_keeps (a b : Nat) (s : State) (e : Nat × W64) : (compareWord a b s e).mem = s.mem ∧
    (getPair (compareWord a b s e) a b).retraining = (getPair s a b).retraining := by
  obtain ⟨k, x⟩ := e
  cases hn : (getPair s a b).retired.contains k with
  | true =>
    have he : compareWord a b s (k, x) = s := if_pos hn
    rw [he]
    exact ⟨rfl, rfl⟩
  | false =>
    by_cases hx : x.toNat = idWord a b k
    · rw [compareWord_right hn hx, getPair_upd_self, wordRight_frame]
      exact ⟨rfl, rfl⟩
    · rw [compareWord_wrong hn hx]
      by_cases hl : (recentMismatches s a b k).length ≤ 1
      · obtain ⟨t, -, ht, -, -, -, hr, -, -, -, -, -, -, hm⟩ := identityMismatch_relocks_row rfl hl
        rw [← ht]
        exact ⟨hm, hr⟩
      · obtain ⟨t, ht, -, -, hr, -, hm⟩ := identityMismatch_retires_row (Nat.lt_of_not_le hl)
        rw [← ht]
        exact ⟨hm, hr⟩

/-- An identity frame starts a retraining exactly when none of its words is the one of its lane. -/
theorem identityWord_frame_row {a b : Nat} (h : WordsCount s a b) (k : Nat) (ws : List W64) :
    (identityWord s a b k (.frame ws)).mem = s.mem ∧ ((getPair (identityWord s a b k (.frame ws)) a b).retraining = true ↔
      ∀ e ∈ ws.zipIdx, e.1.toNat ≠ idWord a b (laneOf (getPair s a b) e.2)) := by
  obtain ⟨-, -, hr, -⟩ := id h
  rw [identityWord_frame h, ← someRight_eq_false]
  dsimp only
  cases someRight a b (frameWords (getPair s a b) ws) with
  | true =>
    obtain ⟨u, hu⟩ : ∃ u, u = updPair s a b (fun p => { p with laneNo := p.laneNo + 16, idFrame := false, idreq := false }) :=
      ⟨_, rfl⟩
    have hur : (getPair u a b).retraining = false := by
      rw [hu, getPair_upd_self]
      exact hr
    rw [if_pos rfl, ← hu, foldl_keeps (fun t => t.mem) (fun t e => (compareWord_keeps a b t e).1),
      foldl_keeps (fun t => (getPair t a b).retraining) (fun t e => (compareWord_keeps a b t e).2), hur]
    exact ⟨by rw [hu]; rfl, by simp⟩
  | false =>
    obtain ⟨⟨hf, -⟩, hb, -⟩ := beginRetraining_row
      (updPair s a b (fun p => { p with laneNo := p.laneNo + 16, idFrame := false, idreq := false })) a b
    rw [if_neg Bool.false_ne_true, hf]
    exact ⟨rfl, iff_of_true (by rw [← hf]; exact hb) rfl⟩

/-! ## Lane monitors and margin tests (R308) -/

/-- A lane of the stripe that has failed asks for EVT 1 and goes into its margin test. -/
def PairDir.underTest (p : PairDir) (k : Nat) : PairDir :=
  { p with evt := addNew (1, k) p.evt, testing := insertNat k p.testing }

theorem fabricLaneBer_row {a b k : Nat} {p : PairDir} (hp : p = getPair s a b) (h5 : released s 5 = true) (hl : p.lost = false)
    (hs : p.stripe.contains k = true) (ht : p.testing.contains k = false) (hr : p.retraining = false)
    (ha : (getPort s a).paused = false) (hb : (getPort s b).paused = false) (hm : p.mismatching = false) :
    ∃ t e, t = fabricLaneBer s a b k ∧ t = { s with pairs := t.pairs, reqs := t.reqs, faults := t.faults } ∧
      (1, k) ∈ (getPair t a b).evt ∧ k ∈ (getPair t a b).testing ∧ t.faults.unlogged = s.faults.unlogged ++ [e] ∧
      e.code = 0x0102 ∧ e.site = a ∧ e.unit = k ∧ e.outcome = (if (p.substitute k).2 = none then 0 else 2) := by
  subst hp
  obtain ⟨e, he, h1, h2, h3, -, h6, -⟩ := raise_unlogged (updPair s a b (fun p => p.underTest k))
    { code := 0x0102, outcome := if ((getPair s a b).substitute k).2.isSome then 2 else 0, site := a, unit := k
      arg := (getPair s a b).stripe.length - bit (!((getPair s a b).substitute k).2.isSome) }
  have heq : fabricLaneBer s a b k = delayPair (raise (updPair s a b (fun p => p.underTest k))
      { code := 0x0102, outcome := if ((getPair s a b).substitute k).2.isSome then 2 else 0, site := a, unit := k
        arg := (getPair s a b).stripe.length - bit (!((getPair s a b).substitute k).2.isSome) }) a b := by
    unfold fabricLaneBer
    dsimp only
    rw [if_neg (by simp only [pairWorks, h5, hl, hs, ht]; decide), if_neg (by simp only [hr, ha, hb, hm]; decide)]
    rfl
  have hg : getPair (fabricLaneBer s a b k) a b = (getPair s a b).underTest k := by
    rw [heq]
    exact getPair_upd_self s a b (fun p => p.underTest k)
  refine ⟨_, e, rfl, by rw [heq]; rfl, ?_, ?_, by rw [heq]; exact he, h1, h2, h3, ?_⟩
  · rw [hg]
    exact mem_addNew _ _
  · rw [hg]
    exact mem_insertNat.mpr (.inl rfl)
  · rw [h6]
    cases ((getPair s a b).substitute k).2 <;> rfl

theorem fabricLaneBer_waits {a b k : Nat} {p : PairDir} (hp : p = getPair s a b) (h5 : released s 5 = true)
    (hl : p.lost = false) (hs : p.stripe.contains k = true) (ht : p.testing.contains k = false)
    (h : p.retraining = true ∨ (getPort s a).paused = true ∨ (getPort s b).paused = true ∨ p.mismatching = true) :
    fabricLaneBer s a b k = updPair s a b (fun p => { p with again := insertNat k p.again }) := by
  subst hp
  unfold fabricLaneBer
  dsimp only
  rw [if_neg (by simp only [pairWorks, h5, hl, hs, ht]; decide), if_pos]
  rcases h with h | h | h | h <;> simp [h]

/-- A pair direction whose lane has ended its margin test. -/
def PairDir.tested (p : PairDir) (k : Nat) : PairDir := { p.forget k (p.taker k) with testing := p.testing.filter (· != k) }

theorem tested_testing (p : PairDir) (k : Nat) : (p.tested k).testing.contains k = false := by
  simp [PairDir.tested]

theorem laneMarginDone_eq {a b k : Nat} {p : PairDir} (hp : p = getPair s a b) (ht : p.testing.contains k = true)
    (hs : p.stripe.contains k = false) (pass : Bool) : laneMarginDone s a b k pass =
      if pass then countTransient (updPair (updPair s a b (fun p => p.tested k)) a b
        (fun p => { p with spares := insertNat k p.spares })) b
      else retireLane (updPair s a b (fun p => p.tested k)) a b k (p.isHeld k) := by
  subst hp
  unfold laneMarginDone
  dsimp only
  rw [if_neg (by simp only [ht, hs]; decide)]
  rfl

theorem laneMarginDone_passes {a b k : Nat} {p : PairDir} (hp : p = getPair s a b) (ht : p.testing.contains k = true)
    (hs : p.stripe.contains k = false) : ∃ t, t = laneMarginDone s a b k true ∧ k ∈ (getPair t a b).spares ∧
      (getPair t a b).testing.contains k = false ∧ (getSite t b).transients = (getSite s b).transients + 1 ∧
      t.faults = s.faults := by
  refine ⟨_, rfl, ?_⟩
  rw [laneMarginDone_eq hp ht hs, if_pos rfl]
  obtain ⟨u, hu⟩ : ∃ u, u = updPair (updPair s a b (fun p => p.tested k)) a b (fun p => { p with spares := insertNat k p.spares }) :=
    ⟨_, rfl⟩
  have hg : getPair (countTransient u b) a b = { (getPair s a b).tested k with
      spares := insertNat k ((getPair s a b).tested k).spares } := by
    have h := getPair_upd_self (updPair s a b (fun p => p.tested k)) a b (fun p => { p with spares := insertNat k p.spares })
    rw [← hu, getPair_upd_self] at h
    exact h
  rw [← hu, hg]
  refine ⟨mem_insertNat.mpr (.inl rfl), tested_testing _ k, ?_, by rw [hu]; rfl⟩
  rw [countTransient, getSite_upd_self, hu]
  rfl

theorem laneMarginDone_fails {a b k : Nat} {p : PairDir} (hp : p = getPair s a b) (ht : p.testing.contains k = true)
    (hs : p.stripe.contains k = false) : ∃ t e, t = laneMarginDone s a b k false ∧ k ∈ (getPair t a b).retired ∧
      (3, k) ∈ (getPair t a b).evt ∧ (getPair t a b).testing.contains k = false ∧
      t.faults.unlogged = s.faults.unlogged ++ [e] ∧ e.code = 0x0102 ∧ e.unit = k := by
  obtain ⟨t, e, ht', hg, -, he, h1, h2, -⟩ := retireLane_row (updPair s a b (fun p => p.tested k)) a b k (p.isHeld k)
  rw [getPair_upd_self] at hg
  obtain ⟨m1, m2⟩ := mem_retires ((getPair s a b).tested k) k
  refine ⟨t, e, ht'.trans ?_, by rw [hg]; exact m1, by rw [hg]; exact m2, ?_, he, h1, h2⟩
  · rw [laneMarginDone_eq hp ht hs]
    rfl
  · rw [hg]
    exact tested_testing _ k

theorem fabricMargin_pass {eye : Nat} {oma : Int} (he : 64 ≤ eye) (ho : -900 ≤ oma) : fabricMargin eye oma = true := by
  simp [fabricMargin, he, ho]

theorem fabricMargin_fail {eye : Nat} {oma : Int} (h : eye < 64 ∨ oma < -900) : fabricMargin eye oma = false := by
  simp only [fabricMargin, Bool.and_eq_false_iff, decide_eq_false_iff_not]
  omega

/-! ## Lanes of near links (R306) -/

theorem leave_one_active {x : Bundle} {l : Nat} (h : x.active.contains l = true) :
    x.leave [l] = { x with leaving := insertNat l x.leaving } := by
  simp only [Bundle.leave, List.foldl_cons, List.foldl_nil, h, if_true]

theorem leave_one_other {x : Bundle} {l : Nat} (h : x.active.contains l = false) : x.leave [l] = x := by
  simp only [Bundle.leave, List.foldl_cons, List.foldl_nil, h, Bool.false_eq_true, if_false]

/-- A bundle whose lane has left its stripe, to be tested in a refresh gap. -/
def Bundle.loses (x : Bundle) (l : Nat) : Bundle :=
  { x with active := x.active.filter (· != l), leaving := x.leaving.filter (· != l), removed := insertNat l x.removed }

/-- A lane has left its bundle, and its event has been raised. -/
def nearLaneRemoved (s : State) (n k l : Nat) : State :=
  raise (updBundle s n k (fun x => x.loses l))
    { code := 0x0104
      outcome := if (getBundle s n k).spares.isEmpty then 0 else 2
      site := stackSite n
      unit := k
      part := (sitePart s (stackSite n)).getD 0xF
      arg := (getBundle s n k).active.length - 1 }

theorem getBundle_nearLaneRemoved (s : State) (n k l : Nat) :
    getBundle (nearLaneRemoved s n k l) n k = (getBundle s n k).loses l :=
  (getBundle_updBundle s n k k (fun x => x.loses l)).trans (if_pos rfl)

/-- The near link keeps its stack while the bundle keeps a lane. -/
theorem removeNearLane_keeps {n k l j : Nat} (hk : k < 10) (hl : (getBundle s n k).active.contains l = true)
    (hj : j ∈ (getBundle s n k).active) (hjl : j ≠ l) : removeNearLane s n k l = delayNear (nearLaneRemoved s n k l) n := by
  have hm : j ∈ (getBundle (delayNear (nearLaneRemoved s n k l) n) n k).active :=
    (congrArg Bundle.active (getBundle_nearLaneRemoved s n k l)).symm ▸ List.mem_filter.mpr ⟨hj, bne_iff_ne.mpr hjl⟩
  have hsome : ¬ ((List.range 10).all fun i => (getBundle (delayNear (nearLaneRemoved s n k l) n) n i).active.isEmpty) = true :=
    fun h => List.ne_nil_of_mem hm (List.isEmpty_iff.mp (List.all_eq_true.mp h k (List.mem_range.mpr hk)))
  unfold removeNearLane
  dsimp only
  rw [if_neg (by simp only [hl]; decide)]
  exact if_neg hsome

/-- A lane leaves a bundle that keeps another one. -/
theorem removeNearLane_row {n k l j : Nat} (hk : k < 10) (hl : (getBundle s n k).active.contains l = true)
    (hj : j ∈ (getBundle s n k).active) (hjl : j ≠ l) :
    ∃ t e, t = removeNearLane s n k l ∧ getBundle t n k = (getBundle s n k).loses l ∧
      t.faults.unlogged = s.faults.unlogged ++ [e] ∧ e.code = 0x0104 ∧ e.site = stackSite n ∧ e.unit = k ∧
      t.mem = s.mem ∧ (∀ i, i ≠ n → getStack t i = getStack s i) := by
  obtain ⟨e, he, h1, h2, h3, -⟩ := raise_unlogged (updBundle s n k (fun x => x.loses l)) _
  exact ⟨_, e, (removeNearLane_keeps hk hl hj hjl).symm, getBundle_nearLaneRemoved s n k l, he, h1, h2, h3, rfl,
    fun i hi => getStack_upd_other s (fun x => { x with bundles := tabUpd {} x.bundles k (fun x => x.loses l) }) hi⟩

theorem delivers_bundles (x : Stack) (d : Nat) (f : BundleFrame) : (x.delivers d f).bundles = x.bundles := by
  have h : ∀ y : Stack, (nearAccept y d f.seq).bundles = y.bundles := fun y => by
    unfold nearAccept
    dsimp only
    split <;> rfl
  exact h (nearSend x d f)

/-- The state in which a bundle frame has been delivered, before its lane event. -/
def bundleDelivered (s : State) (n k : Nat) (up : Bool) (f : BundleFrame) : State :=
  nearCredits (updStack (occupy s n (bit up) k) n (fun x => x.delivers (bit up) f)) n up f.credits

theorem crossingsOnly_nearCredits (s : State) (n : Nat) (up : Bool) (c : W32) : CrossingsOnly s (nearCredits s n up c) := by
  unfold nearCredits
  dsimp only
  split
  · exact .refl s
  · split <;> exact crossingsOnly_countEvents _ _ _ _

theorem bundleDelivered_row (s : State) (n k : Nat) (up : Bool) (f : BundleFrame) :
    (bundleDelivered s n k up f).faults = s.faults ∧ (bundleDelivered s n k up f).mem = s.mem ∧
    (∀ i, getBundle (bundleDelivered s n k up f) n i = getBundle s n i) ∧
    (∀ j, j ≠ n → getStack (bundleDelivered s n k up f) j = getStack s j) := by
  have hc := crossingsOnly_nearCredits (updStack (occupy s n (bit up) k) n (fun x => x.delivers (bit up) f)) n up f.credits
  have ht : (bundleDelivered s n k up f).stackTab = (updStack (occupy s n (bit up) k) n (fun x => x.delivers (bit up) f)).stackTab := by
    rw [bundleDelivered, hc]
  refine ⟨by rw [bundleDelivered, hc]; rfl, by rw [bundleDelivered, hc]; rfl, fun i => ?_, fun j hj => ?_⟩
  · rw [getBundle_congr ht, getBundle_updStack (fun x => delivers_bundles x (bit up) f), occupy_eq]
    exact getBundle_updStack (f := fun x => x.occupied (16 * bit up + k) (bundleEnd s n (bit up) k)) (fun _ => rfl) i
  · rw [getStack_congr ht, getStack_upd_other _ _ hj, occupy_eq, getStack_upd_other _ _ hj]

/-- A delivered bundle frame that is marked STRIPE takes its lane out of the bundle. -/
theorem nearBundleFrame_removes {n k : Nat} {up : Bool} {f : BundleFrame} (h6 : released s 6 = true)
    (hl : (getStack s n).nearLost = false) (ha : (getBundle s n k).active ≠ []) (hb : firstBundle s n (bit up) k = true)
    (hc : f.crcGood = true) (hs : f.stripe = true) (he : f.evt = 1) (hu : f.units = [])
    (hr : ((getStack s n).nearSent.filter (fun e => e.1 == bit up)).length < 128) :
    nearBundleFrame s n k up f = removeNearLane (bundleDelivered s n k up f) n k f.evtLane := by
  have hact : (getBundle s n k).active.isEmpty = false := List.isEmpty_eq_false_iff.mpr ha
  have hroom : (decide (128 ≤ ((getStack s n).nearSent.filter (fun e => e.1 == bit up)).length)) = false :=
    decide_eq_false (by omega)
  unfold nearBundleFrame
  simp only [h6, hl, hact, hb, hc, hs, he, hu, hroom]
  rfl

theorem nearBundleFrame_removes_row {n k l : Nat} {up : Bool} {f : BundleFrame} {x : Bundle} (hx : x = getBundle s n k)
    (hk : k < 10) (h6 : released s 6 = true) (hn : (getStack s n).nearLost = false) (hb : firstBundle s n (bit up) k = true)
    (hc : f.crcGood = true) (hs : f.stripe = true) (he : f.evt = 1) (hf : f.evtLane = l) (hu : f.units = [])
    (hr : ((getStack s n).nearSent.filter (fun e => e.1 == bit up)).length < 128) (hl : x.active.contains l = true)
    (ho : ∃ j ∈ x.active, j ≠ l) : ∃ t e, t = nearBundleFrame s n k up f ∧ getBundle t n k = x.loses l ∧
      t.faults.unlogged = s.faults.unlogged ++ [e] ∧ e.code = 0x0104 ∧ e.site = stackSite n ∧ e.unit = k ∧
      t.mem = s.mem ∧ (∀ j, j ≠ n → getStack t j = getStack s j) := by
  subst hx hf
  obtain ⟨j, hj, hjl⟩ := ho
  obtain ⟨d1, d2, d3, d4⟩ := bundleDelivered_row s n k up f
  rw [← d3 k] at hl hj ⊢
  obtain ⟨t, e, ht, hg, hu', h1, h2, h3, hm, ho⟩ := removeNearLane_row hk hl hj hjl
  rw [d3 k] at hj
  exact ⟨t, e, ht.trans (nearBundleFrame_removes h6 hn (List.ne_nil_of_mem hj) hb hc hs he hu hr).symm, hg, by rw [hu', d1],
    h1, h2, h3, hm.trans d2, fun i hi => (ho i hi).trans (d4 i hi)⟩

/-! ## O45 -/

/-- Settles O45: the words that count and those that do not, the line a ring finds, then each command of a pair direction and of
a near link by its row above. -/
theorem lanesAreWatchedAndReplaced : Obligations.LanesAreWatchedAndReplaced := by
  unfold Obligations.LanesAreWatchedAndReplaced
  refine ⟨fun s a b k w p hab hp hw => ?_, fun lines own x ho hx => foldl_nearer_own hx (.inl ho),
    fun s a b k p hab hk hp => ?_, fun s n k l x hn hk hl h6 hx => ?_⟩
  · subst hp hw
    have row {x : IdSeen} {t : State} (h : t = identityWord s a b k x) : exec (.identityWord a b k x) s = .next t :=
      guarded_next.mpr ⟨hab, h.symm⟩
    refine ⟨fun h5 hl hr ha hb hq => ?_, fun h x => row (identityWord_quiet k x h).symm⟩
    have hc : WordsCount s a b := ⟨h5, hl, hr, ha, hb, hq⟩
    refine ⟨fun x hn => ⟨fun hx => ?_, fun hx hm => ?_, fun hx hm => ?_⟩, fun ws => ⟨_, row rfl, identityWord_frame_row hc k ws⟩⟩
    · refine ⟨_, row ((identityWord_marker hc k x).trans (compareWord_right hn hx)).symm, rfl, ?_⟩
      rw [getPair_upd_self]
      exact ⟨laneLocked_wordRight _ k, by rw [wordRight_frame], evt_wordRight⟩
    · obtain ⟨t, e, ht, h1, h2, h3, h4, h5⟩ := identityMismatch_relocks_row rfl hm
      exact ⟨t, e, row (ht.trans ((identityWord_marker hc k x).trans (compareWord_wrong hn hx)).symm), h1, h2, h3, h4.trans hr, h5⟩
    · obtain ⟨t, ht, h1, h2, -, h3, -⟩ := identityMismatch_retires_row hm
      exact ⟨t, row (ht.trans ((identityWord_marker hc k x).trans (compareWord_wrong hn hx)).symm), h1, h2, h3⟩
  · have hkb : (hasPair s a b && decide (k < 18)) = true := by simp [hab, hk]
    refine ⟨fun rx x l hr hd hl => ?_, fun rx x h => ?_, fun d hd ht => ?_, fun hd => ?_, fun hr ha => ?_, fun hr => ?_,
      fun ht hr => ?_, fun ht => ?_, fun h5 hl hs ht => ⟨fun hr ha hb hm => ?_, fun h => ?_⟩,
      fun ht hs => ⟨fun eye oma he ho => ?_, fun eye oma h => ?_⟩⟩
    · subst hp
      exact ⟨_, guarded_next.mpr ⟨hkb, ringLock_locks hr hd hl⟩, pairBecomes_updPair s a b _⟩
    · subst hp
      exact guarded_next.mpr ⟨hkb, ringLock_stays x h⟩
    · subst hp
      exact ⟨_, guarded_next.mpr ⟨hab, rfl⟩, ringDarkExpiry_row hd ht⟩
    · subst hp
      exact guarded_next.mpr ⟨hab, ringDarkExpiry_lit hd⟩
    · exact ⟨_, guarded_next.mpr ⟨hab, rfl⟩, retrainingDone_row hp hr ha⟩
    · subst hp
      exact guarded_next.mpr ⟨hab, retrainingDone_stays hr⟩
    · subst hp
      refine ⟨_, guarded_next.mpr ⟨hab, rfl⟩, ?_⟩
      have h := pairBecomes_updPair s a b
        (fun p => if p.lastPacket + 1000 ≤ now s ∧ p.retraining = false then { p with asleep := true } else p)
      rwa [if_pos ⟨ht, hr⟩] at h
    · subst hp
      refine ⟨_, guarded_next.mpr ⟨hab, rfl⟩, ?_⟩
      have h := pairBecomes_updPair s a b
        (fun p => if p.lastPacket + 1000 ≤ now s ∧ p.retraining = false then { p with asleep := true } else p)
      rwa [if_neg (fun hc => absurd hc.1 (Nat.not_le.mpr ht))] at h
    · obtain ⟨t, e, ht', hrow⟩ := fabricLaneBer_row hp h5 hl hs ht hr ha hb hm
      exact ⟨t, e, guarded_next.mpr ⟨hkb, ht'.symm⟩, hrow⟩
    · refine ⟨_, guarded_next.mpr ⟨hkb, fabricLaneBer_waits hp h5 hl hs ht h⟩, ?_⟩
      subst hp
      exact pairBecomes_updPair s a b _
    · obtain ⟨t, ht', hrow⟩ := laneMarginDone_passes hp ht hs
      exact ⟨t, guarded_next.mpr ⟨hkb, by rw [fabricMargin_pass he ho, ← ht']⟩, hrow⟩
    · obtain ⟨t, e, ht', hrow⟩ := laneMarginDone_fails hp ht hs
      exact ⟨t, e, guarded_next.mpr ⟨hkb, by rw [fabricMargin_fail h, ← ht']⟩, hrow⟩
  · subst hx
    have hnb : (hasStack s n && decide (k < 10) && decide (l < 34)) = true := by simp [hn, hk, hl]
    have row : exec (.nearLaneBerExceeded n k l) s = .next (leaveBundle s n k [l]) := guarded_next.mpr ⟨hnb, if_pos h6⟩
    have hg := getBundle_leaveBundle s n k [l]
    refine ⟨fun ha => ⟨_, row, rfl, hg.trans (leave_one_active ha), fun j hj => getStack_upd_other s _ hj⟩,
      fun ha => ⟨_, row, rfl, hg.trans (leave_one_other ha)⟩, fun up f hnl hb hc hs he hf hu hr ha ho => ?_⟩
    obtain ⟨t, e, ht, hrow⟩ := nearBundleFrame_removes_row rfl hk h6 hnl hb hc hs he hf hu hr ha ho
    exact ⟨t, e, guarded_next.mpr ⟨by simp [hn, hk], ht.symm⟩, hrow⟩

end Sys2Proof.Machine
end

section
/-! SUPPORT. The functions that leave memory alone: neither a byte, a counter nor a mark of it changes. One lemma for each, by
the branches of its definition and the lemmas of the functions it calls, in the order of the model's files. -/

namespace Sys2Proof.Machine

/-- Nothing of memory differs. (Not by definition: a chain of changes is never unfolded to compare its ends.) -/
def SameMem (s t : State) : Prop := t.mem = s.mem

@[simp] theorem sameMem_iff {s t : State} : SameMem s t ↔ t.mem = s.mem := ⟨id, id⟩

@[simp] theorem mem_foldl {α : Type} {f : State → α → State} (h : ∀ t x, SameMem t (f t x)) (l : List α) (s : State) :
    (l.foldl f s).mem = s.mem := foldl_keeps State.mem h l s

/-- The memory of a choice: how `simp` goes through a branch inside a larger term. -/
theorem mem_ite (p : Prop) [Decidable p] (a b : State) : (if p then a else b).mem = if p then a.mem else b.mem :=
  apply_ite State.mem p a b

variable (s : State)

/-! ## Shared operations -/

@[simp] theorem mem_onceReleased {t : State} (k : Nat) (h : SameMem s t) : (onceReleased s k t).mem = s.mem := by
  unfold onceReleased
  split
  · exact h
  · rfl

@[simp] theorem mem_updCrossing (a b : Nat) (f : Crossing → Crossing) : (updCrossing s a b f).mem = s.mem := rfl

@[simp] theorem mem_countEvents (a b n : Nat) : (countEvents s a b n).mem = s.mem := by
  simp only [countEvents]; split <;> simp

@[simp] theorem mem_msix (fn vector : Nat) : (msix s fn vector).mem = s.mem := by
  simp only [msix]; split <;> simp

/-! ## Memory accesses and doorbells -/

@[simp] theorem mem_linkSend (k : Nat) (m : OutMsg) : (linkSend s k m).mem = s.mem := by simp [linkSend]

@[simp] theorem mem_doorbellHalf (c : Nat) (cq : Bool) (v : W32) : (doorbellHalf s c cq v).mem = s.mem := by
  simp only [doorbellHalf]; (repeat' split) <;> simp

@[simp] theorem mem_mirrorWrite (off : Nat) (bs : List Byte) : (mirrorWrite s off bs).mem = s.mem := by
  unfold mirrorWrite
  refine mem_foldl (fun t x => ?_) _ _
  split <;> simp

@[simp] theorem mem_touchDram (loc : Nat) (write : Bool) : (touchDram s loc write).mem = s.mem := by
  simp only [touchDram]; split <;> simp

@[simp] theorem mem_touchRange (a len : Nat) (write : Bool) : (touchRange s a len write).mem = s.mem := by
  simp only [touchRange]
  split
  · simp
  · refine mem_foldl (fun t x => ?_) _ _
    split <;> simp

@[simp] theorem mem_countStale (src a len : Nat) : (countStale s src a len).mem = s.mem := by simp [countStale]

/-! ## Requests at their source -/

@[simp] theorem mem_setFlow (f : FlowId) (x : Flow) : (setFlow s f x).mem = s.mem := rfl

@[simp] theorem mem_stopContext (c addr : Nat) : (stopContext s c addr).mem = s.mem := by
  simp only [stopContext]; split <;> simp

@[simp] theorem mem_dropHeldOf (p : CmdId → Bool) : (dropHeldOf s p).mem = s.mem := rfl
@[simp] theorem mem_stopTug (id : CmdId) : (stopTug s id).mem = s.mem := by simp [stopTug]

@[simp] theorem mem_noteOut (o : OutReq) (st detail : Nat) : (noteOut s o st detail).mem = s.mem := by
  simp only [noteOut]; (repeat' split) <;> simp

@[simp] theorem mem_wakeLanes (src dst : Nat) : (wakeLanes s src dst).mem = s.mem := by
  simp only [wakeLanes]; split <;> simp

@[simp] theorem mem_sendReq (o : OutReq) : (sendReq s o).mem = s.mem := by
  simp only [sendReq]; split <;> simp

@[simp] theorem mem_issueTracked (r : WireReq) (p : Purpose) : (issueTracked s r p).mem = s.mem := by
  simp only [issueTracked]; (repeat' split) <;> simp

@[simp] theorem mem_issueNew (r : WireReq) : (issueNew s r).mem = s.mem := by simp [issueNew]
@[simp] theorem mem_untrack (tag : Nat) : (untrack s tag).mem = s.mem := rfl

@[simp] theorem mem_issueHeld (o : OutReq) (swell : Bool) : (issueHeld s o swell).mem = s.mem := by
  simp only [issueHeld]; (repeat' split) <;> simp

@[simp] theorem mem_useTag (n : Nat) : (useTag s n).mem = s.mem := rfl
@[simp] theorem mem_issueWork (r : WireReq) (p : Purpose) : (issueWork s r p).mem = s.mem := by simp [issueWork]

@[simp] theorem mem_issueLoads (c : Cmd) (p : Purpose) (a len : Nat) : (issueLoads s c p a len).mem = s.mem := by
  unfold issueLoads
  refine mem_foldl (fun t x => ?_) _ _
  split <;> simp

@[simp] theorem mem_issueStores (c : Cmd) (p : Purpose) (a : Nat) (bs : List Byte) : (issueStores s c p a bs).mem = s.mem := by
  unfold issueStores
  refine mem_foldl (fun t x => ?_) _ _
  (repeat' split) <;> simp

@[simp] theorem mem_issueResults (c : Cmd) (l : List (Nat × Byte)) : (issueResults s c l).mem = s.mem := by
  simp [issueResults]

/-! ## Power domains and their crossings -/

@[simp] theorem mem_parkDomain (d : Nat) : (parkDomain s d).mem = s.mem := by
  unfold parkDomain
  refine mem_foldl (fun t x => ?_) _ _
  split <;> simp

@[simp] theorem mem_finishPark (d : Nat) : (finishPark s d).mem = s.mem := by
  unfold finishPark
  refine mem_foldl (fun t x => ?_) _ _
  split <;> simp

@[simp] theorem mem_unparkDomain (d : Nat) : (unparkDomain s d).mem = s.mem := by simp [unparkDomain]
@[simp] theorem mem_blockReset (hit : Nat → Bool) : (blockReset s hit).mem = s.mem := by simp [blockReset]

@[simp] theorem mem_pushDomain (d : Nat) (st : DomState) (who : Option Route) : (pushDomain s d st who).mem = s.mem := by
  simp only [pushDomain]; split <;> simp

@[simp] theorem mem_pushVia (d : Nat) (st : DomState) (who : Option Route) : (pushVia s d st who).mem = s.mem := by
  simp only [pushVia]; split <;> simp

@[simp] theorem mem_wakeDomain (d : Nat) : (wakeDomain s d).mem = s.mem := by
  simp only [wakeDomain]; split <;> simp

@[simp] theorem mem_wakeEngine (b e : Nat) : (wakeEngine s b e).mem = s.mem := by simp [wakeEngine]

@[simp] theorem mem_beginSet (d : Nat) (st : DomState) (r : Route) : (beginSet s d st r).mem = s.mem := by
  simp only [beginSet]; (repeat' split) <;> simp

@[simp] theorem mem_releaseWaiting : (releaseWaiting s).mem = s.mem := by
  unfold releaseWaiting
  refine mem_foldl (fun t d => ?_) _ _
  (repeat' split) <;> simp

@[simp] theorem mem_wakeFor (b : Nat) (c : Cmd) : (wakeFor s b c).mem = s.mem := by
  refine (mem_foldl (fun t x => ?_) _ _).trans ?_
  · split <;> simp
  · simp

@[simp] theorem mem_wakeModule (code : Nat) (same : List Nat) (returns : List Nat) :
    (wakeModule s code same returns).mem = s.mem := by
  simp only [wakeModule]; split <;> simp

/-! ## The plan of an optical command -/

@[simp] theorem mem_joinRotation (c : Cmd) : (joinRotation s c).mem = s.mem := by simp [joinRotation]

/-! ## Contexts, engines, berths and the module reset -/

@[simp] theorem mem_withdrawSets (p : Route → Bool) : (withdrawSets s p).mem = s.mem := by simp [withdrawSets]
@[simp] theorem mem_endCtx (c : Nat) (g : BitVec 8 → BitVec 8) : (endCtx s c g).mem = s.mem := by simp [endCtx]
@[simp] theorem mem_abortCtx (c : Nat) : (abortCtx s c).mem = s.mem := by simp [abortCtx]
@[simp] theorem mem_abortOnEngine (b e : Nat) : (abortOnEngine s b e).mem = s.mem := by simp [abortOnEngine]

@[simp] theorem mem_beginEngineReset (b e : Nat) : (beginEngineReset s b e).mem = s.mem :=
  (updEngine_mem _ b e _).trans (mem_abortOnEngine s b e)

@[simp] theorem mem_takeRung (rung reach unit site : Nat) : (takeRung s rung reach unit site).mem = s.mem := by
  simp [takeRung]

@[simp] theorem mem_noteRung (rung reach unit : Nat) : (noteRung s rung reach unit).mem = s.mem := by
  simp only [noteRung]; split <;> simp

@[simp] theorem mem_endRung (rung reach : Nat) : (endRung s rung reach).mem = s.mem := rfl
@[simp] theorem mem_writeDump : (writeDump s).mem = s.mem := by simp [writeDump]
@[simp] theorem mem_takeOver (b : Nat) : (takeOver s b).mem = s.mem := rfl
@[simp] theorem mem_switchLayers : (switchLayers s).mem = s.mem := rfl
@[simp] theorem mem_closeRanges (b : Nat) : (closeRanges s b).mem = s.mem := by simp [closeRanges]

/-! ## Fetch, start and mailbox requests -/

@[simp] theorem mem_issueSlot (c : Nat) (id : Option CmdId) (k : ReqKind) (a len : Nat) :
    (issueSlot s c id k a len).mem = s.mem := by
  simp only [issueSlot]; split <;> simp

@[simp] theorem mem_touchSlot (host : Bool) (a : Nat) : (touchSlot s host a).mem = s.mem := by
  simp only [touchSlot]; split <;> simp

@[simp] theorem mem_settleLimit (c : Nat) : (settleLimit s c).mem = s.mem := by simp [settleLimit]
@[simp] theorem mem_takeCommand (c p n : Nat) : (takeCommand s c p n).mem = s.mem := by simp [takeCommand]

@[simp] theorem mem_fetchCommand (c : Nat) : (fetchCommand s c).mem = s.mem := by
  simp only [fetchCommand]; (repeat' split) <;> simp

@[simp] theorem mem_startCmd (c : Cmd) : (startCmd s c).mem = s.mem := by simp [startCmd]

@[simp] theorem mem_tryStart (c : Cmd) : (tryStart s c).mem = s.mem := by
  simp only [tryStart]; (repeat' split) <;> simp

@[simp] theorem mem_startCommand (id : CmdId) : (startCommand s id).mem = s.mem := by
  simp only [startCommand]; (repeat' split) <;> simp

@[simp] theorem mem_mbxCheck (fn : Nat) : (mbxCheck s fn).mem = s.mem := by
  simp only [mbxCheck]; (repeat' split) <;> simp

@[simp] theorem mem_mbxCtrl (fn : Nat) (v : W64) : (mbxCtrl s fn v).mem = s.mem := by
  simp only [mbxCtrl]; (repeat' split) <;> simp

@[simp] theorem mem_markServed (r : Route) : (markServed s r).mem = s.mem := by
  simp only [markServed]; split <;> simp

@[simp] theorem mem_answer (r : Route) (res : MbxResult) : (answer s r res).mem = s.mem := by
  simp only [answer]; (repeat' split) <;> simp

/-! ## Service and retirement of engines -/

@[simp] theorem mem_retire (site : Nat) (r : Retirement) : (retire s site r).mem = s.mem := by simp [retire]
@[simp] theorem mem_countTransient (site : Nat) : (countTransient s site).mem = s.mem := by simp [countTransient]
@[simp] theorem mem_redealEngine (b e : Nat) : (redealEngine s b e).mem = s.mem := by simp [redealEngine]
@[simp] theorem mem_endWithoutEngines (b : Nat) : (endWithoutEngines s b).mem = s.mem := by simp [endWithoutEngines]

@[simp] theorem mem_gatherResult (code : Nat) (fail : Bool) (enob us : Nat) (r : Route) :
    (gatherResult code fail enob us s r).mem = s.mem := by
  simp only [gatherResult]; split <;> simp

@[simp] theorem mem_closeTest (fail : Bool) (enob us : Nat) (t : TestReq) : (closeTest fail enob us s t).mem = s.mem := by
  simp [closeTest]

@[simp] theorem mem_dropTests (el : Element) : (dropTests s el).mem = s.mem := by simp [dropTests]

@[simp] theorem mem_leaveService (b e reason : Nat) : (leaveService s b e reason).mem = s.mem := by
  simp only [leaveService]; split <;> simp

@[simp] theorem mem_flagRotation (b e : Nat) (f : TallyAcc → TallyAcc) : (flagRotation s b e f).mem = s.mem := by
  simp [flagRotation]

@[simp] theorem mem_spareLines (b e : Nat) (ls : List Nat) : (spareLines s b e ls).mem = s.mem := by
  unfold spareLines
  refine mem_foldl (fun t x => ?_) _ _
  split <;> simp

@[simp] theorem mem_spareRows (b e : Nat) (rs : List Nat) : (spareRows s b e rs).mem = s.mem := by
  unfold spareRows
  refine mem_foldl (fun t x => ?_) _ _
  split <;> simp

@[simp] theorem mem_spareAll (b e : Nat) (lines rows : List Nat) : (spareAll s b e lines rows).mem = s.mem := by
  simp only [spareAll]; (repeat' split) <;> simp

@[simp] theorem mem_flagCmd (id : CmdId) (f : TallyAcc → TallyAcc) : (flagCmd s id f).mem = s.mem := by simp [flagCmd]

/-! ## The work of a started command -/

@[simp] theorem mem_finishCmd (id : CmdId) (st : Option (Nat × Nat)) (results : List (Nat × Byte)) :
    (finishCmd s id st results).mem = s.mem := finishCmd_mem s id st results

@[simp] theorem mem_guaranteeBroken (c : Cmd) (g : Nat) : (guaranteeBroken s c g).mem = s.mem := by
  simp only [guaranteeBroken]; split <;> simp

@[simp] theorem mem_latencyBroken (c : Cmd) : (latencyBroken s c).mem = s.mem := by simp [latencyBroken]
@[simp] theorem mem_markHeld (c : Cmd) : (markHeld s c).mem = s.mem := by simp [markHeld]

@[simp] theorem mem_settleHeld (c : Cmd) : (settleHeld s c).mem = s.mem := by
  simp only [settleHeld]; (repeat' split) <;> simp

@[simp] theorem mem_awake (c : Cmd) (l : List Touch) {f : State → State} (h : ∀ t, SameMem t (f t)) :
    (awake s c l f).mem = s.mem := by
  unfold awake
  dsimp only
  (repeat' split) <;> simp [sameMem_iff.mp (h _)]

@[simp] theorem mem_readMarks (c : Cmd) (p : Purpose) (t : Touch) : (readMarks s c p t).mem = s.mem := by
  simp only [readMarks]; split <;> simp

@[simp] theorem mem_finishWork (c : Cmd) (ts : List Touch) (st : Option (Nat × Nat)) (results : List (Nat × Byte)) :
    (finishWork s c ts st results).mem = s.mem := by
  simp [finishWork]

/-! ## Digital operators -/

@[simp] theorem mem_finishProduct (c : Cmd) (ts : List Touch) (w : Product) : (finishProduct s c ts w).mem = s.mem := by
  simp [finishProduct]

@[simp] theorem mem_runDigital (c : Cmd) (ts : List Touch) (work : State → Product) : (runDigital s c ts work).mem = s.mem := by
  simp only [runDigital]; split <;> simp

/-! ## Commands of the operators -/

@[simp] theorem mem_beginOptical (c : Cmd) (ts : List Touch) : (beginOptical s c ts).mem = s.mem := by
  simp only [beginOptical]; (repeat' split) <;> simp

/-! ## Collectives -/

@[simp] theorem mem_setColls (l : List Collective) : (setColls s l).mem = s.mem := rfl

@[simp] theorem mem_stageMember (v : State) (cmds : List Cmd) (c : Cmd) : (stageMember v cmds s c).mem = s.mem := by
  simp [stageMember]

@[simp] theorem mem_runMembers (cmds : List Cmd) : (runMembers s cmds).mem = s.mem := by simp [runMembers]
@[simp] theorem mem_foundCollective (c : Cmd) : (foundCollective s c).mem = s.mem := by simp [foundCollective]

@[simp] theorem mem_joinCollective (c : Cmd) : (joinCollective s c).mem = s.mem := by
  simp only [joinCollective]; (repeat' split) <;> simp

@[simp] theorem mem_collWork (c : Cmd) : (collWork s c).mem = s.mem := by
  simp only [collWork]; (repeat' split) <;> simp

@[simp] theorem mem_settleColls : (settleColls s).mem = s.mem := by simp [settleColls]

@[simp] theorem mem_meet (remoteAgree : Bool) (k : Collective) : (meet remoteAgree s k).mem = s.mem := by
  simp only [meet]; (repeat' split) <;> simp

/-! ## Graphs -/

@[simp] theorem mem_setSlot (p slot : Nat) (g : GraphSlot) : (setSlot s p slot g).mem = s.mem := rfl

@[simp] theorem mem_graphLoad (c : Cmd) : (graphLoad s c).mem = s.mem := by
  simp only [graphLoad]; (repeat' split) <;> simp

@[simp] theorem mem_graphUnload (c : Cmd) : (graphUnload s c).mem = s.mem := by
  simp only [graphUnload]; split <;> simp

@[simp] theorem mem_updRun (id : CmdId) (f : GraphRunState → GraphRunState) : (updRun s id f).mem = s.mem := rfl

@[simp] theorem mem_finishRun (r : GraphRunState) : (finishRun s r).mem = s.mem := by
  simp only [finishRun]; split <;> simp

@[simp] theorem mem_settleRun (id : CmdId) : (settleRun s id).mem = s.mem := by
  simp only [settleRun]; (repeat' split) <;> simp

@[simp] theorem mem_abortNode (id : CmdId) (i j st detail : Nat) : (abortNode s id i j st detail).mem = s.mem := by
  simp only [abortNode]; split <;> simp

@[simp] theorem mem_edgeStatus (id : CmdId) (producer st : Nat) : (edgeStatus s id producer st).mem = s.mem := by
  simp only [edgeStatus]; (repeat' split) <;> simp

@[simp] theorem mem_beginRun (r : GraphRunState) : (beginRun s r).mem = s.mem := by simp [beginRun]

@[simp] theorem mem_graphRun (c : Cmd) : (graphRun s c).mem = s.mem := by
  simp only [graphRun]; (repeat' split) <;> simp

@[simp] theorem mem_beginNode (m : Cmd) (i : Nat) : (beginNode s m i).mem = s.mem := by simp [beginNode]

@[simp] theorem mem_endNode (id : CmdId) (i j st detail : Nat) : (endNode s id i j st detail).mem = s.mem := by
  simp [endNode]

@[simp] theorem mem_nodeStart (id : CmdId) (i j : Nat) : (nodeStart s id i j).mem = s.mem := by
  simp only [nodeStart]; (repeat' split) <;> simp

@[simp] theorem mem_deadNodes (pos : Nat) : (deadNodes s pos).mem = s.mem := by
  unfold deadNodes
  refine mem_foldl (fun t r => mem_foldl (fun u n => ?_) _ _) _ _
  dsimp only
  split <;> simp

@[simp] theorem mem_nodeCompleted (c : Cmd) (i j : Nat) : (nodeCompleted s c i j).mem = s.mem := by
  simp only [nodeCompleted]; split <;> simp

/-! ## Results of optical commands -/

@[simp] theorem mem_finishOptical (c : Cmd) (product : Nat) : (finishOptical s c product).mem = s.mem := by
  simp [finishOptical]

@[simp] theorem mem_attentionMiddle (c : Cmd) : (attentionMiddle s c).mem = s.mem := by simp [attentionMiddle]

@[simp] theorem mem_productDone (c : Cmd) : (productDone s c).mem = s.mem := by
  simp only [productDone]; (repeat' split) <;> simp

/-! ## Tests, runs and Lighthouses -/

@[simp] theorem mem_queueTest (t : TestReq) : (queueTest s t).mem = s.mem := by simp [queueTest]
@[simp] theorem mem_startTest (t : TestReq) : (startTest s t).mem = s.mem := rfl
@[simp] theorem mem_endTest (el : Element) : (endTest s el).mem = s.mem := rfl
@[simp] theorem mem_orderTest (el : Element) (code : Nat) (work : Option CmdId) : (orderTest s el code work).mem = s.mem := rfl
@[simp] theorem mem_lendBlocks (b e : Nat) : (lendBlocks s b e).mem = s.mem := by simp [lendBlocks]

@[simp] theorem mem_startRun (s0 : State) (b e : Nat) : (startRun s0 b e).mem = s0.mem := by
  simp only [startRun]; (repeat' split) <;> simp

@[simp] theorem mem_engineBoundary (b e : Nat) : (engineBoundary s b e).mem = s.mem := by
  simp only [engineBoundary]; (repeat' split) <;> simp

@[simp] theorem mem_berthBoundaries (b : Nat) : (berthBoundaries s b).mem = s.mem := by simp [berthBoundaries]
@[simp] theorem mem_requeueTests (el : Element) : (requeueTests s el).mem = s.mem := rfl
@[simp] theorem mem_returnEngine (b e : Nat) : (returnEngine s b e).mem = s.mem := by simp [returnEngine]
@[simp] theorem mem_engineTransient (b e : Nat) : (engineTransient s b e).1.mem = s.mem := by simp [engineTransient]
@[simp] theorem mem_updQuayLh (q : Nat) (f : FabricPort → FabricPort) : (updQuayLh s q f).mem = s.mem := rfl

@[simp] theorem mem_updLh (lh : LighthouseId) (f : Lighthouse → Lighthouse) : (updLh s lh f).mem = s.mem := by
  simp only [updLh]; split <;> simp

@[simp] theorem mem_retireLh (lh : LighthouseId) : (retireLh s lh).mem = s.mem := by
  simp only [retireLh]; split <;> simp

@[simp] theorem mem_faultLh (lh : LighthouseId) : (faultLh s lh).mem = s.mem := by
  simp only [faultLh]; split <;> simp

/-! ## Engines -/

@[simp] theorem mem_reloadBlock (b e : Nat) (r : Run) : (reloadBlock s b e r).mem = s.mem := by
  simp only [reloadBlock]; split <;> simp

@[simp] theorem mem_bankLoadDone (b e : Nat) : (bankLoadDone s b e).mem = s.mem := by
  simp only [bankLoadDone]; (repeat' split) <;> simp

@[simp] theorem mem_bankSwitch (b e : Nat) : (bankSwitch s b e).mem = s.mem := by
  simp only [bankSwitch]; split <;> simp

@[simp] theorem mem_discardRun (b e : Nat) : (discardRun s b e).mem = s.mem := by
  simp only [discardRun]; (repeat' split) <;> simp

@[simp] theorem mem_repeatRun (b e number : Nat) : (repeatRun s b e number).mem = s.mem := by
  simp only [repeatRun]; split <;> simp

@[simp] theorem mem_lighthouseFault (b e : Nat) : (lighthouseFault s b e).mem = s.mem := by
  simp only [lighthouseFault]; (repeat' split) <;> simp

@[simp] theorem mem_sweepForRun (b e : Nat) (r : Run) : (sweepForRun s b e r).mem = s.mem := by simp [sweepForRun]
@[simp] theorem mem_retriesSpent (b e : Nat) (r : Run) : (retriesSpent s b e r).mem = s.mem := by simp [retriesSpent]

@[simp] theorem mem_windowMismatch (b e : Nat) (r : Run) : (windowMismatch s b e r).mem = s.mem := by
  simp only [windowMismatch]; (repeat' split) <;> simp

@[simp] theorem mem_windowClean (b e : Nat) (r : Run) (seg : Segment) (rows : List Int) :
    (windowClean s b e r seg rows).mem = s.mem := by
  simp [windowClean]

@[simp] theorem mem_windowIdle (b e : Nat) (r : Run) : (windowIdle s b e r).mem = s.mem := by simp [windowIdle]

@[simp] theorem mem_windowEnd (b e : Nat) (rows : List Int) (check : Int) (o : WindowSeen) :
    (windowEnd s b e rows check o).mem = s.mem := by
  simp only [windowEnd]; (repeat' split) <;> simp

@[simp] theorem mem_commitRun (b e : Nat) (r : Run) (switched : Bool) : (commitRun s b e r switched).mem = s.mem := by
  simp only [commitRun]; (repeat' split) <;> simp

@[simp] theorem mem_stageOutput (b e : Nat) (o : WindowOut) (r : Run) (switched : Bool) :
    (stageOutput s b e o r switched).mem = s.mem := by
  simp only [stageOutput]; (repeat' split) <;> simp

@[simp] theorem mem_windowOutput (b e : Nat) : (windowOutput s b e).mem = s.mem := by
  simp only [windowOutput]; (repeat' split) <;> simp

@[simp] theorem mem_tapTick (b e : Nat) (ppm : List Nat) : (tapTick s b e ppm).mem = s.mem := by
  simp only [tapTick]; split <;> simp

@[simp] theorem mem_engineResetDone (b e : Nat) : (engineResetDone s b e).mem = s.mem := by
  simp only [engineResetDone]; (repeat' split) <;> simp

/-! ## Stacks -/

@[simp] theorem mem_correctChannel (n c conn row : Nat) : (correctChannel s n c conn row).mem = s.mem := by
  simp [correctChannel]

@[simp] theorem mem_degradeChannel (n c : Nat) : (degradeChannel s n c).mem = s.mem := by
  simp only [degradeChannel]; split <;> simp

@[simp] theorem mem_spareConnection (n c conn : Nat) : (spareConnection s n c conn).mem = s.mem := by
  simp only [spareConnection]; split <;> simp

@[simp] theorem mem_chooseConns (failed : List Nat) (n c : Nat) : (chooseConns failed s n c).mem = s.mem := by
  simp only [chooseConns]; (repeat' split) <;> simp

@[simp] theorem mem_countFixes (n c : Nat) (l : List CopyFix) : (countFixes s n c l).mem = s.mem := by simp [countFixes]

@[simp] theorem mem_testConnections (n c : Nat) (pass : List Nat) : (testConnections s n c pass).mem = s.mem := by
  unfold testConnections
  refine mem_foldl (fun t x => ?_) _ _
  split <;> simp

@[simp] theorem mem_repairRow (n c r : Nat) : (repairRow s n c r).mem = s.mem := by
  simp only [repairRow]; (repeat' split) <;> simp

@[simp] theorem mem_repairRows (n c : Nat) (fixed : List CopyFix) : (repairRows s n c fixed).mem = s.mem := by
  simp [repairRows]

@[simp] theorem mem_updBundle (n k : Nat) (f : Bundle → Bundle) : (updBundle s n k f).mem = s.mem := by simp [updBundle]
@[simp] theorem mem_gapLanes (n : Nat) (pass : List Nat) : (gapLanes s n pass).mem = s.mem := gapLanes_mem s n pass

@[simp] theorem mem_trimNear (n : Nat) : (trimNear s n).mem = s.mem := by
  simp only [trimNear]; split <;> simp

@[simp] theorem mem_refreshGap (n c : Nat) (loopback : List Nat) (o : GapSeen) : (refreshGap s n c loopback o).mem = s.mem := by
  simp only [refreshGap]; (repeat' split) <;> simp

@[simp] theorem mem_scrubOne (n c bank : Nat) (f : ScrubFinding) : (scrubOne n c bank s f).mem = s.mem := by
  simp only [scrubOne]; split <;> simp

@[simp] theorem mem_retireRange (k : SegKey) : (retireRange s k).mem = s.mem := by
  simp only [retireRange]; split <;> simp

@[simp] theorem mem_retireChannel (n c : Nat) : (retireChannel s n c).mem = s.mem := by simp [retireChannel]

@[simp] theorem mem_settleLoss (n : Nat) : (settleLoss s n).mem = s.mem := by
  simp only [settleLoss]; split <;> simp

@[simp] theorem mem_evacuationEnd (n : Nat) : (evacuationEnd s n).mem = s.mem := by
  simp only [evacuationEnd]; (repeat' split) <;> simp

@[simp] theorem mem_poolExhausted (k : SegKey) : (poolExhausted s k).mem = s.mem := by simp [poolExhausted]

@[simp] theorem mem_segmentMoveStart (k : SegKey) : (segmentMoveStart s k).mem = s.mem := by
  simp only [segmentMoveStart]; (repeat' split) <;> simp

@[simp] theorem mem_updMove (k : SegKey) (f : Move → Move) : (updMove s k f).mem = s.mem := by
  simp only [updMove]; split <;> simp

@[simp] theorem mem_releaseSegment (k : SegKey) : (releaseSegment s k).mem = s.mem := by simp [releaseSegment]

@[simp] theorem mem_segmentRecorded (k : SegKey) : (segmentRecorded s k).mem = s.mem := by
  simp only [segmentRecorded]; (repeat' split) <;> simp

@[simp] theorem mem_layerAlarm (n : Nat) (l : Nat) : (layerAlarm n s l).mem = s.mem := layerAlarm_mem n s l
@[simp] theorem mem_layerTick (n : Nat) (r : StackReading) : (layerTick s n r).mem = s.mem := layerTick_mem s n r

@[simp] theorem mem_sensorEvent (site unit : Nat) (reading : Int) : (sensorEvent s site unit reading).mem = s.mem := by
  simp [sensorEvent]

@[simp] theorem mem_stackSensor (n x : Nat) : (stackSensor s n x).mem = s.mem := by
  simp only [stackSensor]; (repeat' split) <;> simp

/-! ## Losses of sites and pairs -/

@[simp] theorem mem_loseBerth (b : Nat) : (loseBerth s b).mem = s.mem := by
  simp only [loseBerth]; split <;> simp

@[simp] theorem mem_loseStack (n : Nat) (port : Bool) : (loseStack s n port).mem = s.mem := by
  simp only [loseStack]; (repeat' split) <;> simp

@[simp] theorem mem_linkDown (k : Nat) (st : LinkState) (outcome : Nat) : (linkDown s k st outcome).mem = s.mem := by
  simp [linkDown]

@[simp] theorem mem_endRelayed (r : Nat) : (endRelayed s r).mem = s.mem := by
  simp only [endRelayed]; split <;> simp

@[simp] theorem mem_delayLink (k : Nat) : (delayLink s k).mem = s.mem := rfl
@[simp] theorem mem_linkLost (k : Nat) : (linkLost s k).mem = s.mem := by simp [linkLost]

@[simp] theorem mem_failQuayLinks (q : Nat) : (failQuayLinks s q).mem = s.mem := by
  unfold failQuayLinks
  refine mem_foldl (fun t x => ?_) _ _
  split <;> simp

@[simp] theorem mem_loseQuay (q : Nat) : (loseQuay s q).mem = s.mem := by
  simp only [loseQuay]; split <;> simp

@[simp] theorem mem_loseFabric (k : Nat) : (loseFabric s k).mem = s.mem := by
  simp only [loseFabric]; split <;> simp

@[simp] theorem mem_pairLoss (src dst : Nat) : (pairLoss s src dst).mem = s.mem := by
  simp only [pairLoss]; (repeat' split) <;> simp

/-! ## Regions and tiles -/

@[simp] theorem mem_feedCheck (b e : Nat) : (feedCheck s b e).mem = s.mem := by
  simp only [feedCheck]; split <;> simp

@[simp] theorem mem_retireTile (b t : Nat) : (retireTile s b t).mem = s.mem := by
  simp only [retireTile]; split <;> simp

@[simp] theorem mem_failTile (b t : Nat) : (failTile s b t).mem = s.mem := by
  simp only [failTile]; (repeat' split) <;> simp

@[simp] theorem mem_coreSubstitution (b t : Nat) : (coreSubstitution s b t).mem = s.mem := by
  simp only [coreSubstitution]; split <;> simp

@[simp] theorem mem_attachForTest (b t : Nat) : (attachForTest s b t).mem = s.mem := by
  simp only [attachForTest]; split <;> simp

@[simp] theorem mem_detachSpare (b t : Nat) : (detachSpare s b t).mem = s.mem := by simp [detachSpare]

/-! ## Tests and calibrations -/

@[simp] theorem mem_tileBoundary (b t : Nat) : (tileBoundary s b t).mem = s.mem := by
  simp only [tileBoundary]; (repeat' split) <;> simp

@[simp] theorem mem_tileBoundaries (b : Nat) : (tileBoundaries s b).mem = s.mem := by
  unfold tileBoundaries
  refine mem_foldl (fun t q => ?_) _ _
  (repeat' split) <;> simp

@[simp] theorem mem_restoreTile (b t : Nat) : (restoreTile s b t).mem = s.mem := by
  simp only [restoreTile]; split <;> simp

@[simp] theorem mem_lostCore (b t : Nat) : (lostCore s b t).mem = s.mem := by
  simp only [lostCore]; split <;> simp

@[simp] theorem mem_requestTest (r : Route) (code : Nat) (el : Element) : (requestTest r code s el).mem = s.mem := by
  simp only [requestTest]; split <;> simp

@[simp] theorem mem_reloadHeld (b e : Nat) (work : Option CmdId) : (reloadHeld s b e work).mem = s.mem := by
  simp only [reloadHeld]; split <;> simp

@[simp] theorem mem_engineTested (b e : Nat) (t : TestReq) (res : TestResult) : (engineTested s b e t res).mem = s.mem := by
  simp only [engineTested]; (repeat' split) <;> simp

@[simp] theorem mem_tileTransient (b t : Nat) : (tileTransient s b t).mem = s.mem := by
  simp only [tileTransient]; split <;> simp

@[simp] theorem mem_tileTested (b v : Nat) (t : TestReq) (res : TestResult) : (tileTested s b v t res).mem = s.mem := by
  simp only [tileTested]; (repeat' split) <;> simp

@[simp] theorem mem_hmTested (i : Nat) (pass : Bool) : (hmTested s i pass).mem = s.mem := by
  simp only [hmTested]; (repeat' split) <;> simp

@[simp] theorem mem_lhTested (lh : LighthouseId) (pass : Bool) : (lhTested s lh pass).mem = s.mem := by
  simp only [lhTested]; (repeat' split) <;> simp

@[simp] theorem mem_testDone (el : Element) (res : TestResult) : (testDone s el res).mem = s.mem := by
  simp only [testDone]; (repeat' split) <;> simp

@[simp] theorem mem_engineTrigger (b e : Nat) (why : CalTrigger) : (engineTrigger s b e why).mem = s.mem := by
  simp only [engineTrigger]; (repeat' split) <;> simp

@[simp] theorem mem_trimPair (idle : Bool) (src : Nat) (dst : Nat) : (trimPair idle src s dst).mem = s.mem := by
  simp only [trimPair]; (repeat' split) <;> simp

@[simp] theorem mem_finishTrims (k : Nat) : (finishTrims s k).mem = s.mem := by
  simp only [finishTrims]; (repeat' split) <;> simp

@[simp] theorem mem_trimDuePair (src dst : Nat) : (trimDuePair s src dst).mem = s.mem := by simp [trimDuePair]

@[simp] theorem mem_trimPort (k : Nat) (both : Bool) : (trimPort s k both).mem = s.mem := by
  simp only [trimPort]; split <;> simp

@[simp] theorem mem_laneTrigger (k : Nat) (why : CalTrigger) : (laneTrigger s k why).mem = s.mem := by
  simp only [laneTrigger]; split <;> simp

@[simp] theorem mem_calTrigger (el : Element) (why : CalTrigger) : (calTrigger s el why).mem = s.mem := by
  simp only [calTrigger]; (repeat' split) <;> simp

@[simp] theorem mem_calibrationPassed (b e : Nat) (t : TestReq) (enob : List Nat) :
    (calibrationPassed s b e t enob).mem = s.mem := by
  simp [calibrationPassed]

@[simp] theorem mem_calibrationDone (b e : Nat) (enob : List Nat) (res : TestResult) :
    (calibrationDone s b e enob res).mem = s.mem := by
  simp only [calibrationDone]; (repeat' split) <;> simp

@[simp] theorem mem_standbyCheck (lh : LighthouseId) (pass : Bool) : (standbyCheck s lh pass).mem = s.mem := by
  simp only [standbyCheck]; (repeat' split) <;> simp

/-! ## Copies and fills -/

@[simp] theorem mem_readPiece (c : Cmd) (k : Nat) (p : TugPiece) : (readPiece s c k p).mem = s.mem := by
  simp only [readPiece]; split <;> simp

@[simp] theorem mem_tugBegin (c : Cmd) : (tugBegin s c).mem = s.mem := by
  simp only [tugBegin]; split <;> simp

/-! ## Timeouts and completion -/

@[simp] theorem mem_dropHeld (id : CmdId) : (dropHeld s id).mem = s.mem := by simp [dropHeld]
@[simp] theorem mem_withdrawTests (r : Route) : (withdrawTests s r).mem = s.mem := by simp [withdrawTests]

@[simp] theorem mem_servedTimeout (r : Route) (op params : Nat) : (servedTimeout s r op params).mem = s.mem := by
  simp only [servedTimeout]; (repeat' split) <;> simp

@[simp] theorem mem_mailboxTimeout (fn : Nat) : (mailboxTimeout s fn).mem = s.mem := by
  simp only [mailboxTimeout]; (repeat' split) <;> simp

@[simp] theorem mem_escalateStop (id : CmdId) (u : StuckUnit) : (escalateStop s id u).mem = s.mem := by
  simp only [escalateStop]; (repeat' split) <;> simp

@[simp] theorem mem_dropCmd (c : Cmd) : (dropCmd s c).mem = s.mem := by simp [dropCmd]

@[simp] theorem mem_waitEntry (c : Cmd) : (waitEntry s c).mem = s.mem := by
  unfold waitEntry
  refine mem_foldl (fun t x => ?_) _ _
  (repeat' split) <;> simp

@[simp] theorem mem_residualCalibrations (c : Cmd) : (residualCalibrations s c).mem = s.mem := by
  unfold residualCalibrations
  split
  · refine mem_foldl (fun t x => ?_) _ _
    split <;> simp
  · simp

@[simp] theorem mem_releaseAfter (c : Cmd) : (releaseAfter s c).mem = s.mem := by simp [releaseAfter]
@[simp] theorem mem_settleClosing (c : Nat) : (settleClosing s c).mem = s.mem := by simp [settleClosing]

@[simp] theorem mem_completeMailbox (fn : Nat) : (completeMailbox s fn).mem = s.mem := by
  simp only [completeMailbox]; (repeat' split) <;> simp

/-! ## Training of links -/

@[simp] theorem mem_memberEvent (pos outcome : Nat) : (memberEvent s pos outcome).mem = s.mem := by simp [memberEvent]
@[simp] theorem mem_startTraining (k : Nat) : (startTraining s k).mem = s.mem := by simp [startTraining]

@[simp] theorem mem_freeQuay (q : Nat) : (freeQuay s q).mem = s.mem := by
  unfold freeQuay
  refine mem_foldl (fun t x => ?_) _ _
  dsimp only
  (repeat' split) <;> simp

/-! ## Management requests -/

@[simp] theorem mem_noStep : (noStep s).mem = s.mem := rfl

@[simp] theorem mem_roleDrained (k : Nat) : (roleDrained s k).mem = s.mem := by
  simp only [roleDrained]; split <;> simp

@[simp] theorem mem_roleReply (k : Nat) : (roleReply s k).mem = s.mem := by
  simp only [roleReply]; (repeat' split) <;> simp

@[simp] theorem mem_nextTransition (d : Nat) : (nextTransition s d).mem = s.mem := by
  simp only [nextTransition]; (repeat' split) <;> simp

@[simp] theorem mem_loadReplicas (d : Nat) (st : DomState) : (loadReplicas s d st).mem = s.mem := rfl

@[simp] theorem mem_requestIssue (r : WireReq) : (requestIssue s r).mem = s.mem := by
  simp only [requestIssue]; (repeat' split) <;> simp

@[simp] theorem mem_countPri (r : WireReq) : (countPri s r).mem = s.mem := by
  simp only [countPri]; split <;> simp

@[simp] theorem mem_countRow (r : WireReq) : (countRow s r).mem = s.mem := by
  simp only [countRow]; split <;> simp

@[simp] theorem mem_countSlot (r : WireReq) : (countSlot s r).mem = s.mem := by simp [countSlot]

@[simp] theorem mem_park (r : WireReq) : (park s r).mem = s.mem :=
  mem_foldl (fun t d => by simp) _ _

@[simp] theorem mem_unpark (r : WireReq) : (unpark s r).mem = s.mem := rfl

@[simp] theorem mem_markAnswered (r : WireReq) : (markAnswered s r).mem = s.mem := by
  simp only [markAnswered]; split <;> simp

@[simp] theorem mem_answerBy (r : WireReq) (m : OutMsg) : (answerBy r s m).mem = s.mem := by
  simp only [answerBy]; split <;> simp

@[simp] theorem mem_respond (r : WireReq) (o : ServeObs) (st : Nat) (data : List Byte) :
    (respond s r o st data).mem = s.mem := by
  simp only [respond]; split <;> simp

@[simp] theorem mem_correctedDram (loc : Nat) (o : ServeObs) : (correctedDram s loc o).mem = s.mem := by
  simp [correctedDram]

@[simp] theorem mem_uncorrectableTile (r : WireReq) (b t : Nat) : (uncorrectableTile s r b t).mem = s.mem := by
  simp [uncorrectableTile]

@[simp] theorem mem_tellWork (r : WireReq) (st : Nat) : (tellWork s r st).mem = s.mem := by
  simp only [tellWork]; (repeat' split) <;> simp

@[simp] theorem mem_refuseBar2 (fn : Nat) (r : WireReq) (o : ServeObs) : (refuseBar2 s fn r o).mem = s.mem := by
  simp only [refuseBar2]; split <;> simp

@[simp] theorem mem_settleFlow (o : OutReq) (echo : Bool) : (settleFlow s o echo).mem = s.mem := by
  simp only [settleFlow]; split <;> simp

@[simp] theorem mem_requestLate (o : OutReq) : (requestLate s o).mem = s.mem := by
  simp only [requestLate]; split <;> simp

@[simp] theorem mem_answered (o : OutReq) (st : Nat) : (answered s o st).mem = s.mem := by
  simp only [answered]; (repeat' split) <;> simp

@[simp] theorem mem_dropResponse (ctx : Option Nat) : (dropResponse s ctx).mem = s.mem := by
  simp only [dropResponse]; split <;> simp

@[simp] theorem mem_leaveFlow (o : OutReq) : (leaveFlow s o).mem = s.mem := by
  simp only [leaveFlow]; split <;> simp

@[simp] theorem mem_readBack (o : OutReq) (data : List Byte) : (readBack s o data).mem = s.mem := by
  simp only [readBack]; split <;> simp

@[simp] theorem mem_unspend (t : Nat) : (unspend s t).mem = s.mem := rfl

@[simp] theorem mem_spend (o : OutReq) : (spend s o).mem = s.mem := by
  simp only [spend]; split <;> simp

@[simp] theorem mem_takeResponse (r : WireResp) : (takeResponse s r).mem = s.mem := by
  simp only [takeResponse]; (repeat' split) <;> simp

@[simp] theorem mem_settleEarly (n : Nat) (s : State) : (settleEarly n s).mem = s.mem := by
  induction n generalizing s with
  | zero => exact rfl
  | succ n ih =>
    simp only [settleEarly]
    split <;> simp [ih]

@[simp] theorem mem_response (r : WireResp) : (response s r).mem = s.mem := by
  simp only [response]; split <;> simp

@[simp] theorem mem_probeAway (pos site : Nat) : (probeAway s pos site).mem = s.mem := by simp [probeAway]

@[simp] theorem mem_probe (pos site : Nat) : (probe s pos site).mem = s.mem := by
  simp only [probe]; (repeat' split) <;> simp

@[simp] theorem mem_endRequest (o : OutReq) : (endRequest s o).mem = s.mem := by simp [endRequest]
@[simp] theorem mem_siteEvent (site outcome : Nat) : (siteEvent s site outcome).mem = s.mem := by simp [siteEvent]

@[simp] theorem mem_epochUpdate (pos site : Nat) (e : EpochSeen) : (epochUpdate s pos site e).mem = s.mem := by
  simp only [epochUpdate]; (repeat' split) <;> simp

/-! ## The fabric and the near bundles -/

@[simp] theorem mem_delayed (p : OutReq → Bool) : (delayed s p).mem = s.mem := rfl
@[simp] theorem mem_delayPair (a b : Nat) : (delayPair s a b).mem = s.mem := by simp [delayPair]
@[simp] theorem mem_delayNear (n : Nat) : (delayNear s n).mem = s.mem := by simp [delayNear]
@[simp] theorem mem_delaySite (k : Nat) : (delaySite s k).mem = s.mem := by simp [delaySite]

@[simp] theorem mem_relockRing (src dst : Nat) (rx : Bool) (plane : Nat) : (relockRing s src dst rx plane).mem = s.mem := by
  simp [relockRing]

@[simp] theorem mem_ringLock (src dst plane : Nat) (rx : Bool) (offset : Int) :
    (ringLock s src dst plane rx offset).mem = s.mem := by
  simp only [ringLock]; (repeat' split) <;> simp

@[simp] theorem mem_ringDarkExpiry (src dst : Nat) : (ringDarkExpiry s src dst).mem = s.mem := by
  simp only [ringDarkExpiry]
  (repeat' split)
  · refine mem_foldl (fun t x => mem_foldl (fun u rx => ?_) _ _) _ _
    split <;> simp
  all_goals simp

@[simp] theorem mem_beginRetraining (src dst : Nat) : (beginRetraining s src dst).mem = s.mem := by
  unfold beginRetraining
  refine mem_foldl (fun t x => ?_) _ _
  split <;> simp

@[simp] theorem mem_frameFailed (src dst : Nat) : (frameFailed s src dst).mem = s.mem := by
  simp only [frameFailed]; (repeat' split) <;> simp

@[simp] theorem mem_settleWidth (src dst before : Nat) : (settleWidth s src dst before).mem = s.mem := by
  simp only [settleWidth]; (repeat' split) <;> simp

@[simp] theorem mem_settlePlane (before : State) (plane : Nat) : (settlePlane before s plane).mem = s.mem := by
  simp only [settlePlane]; split <;> simp

@[simp] theorem mem_takeOut (src dst plane : Nat) : (takeOut s src dst plane).mem = s.mem := by simp [takeOut]

@[simp] theorem mem_laneEvent (src dst evt plane : Nat) : (laneEvent s src dst evt plane).mem = s.mem := by
  simp only [laneEvent]; (repeat' split) <;> simp

@[simp] theorem mem_askEvent (src dst evt plane : Nat) : (askEvent s src dst evt plane).mem = s.mem := by
  simp only [askEvent]; split <;> simp

@[simp] theorem mem_fabricLaneBer (src dst plane : Nat) : (fabricLaneBer s src dst plane).mem = s.mem := by
  simp only [fabricLaneBer]; (repeat' split) <;> simp

@[simp] theorem mem_examineAgain (src dst : Nat) : (examineAgain s src dst).mem = s.mem := by simp [examineAgain]

@[simp] theorem mem_countSent (src dst : Nat) (seq : W32) (units : List Nat) : (countSent s src dst seq units).mem = s.mem := by
  simp only [countSent]; split <;> simp

@[simp] theorem mem_countTaken (dst : Nat) (units : List Nat) : (countTaken s dst units).mem = s.mem := by
  simp only [countTaken]; split <;> simp

@[simp] theorem mem_reverseFields (src dst : Nat) (f : FabricFrame) : (reverseFields s src dst f).mem = s.mem := by
  simp only [reverseFields]; (repeat' split) <;> simp

@[simp] theorem mem_endTrims (k : Nat) : (endTrims s k).mem = s.mem := by
  simp only [endTrims]; (repeat' split) <;> simp

@[simp] theorem mem_acceptFrame (src dst : Nat) (f : FabricFrame) (body : Nat) (units : List Nat) :
    (acceptFrame s src dst f body units).mem = s.mem := by
  simp only [acceptFrame]; split <;> simp

@[simp] theorem mem_stripedFrame (src dst : Nat) (lanes : List (BitVec 112)) (units waiting : List Nat) :
    (stripedFrame s src dst lanes units waiting).mem = s.mem := by
  simp only [stripedFrame]; (repeat' split) <;> simp

@[simp] theorem mem_retireLane (src dst plane : Nat) (held : Bool) : (retireLane s src dst plane held).mem = s.mem := by
  simp [retireLane]

@[simp] theorem mem_identityMismatch (src dst plane : Nat) : (identityMismatch s src dst plane).mem = s.mem := by
  simp only [identityMismatch]; split <;> simp

@[simp] theorem mem_compareWord (src dst : Nat) (pw : Nat × W64) : (compareWord src dst s pw).mem = s.mem := by
  simp only [compareWord]; (repeat' split) <;> simp

@[simp] theorem mem_identityWord (src dst plane : Nat) (w : IdSeen) : (identityWord s src dst plane w).mem = s.mem := by
  simp only [identityWord]; (repeat' split) <;> simp

@[simp] theorem mem_laneMarginDone (src dst plane : Nat) (pass : Bool) : (laneMarginDone s src dst plane pass).mem = s.mem := by
  simp only [laneMarginDone]; (repeat' split) <;> simp

@[simp] theorem mem_retrainingDone (src dst : Nat) : (retrainingDone s src dst).mem = s.mem := by
  simp only [retrainingDone]; split <;> simp

@[simp] theorem mem_darken (k : Nat) : (darken s k).mem = s.mem := by simp [darken]
@[simp] theorem mem_relight (k : Nat) : (relight s k).mem = s.mem := by simp [relight]

@[simp] theorem mem_fabricLighthouseFault (k : Nat) : (fabricLighthouseFault s k).mem = s.mem := by
  simp only [fabricLighthouseFault]; (repeat' split) <;> simp

@[simp] theorem mem_fabricLhResume (k : Nat) : (fabricLhResume s k).mem = s.mem := by
  simp only [fabricLhResume]; split <;> simp

@[simp] theorem mem_delayQuay (q : Nat) : (delayQuay s q).mem = s.mem := by simp [delayQuay]

@[simp] theorem mem_linkLighthouseFault (q : Nat) : (linkLighthouseFault s q).mem = s.mem := by
  simp only [linkLighthouseFault]; split <;> simp

@[simp] theorem mem_leaveBundle (n k : Nat) (lanes : List Nat) : (leaveBundle s n k lanes).mem = s.mem := by
  simp [leaveBundle]

@[simp] theorem mem_removeNearLane (n k lane : Nat) : (removeNearLane s n k lane).mem = s.mem := by
  simp only [removeNearLane]; (repeat' split) <;> simp

@[simp] theorem mem_occupy (n d k : Nat) : (occupy s n d k).mem = s.mem := by simp [occupy]

@[simp] theorem mem_nearCredits (n : Nat) (up : Bool) (credits : W32) : (nearCredits s n up credits).mem = s.mem := by
  simp only [nearCredits]; (repeat' split) <;> simp

@[simp] theorem mem_nearBundleFrame (n k : Nat) (up : Bool) (f : BundleFrame) : (nearBundleFrame s n k up f).mem = s.mem := by
  simp only [nearBundleFrame]; (repeat' split) <;> simp

/-! ## Clocks, sleep and wake -/

@[simp] theorem mem_beat : (beat s).mem = s.mem := by
  simp only [beat]; split <;> simp

@[simp] theorem mem_clockTick : (clockTick s).mem = s.mem := by
  simp only [clockTick]; split <;> simp

@[simp] theorem mem_lighthouseClock (lh : LighthouseId) : (lighthouseClock s lh).mem = s.mem := by
  simp only [lighthouseClock]; (repeat' split) <;> simp

@[simp] theorem mem_loadAll : (loadAll s).mem = s.mem := by
  unfold loadAll
  refine mem_foldl (fun t x => ?_) _ _
  split <;> simp

@[simp] theorem mem_moduleSleep : (moduleSleep s).mem = s.mem := by
  simp only [moduleSleep]; split <;> simp

@[simp] theorem mem_wakeBy (code : Nat) (sameEdge : List Nat) (quay : Nat) : (wakeBy s code sameEdge quay).mem = s.mem := by
  simp only [wakeBy]; (repeat' split) <;> simp

/-! ## The staged configuration -/

@[simp] theorem mem_sealWith (c : ConfigImage) : (sealWith s c).mem = s.mem := rfl
@[simp] theorem mem_configEvent (serial : Nat) : (configEvent s serial).mem = s.mem := by simp [configEvent]

@[simp] theorem mem_useActive : (useActive s).mem = s.mem := by
  simp only [useActive]; split <;> simp

@[simp] theorem mem_applyConfig : (applyConfig s).mem = s.mem := by
  simp only [applyConfig]; (repeat' split) <;> simp

/-! ## Privileged requests -/

@[simp] theorem mem_hmFetch (a len : Nat) {f : State × Option MbxResult} (h : f.1.mem = s.mem) :
    (hmFetch s a len f).1.mem = s.mem := by
  unfold hmFetch
  (repeat' split) <;> simp [h, mem_ite]

@[simp] theorem mem_debugSettles : (debugSettles s).mem = s.mem := by
  simp only [debugSettles]; (repeat' split) <;> simp

/-! ## Reset sources, release and boot -/

@[simp] theorem mem_clearMsix (fn : Nat) : (clearMsix s fn).mem = s.mem := rfl
@[simp] theorem mem_pcieReset : (pcieReset s).mem = s.mem := by simp [pcieReset]

@[simp] theorem mem_berthBack (b : Nat) : (berthBack s b).mem = s.mem := by
  simp only [berthBack]; split <;> simp

@[simp] theorem mem_partitionResetDone (p : Nat) : (partitionResetDone s p).mem = s.mem := by
  simp only [partitionResetDone]; split <;> simp

@[simp] theorem mem_latchHarbour : (latchHarbour s).mem = s.mem := by
  simp only [latchHarbour]; (repeat' split) <;> simp

@[simp] theorem mem_releaseStep : (releaseStep s).mem = s.mem := by
  simp only [releaseStep]; (repeat' split) <;> simp

@[simp] theorem mem_toStage (k : Nat) : (toStage s k).mem = s.mem := rfl
@[simp] theorem mem_slotEvent (slot : Nat) : (slotEvent s slot).mem = s.mem := by simp [slotEvent]

@[simp] theorem mem_bootB0 (o : BootObs) : (bootB0 s o).mem = s.mem := by
  simp only [bootB0]; (repeat' split) <;> simp

@[simp] theorem mem_unreadableDie (k : Nat) : (unreadableDie s k).mem = s.mem := by
  simp only [unreadableDie]; (repeat' split) <;> simp

@[simp] theorem mem_bootB3 (o : BootObs) : (bootB3 s o).mem = s.mem := by simp [bootB3]

@[simp] theorem mem_choosePair (failed : List (Nat × Nat × Nat)) (pr : Nat × Nat) : (choosePair failed s pr).mem = s.mem := by
  simp only [choosePair]; split <;> simp

@[simp] theorem mem_chooseBundle (failed : List (Nat × Nat × Nat)) (nk : Nat × Nat) :
    (chooseBundle failed s nk).mem = s.mem := by
  simp only [chooseBundle]; (repeat' split) <;> simp

@[simp] theorem mem_trainLanes : (trainLanes s).mem = s.mem := rfl
@[simp] theorem mem_bootB4 (o : BootObs) : (bootB4 s o).mem = s.mem := by simp [bootB4]

@[simp] theorem mem_bootB5 (o : BootObs) : (bootB5 s o).mem = s.mem := by
  simp only [bootB5]; (repeat' split) <;> simp

@[simp] theorem mem_lhAtBoot (lh : LighthouseId) : (lhAtBoot s lh).mem = s.mem := by
  simp only [lhAtBoot]; (repeat' split) <;> simp

@[simp] theorem mem_failedAtBoot (el : Element) : (failedAtBoot s el).mem = s.mem := by
  simp only [failedAtBoot]; (repeat' split) <;> simp

@[simp] theorem mem_sensorAtBoot (f : Nat × Nat) : (sensorAtBoot s f).mem = s.mem := by
  simp only [sensorAtBoot]; (repeat' split) <;> simp

@[simp] theorem mem_calibratedAtBoot (k : Nat) (fig : List Nat) : (calibratedAtBoot s k fig).mem = s.mem := rfl

@[simp] theorem mem_calibrateAtBoot (o : BootObs) (k : Nat) : (calibrateAtBoot o s k).mem = s.mem := by
  simp only [calibrateAtBoot]; (repeat' split) <;> simp

@[simp] theorem mem_bootB6 (o : BootObs) : (bootB6 s o).mem = s.mem := by simp [bootB6]
@[simp] theorem mem_bootB7 : (bootB7 s).mem = s.mem := by simp [bootB7]

@[simp] theorem mem_bootB8 : (bootB8 s).mem = s.mem := by
  simp only [bootB8]; split <;> simp

@[simp] theorem mem_bootB9 : (bootB9 s).mem = s.mem := by
  unfold bootB9
  refine (mem_toStage _ _).trans (mem_foldl (fun t k => ?_) _ _)
  dsimp only
  split <;> simp

@[simp] theorem mem_bootReady : (bootReady s).mem = s.mem := by
  refine (mem_foldl (fun t fn => ?_) _ _).trans ?_
  · split <;> simp
  · rfl

@[simp] theorem mem_bootB2 (o : BootObs) : (bootB2 s o).mem = s.mem := by simp [bootB2]

@[simp] theorem mem_bootStageDone (o : BootObs) : (bootStageDone s o).mem = s.mem := by
  simp only [bootStageDone]; (repeat' split) <;> simp

@[simp] theorem mem_updHm (i : Nat) (f : HmInst → HmInst) : (updHm s i f).mem = s.mem := rfl
@[simp] theorem mem_hmEvent (i outcome : Nat) : (hmEvent s i outcome).mem = s.mem := by simp [hmEvent]

@[simp] theorem mem_hmSwitchover : (hmSwitchover s).mem = s.mem := by
  simp only [hmSwitchover]; (repeat' split) <;> simp

@[simp] theorem mem_hmHandback : (hmHandback s).mem = s.mem := by
  simp only [hmHandback]; split <;> simp

@[simp] theorem mem_siteBack (k : Nat) : (siteBack s k).mem = s.mem := by simp [siteBack]

/-! ## The harbour -/

@[simp] theorem mem_beginDrain (p q : Nat) (r : Route2) : (beginDrain s p q r).mem = s.mem := by
  simp only [beginDrain]; split <;> simp

@[simp] theorem mem_moveToRelay (p q : Nat) : (moveToRelay s p q).mem = s.mem := by simp [moveToRelay]

@[simp] theorem mem_movePairs (l : List (Nat × Nat)) : (movePairs s l).mem = s.mem := by
  simp only [movePairs]; split <;> simp

@[simp] theorem mem_scheduleLinks (l : List (Nat × Nat)) : (scheduleLinks s l).mem = s.mem := by simp [scheduleLinks]

@[simp] theorem mem_scheduleLink (p q : Nat) : (scheduleLink s p q).mem = s.mem := by
  simp only [scheduleLink]; split <;> simp

@[simp] theorem mem_failLink (k : Nat) : (failLink s k).mem = s.mem := by simp [failLink]

@[simp] theorem mem_refuseLink (k code : Nat) : (refuseLink s k code).mem = s.mem := by
  simp only [refuseLink]; split <;> simp

@[simp] theorem mem_linkUp (k : Nat) (w : TrainWord) : (linkUp s k w).mem = s.mem := by
  simp only [linkUp]; split <;> simp

@[simp] theorem mem_trainingWord (k : Nat) (w : TrainWord) : (trainingWord s k w).mem = s.mem := by
  simp only [trainingWord]; (repeat' split) <;> simp

@[simp] theorem mem_retrain (k : Nat) : (retrain s k).mem = s.mem := by simp [retrain]

@[simp] theorem mem_badFrame (k : Nat) : (badFrame s k).mem = s.mem := by
  simp only [badFrame]; (repeat' split) <;> simp

@[simp] theorem mem_squeeze (k flows : Nat) : (squeeze s k flows).mem = s.mem := by
  simp only [squeeze]
  split
  · refine mem_foldl (fun t id => ?_) _ _
    split <;> simp
  · simp

@[simp] theorem mem_transitOut (j : Nat) (e : Nat × List Nat) : (transitOut s j e).mem = s.mem := by simp [transitOut]

@[simp] theorem mem_transitDrain (j n : Nat) (s : State) : (transitDrain s j n).mem = s.mem := by
  induction n generalizing s with
  | zero => exact rfl
  | succ n ih =>
    simp only [transitDrain]
    (repeat' split) <;> simp [ih]

@[simp] theorem mem_transitFrame (k j : Nat) (o : LinkFrameObs) : (transitFrame s k j o).mem = s.mem := by
  simp only [transitFrame]; split <;> simp

@[simp] theorem mem_goodFrame (k : Nat) (o : LinkFrameObs) : (goodFrame s k o).mem = s.mem := by
  simp only [goodFrame]; (repeat' split) <;> simp

@[simp] theorem mem_linkFrame (k : Nat) (o : LinkFrameObs) : (linkFrame s k o).mem = s.mem := by
  simp only [linkFrame]; (repeat' split) <;> simp

@[simp] theorem mem_nextFirst (k : Nat) : (nextFirst s k).mem = s.mem := by
  simp only [nextFirst]; (repeat' split) <;> simp

@[simp] theorem mem_linkNoFrame (k : Nat) : (linkNoFrame s k).mem = s.mem := by
  simp only [linkNoFrame]; (repeat' split) <;> simp

@[simp] theorem mem_linkRelease (k : Nat) : (linkRelease s k).mem = s.mem := by
  simp only [linkRelease]; split <;> simp

@[simp] theorem mem_planReset : (planReset s).mem = s.mem := by
  simp only [planReset]; split <;> simp

@[simp] theorem mem_rerouteFrom (r : Nat) : (rerouteFrom s r).mem = s.mem := by simp [rerouteFrom]

@[simp] theorem mem_relayRoute (p : Nat) (m : MoveSeen) : (relayRoute s p m).mem = s.mem := by
  simp only [relayRoute]; (repeat' split) <;> simp

@[simp] theorem mem_relayRoles : (relayRoles s).mem = s.mem := by
  unfold relayRoles
  refine mem_foldl (fun t x => ?_) _ _
  dsimp only
  (repeat' split) <;> simp

@[simp] theorem mem_routeDrainDone (p : Nat) (d : DrainSeen) : (routeDrainDone s p d).mem = s.mem := by
  simp only [routeDrainDone]; (repeat' split) <;> simp

@[simp] theorem mem_tideEvent (outcome guarantee : Nat) (ns : Int) : (tideEvent s outcome guarantee ns).mem = s.mem := by
  simp [tideEvent]

@[simp] theorem mem_relax (why : Nat) (holds : Bool) (ns : Int) : (relax s why holds ns).mem = s.mem := by
  simp only [relax]; split <;> simp

@[simp] theorem mem_keepsTide : (keepsTide s).mem = s.mem := by simp [keepsTide]

@[simp] theorem mem_holdoverDrift : (holdoverDrift s).mem = s.mem := by
  simp only [holdoverDrift]; (repeat' split) <;> simp

@[simp] theorem mem_judgeOffset : (judgeOffset s).mem = s.mem := by
  simp only [judgeOffset]; split <;> simp

@[simp] theorem mem_tideSyncSend : (tideSyncSend s).mem = s.mem := by simp [tideSyncSend]

@[simp] theorem mem_learnMaster (k : Nat) : (learnMaster s k).mem = s.mem := by
  simp only [learnMaster]; (repeat' split) <;> simp

@[simp] theorem mem_syncTide (k masterTide arrival : Nat) : (syncTide s k masterTide arrival).mem = s.mem := by
  simp only [syncTide]; (repeat' split) <;> simp

@[simp] theorem mem_tideSyncMessage (k masterTide arrival : Nat) : (tideSyncMessage s k masterTide arrival).mem = s.mem := by
  simp [tideSyncMessage]

@[simp] theorem mem_tideDelayExchange (k t1 t2 t3 t4 : Nat) : (tideDelayExchange s k t1 t2 t3 t4).mem = s.mem := by
  simp only [tideDelayExchange]; (repeat' split) <;> simp

@[simp] theorem mem_tideFirstLock (harbourTide : Nat) : (tideFirstLock s harbourTide).mem = s.mem := by
  simp only [tideFirstLock]; (repeat' split) <;> simp

@[simp] theorem mem_holdoverExpiry : (holdoverExpiry s).mem = s.mem := by
  simp only [holdoverExpiry]; (repeat' split) <;> simp

@[simp] theorem mem_heartbeat (pos part : Nat) : (heartbeat s pos part).mem = s.mem := by
  simp only [heartbeat]; (repeat' split) <;> simp

@[simp] theorem mem_moduleDead (pos : Nat) : (moduleDead s pos).mem = s.mem := by
  simp only [moduleDead]; split <;> simp

@[simp] theorem mem_heartbeatTimeout (pos : Nat) (probeAnswered : Bool) :
    (heartbeatTimeout s pos probeAnswered).mem = s.mem := by
  simp only [heartbeatTimeout]; split <;> simp

@[simp] theorem mem_deadDeclaration (pos : Nat) (site : Option Nat) : (deadDeclaration s pos site).mem = s.mem := by
  simp only [deadDeclaration]; (repeat' split) <;> simp

@[simp] theorem mem_masterSyncLoss : (masterSyncLoss s).mem = s.mem := by
  simp only [masterSyncLoss]; split <;> simp

@[simp] theorem mem_claimCollect (claims : List Claim) : (claimCollect s claims).mem = s.mem := by
  simp only [claimCollect]; (repeat' split) <;> simp

@[simp] theorem mem_masterHandback : (masterHandback s).mem = s.mem := by
  simp only [masterHandback]; (repeat' split) <;> simp

@[simp] theorem mem_scheduleReleases (pos : Nat) : (scheduleReleases s pos).mem = s.mem := by simp [scheduleReleases]

@[simp] theorem mem_rejoinRequest (pos part : Nat) : (rejoinRequest s pos part).mem = s.mem := by
  simp only [rejoinRequest]; (repeat' split) <;> simp

/-! ## Power and heat -/

@[simp] theorem mem_inputEvent : (inputEvent s).mem = s.mem := by simp [inputEvent]
@[simp] theorem mem_settleStore : (settleStore s).mem = s.mem := rfl

@[simp] theorem mem_stopConverting : (stopConverting s).mem = s.mem := by
  simp only [stopConverting]; (repeat' split) <;> simp

@[simp] theorem mem_inputVoltage (mv : Nat) : (inputVoltage s mv).mem = s.mem := by
  simp only [inputVoltage]; (repeat' split) <;> simp

@[simp] theorem mem_conversionResume : (conversionResume s).mem = s.mem := by
  simp only [conversionResume]; (repeat' split) <;> simp

@[simp] theorem mem_newStart : (newStart s).mem = s.mem := by
  simp only [newStart]; split <;> simp

@[simp] theorem mem_regionBands (r : BerthReading) (tOut : Int) : (regionBands s r tOut).mem = s.mem := by
  simp [regionBands]

@[simp] theorem mem_heatEvent (site : Nat) (limit old new : Int) : (heatEvent s site limit old new).mem = s.mem := by
  simp only [heatEvent]; split <;> simp

@[simp] theorem mem_berthHeat (tOut : Int) (r : BerthReading) : (berthHeat tOut s r).mem = s.mem := by
  simp only [berthHeat]; split <;> simp

@[simp] theorem mem_berthPower (r : BerthReading) : (berthPower s r).mem = s.mem := by
  simp only [berthPower]; split <;> simp

@[simp] theorem mem_portBands : (portBands s).mem = s.mem := by
  unfold portBands
  refine mem_foldl (fun t x => ?_) _ _
  dsimp only
  split <;> simp

@[simp] theorem mem_quayHeat (q : Nat) (t : Int) : (quayHeat s q t).mem = s.mem := by
  simp only [quayHeat]; split <;> simp

@[simp] theorem mem_takeReadings (r : ModuleReading) : (takeReadings s r).mem = s.mem := by simp [takeReadings]

@[simp] theorem mem_dieSensor (b i : Nat) : (dieSensor s b i).mem = s.mem := by
  simp only [dieSensor]; (repeat' split) <;> simp

@[simp] theorem mem_coolingFault (why : CoolingCause) : (coolingFault s why).mem = s.mem := by
  simp only [coolingFault]; (repeat' split) <;> simp

@[simp] theorem mem_stopDomains (b : Nat) : (stopDomains s b).mem = s.mem := by simp [stopDomains]

@[simp] theorem mem_thermalHoldEnd (b : Nat) (temp : Int) : (thermalHoldEnd s b temp).mem = s.mem := by
  simp only [thermalHoldEnd]; split <;> simp

@[simp] theorem mem_thermalSample (hmArea : List Int) (tIn tOut : Int) : (thermalSample s hmArea tIn tOut).mem = s.mem := by
  simp only [thermalSample]; (repeat' split) <;> simp

/-! ## Registers -/

@[simp] theorem mem_feCtrl (v : W32) : (feCtrl s v).mem = s.mem := by
  simp only [feCtrl]; split <;> simp

@[simp] theorem mem_feHead (v : W32) : (feHead s v).mem = s.mem := by
  simp only [feHead]; split <;> simp

@[simp] theorem mem_mpWrite (offset : Nat) (data : List Byte) (reg width : Nat) {f : State → List Byte → State}
    (h : ∀ t bs, SameMem t (f t bs)) : (mpWrite offset data reg width f s).mem = s.mem := by
  unfold mpWrite
  split
  · exact h s _
  · rfl

@[simp] theorem mem_dumpSelect (v : W32) : (dumpSelect s v).mem = s.mem := rfl

@[simp] theorem mem_imgCtrl (v : W32) : (imgCtrl s v).mem = s.mem := by
  simp only [imgCtrl]; split <;> simp

@[simp] theorem mem_imgStore (bs : List Byte) : (imgStore s bs).mem = s.mem := by
  simp only [imgStore]; split <;> simp

@[simp] theorem mem_imgLength (bs : List Byte) : (imgLength s bs).mem = s.mem := by
  simp only [imgLength]; split <;> simp

@[simp] theorem mem_hbrPosWrite (bs : List Byte) : (hbrPosWrite s bs).mem = s.mem := rfl
@[simp] theorem mem_hbrMembersWrite (bs : List Byte) : (hbrMembersWrite s bs).mem = s.mem := rfl

@[simp] theorem mem_mpTransaction (offset : Nat) (data : List Byte) : (mpTransaction s offset data).mem = s.mem := by
  simp [mpTransaction]

@[simp] theorem mem_imgVerify : (imgVerify s).mem = s.mem := by
  simp only [imgVerify]; (repeat' split) <;> simp

@[simp] theorem mem_mbxReqWrite (fn o : Nat) (bs : List Byte) : (mbxReqWrite s fn o bs).mem = s.mem := by
  simp only [mbxReqWrite]; split <;> simp

@[simp] theorem mem_msixWrite (fn v o : Nat) (bs : List Byte) : (msixWrite s fn v o bs).mem = s.mem := by
  simp only [msixWrite]; split <;> simp

@[simp] theorem mem_numVFsWrite (fn : Nat) (data : List Byte) : (numVFsWrite s fn data).mem = s.mem := by
  simp only [numVFsWrite]; split <;> simp

end Sys2Proof.Machine
end

section
/-! SUPPORT. The functions that write memory keep its canonical form, and so does every command. -/

namespace Sys2Proof.Machine

/-- The three lists of a memory that hold contents are in canonical form. -/
def Canonical (m : MemGroup) : Prop :=
  tabWf 0#8 m.cells = true ∧ tabWf 0#8 m.host = true ∧ tabWf 0#64 m.counters = true

/-- The memory of a state is canonical. (Not by definition: a chain of changes is never unfolded to compare its ends.) -/
structure HasCanonical (s : State) : Prop where
  mem : Canonical s.mem

@[simp] theorem hasCanonical_iff {s : State} : HasCanonical s ↔ Canonical s.mem :=
  ⟨HasCanonical.mem, HasCanonical.mk⟩

/-- Every next state that the outcome answers has its memory in canonical form. -/
def CanonicalOut (o : Out) : Prop := ∀ t, o = .next t → Canonical t.mem

@[simp] theorem canonicalOut_next {t : State} : CanonicalOut (.next t) ↔ Canonical t.mem := by simp [CanonicalOut]

@[simp] theorem canonicalOut_guarded {t : State} (p : Bool) (h : HasCanonical t) : CanonicalOut (guarded p t) := by
  intro u hu
  obtain ⟨-, rfl⟩ := guarded_next.mp hu
  exact h.mem

theorem canonical_foldl {α : Type} {f : State → α → State} (h : ∀ t x, HasCanonical t → Canonical (f t x).mem) (l : List α)
    {s : State} (w : HasCanonical s) : Canonical (l.foldl f s).mem := by
  induction l generalizing s with
  | nil => exact w.mem
  | cons x l ih => exact ih ⟨h s x w⟩

/-- The marks and tallies of a memory are no part of the form. -/
theorem Canonical.of_contents {m n : MemGroup} (w : Canonical m) (hc : n.cells = m.cells) (hh : n.host = m.host)
    (hk : n.counters = m.counters) : Canonical n := by
  unfold Canonical
  rw [hc, hh, hk]
  exact w

@[simp] theorem canonical_ite {m n : MemGroup} (p : Prop) [Decidable p] (hm : Canonical m) (hn : Canonical n) :
    Canonical (if p then m else n) := by split <;> assumption

@[simp] theorem canonical_setPoison (s : State) (k : Nat) (v : Bool) :
    Canonical (setPoison s k v).mem ↔ Canonical s.mem := Iff.rfl

@[simp] theorem canonical_setPoisonWord (s : State) (k : Nat) (v : Bool) :
    Canonical (setPoisonWord s k v).mem ↔ Canonical s.mem := Iff.rfl

section Writing

variable {s : State} (w : HasCanonical s)
include w

/-! ## Memory itself -/

@[simp] theorem canonical_writeBytes (a : Nat) (bs : List Byte) : Canonical (writeBytes s a bs).mem :=
  (memWf_iff _).mp (memWf_writeBytes ((memWf_iff s).mpr w.mem) a bs)

@[simp] theorem canonical_writeCells (cs : List (Nat × Byte)) : Canonical (writeCells s cs).mem :=
  (memWf_iff _).mp (memWf_writeCells ((memWf_iff s).mpr w.mem) cs)

@[simp] theorem canonical_writeHost (a : Nat) (bs : List Byte) : Canonical (writeHost s a bs).mem :=
  (memWf_iff _).mp (memWf_writeHost ((memWf_iff s).mpr w.mem) a bs)

@[simp] theorem canonical_updCounter (b i : Nat) (f : W64 → W64) : Canonical (updCounter s b i f).mem :=
  (memWf_iff _).mp (memWf_updCounter ((memWf_iff s).mpr w.mem) b i f)

@[simp] theorem canonical_clearPoison (loc len : Nat) : Canonical (clearPoison s loc len).mem := w.mem.of_contents rfl rfl rfl

/-- Bytes of memory that are cleared read 0, and their entries are gone. -/
theorem canonical_clearCells (p : Nat → Bool) (bad : Tab Bool) (words : Tab Bool) :
    Canonical { s.mem with cells := tabClear p s.mem.cells, poison := bad, poisonWord := words } := by
  obtain ⟨hc, hh, hk⟩ := w.mem
  exact ⟨tabWf_clear hc, hh, hk⟩

/-! ## Memory accesses and doorbells -/


@[simp] theorem canonical_storeCounters (loc : Nat) (bs : List Byte) : Canonical (storeCounters s loc bs).mem := by
  unfold storeCounters
  refine canonical_foldl (fun t x ht => ?_) _ w
  split <;> simp [ht.mem]

@[simp] theorem canonical_storeBytes (a : Nat) (bs : List Byte) : Canonical (storeBytes s a bs).mem := by
  simp only [storeBytes]; (repeat' split) <;> simp [w.mem]

@[simp] theorem canonical_storeRuns (l : List (Nat × Byte)) : Canonical (storeRuns s l).mem :=
  canonical_foldl (fun _ r ht => canonical_storeBytes ht r.1 r.2) _ w

@[simp] theorem canonical_storeFrom (src : Nat) (l : List (Nat × Byte)) : Canonical (storeFrom s src l).mem := by
  simp [w.mem, storeFrom]

@[simp] theorem canonical_addCounter (a : Nat) (v : W64) : Canonical (addCounter s a v).mem := by
  simp only [addCounter]
  (repeat' split)
  case h_1.isTrue => exact w.mem.of_contents rfl rfl rfl
  all_goals simp [w.mem]

@[simp] theorem canonical_addFrom (src a : Nat) (v : W64) : Canonical (addFrom s src a v).1.mem := by
  simp only [addFrom]; (repeat' split) <;> simp [w.mem]

/-! ## Requests at their source -/

@[simp] theorem canonical_sendAddition (c : Cmd) (a : Nat) (v : W64) : Canonical (sendAddition s c a v).1.mem := by
  simp only [sendAddition]; split <;> simp [w.mem]

/-! ## Contexts, engines, berths and the module reset -/

@[simp] theorem canonical_zeroBerth (dram : Bool) (b : Nat) : Canonical (zeroBerth s dram b).mem :=
  (memWf_iff _).mp (memWf_zeroBerth ((memWf_iff s).mpr w.mem) dram b)

@[simp] theorem canonical_resetBerth (dram : Bool) (b : Nat) : Canonical (resetBerth s dram b).mem := by
  simp [w.mem, resetBerth]

@[simp] theorem canonical_beginPartitionReset (p cause : Nat) : Canonical (beginPartitionReset s p cause).mem := by
  have hb : Canonical ((partBerths s p).foldl (fun t b => closeRanges (resetBerth t true b) b) s).mem :=
    canonical_foldl (fun t b ht => by simp [ht.mem]) _ w
  simp only [beginPartitionReset]
  (repeat' split) <;> simp [w.mem, hb]

@[simp] theorem canonical_resetBerthRung (b cause : Nat) : Canonical (resetBerthRung s b cause).mem := by
  simp only [resetBerthRung]; split <;> simp [w.mem]

@[simp] theorem canonical_moduleReset (code : Nat) : Canonical (moduleReset s code).mem :=
  (memWf_iff _).mp (memWf_moduleReset ((memWf_iff s).mpr w.mem) code)

@[simp] theorem canonical_dumpReset (code : Nat) : Canonical (dumpReset s code).mem := by simp [w.mem, dumpReset]

/-! ## Fetch, start and mailbox requests -/

@[simp] theorem canonical_writeSlot (host : Bool) (a : Nat) (bs : List Byte) : Canonical (writeSlot s host a bs).mem := by
  simp only [writeSlot]; split <;> simp [w.mem]

@[simp] theorem canonicalOut_blunen {f : Asked → State × Option MbxResult} (r : Route) (op : Nat)
    (h : ∀ a, HasCanonical (f a).1) : CanonicalOut (blunen s r op f) := by
  refine canonicalOut_guarded _ ?_
  split
  · exact w
  · next a _ =>
    have ha := h a
    split <;> simp_all

/-! ## The work of a started command -/

@[simp] theorem canonicalOut_onStarted {f : Cmd → State} (id : CmdId) (op : Nat) (h : ∀ c, HasCanonical (f c)) :
    CanonicalOut (onStarted s id op f) := by
  refine canonicalOut_guarded _ ?_
  (repeat' split) <;> simp [w.mem, (h _).mem]

theorem canonical_awake (c : Cmd) (l : List Touch) {f : State → State} (h : ∀ t, HasCanonical t → Canonical (f t).mem) :
    Canonical (awake s c l f).mem := by
  have hf : Canonical (f (settleHeld s c)).mem := h _ (by simp [w.mem])
  unfold awake
  dsimp only
  (repeat' split) <;> simp [w.mem, hf]

/-! ## Graphs -/

@[simp] theorem canonicalOut_execGraphNodeStart (id : CmdId) : CanonicalOut (execGraphNodeStart id s) := by
  simp only [execGraphNodeStart]; split <;> simp [w.mem]

/-! ## Stacks -/

@[simp] theorem canonical_segmentCopyDone (k : SegKey) (o : CopySeen) : Canonical (segmentCopyDone s k o).mem := by
  simp only [segmentCopyDone]
  (repeat' split)
  · exact canonical_foldl (fun t i ht => by simp [ht.mem]) _ (by simp [w.mem])
  all_goals exact w.mem

/-! ## Regions and tiles -/

@[simp] theorem canonical_poisonCopy (b t k : Nat) : Canonical (poisonCopy s b t k).mem := by simp [w.mem, poisonCopy]

@[simp] theorem canonical_coreSubstitutionDone (b t : Nat) (bad : List Nat) :
    Canonical (coreSubstitutionDone s b t bad).mem := by
  have hb : Canonical (bad.foldl (fun u k => poisonCopy u b t k) s).mem :=
    canonical_foldl (fun u k hu => canonical_poisonCopy hu b t k) _ w
  simp only [coreSubstitutionDone]
  (repeat' split) <;> simp [w.mem, hb]

/-! ## Tests and calibrations -/

@[simp] theorem canonicalOut_execSelftest (r : Route) : CanonicalOut (execSelftest r s) := by
  refine canonicalOut_blunen w _ _ (fun a => ?_)
  dsimp only
  (repeat' split) <;> simp [w.mem]

@[simp] theorem canonicalOut_execCalibrate (r : Route) : CanonicalOut (execCalibrate r s) := by
  refine canonicalOut_blunen w _ _ (fun a => ?_)
  dsimp only
  split
  · simp [w.mem]
  · refine ⟨canonical_foldl (fun t el ht => ?_) _ (by simp [w.mem])⟩
    split <;> simp [ht.mem]

/-! ## Copies and fills -/

@[simp] theorem canonical_writePiece (c : Cmd) (k : Nat) (p : TugPiece) : Canonical (writePiece s c k p).mem := by
  simp [w.mem, writePiece]

@[simp] theorem canonical_endChunk (c : Cmd) (k : Nat) (st : Option (Nat × Nat)) : Canonical (endChunk s c k st).mem := by
  simp only [endChunk]; (repeat' split) <;> simp [w.mem]

@[simp] theorem canonical_failChunk (c : Cmd) (k : Nat) (ts : List Touch) (e : Nat × Nat) :
    Canonical (failChunk s c k ts e).mem := by
  simp [w.mem, failChunk]

@[simp] theorem canonical_writeChunk (c : Cmd) (k : Nat) : Canonical (writeChunk s c k).mem := by
  unfold writeChunk
  refine canonical_awake w _ _ (fun t ht => ?_)
  have hp : Canonical ((tugPieces c k).foldl (fun u p => writePiece u c k p) t).mem :=
    canonical_foldl (fun u p hu => canonical_writePiece hu c k p) _ ht
  dsimp only
  (repeat' split) <;> simp [ht.mem, hp]

@[simp] theorem canonical_beginChunk (c : Cmd) (k : Nat) : Canonical (beginChunk s c k).mem := by
  unfold beginChunk
  refine canonical_awake w _ _ (fun t ht => ?_)
  dsimp only
  (repeat' split) <;> simp [ht.mem]

@[simp] theorem canonical_advanceChunk (c : Cmd) (k : Nat) : Canonical (advanceChunk s c k).mem := by
  simp only [advanceChunk]; (repeat' split) <;> simp [w.mem]

@[simp] theorem canonical_tugChunkDone (c : Cmd) (k : Nat) : Canonical (tugChunkDone s c k).mem := by
  simp only [tugChunkDone]; (repeat' split) <;> simp [w.mem]

@[simp] theorem canonical_endAcked (c : Cmd) : Canonical (endAcked s c).mem := by
  unfold endAcked
  refine canonical_foldl (fun t x ht => ?_) _ w
  split <;> simp [ht.mem]

@[simp] theorem canonicalOut_execTugChunkDone (id : CmdId) (chunk : Nat) : CanonicalOut (execTugChunkDone id chunk s) := by
  refine canonicalOut_guarded _ ?_
  (repeat' split) <;> simp [w.mem]

/-! ## Timeouts and completion -/

@[simp] theorem canonical_settleTugs (id : CmdId) : Canonical (settleTugs s id).mem :=
  canonical_foldl (fun _ c ht => canonical_endAcked ht c) _ w

@[simp] theorem canonical_stopCmd (id : CmdId) : Canonical (stopCmd s id).mem := by simp [w.mem, stopCmd]

@[simp] theorem canonical_ringTimeout (id : CmdId) : Canonical (ringTimeout s id).mem := by
  simp only [ringTimeout]; (repeat' split) <;> simp [w.mem]

@[simp] theorem canonicalOut_execCommandTimeout (r : Route) : CanonicalOut (execCommandTimeout r s) := by
  simp only [execCommandTimeout]; split <;> simp [w.mem]

@[simp] theorem canonical_storeResults (c : Cmd) : Canonical (storeResults s c).mem := by simp [w.mem, storeResults]

@[simp] theorem canonical_landResults (c : Cmd) : Canonical (landResults s c).mem := by
  simp only [landResults]
  split
  · exact canonical_awake w _ _ (fun t ht => canonical_storeResults ht c)
  · exact w.mem

@[simp] theorem canonical_afterEntry (c : Cmd) : Canonical (afterEntry s c).mem := by
  simp only [afterEntry]; (repeat' split) <;> simp [w.mem]

@[simp] theorem canonical_writeEntry (c : Cmd) : Canonical (writeEntry s c).mem := by
  have hw (u : State) (hu : HasCanonical u) (host : Bool) (a : Nat) (bs : List Byte) (f : Context → Context) :
      Canonical (afterEntry (updCtx (writeSlot u host a bs) c.id.ctx f) c).mem :=
    canonical_afterEntry (s := updCtx _ _ f) ⟨canonical_writeSlot hu host a bs⟩ c
  simp only [writeEntry]
  (repeat' split) <;> simp [w.mem, hw]

@[simp] theorem canonical_completeCmd (m : Cmd) : Canonical (completeCmd s m).mem := by
  simp only [completeCmd]; split <;> simp [w.mem]

@[simp] theorem canonicalOut_execCommandCompletion (r : Route) : CanonicalOut (execCommandCompletion r s) := by
  refine canonicalOut_guarded _ ?_
  dsimp only
  (repeat' split) <;> simp [w.mem]

/-! ## Management requests -/

@[simp] theorem canonicalOut_execCtxOpen (fn : Nat) : CanonicalOut (execCtxOpen fn s) := by
  refine canonicalOut_blunen w _ _ (fun a => ?_)
  dsimp only
  (repeat' split) <;> simp [w.mem]

@[simp] theorem canonicalOut_execCtxClose (fn : Nat) : CanonicalOut (execCtxClose fn s) := by
  refine canonicalOut_blunen w _ _ (fun a => ?_)
  dsimp only
  (repeat' split) <;> simp [w.mem]

@[simp] theorem canonicalOut_execCtxAbort (fn : Nat) : CanonicalOut (execCtxAbort fn s) := by
  refine canonicalOut_blunen w _ _ (fun a => ?_)
  dsimp only
  (repeat' split) <;> simp [w.mem]

@[simp] theorem canonicalOut_execRoleChange (fn : Nat) : CanonicalOut (execRoleChange fn s) := by
  refine canonicalOut_blunen w _ _ (fun a => ?_)
  dsimp only
  (repeat' split) <;> simp [w.mem]

@[simp] theorem canonicalOut_execDomainSet (r : Route) : CanonicalOut (execDomainSet r s) := by
  refine canonicalOut_blunen w _ _ (fun a => ?_)
  dsimp only
  (repeat' split) <;> simp [w.mem]

@[simp] theorem canonical_domainArrived (d : Nat) (old new : DomState) : Canonical (domainArrived s d old new).mem := by
  simp only [domainArrived]
  split
  case h_1 =>
    split
    · exact canonical_clearCells w _ _ _
    · exact w.mem
  case h_3 =>
    split
    · exact canonical_clearCells w _ _ _
    · exact w.mem
  all_goals (repeat' split) <;> simp [w.mem]

@[simp] theorem canonical_transitionDone (d : Nat) : Canonical (transitionDone s d).mem := by
  simp only [transitionDone]; (repeat' split) <;> simp [w.mem]

@[simp] theorem canonicalOut_execTideAlarmFire : CanonicalOut (execTideAlarmFire s) := by
  refine canonicalOut_next.2 ?_
  (repeat' split) <;> simp [w.mem]

/-! ## Requests at their target, and responses -/

@[simp] theorem canonical_uncorrectableDram (r : WireReq) : Canonical (uncorrectableDram s r).mem := by
  simp [w.mem, uncorrectableDram]

@[simp] theorem canonical_readArray (r : WireReq) (o : ServeObs) : Canonical (readArray s r o).1.mem := by
  have hm : ∀ n, Canonical { s.mem with sramCorrections := n } := fun _ => w.mem.of_contents rfl rfl rfl
  simp only [readArray]
  (repeat' split) <;> simp [w.mem, hm]

@[simp] theorem canonical_performStore (r : WireReq) : Canonical (performStore s r).mem := by
  simp only [performStore]
  split
  case h_4 =>
    refine canonical_foldl (fun t i ht => ?_) _ (by simp [w.mem])
    split <;> simp [ht.mem]
  all_goals (repeat' split) <;> simp [w.mem]

@[simp] theorem canonical_performAtomic (r : WireReq) : Canonical (performAtomic s r).mem := by
  simp only [performAtomic]; split <;> simp [w.mem]

@[simp] theorem canonical_perform (r : WireReq) (o : ServeObs) : Canonical (perform s r o).mem := by
  simp only [perform]; split <;> simp [w.mem]

@[simp] theorem canonical_serveHere (r : WireReq) (o : ServeObs) : Canonical (serveHere s r o).mem := by
  simp only [serveHere]; (repeat' split) <;> simp [w.mem]

@[simp] theorem canonical_arrive (r : WireReq) (o : ServeObs) : Canonical (arrive s r o).mem := by
  have hm : ∀ n, Canonical { s.mem with droppedAdds := n } := fun _ => w.mem.of_contents rfl rfl rfl
  simp only [arrive]
  (repeat' split) <;> simp [w.mem, hm]

@[simp] theorem canonical_serve (r : WireReq) (o : ServeObs) : Canonical (serve s r o).mem := by
  simp only [serve]; (repeat' split) <;> simp [w.mem]

@[simp] theorem canonicalOut_execRequestDeadBound (tag : Nat) : CanonicalOut (execRequestDeadBound tag s) := by
  refine canonicalOut_next.2 ?_
  (repeat' split) <;> simp [w.mem]

@[simp] theorem canonical_probeTimeout (site : Nat) : Canonical (probeTimeout s site).mem := by
  simp only [probeTimeout]; (repeat' split) <;> simp [w.mem]

/-! ## Clocks, sleep and wake -/

@[simp] theorem canonical_crossingRecovery (a b : Nat) : Canonical (crossingRecovery s a b).mem := by
  simp only [crossingRecovery]; (repeat' split) <;> simp [w.mem]

@[simp] theorem canonical_crossingTimeout (a b : Nat) : Canonical (crossingTimeout s a b).mem := by
  simp only [crossingTimeout]; split <;> simp [w.mem]

@[simp] theorem canonical_lockLoss (d : Nat) : Canonical (lockLoss s d).mem := by
  simp only [lockLoss]; (repeat' split) <;> simp [w.mem]

@[simp] theorem canonical_clockFailure : Canonical (clockFailure s).mem := by simp [w.mem, clockFailure]

@[simp] theorem canonical_refCheckWindow (edges : Nat) (missing : Bool) : Canonical (refCheckWindow s edges missing).mem := by
  simp only [refCheckWindow]; (repeat' split) <;> simp [w.mem]

@[simp] theorem canonicalOut_execPresenceWindowExpiry : CanonicalOut (execPresenceWindowExpiry s) := by
  refine canonicalOut_next.2 ?_
  (repeat' split) <;> simp [w.mem]

/-! ## Privileged requests -/

theorem canonical_hmFetch (a len : Nat) {f : State × Option MbxResult} (h : Canonical f.1.mem) :
    Canonical (hmFetch s a len f).1.mem := by
  unfold hmFetch
  (repeat' split) <;> simp [w.mem, h, mem_ite]

@[simp] theorem canonicalOut_execKeyEnrol (r : Route) : CanonicalOut (execKeyEnrol r s) := by
  refine canonicalOut_blunen w _ _ (fun a => ?_)
  dsimp only
  split
  · exact ⟨w.mem⟩
  · exact ⟨canonical_hmFetch w _ _ w.mem⟩

@[simp] theorem canonical_resetAllParts : Canonical (resetAllParts s).mem :=
  canonical_foldl (fun _ p ht => canonical_beginPartitionReset ht p 0) _ w

@[simp] theorem canonicalOut_execConfigStage (r : Route) : CanonicalOut (execConfigStage r s) := by
  refine canonicalOut_blunen w _ _ (fun a => ⟨canonical_hmFetch w _ _ ?_⟩)
  split <;> exact w.mem

@[simp] theorem canonical_zeroUnowned : Canonical (zeroUnowned s).mem :=
  canonical_foldl (fun _ b ht => canonical_zeroBerth ht true b) _ w

@[simp] theorem canonicalOut_execDebugEnable (r : Route) : CanonicalOut (execDebugEnable r s) := by
  have hz : HasCanonical (zeroUnowned (markServed s r)) := ⟨canonical_zeroUnowned (by simp [w.mem])⟩
  refine canonicalOut_blunen w _ _ (fun a => ?_)
  split <;> simp [w.mem, hz.mem]

/-! ## Reset sources, release and boot -/

@[simp] theorem canonical_resetPin (level : Bool) (lowFor : Nat) : Canonical (resetPin s level lowFor).mem := by
  simp only [resetPin]; (repeat' split) <;> simp [w.mem]

@[simp] theorem canonicalOut_execVfFlr (vf : Nat) : CanonicalOut (execVfFlr vf s) := by
  refine canonicalOut_guarded _ ?_
  (repeat' split) <;> simp [w.mem]

@[simp] theorem canonicalOut_execPartitionReset (p cause : Nat) : CanonicalOut (execPartitionReset p cause s) := by
  refine canonicalOut_guarded _ ?_
  split <;> simp [w.mem]

@[simp] theorem canonical_readyTimeout : Canonical (readyTimeout s).mem := by
  simp only [readyTimeout]; (repeat' split) <;> simp [w.mem]

@[simp] theorem canonical_rungDeadline (rung reach unit : Nat) : Canonical (rungDeadline s rung reach unit).mem := by
  simp only [rungDeadline]; (repeat' split) <;> simp [w.mem]

@[simp] theorem canonical_siteRecovery (k : Nat) (pass : Bool) : Canonical (siteRecovery s k pass).mem := by
  simp only [siteRecovery]; (repeat' split) <;> simp [w.mem]

/-! ## The harbour -/

@[simp] theorem canonical_linkEntry (k : Nat) : Canonical (linkEntry s k).mem := by
  simp only [linkEntry]; (repeat' split) <;> simp [w.mem]

@[simp] theorem canonicalOut_execResetReq (fn : Nat) (v : W64) : CanonicalOut (execResetReq fn v s) := by
  refine canonicalOut_next.mpr ?_
  (repeat' split) <;> simp [w.mem]

/-! ## Power and heat -/

@[simp] theorem canonical_brownOut : Canonical (brownOut s).mem := by
  simp only [brownOut]; split <;> simp [w.mem]

@[simp] theorem canonical_preCharge : Canonical (preCharge s).mem := by
  simp only [preCharge]; split <;> simp [w.mem]

@[simp] theorem canonical_heatReset : Canonical (heatReset s).mem := by
  simp only [heatReset]; split <;> simp [w.mem]

@[simp] theorem canonical_powerCapTick (r : ModuleReading) : Canonical (powerCapTick s r).mem := by simp [w.mem, powerCapTick]

@[simp] theorem canonical_flowTick (powerIn : Nat) (tIn tOut : Int) : Canonical (flowTick s powerIn tIn tOut).mem := by
  simp [w.mem, flowTick]

@[simp] theorem canonicalOut_execCoolingFaultClear : CanonicalOut (execCoolingFaultClear s) := by
  refine canonicalOut_next.2 ?_
  (repeat' split) <;> simp [w.mem]

@[simp] theorem canonical_berthShutdown (b : Nat) : Canonical (berthShutdown s b).mem := by
  simp only [berthShutdown]; (repeat' split) <;> simp [w.mem]

/-! ## Registers -/

@[simp] theorem canonical_deliverEvent : Canonical (deliverEvent s).mem := by
  simp only [deliverEvent]; (repeat' split) <;> simp [w.mem]

@[simp] theorem canonical_pfWrite (off : Nat) (bs : List Byte) : Canonical (pfWrite s off bs).mem := by
  simp only [pfWrite]; (repeat' split) <;> simp [w.mem]

@[simp] theorem canonical_barWrite (fn off : Nat) (bs : List Byte) : Canonical (barWrite s fn off bs).mem := by
  simp only [barWrite]; (repeat' split) <;> simp [w.mem]

@[simp] theorem canonicalOut_execRegisterWrite (space : RegSpace) (offset : Nat) (data : List Byte) :
    CanonicalOut (execRegisterWrite space offset data s) := by
  refine canonicalOut_guarded _ ?_
  (repeat' split) <;> simp [w.mem]

/-- Every command keeps the canonical form of memory. -/
theorem canonicalOut_exec (c : Instr) : CanonicalOut (exec c s) := by
  cases c <;> simp [exec, w.mem, mem_ite, execSqTail, execCqHead, execCommandFetch, execCommandStart, execMbxCtrlGo,
    execMatmul, execConvert, execTranspose, execEwise, execTableFn, execReduce, execSoftmax, execOptMatmul, execAttention,
    execAllReduce, execAllGather, execReduceScatter, execBroadcast, execCollectiveRendezvous, execGraphLoad, execGraphUnload,
    execGraphRun, execGraphEdgeStatus, execBankLoadDone, execBankSwitch, execGuardEnd, execIntegrationWindowEnd,
    execWindowOutput, execHeaterTick, execTapMonitorTick, execRateDetectorTick, execThermalResume, execLighthouseFault,
    execLhSwitchoverDone, execEngineReset, execEngineResetDone, execRefreshOperation, execRefreshGap, execScrub,
    execRowBufferWriteback, execRetiredRangeExpiry, execSegmentMoveStart, execSegmentHoldAck, execSegmentCopyDone,
    execSegmentRecorded, execLayerModelTick, execStackSensorSuspect, execRailFault, execStepChange, execStepHoldEnd,
    execReplicaWarning, execStretchRecoveryEnd, execRecoveryStepdown, execStretchLimit, execStepUpTimer, execMeshLoadWindow,
    execCoreSubstitution, execCoreSubstitutionDone, execTargetedTestDone, execCalibrationTrigger, execCalibrationDone,
    execStandbyCheck, execTugCopy, execTugFill, execStopEscalation, execCtxQuery, execFwInfo, execHealthRead,
    execRoleDrainDone, execDomainTransitionDone, execTideAlarm, execRequestIssue, execLoad, execStore, execAtomic,
    execResponse, execFlowIdleExpiry, execProbeAnswer, execProbeTimeout, execEpochTableUpdate, execRingLock,
    execRingDarkExpiry, execFabricLaneBerExceeded, execStripedFrame, execIdentityWord, execLaneMarginTestDone,
    execRetrainingDone, execLaneSleep, execFabricLighthouseFault, execFabricLhResume, execLinkLighthouseFault,
    execNearLaneBerExceeded, execNearBundleFrame, execCrossingTimeout, execGeneratorLockLoss, execRefCheckWindow,
    execTideModeAlwaysOn, execTideModeReference, execModuleSleep, execWake, execMpAddressMatchWake, execPresenceButtonPress,
    execPresenceHold, execSecureErase, execLifetimeReset, execFwRollback, execBreakwaterWrite, execResetN, execWatchdog,
    execHmLockup, execJtagResetInstruction, execPcieHotReset, execPartitionResetDone, execReleaseStep, execBootStageDone,
    execReadyTimeout, execEscalationRungDeadline, execHmSwitchover, execHmHandback, execSiteRecovery, execTamperSealBreak,
    execTrainingWord, execLinkRetrainTimer, execLinkFrame, execLinkNoFrame, execLinkRelease, execLinkResetEntryInstant,
    execRelayRouteTimer, execRouteReturnTimer, execRouteDrainDone, execTideSyncSend, execTideSyncMessage,
    execTideDelayExchange, execTideFirstLock, execHoldoverExpiry, execHeartbeat, execHeartbeatTimeout, execDeadDeclaration,
    execMasterSyncLoss, execClaimCollect, execMasterHandback, execRejoinRequest, execInputVoltageChange, execConversionResume,
    execInterlockOpen, execInterlockClose, execBrownOut, execNewStart, execAlwaysOnStoreExhausted, execPreCharge,
    execLimiterTick, execPowerCapTick, execDieSensorSuspect, execFlowRequestTick, execCoolingFault, execBerthShutdown,
    execThermalHoldEnd, execAlwaysOnThermalSample, execFeEnable, execFeDisable, execFeHeadWrite, execFaultEventDelivery,
    execErrorLogWrite, execMpWriteTransaction, execMpDynamicAddress, execDumpCtrl, execDumpWindowLoaded, execImgCommit,
    execImgVerifyDone, execCntWait, execCntAdd, execCntSet, execCntRead, execTideWait, execTideRead, execCtxDrain]

/-- A step runs a command, or lets the clock tick, which leaves memory alone. -/
theorem canonical_step {t : State} (h : step s = .next t) : Canonical t.mem := by
  unfold step at h
  split at h
  · cases h
    simp [w.mem]
  · next c rest _ => exact canonicalOut_exec (s := { s with pending := rest }) ⟨w.mem⟩ c t h

end Writing

/-- Settles O5: the few functions that write memory keep its form, the others leave memory alone, and every command is made of
these. -/
theorem memoryStaysCanonical : Obligations.MemoryStaysCanonical := by
  intro s t w h
  exact (memWf_iff t).mpr (canonical_step ⟨(memWf_iff s).mp w⟩ h)

end Sys2Proof.Machine
end

section
/-! SUPPORT. Arrival counters through resets and aborts. -/

namespace Sys2Proof.Machine

variable {s : State}

theorem getCounter_moduleReset (s : State) (code b i : Nat) : getCounter (moduleReset s code) b i = 0 := rfl

/-- A request whose effect leaves memory alone leaves it alone as a whole. -/
theorem mem_blunen {r : Route} {op : Nat} {f : Asked → State × Option MbxResult} {t : State}
    (hf : ∀ a, (f a).1.mem = s.mem) (h : blunen s r op f = .next t) : t.mem = s.mem := by
  obtain ⟨-, rfl⟩ := guarded_next.mp h
  split
  · rfl
  · next a _ =>
    have ha := hf a
    split <;> simp_all

theorem mem_execCtxAbort {fn : Nat} {t : State} (h : execCtxAbort fn s = .next t) : t.mem = s.mem := by
  refine mem_blunen (fun a => ?_) h
  dsimp only
  split <;> simp

theorem addCounter_dropped {a b i : Nat} (v : W64) (ha : addrPos a = ownPos s)
    (hp : placeOf s.ident.part (addrLocal a) = .counter b i) (hb : berthResetting s b = true) :
    addCounter s a v = { s with mem := { s.mem with droppedAdds := s.mem.droppedAdds + 1 } } := by
  simp [addCounter, ha, hp, hb]

/-- Settles O17: a module reset begins with empty counters, a partition reset clears those of its berths, an abort writes no
memory, and an addition that is dropped is only counted. -/
theorem countersThroughResets : Obligations.CountersThroughResets := by
  unfold Obligations.CountersThroughResets
  refine ⟨getCounter_moduleReset, fun s hs t h b i => ?_, fun s p cause _ hr hp b hb i hi => ?_,
    fun s fn a _ t h => congrArg MemGroup.counters (mem_execCtxAbort h), fun s a v b i => addCounter_dropped v⟩
  · obtain rfl : dumpReset s 4 = t := by simpa [exec, execWatchdog, hs] using h
    exact getCounter_moduleReset _ 4 b i
  · obtain ⟨t, rfl, ⟨-, -, hin, -⟩, -⟩ := partReset_row (s := s) (p := p) cause hr hp
    obtain ⟨-, -, -, -, hcounters⟩ := hin b hb
    exact hcounters i hi

end Sys2Proof.Machine
end

section
/-! SUPPORT. Role changes: the drain that a request begins, its end, and the reply that waits for the own epoch table. -/

namespace Sys2Proof.Machine

variable {s : State}

/-! ## The request and the end of its drain (Table 10-12, steps 1 to 5) -/

theorem roleChange_drains {fn k : Nat} {a : Asked} (h : Asks s (.mailbox fn) 0x0020 a) (hk : k = fld a.params 0 8)
    (hr : (getSite s k).retired = false) (hs : siteDown s k = false) (hd : (getSite s k).drain = none)
    (hp : (getSite s k).replyTo = none) : exec (.roleChange fn) s = .next
      (markServed (updSite s k (fun x => { x with drain := some (fld a.params 8 8, fn) })) (.mailbox fn)) := by
  show execRoleChange fn s = _
  unfold execRoleChange
  refine blunen_waits h ?_
  dsimp only
  rw [← hk, if_neg (by simp [hr]), if_neg (by simp [hs]), if_neg (by simp [hd, hp])]

theorem roleChange_silent {fn : Nat} {a : Asked} (h : Asks s (.mailbox fn) 0x0020 a)
    (hr : (getSite s (fld a.params 0 8)).retired = false) (hs : siteDown s (fld a.params 0 8) = true) :
    ∃ t, exec (.roleChange fn) s = .next t ∧ Replied s t (.mailbox fn) S_HW_ERROR (fld a.params 0 8) [] :=
  blunen_replied (res := ⟨S_HW_ERROR, fld a.params 0 8, []⟩) h (by simp [hr, hs]) rfl (fun _ _ => rfl)

theorem roleDrained_ends {k role fn : Nat} (h : (getSite s k).drain = some (role, fn)) : roleDrained s k =
    send (updSite s k (fun x => { x with role := role, epoch := (getSite s k).epoch + 1, drain := none, replyTo := some fn }))
      (.epoch k ((getSite s k).epoch + 1)) := by
  simp [roleDrained, h]

/-! ## The reply (Table 10-12, step 7) -/

/-- The own epoch table takes the epoch that an own site has. -/
def ownEpochLearned (s : State) (k : Nat) (e : EpochSeen) : State :=
  updSite (epochLearned s (ownPos s) k e) k (fun x => { x with epoch := e.epoch })

theorem epochLearned_own (k : Nat) (e : EpochSeen) : epochLearned s (ownPos s) k e =
    { s with harbour := { s.harbour with epochs := tabSet 0 s.harbour.epochs (epochKey s (ownPos s) k) e.epoch } } := by
  have hp : partLearned s (ownPos s) e = s := by
    unfold partLearned
    split <;> simp
  simp [epochLearned, hp]

theorem getSite_ownEpochLearned {k : Nat} {e : EpochSeen} (he : e.epoch = (getSite s k).epoch) (j : Nat) :
    getSite (ownEpochLearned s k e) j = getSite s j := by
  have hs : ∀ i, getSite (epochLearned s (ownPos s) k e) i = getSite s i := fun i => by rw [epochLearned_own]; rfl
  by_cases hj : j = k
  · subst hj
    rw [ownEpochLearned, getSite_upd_self, hs, he]
  · rw [ownEpochLearned, getSite_upd_other _ _ hj, hs]

theorem staleSite_ownEpochLearned {k : Nat} {e : EpochSeen} (he : e.epoch = (getSite s k).epoch) :
    staleSite (ownEpochLearned s k e) k = false := by
  have ht : tableEpoch (ownEpochLearned s k e) (ownPos (ownEpochLearned s k e)) k = e.epoch := by
    have h := tableEpoch_epochLearned s (ownPos s) k (ownPos s) k e
    rw [if_pos rfl] at h
    have ho : ownPos (ownEpochLearned s k e) = ownPos s := by rw [ownEpochLearned, epochLearned_own]; rfl
    rw [ho]
    exact h
  unfold staleSite
  rw [ht, getSite_ownEpochLearned he, he]
  simp

/-- A mailbox that waits for a reply: its request is accepted and has no result. -/
theorem answer_waiting {m : State} {fn : Nat} (res : MbxResult) (h1 : (getMbx m fn).pending = true)
    (h2 : (getMbx m fn).accepted = true) (h3 : (getMbx m fn).result = none) :
    answer m (.mailbox fn) res = updMbx m fn (fun x => { x with result := some res, journal := 2 }) := by
  simp [answer, h1, h2, h3]

theorem epochUpdate_replies {k fn : Nat} {e : EpochSeen} (hp : (getSite s k).replyTo = some fn)
    (he : e.epoch = (getSite s k).epoch) (h1 : (getMbx s fn).pending = true) (h2 : (getMbx s fn).accepted = true)
    (h3 : (getMbx s fn).result = none) : epochUpdate s (ownPos s) k e =
      updMbx (updSite (ownEpochLearned s k e) k (fun x => { x with replyTo := none })) fn (fun m =>
        { m with result := some ⟨S_OK, 0, bytesLE 1 (getSite s k).epoch.toNat⟩, journal := 2 }) := by
  have hm : getMbx (updSite (ownEpochLearned s k e) k (fun x => { x with replyTo := none })) fn = getMbx s fn := by
    rw [ownEpochLearned, epochLearned_own]
    rfl
  rw [epochUpdate_eq, if_pos rfl]
  change roleReply (ownEpochLearned s k e) k = _
  simp only [roleReply, getSite_ownEpochLearned he, hp, staleSite_ownEpochLearned he, Bool.false_eq_true, if_false]
  exact answer_waiting _ (hm ▸ h1) (hm ▸ h2) (hm ▸ h3)

theorem epochUpdate_replies_row {k fn : Nat} {e : EpochSeen} (hp : (getSite s k).replyTo = some fn)
    (he : e.epoch = (getSite s k).epoch) (h1 : (getMbx s fn).pending = true) (h2 : (getMbx s fn).accepted = true)
    (h3 : (getMbx s fn).result = none) : ∃ t, t = epochUpdate s (ownPos s) k e ∧
      t = { s with sites := t.sites, mbx := t.mbx, harbour := { s.harbour with epochs := t.harbour.epochs } } ∧
      (∀ j, j ≠ k → getSite t j = getSite s j) ∧ getSite t k = { getSite s k with replyTo := none } ∧
      tableEpoch t (ownPos s) k = (getSite s k).epoch ∧ (∀ j, j ≠ fn → getMbx t j = getMbx s j) ∧
      (getMbx t fn).result = some ⟨S_OK, 0, bytesLE 1 (getSite s k).epoch.toNat⟩ := by
  have hepoch := tableEpoch_epochUpdate s (ownPos s) k (ownPos s) k e
  rw [if_pos rfl, he] at hepoch
  rw [epochUpdate_replies hp he h1 h2 h3] at hepoch
  have hm : ∀ j, getMbx (updSite (ownEpochLearned s k e) k (fun x => { x with replyTo := none })) j = getMbx s j := fun j => by
    rw [ownEpochLearned, epochLearned_own]
    rfl
  refine ⟨_, rfl, ?_⟩
  rw [epochUpdate_replies hp he h1 h2 h3]
  refine ⟨?_, fun j hj => ?_, ?_, hepoch, fun j hj => ?_, congrArg Mailbox.result (getMbx_upd_self _ fn _)⟩
  · rw [ownEpochLearned, epochLearned_own]
    rfl
  · rw [getSite_congr (updMbx_sites _ _ _), getSite_upd_other _ _ hj, getSite_ownEpochLearned he]
  · rw [getSite_congr (updMbx_sites _ _ _), getSite_upd_self, getSite_ownEpochLearned he]
  · rw [getMbx_upd_other _ _ hj, hm]

/-- Settles O10: the request records the drain, its end puts role and epoch in force, and the own epoch table brings the
reply. -/
theorem roleChangesAfterDrain : Obligations.RoleChangesAfterDrain := by
  unfold Obligations.RoleChangesAfterDrain
  refine ⟨fun s fn a k h hk hr hs hd hp => ⟨_, roleChange_drains h hk hr hs hd hp, rfl, fun j hj => ?_, ?_, fun j hj => ?_, ?_⟩,
    fun s k role fn hk hd => ⟨_, guarded_next.mpr ⟨hk, rfl⟩, ?_⟩, fun s k fn e hp he h1 h2 h3 => ?_,
    fun s fn a h hr => blunen_refuses h (if_pos hr), fun s fn a h hr hs => roleChange_silent h hr hs⟩
  · exact (getSite_congr (updMbx_sites _ _ _) j).trans (getSite_upd_other s _ hj)
  · exact (getSite_congr (updMbx_sites _ _ _) k).trans (getSite_upd_self s k _)
  · exact getMbx_upd_other _ _ hj
  · exact getMbx_upd_self _ fn _
  · rw [roleDrained_ends hd]
    exact ⟨rfl, fun j hj => (getSite_congr (send_sites _ _) j).trans (getSite_upd_other s _ hj),
      (getSite_congr (send_sites _ _) k).trans (getSite_upd_self s k _)⟩
  · obtain ⟨t, ht, hrow⟩ := epochUpdate_replies_row hp he h1 h2 h3
    exact ⟨t, congrArg Host.Outcome.next ht.symm, hrow⟩

end Sys2Proof.Machine
end

section
/-! SUPPORT. Liveness and the master (O58): the members that a dead module leaves as they are, the choice among the claims,
and what a returning module is told. -/

namespace Sys2Proof.Machine

variable {s t u : State}

/-! ## Heartbeats -/

theorem heartbeat_row {p n : Nat} (hm : isMaster s = true) (hp : (memberList s).contains p = true) : ∃ t, t = heartbeat s p n ∧
    getMember t p = { getMember s p with heartbeat := now s, part := n } ∧ (∀ j, j ≠ p → getMember t j = getMember s j) ∧
    t.mem = s.mem ∧ t.sent = (if (getMember s p).part = n then s.sent else s.sent ++ [memberInfo s p n]) := by
  refine ⟨_, rfl, ?_⟩
  unfold heartbeat
  rw [hm, hp, Bool.and_self, if_pos rfl]
  dsimp only
  split
  · exact ⟨getMember_upd_self s p _, fun j hj => getMember_upd_other s _ hj, rfl, rfl⟩
  · exact ⟨getMember_upd_self s p _, fun j hj => getMember_upd_other s _ hj, rfl, rfl⟩

theorem heartbeat_not {p n : Nat} (h : isMaster s = false ∨ (memberList s).contains p = false) : heartbeat s p n = s := by
  unfold heartbeat
  refine if_neg (fun hc => ?_)
  obtain ⟨h1, h2⟩ := Bool.and_eq_true_iff.mp hc
  rcases h with h | h
  · exact Bool.false_ne_true (h.symm.trans h1)
  · exact Bool.false_ne_true (h.symm.trans h2)

/-! ## What the death of a module leaves -/

/-- The member table is as it was, and no event that waits for the log is lost. -/
def MembersStay (s t : State) : Prop :=
  t.harbour.memberTab = s.harbour.memberTab ∧ s.faults.unlogged <+: t.faults.unlogged

theorem MembersStay.refl (s : State) : MembersStay s s := ⟨rfl, List.prefix_rfl⟩
theorem MembersStay.trans (h : MembersStay s t) (g : MembersStay t u) : MembersStay s u := by
  obtain ⟨h1, h2⟩ := h
  obtain ⟨g1, g2⟩ := g
  exact ⟨g1.trans h1, h2.trans g2⟩
theorem MembersStay.member (h : MembersStay s t) (p : Nat) : getMember t p = getMember s p := by
  unfold getMember
  rw [h.1]
theorem MembersStay.event {e : FaultEv} (h : MembersStay s t) (he : e ∈ s.faults.unlogged) : e ∈ t.faults.unlogged :=
  h.2.subset he

/-- A change that touches neither the harbour nor the events. -/
theorem MembersStay.of_eq (hh : t.harbour = s.harbour) (hf : t.faults = s.faults) : MembersStay s t :=
  ⟨by rw [hh], by rw [hf]⟩

theorem RequestsEnd.membersStay (h : RequestsEnd s t) : MembersStay s t := by
  obtain ⟨-, -, -, hh, ⟨l, hl⟩, -⟩ := h
  exact ⟨by rw [hh], by rw [hl]; exact List.prefix_append _ _⟩

theorem WorkKeeps.membersStay {id : CmdId} (h : WorkKeeps id s t) : MembersStay s t := by
  obtain ⟨h, -⟩ := h
  unfold Sys2Proof.WorkFrame at h
  exact ⟨by rw [h], by rw [h]⟩

theorem RoutesMove.membersStay (h : RoutesMove s t) : MembersStay s t := by
  obtain ⟨h, -⟩ := h
  exact ⟨by rw [h], by rw [h]⟩

theorem membersStay_finishWork (s : State) (c : Cmd) (ts : List Touch) (st : Option (Nat × Nat)) (l : List (Nat × Byte)) :
    MembersStay s (finishWork s c ts st l) := by
  unfold finishWork
  exact (MembersStay.of_eq (t := finishCmd s c.id _ _) rfl rfl).trans
    ((workKeeps_reads _ c _).trans (requestsLeave_issueResults _ c _).workKeeps).membersStay

theorem membersStay_finishRun (s : State) (r : GraphRunState) : MembersStay s (finishRun s r) := by
  unfold finishRun
  split
  · exact .refl s
  · exact (MembersStay.of_eq rfl rfl).trans (membersStay_finishWork _ _ _ _ _)

theorem membersStay_settleRun (s : State) (id : CmdId) : MembersStay s (settleRun s id) := by
  unfold settleRun
  split
  · split
    · exact membersStay_finishRun s _
    · exact .refl s
  · exact .refl s

theorem membersStay_abortNode (s : State) (id : CmdId) (i j st d : Nat) : MembersStay s (abortNode s id i j st d) := by
  unfold abortNode
  refine .trans ?_ (membersStay_settleRun _ _)
  cases runOf s id with
  | none => exact .of_eq rfl rfl
  | some r => exact .of_eq rfl rfl

theorem membersStay_deadNodes (s : State) (p : Nat) : MembersStay s (deadNodes s p) := by
  unfold deadNodes
  refine foldl_rel .refl .trans (fun t r => ?_) _ s
  refine foldl_rel .refl .trans (fun u n => ?_) _ t
  dsimp only
  split
  · exact membersStay_abortNode _ _ _ _ _ _
  · exact .refl u

theorem membersStay_endRelayed (s : State) (r : Nat) : MembersStay s (endRelayed s r) := by
  have hfold : ∀ l : List OutReq, RequestsEnd s
      (l.foldl (fun t o => noteOut (untrack t o.req.tag) o S_TARGET_DEAD (relayDetail s r)) s) := fun l =>
    foldl_rel RequestsEnd.refl RequestsEnd.trans
      (fun t o => (requestsEnd_untrack t o.req.tag).trans (requestsEnd_noteOut (untrack t o.req.tag) o _ _)) l s
  unfold endRelayed
  dsimp only
  split
  · exact (hfold _).membersStay
  · exact ((hfold _).trans (requestsEnd_raiseAt _ _)).membersStay

theorem membersStay_rerouteFrom (s : State) (r : Nat) : MembersStay s (rerouteFrom s r) :=
  (routesMove_movePairs s (relayedPairs s r)).membersStay

/-! ## A module held dead -/

theorem getMember_congr (h : t.harbour = s.harbour) (p : Nat) : getMember t p = getMember s p := by
  unfold getMember
  rw [h]

theorem tableEpoch_congr (h : t.harbour = s.harbour) (p k : Nat) : tableEpoch t p k = tableEpoch s p k := by
  unfold tableEpoch epochKey ownPos
  rw [h]

theorem memberEvent_harbour (s : State) (p o : Nat) : (memberEvent s p o).harbour = s.harbour := rfl

theorem memberEvent_unlogged (s : State) (p o : Nat) : ∃ e, (memberEvent s p o).faults.unlogged = s.faults.unlogged ++ [e] ∧
    e.code = 0x0501 ∧ e.outcome = o ∧ e.pos = p := by
  obtain ⟨e, h, hcode, -, -, -, ho, hp, -⟩ := raiseAt_unlogged s { code := 0x0501, outcome := o, pos := p, unit := p }
  exact ⟨e, h, hcode, ho, hp⟩

theorem moduleDead_of_dead {p : Nat} (h : (getMember s p).dead = true) : moduleDead s p = s := by
  unfold moduleDead
  rw [if_pos h]

theorem moduleDead_row {p : Nat} (h : (getMember s p).dead = false) : (getMember (moduleDead s p) p).dead = true ∧
    ∃ e ∈ (moduleDead s p).faults.unlogged, e.code = 0x0501 ∧ e.pos = p := by
  have hstay : MembersStay (memberEvent (updMember s p (fun m => { m with dead := true, rejoining := false })) p 0)
      (moduleDead s p) := by
    unfold moduleDead
    rw [if_neg (by simp [h])]
    exact ((membersStay_deadNodes _ p).trans (membersStay_endRelayed _ p)).trans (membersStay_rerouteFrom _ p)
  obtain ⟨e, he, hcode, -, hpos⟩ := memberEvent_unlogged
    (updMember s p (fun m => { m with dead := true, rejoining := false })) p 0
  refine ⟨?_, e, hstay.event (by rw [he]; simp), hcode, hpos⟩
  rw [hstay.member p]
  exact congrArg Member.dead (getMember_upd_self s p _)

theorem heartbeatTimeout_declares {p : Nat} (hm : isMaster s = true) (hp : (memberList s).contains p = true) (ho : p ≠ ownPos s)
    (hd : (getMember s p).dead = false) (hh : (getMember s p).heartbeat + 1000000 ≤ now s) :
    heartbeatTimeout s p false = send (moduleDead s p) (.dead p none) := by
  unfold heartbeatTimeout
  rw [if_pos (by rw [hm, hp, hd]; simp [ho, hh])]

theorem heartbeatTimeout_not {p : Nat} {a : Bool} (h : isMaster s = false ∨ (memberList s).contains p = false ∨ p = ownPos s ∨
    a = true ∨ (getMember s p).dead = true ∨ now s < (getMember s p).heartbeat + 1000000) : heartbeatTimeout s p a = s := by
  unfold heartbeatTimeout
  refine if_neg (fun hc => ?_)
  simp only [Bool.and_eq_true, bne_iff_ne, Bool.not_eq_true', decide_eq_true_eq] at hc
  obtain ⟨⟨⟨⟨⟨h1, h2⟩, h3⟩, h4⟩, h5⟩, h6⟩ := hc
  rcases h with h | h | h | h | h | h
  · exact Bool.false_ne_true (h.symm.trans h1)
  · exact Bool.false_ne_true (h.symm.trans h2)
  · exact h3 h
  · exact Bool.false_ne_true (h4.symm.trans h)
  · exact Bool.false_ne_true (h5.symm.trans h)
  · omega

/-! ## Declarations -/

theorem deadDeclaration_not {p : Nat} {k : Option Nat} (h : p = ownPos s ∨ (memberList s).contains p = false) :
    deadDeclaration s p k = s := if_pos h

theorem deadDeclaration_module {p : Nat} (ho : p ≠ ownPos s) (hp : (memberList s).contains p = true) :
    deadDeclaration s p none = moduleDead s p := by
  unfold deadDeclaration
  rw [if_neg (by rw [hp]; simp [ho])]

theorem deadDeclaration_site {p j : Nat} (ho : p ≠ ownPos s) (hp : (memberList s).contains p = true) :
    ∃ t, t = deadDeclaration s p (some j) ∧
      t = { s with harbour := { s.harbour with deadSites := t.harbour.deadSites }, sent := t.sent } ∧
      t.sent = (if isMaster s = true then s.sent ++ [.dead p (some j)] else s.sent) ∧
      tabGet false t.harbour.deadSites (p * 64 + j) = true ∧
      ∀ i, i ≠ p * 64 + j → tabGet false t.harbour.deadSites i = tabGet false s.harbour.deadSites i := by
  have hget : ∀ i, tabGet false (tabSet false s.harbour.deadSites (p * 64 + j) true) i =
      if i = p * 64 + j then true else tabGet false s.harbour.deadSites i := fun i => tabGet_set _ _ _ _ _
  refine ⟨_, rfl, ?_⟩
  unfold deadDeclaration
  rw [if_neg (by rw [hp]; simp [ho])]
  dsimp only
  split
  · exact ⟨rfl, rfl, (hget _).trans (if_pos rfl), fun i hi => (hget i).trans (if_neg hi)⟩
  · exact ⟨rfl, rfl, (hget _).trans (if_pos rfl), fun i hi => (hget i).trans (if_neg hi)⟩

/-! ## The keeper of Tide -/

theorem unlogged_relax (s : State) (w : Nat) (h : Bool) (ns : Int) :
    s.faults.unlogged <+: (relax s w h ns).faults.unlogged := by
  by_cases hw : w ∈ s.tide.relaxed ↔ h = true
  · rw [relax_same ns hw]
  · obtain ⟨e, he, -⟩ := relax_raises ns hw
    rw [he]
    exact List.prefix_append _ _

/-- Which reasons are left when some have ended. -/
theorem mem_relaxed_ends (x : Nat) (l : List Nat) (s : State) :
    x ∈ (l.foldl (fun t why => relax t why false 0) s).tide.relaxed ↔ x ∉ l ∧ x ∈ s.tide.relaxed := by
  induction l generalizing s with
  | nil => simp
  | cons w l ih =>
    rw [List.foldl_cons, ih, mem_relaxed_relax]
    by_cases hx : x = w <;> simp [hx]

/-- A module that keeps harbour Tide is in no holdover, and relaxed for none of the four reasons. -/
theorem keepsTide_row (s : State) : RelaxedOnly { s with tide := { s.tide with holdover := none } } (keepsTide s) ∧
    (∀ i, 1 ≤ i → i ≤ 4 → i ∉ (keepsTide s).tide.relaxed) ∧ s.faults.unlogged <+: (keepsTide s).faults.unlogged := by
  refine ⟨foldl_rel .refl .trans (fun t w => relaxedOnly_relax t w false 0) _ _, fun i h1 h4 hi => ?_,
    foldl_rel (R := fun a b => a.faults.unlogged <+: b.faults.unlogged) (fun _ => List.prefix_rfl) List.IsPrefix.trans
      (fun t w => unlogged_relax t w false 0) [1, 2, 3, 4] { s with tide := { s.tide with holdover := none } }⟩
  obtain ⟨hl, -⟩ := (mem_relaxed_ends i _ _).mp hi
  simp only [List.mem_cons, List.not_mem_nil, or_false, not_or] at hl
  omega

/-! ## The claims -/

/-- The choice among the claims: the lowest position of which some claim reaches more than half the harbour. -/
theorem bestClaim_eq_some {l : List Claim} {p : Nat} (h : ∃ x ∈ l, x.pos = p ∧ harbourSize s < 2 * x.reaches) (hp : p < 25)
    (hlow : ∀ x ∈ l, x.pos < p → 2 * x.reaches ≤ harbourSize s) : bestClaim s l = some p := by
  unfold bestClaim
  rw [List.find?_range_eq_some]
  refine ⟨?_, List.mem_range.mpr hp, fun q hq => ?_⟩
  · obtain ⟨x, hx, hxp, hr⟩ := h
    exact List.any_eq_true.mpr ⟨x, hx, by simp [hxp, hr]⟩
  · rw [Bool.not_eq_true', List.any_eq_false]
    intro x hx
    simp only [Bool.and_eq_true, beq_iff_eq, decide_eq_true_eq, not_and, not_lt]
    rintro rfl
    exact hlow x hx hq

theorem bestClaim_eq_none {l : List Claim} (h : ∀ x ∈ l, x.pos < 25 → 2 * x.reaches ≤ harbourSize s) :
    bestClaim s l = none := by
  unfold bestClaim
  rw [List.find?_eq_none]
  intro p hp
  rw [List.mem_range] at hp
  rw [Bool.not_eq_true, List.any_eq_false]
  intro x hx
  simp only [Bool.and_eq_true, beq_iff_eq, decide_eq_true_eq, not_and, not_lt]
  rintro rfl
  exact h x hx hp

theorem claimCollect_not {l : List Claim} (h : s.harbour.claimAt = none) : claimCollect s l = s := by simp [claimCollect, h]

theorem claimCollect_early {l : List Claim} {c : Nat} (h : s.harbour.claimAt = some c) (hc : now s < c + 200000) :
    claimCollect s l = s := by simp [claimCollect, h, hc]

/-- The harbour with a master after the claims, before its event. -/
def mastered (s : State) (p : Nat) : State :=
  relax { s with harbour := { s.harbour with master := p, noMaster := false, claimAt := none } } 3 false (s.tide.offset16 / 16)

theorem claimCollect_some {l : List Claim} {c p : Nat} (h : s.harbour.claimAt = some c) (hc : c + 200000 ≤ now s)
    (hb : bestClaim s (⟨ownPos s, reaches s⟩ :: l) = some p) : claimCollect s l =
      if p = ownPos s then send (keepsTide (memberEvent (mastered s p) p 0)) (.announce p (now s))
      else memberEvent (mastered s p) p 0 := by
  unfold claimCollect
  rw [h]
  dsimp only
  rw [if_neg (by omega), hb]
  rfl

theorem mastered_row (s : State) (p : Nat) : (mastered s p).harbour =
    { s.harbour with master := p, noMaster := false, claimAt := none } ∧ (mastered s p).tide.count = s.tide.count ∧
    (mastered s p).sent = s.sent ∧ 3 ∉ (mastered s p).tide.relaxed := by
  have hk : RelaxedOnly { s with harbour := { s.harbour with master := p, noMaster := false, claimAt := none } }
    (mastered s p) :=
    relaxedOnly_relax _ _ _ _
  unfold RelaxedOnly at hk
  refine ⟨by rw [hk], by rw [hk], by rw [hk], ?_⟩
  unfold mastered
  rw [mem_relaxed_relax]
  simp

theorem claimCollect_master {l : List Claim} {c p : Nat} (h : s.harbour.claimAt = some c) (hc : c + 200000 ≤ now s)
    (hb : bestClaim s (⟨ownPos s, reaches s⟩ :: l) = some p) : ∃ t, t = claimCollect s l ∧ t.harbour.master = p ∧
      t.harbour.noMaster = false ∧ t.harbour.claimAt = none ∧ t.tide.count = s.tide.count ∧ 3 ∉ t.tide.relaxed ∧
      (∃ e ∈ t.faults.unlogged, e.code = 0x0501 ∧ e.pos = p) ∧
      (p = ownPos s → .announce p (now s) ∈ t.sent ∧ t.tide.holdover = none ∧ ∀ i, 1 ≤ i → i ≤ 4 → i ∉ t.tide.relaxed) ∧
      (p ≠ ownPos s → t.sent = s.sent) := by
  obtain ⟨m1, m2, m3, m4⟩ := mastered_row s p
  obtain ⟨e, he, hcode, -, hpos⟩ := memberEvent_unlogged (mastered s p) p 0
  have hin : e ∈ (memberEvent (mastered s p) p 0).faults.unlogged := by rw [he]; simp
  refine ⟨_, rfl, ?_⟩
  rw [claimCollect_some h hc hb]
  split
  · next hp =>
    obtain ⟨k1, k2, k3⟩ := keepsTide_row (memberEvent (mastered s p) p 0)
    have hh : (keepsTide (memberEvent (mastered s p) p 0)).harbour = (mastered s p).harbour := by rw [k1]; rfl
    refine ⟨?_, ?_, ?_, ?_, k2 3 (by decide) (by decide), ⟨e, k3.subset hin, hcode, hpos⟩,
      fun _ => ⟨by simp [send], ?_, k2⟩, fun hn => absurd hp hn⟩
    · rw [send_harbour, hh, m1]
    · rw [send_harbour, hh, m1]
    · rw [send_harbour, hh, m1]
    · rw [send_tide, k1]
      exact m2
    · rw [send_tide, k1]
  · next hp =>
    refine ⟨?_, ?_, ?_, m2, m4, ⟨e, hin, hcode, hpos⟩, fun hn => absurd hn hp, fun _ => m3⟩
    · exact congrArg (·.master) m1
    · exact congrArg (·.noMaster) m1
    · exact congrArg (·.claimAt) m1

/-- The harbour without a master after the claims, its event raised when it had one. -/
def masterless (s : State) : State :=
  let x : State := { s with harbour := { s.harbour with noMaster := true, claimAt := none } }
  if s.harbour.noMaster then x else memberEvent x (ownPos s) 0

theorem claimCollect_none {l : List Claim} {c : Nat} (h : s.harbour.claimAt = some c) (hc : c + 200000 ≤ now s)
    (hb : bestClaim s (⟨ownPos s, reaches s⟩ :: l) = none) : claimCollect s l = holdoverDrift (masterless s) := by
  unfold claimCollect
  rw [h]
  dsimp only
  rw [if_neg (by omega), hb]
  rfl

theorem masterless_row (s : State) : (masterless s).harbour = { s.harbour with noMaster := true, claimAt := none } ∧
    (masterless s).tide = s.tide ∧ (masterless s).sent = s.sent ∧ now (masterless s) = now s := by
  unfold masterless
  dsimp only
  split <;> exact ⟨rfl, rfl, rfl, rfl⟩

theorem claimCollect_masterless {l : List Claim} {c : Nat} (h : s.harbour.claimAt = some c) (hc : c + 200000 ≤ now s)
    (hb : bestClaim s (⟨ownPos s, reaches s⟩ :: l) = none) : ∃ t, t = claimCollect s l ∧ t.harbour.noMaster = true ∧
      t.harbour.claimAt = none ∧ t.sent = s.sent ∧
      (∀ h, s.tide.holdover = some h → h + 2500000 ≤ now s → 3 ∈ t.tide.relaxed) ∧
      (s.tide.holdover = none ∨ (∃ h, s.tide.holdover = some h ∧ now s < h + 2500000) → t.tide = s.tide) := by
  obtain ⟨m1, m2, m3, m4⟩ := masterless_row s
  refine ⟨_, rfl, ?_⟩
  rw [claimCollect_none h hc hb]
  cases hh : s.tide.holdover with
  | none =>
    have hd : holdoverDrift (masterless s) = masterless s := by
      unfold holdoverDrift
      rw [m2, hh]
    rw [hd, m1]
    exact ⟨rfl, rfl, m3, by simp, fun _ => m2⟩
  | some a =>
    obtain ⟨d1, d2, d3⟩ := holdoverDrift_relaxed (s := masterless s) (h := a) (by rw [m2, hh])
    have hmaster : (masterless s).harbour.noMaster = true := by rw [m1]
    rw [m4] at d2 d3
    unfold RelaxedOnly at d1
    refine ⟨?_, ?_, ?_, fun b hb ha => ?_, fun hn => ?_⟩
    · rw [d1]; exact hmaster
    · rw [d1, m1]
    · rw [d1]; exact m3
    · cases hb
      exact d2 hmaster ha
    · rcases hn with hn | ⟨b, hb, hlt⟩
      · cases hn
      · cases hb
        rw [d3 (.inr (.inl hlt)), m2]

/-! ## Handback -/

/-- The acting master may hand back: position 0 is a stable member. -/
def HandsBack (s : State) : Prop :=
  s.harbour.master ≠ 0 ∧ s.harbour.noMaster = false ∧ s.harbour.members.getLsbD 0 = true ∧ zeroStable s = true

theorem masterHandback_not (h : s.harbour.master = 0 ∨ s.harbour.noMaster = true ∨ s.harbour.members.getLsbD 0 = false ∨
    zeroStable s = false) : masterHandback s = s := if_pos h

theorem HandsBack.guard (h : HandsBack s) : ¬ (s.harbour.master = 0 ∨ s.harbour.noMaster = true ∨
    s.harbour.members.getLsbD 0 = false ∨ zeroStable s = false) := by
  obtain ⟨h1, h2, h3, h4⟩ := h
  simp [h1, h2, h3, h4]

theorem masterHandback_announces (h : HandsBack s) (ha : s.harbour.handbackAt = none) : ∃ t, t = masterHandback s ∧
    t.harbour = { s.harbour with handbackAt := some (now s + 1000000) } ∧
    t.sent = (if isMaster s = true then s.sent ++ [.announce 0 (now s + 1000000)] else s.sent) := by
  refine ⟨_, rfl, ?_⟩
  unfold masterHandback
  rw [if_neg h.guard, ha]
  dsimp only
  split <;> exact ⟨rfl, rfl⟩

theorem masterHandback_waits {a : Nat} (h : HandsBack s) (ha : s.harbour.handbackAt = some a) (hn : now s < a) :
    masterHandback s = s := by
  unfold masterHandback
  rw [if_neg h.guard, ha]
  dsimp only
  rw [if_pos hn]

/-- Position 0 is master again, before its event; its own Tide runs at rate 0 from here. -/
def handedBack (s : State) : State := { s with
  harbour := { s.harbour with master := 0, handbackAt := none, returnedAt := none }
  tide := if s.harbour.pos = 0 then { s.tide with rate := 0 } else s.tide }

theorem masterHandback_ends {a : Nat} (h : HandsBack s) (ha : s.harbour.handbackAt = some a) (hn : a ≤ now s) :
    masterHandback s = if s.harbour.pos = 0 then keepsTide (memberEvent (handedBack s) 0 0)
      else memberEvent (handedBack s) 0 0 := by
  unfold masterHandback
  rw [if_neg h.guard, ha]
  dsimp only
  rw [if_neg (by omega)]
  rfl

theorem masterHandback_row {a : Nat} (h : HandsBack s) (ha : s.harbour.handbackAt = some a) (hn : a ≤ now s) :
    ∃ t, t = masterHandback s ∧ t.harbour = { s.harbour with master := 0, handbackAt := none, returnedAt := none } ∧
      t.tide.count = s.tide.count ∧ (s.harbour.pos = 0 → t.tide.rate = 0 ∧ t.tide.holdover = none ∧
        ∀ i, 1 ≤ i → i ≤ 4 → i ∉ t.tide.relaxed) ∧ (s.harbour.pos ≠ 0 → t.tide = s.tide) ∧
      ∃ e ∈ t.faults.unlogged, e.code = 0x0501 := by
  obtain ⟨e, he, hcode, -⟩ := memberEvent_unlogged (handedBack s) 0 0
  have hin : e ∈ (memberEvent (handedBack s) 0 0).faults.unlogged := by rw [he]; simp
  refine ⟨_, rfl, ?_⟩
  rw [masterHandback_ends h ha hn]
  split
  · next hp =>
    obtain ⟨k1, k2, k3⟩ := keepsTide_row (memberEvent (handedBack s) 0 0)
    have htide : (memberEvent (handedBack s) 0 0).tide = { s.tide with rate := 0 } := if_pos hp
    refine ⟨?_, ?_, fun _ => ⟨?_, ?_, k2⟩, fun hn => absurd hp hn, e, k3.subset hin, hcode⟩
    · rw [k1]; rfl
    · rw [k1]; exact congrArg (·.count) htide
    · rw [k1]; exact congrArg (·.rate) htide
    · rw [k1]
  · next hp =>
    have htide : (memberEvent (handedBack s) 0 0).tide = s.tide := if_neg hp
    exact ⟨rfl, congrArg (·.count) htide, fun hn => absurd hn hp, fun _ => htide, e, hin, hcode⟩

/-! ## The release instants -/

/-- The messages that give an instant to both ends of links. -/
def releaseMsgs (l : List (Nat × Nat)) (a : Nat) : List OutMsg :=
  l.flatMap (fun x => [OutMsg.release x.1 (linkOf x.1 x.2) a, OutMsg.release x.2 (linkOf x.2 x.1) a])

/-- Only links change. -/
def LinksOnly (s t : State) : Prop := t = { s with harbour := { s.harbour with links := t.harbour.links } }

theorem LinksOnly.refl (s : State) : LinksOnly s s := rfl
theorem LinksOnly.trans (h : LinksOnly s t) (g : LinksOnly t u) : LinksOnly s u := by
  unfold LinksOnly at *
  rw [g, h]
theorem linksOnly_updLink (s : State) (k : Nat) (f : Link → Link) : LinksOnly s (updLink s k f) := rfl

/-- Scheduling sends the instant, at least 500 µs ahead, and changes links alone besides. -/
theorem scheduleLinks_row (s : State) (l : List (Nat × Nat)) : ∃ a, now s + 500000 ≤ a ∧
    LinksOnly (nextFresh (sendAll s (releaseMsgs l a))) (scheduleLinks s l) :=
  ⟨now s + 500000 + (Config.releaseSlack s.fresh).toNat, by omega,
    foldl_rel .refl .trans (fun t k => linksOnly_updLink t k _) _ _⟩

/-! ## The return of a module -/

/-- A site of a returning module: its epoch one higher, and live. -/
def siteReturns (p : Nat) (t : State) (k : Nat) : State :=
  { t with harbour := { t.harbour with
      epochs := tabSet 0 t.harbour.epochs (epochKey t p k) (tableEpoch t p k + 1)
      deadSites := tabSet false t.harbour.deadSites (p * 64 + k) false } }

theorem tableEpoch_siteReturns (p k y : Nat) (t : State) :
    tableEpoch (siteReturns p t y) p k = if y = k then tableEpoch t p k + 1 else tableEpoch t p k := by
  have hkey : epochKey t p k = epochKey t p y ↔ y = k := by
    unfold epochKey
    split <;> omega
  show tabGet 0 (tabSet 0 t.harbour.epochs (epochKey t p y) (tableEpoch t p y + 1)) (epochKey t p k) = _
  rw [tabGet_set]
  simp only [hkey]
  split
  · next h => rw [h]
  · rfl

theorem deadSites_siteReturns (p k y : Nat) (t : State) : tabGet false (siteReturns p t y).harbour.deadSites (p * 64 + k) =
    if y = k then false else tabGet false t.harbour.deadSites (p * 64 + k) := by
  show tabGet false (tabSet false t.harbour.deadSites (p * 64 + y) false) (p * 64 + k) = _
  rw [tabGet_set]
  congr 1
  simp [eq_comm]

/-- The sites of a returning module, whose epochs rise together. -/
def sitesReturn (s : State) (p : Nat) : State := (List.range 49).foldl (siteReturns p) s

theorem sitesReturn_row (s : State) (p : Nat) : sitesReturn s p = { s with harbour := { s.harbour with
    epochs := (sitesReturn s p).harbour.epochs, deadSites := (sitesReturn s p).harbour.deadSites } } :=
  foldl_rel (R := fun a b => b = { a with harbour := { a.harbour with
    epochs := b.harbour.epochs, deadSites := b.harbour.deadSites } }) (fun _ => rfl) (fun h g => by rw [g, h])
    (fun _ _ => rfl) _ _

theorem tableEpoch_sitesReturn (s : State) (p : Nat) {k : Nat} (hk : k < 49) :
    tableEpoch (sitesReturn s p) p k = tableEpoch s p k + 1 := by
  have h := foldl_once (fun t => tableEpoch t p k) (· + 1) k (fun t y => tableEpoch_siteReturns p k y t)
    (List.nodup_range (n := 49)) s
  rwa [if_pos (List.mem_range.mpr hk)] at h

theorem deadSites_sitesReturn (s : State) (p : Nat) {k : Nat} (hk : k < 49) :
    tabGet false (sitesReturn s p).harbour.deadSites (p * 64 + k) = false := by
  have h := foldl_once (fun t => tabGet false t.harbour.deadSites (p * 64 + k)) (fun _ => false) k
    (fun t y => deadSites_siteReturns p k y t) (List.nodup_range (n := 49)) s
  rwa [if_pos (List.mem_range.mpr hk)] at h

/-- The instant at which position 0 has returned is kept. -/
def returnNoted (s t : State) (p : Nat) : State :=
  { t with harbour := { t.harbour with returnedAt := if p = 0 then some (now s) else t.harbour.returnedAt } }

/-- What every member is told of the others at a return. -/
def infosAt (s t : State) : List OutMsg :=
  (memberList s).map (fun m => memberInfo t m (if m = ownPos s then s.ident.part else (getMember t m).part))

/-- A member that has returned, with its sites. -/
def memberBack (s : State) (p n : Nat) : State :=
  returnNoted s (sitesReturn (updMember s p (fun _ => { part := n, heartbeat := now s })) p) p

/-- The harbour of a returning member has been told, and the event raised. -/
def memberTold (s : State) (p n : Nat) : State :=
  memberEvent (sendAll (memberBack s p n) (infosAt s (memberBack s p n))) p 5

theorem rejoinRequest_eq {p n : Nat} (hm : isMaster s = true) (hp : (memberList s).contains p = true) (ho : p ≠ ownPos s) :
    rejoinRequest s p n = if harbourSize s ≤ 4 then memberTold s p n else scheduleReleases (memberTold s p n) p := by
  unfold rejoinRequest
  rw [if_pos (by rw [hm, hp]; simp [ho])]
  extract_lets s1 s2 h s3 infos s4
  have h2 : s2 = sitesReturn s1 p := rfl
  have h3 : s3 = memberBack s p n := congrArg (fun t => returnNoted s t p) h2
  have h4 : s4 = memberTold s p n := congrArg (fun t => memberEvent (sendAll t (infosAt s t)) p 5) h3
  rw [h4]

theorem rejoinRequest_not {p n : Nat} (h : isMaster s = false ∨ (memberList s).contains p = false ∨ p = ownPos s) :
    rejoinRequest s p n = s := by
  unfold rejoinRequest
  refine if_neg (fun hc => ?_)
  simp only [Bool.and_eq_true, bne_iff_ne] at hc
  obtain ⟨⟨h1, h2⟩, h3⟩ := hc
  rcases h with h | h | h
  · exact Bool.false_ne_true (h.symm.trans h1)
  · exact Bool.false_ne_true (h.symm.trans h2)
  · exact h3 h

theorem returnNoted_frame {p : Nat} (h : u = { t with harbour := { t.harbour with
    epochs := u.harbour.epochs, deadSites := u.harbour.deadSites } }) : returnNoted s u p = { t with harbour := { t.harbour with
    returnedAt := (returnNoted s u p).harbour.returnedAt
    epochs := u.harbour.epochs
    deadSites := u.harbour.deadSites } } := by
  rw [h]
  rfl

theorem tableEpoch_returnNoted (s t : State) (p q k : Nat) : tableEpoch (returnNoted s t p) q k = tableEpoch t q k := rfl
theorem deadSites_returnNoted (s t : State) (p : Nat) : (returnNoted s t p).harbour.deadSites = t.harbour.deadSites := rfl

theorem memberBack_frame (s : State) (p n : Nat) : ∃ a l m, memberBack s p n = { s with harbour := { s.harbour with
    memberTab := (updMember s p (fun _ => { part := n, heartbeat := now s })).harbour.memberTab
    returnedAt := a
    epochs := l
    deadSites := m } } :=
  ⟨_, _, _, returnNoted_frame (sitesReturn_row (updMember s p (fun _ => { part := n, heartbeat := now s })) p)⟩

theorem getMember_memberBack (s : State) (p n : Nat) : getMember (memberBack s p n) p = { part := n, heartbeat := now s } := by
  obtain ⟨_, _, _, hf⟩ := memberBack_frame s p n
  rw [hf]
  exact getMember_upd_self s p (fun _ => { part := n, heartbeat := now s })

theorem tableEpoch_updMember (s : State) (j : Nat) (f : Member → Member) (p k : Nat) :
    tableEpoch (updMember s j f) p k = tableEpoch s p k := rfl

theorem tableEpoch_memberBack (s : State) (p n : Nat) {k : Nat} (hk : k < 49) :
    tableEpoch (memberBack s p n) p k = tableEpoch s p k + 1 := by
  rw [memberBack, tableEpoch_returnNoted, tableEpoch_sitesReturn _ _ hk, tableEpoch_updMember]

theorem deadSites_memberBack (s : State) (p n : Nat) {k : Nat} (hk : k < 49) :
    tabGet false (memberBack s p n).harbour.deadSites (p * 64 + k) = false := by
  rw [memberBack, deadSites_returnNoted, deadSites_sitesReturn _ _ hk]

/-- What is told of a member depends on the harbour alone. -/
theorem memberInfo_congr (h : t.harbour = s.harbour) (m x : Nat) : memberInfo t m x = memberInfo s m x := by
  have ht : tableEpoch t m = tableEpoch s m := funext (tableEpoch_congr h m)
  unfold memberInfo
  rw [ht]

theorem told_row (b : State) (l : List OutMsg) (p : Nat) : (memberEvent (sendAll b l) p 5).harbour = b.harbour ∧
    (memberEvent (sendAll b l) p 5).mem = b.mem ∧ now (memberEvent (sendAll b l) p 5) = now b ∧
    (memberEvent (sendAll b l) p 5).sent = b.sent ++ l ∧
    ∃ e, (memberEvent (sendAll b l) p 5).faults.unlogged = b.faults.unlogged ++ [e] ∧
      e.code = 0x0501 ∧ e.outcome = 5 ∧ e.pos = p :=
  ⟨rfl, rfl, rfl, rfl, memberEvent_unlogged (sendAll b l) p 5⟩

/-- The member p of `s` is back in `t` with PART n, and the others' PART and epochs have been sent. -/
def MemberReturned (s t : State) (p n : Nat) : Prop :=
  getMember t p = { part := n, heartbeat := now s } ∧ t.mem = s.mem ∧
  (∀ k, k < 49 → tableEpoch t p k = tableEpoch s p k + 1 ∧ tabGet false t.harbour.deadSites (p * 64 + k) = false) ∧
  (∃ e, t.faults.unlogged = s.faults.unlogged ++ [e] ∧ e.code = 0x0501 ∧ e.outcome = 5 ∧ e.pos = p) ∧
  ∀ m ∈ memberList s, memberInfo t m (if m = ownPos s then s.ident.part else (getMember t m).part) ∈ t.sent

theorem memberTold_row (s : State) (p n : Nat) : MemberReturned s (memberTold s p n) p n ∧
    (memberTold s p n).harbour.links = s.harbour.links ∧ ownPos (memberTold s p n) = ownPos s ∧
    memberList (memberTold s p n) = memberList s ∧ now (memberTold s p n) = now s := by
  obtain ⟨_, _, _, hf⟩ := memberBack_frame s p n
  have hmember := getMember_memberBack s p n
  have hepoch : ∀ k, k < 49 → tableEpoch (memberBack s p n) p k = tableEpoch s p k + 1 :=
    fun _ hk => tableEpoch_memberBack s p n hk
  have hdead : ∀ k, k < 49 → tabGet false (memberBack s p n).harbour.deadSites (p * 64 + k) = false :=
    fun _ hk => deadSites_memberBack s p n hk
  obtain ⟨hh, hm, hn, hs, e, he, hev⟩ := told_row (memberBack s p n) (infosAt s (memberBack s p n)) p
  unfold memberTold
  refine ⟨⟨(getMember_congr hh p).trans hmember, ?_, fun k hk => ⟨(tableEpoch_congr hh p k).trans (hepoch k hk), ?_⟩,
    ⟨e, ?_, hev⟩, fun m hm => ?_⟩, ?_, ?_, ?_, ?_⟩
  · rw [hm, hf]
  · rw [hh]
    exact hdead k hk
  · rw [he, hf]
  · rw [getMember_congr hh, memberInfo_congr hh, hs]
    exact List.mem_append_right _ (List.mem_map_of_mem hm)
  · rw [hh, hf]
  · rw [ownPos, hh, hf, ownPos]
  · rw [memberList, hh, hf, memberList]
  · rw [hn, now, hf, now]

/-- The release instants of the links of a returning module are sent, and nothing but links changes besides. -/
theorem scheduleReleases_row (s : State) (p : Nat) : ∃ a l, now s + 500000 ≤ a ∧
    LinksOnly (nextFresh (sendAll s l)) (scheduleReleases s p) ∧
    ∀ m ∈ memberList s, m ≠ p → m ≠ ownPos s → .release p (linkOf p m) a ∈ l ∧ .release m (linkOf m p) a ∈ l := by
  unfold scheduleReleases
  dsimp only
  generalize hms : (memberList s).filter (fun m =>
    m != p && (m != ownPos s || decide ((getLink s (linkTo s p)).state = .linkReset))) = ms
  obtain ⟨a, ha, hl⟩ := scheduleLinks_row s (ms.map (fun m => (p, m)))
  refine ⟨a, _, ha, hl, fun m hm hp ho => ?_⟩
  have hin : (p, m) ∈ ms.map (fun m => (p, m)) :=
    List.mem_map.mpr ⟨m, by rw [← hms]; exact List.mem_filter.mpr ⟨hm, by simp [hp, ho]⟩, rfl⟩
  exact ⟨List.mem_flatMap.mpr ⟨_, hin, by simp⟩, List.mem_flatMap.mpr ⟨_, hin, by simp⟩⟩

/-- What is sent and what the links become besides takes nothing from a return. -/
theorem MemberReturned.linksOnly {p n : Nat} {l : List OutMsg} (h : MemberReturned s t p n)
    (hl : LinksOnly (nextFresh (sendAll t l)) u) : MemberReturned s u p n := by
  obtain ⟨h1, h2, h3, h4, h5⟩ := h
  unfold LinksOnly at hl
  have hsent : u.sent = t.sent ++ l := by rw [hl]; rfl
  have hinfo : ∀ m x, memberInfo u m x = memberInfo t m x := fun m x => by rw [hl]; rfl
  have hmem : ∀ m, getMember u m = getMember t m := fun m => by rw [hl]; rfl
  refine ⟨(hmem p).trans h1, ?_, fun k hk => ?_, ?_, fun m hm => ?_⟩
  · rw [hl]; exact h2
  · rw [hl]; exact h3 k hk
  · rw [hl]; exact h4
  · rw [hinfo, hmem, hsent]
    exact List.mem_append_left _ (h5 m hm)

theorem rejoinRequest_small {p n : Nat} (hm : isMaster s = true) (hp : (memberList s).contains p = true) (ho : p ≠ ownPos s)
    (hn : harbourSize s ≤ 4) : MemberReturned s (rejoinRequest s p n) p n ∧
      (rejoinRequest s p n).harbour.links = s.harbour.links := by
  obtain ⟨hr, hl, -⟩ := memberTold_row s p n
  rw [rejoinRequest_eq hm hp ho, if_pos hn]
  exact ⟨hr, hl⟩

theorem rejoinRequest_large {p n : Nat} (hm : isMaster s = true) (hp : (memberList s).contains p = true) (ho : p ≠ ownPos s)
    (hn : 5 ≤ harbourSize s) : MemberReturned s (rejoinRequest s p n) p n ∧
      ∃ a, now s + 500000 ≤ a ∧ ∀ m ∈ memberList s, m ≠ p → m ≠ ownPos s →
        .release p (linkOf p m) a ∈ (rejoinRequest s p n).sent ∧ .release m (linkOf m p) a ∈ (rejoinRequest s p n).sent := by
  obtain ⟨hr, -, hpos, hlist, hnow⟩ := memberTold_row s p n
  obtain ⟨a, l, ha, hl, hms⟩ := scheduleReleases_row (memberTold s p n) p
  rw [hpos, hlist] at hms
  rw [hnow] at ha
  rw [rejoinRequest_eq hm hp ho, if_neg (by omega)]
  have hsent : (scheduleReleases (memberTold s p n) p).sent = (memberTold s p n).sent ++ l := by
    unfold LinksOnly at hl
    rw [hl]
    rfl
  refine ⟨hr.linksOnly hl, a, ha, fun m hm h1 h2 => ?_⟩
  obtain ⟨g1, g2⟩ := hms m hm h1 h2
  rw [hsent]
  exact ⟨List.mem_append_right _ g1, List.mem_append_right _ g2⟩

/-- Settles O58: the liveness of the members, the choice of the master, its handback, and the return of a module. -/
theorem livenessAndTheMaster : Obligations.LivenessAndTheMaster := by
  unfold Obligations.LivenessAndTheMaster
  refine ⟨fun s p n => ⟨fun hm hp => ?_, fun h => congrArg Host.Outcome.next (heartbeat_not h)⟩,
    fun s p => ⟨fun hm hp ho hd hh => ?_, fun a h => congrArg Host.Outcome.next (heartbeatTimeout_not h)⟩,
    fun s p k => ⟨fun h => congrArg Host.Outcome.next (deadDeclaration_not h), fun ho hp => ⟨?_, ?_⟩⟩,
    fun s cl => ⟨fun h => congrArg Host.Outcome.next (claimCollect_not h),
      fun c h hc => congrArg Host.Outcome.next (claimCollect_early h hc),
      fun c p h hc hx hp hlow => ?_, fun c h hc hx => ?_⟩,
    fun s => ⟨fun h => congrArg Host.Outcome.next (masterHandback_not h), fun h1 h2 h3 h4 => ?_⟩,
    fun s p n => ⟨fun hm hp ho => ?_, fun h => congrArg Host.Outcome.next (rejoinRequest_not h)⟩⟩
  · obtain ⟨t, ht, hrow⟩ := heartbeat_row (n := n) hm hp
    exact ⟨t, congrArg Host.Outcome.next ht.symm, hrow⟩
  · obtain ⟨hdead, e, he, hev⟩ := moduleDead_row hd
    refine ⟨_, congrArg Host.Outcome.next (heartbeatTimeout_declares hm hp ho hd hh), hdead, by simp [send], ?_, e, he, hev⟩
    rw [send_mem, mem_moduleDead]
  · rintro rfl
    refine ⟨_, congrArg Host.Outcome.next (deadDeclaration_module ho hp), ?_, mem_moduleDead _ _, moduleDead_of_dead⟩
    cases hd : (getMember s p).dead with
    | false => exact (moduleDead_row hd).1
    | true => rw [moduleDead_of_dead hd, hd]
  · rintro j rfl
    obtain ⟨t, ht, hrow⟩ := deadDeclaration_site (j := j) ho hp
    exact ⟨t, congrArg Host.Outcome.next ht.symm, hrow⟩
  · obtain ⟨t, ht, hrow⟩ := claimCollect_master h hc (bestClaim_eq_some hx hp hlow)
    exact ⟨t, congrArg Host.Outcome.next ht.symm, hrow⟩
  · obtain ⟨t, ht, hrow⟩ := claimCollect_masterless h hc (bestClaim_eq_none hx)
    exact ⟨t, congrArg Host.Outcome.next ht.symm, hrow⟩
  · have hb : HandsBack s := ⟨h1, h2, h3, h4⟩
    refine ⟨fun ha => ?_, fun a ha hn => congrArg Host.Outcome.next (masterHandback_waits hb ha hn), fun a ha hn => ?_⟩
    · obtain ⟨t, ht, hrow⟩ := masterHandback_announces hb ha
      exact ⟨t, congrArg Host.Outcome.next ht.symm, hrow⟩
    · obtain ⟨t, ht, hrow⟩ := masterHandback_row hb ha hn
      exact ⟨t, congrArg Host.Outcome.next ht.symm, hrow⟩
  · by_cases hn : harbourSize s ≤ 4
    · obtain ⟨⟨h1, h2, h3, h4, h5⟩, hl⟩ := rejoinRequest_small (n := n) hm hp ho hn
      exact ⟨_, rfl, h1, h2, h3, h4, h5, fun _ => hl, fun h => by omega⟩
    · obtain ⟨⟨h1, h2, h3, h4, h5⟩, hl⟩ := rejoinRequest_large (n := n) hm hp ho (by omega)
      exact ⟨_, rfl, h1, h2, h3, h4, h5, fun h => absurd h hn, fun _ => hl⟩

end Sys2Proof.Machine
end

section
/-! SUPPORT. External links and the routes of pairs (O56): what the failure of a link, its training, a frame and a change of
route make of the link and the table. -/

namespace Sys2Proof.Machine

variable {s t u : State}

/-! ## A link that becomes another -/

theorem linkBecomes_refl (s : State) (k : Nat) : LinkBecomes s s k (getLink s k) := ⟨rfl, fun _ _ => rfl, rfl⟩

theorem linkBecomes_upd {k : Nat} {x : Link} (h : LinkBecomes s t k x) (f : Link → Link) :
    LinkBecomes s (updLink t k f) k (f x) := by
  obtain ⟨h1, h2, h3⟩ := h
  refine ⟨?_, fun j hj => (getLink_upd_other t f hj).trans (h2 j hj), (getLink_upd_self t k f).trans (congrArg f h3)⟩
  rw [h1]
  rfl

theorem linkBecomes_updLink (s : State) (k : Nat) (f : Link → Link) : LinkBecomes s (updLink s k f) k (f (getLink s k)) :=
  linkBecomes_upd (linkBecomes_refl s k) f

theorem getLink_congr (h : t.harbour.links = s.harbour.links) (k : Nat) : getLink t k = getLink s k := by
  unfold getLink
  rw [h]

/-! ## The failure of a link -/

/-- A link that has gone into link reset, with nothing left of what waited for it. -/
def Link.lost (l : Link) (at_ : Nat) : Link := { l with
  state := .linkReset
  since := at_
  synced := false
  again := false
  fails := 0
  badInRun := 0
  transitWait := []
  transitOwed := [0, 0, 0, 0]
  stamps := none }

/-- A link goes into link reset: the others stay, and the event names it. -/
theorem linkResets_row (s : State) (k : Nat) : getLink (linkLost (linkDown s k .linkReset 0) k) k = (getLink s k).lost (now s) ∧
    (∀ j, j ≠ k → getLink (linkLost (linkDown s k .linkReset 0) k) j = getLink s j) ∧
    ∃ e ∈ (linkLost (linkDown s k .linkReset 0) k).faults.unlogged, e.code = 0x0107 ∧ e.unit = k := by
  have hdown : ∀ j, getLink (linkDown s k .linkReset 0) j =
      getLink (updLink s k (fun l => { l with state := .linkReset, since := now s, synced := false })) j := fun _ => rfl
  have hlost : ∀ (u : State) (f : Link → Link) r j, getLink (endRelayed (delayLink (updLink u k f) k) r) j =
      getLink (updLink u k f) j := fun u f r j => getLink_congr (by rw [endRelayed_harbour]; rfl) j
  obtain ⟨e, he, hcode, -, hunit, -⟩ := raise_unlogged
    (s := updLink s k (fun l => { l with state := .linkReset, since := now s, synced := false }))
    { code := 0x0107, outcome := 0, site := quaySite (k / 3), unit := k, arg := (getLink s k).lanes }
  refine ⟨?_, fun j hj => ?_, e, ?_, hcode, hunit⟩
  · rw [linkLost, hlost, getLink_upd_self, hdown, getLink_upd_self]
    rfl
  · rw [linkLost, hlost, getLink_upd_other _ _ hj, hdown, getLink_upd_other _ _ hj]
  · have hin : e ∈ (linkDown s k .linkReset 0).faults.unlogged := by
      rw [linkDown, he]
      simp
    unfold linkLost
    exact (membersStay_endRelayed _ _).event hin

/-- Only release instants of links changed, and no event that waits for the log is lost. -/
def ReleasesOnly (s t : State) : Prop :=
  (∀ j, ∃ a, getLink t j = { getLink s j with releaseAt := a }) ∧ s.faults.unlogged <+: t.faults.unlogged

theorem ReleasesOnly.refl (s : State) : ReleasesOnly s s := ⟨fun j => ⟨(getLink s j).releaseAt, rfl⟩, List.prefix_rfl⟩
theorem ReleasesOnly.trans (h : ReleasesOnly s t) (g : ReleasesOnly t u) : ReleasesOnly s u := by
  obtain ⟨h1, h2⟩ := h
  obtain ⟨g1, g2⟩ := g
  refine ⟨fun j => ?_, h2.trans g2⟩
  obtain ⟨a, ha⟩ := h1 j
  obtain ⟨b, hb⟩ := g1 j
  exact ⟨b, by rw [hb, ha]⟩

theorem RoutesMove.releasesOnly (h : RoutesMove s t) : ReleasesOnly s t := by
  obtain ⟨h, -⟩ := h
  exact ⟨fun j => ⟨(getLink s j).releaseAt, by rw [h]; rfl⟩, by rw [h]⟩

theorem releasesOnly_scheduleLinks (s : State) (l : List (Nat × Nat)) : ReleasesOnly s (scheduleLinks s l) := by
  unfold scheduleLinks
  refine ReleasesOnly.trans (t := nextFresh (sendAll s (releaseMsgs l (now s + 500000 + (Config.releaseSlack s.fresh).toNat))))
    (ReleasesOnly.refl s) ?_
  refine foldl_rel .refl .trans (fun t k => ⟨fun j => ?_, List.prefix_rfl⟩) _ _
  by_cases hj : j = k
  · subst hj
    rw [getLink_upd_self]
    split
    · exact ⟨_, rfl⟩
    · exact ⟨_, rfl⟩
  · rw [getLink_upd_other _ _ hj]
    exact ⟨_, rfl⟩

theorem releasesOnly_scheduleLink (s : State) (p q : Nat) : ReleasesOnly s (scheduleLink s p q) := by
  unfold scheduleLink
  split
  · exact releasesOnly_scheduleLinks s _
  · exact .refl s

theorem failLink_row (s : State) (k : Nat) :
    (∃ a, getLink (failLink s k) k = { (getLink s k).lost (now s) with releaseAt := a }) ∧
    ∃ e ∈ (failLink s k).faults.unlogged, e.code = 0x0107 ∧ e.unit = k := by
  obtain ⟨hk, -, e, he, hev⟩ := linkResets_row s k
  have hr : ReleasesOnly (linkLost (linkDown s k .linkReset 0) k) (failLink s k) :=
    (routesMove_movePairs _ _).releasesOnly.trans (releasesOnly_scheduleLink _ _ _)
  obtain ⟨hl, hf⟩ := hr
  obtain ⟨a, ha⟩ := hl k
  exact ⟨⟨a, by rw [ha, hk]⟩, e, hf.subset he, hev⟩

/-- A link that fails is in link reset, with its event. -/
theorem failLink_fails (s : State) (k : Nat) : (getLink (failLink s k) k).state = .linkReset ∧
    ∃ e ∈ (failLink s k).faults.unlogged, e.code = 0x0107 ∧ e.unit = k := by
  obtain ⟨⟨a, ha⟩, he⟩ := failLink_row s k
  exact ⟨by rw [ha]; rfl, he⟩

/-! ## Training -/

/-- The own word depends on what is configured, and on the wavelengths of the link. -/
theorem ownWord_congr {k : Nat} (hsec : t.sec = s.sec) (hm : t.harbour.members = s.harbour.members)
    (hp : t.harbour.pos = s.harbour.pos) (hi : t.ident = s.ident) (hin : (getLink t k).lanesIn = (getLink s k).lanesIn)
    (hout : (getLink t k).lanesOut = (getLink s k).lanesOut) : ownWord t k = ownWord s k := by
  unfold ownWord cfgCrc ownPos
  rw [hsec, hm, hp, hi, hin, hout]

/-- A link of which no wavelength has changed trains with the own word. -/
theorem linkBecomes_trains {k : Nat} {x : Link} (h : LinkBecomes s t k x) (hin : x.lanesIn = (getLink s k).lanesIn)
    (hout : x.lanesOut = (getLink s k).lanesOut) : LinkBecomes (send s (.training k (ownWord s k))) (startTraining t k) k
      { x with state := .training, since := now s } := by
  have hn : now t = now s := by
    obtain ⟨h1, -⟩ := h
    rw [h1]
    rfl
  obtain ⟨g1, g2, g3⟩ := linkBecomes_upd h (fun l => { l with state := .training, since := now t })
  have hw : ownWord (updLink t k (fun l => { l with state := .training, since := now t })) k = ownWord s k :=
    ownWord_congr (by rw [g1]) (by rw [g1]) (by rw [g1]) (by rw [g1]) (by rw [g3]; exact hin) (by rw [g3]; exact hout)
  unfold startTraining
  dsimp only
  rw [hw]
  refine ⟨?_, fun j hj => g2 j hj, ?_⟩
  · unfold send
    rw [g1]
  · exact g3.trans (by rw [hn])

theorem linkBecomes_retrains {k : Nat} {x : Link} (h : LinkBecomes s t k x) (hin : x.lanesIn = (getLink s k).lanesIn)
    (hout : x.lanesOut = (getLink s k).lanesOut) : LinkBecomes (send s (.training k (ownWord s k))) (retrain t k) k
      { x with state := .training, since := now s, retrains := x.retrains + 1 } :=
  linkBecomes_trains (linkBecomes_upd h (fun l => { l with retrains := l.retrains + 1 })) hin hout

theorem trainRefusal_eq_none {k : Nat} {w : TrainWord} : trainRefusal s k w = none ↔ w.check = Config.crc32 (trainBits w) ∧
    w.pos = partnerOf (ownPos s) k ∧ w.link = 23 - k ∧ w.members = s.harbour.members ∧ w.cfgCrc = cfgCrc s := by
  have hif : ∀ (p : Prop) [Decidable p] (n : Nat) (x : Option Nat), (if p then some n else x) = none ↔ ¬ p ∧ x = none :=
    fun p _ n x => by split <;> simp [*]
  simp only [trainRefusal, hif, ne_eq, Decidable.not_not, and_true]

theorem retrainFails_false {k : Nat} (h : (getLink s k).again = false ∨ (getLink s k).retrainFails = 0) :
    retrainFails s k = false := by
  unfold retrainFails
  rcases h with h | h <;> simp [h]

theorem retrainFails_true {k : Nat} (h : (getLink s k).again = true) (h1 : 1 ≤ (getLink s k).retrainFails) :
    retrainFails s k = true := by
  unfold retrainFails
  rw [h, decide_eq_true h1]
  rfl

/-- A link refused with a code. -/
def Link.refusedWith (l : Link) (code at_ : Nat) : Link := { l with
  state := .refused
  refusal := code
  since := at_
  retrainFails := l.retrainFails + 1 }

theorem refuseLink_refuses {k code : Nat} (h : (getLink s k).again = false ∨ (getLink s k).retrainFails = 0) :
    LinkBecomes s (updLink s k (fun l => l.refusedWith code (now s))) k ((getLink s k).refusedWith code (now s)) ∧
    Raises (updLink s k (fun l => l.refusedWith code (now s))) (refuseLink s k code)
      (fun e => e.code = 0x0106 ∧ e.unit = k ∧ e.arg = code) := by
  refine ⟨linkBecomes_updLink s k _, ?_⟩
  have he : refuseLink s k code = raise (updLink s k (fun l => l.refusedWith code (now s)))
      { code := 0x0106, site := quaySite (k / 3), unit := k, arg := code } := by
    unfold refuseLink
    rw [retrainFails_false h]
    rfl
  obtain ⟨e, hu, hcode, -, hunit, harg, -⟩ := raise_unlogged (s := updLink s k (fun l => l.refusedWith code (now s)))
    { code := 0x0106, site := quaySite (k / 3), unit := k, arg := code }
  rw [he]
  exact ⟨raise_frame _ _, e, hu, hcode, hunit, harg⟩

theorem refuseLink_fails {k code : Nat} (h : (getLink s k).again = true) (h1 : 1 ≤ (getLink s k).retrainFails) :
    refuseLink s k code = failLink (updLink s k (fun x => { x with retrainFails := 0 })) k := by
  unfold refuseLink
  rw [retrainFails_true h h1]
  rfl

/-! ## The training word -/

theorem trainingWord_not {k : Nat} {w : TrainWord} (h : (getLink s k).state ≠ .training) : trainingWord s k w = s := if_pos h

theorem trainingWord_refused {k code : Nat} {w : TrainWord} (h : (getLink s k).state = .training)
    (hr : trainRefusal s k w = some code) : trainingWord s k w = refuseLink (send s (.refuse k code)) k code := by
  unfold trainingWord
  rw [if_neg (not_not_intro h), hr]

theorem trainingWord_partner {k : Nat} {w : TrainWord} (h : (getLink s k).state = .training) (hr : trainRefusal s k w = none)
    (hw : w.refused ≠ 0) : trainingWord s k w = refuseLink s k w.refused := by
  unfold trainingWord
  rw [if_neg (not_not_intro h), hr]
  exact if_pos hw

/-- A link that has taken the wavelengths of a word. -/
def takesLanes (s : State) (k : Nat) (w : TrainWord) : State :=
  updLink s k (fun l => { l with lanes := bothLanes w, lanesIn := w.lanes, lanesOut := w.lanesBack })

theorem trainingWord_passes {k : Nat} {w : TrainWord} (h : (getLink s k).state = .training) (hr : trainRefusal s k w = none)
    (hw : w.refused = 0) : trainingWord s k w =
      if bothLanes w < 16 then failLink (takesLanes s k w) k else linkUp (takesLanes s k w) k w := by
  unfold trainingWord
  rw [if_neg (not_not_intro h), hr]
  exact if_neg (not_not_intro hw)

/-- A link that is up with the wavelengths of a word. -/
def Link.upWith (l : Link) (n at_ : Nat) : Link := { l with
  state := .up
  lanes := min 32 n
  spares := n - 32
  refusal := 0
  since := at_
  lastFrame := at_
  retrainFails := 0
  fails := 0
  badInRun := 0
  again := false
  synced := true }

/-- A link up, and its partner's PART learned. -/
def upLink (s : State) (k : Nat) (w : TrainWord) : State :=
  updMember (updLink s k (fun l => l.upWith (bothLanes w) (now s))) w.pos (fun m => { m with part := w.part })

/-- The event about a link that comes up with fewer wavelengths than a stripe has. -/
def fewLanes (k n : Nat) : FaultEv := { code := 0x0107, outcome := 2, site := quaySite (k / 3), unit := k, arg := n }

theorem linkUp_eq (s : State) (k : Nat) (w : TrainWord) :
    linkUp s k w = if bothLanes w < 32 then raise (upLink s k w) (fewLanes k (bothLanes w)) else upLink s k w := rfl

theorem upLink_row (s : State) (k : Nat) (w : TrainWord) :
    getLink (upLink s k w) k = (getLink s k).upWith (bothLanes w) (now s) ∧
    (∀ j, j ≠ k → getLink (upLink s k w) j = getLink s j) ∧
    getMember (upLink s k w) w.pos = { getMember s w.pos with part := w.part } :=
  ⟨getLink_upd_self s k (fun l => l.upWith (bothLanes w) (now s)),
    fun _ hj => getLink_upd_other s (fun l => l.upWith (bothLanes w) (now s)) hj, getMember_upd_self _ w.pos _⟩

/-- A raised event leaves links and members. -/
theorem getLink_raise (s : State) (e : FaultEv) (k : Nat) : getLink (raise s e) k = getLink s k := rfl
theorem getMember_raise (s : State) (e : FaultEv) (p : Nat) : getMember (raise s e) p = getMember s p := rfl

theorem linkUp_row (s : State) (k : Nat) (w : TrainWord) :
    getLink (linkUp s k w) k = (getLink s k).upWith (bothLanes w) (now s) ∧
    (∀ j, j ≠ k → getLink (linkUp s k w) j = getLink s j) ∧
    getMember (linkUp s k w) w.pos = { getMember s w.pos with part := w.part } ∧
    (32 ≤ bothLanes w → (linkUp s k w).faults = s.faults) ∧
    (bothLanes w < 32 → ∃ e, (linkUp s k w).faults.unlogged = s.faults.unlogged ++ [e] ∧ e.code = 0x0107 ∧
      e.arg = bothLanes w) := by
  obtain ⟨h1, h2, h3⟩ := upLink_row s k w
  rw [linkUp_eq]
  split
  · next hn =>
    obtain ⟨e, hu, hcode, -, -, harg, -⟩ := raise_unlogged (s := upLink s k w) (fewLanes k (bothLanes w))
    refine ⟨h1, h2, h3, fun h => by omega, fun _ => ⟨e, hu, hcode, harg⟩⟩
  · next hn => exact ⟨h1, h2, h3, fun _ => rfl, fun h => absurd h hn⟩

theorem trainingWord_up {k : Nat} {w : TrainWord} (h : (getLink s k).state = .training) (hr : trainRefusal s k w = none)
    (hw : w.refused = 0) (hn : 16 ≤ bothLanes w) : ∃ t, t = trainingWord s k w ∧ (getLink t k).state = .up ∧
      (getLink t k).lanes = min 32 (bothLanes w) ∧ (getLink t k).lanesIn = w.lanes ∧ (getLink t k).lanesOut = w.lanesBack ∧
      (getLink t k).since = now s ∧ getMember t w.pos = { getMember s w.pos with part := w.part } ∧ t.mem = s.mem ∧
      (∀ j, j ≠ k → getLink t j = getLink s j) ∧ (32 ≤ bothLanes w → t.faults = s.faults) ∧
      (bothLanes w < 32 → ∃ e, t.faults.unlogged = s.faults.unlogged ++ [e] ∧ e.code = 0x0107 ∧ e.arg = bothLanes w) := by
  obtain ⟨h1, h2, h3, h4, h5⟩ := linkUp_row (takesLanes s k w) k w
  have hk : getLink (takesLanes s k w) k =
      { getLink s k with lanes := bothLanes w, lanesIn := w.lanes, lanesOut := w.lanesBack } := getLink_upd_self s k _
  rw [hk] at h1
  refine ⟨_, rfl, ?_⟩
  rw [trainingWord_passes h hr hw, if_neg (by omega), h1]
  refine ⟨rfl, rfl, rfl, rfl, rfl, h3, ?_, fun j hj => (h2 j hj).trans (getLink_upd_other s _ hj), h4, h5⟩
  rw [mem_linkUp]
  rfl

end Sys2Proof.Machine
end

section
/-! SUPPORT. The frames, the reset and the reroute of links (O56): what a link that hears nothing becomes, what a frame
counts, and what a change of route writes. -/

namespace Sys2Proof.Machine

variable {s t u : State}

/-! ## A link without frames -/

theorem linkRetrainTimer_row {k : Nat} (hk : hasLink k = true) (h : (getLink s k).state = .refused)
    (hn : (getLink s k).since + 1000000000 ≤ now s) : ∃ t, exec (.linkRetrainTimer k) s = .next t ∧
      LinkBecomes (send s (.training k (ownWord s k))) t k { getLink s k with
        state := .training
        since := now s
        retrains := (getLink s k).retrains + 1 } :=
  ⟨retrain s k, guarded_next.mpr ⟨hk, if_pos ⟨h, hn⟩⟩, linkBecomes_retrains (linkBecomes_refl s k) rfl rfl⟩

theorem linkNoFrame_up {k : Nat} (h : (getLink s k).state = .up) : linkNoFrame s k =
    if (getLink s k).lastFrame + 100000 ≤ now s then failLink s k else s := by
  unfold linkNoFrame
  dsimp only
  rw [h]

theorem linkNoFrame_again {k : Nat} (h : (getLink s k).state = .training) (ha : (getLink s k).again = true) : linkNoFrame s k =
    if now s < (getLink s k).since + 200000 then s
    else if retrainFails s k then failLink (updLink s k (fun x => { x with retrainFails := 0 })) k
    else retrain (updLink s k (fun x => { x with retrainFails := x.retrainFails + 1 })) k := by
  unfold linkNoFrame
  dsimp only
  rw [h]
  exact if_pos ha

theorem linkNoFrame_first {k : Nat} (h : (getLink s k).state = .training) (ha : (getLink s k).again = false) : linkNoFrame s k =
    if (getLink s k).since + 5000000 ≤ now s then nextFirst (failLink s k) k else s := by
  unfold linkNoFrame
  dsimp only
  rw [h]
  exact if_neg (by rw [ha]; exact Bool.false_ne_true)

theorem linkNoFrame_not {k : Nat} (h : (getLink s k).state ≠ .up) (h1 : (getLink s k).state ≠ .training) :
    linkNoFrame s k = s := by
  unfold linkNoFrame
  dsimp only
  cases hl : (getLink s k).state <;> simp_all

theorem startTraining_faults (s : State) (k : Nat) : (startTraining s k).faults = s.faults := rfl

theorem nextFirst_faults (s : State) (k : Nat) : (nextFirst s k).faults = s.faults := by
  unfold nextFirst
  dsimp only
  split
  · split
    · exact startTraining_faults _ _
    · rfl
  · rfl

/-! ## Release and entry -/

/-- A link that its end releases, and the return that has ended with the first lock. -/
def releasedLink (s : State) (k : Nat) : State :=
  let t := updLink (blockReset s (· == linkBlock k)) k (fun x => { x with releaseAt := none })
  { t with harbour := { t.harbour with rejoining := t.harbour.rejoining && !t.tide.firstLock } }

theorem linkRelease_eq (s : State) (k : Nat) : linkRelease s k =
    if (getLink s k).state = .linkReset ∧
      (decide (harbourSize s ≤ 4) || (!s.harbour.noMaster && instantCome s (getLink s k).releaseAt)) = true then
      startTraining (releasedLink s k) k
    else s := rfl

theorem linkRelease_not {k : Nat} (h : (getLink s k).state ≠ .linkReset ∨ (4 < harbourSize s ∧
    (s.harbour.noMaster = true ∨ instantCome s (getLink s k).releaseAt = false))) : linkRelease s k = s := by
  rw [linkRelease_eq]
  refine if_neg (fun hc => ?_)
  obtain ⟨h1, h2⟩ := hc
  rcases h with h | ⟨hn, h⟩
  · exact h h1
  · rw [decide_eq_false (by omega), Bool.false_or, Bool.and_eq_true, Bool.not_eq_true'] at h2
    obtain ⟨g1, g2⟩ := h2
    rcases h with h | h
    · exact Bool.false_ne_true (g1.symm.trans h)
    · exact Bool.false_ne_true (h.symm.trans g2)

theorem releasedLink_row (s : State) (k : Nat) : getLink (releasedLink s k) k = { getLink s k with releaseAt := none } ∧
    (∀ j, j ≠ k → getLink (releasedLink s k) j = getLink s j) ∧ now (releasedLink s k) = now s :=
  ⟨getLink_upd_self s k (fun x => { x with releaseAt := none }),
    fun _ hj => getLink_upd_other s (fun x => { x with releaseAt := none }) hj, rfl⟩

theorem releasedLink_frame (s : State) (k : Nat) : releasedLink s k = { s with
    harbour := { s.harbour with
      links := (releasedLink s k).harbour.links
      rejoining := s.harbour.rejoining && !s.tide.firstLock }
    crossings := (releasedLink s k).crossings
    tide := { s.tide with stoppedGens := (releasedLink s k).tide.stoppedGens } } := rfl

theorem linkRelease_row {k : Nat} (h : (getLink s k).state = .linkReset) (hm : harbourSize s ≤ 4 ∨
    (s.harbour.noMaster = false ∧ instantCome s (getLink s k).releaseAt = true)) : ∃ t, t = linkRelease s k ∧
      t.harbour.rejoining = (s.harbour.rejoining && !s.tide.firstLock) ∧
      getLink t k = { getLink s k with state := .training, releaseAt := none, since := now s } ∧
      (∀ j, j ≠ k → getLink t j = getLink s j) ∧ t.sent = s.sent ++ [.training k (ownWord s k)] ∧
      t.tide.count = s.tide.count ∧ t = { s with
        harbour := { s.harbour with links := t.harbour.links, rejoining := t.harbour.rejoining }
        sent := t.sent
        crossings := t.crossings
        tide := t.tide } := by
  obtain ⟨r1, r2, r3⟩ := releasedLink_row s k
  have hf := releasedLink_frame s k
  have hw : ownWord (releasedLink s k) k = ownWord s k :=
    ownWord_congr rfl rfl rfl rfl (by rw [r1]) (by rw [r1])
  obtain ⟨g1, g2, g3⟩ := linkBecomes_trains (linkBecomes_refl (releasedLink s k) k) rfl rfl
  rw [hw] at g1 g2
  have he : linkRelease s k = startTraining (releasedLink s k) k := by
    rw [linkRelease_eq]
    refine if_pos ⟨h, ?_⟩
    rcases hm with hm | ⟨hm, hi⟩
    · simp [hm]
    · simp [hm, hi]
  refine ⟨_, he.symm, ?_⟩
  rw [g3, r1, r3]
  refine ⟨?_, rfl, fun j hj => (g2 j hj).trans (r2 j hj), ?_, ?_, ?_⟩
  · rw [g1, send_harbour, hf]
  · rw [g1, send_frame, hf]
  · rw [g1, send_tide, hf]
  · rw [g1, send_frame, hf]

theorem linkEntry_reset {k : Nat} (h : ownReset s = true) : linkEntry s k = moduleReset s 5 := if_pos h

theorem linkEntry_eq {k : Nat} (h : ownReset s = false) : linkEntry s k =
    if (getLink s k).state ≠ .disabled ∧ instantCome s (getLink s k).entryAt = true then
      linkLost (linkDown (updLink s k (fun l => { l with entryAt := none })) k .linkReset 0) k
    else s := by
  unfold linkEntry
  rw [h]
  rfl

theorem linkEntry_row {k : Nat} (h : ownReset s = false) (hd : (getLink s k).state ≠ .disabled)
    (hi : instantCome s (getLink s k).entryAt = true) : (linkEntry s k).mem = s.mem ∧
      (∀ j, j ≠ k → getLink (linkEntry s k) j = getLink s j) ∧
      getLink (linkEntry s k) k = { (getLink s k).lost (now s) with entryAt := none } ∧
      ∃ e ∈ (linkEntry s k).faults.unlogged, e.code = 0x0107 ∧ e.unit = k := by
  obtain ⟨h1, h2, h3⟩ := linkResets_row (updLink s k (fun l => { l with entryAt := none })) k
  rw [linkEntry_eq h, if_pos ⟨hd, hi⟩]
  refine ⟨by simp, fun j hj => (h2 j hj).trans (getLink_upd_other s _ hj), ?_, h3⟩
  rw [h1, getLink_upd_self]
  rfl

/-! ## Frames -/

/-- A link that has received a frame that decodes. -/
def Link.received (l : Link) (o : LinkFrameObs) (at_ : Nat) : Link := { l.codeword false with
  lastFrame := at_
  fails := 0
  markers := l.markers + bit o.marker
  transitOwed := unitsMinus l.transitOwed o.credits }

theorem linkFrame_not {k : Nat} {o : LinkFrameObs} (h : (getLink s k).state ≠ .up) : linkFrame s k o = s := if_pos h

theorem linkFrame_good {k : Nat} {o : LinkFrameObs} (h : (getLink s k).state = .up) (ho : o.decodes = true) :
    linkFrame s k o = goodFrame s k o := by
  unfold linkFrame
  rw [if_neg (not_not_intro h), if_pos ho]

theorem linkFrame_bad {k : Nat} {o : LinkFrameObs} (h : (getLink s k).state = .up) (ho : o.decodes = false) :
    linkFrame s k o = badFrame s k := by
  unfold linkFrame
  rw [if_neg (not_not_intro h), ho]
  rfl

/-- Transit goes on over nothing that waits. -/
theorem transitDrain_nil {k : Nat} (h : (getLink s k).transitWait = []) (n : Nat) : transitDrain s k n = s := by
  cases n with
  | zero => rfl
  | succ n => rw [transitDrain, h]

/-- The state of a link on which a good frame has come. -/
def frameIn (s : State) (k : Nat) (o : LinkFrameObs) : State := updLink s k (fun l => l.received o (now s))

theorem goodFrame_eq {k : Nat} {o : LinkFrameObs} (hw : (getLink s k).transitWait = []) : goodFrame s k o =
    if o.idle then updLink (frameIn s k o) k (fun l => { l with
      idleDeleted := l.idleDeleted + bit (o.aboveHalf && !o.marker)
      trimTemp := l.trimWait.getD l.trimTemp
      trimWait := none })
    else if o.transit then
      if relaysHere s k o.transitTo then transitFrame (frameIn s k o) k o.transitTo o else frameIn s k o
    else updLink (frameIn s k o) k (fun l => { l with own := l.own + 1 }) := by
  have hd : transitDrain (frameIn s k o) k ((getLink (frameIn s k o) k).transitWait.length) = frameIn s k o :=
    transitDrain_nil (by rw [frameIn, getLink_upd_self]; exact hw) _
  have he : goodFrame s k o = if o.idle then
      updLink (transitDrain (frameIn s k o) k ((getLink (frameIn s k o) k).transitWait.length)) k (fun l => { l with
        idleDeleted := l.idleDeleted + bit (o.aboveHalf && !o.marker)
        trimTemp := l.trimWait.getD l.trimTemp
        trimWait := none })
      else if o.transit then
        if relaysHere s k o.transitTo then
          transitFrame (transitDrain (frameIn s k o) k ((getLink (frameIn s k o) k).transitWait.length)) k o.transitTo o
        else transitDrain (frameIn s k o) k ((getLink (frameIn s k o) k).transitWait.length)
      else updLink (transitDrain (frameIn s k o) k ((getLink (frameIn s k o) k).transitWait.length)) k
        (fun l => { l with own := l.own + 1 }) := rfl
  rw [he, hd]

theorem linkBecomes_frameIn (s : State) (k : Nat) (o : LinkFrameObs) :
    LinkBecomes s (frameIn s k o) k ((getLink s k).received o (now s)) := linkBecomes_updLink s k _

/-! ### Transit -/

/-- Links differ in what they have sent alone. -/
def SentOnly (s t : State) : Prop :=
  (∀ j, ∃ a b, getLink t j = { getLink s j with framesSent := a, idleSent := b }) ∧ s.sent <+: t.sent

theorem SentOnly.refl (s : State) : SentOnly s s := ⟨fun _ => ⟨_, _, rfl⟩, List.prefix_rfl⟩
theorem SentOnly.trans (h : SentOnly s t) (g : SentOnly t u) : SentOnly s u := by
  obtain ⟨h1, h2⟩ := h
  obtain ⟨g1, g2⟩ := g
  refine ⟨fun j => ?_, h2.trans g2⟩
  obtain ⟨a, b, hj⟩ := h1 j
  obtain ⟨c, d, gj⟩ := g1 j
  exact ⟨c, d, by rw [gj, hj]⟩

theorem sentOnly_linkSend (s : State) (k : Nat) (m : OutMsg) : SentOnly s (linkSend s k m) := by
  refine ⟨fun j => ?_, List.prefix_append _ _⟩
  by_cases hj : j = k
  · subst hj
    exact ⟨_, _, getLink_upd_self s j _⟩
  · exact ⟨_, _, getLink_upd_other s _ hj⟩

theorem guaranteeBroken_frame (s : State) (c : Cmd) (g : Nat) : (guaranteeBroken s c g).harbour = s.harbour ∧
    (guaranteeBroken s c g).sent = s.sent := by
  unfold guaranteeBroken
  split <;> exact ⟨rfl, rfl⟩

theorem squeeze_frame (s : State) (k n : Nat) : (squeeze s k n).harbour = s.harbour ∧ (squeeze s k n).sent = s.sent := by
  unfold squeeze
  dsimp only
  split
  · refine foldl_rel (R := fun a b => b.harbour = a.harbour ∧ b.sent = a.sent) (fun _ => ⟨rfl, rfl⟩)
      (fun h g => ⟨g.1.trans h.1, g.2.trans h.2⟩) (fun t id => ?_) _ s
    split
    · exact guaranteeBroken_frame t _ 5
    · exact ⟨rfl, rfl⟩
  · exact ⟨rfl, rfl⟩

theorem sentOnly_squeeze (s : State) (k n : Nat) (p : Bool) : SentOnly s (if p then squeeze s k n else s) := by
  split
  · obtain ⟨h1, h2⟩ := squeeze_frame s k n
    exact ⟨fun j => ⟨_, _, getLink_congr (by rw [h1]) j⟩, by rw [h2]⟩
  · exact .refl s

/-- The transit frame of a link is counted there and waits at the other. -/
def transitIn (s : State) (k j : Nat) (o : LinkFrameObs) : State :=
  updLink (updLink s k (fun l => { l with transit := l.transit + 1 })) j (fun l =>
    { l with transitWait := l.transitWait ++ [(k, o.units)], own := l.own + bit o.ownWaits })

theorem transitFrame_eq (s : State) (k j : Nat) (o : LinkFrameObs) : transitFrame s k j o =
    if o.ownWaits then
      squeeze (transitDrain (transitIn s k j o) j ((getLink (transitIn s k j o) j).transitWait.length)) j o.flows
    else transitDrain (transitIn s k j o) j ((getLink (transitIn s k j o) j).transitWait.length) := rfl

theorem getLink_transitIn_in {k j : Nat} (h : j ≠ k) (o : LinkFrameObs) :
    getLink (transitIn s k j o) k = { getLink s k with transit := (getLink s k).transit + 1 } := by
  rw [transitIn, getLink_upd_other _ _ (Ne.symm h), getLink_upd_self]

theorem getLink_transitIn_out {k j : Nat} (h : j ≠ k) (hw : (getLink s j).transitWait = []) (o : LinkFrameObs) :
    getLink (transitIn s k j o) j =
      { getLink s j with transitWait := [(k, o.units)], own := (getLink s j).own + bit o.ownWaits } := by
  rw [transitIn, getLink_upd_self, getLink_upd_other _ _ h, hw]
  rfl

theorem transitFits_congr {l m : Link} (h : l.transitOwed = m.transitOwed)
    (x : List Nat) : transitFits l x = transitFits m x := by
  unfold transitFits
  rw [h]

/-- One frame that waits leaves when it fits, and stays when it does not. -/
theorem transitDrain_one {j : Nat} {e : Nat × List Nat} (h : (getLink s j).transitWait = [e]) : transitDrain s j 1 =
    if transitFits (getLink s j) e.2 then transitOut (updLink s j (fun l => { l with transitWait := [] })) j e else s := by
  rw [transitDrain, h]
  rfl

theorem transitOut_row (s : State) (j : Nat) (e : Nat × List Nat) :
    SentOnly (updLink s j (fun l => { l with transit := l.transit + 1, transitOwed := unitsPlus l.transitOwed e.2 }))
      (transitOut s j e) ∧ .transit j e.2 ∈ (transitOut s j e).sent ∧ .credits e.1 e.2 ∈ (transitOut s j e).sent := by
  unfold transitOut
  dsimp only
  refine ⟨(sentOnly_linkSend _ _ _).trans (sentOnly_linkSend _ _ _), ?_, ?_⟩
  · exact List.mem_append_left _ (List.mem_append_right _ (List.mem_singleton_self _))
  · exact List.mem_append_right _ (List.mem_singleton_self _)

/-- A transit frame of link k that leaves by j, where none waited: it is counted, and leaves or waits. -/
theorem transitFrame_row {k j : Nat} {o : LinkFrameObs} (hj : j ≠ k) (hw : (getLink s j).transitWait = []) :
    (getLink (transitFrame s k j o) k).transit = (getLink s k).transit + 1 ∧
    (getLink (transitFrame s k j o) k).own = (getLink s k).own ∧
    (getLink (transitFrame s k j o) j).own = (getLink s j).own + bit o.ownWaits ∧
    (transitFits (getLink s j) o.units = true → (getLink (transitFrame s k j o) j).transit = (getLink s j).transit + 1 ∧
      (getLink (transitFrame s k j o) j).transitWait = [] ∧ .transit j o.units ∈ (transitFrame s k j o).sent ∧
      .credits k o.units ∈ (transitFrame s k j o).sent) ∧
    (transitFits (getLink s j) o.units = false → (getLink (transitFrame s k j o) j).transit = (getLink s j).transit ∧
      (getLink (transitFrame s k j o) j).transitWait = [(k, o.units)]) := by
  have hin := getLink_transitIn_in (s := s) hj o
  have hout := getLink_transitIn_out (s := s) hj hw o
  have hlen : (getLink (transitIn s k j o) j).transitWait = [(k, o.units)] := by rw [hout]
  have hfits : transitFits (getLink (transitIn s k j o) j) o.units = transitFits (getLink s j) o.units :=
    transitFits_congr (by rw [hout]) _
  rw [transitFrame_eq, hlen, List.length_singleton, transitDrain_one hlen, hfits]
  cases transitFits (getLink s j) o.units with
  | true =>
    rw [if_pos rfl]
    obtain ⟨h1, h2, h3⟩ := transitOut_row (updLink (transitIn s k j o) j (fun l => { l with transitWait := [] })) j (k, o.units)
    obtain ⟨g1, g2⟩ := h1.trans (sentOnly_squeeze _ j o.flows o.ownWaits)
    obtain ⟨h4, h5⟩ := sentOnly_squeeze
      (transitOut (updLink (transitIn s k j o) j (fun l => { l with transitWait := [] })) j (k, o.units)) j o.flows o.ownWaits
    obtain ⟨a, b, gk⟩ := g1 k
    obtain ⟨c, d, gj⟩ := g1 j
    rw [getLink_upd_other _ _ (Ne.symm hj), getLink_upd_other _ _ (Ne.symm hj), hin] at gk
    rw [getLink_upd_self, getLink_upd_self, hout] at gj
    rw [gk, gj]
    exact ⟨rfl, rfl, rfl, fun _ => ⟨rfl, rfl, h5.subset h2, h5.subset h3⟩, fun h => Bool.noConfusion h⟩
  | false =>
    rw [if_neg Bool.false_ne_true]
    obtain ⟨g1, -⟩ := sentOnly_squeeze (transitIn s k j o) j o.flows o.ownWaits
    obtain ⟨a, b, gk⟩ := g1 k
    obtain ⟨c, d, gj⟩ := g1 j
    rw [hin] at gk
    rw [hout] at gj
    rw [gk, gj]
    exact ⟨rfl, rfl, rfl, fun h => Bool.noConfusion h, fun _ => ⟨rfl, rfl⟩⟩

/-! ### A frame that does not decode -/

/-- The state of a link on which a bad frame has come, before what it leads to. -/
def frameBad (s : State) (k : Nat) : State := delayLink (updLink s k (fun l => { l.codeword true with fails := l.fails + 1 })) k

theorem getLink_frameBad (s : State) (k : Nat) :
    getLink (frameBad s k) k = { (getLink s k).codeword true with fails := (getLink s k).fails + 1 } :=
  getLink_upd_self s k (fun l => { l.codeword true with fails := l.fails + 1 })

theorem badFrame_eq (s : State) (k : Nat) : badFrame s k =
    if 2 ≤ (getLink (frameBad s k) k).badInRun then failLink (frameBad s k) k
    else if 16 ≤ (getLink (frameBad s k) k).fails then
      retrain (updLink (frameBad s k) k (fun x => { x with again := true, fails := 0, retrainFails := 0 })) k
    else frameBad s k := rfl

theorem badFrame_row {k : Nat} (h : (getLink s k).state = .up) :
    (getLink (badFrame s k) k).uncorrectable = (getLink s k).uncorrectable + 1 ∧
    ((getLink s k).codewords % 1000000000 ≠ 0 → 1 ≤ (getLink s k).badInRun → (getLink (badFrame s k) k).state = .linkReset) ∧
    ((getLink s k).codewords % 1000000000 = 0 ∨ (getLink s k).badInRun = 0 →
      (15 ≤ (getLink s k).fails → (getLink (badFrame s k) k).state = .training ∧
        (getLink (badFrame s k) k).retrains = (getLink s k).retrains + 1) ∧
      ((getLink s k).fails < 15 → (getLink (badFrame s k) k).state = .up ∧
        (getLink (badFrame s k) k).fails = (getLink s k).fails + 1)) := by
  have hb := getLink_frameBad s k
  have hrun : (getLink (frameBad s k) k).badInRun =
      (if (getLink s k).codewords % 1000000000 = 0 then 0 else (getLink s k).badInRun) + 1 := by rw [hb]; rfl
  have hfails : (getLink (frameBad s k) k).fails = (getLink s k).fails + 1 := by rw [hb]
  have hun : (getLink (frameBad s k) k).uncorrectable = (getLink s k).uncorrectable + 1 := by rw [hb]; rfl
  rw [badFrame_eq, hfails]
  by_cases hn : 2 ≤ (getLink (frameBad s k) k).badInRun
  · obtain ⟨⟨a, ha⟩, -⟩ := failLink_row (frameBad s k) k
    rw [if_pos hn, ha]
    rw [hrun] at hn
    refine ⟨hun, fun _ _ => rfl, fun hc => absurd hn ?_⟩
    rcases hc with hc | hc
    · rw [if_pos hc]; decide
    · rw [hc, ite_self]; decide
  · rw [if_neg hn]
    rw [hrun] at hn
    have hno : (getLink s k).codewords % 1000000000 ≠ 0 → ¬ 1 ≤ (getLink s k).badInRun := fun h0 h1 => by
      rw [if_neg h0] at hn
      omega
    by_cases hf : 16 ≤ (getLink s k).fails + 1
    · obtain ⟨-, -, hr⟩ := linkBecomes_retrains (linkBecomes_updLink (frameBad s k) k
        (fun x => { x with again := true, fails := 0, retrainFails := 0 })) rfl rfl
      rw [if_pos hf, hr]
      refine ⟨hun, fun h0 h1 => absurd h1 (hno h0), fun _ => ⟨fun _ => ⟨rfl, ?_⟩, fun hlt => by omega⟩⟩
      show (getLink (frameBad s k) k).retrains + 1 = _
      rw [hb]
      rfl
    · rw [if_neg hf]
      refine ⟨hun, fun h0 h1 => absurd h1 (hno h0), fun _ => ⟨fun h15 => by omega, fun _ => ⟨?_, hfails⟩⟩⟩
      rw [hb]
      exact h

/-! ## Changes of route -/

theorem beginDrain_row (s : State) (p q : Nat) (r : Route2) : (p, q, r) ∈ (beginDrain s p q r).harbour.drains ∧
    beginDrain s p q r = { s with
      harbour := { s.harbour with drains := (beginDrain s p q r).harbour.drains }
      sent := if isMaster s = true then s.sent ++ [.drain p q r] else s.sent } := by
  have hm : ∀ l, isMaster { s with harbour := { s.harbour with drains := l } } = isMaster s := fun _ => rfl
  unfold beginDrain
  dsimp only
  rw [hm]
  cases isMaster s with
  | true => exact ⟨List.mem_append_right _ (List.mem_singleton_self _), rfl⟩
  | false => exact ⟨List.mem_append_right _ (List.mem_singleton_self _), rfl⟩

/-- The release of a link that is scheduled changes links, messages and the free values alone. -/
theorem scheduleLink_frame (s : State) (p q : Nat) : scheduleLink s p q = { s with
    harbour := { s.harbour with links := (scheduleLink s p q).harbour.links }
    sent := (scheduleLink s p q).sent
    fresh := (scheduleLink s p q).fresh } ∧ s.sent <+: (scheduleLink s p q).sent := by
  unfold scheduleLink
  split
  · obtain ⟨a, -, hl⟩ := scheduleLinks_row s [(p, q)]
    unfold LinksOnly at hl
    rw [hl]
    exact ⟨rfl, List.prefix_append _ _⟩
  · exact ⟨rfl, List.prefix_rfl⟩

theorem mustMove_relay {p r : Nat} {m : MoveSeen} (h : getRoute s p m.q = .relay r) : mustMove s p m =
    if isMaster s then relayLost s p m.q r else decide (m.relay ≠ some r) := by
  unfold mustMove
  rw [h]

/-- A pair whose route has to change. -/
def RouteMoves (s : State) (p : Nat) (m : MoveSeen) : Prop :=
  isPair s p m.q = true ∧ s.harbour.noMaster = false ∧ mustMove s p m = true

theorem relayRoute_eq {p : Nat} {m : MoveSeen} (h : RouteMoves s p m) : relayRoute s p m =
    if isMaster s then scheduleLink (moveToRelay s p m.q) p m.q else beginDrain s p m.q (viaRelay m.relay) := by
  obtain ⟨h1, h2, h3⟩ := h
  unfold relayRoute
  rw [if_pos (by rw [h1, h2, h3]; rfl)]

theorem relayRoute_not {p : Nat} {m : MoveSeen}
    (h : isPair s p m.q = false ∨ s.harbour.noMaster = true ∨ mustMove s p m = false) :
    relayRoute s p m = s := by
  refine if_neg (fun hc => ?_)
  simp only [Bool.and_eq_true, Bool.not_eq_true'] at hc
  obtain ⟨⟨h1, h2⟩, h3⟩ := hc
  rcases h with h | h | h
  · exact Bool.false_ne_true (h.symm.trans h1)
  · exact Bool.false_ne_true (h2.symm.trans h)
  · exact Bool.false_ne_true (h.symm.trans h3)

theorem relayRoute_row {p : Nat} {m : MoveSeen} (h : RouteMoves s p m) : ∃ t, t = relayRoute s p m ∧
    t = { s with harbour := t.harbour, sent := t.sent, fresh := t.fresh } ∧ t.harbour.routes = s.harbour.routes ∧
    (isMaster s = true → (p, m.q, viaRelay (chooseRelay s p m.q)) ∈ t.harbour.drains ∧
      .drain p m.q (viaRelay (chooseRelay s p m.q)) ∈ t.sent) ∧
    (isMaster s = false → (p, m.q, viaRelay m.relay) ∈ t.harbour.drains ∧ t.sent = s.sent) := by
  refine ⟨_, rfl, ?_⟩
  rw [relayRoute_eq h]
  cases hm : isMaster s with
  | true =>
    obtain ⟨b1, b2⟩ := beginDrain_row s p m.q (viaRelay (chooseRelay s p m.q))
    obtain ⟨c1, c2⟩ := scheduleLink_frame (beginDrain s p m.q (viaRelay (chooseRelay s p m.q))) p m.q
    rw [if_pos rfl]
    unfold moveToRelay
    have hin : .drain p m.q (viaRelay (chooseRelay s p m.q)) ∈ (beginDrain s p m.q (viaRelay (chooseRelay s p m.q))).sent := by
      rw [b2, if_pos hm]
      exact List.mem_append_right _ (List.mem_singleton_self _)
    refine ⟨?_, ?_, fun _ => ⟨?_, c2.subset hin⟩, fun hf => Bool.noConfusion hf⟩
    · rw [c1, b2]
    · rw [c1, b2]
    · rw [c1]
      exact b1
  | false =>
    obtain ⟨b1, b2⟩ := beginDrain_row s p m.q (viaRelay m.relay)
    rw [if_neg Bool.false_ne_true]
    refine ⟨?_, ?_, fun hf => Bool.noConfusion hf, fun _ => ⟨b1, ?_⟩⟩
    · rw [b2]
    · rw [b2]
    · rw [b2, if_neg (by rw [hm]; exact Bool.false_ne_true)]

theorem exec_routeReturnTimer_back {p q : Nat} (h1 : isPair s p q = true) (h2 : s.harbour.noMaster = false)
    (h3 : getRoute s p q ≠ .direct) (h4 : linkFor s p q true 10000000000 = true) :
    exec (.routeReturnTimer p q) s = .next (beginDrain s p q .direct) :=
  congrArg Host.Outcome.next (if_pos (by rw [h1, h2, h4, decide_eq_true h3]; rfl))

theorem exec_routeReturnTimer_not {p q : Nat} (h : isPair s p q = false ∨ s.harbour.noMaster = true ∨
    getRoute s p q = .direct ∨ linkFor s p q true 10000000000 = false) : exec (.routeReturnTimer p q) s = .next s := by
  refine congrArg Host.Outcome.next (if_neg (fun hc => ?_))
  simp only [Bool.and_eq_true, Bool.not_eq_true', decide_eq_true_eq] at hc
  obtain ⟨⟨⟨h1, h2⟩, h3⟩, h4⟩ := hc
  rcases h with h | h | h | h
  · exact Bool.false_ne_true (h.symm.trans h1)
  · exact Bool.false_ne_true (h2.symm.trans h)
  · exact h3 h
  · exact Bool.false_ne_true (h.symm.trans h4)

/-! ## The end of a drain -/

/-- The roles of the quays touch sites and messages alone. -/
theorem relayRoles_frame (s : State) : relayRoles s = { s with
    sites := (relayRoles s).sites
    sent := (relayRoles s).sent } := by
  unfold relayRoles
  refine foldl_rel (R := fun a b => b = { a with sites := b.sites, sent := b.sent }) (fun _ => rfl)
    (fun h g => by rw [g, h]) (fun t q => ?_) _ s
  dsimp only
  split
  · split <;> rfl
  · split <;> rfl

theorem routeDrainDone_none {p : Nat} {d : DrainSeen} (h : findDrain s p d.q = none) : routeDrainDone s p d = s := by
  unfold routeDrainDone
  rw [h]

theorem routeDrainDone_waits {p : Nat} {d : DrainSeen} {x : Nat × Nat × Route2} (h : findDrain s p d.q = some x)
    (hw : s.harbour.noMaster = true ∨ ownDrained s p d.q = false ∨ (isMaster s = true ∧ othersDrained s p d x.2.2 = false)) :
    routeDrainDone s p d = s := by
  unfold routeDrainDone
  rw [h]
  refine if_pos ?_
  rcases hw with hw | hw | ⟨h1, h2⟩
  · rw [hw]; rfl
  · rw [hw]; simp
  · rw [h1, h2]; simp

/-- The new route of a pair is written, its drain is over, and the requests it held go by it. -/
def routeWritten (s : State) (p q : Nat) (r : Route2) : State := { s with
  reqs := { s.reqs with
    out := mapIf (fun o => decide (otherEnd s p q = some o.dstPos)) (fun o => { o with delayed := true }) s.reqs.out }
  harbour := { s.harbour with
    routes := tabSet .direct s.harbour.routes (routeKey p q) r
    drains := s.harbour.drains.filter (fun y => !(y.1 == p && y.2.1 == q)) } }

theorem routeDrainDone_ends {p : Nat} {d : DrainSeen} {x : Nat × Nat × Route2} (h : findDrain s p d.q = some x)
    (hn : s.harbour.noMaster = false) (ho : ownDrained s p d.q = true)
    (hm : isMaster s = false ∨ othersDrained s p d x.2.2 = true) : routeDrainDone s p d =
      sendAll (relayRoles (routeWritten s p d.q x.2.2)) (drainReports s p d.q x.2.2) := by
  unfold routeDrainDone
  rw [h]
  refine if_neg (fun hc => ?_)
  rw [hn, ho] at hc
  rcases hm with hm | hm <;> simp [hm] at hc

theorem drainReports_end {p q : Nat} (r : Route2) (hm : isMaster s = false) (ho : ownPos s = p ∨ ownPos s = q) :
    drainReports s p q r = [.drained p q, .written p q] := by
  have hin : (drainEnds s p q r).contains (ownPos s) = true := by
    rw [List.contains_iff_mem, drainEnds, List.mem_eraseDups]
    rcases ho with ho | ho <;> simp [ho]
  unfold drainReports
  rw [hm, hin]
  rfl

theorem routeDrainDone_row {p : Nat} {d : DrainSeen} {x : Nat × Nat × Route2} (h : findDrain s p d.q = some x)
    (hn : s.harbour.noMaster = false) (ho : ownDrained s p d.q = true)
    (hm : isMaster s = false ∨ othersDrained s p d x.2.2 = true) : ∃ t, t = routeDrainDone s p d ∧
      getRoute t p d.q = x.2.2 ∧ t.mem = s.mem ∧ (∀ x ∈ t.harbour.drains, x.1 ≠ p ∨ x.2.1 ≠ d.q) ∧
      (isMaster s = false → ownPos s = p ∨ ownPos s = d.q → .drained p d.q ∈ t.sent ∧ .written p d.q ∈ t.sent) := by
  have hh : (routeDrainDone s p d).harbour = (routeWritten s p d.q x.2.2).harbour := by
    rw [routeDrainDone_ends h hn ho hm, sendAll_harbour, relayRoles_frame]
  refine ⟨_, rfl, ?_, by simp, fun y hy => ?_, fun hm' hp => ?_⟩
  · unfold getRoute
    rw [hh]
    exact (tabGet_set _ _ _ _ _).trans (if_pos rfl)
  · rw [hh] at hy
    obtain ⟨-, hy⟩ := List.mem_filter.mp hy
    by_contra hc
    rw [not_or, Decidable.not_not, Decidable.not_not] at hc
    simp [hc.1, hc.2] at hy
  · rw [routeDrainDone_ends h hn ho hm, drainReports_end _ hm' hp]
    exact ⟨List.mem_append_right _ (List.mem_cons_self ..), List.mem_append_right _ (by simp)⟩

theorem ownDrained_false {p q : Nat} {o : OutReq} (ho : o ∈ s.reqs.out) (hh : o.held = false)
    (he : otherEnd s p q = some o.dstPos) : ownDrained s p q = false := by
  have hany : s.reqs.out.any (fun o => decide (otherEnd s p q = some o.dstPos) && !o.held) = true :=
    List.any_eq_true.mpr ⟨o, ho, by rw [decide_eq_true he, hh]; rfl⟩
  unfold ownDrained
  rw [hany]
  rfl

/-! ## The rows of the statement -/

/-- What the statement says of a training word. -/
theorem trainingWord_row {k : Nat} (w : TrainWord) (hk : hasLink k = true) :
    (∀ code, (getLink s k).state = .training → trainRefusal s k w = some code →
      ((getLink s k).again = false ∨ (getLink s k).retrainFails = 0 → ∃ m t, exec (.trainingWord k w) s = .next t ∧
        LinkBecomes (send s (.refuse k code)) m k ((getLink s k).refusedWith code (now s)) ∧
        Raises m t (fun e => e.code = 0x0106 ∧ e.unit = k ∧ e.arg = code)) ∧
      ((getLink s k).again = true → 1 ≤ (getLink s k).retrainFails → ∃ t, exec (.trainingWord k w) s = .next t ∧
        (getLink t k).state = .linkReset ∧ ∃ e ∈ t.faults.unlogged, e.code = 0x0107 ∧ e.unit = k)) ∧
    ((getLink s k).state = .training → trainRefusal s k w = none → w.refused ≠ 0 →
      (getLink s k).again = false ∨ (getLink s k).retrainFails = 0 →
      ∃ t, exec (.trainingWord k w) s = .next t ∧ (getLink t k).state = .refused ∧ (getLink t k).refusal = w.refused ∧
        ∃ e, t.faults.unlogged = s.faults.unlogged ++ [e] ∧ e.code = 0x0106 ∧ e.arg = w.refused) := by
  have hexec : exec (.trainingWord k w) s = .next (trainingWord s k w) := guarded_next.mpr ⟨hk, rfl⟩
  refine ⟨fun code h hr => ⟨fun ha => ?_, fun ha h1 => ?_⟩, fun h hr hw ha => ?_⟩
  · obtain ⟨hl, hrs⟩ := refuseLink_refuses (s := send s (.refuse k code)) (code := code) ha
    exact ⟨_, _, hexec.trans (congrArg Host.Outcome.next (trainingWord_refused h hr)), hl, hrs⟩
  · refine ⟨_, hexec.trans (congrArg Host.Outcome.next (trainingWord_refused h hr)), ?_⟩
    rw [refuseLink_fails (s := send s (.refuse k code)) ha h1]
    exact failLink_fails _ k
  · obtain ⟨⟨-, -, hl⟩, hf, e, he, hcode, -, harg⟩ := refuseLink_refuses (s := s) (code := w.refused) ha
    have hrefused : getLink (refuseLink s k w.refused) k = (getLink s k).refusedWith w.refused (now s) := by
      rw [hf]
      exact hl
    refine ⟨_, hexec.trans (congrArg Host.Outcome.next (trainingWord_partner h hr hw)), ?_, ?_, e, he, hcode, harg⟩
    · rw [hrefused]
      rfl
    · rw [hrefused]
      rfl

theorem linkNoFrame_row {k : Nat} (hk : hasLink k = true) :
    ((getLink s k).state = .up → (getLink s k).lastFrame + 100000 ≤ now s → ∃ t, exec (.linkNoFrame k) s = .next t ∧
      (getLink t k).state = .linkReset ∧ ∃ e ∈ t.faults.unlogged, e.code = 0x0107 ∧ e.unit = k) ∧
    ((getLink s k).state = .up → now s < (getLink s k).lastFrame + 100000 → exec (.linkNoFrame k) s = .next s) ∧
    ((getLink s k).state = .training → (getLink s k).again = true →
      (now s < (getLink s k).since + 200000 → exec (.linkNoFrame k) s = .next s) ∧
      ((getLink s k).since + 200000 ≤ now s → (getLink s k).retrainFails = 0 → ∃ t, exec (.linkNoFrame k) s = .next t ∧
        LinkBecomes (send s (.training k (ownWord s k))) t k { getLink s k with
          state := .training
          since := now s
          retrains := (getLink s k).retrains + 1
          retrainFails := 1 }) ∧
      ((getLink s k).since + 200000 ≤ now s → 1 ≤ (getLink s k).retrainFails → ∃ t, exec (.linkNoFrame k) s = .next t ∧
        (getLink t k).state = .linkReset ∧ ∃ e ∈ t.faults.unlogged, e.code = 0x0107 ∧ e.unit = k)) ∧
    ((getLink s k).state = .training → (getLink s k).again = false →
      (now s < (getLink s k).since + 5000000 → exec (.linkNoFrame k) s = .next s) ∧
      ((getLink s k).since + 5000000 ≤ now s → ∃ t, exec (.linkNoFrame k) s = .next t ∧ t.mem = s.mem ∧
        ∃ e ∈ t.faults.unlogged, e.code = 0x0107 ∧ e.unit = k)) ∧
    ((getLink s k).state ≠ .up → (getLink s k).state ≠ .training → exec (.linkNoFrame k) s = .next s) := by
  have hexec : ∀ {t}, linkNoFrame s k = t → exec (.linkNoFrame k) s = .next t := fun h => guarded_next.mpr ⟨hk, h⟩
  refine ⟨fun h hn => ⟨_, hexec ((linkNoFrame_up h).trans (if_pos hn)), failLink_fails s k⟩,
    fun h hn => hexec ((linkNoFrame_up h).trans (if_neg (by omega))),
    fun h ha => ⟨fun hn => hexec ((linkNoFrame_again h ha).trans (if_pos hn)), fun hn hf => ?_, fun hn hf => ?_⟩,
    fun h ha => ⟨fun hn => hexec ((linkNoFrame_first h ha).trans (if_neg (by omega))), fun hn => ?_⟩,
    fun h h1 => hexec (linkNoFrame_not h h1)⟩
  · refine ⟨retrain (updLink s k (fun x => { x with retrainFails := x.retrainFails + 1 })) k, hexec ?_, ?_⟩
    · rw [linkNoFrame_again h ha, if_neg (by omega), retrainFails_false (.inr hf)]
      rfl
    · have hb := linkBecomes_retrains
        (linkBecomes_updLink s k (fun x => { x with retrainFails := x.retrainFails + 1 })) rfl rfl
      rwa [hf] at hb
  · refine ⟨failLink (updLink s k (fun x => { x with retrainFails := 0 })) k, hexec ?_, failLink_fails _ k⟩
    rw [linkNoFrame_again h ha, if_neg (by omega), retrainFails_true ha hf]
    rfl
  · obtain ⟨-, e, he, hev⟩ := failLink_fails s k
    refine ⟨_, hexec ((linkNoFrame_first h ha).trans (if_pos hn)), by simp, e, ?_, hev⟩
    rwa [nextFirst_faults]

theorem linkFrame_row {k : Nat} (hk : hasLink k = true) :
    (∀ (o : LinkFrameObs), (getLink s k).state = .up → o.decodes = true → (getLink s k).transitWait = [] →
      (o.idle = false → o.transit = false → ∃ t, exec (.linkFrame k o) s = .next t ∧
        LinkBecomes s t k { (getLink s k).received o (now s) with own := (getLink s k).own + 1 }) ∧
      (o.idle = true → ∃ t, exec (.linkFrame k o) s = .next t ∧ LinkBecomes s t k { (getLink s k).received o (now s) with
        idleDeleted := (getLink s k).idleDeleted + bit (o.aboveHalf && !o.marker)
        trimTemp := (getLink s k).trimWait.getD (getLink s k).trimTemp
        trimWait := none }) ∧
      (o.idle = false → o.transit = true → o.transitTo ≠ k → relaysHere s k o.transitTo = true →
        (getLink s o.transitTo).transitWait = [] →
        ∃ t, exec (.linkFrame k o) s = .next t ∧ t.mem = s.mem ∧ (getLink t k).transit = (getLink s k).transit + 1 ∧
          (getLink t k).own = (getLink s k).own ∧
          (getLink t o.transitTo).own = (getLink s o.transitTo).own + bit o.ownWaits ∧
          (transitFits (getLink s o.transitTo) o.units = true →
            (getLink t o.transitTo).transit = (getLink s o.transitTo).transit + 1 ∧
            (getLink t o.transitTo).transitWait = [] ∧ .transit o.transitTo o.units ∈ t.sent ∧ .credits k o.units ∈ t.sent) ∧
          (transitFits (getLink s o.transitTo) o.units = false →
            (getLink t o.transitTo).transit = (getLink s o.transitTo).transit ∧
            (getLink t o.transitTo).transitWait = [(k, o.units)])) ∧
      (o.idle = false → o.transit = true → relaysHere s k o.transitTo = false →
        ∃ t, exec (.linkFrame k o) s = .next t ∧ LinkBecomes s t k ((getLink s k).received o (now s)))) := by
  intro o h ho hw
  have hexec : exec (.linkFrame k o) s = .next (goodFrame s k o) := guarded_next.mpr ⟨hk, linkFrame_good h ho⟩
  have hb := linkBecomes_frameIn s k o
  refine ⟨fun hi ht => ⟨_, hexec, ?_⟩, fun hi => ⟨_, hexec, ?_⟩, fun hi ht hj hr hw' => ⟨_, hexec, ?_, ?_⟩,
    fun hi ht hr => ⟨_, hexec, ?_⟩⟩
  · rw [goodFrame_eq hw, hi, ht]
    exact linkBecomes_upd hb _
  · rw [goodFrame_eq hw, hi]
    exact linkBecomes_upd hb _
  · rw [← linkFrame_good h ho]
    exact mem_linkFrame s k o
  · obtain ⟨-, hother, hself⟩ := hb
    have ho' := hother o.transitTo hj
    have hrow := transitFrame_row (s := frameIn s k o) (o := o) hj (by rw [ho']; exact hw')
    rw [ho', hself] at hrow
    have he : goodFrame s k o = transitFrame (frameIn s k o) k o.transitTo o := by
      rw [goodFrame_eq hw, hi, ht, hr]
      rfl
    rw [he]
    exact hrow
  · rw [goodFrame_eq hw, hi, ht, hr]
    exact hb

/-- Settles O56: links by their training, their frames and their resets, and routes by their drains. -/
theorem linksTrainFailAndReroute : Obligations.LinksTrainFailAndReroute := by
  unfold Obligations.LinksTrainFailAndReroute
  refine ⟨?_, ?_, ?_, ?_, ?_⟩
  · rintro s k w _ hk rfl
    have hexec : ∀ {t}, trainingWord s k w = t → exec (.trainingWord k w) s = .next t := fun h => guarded_next.mpr ⟨hk, h⟩
    obtain ⟨r1, r2⟩ := trainingWord_row (s := s) w hk
    refine ⟨trainRefusal_eq_none, fun h => hexec (trainingWord_not h), r1, r2, ?_⟩
    rintro _ rfl h hr hw
    refine ⟨fun hn => ⟨_, hexec ((trainingWord_passes h hr hw).trans (if_pos hn)), (failLink_fails _ k).1⟩, fun hn => ?_⟩
    obtain ⟨t, ht, hrow⟩ := trainingWord_up h hr hw hn
    exact ⟨t, hexec ht.symm, hrow⟩
  · rintro s k _ hk rfl
    obtain ⟨n1, n2, n3, n4, n5⟩ := linkNoFrame_row (s := s) hk
    refine ⟨linkRetrainTimer_row hk, fun h => guarded_next.mpr ⟨hk, if_neg ?_⟩, n1, n2, n3, n4, n5, fun h hm => ?_,
      fun h => guarded_next.mpr ⟨hk, linkRelease_not h⟩, fun h => ?_, fun h hd hi => ?_, fun h hd => ?_,
      fun o h => guarded_next.mpr ⟨hk, linkFrame_not h⟩, ?_, fun o h ho => ?_⟩
    · rintro ⟨h1, h2⟩
      rcases h with h | h
      · exact h h1
      · omega
    · obtain ⟨t, ht, hrow⟩ := linkRelease_row h hm
      exact ⟨t, guarded_next.mpr ⟨hk, ht.symm⟩, hrow⟩
    · exact ⟨_, guarded_next.mpr ⟨hk, linkEntry_reset h⟩, afterReset_moduleReset (by decide)⟩
    · exact ⟨_, guarded_next.mpr ⟨hk, rfl⟩, linkEntry_row h hd hi⟩
    · refine guarded_next.mpr ⟨hk, (linkEntry_eq h).trans (if_neg ?_)⟩
      rintro ⟨h1, h2⟩
      rcases hd with hd | hd
      · exact h1 hd
      · exact Bool.false_ne_true (hd.symm.trans h2)
    · rintro o _ h ho hw rfl
      exact linkFrame_row hk o h ho hw
    · obtain ⟨b1, b2⟩ := badFrame_row h
      exact ⟨_, guarded_next.mpr ⟨hk, linkFrame_bad h ho⟩, b1, by simp, b2⟩
  · rintro s p _ m rfl
    refine ⟨fun h => ?_, fun r h hm => ?_, fun r h hm => ?_, fun h1 h2 h3 => ?_,
      fun h => congrArg Host.Outcome.next (relayRoute_not h)⟩
    · unfold mustMove
      rw [h]
    · rw [mustMove_relay h, hm]
      rfl
    · rw [mustMove_relay h, hm]
      exact decide_eq_true_iff
    · obtain ⟨t, ht, hrow⟩ := relayRoute_row (s := s) (p := p) (m := m) ⟨h1, h2, h3⟩
      exact ⟨t, congrArg Host.Outcome.next ht.symm, hrow⟩
  · intro s p q
    refine ⟨fun h1 h2 h3 h4 => ?_, exec_routeReturnTimer_not⟩
    obtain ⟨b1, b2⟩ := beginDrain_row s p q .direct
    exact ⟨_, exec_routeReturnTimer_back h1 h2 h3 h4, by rw [b2], b1, by rw [b2]⟩
  · intro s p d
    refine ⟨fun x h hn ho hm => ?_, fun x h hw => congrArg Host.Outcome.next (routeDrainDone_waits h hw),
      fun h => congrArg Host.Outcome.next (routeDrainDone_none h), fun o ho hh he => ownDrained_false ho hh he⟩
    obtain ⟨t, ht, hrow⟩ := routeDrainDone_row h hn ho hm
    exact ⟨t, congrArg Host.Outcome.next ht.symm, hrow⟩

end Sys2Proof.Machine
end

section
/-! SUPPORT. The recovery of sites, the Harbourmaster pair and the rungs of the ladder (O55): what a site that is back or lost
becomes, who is active after a switchover, and what the next rung resets. -/

namespace Sys2Proof.Machine

variable {s t u : State}

/-! ## A site that is back -/

theorem siteEvent_unlogged (s : State) (k o : Nat) : ∃ e, (siteEvent s k o).faults.unlogged = s.faults.unlogged ++ [e] ∧
    e.code = 0x0301 ∧ e.outcome = o ∧ e.site = k := by
  obtain ⟨e, he, hcode, hsite, -, -, hout, -⟩ := raise_unlogged (s := s)
    { code := 0x0301, outcome := o, site := k, part := (sitePart s k).getD 0xF, arg := (getSite s k).epoch.toNat }
  exact ⟨e, he, hcode, hout, hsite⟩

/-- The record of a site that is back. -/
def Site.back (x : Site) : Site := { x with dead := false, probing := false, epoch := x.epoch + 1 }

theorem siteBack_eq (s : State) (k : Nat) : siteBack s k =
    siteEvent (send (updSite s k Site.back) (.epoch k ((getSite s k).epoch + 1))) k 5 := by
  have h : (getSite (updSite s k Site.back) k).epoch = (getSite s k).epoch + 1 := by
    rw [getSite_upd_self]
    rfl
  rw [← h]
  rfl

theorem siteBack_row (s : State) (k : Nat) : getSite (siteBack s k) k = (getSite s k).back ∧
    .epoch k ((getSite s k).epoch + 1) ∈ (siteBack s k).sent ∧
    ∃ e ∈ (siteBack s k).faults.unlogged, e.code = 0x0301 ∧ e.outcome = 5 ∧ e.site = k := by
  obtain ⟨e, he, hev⟩ := siteEvent_unlogged (send (updSite s k Site.back) (.epoch k ((getSite s k).epoch + 1))) k 5
  rw [siteBack_eq]
  exact ⟨getSite_upd_self s k _, List.mem_append_right _ (List.mem_singleton_self _), e, by rw [he]; simp, hev⟩

theorem freeQuay_sites (s : State) (q : Nat) : (freeQuay s q).sites = s.sites := by
  unfold freeQuay
  refine foldl_keeps State.sites (fun t i => ?_) _ s
  dsimp only
  split
  · rfl
  · split <;> rfl

/-! ## A site that is lost -/

theorem loseBerth_retired (s : State) (b : Nat) : (getSite (loseBerth s b) b).retired = true := by
  unfold loseBerth
  split
  · next h => exact h
  · rw [getSite_congr (raise_sites _ _), getSite_congr (send_sites _ _), getSite_upd_self]

/-- The retirements of segments and their events leave a retired site retired. -/
theorem retired_retire (s : State) (j : Nat) (r : Retirement) (k : Nat) :
    (getSite (retire s j r) k).retired = (getSite s k).retired := by
  unfold retire
  by_cases hk : k = j
  · subst hk
    rw [getSite_upd_self]
    rfl
  · rw [getSite_upd_other _ _ hk]
    rfl

theorem retired_retireRange (s : State) (x : SegKey) (k : Nat) :
    (getSite (retireRange s x) k).retired = (getSite s k).retired := by
  unfold retireRange
  split
  · rfl
  · exact retired_retire { s with pool := { s.pool with ranges := s.pool.ranges ++ [{ key := x, since := now s }] } } _ _ k

theorem retired_settleLoss (s : State) (n k : Nat) : (getSite (settleLoss s n) k).retired = (getSite s k).retired := by
  unfold settleLoss
  dsimp only
  split
  · exact foldl_keeps (fun t => (getSite t k).retired) (fun t x => retired_retireRange t x k) _ s
  · rfl

theorem getSite_pool (s : State) (p : Pool) (k : Nat) : getSite { s with pool := p } k = getSite s k := rfl

theorem loseStack_retired (s : State) (n : Nat) (port : Bool) :
    (getSite (loseStack s n port) (stackSite n)).retired = true := by
  unfold loseStack
  dsimp only
  split
  · next h => exact h
  · split
    · rw [retired_settleLoss, getSite_pool, getSite_congr (raise_sites _ _), getSite_upd_self]
    · refine (foldl_keeps (fun t => (getSite t (stackSite n)).retired)
        (fun t _ => congrArg Site.retired (getSite_congr (raise_sites t _) _)) _ _).trans ?_
      rw [getSite_congr (raise_sites _ _), getSite_upd_self]

theorem endRelayed_sites (s : State) (r : Nat) : (endRelayed s r).sites = s.sites := by
  have hfold : ∀ l : List OutReq, RequestsEnd s
      (l.foldl (fun t o => noteOut (untrack t o.req.tag) o S_TARGET_DEAD (relayDetail s r)) s) := fun l =>
    foldl_rel RequestsEnd.refl RequestsEnd.trans
      (fun t o => (requestsEnd_untrack t o.req.tag).trans (requestsEnd_noteOut (untrack t o.req.tag) o _ _)) l s
  unfold endRelayed
  dsimp only
  split
  · exact (hfold _).2.2.1
  · exact (hfold _).2.2.1

theorem failQuayLinks_sites (s : State) (q : Nat) : (failQuayLinks s q).sites = s.sites := by
  unfold failQuayLinks
  refine foldl_keeps State.sites (fun t i => ?_) _ s
  split
  · rfl
  · exact endRelayed_sites _ _

theorem loseQuay_retired (s : State) (q : Nat) : (getSite (loseQuay s q) (quaySite q)).retired = true := by
  unfold loseQuay
  dsimp only
  split
  · next h => exact h
  · rw [getSite_congr (failQuayLinks_sites _ q)]
    rw [getSite_congr (raise_sites _ _), getSite_upd_self]

/-! ## The Harbourmaster pair -/

theorem getHm_upd_self (s : State) (i : Nat) (f : HmInst → HmInst) : getHm (updHm s i f) i = f (getHm s i) := by
  unfold getHm updHm
  split <;> rfl

theorem getHm_upd_other {i j : Nat} (f : HmInst → HmInst) (h : ¬ (j = 0 ↔ i = 0)) : getHm (updHm s i f) j = getHm s j := by
  unfold getHm updHm
  by_cases hi : i = 0 <;> by_cases hj : j = 0 <;> simp_all

/-- Changing one of the pair changes neither who is active nor when that was settled, and nothing else. -/
theorem updHm_row (s : State) (i : Nat) (f : HmInst → HmInst) : updHm s i f = { s with recovery := (updHm s i f).recovery } ∧
    (updHm s i f).recovery.active = s.recovery.active ∧ (updHm s i f).recovery.lastSwitch = s.recovery.lastSwitch := by
  unfold updHm
  split <;> exact ⟨rfl, rfl, rfl⟩

/-- Only the recovery records, the count of retirements and the events change, and no event is lost. -/
def PairOnly (s t : State) : Prop :=
  t = { s with recovery := t.recovery, sites := t.sites, faults := t.faults } ∧
  (∀ k, (getSite t k).epoch = (getSite s k).epoch) ∧
  s.faults.unlogged <+: t.faults.unlogged

theorem PairOnly.refl (s : State) : PairOnly s s := ⟨rfl, fun _ => rfl, List.prefix_rfl⟩
theorem PairOnly.trans (h : PairOnly s t) (g : PairOnly t u) : PairOnly s u := by
  obtain ⟨h1, h2, h3⟩ := h
  obtain ⟨g1, g2, g3⟩ := g
  exact ⟨by rw [g1, h1], fun k => (g2 k).trans (h2 k), h3.trans g3⟩

theorem hmEvent_unlogged (s : State) (i o : Nat) : ∃ e, (hmEvent s i o).faults.unlogged = s.faults.unlogged ++ [e] ∧
    e.code = 0x0402 ∧ e.unit = i ∧ e.outcome = o := by
  obtain ⟨e, he, hcode, -, hunit, -, hout, -⟩ := raise_unlogged (s := s)
    { code := 0x0402, outcome := o, site := hmSite, unit := i }
  exact ⟨e, he, hcode, hunit, hout⟩

theorem pairOnly_hmEvent (s : State) (i o : Nat) : PairOnly s (hmEvent s i o) := by
  obtain ⟨e, he, -⟩ := hmEvent_unlogged s i o
  exact ⟨rfl, fun _ => rfl, by rw [he]; exact List.prefix_append _ _⟩

theorem pairOnly_updHm (s : State) (i : Nat) (f : HmInst → HmInst) : PairOnly s (updHm s i f) := by
  obtain ⟨h, -⟩ := updHm_row s i f
  exact ⟨by rw [h], fun k => by rw [h]; rfl, by rw [h]⟩

theorem pairOnly_retire (s : State) (j : Nat) (r : Retirement) : PairOnly s (retire s j r) := by
  refine ⟨rfl, fun k => ?_, List.prefix_rfl⟩
  unfold retire
  by_cases hk : k = j
  · subst hk
    rw [getSite_upd_self]
    rfl
  · rw [getSite_upd_other _ _ hk]
    rfl

/-- The standby in control, with its event. -/
def switched (s : State) : State :=
  hmEvent { s with recovery := { s.recovery with active := 1 - s.recovery.active, lastSwitch := now s } }
    (1 - s.recovery.active) 2

/-- The failures of the active Harbourmaster within 24 h, with this one. -/
def hmFailures (s : State) : List Nat := within dayNs (now s) (getHm s s.recovery.active).faults ++ [now s]

/-- The failed Harbourmaster, tested or retired. -/
def failedHm (s : State) (retired : Bool) : State :=
  updHm (switched s) s.recovery.active (fun h =>
    if retired then { h with faults := hmFailures s, retired := true } else { h with faults := hmFailures s, testing := true })

theorem hmSwitchover_not (h : (getHm s (1 - s.recovery.active)).retired = true ∨
    (getHm s (1 - s.recovery.active)).testing = true) : hmSwitchover s = s :=
  if_pos (Bool.or_eq_true_iff.mpr h)

theorem hmSwitchover_eq (h : (getHm s (1 - s.recovery.active)).retired = false)
    (ht : (getHm s (1 - s.recovery.active)).testing = false) : hmSwitchover s =
      if 2 ≤ (hmFailures s).length then
        hmEvent (retire (failedHm s true) hmSite ⟨3, 0x0402, s.recovery.active, 0, 0⟩) s.recovery.active 2
      else orderTest (failedHm s false) (.harbourmaster s.recovery.active) 0 none := by
  unfold hmSwitchover
  dsimp only
  rw [h, ht]
  rfl

theorem pairOnly_switched (s : State) : PairOnly s (switched s) :=
  .trans (t := { s with recovery := { s.recovery with active := 1 - s.recovery.active, lastSwitch := now s } })
    ⟨rfl, fun _ => rfl, List.prefix_rfl⟩ (pairOnly_hmEvent _ _ _)

theorem pairOnly_failedHm (s : State) (r : Bool) : PairOnly s (failedHm s r) :=
  (pairOnly_switched s).trans (pairOnly_updHm _ _ _)

theorem pairOnly_hmSwitchover (s : State) : PairOnly s (hmSwitchover s) := by
  by_cases h : (getHm s (1 - s.recovery.active)).retired = true ∨ (getHm s (1 - s.recovery.active)).testing = true
  · rw [hmSwitchover_not h]
    exact .refl s
  · rw [not_or, Bool.not_eq_true, Bool.not_eq_true] at h
    rw [hmSwitchover_eq h.1 h.2]
    split
    · exact (pairOnly_failedHm s true).trans ((pairOnly_retire _ _ _).trans (pairOnly_hmEvent _ _ _))
    · exact (pairOnly_failedHm s false).trans ⟨rfl, fun _ => rfl, List.prefix_rfl⟩

/-- No rail reads what a change of the pair changes. -/
theorem PairOnly.railPoint (h : PairOnly s t) (r : Rail) : railPoint t r = railPoint s r := by
  obtain ⟨h, -⟩ := h
  rw [h]
  cases r <;> rfl

/-- What a switchover leaves of the pair: the other one is active, and the failed one is retired or tested. -/
theorem failedHm_row {a : Nat} (r : Bool) (ha : a = s.recovery.active) (h2 : a < 2) :
    (failedHm s r).recovery.active = 1 - a ∧ (failedHm s r).recovery.lastSwitch = now s ∧
    getHm (failedHm s r) (1 - a) = getHm s (1 - a) ∧
    getHm (failedHm s r) a = (if r then { getHm s a with faults := hmFailures s, retired := true }
      else { getHm s a with faults := hmFailures s, testing := true }) := by
  subst ha
  obtain ⟨-, h3, h4⟩ := updHm_row (switched s) s.recovery.active (fun h =>
    if r then { h with faults := hmFailures s, retired := true } else { h with faults := hmFailures s, testing := true })
  exact ⟨h3, h4, getHm_upd_other _ (by omega), getHm_upd_self _ _ _⟩

theorem hmSwitchover_row {a : Nat} (ha : a = s.recovery.active) (h2 : a < 2) (hr : (getHm s (1 - a)).retired = false)
    (ht : (getHm s (1 - a)).testing = false) : ∃ t, t = hmSwitchover s ∧
      t.recovery.active = 1 - a ∧ t.recovery.lastSwitch = now s ∧ getHm t (1 - a) = getHm s (1 - a) ∧ t.mem = s.mem ∧
      (∀ r, railPoint t r = railPoint s r) ∧
      (∃ e ∈ t.faults.unlogged, e.code = 0x0402 ∧ e.unit = 1 - a ∧ e.outcome = 2) ∧
      (within 86400000000000 (now s) (getHm s a).faults = [] → (getHm t a).testing = true ∧
        (getHm t a).retired = (getHm s a).retired) ∧
      (within 86400000000000 (now s) (getHm s a).faults ≠ [] → (getHm t a).retired = true) := by
  have hp := pairOnly_hmSwitchover s
  have hf := hp.1
  obtain ⟨e, he, hev⟩ := hmEvent_unlogged
    { s with recovery := { s.recovery with active := 1 - s.recovery.active, lastSwitch := now s } } (1 - s.recovery.active) 2
  have hin : e ∈ (switched s).faults.unlogged := by
    rw [switched, he]
    simp
  have heq := hmSwitchover_eq (s := s) (by rw [← ha]; exact hr) (by rw [← ha]; exact ht)
  have hlen : (hmFailures s).length = (within 86400000000000 (now s) (getHm s a).faults).length + 1 := by
    rw [hmFailures, ← ha, List.length_append]
    rfl
  have hrest : (hmSwitchover s).mem = s.mem ∧ ∀ r, railPoint (hmSwitchover s) r = railPoint s r :=
    ⟨by rw [hf], hp.railPoint⟩
  refine ⟨_, rfl, ?_⟩
  by_cases hw : within 86400000000000 (now s) (getHm s a).faults = []
  · obtain ⟨r1, r2, r3, r4⟩ := failedHm_row false ha h2
    obtain ⟨-, -, hu⟩ := pairOnly_updHm (switched s) s.recovery.active
      (fun h => { h with faults := hmFailures s, testing := true })
    rw [hw] at hlen
    rw [heq, if_neg (by rw [hlen]; decide)] at hrest ⊢
    refine ⟨r1, r2, r3, hrest.1, hrest.2, ⟨e, hu.subset hin, by rw [ha]; exact hev⟩, fun _ => ?_, fun h => absurd hw h⟩
    have h4 : getHm (orderTest (failedHm s false) (.harbourmaster s.recovery.active) 0 none) a =
        { getHm s a with faults := hmFailures s, testing := true } := r4
    rw [h4]
    exact ⟨rfl, rfl⟩
  · obtain ⟨r1, r2, r3, r4⟩ := failedHm_row true ha h2
    obtain ⟨-, -, hu⟩ := pairOnly_updHm (switched s) s.recovery.active
      (fun h => { h with faults := hmFailures s, retired := true })
    obtain ⟨-, -, hv⟩ := (pairOnly_retire (failedHm s true) hmSite ⟨3, 0x0402, s.recovery.active, 0, 0⟩).trans
      (pairOnly_hmEvent _ s.recovery.active 2)
    have hpos := List.length_pos_iff.mpr hw
    rw [heq, if_pos (by omega)] at hrest ⊢
    refine ⟨r1, r2, r3, hrest.1, hrest.2, ⟨e, hv.subset (hu.subset hin), by rw [ha]; exact hev⟩, fun h => absurd h hw,
      fun _ => ?_⟩
    have h4 : getHm (hmEvent (retire (failedHm s true) hmSite ⟨3, 0x0402, s.recovery.active, 0, 0⟩) s.recovery.active 2) a =
        { getHm s a with faults := hmFailures s, retired := true } := r4
    rw [h4]

/-! ### Handback -/

/-- HM-A is in control again, before its event. -/
def hmBack (s : State) : State :=
  updHm { s with recovery := { s.recovery with active := 0, lastSwitch := now s } } 1
    (fun x => { x with standbySince := now s })

theorem hmHandback_eq (s : State) : hmHandback s =
    if s.recovery.active = 1 ∧ s.recovery.hmA.retired = false ∧ s.recovery.hmA.testing = false ∧
      s.recovery.hmA.standbySince + 10000000000 ≤ now s then hmEvent (hmBack s) 0 0
    else s := rfl

theorem hmHandback_row (h1 : s.recovery.active = 1) (h2 : s.recovery.hmA.retired = false) (h3 : s.recovery.hmA.testing = false)
    (h4 : s.recovery.hmA.standbySince + 10000000000 ≤ now s) : ∃ t, t = hmHandback s ∧ t.recovery.active = 0 ∧
      t.recovery.lastSwitch = now s ∧ t.recovery.hmA = s.recovery.hmA ∧
      t.recovery.hmB = { s.recovery.hmB with standbySince := now s } ∧
      t = { s with recovery := t.recovery, faults := t.faults } ∧
      ∃ e, t.faults.unlogged = s.faults.unlogged ++ [e] ∧ e.code = 0x0402 ∧ e.unit = 0 := by
  obtain ⟨e, he, hcode, hunit, -⟩ := hmEvent_unlogged (hmBack s) 0 0
  refine ⟨_, rfl, ?_⟩
  rw [hmHandback_eq, if_pos ⟨h1, h2, h3, h4⟩]
  exact ⟨rfl, rfl, rfl, rfl, rfl, e, he, hcode, hunit⟩

theorem hmHandback_not (h : s.recovery.active = 0 ∨ s.recovery.hmA.retired = true ∨ s.recovery.hmA.testing = true ∨
    now s < s.recovery.hmA.standbySince + 10000000000) : hmHandback s = s := by
  rw [hmHandback_eq]
  refine if_neg ?_
  rintro ⟨h1, h2, h3, h4⟩
  rcases h with h | h | h | h
  · omega
  · exact Bool.false_ne_true (h2.symm.trans h)
  · exact Bool.false_ne_true (h3.symm.trans h)
  · omega

end Sys2Proof.Machine
end

section
/-! SUPPORT. The end of a recovery, and the rungs that follow one that has not ended (O55). -/

namespace Sys2Proof.Machine

variable {s t u : State}

/-! ## The end of a recovery -/

theorem siteKind_berth {k b : Nat} (h : siteKind k = .berth b) : k = b := by
  unfold siteKind at h
  split at h
  · exact SiteKind.berth.inj h
  · (repeat' split at h) <;> cases h

theorem siteKind_stack {k n : Nat} (h : siteKind k = .stack n) : k = stackSite n := by
  unfold siteKind at h
  split at h
  · cases h
  · split at h
    · have := SiteKind.stack.inj h
      unfold stackSite
      omega
    · (repeat' split at h) <;> cases h

theorem siteKind_quay {k q : Nat} (h : siteKind k = .quay q) : k = quaySite q := by
  unfold siteKind at h
  split at h
  · cases h
  · split at h
    · cases h
    · split at h
      · have := SiteKind.quay.inj h
        unfold quaySite
        omega
      · split at h <;> cases h

theorem siteRecovery_live {k : Nat} {pass : Bool} (h : (getSite s k).dead = false) : siteRecovery s k pass = s :=
  if_pos (by rw [h]; rfl)

theorem siteRecovery_dead {k : Nat} {pass : Bool} (h : (getSite s k).dead = true) : siteRecovery s k pass =
    match siteKind k with
    | .berth b =>
      if (getBerth s b).hold || berthResetting s b then s
      else if pass then siteBack (endRung s 3 (8 + b)) k
      else loseBerth (endRung s 3 (8 + b)) b
    | .stack n =>
      if pass then siteBack (blockReset s (· == stackDom n)) k else loseStack s n (portServes s k)
    | .quay q =>
      if pass then siteBack (freeQuay (blockReset s (· == quayDom q)) q) k else loseQuay s q
    | _ =>
      if pass then siteBack (hmSwitchover (blockReset s (fun d => d == 1 || d == 2))) k
      else dumpReset (takeRung s 4 0 hmSite hmSite) 0x11 := by
  unfold siteRecovery
  rw [h]
  rfl

theorem siteRecovery_held {k b : Nat} {pass : Bool} (h : (getSite s k).dead = true) (hk : siteKind k = .berth b)
    (hb : (getBerth s b).hold = true ∨ berthResetting s b = true) : siteRecovery s k pass = s := by
  rw [siteRecovery_dead h, hk]
  exact if_pos (Bool.or_eq_true_iff.mpr hb)

theorem siteRecovery_berthLost {k b : Nat} (h : (getSite s k).dead = true) (hk : siteKind k = .berth b)
    (hb : (getBerth s b).hold = false) (hr : berthResetting s b = false) :
    siteRecovery s k false = loseBerth (endRung s 3 (8 + b)) b := by
  rw [siteRecovery_dead h, hk]
  dsimp only
  rw [hb, hr]
  rfl

/-- A recovery that passes brings the site back from a state that has its epoch and the memory. -/
theorem siteRecovery_passes {k : Nat} (h : (getSite s k).dead = true) (hb : ∀ b, siteKind k = .berth b →
    (getBerth s b).hold = false ∧ berthResetting s b = false) : ∃ u, siteRecovery s k true = siteBack u k ∧
      (getSite u k).epoch = (getSite s k).epoch ∧ u.mem = s.mem := by
  have hhm : ∀ u : State, u.sites = s.sites → u.mem = s.mem →
      (getSite (hmSwitchover u) k).epoch = (getSite s k).epoch ∧ (hmSwitchover u).mem = s.mem := fun u hs hm => by
    obtain ⟨-, he, -⟩ := pairOnly_hmSwitchover u
    exact ⟨(he k).trans (congrArg Site.epoch (getSite_congr hs k)), (mem_hmSwitchover u).trans hm⟩
  rw [siteRecovery_dead h]
  cases hk : siteKind k with
  | berth b =>
    obtain ⟨h1, h2⟩ := hb b hk
    refine ⟨endRung s 3 (8 + b), ?_, rfl, rfl⟩
    dsimp only
    rw [h1, h2]
    rfl
  | stack n => exact ⟨_, rfl, rfl, rfl⟩
  | quay q =>
    exact ⟨_, rfl, congrArg Site.epoch (getSite_congr ((freeQuay_sites _ q).trans (blockReset_sites s _)) k), by simp⟩
  | harbourmaster => exact ⟨_, rfl, hhm _ (blockReset_sites s _) (mem_blockReset s _)⟩
  | reserved => exact ⟨_, rfl, hhm _ (blockReset_sites s _) (mem_blockReset s _)⟩

theorem siteRecovery_back {k : Nat} (h : (getSite s k).dead = true) (hb : ∀ b, siteKind k = .berth b →
    (getBerth s b).hold = false ∧ berthResetting s b = false) : ∃ t, t = siteRecovery s k true ∧
      (getSite t k).dead = false ∧ (getSite t k).probing = false ∧ (getSite t k).epoch = (getSite s k).epoch + 1 ∧
      .epoch k ((getSite s k).epoch + 1) ∈ t.sent ∧ t.mem = s.mem ∧
      ∃ e ∈ t.faults.unlogged, e.code = 0x0301 ∧ e.outcome = 5 ∧ e.site = k := by
  obtain ⟨u, hu, hepoch, hmem⟩ := siteRecovery_passes h hb
  obtain ⟨h1, h2, h3⟩ := siteBack_row u k
  refine ⟨_, rfl, ?_⟩
  rw [hu, h1, mem_siteBack, ← hepoch]
  exact ⟨rfl, rfl, rfl, h2, hmem, h3⟩

theorem siteRecovery_lost {k : Nat} (h : (getSite s k).dead = true)
    (hk : ∃ n, siteKind k = .stack n ∨ siteKind k = .quay n) :
    (getSite (siteRecovery s k false) k).retired = true ∧ (siteRecovery s k false).mem = s.mem := by
  rw [siteRecovery_dead h]
  obtain ⟨n, hk | hk⟩ := hk
  · rw [hk, siteKind_stack hk]
    exact ⟨loseStack_retired s n _, mem_loseStack s n _⟩
  · rw [hk, siteKind_quay hk]
    exact ⟨loseQuay_retired s n, mem_loseQuay s n⟩

/-! ## A module reset as a rung -/

/-- Rungs and events are none of what a module reset is judged by. -/
theorem afterReset_rung {code : Nat} (h : AfterReset u t code)
    (hu : u = { s with recovery := u.recovery, faults := u.faults }) : AfterReset s t code := by
  rw [hu] at h
  exact h

/-- A module reset with its crash dump, taken as rung 4. -/
theorem rung4_resets (s : State) (unit : Nat) : AfterReset s (dumpReset (takeRung s 4 0 unit hmSite) 0x11) 0x11 ∧
    (dumpReset (takeRung s 4 0 unit hmSite) 0x11).recovery.dumpCount = s.recovery.dumpCount + 1 := by
  obtain ⟨ha, hd⟩ := afterReset_dumpReset (s := takeRung s 4 0 unit hmSite) (code := 0x11) (by decide)
  exact ⟨afterReset_rung ha rfl, hd⟩

/-! ## The reset of a berth as a rung -/

theorem rotation_updEngine {f : Engine → Engine} (hf : ∀ x, (f x).rotation = x.rotation) (u : State) (b k c e : Nat) :
    (getEngine (updEngine u b k f) c e).rotation = (getEngine u c e).rotation := by
  unfold getEngine updEngine
  dsimp only
  rw [tabGet_upd]
  split
  · next h => rw [h, hf]
  · rfl

/-- A reset of a berth leaves the rotation of its engines. -/
theorem rotation_enginesCleared (u : State) (b c e : Nat) :
    (getEngine (enginesCleared u b) c e).rotation = (getEngine u c e).rotation := by
  unfold enginesCleared
  generalize List.range 16 = l
  refine foldl_keeps (fun t => (getEngine t c e).rotation) (fun t k => ?_) l u
  exact rotation_updEngine (f := fun x => { x.clear (· + 1) with resetting := false }) (fun _ => rfl) t b k c e

/-- The memory of a berth is zero, with its DRAM or without, its blocks serve again, and its epoch rises. -/
def berthWiped (u : State) (dram : Bool) (b : Nat) : State :=
  let s3 := blockReset (zeroBerth u dram b) (domOfBerth b)
  updSite { s3 with reqs := { s3.reqs with ingress := s3.reqs.ingress.filter (fun r => r.1 != b) } } b
    (fun k => { k with epoch := k.epoch + 1, drain := none })

theorem resetBerth_wipes (s : State) (dram : Bool) (b : Nat) :
    resetBerth s dram b = berthWiped (enginesCleared (takeOver (berthAborted s b) b) b) dram b := by
  unfold resetBerth berthWiped enginesCleared berthAborted
  rfl

theorem getEngine_berthWiped (u : State) (dram : Bool) (b c e : Nat) :
    getEngine (berthWiped u dram b) c e = getEngine u c e := rfl
theorem getCtx_berthWiped (u : State) (dram : Bool) (b c : Nat) : getCtx (berthWiped u dram b) c = getCtx u c := rfl
theorem getEngine_closeRanges (u : State) (b c e : Nat) : getEngine (closeRanges u b) c e = getEngine u c e := rfl

theorem rotation_resetBerth (s : State) (dram : Bool) (b c e : Nat) :
    (getEngine (resetBerth s dram b) c e).rotation = (getEngine s c e).rotation := by
  have hg : getEngine (takeOver (berthAborted s b) b) c e = getEngine s c e := by
    obtain ⟨-, -, -, he⟩ := (berthAborted_frame s b).keeps
    unfold getEngine
    rw [takeOver_engines, he]
  rw [resetBerth_wipes, getEngine_berthWiped, rotation_enginesCleared, hg]

/-- The contexts of a berth that is reset are closed, with or without its DRAM. -/
theorem closed_resetBerth (s : State) (dram : Bool) {b k : Nat} (hk : k < 8) :
    (getCtx (resetBerth s dram b) (8 * b + k)).state = .closed := by
  have h : getCtx (resetBerth s dram b) (8 * b + k) = getCtx (berthReset s b) (8 * b + k) := by
    rw [berthReset, getCtx_closeRanges, resetBerth_wipes, getCtx_berthWiped, resetBerth_wipes, getCtx_berthWiped]
  rw [h, getCtx_berthReset, if_pos (by omega)]
  rfl

theorem rotation_berthsReset (s : State) (p c e : Nat) :
    (getEngine (berthsReset s p) c e).rotation = (getEngine s c e).rotation :=
  foldl_keeps (fun t => (getEngine t c e).rotation)
    (fun t b => (congrArg Engine.rotation (getEngine_closeRanges _ b c e)).trans (rotation_resetBerth t true b c e)) _ s

/-- After the source of a partition reset the partition is in its reset, if the module was READY. -/
theorem beginPartitionReset_resetting (s : State) (p cause : Nat) (hr : s.rst.ready = true) :
    (getPart (beginPartitionReset s p cause) p).resetting = true := by
  cases hp : (getPart s p).resetting with
  | true => rw [beginPartitionReset_joins hr hp, hp]
  | false =>
    obtain ⟨t, ht, -, hself, -⟩ := partReset_begin cause hr hp
    rw [← ht, hself]

theorem rotation_beginPartitionReset (s : State) (p cause b e : Nat) :
    (getEngine (beginPartitionReset s p cause) b e).rotation = (getEngine s b e).rotation := by
  cases hr : s.rst.ready with
  | false =>
    rw [beginPartitionReset_dropped hr]
    rfl
  | true =>
    cases hp : (getPart s p).resetting with
    | true => rw [beginPartitionReset_joins hr hp]
    | false =>
      obtain ⟨t, ht, hframe, -⟩ := partReset_begin cause hr hp
      rw [← ht, ← rotation_berthsReset s p b e]
      unfold getEngine
      rw [hframe]

/-- Rung 3 for a berth: its partition is in its reset, or without one its contexts are closed; no engine comes back. -/
theorem resetBerthRung_row (s : State) (b cause : Nat) :
    (∀ p, berthPart s b = some p → s.rst.ready = true → (getPart (resetBerthRung s b cause) p).resetting = true) ∧
    (berthPart s b = none → ∀ k, k < 8 → (getCtx (resetBerthRung s b cause) (8 * b + k)).state = .closed) ∧
    ∀ c e, (getEngine (resetBerthRung s b cause) c e).rotation = (getEngine s c e).rotation := by
  unfold resetBerthRung
  cases hb : berthPart s b with
  | some p =>
    refine ⟨fun q hq hr => ?_, (by intro h; cases h), rotation_beginPartitionReset s p cause⟩
    cases hq
    exact beginPartitionReset_resetting s p cause hr
  | none =>
    exact ⟨(by intro q hq; cases hq), fun _ k hk => closed_resetBerth s false hk, rotation_resetBerth s false b⟩

/-! ## An engine that leaves service as a rung -/

theorem answer_serves (r : Route) (x : MbxResult) : (answer s r x).rst = s.rst ∧ (answer s r x).sec = s.sec := by
  unfold answer
  split
  · split <;> exact ⟨rfl, rfl⟩
  · split
    · split
      · rw [issueFrame_issueResults]
        exact ⟨rfl, rfl⟩
      · exact ⟨rfl, rfl⟩
    · exact ⟨rfl, rfl⟩

theorem gatherResult_serves (code : Nat) (fail : Bool) (enob us : Nat) (r : Route) :
    (gatherResult code fail enob us s r).rst = s.rst ∧ (gatherResult code fail enob us s r).sec = s.sec := by
  unfold gatherResult
  dsimp only
  split
  · exact ⟨rfl, rfl⟩
  · obtain ⟨h1, h2⟩ := answer_serves (s := nextFresh { s with recovery := { s.recovery with
        gather := s.recovery.gather.filter (fun x => decide (x.who ≠ r)) } }) r
      ⟨S_OK, 0, resultWord ((gathered s r).fail || fail) code
        (match (gathered s r).enobs ++ [enob] with
          | [x] => x
          | l => (Config.allEnob s.fresh l).toNat) ((gathered s r).us + us)⟩
    exact ⟨h1, h2⟩

/-- Two states with the same resets and the same protection. -/
def Serves (s t : State) : Prop := t.rst = s.rst ∧ t.sec = s.sec

theorem Serves.refl (s : State) : Serves s s := ⟨rfl, rfl⟩
theorem Serves.trans (h : Serves s t) (g : Serves t u) : Serves s u := ⟨g.1.trans h.1, g.2.trans h.2⟩

theorem serves_foldCtxs (g : Nat → Context → Context) (l : List Nat) (s : State) :
    Serves s (l.foldl (fun t k => updCtx t k (g k)) s) := foldl_rel .refl .trans (fun _ _ => ⟨rfl, rfl⟩) l s

theorem serves_dropTests (s : State) (el : Element) : Serves s (dropTests s el) := by
  unfold dropTests
  refine foldl_rel .refl .trans (fun t x => ?_) _ s
  unfold closeTest
  have hdrop : Serves t { t with recovery := { t.recovery with
    tests := t.recovery.tests.filter (fun y => decide (y ≠ x)) } } := ⟨rfl, rfl⟩
  refine hdrop.trans ?_
  exact foldl_rel .refl .trans (fun v r => gatherResult_serves _ _ _ _ r) _ _

theorem serves_leaveService (s : State) (b e n : Nat) : Serves s (leaveService s b e n) := by
  unfold leaveService
  split
  · exact .refl s
  · refine .trans ?_ (serves_dropTests _ _)
    refine .trans ?_ (serves_foldCtxs _ _ _)
    refine .trans ?_ (serves_foldCtxs _ _ _)
    exact ⟨rfl, rfl⟩

theorem leaveService_left (s : State) (b e n : Nat) : (getEngine (leaveService s b e n) b e).rotation = .left := by
  by_cases h : (getEngine s b e).rotation = .left
  · rw [leaveService, if_pos h, h]
  · exact (getEngine_leaveService n h).1

/-! ## The deadline of a rung -/

/-- A rung that is in progress. -/
def rungOf (s : State) (rung reach unit : Nat) : Option (Nat × Nat × Nat × Nat) :=
  s.recovery.rungs.find? (fun x => x.1 == rung && x.2.1 == reach && x.2.2.1 == unit)

theorem rungDeadline_none {rung reach unit : Nat} (h : rungOf s rung reach unit = none) :
    rungDeadline s rung reach unit = s := by
  unfold rungOf at h
  unfold rungDeadline
  rw [h]

theorem rungDeadline_early {rung reach unit : Nat} {x : Nat × Nat × Nat × Nat} (h : rungOf s rung reach unit = some x)
    (hn : now s < x.2.2.2 + rungLimit rung) : rungDeadline s rung reach unit = s := by
  unfold rungOf at h
  unfold rungDeadline
  rw [h]
  exact if_pos hn

/-- The next rung for a berth: rung 3 is taken, and the berth or its partition reset. -/
def climb (t : State) (unit b : Nat) : State := resetBerthRung (takeRung t 3 ((berthPart t b).getD (8 + b)) unit b) b 2

theorem rungDeadline_one {reach unit : Nat} {x : Nat × Nat × Nat × Nat} (h : rungOf s 1 reach unit = some x)
    (hn : x.2.2.2 + rungLimit 1 ≤ now s) : rungDeadline s 1 reach unit =
      climb (endRung s 1 reach) unit (reach / 8) := by
  unfold rungOf at h
  unfold rungDeadline
  rw [h]
  exact if_neg (Nat.not_lt.mpr hn)

theorem rungDeadline_two {reach unit : Nat} {x : Nat × Nat × Nat × Nat} (h : rungOf s 2 reach unit = some x)
    (hn : x.2.2.2 + rungLimit 2 ≤ now s) : rungDeadline s 2 reach unit =
      climb (leaveService (endRung s 2 reach) (reach / 16) (reach % 16) 9) unit (reach / 16) := by
  unfold rungOf at h
  unfold rungDeadline
  rw [h]
  exact if_neg (Nat.not_lt.mpr hn)

theorem rungDeadline_three {reach unit : Nat} {x : Nat × Nat × Nat × Nat} (h : rungOf s 3 reach unit = some x)
    (hn : x.2.2.2 + rungLimit 3 ≤ now s) : rungDeadline s 3 reach unit =
      dumpReset (takeRung (endRung s 3 reach) 4 0 unit hmSite) 0x11 := by
  unfold rungOf at h
  unfold rungDeadline
  rw [h]
  exact if_neg (Nat.not_lt.mpr hn)

theorem climb_row (s : State) (unit b : Nat) :
    (∀ p, berthPart s b = some p → s.rst.ready = true → (getPart (climb s unit b) p).resetting = true) ∧
    (berthPart s b = none → ∀ k, k < 8 → (getCtx (climb s unit b) (8 * b + k)).state = .closed) ∧
    ∀ c e, (getEngine (climb s unit b) c e).rotation = (getEngine s c e).rotation :=
  resetBerthRung_row (takeRung s 3 ((berthPart s b).getD (8 + b)) unit b) b 2

/-- A rung of a berth's context or engine that has not ended. -/
theorem rungDeadline_climbs {rung reach unit b : Nat} {x : Nat × Nat × Nat × Nat} (h : rungOf s rung reach unit = some x)
    (hn : x.2.2.2 + rungLimit rung ≤ now s) (hb : (rung = 1 ∧ b = reach / 8) ∨ (rung = 2 ∧ b = reach / 16)) :
    (rung = 2 → (getEngine (rungDeadline s rung reach unit) b (reach % 16)).rotation = .left) ∧
    (∀ p, berthPart s b = some p → s.rst.ready = true → (getPart (rungDeadline s rung reach unit) p).resetting = true) ∧
    (berthPart s b = none → ∀ k, k < 8 → (getCtx (rungDeadline s rung reach unit) (8 * b + k)).state = .closed) := by
  rcases hb with ⟨rfl, rfl⟩ | ⟨rfl, rfl⟩
  · rw [rungDeadline_one h hn]
    obtain ⟨h1, h2, -⟩ := climb_row (endRung s 1 reach) unit (reach / 8)
    exact ⟨fun h => absurd h (by decide), h1, h2⟩
  · rw [rungDeadline_two h hn]
    obtain ⟨h1, h2, h3⟩ := climb_row (leaveService (endRung s 2 reach) (reach / 16) (reach % 16) 9) unit (reach / 16)
    obtain ⟨hr, hs⟩ := serves_leaveService (endRung s 2 reach) (reach / 16) (reach % 16) 9
    have hp : berthPart (leaveService (endRung s 2 reach) (reach / 16) (reach % 16) 9) (reach / 16) =
        berthPart s (reach / 16) := by
      unfold berthPart
      rw [hs]
      rfl
    rw [hp, hr] at h1
    rw [hp] at h2
    exact ⟨fun _ => (h3 _ _).trans (leaveService_left _ _ _ _), h1, h2⟩

theorem rungDeadline_resets {reach unit : Nat} {x : Nat × Nat × Nat × Nat} (h : rungOf s 3 reach unit = some x)
    (hn : x.2.2.2 + rungLimit 3 ≤ now s) : AfterReset s (rungDeadline s 3 reach unit) 0x11 ∧
      (rungDeadline s 3 reach unit).recovery.dumpCount = s.recovery.dumpCount + 1 := by
  rw [rungDeadline_three h hn]
  obtain ⟨ha, hd⟩ := rung4_resets (endRung s 3 reach) unit
  exact ⟨afterReset_rung ha rfl, hd⟩

/-- Settles O55: sites by the end of their recovery, the pair by its switchover, and the rungs by their deadlines. -/
theorem recoveryClimbsItsLadder : Obligations.RecoveryClimbsItsLadder := by
  unfold Obligations.RecoveryClimbsItsLadder
  refine ⟨fun s k pass hk => ?_, fun s f a hs ha h2 => ⟨fun h => ?_, fun hr ht => ?_⟩, ?_, ?_⟩
  · have hexec : ∀ {t}, siteRecovery s k pass = t → exec (.siteRecovery k pass) s = .next t :=
      fun h => guarded_next.mpr ⟨hk, h⟩
    refine ⟨fun h => hexec (siteRecovery_live h), fun b h hb => ⟨fun hh => hexec (siteRecovery_held h hb hh), ?_⟩, ?_, ?_, ?_⟩
    · rintro hh hr rfl
      refine ⟨_, hexec (siteRecovery_berthLost h hb hh hr), ?_⟩
      rw [siteKind_berth hb]
      exact loseBerth_retired _ b
    · rintro h rfl hb
      obtain ⟨t, ht, hrow⟩ := siteRecovery_back h hb
      exact ⟨t, hexec ht.symm, hrow⟩
    · rintro h rfl hl
      exact ⟨_, hexec rfl, siteRecovery_lost h hl⟩
    · rintro h rfl hm
      refine ⟨_, hexec ?_, rung4_resets s hmSite⟩
      rw [siteRecovery_dead h, hm]
      rfl
  · refine congrArg Host.Outcome.next ((if_pos hs).trans (hmSwitchover_not ?_))
    rwa [← ha]
  · obtain ⟨t, ht, hrow⟩ := hmSwitchover_row ha h2 hr ht
    exact ⟨t, congrArg Host.Outcome.next ((if_pos hs).trans ht.symm), hrow⟩
  · rintro s _ rfl
    refine ⟨fun h1 h2 h3 h4 => ?_, fun h => congrArg Host.Outcome.next (hmHandback_not h), rfl⟩
    obtain ⟨t, ht, hrow⟩ := hmHandback_row h1 h2 h3 h4
    exact ⟨t, congrArg Host.Outcome.next ht.symm, hrow⟩
  · rintro s rung reach unit _ rfl
    refine ⟨fun h => congrArg Host.Outcome.next (rungDeadline_none h),
      fun x h hn => congrArg Host.Outcome.next (rungDeadline_early h hn),
      fun x h hn => ⟨fun b hb => ⟨_, rfl, rungDeadline_climbs h hn hb⟩, ?_⟩⟩
    rintro rfl
    exact ⟨_, rfl, rungDeadline_resets h hn⟩

end Sys2Proof.Machine
end
